-- ==== Sys2Proof/Word.lean ====
section
/-! DEFINITION. The word types of the SV8128 and the raw data that its frames and memories carry. -/

set_option Elab.async false

namespace Sys2Proof

/-- One byte (R5). -/
abbrev Byte := BitVec 8

/-- One register word, one lane register, one Milepost nanosecond value (R3, R44, R138). -/
abbrev Word := BitVec 32

/-- A lane vector register (R138). -/
abbrev VWord := BitVec 128

/-- A byte sequence in ascending address or transmission order (R5). -/
abbrev Bytes := List Byte

end Sys2Proof
end

