-- ==== Sys2Proof/Syntax.lean ====
section
/-! DEFINITION. The commands of the block: one constructor per row of spec/opcode_table.json, with the operands
that come from outside the device (R403's access paths, pins, lines, peers, memory answers). -/

set_option Elab.async false

namespace Sys2Proof

/-- Access path 0-7 (R403). -/
abbrev Path := Fin 8
/-- Lane 0-1,023 (R12). -/
abbrev Lane := Fin 1024
/-- District 0-63 (R12). -/
abbrev District := Fin 64
/-- Field port 0-127 (R170). -/
abbrev FieldPort := Fin 128
/-- External port 0-131: the field ports and trunks T0-T3 (R11). -/
abbrev ExtPort := Fin 132
/-- Switch port 0-199 (R11). -/
abbrev SwPort := Fin 200
/-- General register of a lane (R138). -/
abbrev GReg := Fin 32
/-- Vector register of a lane (R138). -/
abbrev VReg := Fin 16

/-- What a memory does with an access: it answers, answers after correcting an ECC error, answers with an
uncorrectable error, or gives no answer within 4,096 BCLK cycles (R112, R304, R317). -/
inductive MemAnswer where
  | ok | corrected | uncorrectable | noAnswer
deriving DecidableEq, Repr

/-- A lane whose local memory is accessed, and how that memory answers (R112). -/
structure LaneAnswer where
  lane : Lane
  ans : MemAnswer
deriving DecidableEq, Repr

/-- A received fragment (R199, R200): its bytes without mCRC, the phase of its timestamp point in sixteenths of the TCLK
period, a PCS or line-code error in it, and whether it is a verify request of the partner. -/
structure FragmentIn where
  bytes : Bytes
  phase : Fin 16 := 0
  symbolErr : Bool := false
  verify : Bool := false
deriving DecidableEq, Repr

/-- A frame from an internal switch port (R209): its bytes without FCS, and the one-step reference that a firmware frame
carries (R38). -/
structure FrameOut where
  bytes : Bytes
  reference : Option (BitVec 32) := none
deriving DecidableEq, Repr

/-- What clause 98 resolved on a T1L link (R172): the level, and whether the partner advertises EEE. -/
structure LinkPartner where
  level : BitVec 2
  eee : Bool := false
deriving DecidableEq, Repr

/-- A frame that is still arriving: its bytes without FCS, and the phase of its timestamp point (R34, R210). -/
structure HeadIn where
  bytes : Bytes
  phase : Fin 16 := 0
deriving DecidableEq, Repr

/-- How the end of a frame shows at its MAC (R202, R233): a good FCS and reception, and PCS or line-code errors. -/
structure FrameEnd where
  good : Bool
  symbolErr : Bool := false
deriving DecidableEq, Repr

/-- What the packet buffer answers for a copy, and the cell of the copy that the answer is about (R228). -/
structure CellAnswer where
  ans : MemAnswer
  cell : Nat := 0
deriving DecidableEq, Repr

/-- What memory answers the queue manager in one command (R304): its index block, the entries read from the work ring and the
chain links, pieces and buffers in the order in which they are read, and the completion ring. An access beyond a list
answers. -/
structure QueueAnswers where
  index : MemAnswer := .ok
  ring : List MemAnswer := []
  data : List MemAnswer := []
  post : MemAnswer := .ok
deriving DecidableEq, Repr

/-- A switch port whose turn it is, and what the packet buffer answers for the copy that it is handed (R228). -/
structure PortRead where
  port : SwPort
  ans : CellAnswer := { ans := .ok }
deriving DecidableEq, Repr

/-- The PCS of a trunk (R205): block lock, training complete, FEC agreed with the partner, and the errored blocks, BER
counts and corrected FEC blocks since the previous report. -/
structure PcsReport where
  lock : Bool
  trainDone : Bool := false
  fecAgreed : Bool := false
  errored : Nat := 0
  ber : Nat := 0
  corrected : Nat := 0
deriving DecidableEq, Repr

/-- What a serial line shows at the end of a message (R176). -/
inductive MessageEnd where
  | gap | lineBreak | full
deriving DecidableEq, Repr

/-- Strap levels sampled at the end of a device-wide reset (R438). -/
structure Straps where
  rank : BitVec 2
  boot : BitVec 2
  barePmd : Bool
deriving DecidableEq, Repr

/-- What one DDR4 channel shows at boot (R440): its descriptor's source (0 OTP, 1 SPD, 2 absent), its rank size
code, its rank count less one, and whether it trains. -/
structure DdrFit where
  source : BitVec 2
  rankSize : BitVec 3
  ranks : BitVec 2
  trains : Bool
deriving DecidableEq, Repr

/-- The commands, in the order of the table. -/
inductive Instr where
  | registerWrite (path : Path) (addr size : Nat) (value hwSet hwClr : Word)
  | milepostTick
  | mptIncrFracWrite (path : Path) (value : Word)
  | mptIncrIntWrite (path : Path) (value : Word)
  | incrementApplied
  | mptStepGo (path : Path) (value : Word)
  | stepTaken
  | mptNsRead (path : Path)
  | mptTs2TimeRead (path : Path)
  | mptFwSetWrite (path : Path) (value : Word)
  | extTimePublish (taiBase : BitVec 64) (utcOffset : BitVec 16) (taiValid late : Bool)
  | roadStart (road : Fin 64)
  | roadStop (road : Fin 64)
  | roadReacquire (road : Fin 64)
  | roaSrcWrite (path : Path) (value : Word)
  | roaPeriodWrite (path : Path) (value : Word)
  | roaPosLapRead (path : Path)
  | observationIngest
  | roadPublish
  | clockRoadLap (road : Fin 64)
  | obsTimeout (road : Fin 64)
  | coastLimitExpiry (road : Fin 64)
  | roadStateReceive (src : BitVec 48) (payload : Bytes)
  | roadStatePeriodic
  | roadStateSend
  | mstCommit (path : Path) (value : Word)
  | mstCtrlEnableWrite (path : Path) (value : Word)
  | milestoneCompare
  | milestoneFire (ans : MemAnswer)
  | drainMarkerEnqueue (slot : Fin 512)
  | mstPlcCurWrite (path : Path) (value : Word)
  | mstSwPulse (path : Path) (value : Word)
  | eventLineDeliver (line : Fin 512)
  | mainsSampleSet (time : Word) (raw : List (BitVec 24)) (live : BitVec 8)
  | mainsDropout (phase : Fin 3)
  | modulatorStuck (channel : Fin 8)
  | mfeTrkDisable (path : Path) (value : Word)
  | quadratureChange (channel : Fin 16) (a b : Bool) (time : Word)
  | shaftIndex (channel : Fin 16) (time : Word)
  | shaftIdleObs (channel : Fin 16)
  | ssiFrameStart (channel : Fin 16)
  | ssiFrameDone (channel : Fin 16) (raw : Word) (lineOk : Bool) (edgeTime : Word)
  | shfCfgWrite (path : Path) (value : Word)
  | shfPosLapRead (path : Path)
  | jobStart (lane : Lane) (ans : MemAnswer)
  | drainMarkerHead (lane : Lane)
  | messageDeliver (district : District) (viaJunction : Bool)
  | waitmResume (lane : LaneAnswer)
  | sendFrameCopyDone (district : District)
  | frameToDistrict (district : District)
  | lncDstFrxWrite (path : Path) (value : Word)
  | frxLayoutApply (district : District)
  | stepBegin
  | laneReset (lane : Lane)
  | laneResetDone (lane : Lane)
  | districtHalt (district : District)
  | districtResume (district : District)
  | districtReset (district : District)
  | add (lane : Lane) (rd rs rt : GReg)
  | sub (lane : Lane) (rd rs rt : GReg)
  | and (lane : Lane) (rd rs rt : GReg)
  | or (lane : Lane) (rd rs rt : GReg)
  | xor (lane : Lane) (rd rs rt : GReg)
  | nor (lane : Lane) (rd rs rt : GReg)
  | slt (lane : Lane) (rd rs rt : GReg)
  | sltu (lane : Lane) (rd rs rt : GReg)
  | sll (lane : Lane) (rd rs rt : GReg)
  | srl (lane : Lane) (rd rs rt : GReg)
  | sra (lane : Lane) (rd rs rt : GReg)
  | slli (lane : Lane) (rd rs : GReg) (sh : BitVec 5)
  | srli (lane : Lane) (rd rs : GReg) (sh : BitVec 5)
  | srai (lane : Lane) (rd rs : GReg) (sh : BitVec 5)
  | mul (lane : Lane) (rd rs rt : GReg)
  | mulh (lane : Lane) (rd rs rt : GReg)
  | mulhu (lane : Lane) (rd rs rt : GReg)
  | div (lane : Lane) (rd rs rt : GReg)
  | divu (lane : Lane) (rd rs rt : GReg)
  | rem (lane : Lane) (rd rs rt : GReg)
  | remu (lane : Lane) (rd rs rt : GReg)
  | clz (lane : Lane) (rd rs : GReg)
  | min (lane : Lane) (rd rs rt : GReg)
  | max (lane : Lane) (rd rs rt : GReg)
  | jr (lane : Lane) (rs : GReg)
  | jalr (lane : Lane) (rd rs : GReg)
  | addi (lane : Lane) (rd rs : GReg) (imm : BitVec 16)
  | andi (lane : Lane) (rd rs : GReg) (imm : BitVec 16)
  | ori (lane : Lane) (rd rs : GReg) (imm : BitVec 16)
  | xori (lane : Lane) (rd rs : GReg) (imm : BitVec 16)
  | slti (lane : Lane) (rd rs : GReg) (imm : BitVec 16)
  | sltiu (lane : Lane) (rd rs : GReg) (imm : BitVec 16)
  | lui (lane : Lane) (rd : GReg) (imm : BitVec 16)
  | lb (lane : Lane) (rt rs : GReg) (off : BitVec 16) (ans : MemAnswer)
  | lbu (lane : Lane) (rt rs : GReg) (off : BitVec 16) (ans : MemAnswer)
  | lh (lane : Lane) (rt rs : GReg) (off : BitVec 16) (ans : MemAnswer)
  | lhu (lane : Lane) (rt rs : GReg) (off : BitVec 16) (ans : MemAnswer)
  | lw (lane : Lane) (rt rs : GReg) (off : BitVec 16) (ans : MemAnswer)
  | sb (lane : Lane) (rt rs : GReg) (off : BitVec 16) (ans : MemAnswer)
  | sh (lane : Lane) (rt rs : GReg) (off : BitVec 16) (ans : MemAnswer)
  | sw (lane : Lane) (rt rs : GReg) (off : BitVec 16) (ans : MemAnswer)
  | j (lane : Lane) (rs : GReg) (off : BitVec 21)
  | beqz (lane : Lane) (rs : GReg) (off : BitVec 21)
  | bnez (lane : Lane) (rs : GReg) (off : BitVec 21)
  | bltz (lane : Lane) (rs : GReg) (off : BitVec 21)
  | bgez (lane : Lane) (rs : GReg) (off : BitVec 21)
  | blez (lane : Lane) (rs : GReg) (off : BitVec 21)
  | bgtz (lane : Lane) (rs : GReg) (off : BitVec 21)
  | vaddH (lane : Lane) (vd vs vt : VReg)
  | vsubH (lane : Lane) (vd vs vt : VReg)
  | vmulH (lane : Lane) (vd vs vt : VReg)
  | vmacH (lane : Lane) (vd vs vt : VReg)
  | vdotH (lane : Lane) (vd vs vt : VReg)
  | vshrH (lane : Lane) (vd vs : VReg) (gr : GReg)
  | vshlH (lane : Lane) (vd vs : VReg) (gr : GReg)
  | vabsH (lane : Lane) (vd vs : VReg)
  | vmaxH (lane : Lane) (vd vs vt : VReg)
  | vminH (lane : Lane) (vd vs vt : VReg)
  | vaddW (lane : Lane) (vd vs vt : VReg)
  | vsubW (lane : Lane) (vd vs vt : VReg)
  | vnarrowH (lane : Lane) (vd vs vt : VReg) (gr : GReg)
  | vfadd (lane : Lane) (vd vs vt : VReg)
  | vfsub (lane : Lane) (vd vs vt : VReg)
  | vfmul (lane : Lane) (vd vs vt : VReg)
  | vfma (lane : Lane) (vd vs vt : VReg)
  | vfms (lane : Lane) (vd vs vt : VReg)
  | vfmin (lane : Lane) (vd vs vt : VReg)
  | vfmax (lane : Lane) (vd vs vt : VReg)
  | vfabs (lane : Lane) (vd vs : VReg)
  | vfneg (lane : Lane) (vd vs : VReg)
  | vfcvtFW (lane : Lane) (vd vs : VReg)
  | vfcvtWF (lane : Lane) (vd vs : VReg)
  | vfsqrt (lane : Lane) (vd vs : VReg)
  | vfcmplt (lane : Lane) (vd vs vt : VReg)
  | vcmulH (lane : Lane) (vd vs vt : VReg)
  | vcmuljH (lane : Lane) (vd vs vt : VReg)
  | vcmulF (lane : Lane) (vd vs vt : VReg)
  | vbf2H (lane : Lane) (vd vs vt : VReg) (scale : BitVec 3)
  | vbf4H (lane : Lane) (vd vs : VReg) (scale : BitVec 3)
  | vbf2F (lane : Lane) (vd vs vt : VReg)
  | vbf4F (lane : Lane) (vd vs : VReg)
  | vld (lane : Lane) (vd : VReg) (gr : GReg) (imm : BitVec 3) (ans : MemAnswer)
  | vst (lane : Lane) (vd : VReg) (gr : GReg) (imm : BitVec 3) (ans : MemAnswer)
  | vmov (lane : Lane) (vd vs : VReg)
  | vmovg2v (lane : Lane) (vd : VReg) (gr : GReg) (elem : BitVec 3)
  | vmovv2g (lane : Lane) (vs : VReg) (gr : GReg) (elem : BitVec 3)
  | vextH (lane : Lane) (vs : VReg) (gr : GReg) (elem : BitVec 3)
  | vsplatH (lane : Lane) (vd : VReg) (gr : GReg)
  | vsplatW (lane : Lane) (vd : VReg) (gr : GReg)
  | jend (lane : Lane)
  | waitm (lane : Lane) (a b : GReg) (ans : MemAnswer)
  | pollm (lane : Lane) (a b : GReg) (ans : MemAnswer)
  | sendLane (lane : Lane) (a b c : GReg) (ans : MemAnswer)
  | sendDistrict (lane : Lane) (a b c : GReg) (ans : MemAnswer)
  | sendPort (lane : Lane) (a b c : GReg) (ans : MemAnswer)
  | sendJournal (lane : Lane) (a b c : GReg) (ans : MemAnswer)
  | sendRoad (lane : Lane) (a b c : GReg) (ans : MemAnswer)
  | roadp (lane : Lane) (vd : VReg) (b : GReg)
  | roadat (lane : Lane) (vd : VReg) (b c : GReg)
  | roadwhen (lane : Lane) (vd : VReg) (b : GReg) (vc : VReg)
  | obs (lane : Lane) (vb : VReg)
  | stepqStep (lane : Lane) (gd : GReg)
  | stepqTime (lane : Lane) (gd : GReg)
  | atomAdd (lane : Lane) (a b c : GReg) (ans : MemAnswer)
  | atomSwap (lane : Lane) (a b c : GReg) (ans : MemAnswer)
  | atomCas (lane : Lane) (a b c : GReg) (ans : MemAnswer)
  | fence (lane : Lane)
  | trap (lane : Lane) (code : BitVec 16)
  | laneq (lane : Lane) (gd : GReg)
  | portReset (port : FieldPort)
  | vergeGo (path : Path) (value : Word)
  | vergeAbort (path : Path) (value : Word)
  | vergeWindowStart (port : FieldPort) (quiet : Bool)
  | vergeSkipped (port : FieldPort)
  | vergeMeasurementDone (port : FieldPort) (value : Word) (overrange energy : Bool) (profile : List (BitVec 16))
  | vergeWindowEnd (port : FieldPort) (ans : MemAnswer)
  | surgeClampEvent (port : FieldPort) (peakMa durationNs gapNs : Nat) (start : Word)
  | serialCharacterReceive (port : FieldPort) (startHeld : Bool) (bits : BitVec 12) (phase : Fin 16)
  | serialMessageEnd (port : FieldPort) (why : MessageEnd)
  | serialTransmit (port : FieldPort) (lineIdle mismatch : Bool)
  | serialResponseTimeout (port : FieldPort)
  | t1sBeacon (port : FieldPort)
  | linkChange (port : FieldPort) (up : Bool) (level : LinkPartner) (isMaster lpiTx lpiRx plca : Bool)
  | macReceiveFrame (port : ExtPort) (frame : Bytes) (symbolErr : Bool) (phase : Fin 16)
  | pauseReceive (port : ExtPort) (quanta : BitVec 16)
  | pfcReceive (port : ExtPort) (classes : BitVec 8) (quanta : List (BitVec 16))
  | pauseTimerExpiry (port : ExtPort) (cls : Fin 8) (link : Bool)
  | macPauseTxPause (path : Path) (value : Word)
  | macPauseTxPfc (path : Path) (value : Word)
  | pauseFrameSend (port : ExtPort)
  | preemptVerify (port : ExtPort)
  | fragmentReceive (port : ExtPort) (bytes : FragmentIn) (first last smdOk countOk mcrcOk : Bool)
  | macTransmitFrame (port : ExtPort) (phase : Fin 16) (collisions : Nat) (ans : CellAnswer)
  | trunkLinkChange (trunk : Fin 4) (blockLock : PcsReport) (hiBer localFault remoteFault : Bool)
  | junctionLookup (port : ExtPort) (cutThrough : Option HeadIn)
  | internalFrame (src : Fin 68) (egress : BitVec 8) (cls : Fin 8) (frame : FrameOut)
  | frameLastByte (port : ExtPort) (good : FrameEnd) (length : Nat)
  | jctTblRead (path : Path) (value : Word)
  | jctTblWrite (path : Path) (value : Word)
  | jctTblInsert (path : Path) (value : Word)
  | jctTblDelete (path : Path) (value : Word)
  | macEntryAgeing (index : Fin 32768)
  | ageSweep
  | residueExpiry (frame : Nat)
  | auditVisit (free held busy : Bool)
  | turnpikeSelect (read : PortRead)
  | shaperAccrual
  | tollAccrual
  | gateEntryStart (port : ExtPort) (ans : MemAnswer)
  | gateStepDeferred (port : ExtPort) (ans : MemAnswer)
  | vergeAutostep (port : ExtPort) (ans : MemAnswer)
  | tpkGclCommitGo (path : Path) (value : Word)
  | tpkGclCommitCancel (path : Path) (value : Word)
  | gateSwitchOver (port : ExtPort) (ans : MemAnswer)
  | tpkMapRead (path : Path) (value : Word)
  | tpkMapWrite (path : Path) (value : Word)
  | recoveryResetTimeout (stream : Fin 1024)
  | latentPeriodEnd (stream : Fin 1024)
  | checkTriggerVerdict (context : Fin 256) (ans : MemAnswer)
  | qmgDoorbell (queue : Fin 1024) (ans : MemAnswer)
  | queueEnable (path : Path) (value : Word) (ans : MemAnswer)
  | queueShutdown (queue : Fin 1024) (ans : QueueAnswers)
  | qmgInvalGo (path : Path) (value : Word)
  | transmitEntry (queue : Fin 1024) (ans : QueueAnswers)
  | receiveFrameWrite (cls : Fin 8) (ans : QueueAnswers)
  | laneJobEntry (queue : Fin 1024) (ans : QueueAnswers)
  | hostWorkEntry (queue : Fin 1024) (ans : QueueAnswers)
  | cringPoll (queue : Fin 1024) (ans : QueueAnswers)
  | dmaStart (channel : Fin 72)
  | dmaArm (channel : Fin 72)
  | dmaDisarm (channel : Fin 72)
  | dmaComplete (channel : Fin 72)
  | dmaMemFault (channel : Fin 72) (done : Nat)
  | fltGForceWrite (path : Path) (value : Word)
  | reactionServe (ans : MemAnswer)
  | fltSafeRelease (path : Path) (value : Word)
  | fltIsoClear (path : Path) (index : Fin 5) (value : Word)
  | eventBudgetTick
  | journalRecordWrite (ans : MemAnswer)
  | alarmSummaryWrite (ans : MemAnswer)
  | journalCreditStep
  | journalDrainFrameEnd (drain : Fin 4)
  | journalAckFrame
  | jnlAlmAckWrite (path : Path) (value : Word)
  | twinHelloTimer
  | twinHelloReceive (rank : BitVec 8) (epoch : BitVec 24) (state : BitVec 8) (identity : BitVec 64)
  | soloWaitExpiry
  | heartbeatTimer
  | heartbeatReceive (backup : Bool) (rank : BitVec 8) (epoch : BitVec 24) (state : BitVec 8) (claim lastStep : Word)
  | heartbeatLoss (backup : Bool)
  | boundaryMarkerEmit
  | twinInputReceive (kind : BitVec 8) (rank : BitVec 8) (step seq : Word) (body : Bytes)
  | closeSend
  | resendRequest (first count : Word)
  | claimEcho (payload : Bytes)
  | outputStageEchoTimer
  | twnCtrlRejoin (path : Path) (value : Word)
  | rejoinAuto
  | hieStatusTimer
  | hieStatusReceive (trunk : Fin 4) (src : BitVec 48) (payload : Bytes)
  | hieStatusLoss (worker : Fin 16)
  | relay (trunk : Fin 4) (src : BitVec 48) (onHierarchy : Bool) (hostSession : Fin 4) (payload : Bytes) (ans : MemAnswer)
  | relayTimeout (tag : Word)
  | imageOffer (worker : Fin 16)
  | waypostReceive
  | sessionOpen
  | associationMessage
  | regRd (session : Fin 4)
  | regWr (session : Fin 4)
  | memRd (session : Fin 4) (ans : MemAnswer)
  | memWr (session : Fin 4) (ans : MemAnswer) (unitsDone : Nat)
  | doorbell (session : Fin 4) (ans : MemAnswer)
  | imgChunk (session : Fin 4)
  | imgCommit (session : Fin 4)
  | imageTransferTimeout
  | readIn (session : Fin 4)
  | writeOut (session : Fin 4)
  | readOut (session : Fin 4)
  | lm64Timeout (session : Fin 4)
  | lm64LateAnswer
  | imageVerifyDone (ans : MemAnswer)
  | imageApply (ans : MemAnswer)
  | flashWriteDone (ok : Bool)
  | imgCtrlAbort (path : Path) (value : Word)
  | imgCtrlPreferGo (path : Path) (value : Word)
  | imgCtrlConfirm (path : Path) (value : Word)
  | imgRevokeWrite (path : Path) (value : Word) (within1ms : Bool)
  | powerOnReset (straps : Straps)
  | systemReset (lowNs : Nat) (straps : Straps)
  | brownOutReset (straps : Straps)
  | softwareReset (path : Path) (value : Word) (straps : Straps)
  | thermalTrip (logic fd0 fd1 : BitVec 8) (straps : Straps)
  | boot (otpOk : Bool) (fitA fitB : DdrFit) (ansA ansB : MemAnswer)
  | functionReset (path : Path) (value : Word)
  | functionResetComplete (func : BitVec 8) (ans : MemAnswer)
  | watchdogKick (path : Path) (value : Word) (within1ms : Bool)
  | watchdogStage1
  | watchdogReset (straps : Straps)
  | monitorReading (logic fd0 fd1 : BitVec 8) (millivolts : List (BitVec 16))
  | xoLoss
  | dieLinkDown (die : Fin 2) (lossOfLock : Bool)
  | dieLinkRetrain (die : Fin 2) (up : Bool)
  | illegalInstruction (lane : Lane)
  | instructionFetchFault (lane : LaneAnswer)
  | verifyResponseReceive (port : ExtPort)
  | jtagOtpProgram (field : BitVec 8) (data : Bytes)
  | supplySequenceError
  | fecUncorrectableBlock (trunk : Fin 4)
  | dieLinkRetryBurst (die : Fin 2) (retriesInMs : Nat)
  | memoryScrubPass (channel : Fin 2) (correctedCount uncorrectableCount : Nat)
  | rejoinCopyDone
  | arpIcmpRequest (trunk : Fin 4) (frame : Bytes)
deriving DecidableEq, Repr

end Sys2Proof
end

