-- ==== Sys2Proof/Machine/Bits.lean ====
section
/-! DEFINITION. Fields of words, signed values, byte order and the modular distances of the manual. -/

set_option Elab.async false

namespace Sys2Proof.Machine

open Sys2Proof

/-- The field hi:lo of a word as a number (R3). -/
def fld {n : Nat} (w : BitVec n) (hi lo : Nat) : Nat := w.toNat / 2 ^ lo % 2 ^ (hi - lo + 1)

/-- One bit of a word (R3). -/
def bit {n : Nat} (w : BitVec n) (i : Nat) : Bool := w.getLsbD i

/-- Replace the field hi:lo by `v`, taken modulo the field's size. -/
def setFld (w : Word) (hi lo v : Nat) : Word :=
  let m : Word := BitVec.ofNat 32 ((2 ^ (hi - lo + 1) - 1) * 2 ^ lo)
  (w &&& ~~~m) ||| (BitVec.ofNat 32 (v * 2 ^ lo) &&& m)

/-- Set or clear one bit. -/
def setBit (w : Word) (i : Nat) (b : Bool) : Word := setFld w i i (if b then 1 else 0)

/-- 1 for true. -/
def b2n (b : Bool) : Nat := if b then 1 else 0

/-- A number as a word. -/
def w32 (n : Nat) : Word := BitVec.ofNat 32 n

/-- One when a condition holds, at a bit. -/
def flagAt (i : Nat) (b : Bool) : Word := w32 (b2n b * 2 ^ i)

/-- `n` taken modulo 2^w as a signed number. -/
def sgn (w : Nat) (n : Nat) : Int :=
  let m := n % 2 ^ w
  if m < 2 ^ (w - 1) then (m : Int) else (m : Int) - (2 ^ w : Int)

/-- A signed number modulo 2^w. -/
def wrapI (w : Nat) (i : Int) : Nat := (i % (2 ^ w : Int)).toNat

/-- Clamp to the signed range of w bits. -/
def satS (w : Nat) (i : Int) : Int := max (-(2 ^ (w - 1) : Int)) (min i ((2 ^ (w - 1) : Int) - 1))

/-- (x - y) modulo 2^32, the difference of two times (R33, R44). -/
def sub32 (x y : Word) : Nat := (x - y).toNat

/-- Signed difference of two times. -/
def diff32 (x y : Word) : Int := sgn 32 (x - y).toNat

/-- Little-endian bytes of a number (R5). -/
def leBytes : Nat → Nat → Bytes
  | 0, _ => []
  | k + 1, n => BitVec.ofNat 8 n :: leBytes k (n / 256)

/-- Big-endian (network order) bytes of a number (R5). -/
def beBytes (k n : Nat) : Bytes := (leBytes k n).reverse

/-- The number whose little-endian bytes are given (R5). -/
def leVal : Bytes → Nat
  | [] => 0
  | b :: t => b.toNat + 256 * leVal t

/-- The number whose big-endian bytes are given (R5). -/
def beVal (b : Bytes) : Nat := leVal b.reverse

/-- `len` bytes from offset `off`, padded with zeros beyond the end. -/
def slice (b : Bytes) (off len : Nat) : Bytes :=
  let t := (b.drop off).take len
  t ++ List.replicate (len - t.length) 0

/-- Big-endian field of a frame. -/
def beAt (b : Bytes) (off len : Nat) : Nat := beVal (slice b off len)

/-- Little-endian field of a structure in memory. -/
def leAt (b : Bytes) (off len : Nat) : Nat := leVal (slice b off len)

/-- Replace `len` bytes at `off` by `v`. -/
def putAt (b : Bytes) (off : Nat) (v : Bytes) : Bytes :=
  b.take off ++ v ++ b.drop (off + v.length)

/-- Zero bytes. -/
def zeros (n : Nat) : Bytes := List.replicate n 0

/-- `b` padded with zeros to at least `n` bytes. -/
def padTo (n : Nat) (b : Bytes) : Bytes := b ++ zeros (n - b.length)

/-- Signed value of a bit vector. -/
def si {n : Nat} (w : BitVec n) : Int := w.toInt

end Sys2Proof.Machine
end

