-- ==== Sys2Proof/Machine/Crc.lean ====
section
/-! DEFINITION. The polynomials of R277. -/

set_option Elab.async false

namespace Sys2Proof.Machine

open Sys2Proof

/-- Eight reflected steps of a CRC register. -/
def crcRefl (poly : Nat) : Nat → Nat → Nat
  | 0, c => c
  | k + 1, c => crcRefl poly k (if c % 2 = 1 then (c / 2) ^^^ poly else c / 2)

/-- Eight steps of a CRC register of width w, most significant bit first. -/
def crcMsb (w poly : Nat) : Nat → Nat → Nat
  | 0, c => c
  | k + 1, c => crcMsb w poly k (if c / 2 ^ (w - 1) % 2 = 1 then (2 * c % 2 ^ w) ^^^ poly else 2 * c % 2 ^ w)

/-- CRC of R277 by its poly number: the register over the bytes, then the final XOR. -/
def crcOf (poly : Nat) (b : Bytes) : Nat :=
  match poly with
  | 0 => (b.foldl (fun c x => crcMsb 8 0x1D 8 (c ^^^ x.toNat)) 0xFF) ^^^ 0xFF
  | 1 => b.foldl (fun c x => crcMsb 16 0x1021 8 (c ^^^ (x.toNat * 256))) 0xFFFF
  | 2 => (b.foldl (fun c x => crcRefl 0xEDB88320 8 (c ^^^ x.toNat)) 0xFFFFFFFF) ^^^ 0xFFFFFFFF
  | _ => (b.foldl (fun c x => crcRefl 0x82F63B78 8 (c ^^^ x.toNat)) 0xFFFFFFFF) ^^^ 0xFFFFFFFF

/-- Width in bytes of a polynomial's CRC (R277, R278). -/
def crcBytes (poly : Nat) : Nat := if poly = 0 then 1 else if poly = 1 then 2 else 4

/-- CRC-32C of R277. -/
def crc32c (b : Bytes) : Nat := crcOf 3 b

end Sys2Proof.Machine
end

