-- ==== Sys2Proof/Config.lean ====
section
/-! DEFINITION. What the manual leaves open: free values without a body, so that no proof can rest on one. -/

set_option Elab.async false

namespace Sys2Proof

/-- The n-th word drawn from the device's random source: Waypost epochs and boot values (R397, R399). Free value. -/
opaque Config.freeWord : Nat → BitVec 32

/-- The station address of the twin peer, by which a twin frame is addressed (R355): no register or record holds it.
Free value. -/
opaque Config.peerStation : BitVec 48

/-- The two manager addresses that a worker image names (R377), and the station address of a worker that no status has
come from yet (R382): no register or record holds them. Free values. -/
opaque Config.managerA : BitVec 48
opaque Config.managerB : BitVec 48
opaque Config.workerStation : Nat → BitVec 48

/-- The device's own 64-bit OTP device identifier (R381). Free value. -/
opaque Config.deviceId : BitVec 64

/-- The n-th byte of data that the manual leaves open: the rest of a snapshot slot after a write that failed (R78), the
IPv4 fields that no rule gives (R393), the quality and value of an LM64 item that failed (R406). Free value. -/
opaque Config.freeByte : Nat → BitVec 8

/-- How many words a lane had fetched ahead at the n-th store that covers one of the next two words: the manual says "up
to two" (R149). Free value. -/
opaque Config.wordsAhead : Nat → Nat

/-- How many of the stores under way to a district's memory the n-th load of another lane finds performed, in the order of
their issue (R148): the commands carry no LCLK edge. Free value. -/
opaque Config.storesPerformed : Nat → Nat

/-- Whether the n-th aperture write that faulted with cause 8 still reached memory (R143). Free value. -/
opaque Config.writeLanded : Nat → Bool

/-- Whether a frame is being copied by the queue manager at the n-th reset that could meet one, and how many of its bytes lie
in its receive buffers (R308). Free values. -/
opaque Config.copyUnderWay : Nat → Bool
opaque Config.copiedBytes : Nat → Nat

/-- How many bytes a busy DMA channel has written when the n-th reset stops it after the burst in flight (R319). Free value. -/
opaque Config.dmaWritten : Nat → Nat

/-- Where, within the accuracy of the watchdog's own oscillator, its time left stands at the n-th read (R450). Free value. -/
opaque Config.oscCount : Nat → Nat

/-- The levels of the strap balls at the end of the n-th reset whose command does not carry them (R438). Free value. -/
opaque Config.strapLevel : Nat → BitVec 5

/-- How long the supervisor complex takes to restart its firmware, in ns: at most 50 ms (R450). Free value. -/
opaque Config.restartTime : Nat → Nat

/-- How many aligned units of 16 bytes of the n-th relayed or boundary MEM_WR are written before the one that fails (R404).
Free value. -/
opaque Config.unitsWritten : Nat → Nat

/-- Whether and how memory fails the n-th MEM_WR that is applied at a step boundary (R401, R405): 0 and 1 it does not,
2 an uncorrectable error, 3 no answer. Free value. -/
opaque Config.boundaryFault : Nat → BitVec 2

/-- What an LM64 point bound to a road position shows, of the position and the point's width (R406, R419): the manual
gives no layout. Free value. -/
opaque Config.roadPoint : BitVec 48 → Nat → BitVec 32

end Sys2Proof
end

