-- ==== Sys2Proof/Machine/State.lean ====
section
/-! DEFINITION. The state of the SV8128 as plain data, and the state right after power-on reset.

Registers stand in ONE sparse store: an unlisted key holds the register's Reset column value (R9). A key is
`register * 2^24 + instance`, where `register` is `block * 0x1000 + offset` (R480) and the instance is 0 for a global
register, the access path for a register that each path keeps for itself (R10), and the selected instance otherwise.
A register that shows a count, a setting or a latch is kept in that store and nowhere else. A register that shows a
level or a state (a queue's fill, a road's state, a live time) is computed on reading from the structures below, which
hold what no register keeps. -/

set_option Elab.async false

namespace Sys2Proof.Machine

open Sys2Proof

/-- A sparse table: keys strictly rising, no entry equal to what an unlisted key reads as. -/
abbrev Sparse (α : Type) := List (Nat × α)

/-! ### Milepost (R22-R41) -/

/-- One entry of a trunk's two-step FIFO (R39). -/
structure Ts2Entry where
  seqId : BitVec 16
  msgType : BitVec 4
  domain : BitVec 8
  time : Word
deriving DecidableEq, Repr

/-- What Milepost holds beyond its registers. -/
structure Milepost where
  /-- The 32.32 counter (R22). -/
  counter : BitVec 64 := 0
  /-- TCLK edges since power-on reset: the count by which an event pulse is due two edges later (R84). -/
  tclk : Nat := 0
  /-- Time since power-on reset in units of 2^-32 ns, by the increments alone: what measures a duration across wraps and
  steps of the counter. -/
  elapsed : Nat := 0
  /-- Elapsed ns at the latest wrap, which GPIO07 shows for 1 us (R30, R471). -/
  wrapAt : Option Nat := none
  /-- The staged fraction and the committed, not yet active increment (R23). -/
  stagedFrac : Word := 0
  stagedIncr : BitVec 40 := 0
  /-- Wraps since power-on reset, as the firmware counts them for extended time (R30, R31). -/
  extWraps : Word := 0
  /-- Two-step FIFOs of the trunks, oldest entry first (R39). -/
  ts2 : Sparse (List Ts2Entry) := []
deriving DecidableEq, Repr

/-! ### Roads (R43-R65) -/

/-- The state of a road (R56); codes under R60. -/
inductive RoadState where
  | idle | acquiring | tracking | coasting | lost | held
deriving DecidableEq, Repr

/-- What one road holds beyond its registers (R50, R53-R57, R62-R64). -/
structure Road where
  state : RoadState := .idle
  tS : Word := 0
  p : BitVec 64 := 0
  v : BitVec 48 := 0
  a : BitVec 32 := 0
  initPending : Bool := false
  /-- Published position and rate, and the position published on the previous edge (R56, R70). -/
  pub : BitVec 48 := 0
  pubRate : BitVec 48 := 0
  prev : BitVec 48 := 0
  /-- Acceleration and t_s of the tracker state that was published last (R53, R66). -/
  pubA : BitVec 32 := 0
  pubT : Word := 0
  /-- Position at the last step boundary (R80). -/
  stepPos : BitVec 48 := 0
  /-- Milepost time of entry to ACQUIRING or COASTING, and whether an observation was applied since (R57). -/
  entered : Word := 0
  appliedSince : Bool := false
  /-- Start of the observation timeout: t_s, or on kind 5 the arrival of the last taken entry (R57, R64). -/
  lastTime : Word := 0
  /-- The horizon H (R54). -/
  horizon : Nat := 100000000
  /-- Elapsed ns at which t_s was set last (R406). -/
  obsAt : Nat := 0
  /-- Clock roads: the count n, the period in force and the Milepost ns at the last edge (R48). -/
  n : Nat := 0
  period : Nat := 1000000
  lastNs : Word := 0
  /-- Last seq taken on kind 5; none after its manager was lost (R64, R387). -/
  lastSeq : Option (BitVec 16) := none
  /-- Next seq to send, transitions since the last entry sent, and the entry that waits: its state, t_s, p, v and a in
  network byte order, empty for none, and whether it also goes to the hierarchy (R62, R63). -/
  sendSeq : BitVec 16 := 0
  transitions : Nat := 0
  queuedEntry : Bytes := []
  queuedHier : Bool := false
deriving DecidableEq, Repr

/-- One observation (R46, R47). `srcKind` is the producer's kind 2-5; a road-state entry (kind 5) keeps its 32 bytes. -/
structure Observation where
  road : Nat
  srcKind : Nat
  time : Word
  lap : BitVec 16
  frac : Word
  fracOnly : Bool
  reacquire : Bool
  hintValid : Bool
  hint : Word
  entry : Bytes := []
deriving DecidableEq, Repr

/-- The observation that left the ingest queue last, with its edge, counted from 1, and its road as it was before it, with
the road's registers ROA_CNT_ACC, ROA_CNT_REJ, ROA_CNT_DROP, ROA_STATE and ROA_HIST: a stop or a reacquire of the same edge
undoes what it did (R58). -/
structure Ingested where
  edge : Nat
  obs : Observation
  road : Road
  accepted : Word
  rejected : Word
  drops : Word
  status : Word
  history : Word
deriving DecidableEq, Repr

/-! ### Milestones and the event router (R67-R87) -/

/-- What a milestone record holds beyond its 16 bytes and its registers (R71-R74). -/
structure RecordRun where
  pending : Bool := false
  /-- R73 made the pending firing late on an arming, a return or a re-arm. -/
  forced : Bool := false
  /-- A record of R80 that was armed, or whose road returned, since the last boundary: R73's test is made at the next. -/
  untested : Bool := false
  strandedFire : Bool := false
  backward : Bool := false
  /-- The due edge, as a TCLK edge count (R70, R72). -/
  due : Nat := 0
deriving DecidableEq, Repr

/-- A committed record whose change falls on the next TCLK edge, with the edge count of its commit (R68). -/
structure StagedCommit where
  record : Nat
  word : BitVec 128
  edge : Nat
deriving DecidableEq, Repr

/-- A pulse on an event line that has not acted yet (R84). -/
structure Pulse where
  line : Nat
  edge : Nat
  ns : Word
  /-- The journal's epoch at that time (R340). -/
  epoch : BitVec 16
deriving DecidableEq, Repr

/-- What a placement slot holds beyond its registers (R81-R83). -/
structure SlotRun where
  seq : BitVec 16 := 0
  oldGen : BitVec 8 := 0
  /-- Lanes of the old target whose drain marker waits in the milestone unit for a queue entry, and markers that stand
  in queues (R82). -/
  markerLanes : List Nat := []
  markersOut : Nat := 0
  /-- Sequence number of the last job started in the old generation (R118). -/
  oldSeq : BitVec 16 := 0
  /-- Receiver's window: highest delivered, and the 64 at or below it (R83). -/
  rxHi : Option (BitVec 16) := none
  rxSeen : BitVec 64 := 0
deriving DecidableEq, Repr

/-! ### Mains and shaft (R90-R105) -/

/-- State of a phase tracker (R96). -/
inductive TrackerState where
  | off | dropout | holdoff | running
deriving DecidableEq, Repr

/-- What one phase tracker holds beyond its registers (R95-R97). An enabled tracker starts in dropout. -/
structure Tracker where
  state : TrackerState := .dropout
  refT : Option Word := none
  dropSince : Bool := false
  holdLeft : Nat := 0
  /-- Time of the first set of the run of sets below drop_level. -/
  belowSince : Option Word := none
  prevTime : Word := 0
  prevSig : Int := 0
  havePrev : Bool := false
  armedUp : Bool := false
  armedDown : Bool := false
deriving DecidableEq, Repr

/-- What one shaft channel holds beyond its registers (R99-R105). -/
structure Shaft where
  count : Nat := 0
  lap : BitVec 16 := 0
  frac : Word := 0
  referenced : Bool := false
  a : Bool := true
  b : Bool := true
  /-- Time of the last accepted change; the start of the idle interval; whether an idle observation came after it. -/
  lastChange : Option Word := none
  since : Word := 0
  idleAfter : Bool := false
  lastObs : Option Word := none
  /-- Elapsed ns at `since` and at `lastObs`, for stops longer than Milepost times can tell. -/
  sinceAt : Nat := 0
  lastObsAt : Nat := 0
  /-- An SSI frame is clocking, and whether it is to be discarded (R103, R105). -/
  ssiBusy : Bool := false
  ssiDiscard : Bool := false
  ssiStart : Option Word := none
  /-- An observation that is due on this QCLK cycle, which an index of the cycle precedes (R102, R105): the time at which
  the change was accepted, the time that it carries, and its rate hint. -/
  due : Option (Word × Word × Option Word) := none
  /-- The last two accepted SSI frames: time and position (R104). -/
  ssiLast : Option (Word × BitVec 48) := none
  ssiTurns : Option Nat := none
deriving DecidableEq, Repr

/-! ### Lanes and districts (R110-R136) -/

/-- What a lane is doing (R117, R132). Halt and reset are separate flags of the lane. -/
inductive LaneRun where
  | idle | running | waiting | faulted
deriving DecidableEq, Repr

/-- A job entry (R116) with the frame buffer that its job holds. -/
structure Job where
  code : BitVec 15 := 0
  source : BitVec 3 := 0
  late : Bool := false
  stranded : Bool := false
  backward : Bool := false
  reissued : Bool := false
  slot : BitVec 9 := 0
  gen : BitVec 8 := 0
  seq : BitVec 16 := 0
  record : BitVec 14 := 16383
  time : Word := 0
  args : List Word := []
  buffer : Option Nat := none
deriving DecidableEq, Repr

/-- An entry of a lane's job queue: a job, or the drain marker of a slot (R114, R118). -/
inductive QueueEntry where
  | job (job : Job)
  | marker (slot : BitVec 9) (gen : BitVec 8) (seq : BitVec 16)
deriving DecidableEq, Repr

/-- A lane message (R120). -/
structure Message where
  src : Nat
  flags : BitVec 8 := 0
  slot : BitVec 9 := 0
  gen : BitVec 8 := 0
  cls : BitVec 3 := 0
  seq : BitVec 16 := 0
  msgSeq : BitVec 16 := 0
  time : Word := 0
  payload : Bytes := []
deriving DecidableEq, Repr

/-- Where a message goes (R119): a lane, or the least-loaded lane of a district. -/
inductive MsgDest where
  | lane (lane : Nat)
  | district (district : Nat)
deriving DecidableEq, Repr

/-- A message held in an inbox under R83 is marked. -/
structure InboxEntry where
  msg : Message
  held : Bool := false
deriving DecidableEq, Repr

/-- One entry of a lane's step buffer (R128): a write of up to 16 bytes or one ATOM. -/
inductive StepWrite where
  | write (addr : Nat) (data : Bytes)
  | atom (addr : Nat) (op : Nat) (operand compare : Word)
deriving DecidableEq, Repr

/-- A send held for the next step (R127, R159). -/
inductive StepSend where
  | message (dest : MsgDest) (msg : Message)
  | frame (egress : Nat) (cls : Nat) (data : Bytes)
  | journal (cls : Nat) (body : Bytes)
  | observation (obs : Observation)
deriving DecidableEq, Repr

/-- A lane (R138) with its job queue, inbox and step buffer. An unlisted register reads 0. -/
structure LaneState where
  g : Sparse Word := []
  v : Sparse VWord := []
  pc : Word := 0
  run : LaneRun := .idle
  halted : Bool := false
  inReset : Bool := false
  job : Option Job := none
  queue : List QueueEntry := []
  inbox : List InboxEntry := []
  msgSeq : BitVec 16 := 0
  /-- Aperture bases in force for the job that runs (R111). -/
  apb0 : BitVec 40 := 0
  apb1 : BitVec 40 := 0
  /-- Words fetched ahead whose memory a store has changed since (R149): address and old word. -/
  stale : Sparse Word := []
  /-- Program counter recorded at the latest fault (R132). -/
  faultPc : Word := 0
  /-- A SEND of kind 2 stalls the lane until its copy is done (R119). -/
  sending : Bool := false
  /-- Status register and message address of the WAITM that suspends the lane (R158). -/
  waitReg : Nat := 0
  waitAddr : Word := 0
  stepWrites : List StepWrite := []
  stepSends : List StepSend := []
  stepEntries : Nat := 0
  /-- What the step buffer held when the running job started: a fault discards only what came after (R132). -/
  keepWrites : Nat := 0
  keepSends : Nat := 0
  keepEntries : Nat := 0
deriving DecidableEq, Repr

/-- A kind-2 SEND that waits for or holds its district's port (R119). -/
structure PortSend where
  lane : Nat
  egress : Nat
  cls : Nat
  frame : Bytes
deriving DecidableEq, Repr

/-- A store or ATOM to district memory that may not have performed yet for the other lanes (R148): who issued it and on
which TCLK edge, and the bytes before and after it. -/
structure Flight where
  lane : Nat
  edge : Nat
  addr : Nat
  old : Bytes
  new : Bytes
  /-- It is an ATOM: a later ATOM performs after it (R165). -/
  atomic : Bool := false
deriving DecidableEq, Repr

/-- What a district holds beyond its registers (R125, R126, R133). -/
structure DistrictRun where
  halted : Bool := false
  /-- The frame buffer layout in force, as an LNC_DST_FRX word, and the buffers in use. -/
  frx : Word := 0
  frxPending : Bool := false
  buffers : List Nat := []
  frames : Word := 0
  sends : List PortSend := []
  /-- Messages to lanes of the same district that are under way, oldest first (R121). -/
  direct : List (MsgDest × Message) := []
  /-- Stores under way to the district's memory, in the order of their issue (R148). -/
  flights : List Flight := []
deriving DecidableEq, Repr

/-! ### Field ports (R170-R188) -/

/-- State of a verge window, as FPA_PORT_STAT.vrg_state codes it. -/
inductive VergeState where
  | none | deferring | active
deriving DecidableEq, Repr

/-- A verge window and its results (R179-R186). -/
structure Verge where
  state : VergeState := .none
  software : Bool := false
  mask : BitVec 6 := 0
  requested : Word := 0
  durationUs : Nat := 0
  start : Word := 0
  /-- Milepost ns at which the window ends (R182), and whether it only is expected to end then: with the step, or the road,
  that ends its gate-list entry. -/
  endNs : Word := 0
  expected : Bool := false
  deferred : Bool := false
  forced : Bool := false
  aborted : Bool := false
  energy : Bool := false
  /-- Measurements still to run, in order, and the one that runs; energy seen during it. -/
  todo : List Nat := []
  current : Option Nat := none
  currentEnergy : Bool := false
  retrying : Bool := false
  /-- Milepost ns at which the next measurement may start (R182, R183). -/
  nextNs : Word := 0
  status : Sparse Nat := []
  retried : BitVec 6 := 0
  values : Sparse Word := []
  /-- FPA_VRG_TDR and FPA_VRG_CFG as the TDR measurement used them (R184, R186). -/
  tdrWord : Word := 0
  cfgWord : Word := 0
  profile : List (BitVec 16) := []
deriving DecidableEq, Repr

/-- What a field port holds beyond its registers (R174-R188). -/
structure PortRun where
  verge : Verge := {}
  records : Word := 0
  /-- A window ended unrecorded by a die-link failure; it is counted when the link returns (R187). -/
  vergeLost : Bool := false
  /-- Serial reception: characters, a break that has arrived, first error and flags so far, timestamp of the message
  (R176, R177). -/
  chars : Bytes := []
  broken : Bool := false
  framing : Bool := false
  parity : Bool := false
  errIndex : Option Nat := none
  ts : Word := 0
  /-- A response is pending after a master's message (R178). -/
  response : Bool := false
  /-- The PLCA cycle that the coordinator opened last: Milepost ns of its beacon, the frames that its transmit opportunity
  still allows, and the end of the last one (R174). -/
  cycleStart : Option Word := none
  oppLeft : Nat := 0
  oppEnd : Option Word := none
  /-- The partner of the T1L link that is up advertises EEE (R172). -/
  eee : Bool := false
  /-- Peak class of the clamp event in which later ones merge (R188). -/
  surgeClass : Option Nat := none
deriving DecidableEq, Repr

/-! ### MACs (R192-R204) -/

/-- A frame that a MAC passed to Junction and whose lookup has not been made: bytes without FCS, ingress timestamp. -/
structure RxFrame where
  bytes : Bytes
  ts : Word
deriving DecidableEq, Repr

/-- A frame in reassembly (R193, R200): its bytes, its fragments, its ingress timestamp, the filter decision that its
destination address was given, and whether a fragment held a PCS or line-code error. -/
structure Reassembly where
  bytes : Bytes
  count : Nat
  ts : Word
  pass : Option Bool := none
  symbolErr : Bool := false
deriving DecidableEq, Repr

/-- A stream that generates for a frame, and the trunks of its pair at the frame's lookup (R267, R273). -/
structure Generator where
  stream : Nat
  trunks : List Nat
deriving DecidableEq, Repr

/-- One destination of a frame. -/
structure Dest where
  port : Nat
  cls : Nat
  trunc : Nat := 0
  mirror : Bool := false
deriving DecidableEq, Repr

/-- Colours of R215. -/
inductive Colour where
  | green | yellow | red
deriving DecidableEq, Repr

/-- What stage 7 decides at a frame's lookup (R214, R216, R217, R230): the destination set and the mirror copies, whether a
destination that none may name was removed, and whether the source is learnt. -/
structure DestPlan where
  ports : List Nat
  mirrors : List Dest
  bad : Bool
  learns : Bool
deriving DecidableEq, Repr

/-- What stages 1 to 4 of a lookup have decided about a frame (R210-R213, R218, R266): a trap, a drop at stage 2, or VID,
class, rule with its version, and what elimination made of the frame. -/
structure Looked where
  bytes : Bytes
  ts : Word
  trap : Option Nat := none
  vlanDrop : Bool := false
  vid : Nat := 0
  cls : Nat := 0
  rule : Option (Nat × BitVec 256) := none
  version : BitVec 4 := 0
  body : Bytes := []
  recovered : Option (Nat × BitVec 16) := none
  generate : Option Generator := none
  eliminated : Bool := false
  /-- Of a frame that still arrives: the colour with which its lookup metered it, and whether that debited a bucket (R245);
  the decision of stage 7 (R217). -/
  colour : Option (Colour × Bool) := none
  plan : Option DestPlan := none
deriving DecidableEq, Repr

/-- A frame whose lookup was made before its last byte came (R210, R232): what was decided, and the Junction frame of its
copies when some are cut through. -/
structure Arriving where
  looked : Looked
  frame : Option Nat := none
deriving DecidableEq, Repr

/-- What a MAC puts on its line (R197, R199, R201): a frame, a first or a later fragment with its SMD number and fragment
count, a verify request or response, or a serial message. -/
inductive LineKind where
  | frame
  | first (smd : Nat)
  | later (smd count : Nat)
  | verify | response | serial
deriving DecidableEq, Repr

/-- The latest thing that a MAC put on its line: from the destination address through its FCS or mCRC. -/
structure LineUnit where
  kind : LineKind
  bytes : Bytes
deriving DecidableEq, Repr

/-- How the verification of pre-emption stands (R199). -/
inductive Verification where
  | running | succeeded | failed
deriving DecidableEq, Repr

/-- What a MAC holds beyond its registers. -/
structure MacRun where
  /-- Running pause timers, in quanta at their load: link-level and per class (R195). -/
  linkPause : Option (BitVec 16) := none
  /-- Classes that the link-level timer holds (R194, R198). -/
  linkMask : BitVec 8 := 0
  pfc : Sparse (BitVec 16) := []
  /-- The requested PAUSE or PFC frame, as the MAC_PAUSE_TX word (R197). -/
  pauseReq : Option Word := none
  reassembly : Option Reassembly := none
  rxq : List RxFrame := []
  arriving : Option Arriving := none
  verification : Verification := .running
  /-- A verify request of the partner waits for its response (R199). -/
  responseDue : Bool := false
  /-- SMD number of the preemptable frame on the line, and the fragments sent of it (R199). -/
  smd : Nat := 0
  fragment : Nat := 0
  /-- What the MAC put on its line last. -/
  line : Option LineUnit := none
deriving DecidableEq, Repr

/-! ### Junction and Turnpike (R208-R260) -/

/-- A frame held in the packet buffer (R208-R231). `bytes` is without FCS, as it arrived. -/
structure JFrame where
  id : Nat
  bytes : Bytes
  src : Nat
  cls : Nat
  ts : Word
  arrived : Word
  yellow : Bool := false
  /-- Physical cells, and the pool they came from: guarantee and pool part. -/
  cells : Nat
  fromGuar : Nat := 0
  control : Bool := false
  refs : Nat
  multi : Bool := false
  /-- Milepost ns at which the residue timer of a frame with several destinations runs out; none before its first copy
  leaves (R225). -/
  residueAt : Option Word := none
  /-- Length counted with FCS (R208); for a cut-through frame whose end has not come, the ingress max_len. -/
  length : Nat
  cutting : Bool := false
  /-- VID and tag facts of the lookup, for the copies' tagging (R212). -/
  vid : Nat := 0
  tagged : Bool := false
  internal : Bool := false
  /-- Replication: stream and sequence number of its trunk copies, and the trunks that carry them (R267). -/
  stream : Option (Nat × BitVec 16) := none
  pair : List Nat := []
  /-- Stream rule and its version at the lookup of a cut-through frame, which counts when its end comes (R218). -/
  rule : Option (Nat × BitVec 4) := none
  /-- Its R-TAG was removed as it was written to cells (R269). -/
  stripped : Bool := false
  /-- Sequence of a frame that recovery passed, for R270. -/
  recovered : Option (Nat × BitVec 16) := none
  /-- One-step reference value (R38). -/
  oneStep : Option Word := none
  /-- A message between districts (R121). -/
  msg : Option (MsgDest × Message) := none
  /-- Toll that metered the frame with max_len at its lookup (R245). -/
  toll : Option Nat := none
  /-- Check context whose verdict is still to come for a cut-through frame (R282). -/
  check : Option Nat := none
  /-- Journal drain path whose frame this is (R343). -/
  drain : Option Nat := none
deriving DecidableEq, Repr

/-- A copy in an egress queue. `sub` is the subscriber, 4,096 standing for the default one (R239). -/
structure Copy where
  frame : Nat
  port : Nat
  cls : Nat
  sub : Nat
  guar : Nat := 0
  pool : Nat := 0
  trunc : Nat := 0
  mirror : Bool := false
  cut : Bool := false
  /-- It carries the frame's R-TAG, as its stream stood at admission (R267, R273). -/
  tag : Bool := false
  /-- Egress timestamp, once its first byte has left (R34). -/
  te : Option Word := none
  /-- Bytes already sent of a suspended or running preemptable copy, and the byte at which the fit test has placed a
  pre-emption point; 0 for none (R257). -/
  sent : Nat := 0
  stopAt : Nat := 0
  /-- L at which a cut-through copy was charged, the shapers charged (bit 0 subscriber, 1 service, 2 port), and whether its
  class was in the port's weighted set (R241). -/
  charged : Nat := 0
  shaped : BitVec 3 := 0
  weighed : Bool := false
deriving DecidableEq, Repr

/-- What Junction holds beyond its registers: frames, egress queues (port * 8 + class), tables and the auditor. -/
structure JunctionRun where
  frames : List JFrame := []
  queues : Sparse (List Copy) := []
  nextId : Nat := 1
  vlan : Sparse (BitVec 256) := []
  macs : Sparse (BitVec 256) := []
  /-- TCLK edge at which a dynamic MAC entry was written or refreshed last (R214). -/
  macSeen : Sparse Nat := []
  rules : Sparse (BitVec 256) := []
  groups : Sparse (BitVec 256) := []
  /-- The cell that the auditor visits next (R227). -/
  auditCell : Nat := 0
  /-- Cells not accounted for on the last pass, which the free count lacks until they are returned (R227). -/
  suspects : List Nat := []
deriving DecidableEq, Repr

/-- A gate list in force (R246). Positions and times share the 48-bit base and cycle. -/
structure GateList where
  form : Nat := 0
  road : Nat := 0
  base : BitVec 48 := 0
  cycle : BitVec 48 := 0
  fallbackNs : Nat := 20000000
  minNs : Nat := 1000
  /-- The count field as it was committed: a list of form none keeps it too (R252, R263). -/
  count : Nat := 0
  entries : List (BitVec 64) := []
deriving DecidableEq, Repr

/-- A port's schedule (R246-R254). -/
structure GateRun where
  oper : GateList := {}
  entry : Nat := 0
  /-- Extended Milepost ns at which the entry in force started; start of its cycle as a position, and in extended ns. -/
  start : BitVec 64 := 0
  cycleStart : BitVec 48 := 0
  cycleNs : BitVec 64 := 0
  fallback : Bool := false
  /-- The TCLK edge on which the road entered COASTING or HELD: a boundary crossed on it still ends its entry (R259). -/
  leaving : Option Nat := none
  /-- Fallback began from this entry; TRACKING again, waiting for a cycle boundary (R249). -/
  rejoining : Bool := false
  /-- Road form: the end boundary was reached before min_ns had passed (R248). -/
  stretched : Bool := false
  /-- Pending switch-over: a Milepost time, or a road position (R251). -/
  switchNs : Option Word := none
  switchPos : Option (BitVec 48) := none
  stepDeferred : Bool := false
  /-- A step that takes effect on the next TCLK edge, with what the memory answers its trigger entry (R250). -/
  stepDue : Option MemAnswer := none
  /-- Window opened by the verge entry in force (R250). -/
  vergeFrom : Option Word := none
  /-- Latest end time of the entry in force under time(x), and of each class's window: status and time (R248). -/
  endTime : Option Word := none
  windowEnds : List (Nat × Word) := []
  /-- The extended clock time at which the entry in force of a list on the clock ends. -/
  clockEnd : BitVec 64 := 0
  /-- |vel(now)| of the road when each class's window opened (R257). -/
  openVel : Sparse Nat := []
deriving DecidableEq, Repr

/-- What Turnpike holds beyond its registers. Credits and buckets are in units of 2^-20 byte. -/
structure TurnpikeRun where
  map : Sparse (BitVec 13) := []
  portCredit : Sparse Int := []
  serviceCredit : Sparse Int := []
  subCredit : Sparse Int := []
  /-- DWRR deficits of classes (port*8+class) and subscribers (service*4097+sub), and the next member to visit. -/
  classDeficit : Sparse Nat := []
  subDeficit : Sparse Nat := []
  classNext : Sparse Nat := []
  subNext : Sparse Nat := []
  tollC : Sparse Nat := []
  tollP : Sparse Nat := []
  admin : Sparse (BitVec 64) := []
  gates : Sparse GateRun := []
  /-- The copy handed to each switch port's MAC or internal unit, and the suspended remainder (R240, R255). -/
  handed : Sparse (Option Copy) := []
  suspended : Sparse (Option Copy) := []
  /-- A pre-emption of the frame on the line has been asked for (R258). -/
  preempting : List Nat := []
deriving DecidableEq, Repr

/-! ### Work queues (R287-R306) -/

/-- A completion that waits in the holding area with the cons and cprod that go with it (R302). -/
structure Completion where
  bytes : Bytes
  cons : Word
deriving DecidableEq, Repr

/-- What a work queue holds beyond its registers. -/
structure QueueRun where
  prod : Word := 0
  cons : Word := 0
  cprod : Word := 0
  ccons : Word := 0
  /-- First entry whose processing has not begun. -/
  next : Word := 0
  prefetch : Sparse Bytes := []
  /-- First index never prefetched: an invalidated entry is read again only when it is processed (R292). -/
  fetched : Word := 0
  holding : List Completion := []
  /-- Entries of the open batch, and its last cookie and time (R301). -/
  batch : Nat := 0
  batchCookie : Bytes := []
  batchTime : Word := 0
  /-- The completion's value as its last entry gave it (R300). -/
  batchValue : Nat := 0
  /-- Step mode: lane-job entries whose starts wait for dispatch, by input sequence number (R307). -/
  dispatch : List (Word × Bytes) := []
  /-- Step mode: the status, entry and time of an entry that failed while others wait for dispatch; it completes after them
  (R303). -/
  failed : Option (Nat × Bytes × Word) := none
  /-- A host-work entry performs its access: a shutdown or a reset that the access causes comes before its outcome (R305,
  R308). -/
  busy : Bool := false
  /-- The completion ring or the index block has failed: nothing further is written (R304). -/
  mute : Bool := false
  /-- A doorbell arrived while the queue was processing: prod is read again when the prod last read is reached (R290). -/
  ringAgain : Bool := false
deriving DecidableEq, Repr

/-! ### Fault collector (R323-R335) -/

/-- An occurrence (R326). -/
structure Occurrence where
  src : Nat
  /-- Reaction class at the occurrence (R328). -/
  cls : Nat
  time : Word
  forced : Bool
  count : Word
  /-- Milepost wraps that the journal had counted at the raise (R340). -/
  epoch : BitVec 16 := 0
  overflow : Bool := false
  /-- The edge of the occurrence, counted from 1 (R327). -/
  edge : Nat := 0
deriving DecidableEq, Repr

/-- What the collector holds beyond its registers. -/
structure FaultRun where
  queue : List Occurrence := []
  noted : Sparse (Option Occurrence) := []
  occ : Word := 0
  budget : Sparse Nat := []
  missed : Sparse Word := []
  /-- SAFE_n is driven low (R332). -/
  safeLow : Bool := true
  /-- Actions 1-5 of the occurrence at the head are done; its alarm waits for function 207 (R329, R349). -/
  begun : Bool := false
  /-- Occurrences passed to the supervisor firmware (R329, action 7). -/
  notified : List Occurrence := []
  /-- The edge of the latest occurrence, counted from 1; the sources that occurred on it, and those that a force write
  made occur (R328). -/
  edge : Nat := 0
  occurred : List Nat := []
  rose : List Nat := []
deriving DecidableEq, Repr

/-! ### Journal (R337-R348) -/

/-- A record that waits in the intake queue (R340). -/
structure JRecord where
  cls : Nat
  kind : Nat
  flags : BitVec 8
  origin : BitVec 16
  time : Word
  epoch : BitVec 16
  body : Bytes
deriving DecidableEq, Repr

/-- The run or overflow summary of one origin (R341, R342). -/
structure AlarmRun where
  seq : Word := 0
  firstTime : Word
  firstEpoch : BitVec 16
  lastTime : Word
  lastEpoch : BitVec 16
  count : Word
  head : Bytes
  flags : BitVec 8
deriving DecidableEq, Repr

/-- Records lost to a path since its previous gap marker (R346). -/
structure Gap where
  count : Nat
  first : Word
  last : Word
deriving DecidableEq, Repr

/-- What one drain path holds beyond its registers: buckets in 1/1,000 byte (R345). -/
structure DrainPath where
  alarmMilli : Nat := 0
  generalMilli : Nat := 0
  sending : Bool := false
  gaps : Sparse (Option Gap) := []
deriving DecidableEq, Repr

/-- What the journal holds beyond its registers. Origins are 0-2,047 sources and 2,048 + lane. -/
structure JournalRun where
  intake : List JRecord := []
  newest : Sparse (Option AlarmRun) := []
  summaries : Sparse (Option AlarmRun) := []
  paths : Sparse DrainPath := []
deriving DecidableEq, Repr

/-! ### Twin (R352-R371) -/

/-- State of the twin unit; codes under R354. -/
inductive TwinState where
  | off | pairing | active | standby | isolated | refused | rejoining
deriving DecidableEq, Repr

/-- One input of the merged stream (R355, R357, R359). -/
structure TwinInput where
  step : Nat
  rank : Nat
  seq : Word
  kind : Nat
  body : Bytes
deriving DecidableEq, Repr

/-- A source address that an output-stage group echoes to: the port its last accepted frame came on, and when that was
in TCLK edges (R364, R366). -/
structure Sender where
  addr : BitVec 48
  port : Nat
  edge : Nat
deriving DecidableEq, Repr

/-- An output-stage group (R364-R366): the TCLK edge of its last accepted frame, its frames accepted and discarded as
echoes carry them, and its sources. -/
structure OutputGroup where
  lastEdge : Nat := 0
  accepted : Word := 0
  refused : Word := 0
  senders : List Sender := []
deriving DecidableEq, Repr

/-- What the twin unit holds beyond its registers. -/
structure TwinRun where
  state : TwinState := .off
  /-- Pairing is decided in step mode; the states change at the first boundary (R353). -/
  paired : Bool := false
  /-- From the last hello or heartbeat of the peer (R353, R367). -/
  peerEpoch : BitVec 24 := 0
  peerClaim : Word := 0
  peerStep : Nat := 0
  /-- A heartbeat has come in the running 1 ms period; periods without one; periods with one from an active peer on the
  twin link (R367, R370). -/
  heardLink : Bool := false
  heardBackup : Bool := false
  missLink : Nat := 0
  missBackup : Nat := 0
  linkSeen : Nat := 0
  inputSeq : Word := 0
  /-- The last marker emitted or received with its t_b; markers held and not begun, in order (R358). -/
  lastMarker : Nat := 0
  lastTb : Word := 0
  /-- No marker has come since the unit started: the first one stands at the time of its emission (R358, R372). -/
  noBoundary : Bool := true
  markers : List (Nat × Word) := []
  inputs : List TwinInput := []
  resend : List TwinInput := []
  ownClose : Sparse (Option Nat) := []
  peerClose : Sparse (Option Nat) := []
  /-- Sequence number that follows the peer's inputs of every closed step; none before its first close (R358). -/
  peerSeq : Option Word := none
  ownDigest : Sparse (Option Word) := []
  peerDigest : Sparse (Option Word) := []
  /-- Merges without the peer (R367, R368). -/
  alone : Bool := false
  /-- A takeover in step mode suppresses until the next step release (R368). -/
  releasing : Bool := false
  /-- TCLK edge of the last takeover (R371). -/
  tookOver : Option Nat := none
  /-- TCLK edge of the last demotion by an echo run (R371). -/
  echoed : Option Nat := none
  groups : Sparse OutputGroup := []
  /-- The copy to a rejoining peer is under way, and the piece of it that is sent next (R370). -/
  copying : Bool := false
  syncNext : Nat := 0
  /-- Step of the sync frames that have come: the boundary at which the copy is taken (R370). -/
  syncStep : Nat := 0
deriving DecidableEq, Repr

/-! ### Step mode (R127) -/

/-- What waits for the beginning of the next step (R131). -/
inductive StepCommand where
  | resetLane (lane : Nat)
  | resetDistrict (district : Nat)
  | halt (district : Nat)
  | resume (district : Nat)
deriving DecidableEq, Repr

/-- The device's step state: the step number, t_b, and what waits for the next step. -/
structure StepRun where
  step : Nat := 0
  tb : Word := 0
  /-- Resets, halts and resumes, in the order of their requests (R131). -/
  commands : List StepCommand := []
  /-- When the merged stream delivered the marker that ends a step: Milepost ns and TCLK edge, by step; whether the running
  step's jobs had not ended then, or when the step began (R127). -/
  delivered : Sparse (Option Nat) := []
  stalled : Bool := false
  /-- Messages from other districts that wait for their district's reset to end (R122). -/
  heldMsgs : List (MsgDest × Message) := []
  /-- Captured frames for a district that takes none yet. -/
  held : List TwinInput := []
deriving DecidableEq, Repr

/-! ### Hierarchy (R375-R390) -/

/-- Where a Waypost message came from: its station address and, in the UDP encapsulation, its IPv4 address and port
(R393). -/
structure WpPeer where
  mac : BitVec 48 := 0
  udp : Option (Word × BitVec 16) := none
deriving DecidableEq, Repr

/-- Who asked for a piece of host work (R385, R400, R405, R428): a host session, with the sender, epoch and seq of its
request, a manager behind a trunk with the relay's worker byte, session, tag, epoch and seq, or nobody. -/
inductive Asker where
  | host (session : Nat) (peer : WpPeer) (epoch seq : Word)
  | relay (trunk : Nat) (addr : BitVec 48) (worker session : Nat) (tag epoch seq : Word)
  | nobody
deriving DecidableEq, Repr

/-- A relay that waits for its response (R385): for a host, its tag and who asked; for the manager's own delivery of an
image, none (R384). -/
structure RelayOut where
  tag : Word
  worker : Nat
  session : Nat
  host : Option (Word × Asker)
deriving DecidableEq, Repr

/-- What the manager holds of one worker beyond its registers (R383, R384): an offer due, the image offset that a
delivery has reached, and an offer refused since. -/
structure WorkerRun where
  /-- Source address of the latest status. -/
  addr : Option (BitVec 48) := none
  offerDue : Bool := false
  delivery : Option Nat := none
  retryWait : Bool := false
deriving DecidableEq, Repr

/-- What the hierarchy unit holds beyond its registers. -/
structure HierarchyRun where
  nextTag : Word := 1
  statusSeq : Word := 0
  outs : List RelayOut := []
  workers : Sparse WorkerRun := []
  managerLost : Bool := true
  lastRefused : Bool := false
deriving DecidableEq, Repr

/-! ### Waypost (R393-R408) -/

/-- A request that waits in its session's queue (R385, R398): header fields, payload, and who is answered. -/
structure WpRequest where
  kind : BitVec 8
  epoch : Word
  seq : Word
  payload : Bytes
  who : Asker := .nobody
deriving DecidableEq, Repr

/-- What a host session holds beyond its registers (R396-R398). -/
structure SessionRun where
  key : Option Bytes := none
  pending : Option Word := none
  seen : BitVec 64 := 0
  queue : List WpRequest := []
  /-- The session's current address (R398). -/
  peer : WpPeer := {}
  /-- Host commands that were forwarded and wait for their step boundary, with their input sequence number (R405). -/
  waiting : List (Word × WpRequest) := []
deriving DecidableEq, Repr

/-- A peer of an association (R399). -/
structure PeerRun where
  addr : BitVec 48
  epoch : Word
  hi : Word
  seen : BitVec 64
  /-- Elapsed ns at its latest accepted message. -/
  last : Nat
deriving DecidableEq, Repr

/-- An LM64 point (R406): its value, the elapsed ns at which it was last updated, and whether its last update failed. -/
structure PointRun where
  value : Word := 0
  updated : Option Nat := none
  bad : Bool := false
deriving DecidableEq, Repr

/-- What the Waypost endpoint holds beyond its registers. Association 0 is hierarchy, 1 is echo. -/
structure WaypostRun where
  sessions : Sparse SessionRun := []
  assocKey : Sparse (Option Bytes) := []
  boot : Word := 1
  peers : Sparse (List PeerRun) := []
  sendSeq : List (Nat × BitVec 48 × Word) := []
  nextSession : Nat := 0
  points : Sparse PointRun := []
  /-- Transactions already answered with status 9 whose mapper answer is still to come (R408). -/
  lateTxns : List Bytes := []
  /-- Input sequence numbers of forwarded transactions that were answered so. -/
  lateKeys : List Word := []
  /-- A session's own REG_WR asked for the reset of function 210: it follows the response (R444). -/
  resetDue : Bool := false
deriving DecidableEq, Repr

/-! ### Loader (R413-R430) -/

/-- A section of the resident image or of an image under check (R415, R417): its records as tag and value. -/
structure ImgSection where
  type : Nat
  instNo : Nat
  records : List (Nat × Bytes)
  raw : Bytes := []
deriving DecidableEq, Repr

/-- An OTP key slot (R422). -/
structure KeySlot where
  hash : Option Bytes := none
  revoked : Bool := false
deriving DecidableEq, Repr

/-- What a valid copy of the boot record says (R423). -/
structure BootRecord where
  preferred : Nat
  trial : Nat
  seq : Word
deriving DecidableEq, Repr

/-- A commit under verification (R424): the image as received, its target, and who waits. -/
structure Commit where
  image : Bytes
  target : Nat
  who : Asker
deriving DecidableEq, Repr

/-- What the loader holds beyond its registers, with the OTP and the QSPI flash. -/
structure LoaderRun where
  staging : Sparse Byte := []
  received : List (Nat × Nat) := []
  /-- The open transfer: its target and session (R400, R424). -/
  transfer : Option (Nat × Nat) := none
  /-- TCLK edge of the latest IMG_CTRL.abort (R430). -/
  abortEdge : Option Nat := none
  /-- The committed image while it is verified. -/
  verifying : Option Commit := none
  /-- A verified image that waits to be applied, and its IMG_STAT.source code. -/
  verified : Option (Bytes × Nat) := none
  /-- A verified image that waits for its step boundary (R428). -/
  forwarded : Option Commit := none
  /-- Functions whose reload met a memory error: they stay in reset until a full load (R427). -/
  failed : List Nat := []
  /-- The slot write that runs, and those that wait for it (R424). -/
  flashWrite : Option (Nat × Bytes) := none
  flashNext : List (Nat × Bytes) := []
  resident : List ImgSection := []
  flashA : Bytes := []
  flashB : Bytes := []
  /-- The 16 bytes of the two copies of the boot record, at 0x1000_0000 and 0x1001_0000 of the flash (R423). -/
  recordA : Bytes := []
  recordB : Bytes := []
  /-- Boot record write that waits for flash_busy to end: preferred slot and trial state (R430). -/
  recordWait : Option (Nat × Nat) := none
  keySlots : Sparse KeySlot := []
  /-- The OTP redundancy check failed at boot: no key slot is usable (R439). -/
  otpBad : Bool := false
  recoveryKey : Option Bytes := none
  boardDigest : Option Bytes := none
  deviceMac : BitVec 48 := 0
  macProgrammed : Bool := false
  descriptors : Sparse (Option Bytes) := []
  /-- Trunk role codes and topology of the DEVICE record in force (R14, R416); 15: the default of R14. -/
  roleCode : Sparse Nat := []
  topology : Nat := 0
  /-- First of the two IMG_REVOKE writes: path, value and Milepost ns (R422). -/
  revokeFirst : Option (Nat × Word × Word) := none
deriving DecidableEq, Repr

/-! ### System (R433-R455) -/

/-- How the boot stands (R439, R442). -/
inductive BootPhase where
  | reset | hold | bare | running
deriving DecidableEq, Repr

/-- What the system unit holds beyond its registers. -/
structure SystemRun where
  phase : BootPhase := .reset
  /-- The bare state's Waypost is open (R442). -/
  wpOpen : Bool := false
  /-- A thermal trip holds the device in reset (R436). -/
  thermalHold : Bool := false
  /-- Milepost ns at which 0x5A was written to SYS_WDOG_KICK (R450). -/
  kickFirst : Option Word := none
  /-- Elapsed ns at which the running stage of the watchdog began, and at which it expired last: WDOG is low for 1 ms from
  then (R450). -/
  wdogStart : Nat := 0
  wdogLow : Option Nat := none
  /-- Elapsed ns at which the supervisor complex has restarted its firmware (R451). -/
  restarted : Nat := 0
  /-- Consecutive readings of a rail outside its range (R452). -/
  voltLow : Sparse Nat := []
deriving DecidableEq, Repr

/-- Stops of the block. No command stops the machine: every condition that the manual names is a next state of the
block (an access error, a refusal count, a lane fault, a cause bit). Raised by no meaning; safe. -/
inductive Fault where
  /-- Never raised (the type must have a constructor to be named in a log); safe. -/
  | none
deriving DecidableEq, Repr

/-- Refusals of the model. -/
inductive Refusal where
  /-- A command that has no meaning in the model yet; raised only by an arm of `exec` that says so. Safe: nothing is
  claimed of it. -/
  | notModelled (mnemonic : String)
deriving DecidableEq, Repr

/-- The whole block, and the queue of commands that wait, first in, first out. -/
structure State where
  pending : List Instr := []
  regs : Sparse Word := []
  /-- Device memory by 40-bit address (R475); an unlisted byte reads 0. -/
  mem : List Host.Cell := []
  mp : Milepost := {}
  roads : Sparse Road := []
  ingest : List Observation := []
  /-- The edge on which the ingest queue drained last, counted from 1 (R47). -/
  ingestEdge : Nat := 0
  ingested : Option Ingested := none
  /-- The edge, counted from 1, on which an observation entered the queue last, and how many of its last entries entered on
  it (R47). -/
  arriveEdge : Nat := 0
  arriveCount : Nat := 0
  /-- What registers written on an edge, counted from 1, held before it, where another happening of the edge still uses that
  (R58, R193, R243, R328); keys as in `regs`. -/
  heldEdge : Nat := 0
  held : List (Nat × Word) := []
  recs : Sparse (BitVec 128) := []
  recRun : Sparse RecordRun := []
  /-- Commits that have not changed their records yet, in order (R68, R75). -/
  commits : List StagedCommit := []
  /-- The edge, counted from 1, of the doorbells that rang last, and the queues that they rang (R86, R306). -/
  rungEdge : Nat := 0
  rungQueues : List Nat := []
  /-- Last road served (R71). -/
  lastServed : Nat := 63
  /-- The edge of a write of 1 to MST_CTRL.enable: a return falls on the edge after it (R73). -/
  enableReturn : Option Nat := none
  /-- The edge last compared, counted from 1; the edge of the last firing and the roads that fired on it (R71). -/
  cmpEdge : Nat := 0
  fireEdge : Nat := 0
  firedRoads : List Nat := []
  /-- The frozen position that goes with a HELD history entry, by road * 4096 + index (R61). -/
  frozen : Sparse (BitVec 48) := []
  pulses : List Pulse := []
  snapCount : Sparse Word := []
  /-- Elapsed ns at which a snapshot slot was written last (R406). -/
  snapAt : Sparse Nat := []
  slots : Sparse SlotRun := []
  trackers : Sparse Tracker := []
  mfeSeq : Word := 0
  mfeDiscard : Nat := 0
  mfeStuck : BitVec 8 := 0
  shafts : Sparse Shaft := []
  lanes : Sparse LaneState := []
  districts : Sparse DistrictRun := []
  ports : Sparse PortRun := []
  macs : Sparse MacRun := []
  jct : JunctionRun := {}
  tpk : TurnpikeRun := {}
  /-- P and D of the streams' latent periods (R272). -/
  freP : Sparse Nat := []
  freD : Sparse Nat := []
  queues : Sparse QueueRun := []
  /-- Source bytes that a busy DMA channel holds since its start (R314). -/
  dmaHeld : Sparse Bytes := []
  /-- The last start of a DMA channel: its edge, counted from 1, and whether it was taken (R318). -/
  dmaEdge : Sparse (Nat × Bool) := []
  /-- The queue manager's round robin (R293): the queue served last, the entries left of its visit, and the visits left after
  that. -/
  wrrCur : Nat := 1023
  wrrLeft : Nat := 0
  wrrVisits : Nat := 0
  flt : FaultRun := {}
  jnl : JournalRun := {}
  twn : TwinRun := {}
  stp : StepRun := {}
  hie : HierarchyRun := {}
  wpt : WaypostRun := {}
  img : LoaderRun := {}
  sys : SystemRun := {}
  /-- The model's own: draws made of the free random source so far (Config.freeWord). -/
  draws : Nat := 0
deriving DecidableEq, Repr

/-- The block at the end of power-on reset, before its boot: registers at their Reset column (an empty store), memory
empty, every queue empty, every lane and road idle, Milepost at 0 (R9, R28, R71, R332). Boot starts road 0 (R49, R439). -/
def State.reset : State := {}

end Sys2Proof.Machine
end

