-- ==== Sys2Proof/Machine/Sparse.lean ====
section
/-! DEFINITION. Sparse tables: reading, writing in canonical form, and the canonical form itself.
A table lists only the entries that differ from what an unlisted key reads as, with keys strictly rising. -/

set_option Elab.async false

namespace Sys2Proof.Machine

open Sys2Proof

variable {α : Type}

/-- The entry at `k`; `d` where none is listed. -/
def sget (d : α) (k : Nat) : Sparse α → α
  | [] => d
  | (k', v) :: t => if k' = k then v else sget d k t

/-- Put an entry at its place among rising keys. -/
def sinsert (k : Nat) (v : α) : Sparse α → Sparse α
  | [] => [(k, v)]
  | (k', v') :: t => if k < k' then (k, v) :: (k', v') :: t else (k', v') :: sinsert k v t

/-- Remove the entry at `k`. -/
def serase (k : Nat) : Sparse α → Sparse α
  | [] => []
  | (k', v) :: t => if k' = k then serase k t else (k', v) :: serase k t

/-- Write `v` at `k`: the value that an unlisted key reads as removes the entry. -/
def sset [DecidableEq α] (d : α) (k : Nat) (v : α) (l : Sparse α) : Sparse α :=
  if v = d then serase k l else sinsert k v (serase k l)

/-- Keys strictly rising from `lo`. -/
def keysRise : Nat → Sparse α → Bool
  | _, [] => true
  | lo, (k, _) :: t => decide (lo ≤ k) && keysRise (k + 1) t

/-- No entry equals what an unlisted key reads as. -/
def noDefault [DecidableEq α] (d : Nat → α) : Sparse α → Bool
  | [] => true
  | (k, v) :: t => decide (v ≠ d k) && noDefault d t

/-- The canonical form of a sparse table. -/
def sparseWf [DecidableEq α] (d : Nat → α) (l : Sparse α) : Bool :=
  keysRise 0 l && noDefault d l

/-- The keys of a table. -/
def skeys : Sparse α → List Nat
  | [] => []
  | (k, _) :: t => k :: skeys t

/-- Keep the entries whose key satisfies `p`. -/
def sfilter (p : Nat → Bool) : Sparse α → Sparse α
  | [] => []
  | (k, v) :: t => if p k then (k, v) :: sfilter p t else sfilter p t

end Sys2Proof.Machine
end

