-- ==== Sys2Proof/Machine/Regs.lean ====
section
/-! DEFINITION. The registers: their numbers (R480), the masks of their access codes (R6), their Reset column (R9),
their windows (R10, R480) and the function that owns each (R444). Written from the register tables of the chapters. -/

set_option Elab.async false

namespace Sys2Proof.Machine

open Sys2Proof

/-! ### Register numbers: block * 0x1000 + offset (R480). A name of an array is its element 0. -/

abbrev SYS_ID : Nat := 0x00000
abbrev SYS_STRAP : Nat := 0x00004
abbrev SYS_RST_CAUSE : Nat := 0x00008
abbrev SYS_RST : Nat := 0x0000C
abbrev SYS_RST_STAT : Nat := 0x00010
abbrev SYS_WDOG_CFG : Nat := 0x0002C
abbrev SYS_WDOG_KICK : Nat := 0x00030
abbrev SYS_WDOG_STAT : Nat := 0x00034
abbrev SYS_MON_CFG : Nat := 0x00038
abbrev SYS_MON_TEMP : Nat := 0x0003C
abbrev SYS_MON_V : Nat := 0x00040
abbrev SYS_CAUSE : Nat := 0x00058
abbrev SYS_SUP_CAUSE : Nat := 0x0005C
abbrev MPT_SEL : Nat := 0x01000
abbrev MPT_CTRL : Nat := 0x01004
abbrev MPT_NS : Nat := 0x01008
abbrev MPT_FRAC : Nat := 0x0100C
abbrev MPT_INCR_FRAC : Nat := 0x01010
abbrev MPT_INCR_INT : Nat := 0x01014
abbrev MPT_SET_NS : Nat := 0x01018
abbrev MPT_SET_FRAC : Nat := 0x0101C
abbrev MPT_STEP : Nat := 0x01020
abbrev MPT_STATUS : Nat := 0x01024
abbrev MPT_REFUSED : Nat := 0x01028
abbrev MPT_TC_COUNT : Nat := 0x0102C
abbrev MPT_TC_SAT : Nat := 0x01030
abbrev MPT_ONESTEP_DROP : Nat := 0x01034
abbrev MPT_CAUSE : Nat := 0x01038
abbrev MPT_FW_SET : Nat := 0x0103C
abbrev MPT_PORT_CTRL : Nat := 0x01100
abbrev MPT_PORT_LINKDLY : Nat := 0x01104
abbrev MPT_TS2_LEVEL : Nat := 0x01108
abbrev MPT_TS2_HEAD : Nat := 0x0110C
abbrev MPT_TS2_TIME : Nat := 0x01110
abbrev ROA_SEL : Nat := 0x02000
abbrev ROA_INGEST : Nat := 0x02004
abbrev ROA_RSF : Nat := 0x02008
abbrev ROA_CTRL : Nat := 0x02100
abbrev ROA_SRC : Nat := 0x02104
abbrev ROA_PERIOD : Nat := 0x02108
abbrev ROA_TRK_GAIN : Nat := 0x0210C
abbrev ROA_ACQ_GAIN : Nat := 0x02110
abbrev ROA_TOL : Nat := 0x02114
abbrev ROA_TIMEOUT : Nat := 0x02118
abbrev ROA_STANDSTILL : Nat := 0x0211C
abbrev ROA_RATE_INIT : Nat := 0x02120
abbrev ROA_STATE : Nat := 0x02124
abbrev ROA_CAUSE : Nat := 0x02128
abbrev ROA_POS_LAP : Nat := 0x0212C
abbrev ROA_POS_FRAC : Nat := 0x02130
abbrev ROA_RATE_LO : Nat := 0x02134
abbrev ROA_RATE_HI : Nat := 0x02138
abbrev ROA_ACCEL : Nat := 0x0213C
abbrev ROA_LAST_OBS : Nat := 0x02140
abbrev ROA_CNT_ACC : Nat := 0x02144
abbrev ROA_CNT_REJ : Nat := 0x02148
abbrev ROA_CNT_DROP : Nat := 0x0214C
abbrev ROA_HIST : Nat := 0x02150
abbrev MST_SEL : Nat := 0x03000
abbrev MST_CTRL : Nat := 0x03004
abbrev MST_TRIG_BASE_LO : Nat := 0x03008
abbrev MST_TRIG_BASE_HI : Nat := 0x0300C
abbrev MST_SNAP_BASE_LO : Nat := 0x03010
abbrev MST_SNAP_BASE_HI : Nat := 0x03014
abbrev MST_CNT_FIRED : Nat := 0x03018
abbrev MST_CNT_LATE : Nat := 0x0301C
abbrev MST_CNT_DEFER : Nat := 0x03020
abbrev MST_CNT_SKIP : Nat := 0x03024
abbrev MST_CNT_REFUSED : Nat := 0x03028
abbrev MST_CAUSE : Nat := 0x03030
abbrev MST_SW_PULSE : Nat := 0x03038
abbrev MST_REC : Nat := 0x03100
abbrev MST_COMMIT : Nat := 0x03110
abbrev MST_MS_STATUS : Nat := 0x03114
abbrev MST_MS_LAST : Nat := 0x03118
abbrev MST_EVT_SRC : Nat := 0x03200
abbrev MST_EVT_DST : Nat := 0x03204
abbrev MST_EVT_CNT : Nat := 0x03208
abbrev MST_PLC_CUR : Nat := 0x03300
abbrev MST_PLC_NEXT : Nat := 0x03304
abbrev MST_PLC_RX : Nat := 0x03308
abbrev MST_PLC_CNT : Nat := 0x0330C
abbrev MFE_SEL : Nat := 0x04000
abbrev MFE_CTRL : Nat := 0x04004
abbrev MFE_BUF_LO : Nat := 0x04008
abbrev MFE_BUF_HI : Nat := 0x0400C
abbrev MFE_BUF_CFG : Nat := 0x04010
abbrev MFE_BUF_WR : Nat := 0x04014
abbrev MFE_CAUSE : Nat := 0x04018
abbrev MFE_CH_CFG : Nat := 0x04100
abbrev MFE_CH_GAIN : Nat := 0x04104
abbrev MFE_CH_OFFSET : Nat := 0x04108
abbrev MFE_CH_LAST : Nat := 0x0410C
abbrev MFE_CH_OVR : Nat := 0x04110
abbrev MFE_TRK_CFG : Nat := 0x04200
abbrev MFE_TRK_LEVEL : Nat := 0x04204
abbrev MFE_TRK_HYST : Nat := 0x04208
abbrev MFE_TRK_STAT : Nat := 0x0420C
abbrev MFE_TRK_PERIOD : Nat := 0x04210
abbrev MFE_TRK_CNT : Nat := 0x04214
abbrev SHF_SEL : Nat := 0x05000
abbrev SHF_CAUSE_SUM : Nat := 0x05004
abbrev SHF_CFG : Nat := 0x05100
abbrev SHF_CPR : Nat := 0x05104
abbrev SHF_SSI : Nat := 0x05108
abbrev SHF_SSI_TIME : Nat := 0x0510C
abbrev SHF_LATCH : Nat := 0x05110
abbrev SHF_OBS : Nat := 0x05114
abbrev SHF_POS_LAP : Nat := 0x05118
abbrev SHF_POS_FRAC : Nat := 0x0511C
abbrev SHF_CNT : Nat := 0x05120
abbrev SHF_CNT_FRAME : Nat := 0x05124
abbrev SHF_CAUSE : Nat := 0x05128
abbrev LNC_SEL : Nat := 0x06000
abbrev LNC_CTRL : Nat := 0x06004
abbrev LNC_STEP : Nat := 0x06008
abbrev LNC_STEP_STALL : Nat := 0x0600C
abbrev LNC_STALL_LAST : Nat := 0x06010
abbrev LNC_FLT_SUM : Nat := 0x06014
abbrev LNC_LANE_CTRL : Nat := 0x06100
abbrev LNC_LANE_STAT : Nat := 0x06104
abbrev LNC_LANE_PC : Nat := 0x06108
abbrev LNC_LANE_FAULT : Nat := 0x0610C
abbrev LNC_LANE_FADDR : Nat := 0x06110
abbrev LNC_APB0_LO : Nat := 0x06114
abbrev LNC_APB0_HI : Nat := 0x06118
abbrev LNC_APB1_LO : Nat := 0x0611C
abbrev LNC_APB1_HI : Nat := 0x06120
abbrev LNC_LANE_CNT_JOB : Nat := 0x06124
abbrev LNC_LANE_CNT_DROP : Nat := 0x06128
abbrev LNC_LANE_CNT_FAULT : Nat := 0x0612C
abbrev LNC_DST_CTRL : Nat := 0x06200
abbrev LNC_DST_STAT : Nat := 0x06204
abbrev LNC_DST_CAUSE : Nat := 0x06208
abbrev LNC_DST_ECC : Nat := 0x0620C
abbrev LNC_DST_FRX : Nat := 0x06210
abbrev LNC_DST_CNT_FRAME : Nat := 0x06214
abbrev LNC_DST_FAULTED : Nat := 0x06218
abbrev FPA_SEL : Nat := 0x07000
abbrev FPA_VRG_BASE_LO : Nat := 0x07004
abbrev FPA_VRG_BASE_HI : Nat := 0x07008
abbrev FPA_SER_ETYPE : Nat := 0x0700C
abbrev FPA_LINK : Nat := 0x07010
abbrev FPA_PORT_CFG : Nat := 0x07100
abbrev FPA_PORT_STAT : Nat := 0x07104
abbrev FPA_T1L_CFG : Nat := 0x07108
abbrev FPA_T1S_PLCA : Nat := 0x0710C
abbrev FPA_T1S_BURST : Nat := 0x07110
abbrev FPA_SER_CFG : Nat := 0x07114
abbrev FPA_SER_BIT : Nat := 0x07118
abbrev FPA_SER_DA_LO : Nat := 0x0711C
abbrev FPA_SER_DA_HI : Nat := 0x07120
abbrev FPA_VRG_CTRL : Nat := 0x07124
abbrev FPA_VRG_CFG : Nat := 0x07128
abbrev FPA_VRG_TDR : Nat := 0x0712C
abbrev FPA_VRG_CNT : Nat := 0x07130
abbrev FPA_VRG_SKIP : Nat := 0x07134
abbrev FPA_SURGE_CNT : Nat := 0x07138
abbrev FPA_SURGE_CLASS : Nat := 0x0713C
abbrev FPA_SURGE_LAST : Nat := 0x07140
abbrev FPA_SER_CNT : Nat := 0x07144
abbrev FPA_SER_CNT2 : Nat := 0x07148
abbrev FPA_T1S_CNT : Nat := 0x0714C
abbrev FPA_CAUSE : Nat := 0x07154
abbrev MAC_SEL : Nat := 0x08000
abbrev MAC_CFG : Nat := 0x08100
abbrev MAC_PAUSE_CFG : Nat := 0x08104
abbrev MAC_PAUSE_TX : Nat := 0x08108
abbrev MAC_PAUSE_STAT : Nat := 0x0810C
abbrev MAC_PRE_CFG : Nat := 0x08110
abbrev MAC_PRE_STAT : Nat := 0x08114
abbrev MAC_HALF0 : Nat := 0x08118
abbrev MAC_HALF1 : Nat := 0x0811C
abbrev MAC_FILT_LO : Nat := 0x08180
abbrev MAC_FILT_HI : Nat := 0x08184
abbrev MAC_CNT : Nat := 0x08200
abbrev JCT_SEL : Nat := 0x09000
abbrev JCT_CTRL : Nat := 0x09004
abbrev JCT_BUF_CFG : Nat := 0x09008
abbrev JCT_GUAR : Nat := 0x0900C
abbrev JCT_DT : Nat := 0x09010
abbrev JCT_FREE : Nat := 0x09014
abbrev JCT_CFREE : Nat := 0x09018
abbrev JCT_MC_CFG : Nat := 0x0901C
abbrev JCT_AUDIT : Nat := 0x09020
abbrev JCT_TBL_CMD : Nat := 0x09024
abbrev JCT_TBL_STAT : Nat := 0x09028
abbrev JCT_TBL_D : Nat := 0x09030
abbrev JCT_AGE : Nat := 0x09050
abbrev JCT_MIR : Nat := 0x09070
abbrev JCT_CNT_LOOKUP : Nat := 0x09090
abbrev JCT_CNT_LEARN : Nat := 0x09094
abbrev JCT_CNT_MISC : Nat := 0x09098
abbrev JCT_CNT_AUDIT : Nat := 0x0909C
abbrev JCT_CNT_ECC : Nat := 0x090A0
abbrev JCT_CNT_CT : Nat := 0x090A4
abbrev JCT_CNT_STALE : Nat := 0x090A8
abbrev JCT_CAUSE : Nat := 0x090B0
abbrev JCT_CAUSE2 : Nat := 0x090B4
abbrev JCT_P_CFG : Nat := 0x09100
abbrev JCT_Q_USED : Nat := 0x09104
abbrev JCT_Q_DROP : Nat := 0x09108
abbrev JCT_Q_RESIDUE : Nat := 0x0910C
abbrev JCT_SID_CUR : Nat := 0x09200
abbrev JCT_SID_PREV : Nat := 0x09204
abbrev JCT_SID_VER : Nat := 0x09208
abbrev TPK_SEL : Nat := 0x0A000
abbrev TPK_CAUSE : Nat := 0x0A004
abbrev TPK_CAUSE2 : Nat := 0x0A008
abbrev TPK_MAP_CMD : Nat := 0x0A00C
abbrev TPK_MAP_DATA : Nat := 0x0A010
abbrev TPK_MAP_STAT : Nat := 0x0A014
abbrev TPK_P_CFG : Nat := 0x0A100
abbrev TPK_P_RATE : Nat := 0x0A104
abbrev TPK_P_BURST : Nat := 0x0A108
abbrev TPK_P_CREDIT : Nat := 0x0A10C
abbrev TPK_GCL_CFG : Nat := 0x0A110
abbrev TPK_GCL_BASE_LO : Nat := 0x0A114
abbrev TPK_GCL_BASE_HI : Nat := 0x0A118
abbrev TPK_GCL_CYC_LO : Nat := 0x0A11C
abbrev TPK_GCL_CYC_HI : Nat := 0x0A120
abbrev TPK_GCL_FALLBACK : Nat := 0x0A124
abbrev TPK_GCL_MIN : Nat := 0x0A128
abbrev TPK_GCL_COMMIT : Nat := 0x0A12C
abbrev TPK_GCL_STAT : Nat := 0x0A130
abbrev TPK_GCL_SWITCH : Nat := 0x0A134
abbrev TPK_GCL_ENT0 : Nat := 0x0A138
abbrev TPK_GCL_ENT1 : Nat := 0x0A13C
abbrev TPK_GCL_OENT0 : Nat := 0x0A140
abbrev TPK_GCL_OENT1 : Nat := 0x0A144
abbrev TPK_P_CNT : Nat := 0x0A148
abbrev TPK_S_CFG : Nat := 0x0A200
abbrev TPK_S_RATE : Nat := 0x0A204
abbrev TPK_S_BURST : Nat := 0x0A208
abbrev TPK_S_CREDIT : Nat := 0x0A20C
abbrev TPK_S_LATE : Nat := 0x0A210
abbrev TPK_S_DROP : Nat := 0x0A214
abbrev TPK_S_TX : Nat := 0x0A218
abbrev TPK_SUB_CFG : Nat := 0x0A300
abbrev TPK_SUB_RATE : Nat := 0x0A304
abbrev TPK_SUB_BURST : Nat := 0x0A308
abbrev TPK_SUB_CREDIT : Nat := 0x0A30C
abbrev TPK_SUB_TX : Nat := 0x0A310
abbrev TPK_TOLL_CFG : Nat := 0x0A400
abbrev TPK_TOLL_CIR : Nat := 0x0A404
abbrev TPK_TOLL_CBS : Nat := 0x0A408
abbrev TPK_TOLL_PIR : Nat := 0x0A40C
abbrev TPK_TOLL_PBS : Nat := 0x0A410
abbrev TPK_TOLL_GREEN : Nat := 0x0A414
abbrev TPK_TOLL_YELLOW : Nat := 0x0A418
abbrev TPK_TOLL_RED : Nat := 0x0A41C
abbrev FRE_SEL : Nat := 0x0B000
abbrev FRE_CAUSE : Nat := 0x0B004
abbrev FRE_GLB_DROP : Nat := 0x0B008
abbrev FRE_STR_CFG : Nat := 0x0B100
abbrev FRE_STR_REC : Nat := 0x0B104
abbrev FRE_STR_LAT : Nat := 0x0B108
abbrev FRE_STR_SEQ : Nat := 0x0B10C
abbrev FRE_STR_STAT : Nat := 0x0B110
abbrev FRE_CNT_GEN : Nat := 0x0B114
abbrev FRE_CNT_PASS : Nat := 0x0B118
abbrev FRE_CNT_DISC : Nat := 0x0B11C
abbrev FRE_CNT_ROGUE : Nat := 0x0B120
abbrev FRE_CNT_LOST : Nat := 0x0B124
abbrev FRE_CNT_MISC : Nat := 0x0B128
abbrev FRE_CNT_MISC2 : Nat := 0x0B12C
abbrev FRE_STR_HIST : Nat := 0x0B130
abbrev CHK_SEL : Nat := 0x0C000
abbrev CHK_GLB_DROP : Nat := 0x0C004
abbrev CHK_CTX_CFG : Nat := 0x0C100
abbrev CHK_CTX_COV : Nat := 0x0C104
abbrev CHK_CTX_FLD : Nat := 0x0C108
abbrev CHK_CTX_CONST : Nat := 0x0C10C
abbrev CHK_CTX_ADDR_LO : Nat := 0x0C110
abbrev CHK_CTX_ADDR_HI : Nat := 0x0C114
abbrev CHK_CTX_STAT : Nat := 0x0C118
abbrev CHK_CTX_CNT_PASS : Nat := 0x0C11C
abbrev CHK_CTX_CNT_FAIL : Nat := 0x0C120
abbrev CHK_CTX_CNT_ALIVE : Nat := 0x0C124
abbrev CHK_CTX_CNT_LOST : Nat := 0x0C128
abbrev CHK_CTX_CAUSE : Nat := 0x0C12C
abbrev QMG_SEL : Nat := 0x0D000
abbrev QMG_DOORBELL : Nat := 0x0D004
abbrev QMG_INVAL : Nat := 0x0D008
abbrev QMG_INVAL_FIRST : Nat := 0x0D00C
abbrev QMG_INVAL_STAT : Nat := 0x0D010
abbrev QMG_INVAL_DONE : Nat := 0x0D014
abbrev QMG_CNT_DB : Nat := 0x0D018
abbrev QMG_Q_CFG : Nat := 0x0D100
abbrev QMG_Q_SCHED : Nat := 0x0D104
abbrev QMG_Q_BUF : Nat := 0x0D108
abbrev QMG_Q_RING_LO : Nat := 0x0D10C
abbrev QMG_Q_RING_HI : Nat := 0x0D110
abbrev QMG_Q_CRING_LO : Nat := 0x0D114
abbrev QMG_Q_CRING_HI : Nat := 0x0D118
abbrev QMG_Q_IDX_LO : Nat := 0x0D11C
abbrev QMG_Q_IDX_HI : Nat := 0x0D120
abbrev QMG_Q_STAT : Nat := 0x0D124
abbrev QMG_QERR : Nat := 0x0D128
abbrev QMG_Q_CNT : Nat := 0x0D12C
abbrev QMG_Q_CNT_DROP : Nat := 0x0D130
abbrev QMG_Q_CAUSE : Nat := 0x0D134
abbrev DMA_SEL : Nat := 0x0E000
abbrev DMA_BUSY : Nat := 0x0E004
abbrev DMA_SRC_LO : Nat := 0x0E100
abbrev DMA_SRC_HI : Nat := 0x0E104
abbrev DMA_DST_LO : Nat := 0x0E108
abbrev DMA_DST_HI : Nat := 0x0E10C
abbrev DMA_COUNT : Nat := 0x0E110
abbrev DMA_MODE : Nat := 0x0E114
abbrev DMA_CTRL : Nat := 0x0E118
abbrev DMA_STAT : Nat := 0x0E11C
abbrev DMA_CNT : Nat := 0x0E120
abbrev DMA_CAUSE : Nat := 0x0E124
abbrev DMA_METER : Nat := 0x0E128
abbrev JNL_SEL : Nat := 0x0F000
abbrev JNL_CFG : Nat := 0x0F004
abbrev JNL_BASE_LO : Nat := 0x0F008
abbrev JNL_BASE_HI : Nat := 0x0F00C
abbrev JNL_ALM_ACK : Nat := 0x0F010
abbrev JNL_CNT_IN : Nat := 0x0F014
abbrev JNL_CNT_ALM : Nat := 0x0F018
abbrev JNL_CAUSE : Nat := 0x0F01C
abbrev JNL_EPOCH : Nat := 0x0F020
abbrev JNL_C_LAYOUT : Nat := 0x0F100
abbrev JNL_C_WR : Nat := 0x0F104
abbrev JNL_C_OLD : Nat := 0x0F108
abbrev JNL_C_CNT : Nat := 0x0F10C
abbrev JNL_P_CFG : Nat := 0x0F200
abbrev JNL_P_PORT : Nat := 0x0F204
abbrev JNL_P_DA_LO : Nat := 0x0F208
abbrev JNL_P_DA_HI : Nat := 0x0F20C
abbrev JNL_P_BUDGET : Nat := 0x0F210
abbrev JNL_P_SEND : Nat := 0x0F214
abbrev JNL_P_CNT : Nat := 0x0F220
abbrev JNL_P_DROP : Nat := 0x0F224
abbrev JNL_P_CREDIT : Nat := 0x0F228
abbrev JNL_P_MSG : Nat := 0x0F22C
abbrev FLT_SEL : Nat := 0x10000
abbrev FLT_SUM_LO : Nat := 0x10004
abbrev FLT_SUM_HI : Nat := 0x10008
abbrev FLT_SAFE_CFG : Nat := 0x1000C
abbrev FLT_SAFE_CTRL : Nat := 0x10010
abbrev FLT_ISO : Nat := 0x10014
abbrev FLT_EVT_S : Nat := 0x10028
abbrev FLT_CNT : Nat := 0x10038
abbrev FLT_G_STICKY : Nat := 0x10100
abbrev FLT_G_FORCE : Nat := 0x10104
abbrev FLT_G_MASK : Nat := 0x10108
abbrev FLT_G_CLS : Nat := 0x1010C
abbrev FLT_CLS_ACT : Nat := 0x10200
abbrev FLT_CLS_DMASK_LO : Nat := 0x10204
abbrev FLT_CLS_DMASK_HI : Nat := 0x10208
abbrev FLT_CLS_CNT : Nat := 0x1020C
abbrev TWN_SEL : Nat := 0x11000
abbrev TWN_CFG : Nat := 0x11004
abbrev TWN_STAT : Nat := 0x11008
abbrev TWN_EPOCH : Nat := 0x1100C
abbrev TWN_CLAIM : Nat := 0x11010
abbrev TWN_STEP : Nat := 0x11014
abbrev TWN_CLAIM_OFF : Nat := 0x11018
abbrev TWN_CLAIM_PORT : Nat := 0x1101C
abbrev TWN_CTRL : Nat := 0x11030
abbrev TWN_DIG_STEP : Nat := 0x11034
abbrev TWN_CNT_IN : Nat := 0x11038
abbrev TWN_CNT_OUT : Nat := 0x1103C
abbrev TWN_CNT_DIG : Nat := 0x11040
abbrev TWN_CNT_HB : Nat := 0x11044
abbrev TWN_CAUSE : Nat := 0x11048
abbrev TWN_OS_CFG : Nat := 0x1104C
abbrev TWN_OS_H : Nat := 0x11100
abbrev TWN_OS_STAT : Nat := 0x11104
abbrev TWN_OS_CNT : Nat := 0x11108
abbrev HIE_SEL : Nat := 0x12000
abbrev HIE_CFG : Nat := 0x12004
abbrev HIE_RELAY : Nat := 0x12008
abbrev HIE_MGR_LO : Nat := 0x1200C
abbrev HIE_MGR_HI : Nat := 0x12010
abbrev HIE_CAUSE : Nat := 0x12014
abbrev HIE_CNT : Nat := 0x12018
abbrev HIE_CNT_RX : Nat := 0x1201C
abbrev HIE_W_STAT : Nat := 0x12100
abbrev HIE_W_SUM_LO : Nat := 0x12104
abbrev HIE_W_SUM_HI : Nat := 0x12108
abbrev HIE_W_CAUSE : Nat := 0x1210C
abbrev HIE_W_CNT : Nat := 0x12110
abbrev WPT_SEL : Nat := 0x13000
abbrev WPT_CFG : Nat := 0x13004
abbrev WPT_IPV4_T : Nat := 0x13008
abbrev WPT_CAUSE : Nat := 0x13018
abbrev WPT_CNT_RX : Nat := 0x1301C
abbrev WPT_CNT_BAD : Nat := 0x13020
abbrev WPT_LM64 : Nat := 0x13024
abbrev WPT_LM64_CNT : Nat := 0x13028
abbrev WPT_S_CFG : Nat := 0x13100
abbrev WPT_S_STAT : Nat := 0x13104
abbrev WPT_S_EPOCH : Nat := 0x13108
abbrev WPT_S_HI : Nat := 0x1310C
abbrev WPT_S_TXSEQ : Nat := 0x13110
abbrev WPT_S_CNT : Nat := 0x13114
abbrev WPT_S_DROP : Nat := 0x13118
abbrev IMG_SEL : Nat := 0x14000
abbrev IMG_STAT : Nat := 0x14004
abbrev IMG_ID_LO : Nat := 0x14008
abbrev IMG_ID_HI : Nat := 0x1400C
abbrev IMG_LAST : Nat := 0x14010
abbrev IMG_CTRL : Nat := 0x14014
abbrev IMG_REVOKE : Nat := 0x14018
abbrev IMG_RES_LO : Nat := 0x1401C
abbrev IMG_RES_HI : Nat := 0x14020
abbrev IMG_STAGE : Nat := 0x14024
abbrev IMG_CAUSE : Nat := 0x14028
abbrev IMG_CNT : Nat := 0x1402C
abbrev IMG_WARN : Nat := 0x14030
abbrev IMG_KEY_STAT : Nat := 0x14100
abbrev IMG_KEY_HASH : Nat := 0x14104
abbrev MEM_SEL : Nat := 0x15000
abbrev MEM_CFG : Nat := 0x15100
abbrev MEM_SCRUB : Nat := 0x15104
abbrev MEM_STAT : Nat := 0x15108
abbrev MEM_CNT : Nat := 0x1510C
abbrev MEM_CAUSE : Nat := 0x15110
abbrev TRK_SEL : Nat := 0x16000
abbrev TRK_CFG : Nat := 0x16100
abbrev TRK_STAT : Nat := 0x16104
abbrev TRK_CNT_BLK : Nat := 0x16108
abbrev TRK_CNT_FEC : Nat := 0x1610C
abbrev TRK_CAUSE : Nat := 0x16110

/-- A row of a register table: offset, rw bits, w1c bits, Reset column, and whether a function reset keeps it. -/
structure RegRow where
  off : Nat
  rw : Nat
  w1c : Nat
  reset : Nat
  keep : Bool
deriving DecidableEq, Repr

/-- The row of a register that no table lists, or whose fields are rd or wo and reset to 0. -/
def RegRow.blank (off : Nat) : RegRow := ⟨off, 0, 0, 0, false⟩

/-- Rows of block 0x00. -/
def regRows00 : List RegRow :=
  [⟨0x000, 0x0, 0x0, 0x81281000, true⟩,
   ⟨0x008, 0x0, 0x7F, 0x1, false⟩,
   ⟨0x02C, 0xFFFFFFFF, 0x0, 0x7D01388, false⟩,
   ⟨0x038, 0xFFFF, 0x0, 0x6E64, false⟩,
   ⟨0x058, 0x0, 0x7F, 0x0, false⟩,
   ⟨0x05C, 0x0, 0xF, 0x0, false⟩]

/-- Rows of block 0x01. -/
def regRows01 : List RegRow :=
  [⟨0x000, 0xFF, 0x0, 0x0, false⟩,
   ⟨0x004, 0x707, 0x0, 0x300, false⟩,
   ⟨0x014, 0x0, 0x0, 0x4, false⟩,
   ⟨0x018, 0xFFFFFFFF, 0x0, 0x0, false⟩,
   ⟨0x01C, 0xFFFFFFFF, 0x0, 0x0, false⟩,
   ⟨0x038, 0x0, 0x3FF, 0x0, false⟩,
   ⟨0x100, 0xF, 0x0, 0x8, false⟩,
   ⟨0x104, 0xFFFFFFFF, 0x0, 0x0, false⟩]

/-- Rows of block 0x02. -/
def regRows02 : List RegRow :=
  [⟨0x000, 0x3F, 0x0, 0x0, false⟩,
   ⟨0x008, 0x1FFFFF, 0x0, 0x3E8, false⟩,
   ⟨0x100, 0x10, 0x0, 0x0, false⟩,
   ⟨0x104, 0x3F07, 0x0, 0x0, false⟩,
   ⟨0x108, 0xFFFFFFFF, 0x0, 0xF4240, false⟩,
   ⟨0x10C, 0x11F1F0F, 0x0, 0xA0603, false⟩,
   ⟨0x110, 0x11F1F0F, 0x0, 0x40201, false⟩,
   ⟨0x114, 0x1F1F, 0x0, 0x60A, false⟩,
   ⟨0x118, 0xFFFFFFFF, 0x0, 0xC35061A8, false⟩,
   ⟨0x11C, 0xFFFFFFFF, 0x0, 0x0, false⟩,
   ⟨0x120, 0xFFFFFFFF, 0x0, 0x0, false⟩,
   ⟨0x128, 0x0, 0xF, 0x0, false⟩]

/-- Rows of block 0x03. -/
def regRows03 : List RegRow :=
  [⟨0x000, 0xFFFFFFFF, 0x0, 0x0, false⟩,
   ⟨0x004, 0x1, 0x0, 0x1, false⟩,
   ⟨0x008, 0xFFFFFF00, 0x0, 0x0, false⟩,
   ⟨0x00C, 0xFF, 0x0, 0x0, false⟩,
   ⟨0x010, 0xFFFFFF00, 0x0, 0x0, false⟩,
   ⟨0x014, 0xFF, 0x0, 0x0, false⟩,
   ⟨0x030, 0x0, 0x3F, 0x0, false⟩,
   ⟨0x100, 0xFFFFFFFF, 0x0, 0x0, false⟩,
   ⟨0x104, 0xFFFFFFFF, 0x0, 0x0, false⟩,
   ⟨0x108, 0xFFFFFFFF, 0x0, 0x0, false⟩,
   ⟨0x10C, 0xFFFFFFFF, 0x0, 0x0, false⟩,
   ⟨0x200, 0x7FFFFFF, 0x0, 0x0, false⟩,
   ⟨0x204, 0x7FFFFFF, 0x0, 0x0, false⟩,
   ⟨0x300, 0xFF07FF, 0x0, 0x0, false⟩,
   ⟨0x304, 0x80FF0FFF, 0x0, 0x0, false⟩,
   ⟨0x308, 0x103FF, 0x0, 0x0, false⟩]

/-- Rows of block 0x04. -/
def regRows04 : List RegRow :=
  [⟨0x000, 0x307, 0x0, 0x0, false⟩,
   ⟨0x004, 0x31, 0x0, 0x11, false⟩,
   ⟨0x008, 0xFFFFFFC0, 0x0, 0x0, false⟩,
   ⟨0x00C, 0xFF, 0x0, 0x0, false⟩,
   ⟨0x010, 0x1F, 0x0, 0x0, false⟩,
   ⟨0x018, 0x0, 0xFF, 0x0, false⟩,
   ⟨0x100, 0x71, 0x0, 0x1, false⟩,
   ⟨0x104, 0xFFFFFFFF, 0x0, 0x400000, false⟩,
   ⟨0x108, 0xFFFFFFFF, 0x0, 0x0, false⟩,
   ⟨0x200, 0xF7, 0x0, 0x21, false⟩,
   ⟨0x204, 0xFFFFFF, 0x0, 0xCCCCD, false⟩,
   ⟨0x208, 0xFFFFFF, 0x0, 0x8000, false⟩]

/-- Rows of block 0x05. -/
def regRows05 : List RegRow :=
  [⟨0x000, 0xF, 0x0, 0x0, false⟩,
   ⟨0x100, 0x3F77, 0x0, 0x350, false⟩,
   ⟨0x104, 0x1FFFFFF, 0x0, 0x1000, false⟩,
   ⟨0x108, 0x7FFFFFFF, 0x0, 0x463463, false⟩,
   ⟨0x10C, 0xFFFFFF, 0x0, 0x280064, false⟩,
   ⟨0x110, 0xFFF, 0x0, 0x0, false⟩,
   ⟨0x114, 0xFFFFFFFF, 0x0, 0x27100064, false⟩,
   ⟨0x128, 0x0, 0x1F, 0x0, false⟩]

/-- Rows of block 0x06. -/
def regRows06 : List RegRow :=
  [⟨0x000, 0x3F03FF, 0x0, 0x0, false⟩,
   ⟨0x10C, 0x0, 0x0, 0x0, true⟩,
   ⟨0x110, 0x0, 0x0, 0x0, true⟩,
   ⟨0x114, 0xFFFF0000, 0x0, 0x0, false⟩,
   ⟨0x118, 0xFF, 0x0, 0x0, false⟩,
   ⟨0x11C, 0xFFFF0000, 0x0, 0x0, false⟩,
   ⟨0x120, 0xFF, 0x0, 0x0, false⟩,
   ⟨0x12C, 0x0, 0x0, 0x0, true⟩,
   ⟨0x200, 0x70, 0x0, 0x60, false⟩,
   ⟨0x208, 0x0, 0xF, 0x0, false⟩,
   ⟨0x210, 0xFF00FF, 0x0, 0x0, false⟩]

/-- Rows of block 0x07. -/
def regRows07 : List RegRow :=
  [⟨0x000, 0x7F, 0x0, 0x0, false⟩,
   ⟨0x004, 0xFFFFFC00, 0x0, 0x0, false⟩,
   ⟨0x008, 0xFF, 0x0, 0x0, false⟩,
   ⟨0x00C, 0xFFFF, 0x0, 0x88B6, false⟩,
   ⟨0x100, 0x100, 0x0, 0x103, false⟩,
   ⟨0x108, 0x3F, 0x0, 0x3, false⟩,
   ⟨0x10C, 0x1FFFFFF, 0x0, 0x1082000, false⟩,
   ⟨0x110, 0xFFFF, 0x0, 0x8000, false⟩,
   ⟨0x114, 0x3FFFF7D, 0x0, 0x230000, false⟩,
   ⟨0x118, 0x1FFFFFF, 0x0, 0x28B0AB, false⟩,
   ⟨0x11C, 0xFFFFFFFF, 0x0, 0x0, false⟩,
   ⟨0x120, 0xFFFF, 0x0, 0x0, false⟩,
   ⟨0x124, 0x3F3FFF, 0x0, 0x3F03E8, false⟩,
   ⟨0x128, 0xFFFFFFFF, 0x0, 0x3E8A8F6, false⟩,
   ⟨0x12C, 0x3FF33FF, 0x0, 0x640000, false⟩,
   ⟨0x138, 0x0, 0x0, 0x0, true⟩,
   ⟨0x13C, 0x0, 0x0, 0x0, true⟩,
   ⟨0x140, 0x0, 0x0, 0x0, true⟩,
   ⟨0x154, 0x0, 0x1F, 0x0, false⟩]

/-- Rows of block 0x08. -/
def regRows08 : List RegRow :=
  [⟨0x000, 0xFF, 0x0, 0x0, false⟩,
   ⟨0x100, 0x3FFF001F, 0x0, 0x5F20013, false⟩,
   ⟨0x104, 0xFF03, 0x0, 0x0, false⟩,
   ⟨0x110, 0x7FF, 0x0, 0xA0, false⟩,
   ⟨0x118, 0x0, 0xFFFFFFFF, 0x0, true⟩,
   ⟨0x11C, 0x0, 0xFFF, 0x0, true⟩,
   ⟨0x180, 0xFFFFFFFF, 0x0, 0x0, false⟩,
   ⟨0x184, 0x8000FFFF, 0x0, 0x0, false⟩,
   ⟨0x188, 0xFFFFFFFF, 0x0, 0x0, false⟩,
   ⟨0x18C, 0x8000FFFF, 0x0, 0x0, false⟩,
   ⟨0x190, 0xFFFFFFFF, 0x0, 0x0, false⟩,
   ⟨0x194, 0x8000FFFF, 0x0, 0x0, false⟩,
   ⟨0x198, 0xFFFFFFFF, 0x0, 0x0, false⟩,
   ⟨0x19C, 0x8000FFFF, 0x0, 0x0, false⟩,
   ⟨0x1A0, 0xFFFFFFFF, 0x0, 0x0, false⟩,
   ⟨0x1A4, 0x8000FFFF, 0x0, 0x0, false⟩,
   ⟨0x1A8, 0xFFFFFFFF, 0x0, 0x0, false⟩,
   ⟨0x1AC, 0x8000FFFF, 0x0, 0x0, false⟩,
   ⟨0x1B0, 0xFFFFFFFF, 0x0, 0x0, false⟩,
   ⟨0x1B4, 0x8000FFFF, 0x0, 0x0, false⟩,
   ⟨0x1B8, 0xFFFFFFFF, 0x0, 0x0, false⟩,
   ⟨0x1BC, 0x8000FFFF, 0x0, 0x0, false⟩,
   ⟨0x1C0, 0xFFFFFFFF, 0x0, 0x0, false⟩,
   ⟨0x1C4, 0x8000FFFF, 0x0, 0x0, false⟩,
   ⟨0x1C8, 0xFFFFFFFF, 0x0, 0x0, false⟩,
   ⟨0x1CC, 0x8000FFFF, 0x0, 0x0, false⟩,
   ⟨0x1D0, 0xFFFFFFFF, 0x0, 0x0, false⟩,
   ⟨0x1D4, 0x8000FFFF, 0x0, 0x0, false⟩,
   ⟨0x1D8, 0xFFFFFFFF, 0x0, 0x0, false⟩,
   ⟨0x1DC, 0x8000FFFF, 0x0, 0x0, false⟩,
   ⟨0x1E0, 0xFFFFFFFF, 0x0, 0x0, false⟩,
   ⟨0x1E4, 0x8000FFFF, 0x0, 0x0, false⟩,
   ⟨0x1E8, 0xFFFFFFFF, 0x0, 0x0, false⟩,
   ⟨0x1EC, 0x8000FFFF, 0x0, 0x0, false⟩,
   ⟨0x1F0, 0xFFFFFFFF, 0x0, 0x0, false⟩,
   ⟨0x1F4, 0x8000FFFF, 0x0, 0x0, false⟩,
   ⟨0x1F8, 0xFFFFFFFF, 0x0, 0x0, false⟩,
   ⟨0x1FC, 0x8000FFFF, 0x0, 0x0, false⟩,
   ⟨0x200, 0x0, 0x0, 0x0, true⟩,
   ⟨0x204, 0x0, 0x0, 0x0, true⟩] ++
  [⟨0x208, 0x0, 0x0, 0x0, true⟩,
   ⟨0x20C, 0x0, 0x0, 0x0, true⟩,
   ⟨0x210, 0x0, 0x0, 0x0, true⟩,
   ⟨0x214, 0x0, 0x0, 0x0, true⟩,
   ⟨0x218, 0x0, 0x0, 0x0, true⟩,
   ⟨0x21C, 0x0, 0x0, 0x0, true⟩,
   ⟨0x220, 0x0, 0x0, 0x0, true⟩,
   ⟨0x224, 0x0, 0x0, 0x0, true⟩,
   ⟨0x228, 0x0, 0x0, 0x0, true⟩,
   ⟨0x22C, 0x0, 0x0, 0x0, true⟩,
   ⟨0x230, 0x0, 0x0, 0x0, true⟩,
   ⟨0x234, 0x0, 0x0, 0x0, true⟩,
   ⟨0x238, 0x0, 0x0, 0x0, true⟩,
   ⟨0x23C, 0x0, 0x0, 0x0, true⟩,
   ⟨0x240, 0x0, 0x0, 0x0, true⟩,
   ⟨0x244, 0x0, 0x0, 0x0, true⟩,
   ⟨0x248, 0x0, 0x0, 0x0, true⟩,
   ⟨0x24C, 0x0, 0x0, 0x0, true⟩,
   ⟨0x250, 0x0, 0x0, 0x0, true⟩,
   ⟨0x254, 0x0, 0x0, 0x0, true⟩,
   ⟨0x258, 0x0, 0x0, 0x0, true⟩,
   ⟨0x25C, 0x0, 0x0, 0x0, true⟩,
   ⟨0x260, 0x0, 0x0, 0x0, true⟩,
   ⟨0x264, 0x0, 0x0, 0x0, true⟩,
   ⟨0x268, 0x0, 0x0, 0x0, true⟩,
   ⟨0x26C, 0x0, 0x0, 0x0, true⟩,
   ⟨0x270, 0x0, 0x0, 0x0, true⟩,
   ⟨0x274, 0x0, 0x0, 0x0, true⟩,
   ⟨0x278, 0x0, 0x0, 0x0, true⟩,
   ⟨0x27C, 0x0, 0x0, 0x0, true⟩,
   ⟨0x280, 0x0, 0x0, 0x0, true⟩,
   ⟨0x284, 0x0, 0x0, 0x0, true⟩,
   ⟨0x288, 0x0, 0x0, 0x0, true⟩,
   ⟨0x28C, 0x0, 0x0, 0x0, true⟩,
   ⟨0x290, 0x0, 0x0, 0x0, true⟩,
   ⟨0x294, 0x0, 0x0, 0x0, true⟩,
   ⟨0x298, 0x0, 0x0, 0x0, true⟩,
   ⟨0x29C, 0x0, 0x0, 0x0, true⟩,
   ⟨0x2A0, 0x0, 0x0, 0x0, true⟩,
   ⟨0x2A4, 0x0, 0x0, 0x0, true⟩] ++
  [⟨0x2A8, 0x0, 0x0, 0x0, true⟩,
   ⟨0x2AC, 0x0, 0x0, 0x0, true⟩,
   ⟨0x2C0, 0xFFFFFFFF, 0x0, 0x0, false⟩,
   ⟨0x2C4, 0x8000FFFF, 0x0, 0x0, false⟩,
   ⟨0x2C8, 0xFFFFFFFF, 0x0, 0x0, false⟩,
   ⟨0x2CC, 0x8000FFFF, 0x0, 0x0, false⟩,
   ⟨0x2D0, 0xFFFFFFFF, 0x0, 0x0, false⟩,
   ⟨0x2D4, 0x8000FFFF, 0x0, 0x0, false⟩,
   ⟨0x2D8, 0xFFFFFFFF, 0x0, 0x0, false⟩,
   ⟨0x2DC, 0x8000FFFF, 0x0, 0x0, false⟩,
   ⟨0x2E0, 0xFFFFFFFF, 0x0, 0x0, false⟩,
   ⟨0x2E4, 0x8000FFFF, 0x0, 0x0, false⟩,
   ⟨0x2E8, 0xFFFFFFFF, 0x0, 0x0, false⟩,
   ⟨0x2EC, 0x8000FFFF, 0x0, 0x0, false⟩,
   ⟨0x2F0, 0xFFFFFFFF, 0x0, 0x0, false⟩,
   ⟨0x2F4, 0x8000FFFF, 0x0, 0x0, false⟩,
   ⟨0x2F8, 0xFFFFFFFF, 0x0, 0x0, false⟩,
   ⟨0x2FC, 0x8000FFFF, 0x0, 0x0, false⟩,
   ⟨0x300, 0xFFFFFFFF, 0x0, 0x0, false⟩,
   ⟨0x304, 0x8000FFFF, 0x0, 0x0, false⟩,
   ⟨0x308, 0xFFFFFFFF, 0x0, 0x0, false⟩,
   ⟨0x30C, 0x8000FFFF, 0x0, 0x0, false⟩,
   ⟨0x310, 0xFFFFFFFF, 0x0, 0x0, false⟩,
   ⟨0x314, 0x8000FFFF, 0x0, 0x0, false⟩,
   ⟨0x318, 0xFFFFFFFF, 0x0, 0x0, false⟩,
   ⟨0x31C, 0x8000FFFF, 0x0, 0x0, false⟩,
   ⟨0x320, 0xFFFFFFFF, 0x0, 0x0, false⟩,
   ⟨0x324, 0x8000FFFF, 0x0, 0x0, false⟩,
   ⟨0x328, 0xFFFFFFFF, 0x0, 0x0, false⟩,
   ⟨0x32C, 0x8000FFFF, 0x0, 0x0, false⟩,
   ⟨0x330, 0xFFFFFFFF, 0x0, 0x0, false⟩,
   ⟨0x334, 0x8000FFFF, 0x0, 0x0, false⟩,
   ⟨0x338, 0xFFFFFFFF, 0x0, 0x0, false⟩,
   ⟨0x33C, 0x8000FFFF, 0x0, 0x0, false⟩]

/-- Rows of block 0x09. -/
def regRows09 : List RegRow :=
  [⟨0x000, 0x7FF07FF, 0x0, 0x0, false⟩,
   ⟨0x004, 0xFFFF0003, 0x0, 0x12C0002, false⟩,
   ⟨0x008, 0x0, 0x0, 0x2000, false⟩,
   ⟨0x00C, 0x0, 0x0, 0x4001010, false⟩,
   ⟨0x01C, 0xFFFFF, 0x0, 0x2710, false⟩,
   ⟨0x020, 0x1, 0x0, 0x1, false⟩,
   ⟨0x024, 0x7FFF0033, 0x0, 0x0, false⟩,
   ⟨0x030, 0xFFFFFFFF, 0x0, 0x0, false⟩,
   ⟨0x034, 0xFFFFFFFF, 0x0, 0x0, false⟩,
   ⟨0x038, 0xFFFFFFFF, 0x0, 0x0, false⟩,
   ⟨0x03C, 0xFFFFFFFF, 0x0, 0x0, false⟩,
   ⟨0x040, 0xFFFFFFFF, 0x0, 0x0, false⟩,
   ⟨0x044, 0xFFFFFFFF, 0x0, 0x0, false⟩,
   ⟨0x048, 0xFFFFFFFF, 0x0, 0x0, false⟩,
   ⟨0x04C, 0xFFFFFFFF, 0x0, 0x0, false⟩,
   ⟨0x050, 0xFFFFF, 0x0, 0x186A0, false⟩,
   ⟨0x054, 0xFFFFF, 0x0, 0x186A0, false⟩,
   ⟨0x058, 0xFFFFF, 0x0, 0x186A0, false⟩,
   ⟨0x05C, 0xFFFFF, 0x0, 0x186A0, false⟩,
   ⟨0x060, 0xFFFFF, 0x0, 0x186A0, false⟩,
   ⟨0x064, 0xFFFFF, 0x0, 0x186A0, false⟩,
   ⟨0x068, 0xFFFFF, 0x0, 0x186A0, false⟩,
   ⟨0x06C, 0xFFFFF, 0x0, 0x186A0, false⟩,
   ⟨0x070, 0xFFFF00FF, 0x0, 0x0, false⟩,
   ⟨0x074, 0xFFFF00FF, 0x0, 0x0, false⟩,
   ⟨0x078, 0xFFFF00FF, 0x0, 0x0, false⟩,
   ⟨0x07C, 0xFFFF00FF, 0x0, 0x0, false⟩,
   ⟨0x080, 0xFFFF00FF, 0x0, 0x0, false⟩,
   ⟨0x084, 0xFFFF00FF, 0x0, 0x0, false⟩,
   ⟨0x088, 0xFFFF00FF, 0x0, 0x0, false⟩,
   ⟨0x08C, 0xFFFF00FF, 0x0, 0x0, false⟩,
   ⟨0x0B0, 0x0, 0x7FF, 0x0, false⟩,
   ⟨0x0B4, 0x0, 0xFF, 0x0, false⟩,
   ⟨0x100, 0x7FFFFFF, 0x0, 0x38001, false⟩]

/-- Rows of block 0x0A. -/
def regRows0A : List RegRow :=
  [⟨0x000, 0x7FFFFFFF, 0x0, 0x0, false⟩,
   ⟨0x004, 0x0, 0xFF, 0x0, false⟩,
   ⟨0x008, 0x0, 0xFF, 0x0, false⟩,
   ⟨0x00C, 0x40FF00FF, 0x0, 0x0, false⟩,
   ⟨0x010, 0x80000FFF, 0x0, 0x0, false⟩,
   ⟨0x100, 0xFFFF01FF, 0x0, 0x1400FF, false⟩,
   ⟨0x104, 0xFFFFFFFF, 0x0, 0x0, false⟩,
   ⟨0x108, 0xFFFFFF, 0x0, 0x600, false⟩,
   ⟨0x110, 0xFF0001FF, 0x0, 0x1, false⟩,
   ⟨0x114, 0xFFFFFFFF, 0x0, 0x0, false⟩,
   ⟨0x118, 0xFFFF, 0x0, 0x0, false⟩,
   ⟨0x11C, 0xFFFFFFFF, 0x0, 0xF4240, false⟩,
   ⟨0x120, 0xFFFF, 0x0, 0x0, false⟩,
   ⟨0x124, 0xFFFFFFFF, 0x0, 0x1312D00, false⟩,
   ⟨0x128, 0xFFFF, 0x0, 0x3E8, false⟩,
   ⟨0x138, 0xFFFFFFFF, 0x0, 0x0, false⟩,
   ⟨0x13C, 0xFFFFFFFF, 0x0, 0x0, false⟩,
   ⟨0x200, 0x8000FFFF, 0x0, 0x101, false⟩,
   ⟨0x204, 0xFFFFFFFF, 0x0, 0x0, false⟩,
   ⟨0x208, 0xFFFFFF, 0x0, 0x600, false⟩,
   ⟨0x300, 0xC0FF00FF, 0x0, 0x10000, false⟩,
   ⟨0x304, 0xFFFFFFFF, 0x0, 0x0, false⟩,
   ⟨0x308, 0xFFFFFF, 0x0, 0x600, false⟩,
   ⟨0x400, 0x1, 0x0, 0x0, false⟩,
   ⟨0x404, 0xFFFFFFFF, 0x0, 0x0, false⟩,
   ⟨0x408, 0xFFFFFF, 0x0, 0x0, false⟩,
   ⟨0x40C, 0xFFFFFFFF, 0x0, 0x0, false⟩,
   ⟨0x410, 0xFFFFFF, 0x0, 0x0, false⟩]

/-- Rows of block 0x0B. -/
def regRows0B : List RegRow :=
  [⟨0x000, 0x3FF, 0x0, 0x0, false⟩,
   ⟨0x004, 0x0, 0x3F, 0x0, false⟩,
   ⟨0x008, 0x0, 0x0, 0x0, true⟩,
   ⟨0x100, 0xFFC0FF07, 0x0, 0x21000000, false⟩,
   ⟨0x104, 0xFFFF00FF, 0x0, 0x640020, false⟩,
   ⟨0x108, 0xFFFFFFFF, 0x0, 0x7D00010, false⟩,
   ⟨0x10C, 0xFFFF, 0x0, 0x0, false⟩,
   ⟨0x110, 0x0, 0x0, 0x10000, false⟩]

/-- Rows of block 0x0C. -/
def regRows0C : List RegRow :=
  [⟨0x000, 0xFF, 0x0, 0x0, false⟩,
   ⟨0x004, 0x0, 0x0, 0x0, true⟩,
   ⟨0x100, 0xFF00FFFF, 0x0, 0x5000001, false⟩,
   ⟨0x104, 0xFFF07FF, 0x0, 0x10000, false⟩,
   ⟨0x108, 0x7FF07FF, 0x0, 0x0, false⟩,
   ⟨0x10C, 0xFFFFFFFF, 0x0, 0x0, false⟩,
   ⟨0x110, 0xFFFFFFFF, 0x0, 0x0, false⟩,
   ⟨0x114, 0xFF, 0x0, 0x0, false⟩,
   ⟨0x12C, 0x0, 0x3F, 0x0, false⟩]

/-- Rows of block 0x0D. -/
def regRows0D : List RegRow :=
  [⟨0x000, 0x3FF, 0x0, 0x0, false⟩,
   ⟨0x008, 0x7FFFFFF, 0x0, 0x0, false⟩,
   ⟨0x00C, 0xFFFFFFFF, 0x0, 0x0, false⟩,
   ⟨0x014, 0x0, 0x0, 0x1, false⟩,
   ⟨0x100, 0xA73FFF00, 0x0, 0x21000, false⟩,
   ⟨0x104, 0xFF7F, 0x0, 0x108, false⟩,
   ⟨0x108, 0xFFFF, 0x0, 0x800, false⟩,
   ⟨0x10C, 0xFFFFFFC0, 0x0, 0x0, false⟩,
   ⟨0x110, 0xFF, 0x0, 0x0, false⟩,
   ⟨0x114, 0xFFFFFFC0, 0x0, 0x0, false⟩,
   ⟨0x118, 0xFF, 0x0, 0x0, false⟩,
   ⟨0x11C, 0xFFFFFFC0, 0x0, 0x0, false⟩,
   ⟨0x120, 0xFF, 0x0, 0x0, false⟩,
   ⟨0x134, 0x0, 0x1F, 0x0, false⟩]

/-- Rows of block 0x0E. -/
def regRows0E : List RegRow :=
  [⟨0x000, 0x7F, 0x0, 0x0, false⟩,
   ⟨0x100, 0xFFFFFFFF, 0x0, 0x0, false⟩,
   ⟨0x104, 0xFF, 0x0, 0x0, false⟩,
   ⟨0x108, 0xFFFFFFFF, 0x0, 0x0, false⟩,
   ⟨0x10C, 0xFF, 0x0, 0x0, false⟩,
   ⟨0x110, 0xFFFFFF, 0x0, 0x0, false⟩,
   ⟨0x114, 0x7F7F0777, 0x0, 0x2010200, false⟩,
   ⟨0x124, 0x0, 0x1F, 0x0, false⟩,
   ⟨0x128, 0x3F, 0x0, 0x10, false⟩]

/-- Rows of block 0x0F. -/
def regRows0F : List RegRow :=
  [⟨0x000, 0x303, 0x0, 0x0, false⟩,
   ⟨0x004, 0x33, 0x0, 0x13, false⟩,
   ⟨0x01C, 0x0, 0x7F, 0x0, false⟩,
   ⟨0x200, 0x80071FF7, 0x0, 0x30485, false⟩,
   ⟨0x204, 0xFFFF00FF, 0x0, 0x88B70080, false⟩,
   ⟨0x208, 0xFFFFFFFF, 0x0, 0x0, false⟩,
   ⟨0x20C, 0xFFFF, 0x0, 0x0, false⟩,
   ⟨0x210, 0xFFFFFF, 0x0, 0x3C0, false⟩]

/-- Rows of block 0x10. -/
def regRows10 : List RegRow :=
  [⟨0x000, 0xF3F, 0x0, 0x0, false⟩,
   ⟨0x00C, 0xF0FFF, 0x0, 0x0, false⟩,
   ⟨0x010, 0x0, 0x0, 0x1, false⟩,
   ⟨0x014, 0x0, 0xFFFFFFFF, 0x0, false⟩,
   ⟨0x018, 0x0, 0xFFFFFFFF, 0x0, false⟩,
   ⟨0x01C, 0x0, 0xFFFFFFFF, 0x0, false⟩,
   ⟨0x020, 0x0, 0xFFFFFFFF, 0x0, false⟩,
   ⟨0x024, 0x0, 0xF, 0x0, false⟩,
   ⟨0x100, 0x0, 0xFFFFFFFF, 0x0, false⟩,
   ⟨0x104, 0xFFFFFFFF, 0x0, 0x0, false⟩,
   ⟨0x108, 0xFFFFFFFF, 0x0, 0x0, false⟩,
   ⟨0x10C, 0xFFFFFFFF, 0x0, 0x0, false⟩,
   ⟨0x110, 0xFFFFFFFF, 0x0, 0x0, false⟩,
   ⟨0x114, 0xFFFFFFFF, 0x0, 0x0, false⟩,
   ⟨0x118, 0xFFFFFFFF, 0x0, 0x0, false⟩,
   ⟨0x200, 0xC0FF0FFF, 0x0, 0xFF0000, false⟩,
   ⟨0x204, 0xFFFFFFFF, 0x0, 0x0, false⟩,
   ⟨0x208, 0xFFFFFFFF, 0x0, 0x0, false⟩]

/-- Rows of block 0x11. -/
def regRows11 : List RegRow :=
  [⟨0x000, 0xF, 0x0, 0x0, false⟩,
   ⟨0x004, 0x3FFFFFFF, 0x0, 0x3E888B6, false⟩,
   ⟨0x008, 0xFF000000, 0x0, 0x3000000, false⟩,
   ⟨0x00C, 0xFFFFFF, 0x0, 0x0, false⟩,
   ⟨0x014, 0x3FFF, 0x0, 0x64, false⟩,
   ⟨0x018, 0x7FF, 0x0, 0x0, false⟩,
   ⟨0x01C, 0xFFFFFFFF, 0x0, 0x0, false⟩,
   ⟨0x020, 0xFFFFFFFF, 0x0, 0x0, false⟩,
   ⟨0x024, 0xFFFFFFFF, 0x0, 0x0, false⟩,
   ⟨0x028, 0xFFFFFFFF, 0x0, 0x0, false⟩,
   ⟨0x02C, 0xF, 0x0, 0x0, false⟩,
   ⟨0x048, 0x0, 0x3FF, 0x0, false⟩,
   ⟨0x04C, 0xFFFFFFFF, 0x0, 0x1403E8, false⟩]

/-- Rows of block 0x12. -/
def regRows12 : List RegRow :=
  [⟨0x000, 0xF, 0x0, 0x0, false⟩,
   ⟨0x004, 0xFFFFFF, 0x0, 0x5000A, false⟩,
   ⟨0x008, 0xFF1FFFFF, 0x0, 0xA100064, false⟩,
   ⟨0x014, 0x0, 0x1F, 0x0, false⟩,
   ⟨0x10C, 0x0, 0x1F, 0x0, false⟩]

/-- Rows of block 0x13. -/
def regRows13 : List RegRow :=
  [⟨0x000, 0x3, 0x0, 0x0, false⟩,
   ⟨0x004, 0x3FFFF, 0x0, 0x3C6F3, false⟩,
   ⟨0x008, 0xFFFFFFFF, 0x0, 0x0, false⟩,
   ⟨0x00C, 0xFFFFFFFF, 0x0, 0x0, false⟩,
   ⟨0x010, 0xFFFFFFFF, 0x0, 0x0, false⟩,
   ⟨0x014, 0xFFFFFFFF, 0x0, 0x0, false⟩,
   ⟨0x018, 0x0, 0x7F, 0x0, false⟩,
   ⟨0x024, 0xFFFF, 0x0, 0x64, false⟩,
   ⟨0x100, 0x8000FF3F, 0x0, 0x33, false⟩]

/-- Rows of block 0x14. -/
def regRows14 : List RegRow :=
  [⟨0x000, 0x3, 0x0, 0x0, false⟩,
   ⟨0x004, 0x0, 0x0, 0xC00000, false⟩,
   ⟨0x028, 0x0, 0xFF, 0x0, false⟩]

/-- Rows of block 0x15. -/
def regRows15 : List RegRow :=
  [⟨0x000, 0x3, 0x0, 0x0, false⟩,
   ⟨0x104, 0xFF, 0x0, 0x18, false⟩,
   ⟨0x110, 0x0, 0x7, 0x0, false⟩]

/-- Rows of block 0x16. -/
def regRows16 : List RegRow :=
  [⟨0x000, 0x3, 0x0, 0x0, false⟩,
   ⟨0x100, 0x1F, 0x0, 0xC, false⟩,
   ⟨0x110, 0x0, 0x3F, 0x0, false⟩]

/-- The table of a block (R480). -/
def regRows (blk : Nat) : List RegRow :=
  match blk with
  | 0x00 => regRows00
  | 0x01 => regRows01
  | 0x02 => regRows02
  | 0x03 => regRows03
  | 0x04 => regRows04
  | 0x05 => regRows05
  | 0x06 => regRows06
  | 0x07 => regRows07
  | 0x08 => regRows08
  | 0x09 => regRows09
  | 0x0A => regRows0A
  | 0x0B => regRows0B
  | 0x0C => regRows0C
  | 0x0D => regRows0D
  | 0x0E => regRows0E
  | 0x0F => regRows0F
  | 0x10 => regRows10
  | 0x11 => regRows11
  | 0x12 => regRows12
  | 0x13 => regRows13
  | 0x14 => regRows14
  | 0x15 => regRows15
  | 0x16 => regRows16
  | _ => []

/-- Find a row by offset. -/
def findRow (off : Nat) : List RegRow → RegRow
  | [] => .blank off
  | r :: t => if r.off = off then r else findRow off t

/-- The row of a register number. -/
def regRow (r : Nat) : RegRow := findRow (r % 0x1000) (regRows (r / 0x1000))

/-- Reset column of a register (R9). ROA_SRC of road 0 resets to kind 1 (R49). -/
def regReset (key : Nat) : Word :=
  if key = 0x02104 * 2 ^ 24 then 1 else w32 (regRow (key / 2 ^ 24)).reset

/-! ### Windows, access paths and owners -/

/-- Registers that each access path keeps for itself: selects (R10), staging and latched copies (R25, R66, R68, R89,
R105, R236, R239, R292). -/
def pathReg (r : Nat) : Bool :=
  (decide (r % 0x1000 = 0) && decide (r ≠ SYS_ID)) || decide (r = MPT_FRAC)
    || decide (ROA_POS_FRAC ≤ r ∧ r ≤ ROA_LAST_OBS) || decide (r = SHF_POS_FRAC)
    || decide (MST_REC ≤ r ∧ r < MST_COMMIT)
    || decide (JCT_TBL_CMD ≤ r ∧ r < JCT_AGE) || decide (TPK_MAP_CMD ≤ r ∧ r ≤ TPK_MAP_STAT)
    || decide (QMG_INVAL ≤ r ∧ r ≤ QMG_INVAL_DONE)

/-- `some i` when `i` lies below the number of instances. -/
def inst (n i : Nat) : Option Nat := if i < n then some i else none

/-- The instance that a select value reaches at a register (R10, R480); none: the window reads 0 and ignores writes. -/
def winInst (r : Nat) (sel : Word) : Option Nat :=
  let off := r % 0x1000
  if off < 0x100 then some 0
  else
    match r / 0x1000 with
    | 0x01 => inst 132 (fld sel 7 0)
    | 0x02 => some (fld sel 5 0)
    | 0x03 => if off < 0x200 then some (fld sel 13 0) else if off < 0x300 then some (fld sel 22 14)
              else some (fld sel 31 23)
    | 0x04 => if off < 0x200 then some (fld sel 2 0) else inst 3 (fld sel 9 8)
    | 0x05 => some (fld sel 3 0)
    | 0x06 => if off < 0x200 then some (fld sel 9 0) else some (fld sel 21 16)
    | 0x07 => some (fld sel 6 0)
    | 0x08 =>
      -- a field MAC has filter entries 0-15 only (R206)
      if off < 0x2C0 ∨ 128 ≤ fld sel 7 0 then inst 132 (fld sel 7 0) else none
    | 0x09 => if off < 0x104 then inst 132 (fld sel 23 16)
              else if off < 0x200 then (inst 200 (fld sel 23 16)).map fun p => p * 8 + fld sel 26 24
              else some (fld sel 10 0)
    | 0x0A => if off < 0x138 then inst 132 (fld sel 7 0)
              else if off < 0x148 then (inst 132 (fld sel 7 0)).map fun p => p * 256 + fld sel 18 11
              else if off < 0x200 then inst 132 (fld sel 7 0)
              else if off < 0x300 then (inst 132 (fld sel 7 0)).map fun p => p * 8 + fld sel 10 8
              else some (fld sel 30 19)
    | 0x0B => some (fld sel 9 0)
    | 0x0C => some (fld sel 7 0)
    | 0x0D => some (fld sel 9 0)
    | 0x0E => inst 72 (fld sel 6 0)
    | 0x0F => if off < 0x200 then inst 3 (fld sel 1 0) else some (fld sel 9 8)
    | 0x10 => if off < 0x200 then some (fld sel 5 0) else some (fld sel 11 8)
    | 0x11 => some (fld sel 3 0)
    | 0x12 => if fld sel 3 0 = 0 then none else some (fld sel 3 0)
    | 0x13 => some (fld sel 1 0)
    | 0x14 => some (fld sel 1 0)
    | 0x15 => some (fld sel 1 0)
    | 0x16 => some (fld sel 1 0)
    | _ => none

/-- Registers, as runs from first to last, whose rd bits only report: counts, last values and times. No rule acts on
them, so a hardware action on such a bit is that move alone (R8). -/
def reportRuns : List (Nat × Nat × Nat) :=
  [(MPT_REFUSED, MPT_ONESTEP_DROP, 0xFFFFFFFF), (MPT_TS2_LEVEL, MPT_TS2_LEVEL, 0xFFFF0000),
   (ROA_INGEST, ROA_INGEST, 0xFFFF0000), (ROA_CNT_ACC, ROA_CNT_DROP, 0xFFFFFFFF),
   (MST_CNT_FIRED, MST_CNT_REFUSED, 0xFFFFFFFF), (MST_MS_STATUS, MST_MS_STATUS, 0xFFFFFF08),
   (MST_MS_LAST, MST_MS_LAST, 0xFFFFFFFF), (MST_EVT_CNT, MST_EVT_CNT, 0xFFFFFFFF),
   (MST_PLC_CNT, MST_PLC_CNT, 0xFFFFFFFF), (MFE_CH_LAST, MFE_CH_OVR, 0xFFFFFFFF),
   (MFE_TRK_STAT, MFE_TRK_STAT, 0xFFFF0000), (MFE_TRK_PERIOD, MFE_TRK_CNT, 0xFFFFFFFF),
   (SHF_CNT, SHF_CNT_FRAME, 0xFFFFFFFF), (LNC_STEP_STALL, LNC_STALL_LAST, 0xFFFFFFFF),
   (LNC_LANE_FAULT, LNC_LANE_FAULT, 0xFFFF000F), (LNC_LANE_FADDR, LNC_LANE_FADDR, 0xFFFFFFFF),
   (LNC_LANE_CNT_JOB, LNC_LANE_CNT_FAULT, 0xFFFFFFFF), (LNC_DST_ECC, LNC_DST_ECC, 0xFFFFFFFF),
   (LNC_DST_CNT_FRAME, LNC_DST_CNT_FRAME, 0xFFFFFFFF), (FPA_VRG_CNT, FPA_T1S_CNT, 0xFFFFFFFF),
   (MAC_CNT, MAC_CNT + 4 * 43, 0xFFFFFFFF), (TRK_STAT, TRK_STAT, 0x60), (TRK_CNT_BLK, TRK_CNT_FEC, 0xFFFFFFFF),
   (JCT_AUDIT, JCT_AUDIT, 0xFFFF0000), (JCT_CNT_LOOKUP, JCT_CNT_STALE, 0xFFFFFFFF),
   (JCT_Q_DROP, JCT_Q_RESIDUE, 0xFFFFFFFF), (JCT_SID_CUR, JCT_SID_PREV, 0xFFFFFFFF),
   (TPK_P_CNT, TPK_P_CNT, 0xFFFFFFFF), (TPK_S_LATE, TPK_S_TX, 0xFFFFFFFF), (TPK_SUB_TX, TPK_SUB_TX, 0xFFFFFFFF),
   (TPK_TOLL_GREEN, TPK_TOLL_RED, 0xFFFFFFFF), (FRE_GLB_DROP, FRE_GLB_DROP, 0xFFFFFFFF),
   (FRE_CNT_GEN, FRE_CNT_MISC2, 0xFFFFFFFF), (CHK_GLB_DROP, CHK_GLB_DROP, 0xFFFFFFFF),
   (CHK_CTX_CNT_PASS, CHK_CTX_CNT_LOST, 0xFFFFFFFF), (QMG_CNT_DB, QMG_CNT_DB, 0xFFFFFFFF),
   (QMG_Q_CNT, QMG_Q_CNT_DROP, 0xFFFFFFFF), (DMA_CNT, DMA_CNT, 0xFFFFFFFF), (FLT_CNT, FLT_CNT, 0xFFFFFFFF),
   (FLT_CLS_CNT, FLT_CLS_CNT, 0xFFFFFFFE), (JNL_CNT_IN, JNL_CNT_ALM, 0xFFFFFFFF), (JNL_C_CNT, JNL_C_CNT, 0xFFFFFFFF),
   (JNL_P_CNT, JNL_P_DROP, 0xFFFFFFFF), (TWN_CNT_IN, TWN_CNT_HB, 0xFFFFFFFF), (TWN_OS_CNT, TWN_OS_CNT, 0xFFFFFFFF),
   (HIE_CNT, HIE_CNT_RX, 0xFFFFFFFF), (HIE_W_CNT, HIE_W_CNT, 0xFFFFFFFF), (WPT_CNT_RX, WPT_CNT_BAD, 0xFFFFFFFF),
   (WPT_LM64_CNT, WPT_LM64_CNT, 0xFFFFFFFF), (WPT_S_CNT, WPT_S_DROP, 0xFFFFFFFF), (IMG_LAST, IMG_LAST, 0xFFFFFFFF),
   (IMG_CNT, IMG_CNT, 0xFFFFFFFF), (SYS_MON_TEMP, SYS_MON_V + 20, 0xFFFFFFFF), (MEM_CNT, MEM_CNT, 0xFFFFFFFF)]

/-- The rd bits of a register that only report. -/
def reportBits (r : Nat) : Word :=
  w32 (((reportRuns.find? fun x => decide (x.1 ≤ r ∧ r ≤ x.2.1)).map fun x => x.2.2).getD 0)

/-- No function owns the register. -/
abbrev noFunction : Nat := 999

/-- The function that owns a register instance (R42, R189, R204, R444, R448): writes are ignored while it is in reset,
and its reset returns the register to the Reset column. DESIGN CHOICE: the select register of a block, at offset 0, belongs
to no function, so a function reset leaves it as it is but for those that R397 and R410 name. -/
def ownerOf (r i : Nat) : Nat :=
  let off := r % 0x1000
  if off = 0 then noFunction
  else
    match r / 0x1000 with
    | 0x01 => if off < 0x100 then 199 else i
    | 0x02 => 200
    | 0x03 => 201
    | 0x04 => 202
    | 0x05 => 203
    | 0x06 => if off < 0x100 then noFunction else if off < 0x200 then 132 + i / 16 else 132 + i
    | 0x07 => if off < 0x100 then noFunction else i
    | 0x08 => i
    | 0x09 => 196
    | 0x0A => 197
    | 0x0B => 198
    | 0x0C => 206
    | 0x0D => 205
    | 0x0E => 204
    | 0x0F => 207
    | 0x11 => 208
    | 0x12 => 209
    | 0x13 => 210
    | 0x15 => 211 + i
    | 0x16 => 128 + i
    | _ => noFunction

/-- The store key of a register instance. -/
def rkey (r i : Nat) : Nat := r * 2 ^ 24 + i

/-- Read a register instance as it is stored. -/
def rg (r i : Nat) (s : State) : Word := sget (regReset (rkey r i)) (rkey r i) s.regs

/-- Store a register instance. -/
def setRg (r i : Nat) (v : Word) (s : State) : State :=
  { s with regs := sset (regReset (rkey r i)) (rkey r i) v s.regs }

/-- Read a field of a register instance. -/
def rgF (r i hi lo : Nat) (s : State) : Nat := fld (rg r i s) hi lo

/-- Store a field of a register instance. -/
def setRgF (r i hi lo v : Nat) (s : State) : State := setRg r i (setFld (rg r i s) hi lo v) s

/-- Add to a counter field, wrapping within the field. -/
def addRgF (r i hi lo n : Nat) (s : State) : State := setRgF r i hi lo (rgF r i hi lo s + n) s

/-- Add 1 to a counter field, wrapping within the field. -/
def bump (r i hi lo : Nat) (s : State) : State := addRgF r i hi lo 1 s

/-- Add to a counter field, saturating. -/
def addRgSat (r i hi lo n : Nat) (s : State) : State :=
  setRgF r i hi lo (min (rgF r i hi lo s + n) (2 ^ (hi - lo + 1) - 1)) s

end Sys2Proof.Machine
end

