-- ==== Sys2Proof/Machine/Ops.lean ====
section
/-! DEFINITION. The named operations over time, function resets, memory and the structures of the state. -/

set_option Elab.async false

namespace Sys2Proof.Machine

open Sys2Proof

/-- The one answer of every meaning: the block goes on. -/
abbrev Out := Host.Outcome State Fault Refusal

/-- Milepost integer nanoseconds (R22). -/
def now (s : State) : Word := BitVec.ofNat 32 (s.mp.counter.toNat / 2 ^ 32)

/-- Nanoseconds since power-on reset: what measures durations beyond the range of a Milepost time. -/
def elapsedNs (s : State) : Nat := s.mp.elapsed / 2 ^ 32

/-- The TCLK edge that the happenings of now fall on, counted from 1. -/
def edgeNow (s : State) : Nat := s.mp.tclk + 1

/-- Age of what holds since Milepost time `t` and was noted at elapsed ns `noted`: the difference of Milepost times, as long
as no wrap makes it ambiguous. -/
def ageOf (t : Word) (noted : Nat) (s : State) : Nat :=
  let gone := elapsedNs s - noted
  if gone < 2 ^ 31 then (diff32 (now s) t).toNat else gone

/-! ### What registers held before a write of the same edge (R58, R193, R243, R328) -/

/-- Registers whose value before a write counts for the other happenings of its edge: gains, tolerances and standstill of a
road, filter entries, shapers, fault masks and classes. -/
def heldReg (r : Nat) : Bool :=
  r == ROA_ACQ_GAIN || r == ROA_TRK_GAIN || r == ROA_TOL || r == ROA_STANDSTILL
    || decide (MAC_FILT_LO ≤ r ∧ r < MAC_FILT_LO + 0x1C0) || decide (TPK_P_CFG ≤ r ∧ r ≤ TPK_P_BURST)
    || decide (TPK_S_CFG ≤ r ∧ r ≤ TPK_S_BURST) || r == TPK_SUB_CFG || r == TPK_SUB_RATE || r == TPK_SUB_BURST
    || r == FLT_G_MASK || r == FLT_G_FORCE || decide (FLT_G_CLS ≤ r ∧ r < FLT_G_CLS + 16)

/-- Note what a register holds before the first write of an edge. -/
def noteHeld (r i : Nat) (s : State) : State :=
  if ¬ heldReg r then s
  else
    let l := if s.heldEdge = edgeNow s then s.held else []
    let k := r * 2 ^ 24 + i
    { s with heldEdge := edgeNow s, held := if l.any (fun x => x.1 == k) then l else (k, rg r i s) :: l }

/-- What a register held before the writes of this edge. -/
def rgHeld (r i : Nat) (s : State) : Word :=
  if s.heldEdge = edgeNow s then ((s.held.find? fun x => x.1 == r * 2 ^ 24 + i).map fun x => x.2).getD (rg r i s)
  else rg r i s

/-- A field of it. -/
def rgHeldF (r i hi lo : Nat) (s : State) : Nat := fld (rgHeld r i s) hi lo

/-- Whether function `f` is in reset (R444). -/
def inReset (f : Nat) (s : State) : Bool :=
  decide (f < 215) && bit (rg (SYS_RST_STAT + 4 * (f / 32)) 0 s) (f % 32)

/-- Mark function `f` in or out of reset. -/
def setInReset (f : Nat) (b : Bool) (s : State) : State :=
  if f < 215 then
    setRg (SYS_RST_STAT + 4 * (f / 32)) 0 (setBit (rg (SYS_RST_STAT + 4 * (f / 32)) 0 s) (f % 32) b) s
  else s

/-- Function of an external port (R448). -/
def portFunction (p : Nat) : Nat := p

/-- Apply an operation for each element, in order. -/
def forEach {α : Type} (l : List α) (f : α → State → State) (s : State) : State :=
  l.foldl (fun s a => f a s) s

/-- Apply an operation when a condition holds. -/
def onlyIf (b : Bool) (f : State → State) (s : State) : State := if b then f s else s

/-! ### Structures of the state -/

def road (n : Nat) (s : State) : Road := sget {} n s.roads
def setRoad (n : Nat) (r : Road) (s : State) : State := { s with roads := sset {} n r s.roads }
def recRun (n : Nat) (s : State) : RecordRun := sget {} n s.recRun
def setRecRun (n : Nat) (r : RecordRun) (s : State) : State := { s with recRun := sset {} n r s.recRun }
def recWord (n : Nat) (s : State) : BitVec 128 := sget 0 n s.recs
def setRecWord (n : Nat) (r : BitVec 128) (s : State) : State := { s with recs := sset 0 n r s.recs }
def slotRun (n : Nat) (s : State) : SlotRun := sget {} n s.slots
def setSlotRun (n : Nat) (r : SlotRun) (s : State) : State := { s with slots := sset {} n r s.slots }
def tracker (n : Nat) (s : State) : Tracker := sget {} n s.trackers
def setTracker (n : Nat) (r : Tracker) (s : State) : State := { s with trackers := sset {} n r s.trackers }
def shaft (n : Nat) (s : State) : Shaft := sget {} n s.shafts
def setShaft (n : Nat) (r : Shaft) (s : State) : State := { s with shafts := sset {} n r s.shafts }
def lane (n : Nat) (s : State) : LaneState := sget {} n s.lanes
def setLane (n : Nat) (l : LaneState) (s : State) : State := { s with lanes := sset {} n l s.lanes }
def district (n : Nat) (s : State) : DistrictRun := sget {} n s.districts
def setDistrict (n : Nat) (d : DistrictRun) (s : State) : State := { s with districts := sset {} n d s.districts }
def portRun (n : Nat) (s : State) : PortRun := sget {} n s.ports
def setPortRun (n : Nat) (p : PortRun) (s : State) : State := { s with ports := sset {} n p s.ports }
def macRun (n : Nat) (s : State) : MacRun := sget {} n s.macs
def setMacRun (n : Nat) (m : MacRun) (s : State) : State := { s with macs := sset {} n m s.macs }
def gateRun (n : Nat) (s : State) : GateRun := sget {} n s.tpk.gates
def setGateRun (n : Nat) (g : GateRun) (s : State) : State :=
  { s with tpk := { s.tpk with gates := sset {} n g s.tpk.gates } }
def queueRun (n : Nat) (s : State) : QueueRun := sget {} n s.queues
def setQueueRun (n : Nat) (q : QueueRun) (s : State) : State := { s with queues := sset {} n q s.queues }
def session (n : Nat) (s : State) : SessionRun := sget {} n s.wpt.sessions
def setSession (n : Nat) (r : SessionRun) (s : State) : State :=
  { s with wpt := { s.wpt with sessions := sset {} n r s.wpt.sessions } }
def outGroup (n : Nat) (s : State) : OutputGroup := sget {} n s.twn.groups
def setOutGroup (n : Nat) (g : OutputGroup) (s : State) : State :=
  { s with twn := { s.twn with groups := sset {} n g s.twn.groups } }
def drainPath (n : Nat) (s : State) : DrainPath := sget {} n s.jnl.paths
def setDrainPath (n : Nat) (d : DrainPath) (s : State) : State :=
  { s with jnl := { s.jnl with paths := sset {} n d s.jnl.paths } }
def worker (n : Nat) (s : State) : WorkerRun := sget {} n s.hie.workers
def setWorker (n : Nat) (w : WorkerRun) (s : State) : State :=
  { s with hie := { s.hie with workers := sset {} n w s.hie.workers } }

/-- The trunk role codes in force (R14): 0 host uplink, 1 twin link, 2 hierarchy, 3 analysis, 4 unused. -/
abbrev roleUplink : Nat := 0
abbrev roleTwin : Nat := 1
abbrev roleHierarchy : Nat := 2
abbrev roleAnalysis : Nat := 3
abbrev roleUnused : Nat := 4

/-! ### Memory (R475-R479) -/

/-- The regions of the device address space (R475-R477). -/
inductive Region where
  | laneLocal | districtMem | junctionBuffer | supervisor | roadStore | ddrA | ddrB | resident | none
deriving DecidableEq, Repr

abbrev laneBase : Nat := 0x4000000000
abbrev districtBase : Nat := 0x4004000000
abbrev supervisorBase : Nat := 0x4007000000
abbrev roadStoreBase : Nat := 0x4007800000

/-- Populated bytes of a DDR4 channel: none unless it is ready or in reset (R440, R446, R476). -/
def ddrSize (ch : Nat) (s : State) : Nat :=
  if rgF MEM_STAT ch 2 0 s = 2 ∨ rgF MEM_STAT ch 2 0 s = 3 then
    (rgF MEM_CFG ch 1 0 s + 1) * (2 ^ (rgF MEM_CFG ch 4 2 s) * 2 ^ 32)
  else 0

/-- Base of the resident region (R476); none when no channel is present. -/
def residentBase (s : State) : Option Nat :=
  if 0 < ddrSize 1 s then some (2 ^ 36 + ddrSize 1 s - 2 ^ 28)
  else if 0 < ddrSize 0 s then some (ddrSize 0 s - 2 ^ 28)
  else Option.none

/-- The region of an address. -/
def regionOf (a : Nat) (s : State) : Region :=
  if a < 2 ^ 37 then
    if (match residentBase s with | some b => decide (b ≤ a ∧ a < b + 2 ^ 28) | Option.none => false) then .resident
    else if a < 2 ^ 36 then (if a < ddrSize 0 s then .ddrA else .none)
    else if a - 2 ^ 36 < ddrSize 1 s then .ddrB else .none
  else if a < 0x4000000000 then .none
  else if a < 0x4004000000 then .laneLocal
  else if a < 0x4006000000 then .districtMem
  else if a < 0x4007000000 then .junctionBuffer
  else if a < 0x4007800000 then .supervisor
  else if a < 0x4007E00000 then .roadStore
  else .none

/-- Who asks for memory (R477). -/
inductive Reach where
  | aperture | unit | hostRead | hostWrite | loader
deriving DecidableEq, Repr

/-- Whether R477 permits the access. -/
def Reach.allows (r : Reach) (w : Bool) : Region → Bool
  | .laneLocal | .districtMem => r != .aperture
  | .supervisor | .roadStore => (r == .aperture && !w) || r == .hostRead
  | .ddrA | .ddrB => true
  | .junctionBuffer | .resident | .none => false

/-- Whether two permitted regions adjoin without a gap between them. -/
def adjoin (x y : Region) (s : State) : Bool :=
  x == y || (x == .laneLocal && y == .districtMem) || (x == .supervisor && y == .roadStore)
    || (x == .ddrA && y == .ddrB && decide (ddrSize 0 s = 2 ^ 36))

/-- Whether R477 permits an access to `len` bytes from `a`. -/
def canReach (r : Reach) (w : Bool) (a len : Nat) (s : State) : Bool :=
  let x := regionOf a s
  let y := regionOf (a + len - 1) s
  decide (len = 0) || (r.allows w x && r.allows w y && adjoin x y s)

/-- One byte of device memory. -/
def rdByte (a : Nat) (s : State) : Byte := sget 0 a s.mem

/-- Write one byte. -/
def wrByte (a : Nat) (b : Byte) (s : State) : State := { s with mem := sset 0 a b s.mem }

/-- `len` bytes in ascending address order. -/
def rdBytes (a : Nat) : Nat → State → Bytes
  | 0, _ => []
  | n + 1, s => rdByte a s :: rdBytes (a + 1) n s

/-- Write bytes in ascending address order. -/
def wrBytes (a : Nat) : Bytes → State → State
  | [], s => s
  | b :: t, s => wrBytes (a + 1) t (wrByte a b s)

/-- Little-endian read of `len` bytes (R5). -/
def rdLe (a len : Nat) (s : State) : Nat := leVal (rdBytes a len s)

/-- A 32-bit little-endian word of memory. -/
def rdWord (a : Nat) (s : State) : Word := w32 (rdLe a 4 s)

/-- Little-endian write of `len` bytes (R5). -/
def wrLe (a len v : Nat) (s : State) : State := wrBytes a (leBytes len v) s

/-- A 40-bit base register pair. -/
def base40 (lo hi i : Nat) (s : State) : Nat := rgF hi i 7 0 s * 2 ^ 32 + (rg lo i s).toNat

/-- A memory's answer: a DDR4 channel in reset gives none (R446). -/
def answer (a : Nat) (ans : MemAnswer) (s : State) : MemAnswer :=
  match regionOf a s with
  | .ddrA | .ddrB | .resident => if inReset (if a < 2 ^ 36 then 211 else 212) s then .noAnswer else ans
  | _ => ans

/-- Whether an access is served. -/
def memGood : MemAnswer → Bool
  | .ok | .corrected => true
  | .uncorrectable | .noAnswer => false

/-- Bytes that the manual leaves open, from the `d`-th free byte on. -/
def freeBytes (d n : Nat) : Bytes := (List.range n).map fun i => Config.freeByte (d + i)

/-- Road state codes (R60). -/
def RoadState.code : RoadState → Nat
  | .idle => 0 | .acquiring => 1 | .tracking => 2 | .coasting => 3 | .lost => 4 | .held => 5

/-- The state of a code (R60); none for 6 and 7. -/
def RoadState.ofCode : Nat → Option RoadState
  | 0 => some .idle | 1 => some .acquiring | 2 => some .tracking | 3 => some .coasting | 4 => some .lost
  | 5 => some .held | _ => Option.none

end Sys2Proof.Machine
end

