-- ==== Sys2Proof/Machine/Flags.lean ====
section
/-! DEFINITION. Cause bits and the fault collector's intake (R323-R328), event-line pulses (R84-R87), memory error
causes, and the level outputs FAULT_n and FLT_SUM. -/

set_option Elab.async false

namespace Sys2Proof.Machine

open Sys2Proof

/-- Epoch of the journal (R340). -/
def journalEpoch (s : State) : BitVec 16 := BitVec.ofNat 16 (rgF JNL_EPOCH 0 15 0 s)

/-! ### The fault collector's intake -/

def srcSticky (src : Nat) (s : State) : Bool := bit (rg FLT_G_STICKY (src / 32) s) (src % 32)
/-- Force bit, mask and reaction class of a source (R324, FLT_G_CLS0-3), as an occurrence uses them: as they were before the
writes of its cycle (R328). -/
def srcForced (src : Nat) (s : State) : Bool := bit (rgHeld FLT_G_FORCE (src / 32) s) (src % 32)
def srcMasked (src : Nat) (s : State) : Bool := bit (rgHeld FLT_G_MASK (src / 32) s) (src % 32)
def srcClass (src : Nat) (s : State) : Nat :=
  rgHeldF (FLT_G_CLS + 4 * (src % 32 / 8)) (src / 32) (4 * (src % 8) + 3) (4 * (src % 8)) s

def setSticky (src : Nat) (s : State) : State :=
  setRg FLT_G_STICKY (src / 32) (setBit (rg FLT_G_STICKY (src / 32) s) (src % 32) true) s

/-- The sources that occurred on the present edge, and those of them that a force write made occur. -/
def edgeOccurred (s : State) : List Nat := if s.flt.edge = edgeNow s then s.flt.occurred else []
def edgeRose (s : State) : List Nat := if s.flt.edge = edgeNow s then s.flt.rose else []

/-- Note that a source occurred on this edge. -/
def noteOccurred (src : Nat) (rise : Bool) (s : State) : State :=
  { s with flt := { s.flt with edge := edgeNow s, occurred := src :: edgeOccurred s,
                               rose := if rise then src :: edgeRose s else edgeRose s } }

/-- The reaction queue takes the occurrences of one cycle in ascending source number (R327); one that is being served stays
where it is. -/
def queueOccurrence (begun : Bool) (o : Occurrence) (q : List Occurrence) : List Occurrence :=
  let n := if begun then 1 else 0
  let before := fun x : Occurrence => decide (x.edge ≠ o.edge ∨ x.src ≤ o.src)
  q.take n ++ (q.drop n).filter before ++ [o] ++ (q.drop n).filter fun x => !before x

/-- An occurrence with its forced mark: queued, or noted under its class when the queue is full (R326, R327). -/
def occurs (src : Nat) (forced rise : Bool) (s : State) : State :=
  let s := setSticky src (noteOccurred src rise s)
  if srcMasked src s then s
  else
    let n := s.flt.occ + 1
    let s := { s with flt := { s.flt with occ := n } }
    let s := setRgF FLT_CNT 0 31 8 n.toNat s
    let o : Occurrence :=
      { src := src, cls := srcClass src s, time := now s, forced := forced, count := n,
        epoch := journalEpoch s, edge := edgeNow s }
    let q := queueOccurrence s.flt.begun o s.flt.queue
    let s := { s with flt := { s.flt with queue := q.take 256 } }
    match q.drop 256 with
    | x :: _ =>
      let s := { s with flt := { s.flt with noted := sset Option.none x.cls (some x) s.flt.noted } }
      bump FLT_CNT 0 7 0 (setRgF FLT_CLS_CNT x.cls 0 0 1 s)
    | [] => s

/-- The occurrence of a source on this edge is marked forced, where it is queued or noted. -/
def markForced (src : Nat) (s : State) : State :=
  let f (o : Occurrence) : Occurrence := if o.src = src ∧ o.edge = edgeNow s then { o with forced := true } else o
  { s with flt := { s.flt with queue := s.flt.queue.map f, noted := s.flt.noted.map fun x => (x.1, x.2.map f) } }

/-- A force bit has gone from 0 to 1: a forced occurrence, or the forced mark of one of the same cycle (R326, R328). -/
def forceRise (src : Nat) (s : State) : State :=
  if (edgeOccurred s).contains src then markForced src (noteOccurred src true s) else occurs src true true s

/-- Force bits that have gone from 0 to 1, in ascending source number (R326). -/
def forceRises (g : Nat) (old : Word) (s : State) : State :=
  let new := rg FLT_G_FORCE g s
  forEach ((List.range 32).filter fun b => bit new b && !bit old b) (fun b => forceRise (32 * g + b)) s

/-- A unit's raise of a source (R323-R326); with a rise of the force bit in the same cycle it is one occurrence (R328). -/
def raiseSrc (src : Nat) (s : State) : State :=
  if (edgeRose s).contains src then setSticky src s else occurs src (srcForced src s) false s

/-- The source that a cause bit of an instance raises (R41, R65, R88, R107, R136, R190, R205, R235, R262, R275, R285,
R309, R320, R350, R373, R389, R411, R431, R453). -/
def causeSource (r i b : Nat) : Option Nat :=
  if r = FPA_CAUSE then
    some (4 * i + (if b = 0 ∨ b = 4 then 0 else if b = 1 then 1 else 2))
  else if r = TRK_CAUSE then some (512 + 16 * i + b)
  else if r = LNC_DST_CAUSE then some (576 + 4 * i + b)
  else if r = QMG_Q_CAUSE then some (832 + i / 4)
  else if r = CHK_CTX_CAUSE then some (1088 + i)
  else if r = ROA_CAUSE then some (1344 + i)
  else if r = MST_CAUSE then some (1408 + b)
  else if r = MPT_CAUSE then some (1440 + b)
  else if r = MFE_CAUSE then some (1472 + b)
  else if r = SHF_CAUSE then some (1504 + i)
  else if r = JCT_CAUSE then some (1536 + b)
  else if r = JCT_CAUSE2 then some (1568 + b)
  else if r = TPK_CAUSE then some (1600 + b)
  else if r = TPK_CAUSE2 then some (1632 + b)
  else if r = FRE_CAUSE then some (1664 + b)
  else if r = DMA_CAUSE then some (if i < 64 then 1696 + i / 2 else 1728 + (i - 64))
  else if r = JNL_CAUSE then some (1760 + b)
  else if r = TWN_CAUSE then some (1792 + b)
  else if r = HIE_W_CAUSE then some (1823 + i)
  else if r = HIE_CAUSE then some (1839 + b)
  else if r = WPT_CAUSE then some (1856 + b)
  else if r = IMG_CAUSE then some (1888 + b)
  else if r = MEM_CAUSE then
    some (if i = 0 then 1920 + b else if i = 1 then 1952 + b else 1984 + 8 * (i - 2) + b)
  else if r = SYS_CAUSE then some (2000 + b)
  else if r = SYS_SUP_CAUSE then some (2016 + b)
  else Option.none

/-- Set a cause bit: on its 0-to-1 edge the source is raised, and at no other time (R323, R325). -/
def setCause (r i b : Nat) (s : State) : State :=
  if bit (rg r i s) b then s
  else
    let s := setRg r i (setBit (rg r i s) b true) s
    match causeSource r i b with
    | some src => raiseSrc src s
    | Option.none => s

/-- A refused action (R79). -/
def refuseAction (s : State) : State := setCause MST_CAUSE 0 1 (bump MST_CNT_REFUSED 0 31 16 s)

/-- FLT_SUM bit of a group: a sticky bit whose mask is 0 (R336). -/
def groupSum (g : Nat) (s : State) : Bool := rg FLT_G_STICKY g s &&& ~~~(rg FLT_G_MASK g s) != 0

/-- FAULT_n is low (R334). -/
def faultLow (s : State) : Bool :=
  (List.range 64).any (fun g => groupSum g s) || (List.range 16).any (fun c => bit (rg FLT_CLS_CNT c s) 0)

/-! ### The event router (R84-R87) -/

/-- What kind of source a pulse comes from (R85), with the index of its named fields. -/
inductive EventSource where
  | record (n : Nat) | dma (channel : Nat) | check (context result : Nat) | wrap | port (port event : Nat)
  | road (n : Nat)
deriving DecidableEq, Repr

/-- Whether a line's MST_EVT_SRC word names the source; unnamed bits are ignored (R85). -/
def lineMatches (w : Word) : EventSource → Bool
  | .record n => fld w 26 24 = 1 && fld w 13 0 = n
  | .dma c => fld w 26 24 = 2 && fld w 6 0 = c
  | .check c k => fld w 26 24 = 3 && fld w 7 0 = c && fld w 9 8 = k
  | .wrap => fld w 26 24 = 4
  | .port p e => fld w 26 24 = 5 && fld w 7 0 = p && fld w 10 8 = e
  | .road n => fld w 26 24 = 6 && fld w 5 0 = n

/-- Lines whose source word is not at its reset value, in ascending order: no other line has a source. -/
def sourcedLines : Sparse Word → List (Nat × Word)
  | [] => []
  | (k, v) :: t => if k / 2 ^ 24 = MST_EVT_SRC then (k % 2 ^ 24, v) :: sourcedLines t else sourcedLines t

/-- The journal's epoch at a time near now: one more for each wrap between (R340). -/
def epochAt (ns : Word) (s : State) : BitVec 16 :=
  let t := (now s).toNat + diff32 ns (now s)
  journalEpoch s + (if t < 0 then -1 else if 2 ^ 32 ≤ t then 1 else 0)

/-- Pulse one line: coinciding pulses of one edge merge; a pulse during a reset of function 201 is discarded (R75, R84). -/
def pulseLineAt (l : Nat) (ns : Word) (s : State) : State :=
  if inReset 201 s then s
  else if s.pulses.any (fun p => p.line = l && p.edge = s.mp.tclk) then bump MST_EVT_CNT l 15 8 s
  else bump MST_EVT_CNT l 31 16 { s with pulses := s.pulses ++ [{ line := l, edge := s.mp.tclk, ns := ns, epoch := epochAt ns s }] }

/-- Pulse one line now. -/
def pulseLine (l : Nat) (s : State) : State := pulseLineAt l (now s) s

/-- Pulse every line whose source this is (R84, R85). -/
def pulseSource (e : EventSource) (s : State) : State :=
  forEach ((sourcedLines s.regs).filter (fun p => lineMatches p.2 e)) (fun p => pulseLine p.1) s

/-! ### Memory error accounting (R112, R446, R453) -/

/-- What a memory's answer records: district ECC counts and cause, or the channel's counts and causes. -/
def noteAnswer (a : Nat) (ans : MemAnswer) (s : State) : State :=
  let dst (d : Nat) : State :=
    match ans with
    | .corrected => bump LNC_DST_ECC d 31 16 s
    | .uncorrectable => setCause LNC_DST_CAUSE d 1 (bump LNC_DST_ECC d 15 0 s)
    | _ => s
  let ch (c : Nat) : State :=
    match ans with
    | .corrected => bump MEM_CNT c 31 16 s
    | .uncorrectable => setCause MEM_CAUSE c 1 (bump MEM_CNT c 15 0 s)
    | .noAnswer => setCause MEM_CAUSE c 2 s
    | .ok => s
  match regionOf a s with
  | .laneLocal => dst ((a - laneBase) / 0x10000 / 16)
  | .districtMem => dst ((a - districtBase) / 0x80000)
  | .ddrA => ch 0
  | .ddrB => ch 1
  | .resident => ch (if a < 2 ^ 36 then 0 else 1)
  | _ => s

end Sys2Proof.Machine
end

