-- ==== Sys2Proof/Machine/Frames.lean ====
section
/-! DEFINITION. Reading and building Ethernet frames (bytes from the destination address, without FCS), port modes and
trunk roles. -/

set_option Elab.async false

namespace Sys2Proof.Machine

open Sys2Proof

/-- The first EtherType is 0x8100 (R212). -/
def tagged (b : Bytes) : Bool := beAt b 12 2 = 0x8100

/-- Offset of the EtherType that follows the addresses and the first 0x8100 tag. -/
def tagEnd (b : Bytes) : Nat := if tagged b then 16 else 12

/-- The frame carries an R-TAG at its place (R264). -/
def hasRtag (b : Bytes) : Bool := decide (tagEnd b + 6 ≤ b.length) && beAt b (tagEnd b) 2 = 0xF1C1

/-- Sequence number of the R-TAG (R264). -/
def rtagSeq (b : Bytes) : BitVec 16 := BitVec.ofNat 16 (beAt b (tagEnd b + 4) 2)

/-- The frame without its R-TAG. -/
def stripRtag (b : Bytes) : Bytes := if hasRtag b then b.take (tagEnd b) ++ b.drop (tagEnd b + 6) else b

/-- The frame with an R-TAG of sequence `q` (R264, R267). -/
def insertRtag (q : BitVec 16) (b : Bytes) : Bytes :=
  b.take (tagEnd b) ++ beBytes 2 0xF1C1 ++ [0, 0] ++ beBytes 2 q.toNat ++ b.drop (tagEnd b)

/-- Offset of the last EtherType field, past any 0x8100 tag and any R-TAG. -/
def typeAt (b : Bytes) : Nat := if hasRtag b then tagEnd b + 6 else tagEnd b

/-- EtherType past tag and R-TAG. -/
def etherType (b : Bytes) : Nat := beAt b (typeAt b) 2

/-- Offset of the last EtherType field from offset `o` on, past any 0x8100 tag and any R-TAG; `n` bounds their number. -/
def lastTypeFrom (b : Bytes) : Nat → Nat → Nat
  | 0, o => o
  | n + 1, o =>
    if beAt b o 2 = 0x8100 then lastTypeFrom b n (o + 4)
    else if beAt b o 2 = 0xF1C1 then lastTypeFrom b n (o + 6)
    else o

/-- Base of the data of R278: the byte after the last EtherType field. -/
def dataBase (b : Bytes) : Nat := lastTypeFrom b b.length 12 + 2

/-- Destination and source address of a frame. -/
def dstAddr (b : Bytes) : BitVec 48 := BitVec.ofNat 48 (beAt b 0 6)
def srcAddr (b : Bytes) : BitVec 48 := BitVec.ofNat 48 (beAt b 6 6)

/-- The group bit of an address. -/
def isGroup (a : BitVec 48) : Bool := bit a 40

/-- IPv4 in the frame: offset of the IPv4 header when the EtherType is 0x0800 and the version is 4. -/
def ipv4At (b : Bytes) : Option Nat :=
  let o := typeAt b + 2
  if etherType b = 0x0800 ∧ o + 20 ≤ b.length ∧ beAt b o 1 / 16 = 4 then some o else none

/-- UDP in IPv4: offset of the UDP header; fragments beyond the first have none. -/
def udpAt (b : Bytes) : Option Nat :=
  match ipv4At b with
  | some o =>
    let h := beAt b o 1 % 16 * 4
    if beAt b (o + 9) 1 = 17 ∧ beAt b (o + 6) 2 % 0x2000 = 0 ∧ o + h + 8 ≤ b.length then some (o + h) else none
  | none => none

/-- UDP destination port, IPv4 destination. -/
def udpDst (b : Bytes) : Option Nat := (udpAt b).map fun o => beAt b (o + 2) 2
def ipDst (b : Bytes) : Option Nat := (ipv4At b).map fun o => beAt b (o + 16) 4

/-- PTP in one of the two forms of R37: EtherType 0x88F7, or UDP over IPv4 to port 319 or 320; its message offset. -/
def ptpAt (b : Bytes) : Option Nat :=
  if etherType b = 0x88F7 then some (typeAt b + 2)
  else
    match udpAt b with
    | some o => if beAt b (o + 2) 2 = 319 ∨ beAt b (o + 2) 2 = 320 then some (o + 8) else none
    | none => none

/-- An Ethernet header. -/
def ethHeader (dst src : BitVec 48) (etype : Nat) : Bytes :=
  beBytes 6 dst.toNat ++ beBytes 6 src.toNat ++ beBytes 2 etype

/-- Pad a frame without FCS to 60 bytes. -/
def padFrame (b : Bytes) : Bytes := padTo 60 b

/-- Filter entry 0 of an external port's MAC (R192): the address its LO and HI words hold. -/
def filterAddr (p : Nat) (s : State) : BitVec 48 :=
  BitVec.ofNat 48 (rgF MAC_FILT_HI p 15 0 s * 2 ^ 32 + (rg MAC_FILT_LO p s).toNat)

/-- Trunk roles (R14): the DEVICE record's code, or the default of the device's hierarchy role and twin enable. -/
def trunkRole (t : Nat) (s : State) : Nat :=
  let c := sget 15 t s.img.roleCode
  let role := rgF HIE_CFG 0 31 30 s
  if c < 15 then c
  else if t ≤ 1 then (if role = 2 then roleUnused else roleUplink)
  else if t = 2 then (if bit (rg TWN_CFG 0 s) 31 then roleTwin else roleAnalysis)
  else if role = 0 then roleAnalysis else roleHierarchy

/-- A port is the trunk in the twin-link role. -/
def isTwinLink (p : Nat) (s : State) : Bool := decide (128 ≤ p ∧ p < 132) && trunkRole (p - 128) s == roleTwin

/-- The trunks of a replicated stream's pair that carry its copies: an analysis trunk carries no replicated stream and a
twin link twin frames only (R14, R267). -/
def streamTrunks (n : Nat) (s : State) : List Nat :=
  [128 + rgF FRE_STR_CFG n 23 22 s, 128 + rgF FRE_STR_CFG n 25 24 s].filter fun p =>
    trunkRole (p - 128) s != roleAnalysis && trunkRole (p - 128) s != roleTwin

/-- The trunks in a role, ascending. -/
def trunksOf (role : Nat) (s : State) : List Nat := (List.range 4).filter fun t => trunkRole t s = role

/-- The backup heartbeat trunk (R16). -/
def backupTrunk (s : State) : Option Nat :=
  match trunksOf roleUplink s with
  | t :: _ => some t
  | [] => if rgF HIE_CFG 0 31 30 s = 2 then (trunksOf roleHierarchy s).head? else none

/-- Mode of a field port: 0 10BASE-T1L, 1 10BASE-T1S, 2 legacy serial, 3 disabled (FPA_PORT_CFG). -/
def portMode (p : Nat) (s : State) : Nat := rgF FPA_PORT_CFG p 1 0 s

/-- Whether an external port is a legacy-serial port. -/
def isSerial (p : Nat) (s : State) : Bool := decide (p < 128) && portMode p s = 2

/-- Link state of an external port: FPA_PORT_STAT.link or TRK_STAT.link. -/
def linkUp (p : Nat) (s : State) : Bool :=
  if p < 128 then bit (rg FPA_PORT_STAT p s) 0 else decide (p < 132) && bit (rg TRK_STAT (p - 128) s) 0

/-- The die link of a field die is up (R447). -/
def dieUp (d : Nat) (s : State) : Bool := decide (rgF MEM_STAT (2 + d) 2 0 s = 2)

/-- Whether an external port is isolated (R333). -/
def isolated (p : Nat) (s : State) : Bool := bit (rg (FLT_ISO + 4 * (p / 32)) 0 s) (p % 32)

/-- Max frame length of an external port's MAC (MAC_CFG.max_len). -/
def maxLen (p : Nat) (s : State) : Nat := rgF MAC_CFG p 29 16 s

end Sys2Proof.Machine
end

