-- ==== Sys2Proof/Machine/Check.lean ====
section
/-! DEFINITION. Check units: contexts, verdicts and triggers (R278-R284). -/

set_option Elab.async false

namespace Sys2Proof.Machine

open Sys2Proof

def chkEn (c : Nat) (s : State) : Bool := bit (rg CHK_CTX_CFG c s) 31
def chkTrigger (c : Nat) (s : State) : Bool := bit (rg CHK_CTX_CFG c s) 30
def chkConst (c : Nat) (s : State) : Bool := bit (rg CHK_CTX_CFG c s) 29
def chkAlive (c : Nat) (s : State) : Bool := bit (rg CHK_CTX_CFG c s) 28
def chkPoly (c : Nat) (s : State) : Nat := rgF CHK_CTX_CFG c 25 24 s
def covOff (c : Nat) (s : State) : Nat := rgF CHK_CTX_COV c 10 0 s
def covLen (c : Nat) (s : State) : Nat := max 1 (min 2048 (rgF CHK_CTX_COV c 27 16 s))
def chkOff (c : Nat) (s : State) : Nat := rgF CHK_CTX_FLD c 10 0 s
def aliveOff (c : Nat) (s : State) : Nat := rgF CHK_CTX_FLD c 26 16 s

/-- Width of the alive counter in bits (R278). -/
def aliveBits (c : Nat) (s : State) : Nat :=
  match rgF CHK_CTX_CFG c 27 26 s with
  | 0 => 4
  | 2 => 16
  | _ => 8

/-- Bytes of the alive field. -/
def aliveBytes (c : Nat) (s : State) : Nat := if aliveBits c s = 16 then 2 else 1

/-- The check field overlaps the covered region (R278, R279). -/
def chkOverlap (c : Nat) (s : State) : Bool :=
  !chkConst c s && decide (chkOff c s < covOff c s + covLen c s)
    && decide (covOff c s < chkOff c s + crcBytes (chkPoly c s))

/-- Bytes from the base that a verdict needs. -/
def chkNeed (c : Nat) (s : State) : Nat :=
  max (covOff c s + covLen c s)
    (max (if chkConst c s then 0 else chkOff c s + crcBytes (chkPoly c s))
      (if chkAlive c s then aliveOff c s + aliveBytes c s else 0))

/-- Result codes of R85. -/
abbrev chkPass : Nat := 0
abbrev chkMismatch : Nat := 1
abbrev chkRepeat : Nat := 2
abbrev chkGap : Nat := 3

/-- Record a verdict's result and pulse its event lines (R85, R281). -/
def chkResult (c k : Nat) (s : State) : State := pulseSource (.check c k) (setRgF CHK_CTX_STAT c 17 16 k s)

/-- Accept an alive value as the expectation. -/
def chkHold (c a : Nat) (s : State) : State := setRgF CHK_CTX_STAT c 31 31 1 (setRgF CHK_CTX_STAT c 15 0 a s)

/-- The verdict on data that start at the base (R279, R281). Answers whether they pass. -/
def chkVerdict (c : Nat) (data : Bytes) (s : State) : State × Bool :=
  if data.length < chkNeed c s then
    (chkResult c chkMismatch (setCause CHK_CTX_CAUSE c 0 (bump CHK_CTX_CNT_FAIL c 15 8 s)), false)
  else
    let w := crcBytes (chkPoly c s)
    let crc := crcOf (chkPoly c s) (slice data (covOff c s) (covLen c s))
    let want := if chkConst c s then (rg CHK_CTX_CONST c s).toNat % 2 ^ (8 * w) else beAt data (chkOff c s) w
    if crc ≠ want then
      (chkResult c chkMismatch (setCause CHK_CTX_CAUSE c 0 (bump CHK_CTX_CNT_FAIL c 31 16 s)), false)
    else if ¬ chkAlive c s then (chkResult c chkPass (bump CHK_CTX_CNT_PASS c 31 0 s), true)
    else
      let m := 2 ^ aliveBits c s
      let a := beAt data (aliveOff c s) (aliveBytes c s) % m
      let held := bit (rg CHK_CTX_STAT c s) 31
      let d := (a + m - rgF CHK_CTX_STAT c 15 0 s % m) % m
      let gap := max 1 (min (m - 1) (rgF CHK_CTX_CFG c 15 0 s))
      if ¬ held ∨ d = 1 then (chkResult c chkPass (chkHold c a (bump CHK_CTX_CNT_PASS c 31 0 s)), true)
      else if d = 0 then
        (chkResult c chkRepeat (setCause CHK_CTX_CAUSE c 1 (bump CHK_CTX_CNT_ALIVE c 31 16 s)), false)
      else if d ≤ gap then
        (chkResult c chkPass (chkHold c a (addRgF CHK_CTX_CNT_LOST c 31 0 (d - 1) (bump CHK_CTX_CNT_PASS c 31 0 s))),
          true)
      else
        (chkResult c chkGap (chkHold c a (setCause CHK_CTX_CAUSE c 2 (bump CHK_CTX_CNT_ALIVE c 15 0 s))), false)

/-- Stage 5 for a frame whose end has not come (R280, R284): whether the context will give it a verdict. -/
def chkReady (c : Nat) (s : State) : State × Bool :=
  if inReset 206 s then (bump CHK_GLB_DROP 0 31 0 s, false)
  else if ¬ chkEn c s ∨ chkTrigger c s ∨ chkOverlap c s then
    (setCause CHK_CTX_CAUSE c 3 (bump CHK_CTX_CNT_FAIL c 7 0 s), false)
  else (s, true)

/-- A frame bound to a context (R280, R284). Answers whether it passes. -/
def chkFrame (c : Nat) (b : Bytes) (s : State) : State × Bool :=
  let r := chkReady c s
  if r.2 then chkVerdict c (b.drop (dataBase b)) r.1 else r

/-- A trigger (R280, R282). Answers whether the context takes it. -/
def chkStart (c : Nat) (s : State) : State × Bool :=
  if inReset 206 s ∨ ¬ chkEn c s ∨ ¬ chkTrigger c s ∨ chkOverlap c s then (s, false)
  else if bit (rg CHK_CTX_STAT c s) 30 then (setCause CHK_CTX_CAUSE c 5 s, false)
  else (setRgF CHK_CTX_STAT c 30 30 1 s, true)

/-- CHECK_TRIGGER_VERDICT (R282): the trigger read ends. -/
def checkTriggerVerdict (c : Nat) (ans : MemAnswer) (s : State) : State :=
  if ¬ bit (rg CHK_CTX_STAT c s) 30 then s
  else
    let s := setRgF CHK_CTX_STAT c 30 30 0 s
    let a := base40 CHK_CTX_ADDR_LO CHK_CTX_ADDR_HI c s
    let n := chkNeed c s
    if ¬ canReach .unit true a n s then setCause CHK_CTX_CAUSE c 4 (bump CHK_CTX_CNT_FAIL c 7 0 s)
    else if ¬ memGood (answer a ans s) then
      setCause CHK_CTX_CAUSE c 4 (bump CHK_CTX_CNT_FAIL c 7 0 (noteAnswer a (answer a ans s) s))
    else (chkVerdict c (rdBytes a n s) (noteAnswer a (answer a ans s) s)).1
def execCheckTriggerVerdict (context : Fin 256) (ans : MemAnswer) (s : State) : Out :=
  .next (checkTriggerVerdict context ans s)

end Sys2Proof.Machine
end

