-- ==== Sys2Proof/Machine/Buffer.lean ====
section
/-! DEFINITION. The packet buffer: cells, queues, admission, release, and frames from internal switch ports
(R208, R209, R219-R225, R228, R232, R239, R265-R268, R360, R362). -/

set_option Elab.async false

namespace Sys2Proof.Machine

open Sys2Proof

/-- Cells of a frame of L bytes counted with FCS (R208). -/
def cellsOf (l : Nat) : Nat := (l + 255) / 256

/-- Egress queue of (port, class). -/
def jqueue (p c : Nat) (s : State) : List Copy := sget [] (p * 8 + c) s.jct.queues

/-- Positive credit at a key is lost (R242). -/
def loseCredit (k : Nat) (m : Sparse Int) : Sparse Int := if 0 < sget 0 k m then sset 0 k 0 m else m

/-- Whether a port holds a queued copy that satisfies `f`. -/
def portHolds (p : Nat) (f : Copy → Bool) (s : State) : Bool :=
  (List.range 8).any fun c => (jqueue p c s).any f

/-- Members that a change of a queue leaves without a copy lose their deficit (R241); `was` is the queue before. -/
def settleDeficits (p c : Nat) (was : List Copy) (s : State) : State :=
  let t := s.tpk
  let q := jqueue p c s
  let t := if q.isEmpty then { t with classDeficit := sset 0 (p * 8 + c) 0 t.classDeficit } else t
  let gone := was.filter fun x => !q.any fun y => decide (y.sub = x.sub)
  { s with tpk := { t with
      subDeficit := gone.foldl (fun m x => sset 0 ((p * 8 + c) * 4097 + x.sub) 0 m) t.subDeficit } }

/-- The shapers that a change of a queue leaves inactive lose their unused credit (R242); `was` is the queue before. -/
def settleCredits (p c : Nat) (was : List Copy) (s : State) : State :=
  if 132 ≤ p then s
  else
    let t := s.tpk
    let t := if (jqueue p c s).isEmpty then { t with serviceCredit := loseCredit (p * 8 + c) t.serviceCredit } else t
    let t := if portHolds p (fun _ => true) s then t else { t with portCredit := loseCredit p t.portCredit }
    let gone := was.filter fun x => decide (x.sub < 4096) && !portHolds p (fun y => decide (y.sub = x.sub)) s
    { s with tpk := { t with subCredit := gone.foldl (fun m x => loseCredit x.sub m) t.subCredit } }

/-- Replace an egress queue. -/
def setJqueue (p c : Nat) (q : List Copy) (s : State) : State :=
  let was := jqueue p c s
  settleDeficits p c was <| settleCredits p c was { s with jct := { s.jct with queues := sset [] (p * 8 + c) q s.jct.queues } }

/-- The held frame of an id. -/
def jframe (id : Nat) (s : State) : Option JFrame := s.jct.frames.find? fun f => f.id = id

/-- Replace a held frame. -/
def setJframe (f : JFrame) (s : State) : State :=
  { s with jct := { s.jct with frames := s.jct.frames.map fun g => if g.id = f.id then f else g } }

/-- Update the held frame of an id. -/
def updJframe (id : Nat) (g : JFrame → JFrame) (s : State) : State :=
  match jframe id s with
  | some f => setJframe { g f with id := id } s
  | none => s

/-- Pool sizes (R219): control pool C, guarantee G, telemetry pool T. -/
def ctrlPool (s : State) : Nat := rgF JCT_BUF_CFG 0 16 0 s
def guarOf (c : Nat) (s : State) : Nat :=
  if c = 6 then rgF JCT_GUAR 0 7 0 s else if c = 7 then rgF JCT_GUAR 0 15 8 s else 0
def telePool (s : State) : Nat := 65536 - (guarOf 6 s + guarOf 7 s) * 199 - ctrlPool s

/-- Physical cells held in each pool. -/
def ctrlHeld (s : State) : Nat :=
  (s.jct.frames.filter fun f => f.control).foldl (fun n f => n + (f.cells - f.fromGuar)) 0
def teleHeld (s : State) : Nat :=
  (s.jct.frames.filter fun f => !f.control).foldl (fun n f => n + f.cells) 0

/-- Free cells: F of the telemetry pool and JCT_CFREE of the control pool (R219). DESIGN CHOICE: a cell that the auditor
misses (R227) lacks in the telemetry pool. -/
def teleFree (s : State) : Nat := telePool s - teleHeld s - s.jct.suspects.length
def ctrlFree (s : State) : Nat := ctrlPool s - ctrlHeld s

/-- Guarantee and pool cells charged to a queue. -/
def queueGuar (q : List Copy) : Nat := q.foldl (fun n c => n + c.guar) 0
def queuePool (q : List Copy) : Nat := q.foldl (fun n c => n + c.pool) 0

/-- The field k of a class (JCT_DT). -/
def dtK (c : Nat) (s : State) : Int := sgn 4 (rgF JCT_DT 0 (4 * c + 3) (4 * c) s)

/-- The threshold of R221. -/
def threshold (f : Nat) (k : Int) : Nat := if 0 ≤ k then f * 2 ^ k.toNat else f / 2 ^ (-k).toNat

/-- Admission of n cells to queue q of class c (R220-R222): the guarantee and pool cells charged, or refusal. -/
def admitTest (c n : Nat) (yellow multi : Bool) (q : List Copy) (s : State) : Option (Nat × Nat) :=
  if 6 ≤ c then
    let g := guarOf c s - queueGuar q
    let p := queuePool q
    let cap := rgF JCT_GUAR 0 31 16 s
    if multi then
      if !yellow ∧ p + n ≤ cap ∧ n ≤ ctrlFree s then some (0, n) else none
    else if n ≤ g then some (n, 0)
    else if !yellow ∧ n - g ≤ ctrlFree s ∧ p + n - g ≤ cap then some (g, n - g)
    else none
  else
    let f := teleFree s
    let k := if yellow then dtK c s - 1 else dtK c s
    if n ≤ f ∧ queuePool q + n ≤ threshold f k then some (0, n) else none

/-- Subscriber of (egress, ingress) (R239); 4,096 is the default one. -/
def subscriberOf (egress ingress : Nat) (s : State) : Nat :=
  let e := sget 0 (egress * 200 + ingress) s.tpk.map
  let n := fld e 11 0
  if egress < 132 ∧ bit e 12 ∧ bit (rg TPK_SUB_CFG n s) 31 ∧ rgF TPK_SUB_CFG n 7 0 s = egress then n else 4096

/-- Conditions of R232 for a copy to be cut through. -/
def cutsThrough (src : Nat) (d : Dest) (s : State) : Bool :=
  bit (rg JCT_CTRL 0 s) 0 && decide (128 ≤ src ∧ src < 132) && !d.mirror
    && decide (d.port < 132) && bit (rg JCT_P_CFG d.port s) 18
    && (decide (128 ≤ d.port) || decide (portMode d.port s < 2))
    && (jqueue d.port d.cls s).isEmpty

/-- Count a refused copy (R222, R229, R235). -/
def countRefused (d : Dest) (s : State) : State :=
  let s := bump JCT_Q_DROP (d.port * 8 + d.cls) 31 16 s
  setCause JCT_CAUSE2 0 d.cls (setCause JCT_CAUSE 0 (if d.mirror then 9 else 0) s)

/-- The copy of a replicated frame that carries its R-TAG: to a trunk of its stream, and not a mirror copy (R267). -/
def carriesTag (f : JFrame) (port : Nat) (mirror : Bool) : Bool := f.stream.isSome && !mirror && f.pair.contains port

/-- Length with FCS that a copy is charged for: a truncated mirror copy, a trunk copy that will carry an R-TAG (R267),
or the frame. -/
def chargedLen (f : JFrame) (trunc : Nat) (tag : Bool) : Nat :=
  if trunc ≠ 0 ∧ trunc < f.length then trunc else if tag then f.length + 6 else f.length

/-- The length of a copy with its R-TAG exceeds the max_len of the trunk's MAC (R267). -/
def tagOversize (f : JFrame) (port : Nat) (s : State) : Bool := decide (maxLen port s < f.length + 6)

/-- Count a trunk copy that its R-TAG makes too long (R267). -/
def countOversize (f : JFrame) (s : State) : State :=
  setCause FRE_CAUSE 0 4 (bump FRE_CNT_MISC ((f.stream.map fun q => q.1).getD 0) 15 0 s)

/-- An admitted destination, with the guarantee cells and all the cells that it was charged. -/
structure Admitted where
  dest : Dest
  guar : Nat
  cells : Nat
deriving DecidableEq, Repr

/-- Admission of one copy of a frame that will be held under `id` (R220-R222, R267), with F and JCT_CFREE of `s0`. A
cut-through frame's length is not known yet, so its R-TAG is not held against it here. -/
def admitOne (f : JFrame) (id : Nat) (multi : Bool) (s0 : State) (acc : State × List Admitted) (d : Dest) :
    State × List Admitted :=
  let s := acc.1
  let tag := carriesTag f d.port d.mirror
  if tag ∧ ¬ f.cutting ∧ tagOversize f d.port s0 then (countOversize f s, acc.2)
  else
    let n := cellsOf (chargedLen f d.trunc tag)
    match admitTest d.cls n f.yellow multi (jqueue d.port d.cls s) s0 with
    | none => (countRefused d s, acc.2)
    | some (g, p) =>
      let cut := f.cutting && cutsThrough f.src d s
      let c : Copy :=
        { frame := id, port := d.port, cls := d.cls, sub := subscriberOf d.port f.src s, guar := g, pool := p,
          trunc := d.trunc, mirror := d.mirror, cut := cut, tag := tag }
      (onlyIf cut (bump JCT_CNT_CT 0 31 16) (setJqueue d.port d.cls (jqueue d.port d.cls s ++ [c]) s),
        acc.2 ++ [{ dest := d, guar := g, cells := n }])

/-- Admit a frame to its destinations in ascending order, with F and JCT_CFREE as they stand before it is stored, then
store it when at least one admits it (R222). Answers the state and the admitted destinations. -/
def admitFrame (f : JFrame) (ds : List Dest) (s0 : State) : State × List Dest :=
  let id := s0.jct.nextId
  let multi := decide (1 < ds.length)
  let r := ds.foldl (admitOne f id multi s0) (s0, [])
  if r.2.isEmpty then (r.1, [])
  else
    let n := r.2.foldl (fun m x => max m x.cells) (cellsOf f.length)
    let g := if multi then 0 else r.2.foldl (fun m x => m + x.guar) 0
    let fr : JFrame :=
      { f with id := id, cells := n, fromGuar := g, control := decide (6 ≤ f.cls), refs := r.2.length,
               multi := decide (1 < r.2.length), arrived := now s0 }
    ({ r.1 with jct := { r.1.jct with frames := r.1.jct.frames ++ [fr], nextId := id + 1 } }, r.2.map fun x => x.dest)

/-! ### Mirror copies (R229, R230) -/

/-- The copy of a mirror session: enabled sessions that name an external port (R229) other than a twin link (R14). -/
def mirrorDest (sess : Nat) (s : State) : List Dest :=
  let w := rg (JCT_MIR + 4 * sess) 0 s
  let t := fld w 27 16
  if bit w 31 ∧ fld w 7 0 < 132 ∧ ¬ isTwinLink (fld w 7 0) s then
    [{ port := fld w 7 0, cls := fld w 30 28, trunc := if t = 0 then 0 else max 64 (min 2048 t), mirror := true }]
  else []

/-- The egress mirror copies of admitted copies (R229, R230). -/
def egressMirrors (ds : List Dest) (s : State) : List Dest :=
  (ds.filter fun d => !d.mirror && decide (d.port < 132) && bit (rg JCT_P_CFG d.port s) 23).flatMap fun d =>
    mirrorDest (rgF JCT_P_CFG d.port 26 24 s) s

/-- Add mirror copies to the frame that has just been stored under `id` (R230): they are further destinations of it,
tested against the pools of `s0`, before it was stored. -/
def addMirrors (id : Nat) (ms : List Dest) (s0 s : State) : State :=
  match jframe id s with
  | none => s
  | some f =>
    let r := ms.foldl (admitOne f id true s0) (s, [])
    if r.2.isEmpty then r.1
    else
      let n := r.2.foldl (fun m x => max m x.cells) f.cells
      setJframe { f with cells := n, refs := f.refs + r.2.length, multi := true } r.1

/-- One reference of a frame ends: its cells return to the free list with the last (R223). The end of a cut-through frame
is awaited whatever becomes of its copies. -/
def releaseRef (id : Nat) (s : State) : State :=
  match jframe id s with
  | none => s
  | some f =>
    if f.refs ≤ 1 ∧ ¬ f.cutting then { s with jct := { s.jct with frames := s.jct.frames.filter fun g => g.id ≠ id } }
    else setJframe { f with refs := f.refs - 1 } s

/-- Remove the first copy of a frame that satisfies `p` from a queue. -/
def removeCopy (p : Copy → Bool) : List Copy → List Copy
  | [] => []
  | c :: t => if p c then t else c :: removeCopy p t

/-- Drop the copies of a frame in one queue: the queue gives back its cells, the references end (R223). -/
def dropQueued (port cls : Nat) (p : Copy → Bool) (s : State) : State :=
  let q := jqueue port cls s
  let s := setJqueue port cls (q.filter fun c => !p c) s
  forEach (q.filter p) (fun c => releaseRef c.frame) s

/-- Every listed queue key, as (port, class). -/
def queueKeys (s : State) : List (Nat × Nat) := (skeys s.jct.queues).map fun k => (k / 8, k % 8)

/-- Queued copies of a frame, with their queues. -/
def copiesOf (id : Nat) (s : State) : List Copy :=
  (s.jct.queues.flatMap fun q => q.2).filter fun c => c.frame = id

/-- Drop every queued copy of a frame that is not started, counting each with `count`. -/
def dropUnstarted (id : Nat) (count : Copy → State → State) (s : State) : State :=
  forEach (copiesOf id s)
    (fun c s => count c (dropQueued c.port c.cls (fun x => x.frame = id) s)) s

/-! ### Frames from internal switch ports -/

/-- A stream as a generator, with the trunks that its pair has now. -/
def generator (n : Nat) (s : State) : Generator := { stream := n, trunks := streamTrunks n s }

/-- The generating stream of an internal key (R265). -/
def internalStream (src egress cls : Nat) (s : State) : Option Generator :=
  let rec go : Sparse Word → Option Generator
    | [] => none
    | (k, v) :: t =>
      if k / 2 ^ 24 = FRE_STR_CFG ∧ bit v 31 ∧ bit v 27 ∧ fld v 15 8 = src ∧ 128 + fld v 23 22 = egress
          ∧ fld v 2 0 = cls then some (generator (k % 2 ^ 24) s)
      else go t
  go s.regs

/-- Whether destinations hold a port, or a trunk of the stream, mirror copies aside. -/
def holdsPort (p : Nat) (ds : List Dest) : Bool := ds.any fun d => !d.mirror && decide (d.port = p)
def holdsTrunk (g : Generator) (ds : List Dest) : Bool := g.trunks.any fun p => holdsPort p ds

/-- The other trunk of a stream's pair added to a destination set that holds one of them (R267). -/
def splitDests (st : Option Generator) (cls : Nat) (ds : List Dest) : List Dest :=
  match st with
  | none => ds
  | some g =>
    if holdsTrunk g ds then ds ++ (g.trunks.filter fun p => !holdsPort p ds).map fun p => { port := p, cls := cls } else ds

/-- Put a destination behind those of lower or equal port. -/
def insertDest (d : Dest) : List Dest → List Dest
  | [] => [d]
  | x :: t => if d.port < x.port then d :: x :: t else x :: insertDest d t

/-- Destinations in ascending switch port order (R222). -/
def sortDests (ds : List Dest) : List Dest := ds.foldl (fun acc d => insertDest d acc) []

/-- Take the next sequence number of a generating stream (R267). -/
def takeSeq (n : Nat) (s : State) : State := addRgF FRE_CNT_GEN n 31 0 1 (addRgF FRE_STR_SEQ n 15 0 1 s)

/-- Admit a frame of an optional generating stream (R267): it is stored once, and takes a sequence number only if a trunk
copy is admitted. -/
def admitSequenced (st : Option Generator) (f : JFrame) (ds : List Dest) (s : State) : State × List Dest :=
  match st with
  | none => admitFrame f ds s
  | some g =>
    let q := BitVec.ofNat 16 (rgF FRE_STR_SEQ g.stream 15 0 s)
    let r := admitFrame { f with stream := some (g.stream, q), pair := g.trunks } ds s
    if holdsTrunk g r.2 then (takeSeq g.stream r.1, r.2)
    else (updJframe s.jct.nextId (fun g => { g with stream := none }) r.1, r.2)

/-- Admit a frame, then the egress mirror copies of the copies that were admitted (R230). -/
def admitStream (st : Option Generator) (f : JFrame) (ds : List Dest) (s : State) : State × List Dest :=
  let r := admitSequenced st f (sortDests ds) s
  let ms := sortDests (egressMirrors r.2 s)
  if ms.isEmpty then r else (addMirrors s.jct.nextId ms s r.1, r.2)

/-- A switch port whose claimed bit is set (R360). -/
def claimedPort (p : Nat) (s : State) : Bool := bit (rg (TWN_CLAIM_PORT + 4 * (p / 32)) 0 s) (p % 32)

/-- The unit is the active one of its pair, and its twin unit works (R354, R372). -/
def twinActive (s : State) : Bool := s.twn.state == .active && !inReset 208 s

/-- A frame is claimed when it enters from switch ports 132-195 or 198 towards a claimed port (R360). -/
def claimed (src egress : Nat) (s : State) : Bool :=
  (decide (132 ≤ src ∧ src < 196) || decide (src = 198)) && decide (egress < 132) && claimedPort egress s

/-- The unit's claim number (R362). -/
def claimNumber (s : State) : Word := w32 (rgF TWN_EPOCH 0 23 0 s * 256 + rgF TWN_STAT 0 9 8 s)

/-- Position of the claim field of a frame, when it fits (R362). -/
def claimAt (b : Bytes) (s : State) : Option Nat :=
  let o := dataBase b + rgF TWN_CLAIM_OFF 0 10 0 s
  if o + 4 ≤ b.length then some o else none

/-- What a twin link does not carry: anything but the twin unit's frames (R14). -/
def twinLinkOnly (egress : Nat) (f : JFrame) (s : State) : Bool :=
  isTwinLink egress s && !(decide (f.src = 199) && decide (etherType f.bytes = rgF TWN_CFG 0 15 0 s))

/-- A whole frame without FCS that an internal unit offers, as the buffer holds it. -/
def newFrame (b : Bytes) (src cls : Nat) (s : State) : JFrame :=
  { id := 0, bytes := b, src := src, cls := cls, ts := now s, arrived := now s, cells := 0, refs := 0, multi := false,
    length := b.length + 4, internal := decide (132 ≤ src) }

/-- Offer a prepared frame from an internal switch port to its named egress port and class (R14, R209, R234, R360).
Answers the state and whether a copy was admitted; a suppressed frame counts as sent. DESIGN CHOICE (log entry 172): what a
twin link does not carry is not admitted, and Junction counts nothing. -/
def internalOffer (f : JFrame) (egress : Nat) (s : State) : State × Bool :=
  if inReset 196 s then (setCause JCT_CAUSE 0 10 (bump JCT_CNT_MISC 0 15 0 s), false)
  else if egress = 198 ∨ 199 < egress then (setCause JCT_CAUSE 0 7 (bump JCT_CNT_MISC 0 23 16 s), false)
  else if twinLinkOnly egress f s then (s, false)
  else
    let st := internalStream f.src egress f.cls s
    if claimed f.src egress s ∧ s.twn.state ≠ .off ∧ (¬ twinActive s ∨ s.twn.releasing) then
      -- suppressed: the sequence generator advances as if the frame had been sent (R268, R360)
      let s := bump TWN_CNT_OUT 0 31 16 s
      ((match st with
        | some g => onlyIf (g.trunks.contains egress) (takeSeq g.stream) s
        | none => s), true)
    else
      let claims := decide (claimed f.src egress s) && s.twn.state == .active
      let (f, s) :=
        if claims then
          match claimAt f.bytes s with
          | some o => ({ f with bytes := putAt f.bytes o (beBytes 4 (claimNumber s).toNat) }, s)
          | none => (f, bump TWN_CNT_OUT 0 15 0 s)
        else (f, s)
      let r := admitStream st f (splitDests st f.cls [{ port := egress, cls := f.cls }]) s
      (r.1, !r.2.isEmpty)

/-- A frame from internal switch port `src` (132-199) to `egress` in class `cls`. -/
def internalFrame (src egress cls : Nat) (b : Bytes) (s : State) : State :=
  (internalOffer (newFrame b src cls s) egress s).1

end Sys2Proof.Machine
end

