-- ==== Sys2Proof/Machine/TwinBase.lean ====
section
/-! DEFINITION. What other units need of the twin unit: step mode, twin frames, and the capture of inputs (R355-R358). -/

set_option Elab.async false

namespace Sys2Proof.Machine

open Sys2Proof

/-- One of the two manager addresses that the worker image names (R377). -/
def isManagerAddr (a : BitVec 48) : Bool := a == Config.managerA || a == Config.managerB

/-- Step mode applies (TWN_CFG.step_en, which also sets LNC_CTRL.step_mode). -/
def stepMode (s : State) : Bool := bit (rg TWN_CFG 0 s) 30

/-- A reset, halt or resume waits for the beginning of the next step (R131). -/
def awaitStep (c : StepCommand) (s : State) : State := { s with stp := { s.stp with commands := s.stp.commands ++ [c] } }

/-- Code of a twin state (R354). -/
def TwinState.code : TwinState → Nat
  | .off => 0 | .pairing => 1 | .active => 2 | .standby => 3 | .isolated => 4 | .refused => 5 | .rejoining => 6

/-- The unit's rank strap (R352). -/
def twinRank (s : State) : Nat := rgF TWN_STAT 0 9 8 s

/-- A twin frame (R355). `src` is the address of the trunk that it leaves on. -/
def twinFrame (src : BitVec 48) (kind step seq : Nat) (body : Bytes) (s : State) : Bytes :=
  padFrame (ethHeader Config.peerStation src (rgF TWN_CFG 0 15 0 s)
    ++ beBytes 1 kind ++ beBytes 1 (twinRank s)
    ++ beBytes 4 (if kind ≤ 2 then 0 else step) ++ beBytes 4 (if kind ≤ 2 then 0 else seq)
    ++ beBytes 2 body.length ++ [0, 0] ++ body)

/-- Send a twin frame on the twin link. It enters from switch port 199 in class 7: the manual names no port for it. -/
def twinSend (kind step seq : Nat) (body : Bytes) (s : State) : State :=
  match trunksOf roleTwin s with
  | t :: _ => internalFrame 199 (128 + t) 7 (twinFrame (filterAddr (128 + t) s) kind step seq body s) s
  | [] => s

/-- Send a twin frame on the backup path (R356). -/
def twinSendBackup (kind : Nat) (body : Bytes) (s : State) : State :=
  match backupTrunk s with
  | some t => internalFrame 199 (128 + t) 7 (twinFrame (filterAddr (128 + t) s) kind 0 0 body s) s
  | none => s

/-- Input kinds of a type-4 frame (R355). -/
abbrev inputFrame : Nat := 1
abbrev inputObservation : Nat := 2
abbrev inputRoadState : Nat := 3
abbrev inputHost : Nat := 4
abbrev inputJob : Nat := 5

/-- Capture an input in step mode: tag it with the last marker, forward it to the peer and keep it for resending
(R357, R358). -/
def captureInput (kind : Nat) (body : Bytes) (s : State) : State :=
  let i : TwinInput := { step := s.twn.lastMarker, rank := twinRank s, seq := s.twn.inputSeq, kind := kind, body := body }
  let s := { s with twn := { s.twn with inputSeq := s.twn.inputSeq + 1, inputs := s.twn.inputs ++ [i],
                                        resend := s.twn.resend ++ [i] } }
  let s := bump TWN_CNT_IN 0 31 16 s
  twinSend 4 i.step i.seq.toNat (beBytes 1 kind ++ [0, 0, 0] ++ body) s

end Sys2Proof.Machine
end

