-- ==== Sys2Proof/Machine/JournalBase.lean ====
section
/-! DEFINITION. The journal's intake and its overflow summaries (R340, R342). -/

set_option Elab.async false

namespace Sys2Proof.Machine

open Sys2Proof

/-- Origin index of an alarm: sources 0-2,047, lanes 2,048 upward (R341). R341 gives a marker of the alarm class no origin:
the model keeps its overflow summary under an index of its own, and it is no newest record that another folds into (log
entry 170). -/
def originIndex (r : JRecord) : Nat :=
  if r.kind = 5 then 3072 + r.origin.toNat % 512
  else if bit r.flags 3 then 2048 + r.origin.toNat % 1024
  else r.origin.toNat % 2048

/-- Extended time of a record (R340). -/
def extTime (t : Word) (epoch : BitVec 16) : BitVec 48 := epoch ++ t

/-- Fold an alarm into an origin's run or summary (R341, R342). -/
def foldRun (run : Option AlarmRun) (r : JRecord) : AlarmRun :=
  match run with
  | some a => { a with lastTime := r.time, lastEpoch := r.epoch, count := a.count + 1 }
  | none =>
    { firstTime := r.time, firstEpoch := r.epoch, lastTime := r.time, lastEpoch := r.epoch, count := 1,
      head := slice r.body 0 4, flags := r.flags }

/-- Fold an alarm into its origin's summary: one that waited in the intake queue while a newer one was folded comes before
it (R342; log entry 170). -/
def foldInto (run : Option AlarmRun) (r : JRecord) : AlarmRun :=
  match run with
  | some a =>
    let t := extTime r.time r.epoch
    let b := foldRun run r
    let b := if sgn 48 (t - extTime a.firstTime a.firstEpoch).toNat < 0 then { b with firstTime := r.time, firstEpoch := r.epoch } else b
    if sgn 48 (t - extTime a.lastTime a.lastEpoch).toNat < 0 then { b with lastTime := a.lastTime, lastEpoch := a.lastEpoch } else b
  | none => foldRun none r

/-- Fold a new alarm into the overflow summary of its origin; the first such fold, with no summary pending, sets the cause
(R342). DESIGN CHOICE: the newest alarm of the origin is then in no record that a later one could be folded into. -/
def foldSummary (r : JRecord) (s : State) : State :=
  let o := originIndex r
  let first := s.jnl.summaries.isEmpty
  let s := { s with jnl := { s.jnl with
    summaries := sset none o (some (foldInto (sget none o s.jnl.summaries) r)) s.jnl.summaries,
    newest := sset none o none s.jnl.newest } }
  onlyIf first (setCause JNL_CAUSE 0 0) (bump JNL_CNT_ALM 0 31 16 s)

/-- The journal takes records: it is enabled and not in reset (R349). -/
def journalTakes (s : State) : Bool := !inReset 207 s && bit (rg JNL_CFG 0 s) 0

/-- Offer a record to the intake queue (R340, R349). Answers whether it was accepted. -/
def journalIntake (r : JRecord) (s : State) : State × Bool :=
  if ¬ journalTakes s then (s, false)
  else if s.jnl.intake.length < 256 then
    ({ s with jnl := { s.jnl with intake := s.jnl.intake ++ [r] } }, true)
  else if r.cls = 0 then (foldSummary r s, true)
  else (setCause JNL_CAUSE 0 1 (bump JNL_CNT_IN 0 31 0 s), false)

/-- A lane's SEND of kind 3 (R339, R340). -/
def laneRecord (lane cls : Nat) (body : Bytes) (s : State) : JRecord :=
  { cls := cls, kind := 0, flags := 8, origin := BitVec.ofNat 16 lane, time := now s, epoch := journalEpoch s,
    body := slice body 0 48 }

/-- A marker from an event line, with the time and the epoch of the pulse (R339, R340). -/
def markerRecord (line code : Nat) (ns : Word) (epoch : BitVec 16) (s : State) : JRecord :=
  let c := rgF JNL_CFG 0 5 4 s
  { cls := if c = 3 then 1 else c, kind := 5, flags := 0, origin := BitVec.ofNat 16 line, time := ns,
    epoch := epoch, body := padTo 48 (leBytes 2 code) }

/-- The alarm of an occurrence, with the time and the epoch of the raise (R339, R340). -/
def alarmRecord (o : Occurrence) (cls : Nat) (suppressed : Bool) : JRecord :=
  { cls := 0, kind := 1, flags := BitVec.ofNat 8 (b2n o.forced + 2 * b2n suppressed + 4 * b2n o.overflow),
    origin := BitVec.ofNat 16 o.src, time := o.time, epoch := o.epoch,
    body := padTo 48 (leBytes 1 cls ++ [0, 0, 0] ++ leBytes 4 o.count.toNat) }

end Sys2Proof.Machine
end

