-- ==== Sys2Proof/Machine/Points.lean ====
section
/-! DEFINITION. LM64 mode and the points of the LM64 map (R17, R406, R419). -/

set_option Elab.async false

namespace Sys2Proof.Machine

open Sys2Proof

/-- LM64 transaction mode (R17, IMG_STAT.personality). -/
def lm64Mode (s : State) : Bool := bit (rg IMG_STAT 0 s) 24

/-- Items of `k` bytes of a record. -/
def itemsOf (k : Nat) (v : Bytes) : List Bytes := (List.range (v.length / k)).map fun i => slice v (k * i) k

/-- Tag of a record of POINT entries (R418). -/
abbrev tagPoint : Nat := 17

/-- The POINT entries of a configuration. -/
def pointEntries (xs : List ImgSection) : List Bytes :=
  (xs.filter fun x => x.type = 22).flatMap fun x =>
    (x.records.filter fun r => r.1 = tagPoint).flatMap fun r => itemsOf 16 r.2

/-! ### Fields of a POINT entry (R419) -/

def pointNumber (v : Bytes) : Nat := leAt v 0 2
def pointIsOut (v : Bytes) : Bool := leAt v 2 1 == 1
def pointWidth (v : Bytes) : Nat := leAt v 3 1
def pointKind (v : Bytes) : Nat := leAt v 4 1
def pointAge (v : Bytes) : Nat := leAt v 6 2
/-- Stream rule, snapshot slot, road or trigger slot. -/
def pointBind (v : Bytes) : Nat := leAt v 8 2
def pointOffset (v : Bytes) : Nat := leAt v 10 2
def pointCheck (v : Bytes) : Nat := leAt v 12 2
/-- Bytes that a field of the point's width takes. -/
def pointBytes (v : Bytes) : Nat := (pointWidth v + 7) / 8

/-- What is held of a point. -/
def pointRun (n : Nat) (s : State) : PointRun := sget {} n s.wpt.points
def setPointRun (n : Nat) (p : PointRun) (s : State) : State :=
  { s with wpt := { s.wpt with points := sset {} n p s.wpt.points } }

/-- A frame that matched stream rule `i` updates the points bound to its fields; when a check context refused it, the
points that name the context are bad (R406, R419). -/
def notePoints (i ctx : Nat) (ok : Bool) (b : Bytes) (s : State) : State :=
  if ¬ lm64Mode s then s
  else
    forEach ((pointEntries s.img.resident).filter fun v => pointKind v = 0 ∧ pointBind v = i)
      (fun v s =>
        let n := pointNumber v
        let o := dataBase b + pointOffset v
        if ¬ ok then (if pointCheck v = ctx then setPointRun n { pointRun n s with bad := true } s else s)
        else if b.length < o + pointBytes v then s
        else
          setPointRun n { value := w32 (beAt b o (pointBytes v) % 2 ^ pointWidth v), updated := some (elapsedNs s) } s) s

/-- A cut-through frame failed its check at its last byte: the points that name the context are bad. -/
def failPoints (ctx : Nat) (s : State) : State :=
  if ¬ lm64Mode s then s
  else
    forEach ((pointEntries s.img.resident).filter fun v => pointKind v = 0 ∧ pointCheck v = ctx)
      (fun v s => setPointRun (pointNumber v) { pointRun (pointNumber v) s with bad := true } s) s

end Sys2Proof.Machine
end

