-- ==== Sys2Proof/Machine/LaneBase.lean ====
section
/-! DEFINITION. Jobs, drain markers, messages and lane faults (R81-R83, R113-R123, R132), as every unit uses them. -/

set_option Elab.async false

namespace Sys2Proof.Machine

open Sys2Proof

/-- A lane is in reset, on its own or with its district (R134, R135). -/
def laneInReset (l : Nat) (s : State) : Bool := (lane l s).inReset || inReset (132 + l / 16) s

/-- A lane takes part in a district's choice for a job (R113): not fault-stopped, halted or in reset. -/
def takesJobs (l : Nat) (s : State) : Bool :=
  (lane l s).run != .faulted && !(lane l s).halted && !laneInReset l s

/-- Jobs in a lane's queue. -/
def jobCount (l : Nat) (s : State) : Nat :=
  ((lane l s).queue.filter fun e => match e with | .job _ => true | .marker .. => false).length

/-- The candidate with the least measure, the first one on a tie. -/
def leastOf (f : Nat → Nat) : List Nat → Option Nat
  | [] => none
  | x :: t =>
    match leastOf f t with
    | none => some x
    | some y => if f y < f x then some y else some x

/-- Lanes of a district, ascending (R12). -/
def lanesOf (d : Nat) : List Nat := (List.range 16).map fun i => 16 * d + i

/-- The lane that a placement target names (R76, R81, R113). -/
def targetLane (isDistrict : Bool) (target : Nat) (s : State) : Option Nat :=
  if isDistrict then leastOf (fun l => jobCount l s) ((lanesOf (target % 64)).filter fun l => takesJobs l s)
  else some (target % 1024)

/-- Put a job in a lane's queue, or refuse and count it (R114, R134). -/
def enqueueJob (l : Nat) (j : Job) (s : State) : State × Bool :=
  if laneInReset l s then (s, false)
  else if (lane l s).queue.length < 16 then
    (setLane l { lane l s with queue := (lane l s).queue ++ [.job j] } s, true)
  else (setCause LNC_DST_CAUSE (l / 16) 3 (bump LNC_LANE_CNT_DROP l 31 22 s), false)

/-- Job sources closed to customers in LM64 mode (R18): milestones, event lines and work queues, and the reissues of their
jobs, in districts 60-63. -/
def lm64Closed (l source : Nat) (s : State) : Bool := lm64Mode s && decide (960 ≤ l) && decide (source ≠ 3)

/-- The queue of a placement slot's target takes a job with the slot's generation and next sequence number; a refused
start consumes none (R81, R113, R114). -/
def offerJob (slot : Nat) (j : Job) (s : State) : State × Bool :=
  let cur := rg MST_PLC_CUR slot s
  match targetLane (bit cur 10) (fld cur 9 0) s with
  | none => (s, false)
  | some l =>
    if lm64Closed l j.source.toNat s then (s, false)
    else
      let r := slotRun slot s
      let e := enqueueJob l { j with slot := BitVec.ofNat 9 slot, gen := BitVec.ofNat 8 (fld cur 23 16), seq := r.seq } s
      if e.2 then (setSlotRun slot { r with seq := r.seq + 1 } e.1, true) else e

/-- Start a job through a placement slot: a refused start counts as a refused action (R79, R113). -/
def startJob (slot : Nat) (j : Job) (s : State) : State × Bool :=
  let r := offerJob slot j s
  if r.2 then r else (refuseAction r.1, false)

/-! ### Messages -/

/-- The 64 bytes of a message (R120). -/
def messageBytes (m : Message) : Bytes :=
  leBytes 2 m.src ++ leBytes 1 m.payload.length ++ leBytes 1 m.flags.toNat ++ leBytes 2 m.slot.toNat
    ++ leBytes 1 m.gen.toNat ++ leBytes 1 m.cls.toNat ++ leBytes 2 m.seq.toNat ++ leBytes 2 m.msgSeq.toNat
    ++ leBytes 4 m.time.toNat ++ padTo 48 m.payload

/-- Count a message or frame of a sending lane as undeliverable (R18, R119, R122). -/
def undeliverable (src : Nat) (s : State) : State := bump LNC_LANE_CNT_DROP (src % 1024) 10 0 s

/-- The slot's results to this lane are ordered (R83). -/
def orderedAt (slot l : Nat) (s : State) : Bool :=
  bit (rg MST_PLC_RX slot s) 16 && decide (rgF MST_PLC_RX slot 9 0 s = l)

/-- Whether a sequence number lies in the receiver's window as delivered, or is older than the window (R83). -/
def seenBefore (r : SlotRun) (seq : BitVec 16) : Bool :=
  match r.rxHi with
  | none => false
  | some h =>
    let d := sgn 16 (h - seq).toNat
    if d < 0 then false else if 64 ≤ d then true else bit r.rxSeen d.toNat

/-- Record a delivered sequence number (R83). -/
def markSeen (r : SlotRun) (seq : BitVec 16) : SlotRun :=
  match r.rxHi with
  | none => { r with rxHi := some seq, rxSeen := 1 }
  | some h =>
    let d := sgn 16 (seq - h).toNat
    if 0 < d then
      { r with rxHi := some seq,
               rxSeen := (if d < 64 then r.rxSeen <<< d.toNat else 0) ||| 1 }
    else if -64 < d then { r with rxSeen := r.rxSeen ||| (1 <<< (-d).toNat) }
    else r

/-- Put a message in an inbox, or count the overflow (R122). Answers whether it was put there. -/
def inboxPut (l : Nat) (e : InboxEntry) (s : State) : State × Bool :=
  if (lane l s).inbox.length < 32 then
    (setLane l { lane l s with inbox := (lane l s).inbox ++ [e] } s, true)
  else (setCause LNC_DST_CAUSE (l / 16) 2 (bump LNC_LANE_CNT_DROP l 21 11 s), false)

/-- Insert by ascending seq relative to a base (R83). -/
def insertBySeq (base : BitVec 16) (e : InboxEntry) : List InboxEntry → List InboxEntry
  | [] => [e]
  | x :: t =>
    if sgn 16 (e.msg.seq - base).toNat < sgn 16 (x.msg.seq - base).toNat then e :: x :: t
    else x :: insertBySeq base e t

/-- The receiver takes the drain marker of a slot: draining clears and the held messages are delivered in ascending seq,
duplicates discarded (R83). -/
def takeMarker (l slot : Nat) (s : State) : State :=
  let s := setRgF MST_PLC_CUR slot 31 31 0 s
  let ln := lane l s
  let mine (e : InboxEntry) : Bool := e.held && decide (e.msg.slot.toNat = slot)
  let held := ln.inbox.filter mine
  let base := match held with | e :: _ => e.msg.seq | [] => 0
  let sorted := held.foldl (fun acc e => insertBySeq base e acc) []
  let s := setLane l { ln with inbox := ln.inbox.filter fun e => !mine e } s
  forEach sorted
    (fun e s =>
      let r := slotRun slot s
      if seenBefore r e.msg.seq then bump MST_PLC_CNT slot 11 0 s
      else setSlotRun slot (markSeen r e.msg.seq) (inboxPut l { e with held := false } s).1) s

/-- Deliver a message to a lane that exists and is not in reset (R83, R121, R122). -/
def deliverTo (l : Nat) (m : Message) (s : State) : State :=
  let slot := m.slot.toNat
  if (lane l s).inReset then undeliverable m.src s
  else if bit m.flags 0 then (inboxPut l { msg := m } s).1
  else if orderedAt slot l s then
    let r := slotRun slot s
    let cur := rg MST_PLC_CUR slot s
    if seenBefore r m.seq then bump MST_PLC_CNT slot 11 0 s
    else if m.gen = r.oldGen ∧ bit cur 31 then
      let p := inboxPut l { msg := m } s
      onlyIf p.2 (setSlotRun slot (markSeen r m.seq)) p.1
    else if m.gen.toNat = fld cur 23 16 ∧ bit cur 31 then (inboxPut l { msg := m, held := true } s).1
    else if m.gen.toNat = fld cur 23 16 then
      let p := inboxPut l { msg := m } s
      onlyIf p.2 (setSlotRun slot (markSeen r m.seq)) p.1
    else bump MST_PLC_CNT slot 23 12 s
  else (inboxPut l { msg := m } s).1

/-- Lane of a district for a message of kind 1: fewest messages, not fault-stopped or in reset (R119). -/
def messageLane (d : Nat) (s : State) : Option Nat :=
  leastOf (fun l => (lane l s).inbox.length)
    ((lanesOf d).filter fun l => (lane l s).run != .faulted && !laneInReset l s)

/-- Deliver a message to its destination (R119, R121). -/
def deliverMessage (dest : MsgDest) (m : Message) (s : State) : State :=
  match dest with
  | .lane l => deliverTo l m s
  | .district d =>
    match messageLane d s with
    | some l => deliverTo l m s
    | none => undeliverable m.src s

/-- District of a destination. -/
def MsgDest.districtOf : MsgDest → Nat
  | .lane l => l / 16
  | .district d => d

/-- Send a message: within the district it goes directly; otherwise it travels as an internal frame from switch port
132 + d (R121). A customer lane's message to districts 60-63 is discarded in LM64 mode (R18). -/
def sendMessage (dest : MsgDest) (m : Message) (s : State) : State :=
  let src := m.src / 16
  let d := dest.districtOf
  if lm64Mode s ∧ 60 ≤ d ∧ src < 60 then undeliverable m.src s
  else if d = src then
    setDistrict d { district d s with direct := (district d s).direct ++ [(dest, m)] } s
  else
    let f := { newFrame (messageBytes m) (132 + src) m.cls.toNat s with msg := some (dest, m) }
    let r := internalOffer f (132 + d) s
    if r.2 then r.1 else undeliverable m.src r.1

/-- Number of frame buffers of a layout (R125). -/
def frxCount (frx : Word) : Nat := min (min 128 (fld frx 23 16)) (256 - fld frx 7 0)

/-- A job ends: its frame buffer returns to the free set (R117). -/
def freeBuffer (l : Nat) (s : State) : State :=
  match (lane l s).job.bind fun j => j.buffer with
  | none => s
  | some b =>
    setDistrict (l / 16) { district (l / 16) s with buffers := (district (l / 16) s).buffers.filter fun x => x ≠ b } s

/-- A lane fault (R132): the lane stops, its job ends, and the fault is recorded. The step buffer keeps what earlier jobs
of the step left in it. -/
def laneFault (l cause : Nat) (faddr : Word) (trapCode : Nat) (pc : Word) (s : State) : State :=
  let s := freeBuffer l s
  let ln := lane l s
  let s := setLane l { ln with run := .faulted, job := none, faultPc := pc, sending := false,
                               stepWrites := ln.stepWrites.take ln.keepWrites,
                               stepSends := ln.stepSends.take ln.keepSends, stepEntries := ln.keepEntries } s
  let s := setRg LNC_LANE_FAULT l (w32 (trapCode * 65536 + cause)) s
  let s := setRg LNC_LANE_FADDR l faddr s
  let s := bump LNC_LANE_CNT_FAULT l 31 0 s
  let s := setRgF LNC_DST_FAULTED (l / 16) (l % 16) (l % 16) 1 s
  setCause LNC_DST_CAUSE (l / 16) 0 s

end Sys2Proof.Machine
end

