-- ==== Sys2Proof/Machine/Dma.lean ====
section
/-! DEFINITION. DMA channels (R310-R319). -/

set_option Elab.async false

namespace Sys2Proof.Machine

open Sys2Proof

/-- Addresses and settings of a channel (R310-R312). -/
def dmaSrc (c : Nat) (s : State) : Nat := base40 DMA_SRC_LO DMA_SRC_HI c s
def dmaDst (c : Nat) (s : State) : Nat := base40 DMA_DST_LO DMA_DST_HI c s
def dmaCount (c : Nat) (s : State) : Nat := rgF DMA_COUNT c 23 0 s
def dmaUnit (c : Nat) (s : State) : Nat := 2 ^ min 4 (rgF DMA_MODE c 10 8 s)
def dmaSrcFixed (c : Nat) (s : State) : Bool := bit (rg DMA_MODE c s) 4
def dmaDstFixed (c : Nat) (s : State) : Bool := bit (rg DMA_MODE c s) 5
def dmaShuffle (c : Nat) (s : State) : Nat := rgF DMA_MODE c 2 0 s
def dmaN (c : Nat) (s : State) : Nat := rgF DMA_MODE c 30 24 s
def dmaW (c : Nat) (s : State) : Nat := rgF DMA_MODE c 22 16 s
def dmaBusy (c : Nat) (s : State) : Bool := bit (rg DMA_STAT c s) 0
def dmaArmed (c : Nat) (s : State) : Bool := bit (rg DMA_STAT c s) 1

/-- Test 4 of R313 fails: a configuration that R311 or R312 does not allow. -/
def dmaConfigBad (c : Nat) (s : State) : Bool :=
  let k := dmaShuffle c s
  let n := dmaN c s
  let w := dmaW c s
  let cnt := dmaCount c s
  let fixed := dmaSrcFixed c s || dmaDstFixed c s
  decide (5 ≤ k) || (decide (k ≠ 0) && fixed)
    || ((k == 1 || k == 2) && (decide (n < 2) || decide (64 < n) || decide (w < 1) || decide (64 < w)
        || decide (cnt % (n * w) ≠ 0)))
    || (k == 3 && decide (cnt % 8 ≠ 0)) || (k == 4 && decide (cnt % 32 ≠ 0))
    || (fixed && decide (cnt % dmaUnit c s ≠ 0))
    || (dmaSrcFixed c s && decide (dmaSrc c s % dmaUnit c s ≠ 0))
    || (dmaDstFixed c s && decide (dmaDst c s % dmaUnit c s ≠ 0))

/-- A range lies within one region that DMA reaches (test 5 of R313). -/
def dmaRangeOk (a n : Nat) (s : State) : Bool :=
  Reach.unit.allows true (regionOf a s) && regionOf a s == regionOf (a + n - 1) s

/-- The event pulse of a completion (R316). -/
def dmaPulse (c : Nat) (s : State) : State := pulseSource (.dma c) s

/-- The tests of R313, in order. Answers whether the start was not refused. -/
def dmaTest (c : Nat) (s : State) : State × Bool :=
  if dmaBusy c s ∨ (bit (rg DMA_MODE c s) 6 ∧ ¬ dmaArmed c s) then
    (setCause DMA_CAUSE c 0 (bump DMA_CNT c 15 0 s), false)
  else if dmaCount c s = 0 then
    (dmaPulse c (bump DMA_CNT c 31 16 (setRgF DMA_STAT c 1 1 0 s)), true)
  else if dmaConfigBad c s then (setCause DMA_CAUSE c 1 s, false)
  else if ¬ dmaRangeOk (dmaSrc c s) (dmaCount c s) s ∨ ¬ dmaRangeOk (dmaDst c s) (dmaCount c s) s then
    (setCause DMA_CAUSE c 2 s, false)
  else if dmaShuffle c s ≠ 0 ∧ dmaSrc c s < dmaDst c s + dmaCount c s ∧ dmaDst c s < dmaSrc c s + dmaCount c s then
    (setCause DMA_CAUSE c 3 s, false)
  else
    -- memmove semantics: the source is taken as it stands at the start (R314)
    let held := if dmaSrcFixed c s ∨ dmaDstFixed c s then [] else rdBytes (dmaSrc c s) (dmaCount c s) s
    (setRg DMA_STAT c (w32 (dmaCount c s * 256 + 1)) { s with dmaHeld := sset [] c held s.dmaHeld }, true)

/-- Start a channel (R313); several starts on one edge are one (R318). Answers whether it was not refused. -/
def dmaStartOp (c : Nat) (s : State) : State × Bool :=
  let last := sget (0, false) c s.dmaEdge
  if inReset 204 s then (s, false)
  else if last.1 = edgeNow s then (s, last.2)
  else
    let r := dmaTest c s
    ({ r.1 with dmaEdge := sset (0, false) c (edgeNow s, r.2) r.1.dmaEdge }, r.2)

/-- Set the armed bit (R313). -/
def dmaArmOp (c : Nat) (s : State) : State := if inReset 204 s then s else setRgF DMA_STAT c 1 1 1 s

/-- Source offset of destination byte `o` in a reshuffle of bytes (R312). -/
def shuffleIndex (k cnt n w o : Nat) : Nat :=
  let f := cnt / (n * w)
  if k = 1 then ((o / w % f) * n + o / (f * w)) * w + o % w
  else if k = 2 then (o / w % n) * f * w + (o / (n * w)) * w + o % w
  else o

/-- Output byte i of an 8x8 bit-plane transpose (R312). -/
def transpose8 (b : Bytes) (i : Nat) : Byte :=
  BitVec.ofNat 8 ((List.range 8).foldl (fun v j => v + b2n (bit (b.getD j 0) i) * 2 ^ j) 0)

/-- Output word i of a 16x16 bit-plane transpose of little-endian words (R312). -/
def transpose16 (b : Bytes) (i : Nat) : Nat :=
  (List.range 16).foldl (fun v j => v + b2n (bit (BitVec.ofNat 16 (leAt b (2 * j) 2)) i) * 2 ^ j) 0

/-- The destination bytes of a reshuffle (R312). -/
def reshuffled (k n w : Nat) (src : Bytes) : Bytes :=
  let cnt := src.length
  if k = 3 then
    (List.range cnt).map fun o => transpose8 (slice src (o / 8 * 8) 8) (o % 8)
  else if k = 4 then
    (List.range (cnt / 32)).flatMap fun q =>
      (List.range 16).flatMap fun i => leBytes 2 (transpose16 (slice src (32 * q) 32) i)
  else (List.range cnt).map fun o => src.getD (shuffleIndex k cnt n w o) 0

/-- Units moved in ascending order, each read before it is written (R314). -/
def moveUnits (src dst u : Nat) (srcFixed dstFixed : Bool) : Nat → Nat → State → State
  | 0, _, s => s
  | k + 1, i, s =>
    let a := if srcFixed then src else src + i * u
    let b := if dstFixed then dst else dst + i * u
    moveUnits src dst u srcFixed dstFixed k (i + 1) (wrBytes b (rdBytes a u s) s)

/-- Move the first `done` bytes of a transfer (R311, R312, R314). -/
def dmaMove (c done : Nat) (s : State) : State :=
  if dmaSrcFixed c s ∨ dmaDstFixed c s then
    moveUnits (dmaSrc c s) (dmaDst c s) (dmaUnit c s) (dmaSrcFixed c s) (dmaDstFixed c s) (done / dmaUnit c s) 0 s
  else
    let src := sget [] c s.dmaHeld
    let out := if dmaShuffle c s = 0 then src else reshuffled (dmaShuffle c s) (dmaN c s) (dmaW c s) src
    wrBytes (dmaDst c s) (out.take done) s

/-- DMA_CTRL.start (R313). -/
def dmaStart (c : Nat) (s : State) : State := (dmaStartOp c s).1
def execDmaStart (c : Fin 72) (s : State) : Out := .next (dmaStart c s)

/-- DMA_CTRL.arm (R313). -/
def execDmaArm (c : Fin 72) (s : State) : Out := .next (dmaArmOp c s)

/-- DMA_CTRL.disarm (R313). -/
def dmaDisarm (c : Nat) (s : State) : State := if inReset 204 s then s else setRgF DMA_STAT c 1 1 0 s
def execDmaDisarm (c : Fin 72) (s : State) : Out := .next (dmaDisarm c s)

/-- A channel is idle again with `left` bytes not transferred. -/
def dmaStop (c left : Nat) (s : State) : State :=
  setRgF DMA_STAT c 31 8 left (setRgF DMA_STAT c 0 0 0 { s with dmaHeld := sset [] c [] s.dmaHeld })

/-- The memory on both sides of a transfer answers (R317). -/
def dmaAnswers (c : Nat) (s : State) : Bool :=
  memGood (answer (dmaSrc c s) .ok s) && memGood (answer (dmaDst c s) .ok s)

/-- The last write lands: busy clears and the event lines pulse (R316). A channel whose memory gives no answer does not
complete; DMA_MEM_FAULT stops it. -/
def dmaComplete (c : Nat) (s : State) : State :=
  if dmaBusy c s ∧ dmaAnswers c s then
    let s := dmaStop c 0 (dmaMove c (dmaCount c s) s)
    dmaPulse c (bump DMA_CNT c 31 16 s)
  else s
def execDmaComplete (c : Fin 72) (s : State) : Out := .next (dmaComplete c s)

/-- A memory fault after `done` bytes stops the channel without a pulse (R317). -/
def dmaMemFault (c done : Nat) (s : State) : State :=
  if dmaBusy c s then
    let d := min done (dmaCount c s)
    let s := dmaMove c d s
    setCause DMA_CAUSE c 4 (dmaStop c (dmaCount c s - d) s)
  else s
def execDmaMemFault (c : Fin 72) (done : Nat) (s : State) : Out := .next (dmaMemFault c done s)

end Sys2Proof.Machine
end

