-- ==== Sys2Proof/Machine/Access.lean ====
section
/-! DEFINITION. How an access path reaches a register: its select, its window, and the function that may be in reset
(R6, R10, R444). Path 8 is the loader's own path (R419). -/

set_option Elab.async false

namespace Sys2Proof.Machine

open Sys2Proof

/-- The loader's own access path (R419). -/
abbrev loaderPath : Nat := 8

/-- The instance that a path's select reaches at a register (R10, R480). -/
def winOf (path r : Nat) (s : State) : Option Nat := winInst r (rg (r / 0x1000 * 0x1000) path s)

/-- Whether writes to a register instance are taken: its function is not in reset, or the loader writes (R444). -/
def writable (path r i : Nat) (s : State) : Bool := decide (path = loaderPath) || !inReset (ownerOf r i) s

/-- Perform a write at the instance that the path reaches; an empty window and a function in reset ignore it. -/
def atInst (path r : Nat) (f : Nat → State → State) (s : State) : State :=
  match winOf path r s with
  | some i => if writable path r i s then f i s else s
  | none => s

/-- A write to a global register of a function. -/
def atGlobal (path r : Nat) (f : State → State) (s : State) : State :=
  if writable path r 0 s then f s else s

/-! ### Values that a register clamps when they are written -/

/-- Clamp the field hi:lo of a word. -/
def clampFld (hi lo least most : Nat) (v : Word) : Word := setFld v hi lo (max least (min most (fld v hi lo)))

/-- A signed 24-bit value, sign-extended to the register. -/
def signed24 (v : Word) : Word := w32 (wrapI 32 (sgn 24 v.toNat))

/-- JCT_DT with the signed k of each class clamped to -4 to +3. -/
def clampDt (v : Word) : Word :=
  (List.range 6).foldl (fun w c =>
    setFld w (4 * c + 3) (4 * c) (wrapI 4 (max (-4) (min 3 (sgn 4 (fld v (4 * c + 3) (4 * c))))))) v

/-- The value that a register instance stores for a written one
(the register tables of ROA, MFE, SHF, FPA, MAC, JCT, QMG, JNL, TWN and HIE). -/
def clampValue (r i : Nat) (v : Word) : Word :=
  if r = MFE_CH_OFFSET then signed24 v
  else if r = JCT_DT then clampDt v
  else if r = ROA_TIMEOUT then clampFld 31 16 1 65535 (clampFld 15 0 1 65535 v)
  else if r = SHF_SSI_TIME then clampFld 15 0 20 10000 v
  else if r = FPA_VRG_TDR then clampFld 25 16 10 1000 v
  else if r = MAC_CFG then clampFld 29 16 64 (if i < 128 then 2048 else 9216) v
  else if r = QMG_Q_BUF then clampFld 15 0 64 16384 v
  else if r = JNL_P_CFG then clampFld 12 8 1 16 v
  else if r = TWN_STEP then clampFld 13 0 25 10000 v
  else if r = HIE_RELAY then clampFld 20 16 1 16 v
  else v

end Sys2Proof.Machine
end

