-- ==== Sys2Proof/Machine/RoadMath.lean ====
section
/-! DEFINITION. The arithmetic of roads: positions, prediction, its inverse and the history lookup (R43-R56, R60, R61). -/

set_option Elab.async false

namespace Sys2Proof.Machine

open Sys2Proof

/-- rnd of R50: round half up after a right shift. -/
def rnd (x : Int) (sh : Nat) : Int := if sh = 0 then x else (x + 2 ^ (sh - 1)) / 2 ^ sh

/-- Signed distance from position `y` to position `x` (R43). -/
def dist48 (y x : BitVec 48) : Int := sgn 48 (x - y).toNat

/-- Kind of a road's source; 6 and 7 are treated as 0 (R45). -/
def roadKind (n : Nat) (s : State) : Nat :=
  let k := rgF ROA_SRC n 2 0 s
  if 6 ≤ k then 0 else k

/-- pos(t) of the tracker, dt ns after t_s (R53). -/
def Road.posAt (r : Road) (dt : Int) : BitVec 64 :=
  BitVec.ofNat 64 (wrapI 64 ((r.p.toNat : Int) + si r.v * dt + rnd (si r.a * dt * dt) 25))

/-- vel(t) of the tracker (R53). -/
def Road.velAt (r : Road) (dt : Int) : Int := si r.v + rnd (si r.a * dt) 24

/-- Upper 48 bits of an internal position (R43). -/
def pub48 (p : BitVec 64) : BitVec 48 := BitVec.ofNat 48 (p.toNat / 2 ^ 16)

/-- Internal position of a clock road whose count stands at `n` (R48). -/
def clockPos (lap n period : Nat) : BitVec 64 := BitVec.ofNat 64 (lap * 2 ^ 48 + n * 2 ^ 48 / period)

/-- Rate of a clock road (R48). -/
def clockRate (period : Nat) : BitVec 48 := BitVec.ofNat 48 ((2 ^ 48 + period / 2) / period)

/-- Count of a clock road `d` ns after its last edge (R48). -/
def Road.countAt (r : Road) (t : Word) : Nat := (((r.n : Int) + diff32 t r.lastNs).toNat)

/-- Lap of a road's internal position. -/
def Road.lap (r : Road) : Nat := r.p.toNat / 2 ^ 48

/-- pos and vel of a road at a Milepost time. -/
def Road.posTime (r : Road) (kind : Nat) (t : Word) : BitVec 48 × Int :=
  if kind = 1 then (pub48 (clockPos r.lap (r.countAt t) r.period), si (clockRate r.period))
  else (pub48 (r.posAt (diff32 t r.tS)), r.velAt (diff32 t r.tS))

/-- What a road publishes at Milepost time `t` (R56): position and rate. -/
def Road.publishAt (r : Road) (kind : Nat) (t : Word) : BitVec 48 × BitVec 48 :=
  match r.state with
  | .idle => (0, 0)
  | .lost | .held => (r.pub, 0)
  | .acquiring =>
    if r.initPending then (r.pub, 0)
    else ((r.posTime kind t).1, BitVec.ofNat 48 (wrapI 48 (r.posTime kind t).2))
  | .tracking | .coasting => ((r.posTime kind t).1, BitVec.ofNat 48 (wrapI 48 (r.posTime kind t).2))

/-- Whether the road's state compares milestone records (R74). -/
def RoadState.comparing : RoadState → Bool
  | .tracking | .coasting | .held => true
  | _ => false

/-- The prediction horizon for a rate (R54). -/
def horizonOf (v : Int) : Nat := if v = 0 then 100000000 else min 100000000 (2 ^ 48 / v.natAbs)

/-- Statuses of time(x) (R55). -/
abbrev whenOk : Nat := 0
abbrev whenPassed : Nat := 1
abbrev whenBeyond : Nat := 2
abbrev whenStandstill : Nat := 3
abbrev whenNotValid : Nat := 4
abbrev whenReversal : Nat := 5
abbrev whenNotConverged : Nat := 6

/-- Two refinement steps of R55 on an iterate counted from t_s; none: reversal. -/
def Road.refine (r : Road) (x : Int) (sign : Int) : Nat → Int → Option Int
  | 0, t => some t
  | k + 1, t =>
    let v := r.velAt t
    if v = 0 ∨ v.sign ≠ sign then none
    else r.refine x sign k (t - Int.tdiv (sgn 64 (wrapI 64 ((r.posAt t).toNat - x))) v)

/-- time(x) of a tracked road (R55): status and time. -/
def Road.inverse (r : Road) (standstill : Nat) (x : BitVec 48) (t0 : Word) : Nat × Word :=
  let tn := diff32 t0 r.tS
  let x64 : Int := (x.toNat : Int) * 2 ^ 16
  let dx := sgn 64 (wrapI 64 (x64 - (r.posAt tn).toNat))
  let v0 := r.velAt tn
  match r.state with
  | .idle | .acquiring | .lost => (whenNotValid, 0)
  | .held => (whenStandstill, 0)
  | .tracking | .coasting =>
    if v0.natAbs < standstill ∨ v0 = 0 then (whenStandstill, 0)
    else if dx = 0 ∨ dx.sign ≠ v0.sign then (whenPassed, 0)
    else
      match r.refine x64 v0.sign 2 (tn + Int.tdiv dx v0) with
      | none => (whenReversal, 0)
      | some t =>
        if (r.horizon : Int) - tn < t - tn then (whenBeyond, 0)
        else
          let e := sgn 64 (wrapI 64 ((r.posAt t).toNat - x64))
          let w := r.tS + BitVec.ofNat 32 (wrapI 32 t)
          if e.natAbs ≤ 2 * (r.velAt t).natAbs then (whenOk, w) else (whenNotConverged, w)

/-- time(x) of a clock road, exact from the count and the period (R55); the next period holds from the next lap (R48). -/
def Road.clockInverse (r : Road) (next standstill : Nat) (x : BitVec 48) (t0 : Word) : Nat × Word :=
  let n0 := r.countAt t0
  let n := n0 % r.period
  let lap := r.lap + n0 / r.period
  let cur := pub48 (clockPos lap n r.period)
  let d := dist48 cur x
  if (si (clockRate r.period)).natAbs < standstill then (whenStandstill, 0)
  else if d ≤ 0 then (whenPassed, 0)
  else
    let target := cur.toNat + d.toNat
    let f := target % 2 ^ 32
    let laps := target / 2 ^ 32 - cur.toNat / 2 ^ 32
    let up (p : Nat) : Nat := (f * p + 2 ^ 32 - 1) / 2 ^ 32
    let delta := if laps = 0 then up r.period - n else r.period - n + (laps - 1) * next + up next
    if (r.horizon : Int) - diff32 t0 r.tS < delta then (whenBeyond, 0) else (whenOk, t0 + w32 delta)

/-- time(x) of road `n` (R55); during a reset of function 200 a road answers as IDLE (R445). -/
def roadWhen (n : Nat) (x : BitVec 48) (s : State) : Nat × Word :=
  let r := road n s
  if inReset 200 s then (whenNotValid, 0)
  else if roadKind n s = 1 ∧ r.state = .tracking then 
    r.clockInverse (rg ROA_PERIOD n s).toNat (rg ROA_STANDSTILL n s).toNat x (now s)
  else r.inverse (rg ROA_STANDSTILL n s).toNat x (now s)

/-! ### History (R60, R61) -/

/-- Address of a history entry. -/
def histAddr (n i : Nat) : Nat := roadStoreBase + n * 98304 + i * 24

/-- A history entry read back: the tracker it holds, with its state. -/
def histRoad (n i : Nat) (s : State) : Road :=
  let b := rdBytes (histAddr n i) 24 s
  { state := (RoadState.ofCode (leAt b 22 1)).getD .idle, tS := w32 (leAt b 0 4), p := BitVec.ofNat 64 (leAt b 4 8),
    v := BitVec.ofNat 48 (leAt b 12 6), a := BitVec.ofNat 32 (leAt b 18 4) }

/-- The newest of the `k` retained entries before index `i` whose t_s is not later than t: its index. -/
def histFind (n : Nat) (t : Word) (s : State) : Nat → Nat → Option Nat
  | 0, _ => none
  | k + 1, i =>
    let j := (i + 4095) % 4096
    if diff32 t (rdWord (histAddr n j) s) < 0 then histFind n t s k j else some j

/-- Statuses of a position-at-time lookup (R61). -/
abbrev atOk : Nat := 0
abbrev atPredicted : Nat := 1
abbrev atCoasted : Nat := 2
abbrev atNotValid : Nat := 3
abbrev atTooOld : Nat := 4
abbrev atTooLate : Nat := 5

/-- ROADAT (R61, R161): status, position and rate. -/
def roadAt (n : Nat) (t : Word) (s : State) : Nat × BitVec 48 × BitVec 48 :=
  let r := road n s
  let none3 (c : Nat) : Nat × BitVec 48 × BitVec 48 := (c, 0, 0)
  if 0 ≤ diff32 (now s) t then
    match histFind n t s (rgF ROA_HIST n 28 16 s) (rgF ROA_HIST n 11 0 s) with
    | none => none3 atTooOld
    | some i =>
      let h := histRoad n i s
      match h.state with
      | .idle | .acquiring | .lost => none3 atNotValid
      | .held => (atOk, sget 0 (n * 4096 + i) s.frozen, 0)
      | .tracking =>
        (atOk, pub48 (h.posAt (diff32 t h.tS)), BitVec.ofNat 48 (wrapI 48 (h.velAt (diff32 t h.tS))))
      | .coasting =>
        (atCoasted, pub48 (h.posAt (diff32 t h.tS)), BitVec.ofNat 48 (wrapI 48 (h.velAt (diff32 t h.tS))))
  else if inReset 200 s then none3 atNotValid
  else
    match r.state with
    | .idle | .acquiring | .lost => none3 atNotValid
    | .held => if (r.horizon : Int) < diff32 t r.tS then none3 atTooLate else (atPredicted, r.pub, 0)
    | .tracking | .coasting =>
      if (r.horizon : Int) < diff32 t r.tS then none3 atTooLate
      else
        let q := r.posTime (roadKind n s) t
        (atPredicted, q.1, BitVec.ofNat 48 (wrapI 48 q.2))

end Sys2Proof.Machine
end

