-- ==== Sys2Proof/Machine/MacBase.lean ====
section
/-! DEFINITION. What other units need of the MACs: counters, held classes, pre-emption status, and the copy on the line
(R195, R199, R201-R203). -/

set_option Elab.async false

namespace Sys2Proof.Machine

open Sys2Proof

/-! ### Counters (R202, R203) -/

/-- Set a half-range flag: its 0-to-1 edge raises the port's source or sets the trunk's cause (R203). -/
def setHalf (p i : Nat) (s : State) : State :=
  let r := if i < 32 then MAC_HALF0 else MAC_HALF1
  if bit (rg r p s) (i % 32) then s
  else
    let s := setRgF r p (i % 32) (i % 32) 1 s
    if p < 128 then raiseSrc (4 * p + 3) s else setCause TRK_CAUSE (p - 128) 3 s

/-- Add to counter i of a MAC; its bit 31 going from 0 to 1 is its half-range event. -/
def macAdd (i n p : Nat) (s : State) : State :=
  let old := rg (MAC_CNT + 4 * i) p s
  let s := setRg (MAC_CNT + 4 * i) p (old + w32 n) s
  if ¬ bit old 31 ∧ bit (old + w32 n) 31 then setHalf p i s else s

def macBump (i p : Nat) (s : State) : State := macAdd i 1 p s

/-- Size bucket of a length, 0-6 (R202). -/
def sizeBucket (l : Nat) : Nat :=
  if l ≤ 64 then 0 else if l ≤ 127 then 1 else if l ≤ 255 then 2 else if l ≤ 511 then 3
  else if l ≤ 1023 then 4 else if l ≤ 1518 then 5 else 6

/-- 0 unicast, 1 multicast, 2 broadcast. -/
def destKind (a : BitVec 48) : Nat := if a = BitVec.allOnes 48 then 2 else if isGroup a then 1 else 0

/-- Count a good frame of length l with FCS: index `base` 0 for reception, 22 for transmission. -/
def macGood (base p l : Nat) (dst : BitVec 48) (s : State) : State :=
  let s := macAdd (base + 1) l p (macBump base p s)
  macBump (base + 5 + sizeBucket l) p (macBump (base + 2 + destKind dst) p s)

/-! ### Pause and pre-emption status -/

/-- A class is held while its link-level or its PFC timer runs (R195). -/
def classHeld (p c : Nat) (s : State) : Bool :=
  let m := macRun p s
  (m.linkPause.isSome && bit m.linkMask c) || sget 0 c m.pfc != 0

/-- The port can carry 802.3br pre-emption (R199). -/
def canPreempt (p : Nat) (s : State) : Bool := decide (128 ≤ p ∧ p < 132) || (decide (p < 128) && portMode p s == 0)

/-- The port handles PAUSE and PFC: a trunk or a T1L port (R194). -/
def pausePort (p : Nat) (s : State) : Bool := decide (128 ≤ p) || portMode p s == 0

/-- Bits of a register instance that read 0 and ignore writes, as the instance has no such field (R37, R39, R91, R194,
R199, R315, R451). -/
def absentBits (r i : Nat) (s : State) : Word :=
  if r = MPT_PORT_CTRL then flagAt 1 (decide (i < 128)) ||| flagAt 0 (isSerial i s)
  else if r = MFE_CH_CFG ∧ i < 4 then 0x70
  else if (r = MEM_SCRUB ∧ 2 ≤ i) ∨ (r = DMA_METER ∧ i < 64) then 0xFFFFFFFF
  else if (r = MAC_PRE_CFG ∨ r = MAC_PRE_STAT) ∧ ¬ canPreempt i s then 0xFFFFFFFF
  else if r = MAC_PAUSE_CFG ∧ ¬ pausePort i s then 3
  else 0

/-- A register instance as it reads: the fields that the instance does not have read 0. -/
def rgSeen (r i : Nat) (s : State) : Word := rg r i s &&& ~~~(absentBits r i s)

/-- The port timestamps PTP event messages; a legacy-serial port takes no part in PTP (R37). -/
def ptpEn (p : Nat) (s : State) : Bool := bit (rgSeen MPT_PORT_CTRL p s) 0

/-- Pre-emption is active (R199). -/
def preActive (p : Nat) (s : State) : Bool := canPreempt p s && rgF MAC_PRE_STAT p 1 0 s == 2

/-- A class is preemptable on a port (R255). -/
def preemptable (p c : Nat) (s : State) : Bool := bit (rg TPK_P_CFG p s) (24 + c) && preActive p s

/-- Smallest fragment, mCRC included (R199). -/
def minFragment (p : Nat) (s : State) : Nat := (1 + rgF MAC_PRE_CFG p 3 2 s) * 64

/-- MAC_PRE_STAT.status: disabled with en = 0, active with verify_dis, else as verification stands. -/
def showVerify (p : Nat) (s : State) : State :=
  let cfg := rg MAC_PRE_CFG p s
  setRgF MAC_PRE_STAT p 1 0
    (if ¬ bit cfg 0 ∨ ¬ canPreempt p s then 0
     else if bit cfg 1 then 2
     else match (macRun p s).verification with
       | .running => 1
       | .succeeded => 2
       | .failed => 3) s

def setVerification (p : Nat) (v : Verification) (s : State) : State :=
  showVerify p (setMacRun p { macRun p s with verification := v } s)

/-- Verification starts anew. -/
def restartVerify (p : Nat) (s : State) : State := setVerification p .running (setRg MAC_PRE_STAT p 0 s)

/-- The link of a port is lost: verification starts anew with the next one (R199). PRESUMED: clause 99 restarts it on
link_fail. -/
def linkFailed (p : Nat) (s : State) : State := onlyIf (canPreempt p s) (restartVerify p) s

/-! ### The line -/

/-- Bytes followed by their FCS, and by the inverse of their FCS (R192, R201). -/
def withFcs (b : Bytes) : Bytes := b ++ leBytes 4 (crcOf 2 b)
def stomped (b : Bytes) : Bytes := b ++ leBytes 4 (2 ^ 32 - 1 - crcOf 2 b)

/-- The mCRC of a fragment after which `b` has been sent of its frame. PRESUMED: clause 99 forms it from the FCS by
inverting its low half. -/
def mcrcOf (b : Bytes) : Nat := crcOf 2 b ^^^ 0xFFFF

/-- A verify or response mPacket: 60 bytes of 0 and the mCRC. PRESUMED: clause 99 forms them so. -/
def verifyPacket : Bytes := zeros 60 ++ leBytes 4 (mcrcOf (zeros 60))

/-- A MAC puts something on its line; a T1L port wakes from LPI (R182). -/
def putLine (p : Nat) (kind : LineKind) (b : Bytes) (s : State) : State :=
  let s := setMacRun p { macRun p s with line := some { kind := kind, bytes := b } } s
  onlyIf (decide (p < 128) && portMode p s == 0) (setRgF FPA_PORT_STAT p 14 14 0) s

/-- The copy that the MAC or an internal unit holds, and the suspended remainder. -/
def handed (p : Nat) (s : State) : Option Copy := sget none p s.tpk.handed
def setHanded (p : Nat) (c : Option Copy) (s : State) : State :=
  { s with tpk := { s.tpk with handed := sset none p c s.tpk.handed } }
def suspended (p : Nat) (s : State) : Option Copy := sget none p s.tpk.suspended
def setSuspended (p : Nat) (c : Option Copy) (s : State) : State :=
  { s with tpk := { s.tpk with suspended := sset none p c s.tpk.suspended } }

/-- Copies of a frame that a MAC or an internal unit holds. -/
def handedOf (id : Nat) (s : State) : List Copy :=
  ((List.range 200).filterMap fun p => handed p s).filter fun c => decide (c.frame = id)

/-- A pre-emption of the frame on the line has been asked for. -/
def setPreempting (p : Nat) (b : Bool) (s : State) : State :=
  let l := s.tpk.preempting.filter fun x => x ≠ p
  { s with tpk := { s.tpk with preempting := if b then p :: l else l } }

/-- The copy on the line is done with: its reference ends (R223). -/
def endHanded (p : Nat) (s : State) : State :=
  match handed p s with
  | some c => setPreempting p false (releaseRef c.frame (setHanded p none s))
  | none => s

def endSuspended (p : Nat) (s : State) : State :=
  match suspended p s with
  | some c => releaseRef c.frame (setSuspended p none s)
  | none => s

/-- Frames cut off on the line are lost and counted in tx_dropped (R202, R216). -/
def lineLost (p : Nat) (s : State) : State :=
  let s := onlyIf ((handed p s).isSome) (fun s => macBump 43 p (endHanded p s)) s
  onlyIf ((suspended p s).isSome) (fun s => macBump 43 p (endSuspended p s)) s

end Sys2Proof.Machine
end

