-- ==== Sys2Proof/Machine/Verge.lean ====
section
/-! DEFINITION. Links of field ports and verge windows: requests, starts, measurements, records (R179-R187, R190). -/

set_option Elab.async false

namespace Sys2Proof.Machine

open Sys2Proof

/-! ### Link state (R190) -/

/-- What belongs to a link that is not there: level, role, LPI and PLCA (R191). -/
def clearLinkStatus (p : Nat) (s : State) : State := setRgF FPA_PORT_STAT p 15 13 0 (setRgF FPA_PORT_STAT p 7 5 0 s)

/-- A link goes up or down: the status, the cause and the port event (R85, R190, R191); a frame on the line is lost with the
link (R216), and verification starts anew (R199). -/
def setLink (p : Nat) (up : Bool) (s : State) : State :=
  if bit (rg FPA_PORT_STAT p s) 0 = up then s
  else
    let s := setRgF FPA_PORT_STAT p 0 0 (b2n up) s
    let s := onlyIf (!up) (fun s => linkFailed p (lineLost p (clearLinkStatus p s))) s
    pulseSource (.port p (if up then 0 else 1)) (setCause FPA_CAUSE p 0 s)

/-- The port is enabled, in a mode other than off, and out of reset (R171, R179). -/
def portOn (p : Nat) (s : State) : Bool :=
  bit (rg FPA_PORT_CFG p s) 8 && decide (portMode p s ≠ 3) && !inReset p s

/-! ### Settings of FPA_VRG_CFG and FPA_VRG_TDR -/

def vergeForce (p : Nat) (s : State) : Bool := bit (rg FPA_VRG_CFG p s) 31
def deferNs (p : Nat) (s : State) : Nat := min 10000 (rgF FPA_VRG_CFG p 30 16 s) * 1000
/-- First distance and step of an FPA_VRG_TDR word, in metres. -/
def tdrStart (w : Word) : Nat := min 1000 (fld w 9 0)
def tdrStep (w : Word) : Nat :=
  match fld w 13 12 with
  | 0 => 1
  | 1 => 2
  | _ => 4

/-- The port is the PLCA coordinator of its segment (R173). -/
def plcaCoordinator (p : Nat) (s : State) : Bool :=
  decide (p < 128) && portMode p s == 1 && bit (rg FPA_T1S_PLCA p s) 24 && decide (rgF FPA_T1S_PLCA p 7 0 s = 0)

/-- EEE is in effect on a T1L link (R172): it is up, the port negotiates and advertises EEE, and its partner advertises it
too. -/
def eeeInEffect (p : Nat) (s : State) : Bool :=
  linkUp p s && bit (rg FPA_T1L_CFG p s) 0 && bit (rg FPA_T1L_CFG p s) 1 && (portRun p s).eee

/-- A quiet condition exists for the port's mode and settings (R180). -/
def quietExists (p : Nat) (s : State) : Bool :=
  match portMode p s with
  | 0 => eeeInEffect p s
  | 1 => plcaCoordinator p s
  | 2 => !bit (rg FPA_SER_CFG p s) 6
  | _ => false

/-- What the port's verge window holds. -/
def verge (p : Nat) (s : State) : Verge := (portRun p s).verge
def setVerge (p : Nat) (v : Verge) (s : State) : State := setPortRun p { portRun p s with verge := v } s

/-- A serial reception is in progress. -/
def receiving (p : Nat) (s : State) : Bool := !(portRun p s).chars.isEmpty || (portRun p s).broken

/-- The MAC has a frame of the port on its line. -/
def onLine (p : Nat) (s : State) : Bool := (handed p s).any fun c => c.te.isSome

/-- The end of the coordinator's own transmit opportunity of the cycle that began at `t` (R174): to_timer bit times when it
is unused; otherwise the end of its last frame, with burst_tmr bit times when a further frame may follow. -/
def ownOpportunityEnd (p : Nat) (t : Word) (s : State) : Word :=
  match (portRun p s).oppEnd with
  | none => t + w32 (rgF FPA_T1S_PLCA p 15 8 s * 100)
  | some e => if (portRun p s).oppLeft = 0 then e else e + w32 (rgF FPA_T1S_BURST p 15 8 s * 100)

/-- The counted part of a PLCA cycle has passed (R174): the coordinator's own opportunity, and those of the other nodes, of
to_timer bit times each. -/
def cycleOver (p : Nat) (s : State) : Bool :=
  !onLine p s && (portRun p s).cycleStart.all fun t =>
    decide (0 ≤ diff32 (now s)
      (ownOpportunityEnd p t s + w32 ((rgF FPA_T1S_PLCA p 23 16 s - 1) * rgF FPA_T1S_PLCA p 15 8 s * 100)))

/-- What the block itself knows of the port's quiet condition (R180): LPI on both directions and no frame under way; the
current PLCA cycle over; no response pending and no reception in progress. -/
def lineQuiet (p : Nat) (s : State) : Bool :=
  match portMode p s with
  | 0 => bit (rg FPA_PORT_STAT p s) 15 && bit (rg FPA_PORT_STAT p s) 14 && !onLine p s
  | 1 => cycleOver p s
  | _ => !(portRun p s).response && !receiving p s

/-! ### Measurements (R183, R185) -/

/-- Duration of a measurement in ns (R183). -/
def measureNs : Nat → Nat
  | 0 | 1 | 2 => 100000
  | 3 => 500000
  | 4 => 2000000
  | _ => 1000000

/-- Whether the fitting can make a measurement (R170). -/
def measurable (p k : Nat) (s : State) : Bool :=
  match rgF FPA_PORT_CFG p 3 2 s with
  | 1 => bit (rg FPA_PORT_CFG p s) 4 || k == 0 || k == 5
  | 2 => true
  | _ => false

/-- A result of the port as the balls show it, scaled by the ratio 11 of the DC sense network (R465). DEDUCED: of the
measurements that need that network, 1 to 4; noise floor and TDR come through the transformer. -/
def scaledResult (p k : Nat) (w : Word) (s : State) : Int :=
  let v : Int := if k = 2 then si w else w.toNat
  if bit (rg FPA_PORT_CFG p s) 4 ∧ rgF FPA_PORT_CFG p 3 2 s = 1 ∧ 1 ≤ k ∧ k ≤ 4 then 11 * v else v

/-- A result clamped to its range, and whether it was outside (R183). -/
def clampResult (k : Nat) (v : Int) : Word × Bool :=
  let lim (lo hi : Int) : Word × Bool := (w32 (wrapI 32 (max lo (min hi v))), decide (v < lo ∨ hi < v))
  match k with
  | 0 => lim 100 500000
  | 1 => lim 0 60000
  | 2 => lim (-30000) 30000
  | 3 => lim 0 2000000
  | 4 => lim 100 100000
  | _ => (w32 (wrapI 32 v), false)

/-- Start the next measurement that can be made and fits; the skipped ones take their status (R183). -/
def vergePick (p : Nat) (s : State) : List Nat → Verge → Verge
  | [], v => { v with todo := [], current := none }
  | k :: t, v =>
    if ¬ measurable p k s then vergePick p s t { v with status := sset 0 k 3 v.status }
    else if (measureNs k : Int) + 20000 ≤ diff32 v.endNs v.nextNs then
      let v := { v with todo := t, current := some k, currentEnergy := false }
      if k = 5 then { v with tdrWord := rg FPA_VRG_TDR p s, cfgWord := rg FPA_VRG_CFG p s } else v
    else vergePick p s t (if v.retrying then v else { v with status := sset 0 k 2 v.status })

/-- Go on to the next measurement, or to the one retry of each disturbed one (R185). -/
def vergeNext (p : Nat) (s : State) (v : Verge) : Verge :=
  let v := vergePick p s v.todo v
  if v.current.isNone ∧ ¬ v.retrying then
    let again := (List.range 6).filter fun k => sget 0 k v.status = 1
    vergePick p s again { v with retrying := true }
  else v

/-! ### Requests and starts (R179-R182) -/

def refuseVerge (p : Nat) (s : State) : State := setCause FPA_CAUSE p 3 (bump FPA_VRG_SKIP p 31 22 s)

/-- A deferring window is skipped (R181). -/
def skipVerge (p : Nat) (s : State) : State :=
  setCause FPA_CAUSE p 3 (bump FPA_VRG_SKIP p 21 11 (setVerge p {} s))

/-- The window starts: the line is released, the event pulses and settling begins (R181, R182). -/
def startVerge (p : Nat) (forced : Bool) (s : State) : State :=
  let v := verge p s
  let t := now s
  let todo := (List.range 6).filter fun k => bit v.mask k
  let status := (List.range 6).foldl (fun m k => if bit v.mask k then m else sset 0 k 5 m) []
  let v := { v with state := .active, start := t, endNs := if v.software then t + w32 (v.durationUs * 1000) else v.endNs,
                    deferred := decide (t ≠ v.requested), forced := forced, todo := todo, status := status,
                    nextNs := t + 20000, tdrWord := rg FPA_VRG_TDR p s, cfgWord := rg FPA_VRG_CFG p s }
  let s := setVerge p (vergeNext p s v) s
  let s := onlyIf (!v.software) (fun s => setGateRun p { gateRun p s with vergeFrom := some t } s) s
  let s := pulseSource (.port p 2) s
  let s := onlyIf forced (bump FPA_VRG_SKIP p 10 0) s
  onlyIf (forced && decide (portMode p s = 0)) (setLink p false) s

/-- A request for a window of `ns` nanoseconds, which a gate-list entry ends at `endNs`, or is `expected` to (R179-R182).
Answers whether it was accepted. -/
def requestVerge (p ns : Nat) (endNs : Word) (expected : Bool) (mask : BitVec 6) (software : Bool) (s : State) :
    State × Bool :=
  if ns < 100000 ∨ 10000000 < ns ∨ ¬ portOn p s ∨ (verge p s).state ≠ .none
      ∨ (¬ quietExists p s ∧ ¬ vergeForce p s) then (refuseVerge p s, false)
  else
    let s := setVerge p { state := .deferring, software := software, mask := mask, requested := now s,
                          durationUs := ns / 1000, endNs := endNs, expected := expected } s
    let s := onlyIf (decide (portMode p s = 0)) (setRgF FPA_PORT_STAT p 14 14 1) s
    (onlyIf (!quietExists p s) (startVerge p true) s, true)

/-! ### Records (R184, R186) -/

/-- Distance of a TDR point in metres (R184). -/
def tdrDistance (w : Word) (k : Nat) : Nat := tdrStart w + k * tdrStep w

/-- Points at or below 1,000 m (R184). -/
def pointsValid (w : Word) : Nat := ((List.range 256).filter fun k => tdrDistance w k ≤ 1000).length

/-- The status word of a record (R186). -/
def vergeStatus (v : Verge) : Nat :=
  (List.range 6).foldl (fun n k => n + sget 0 k v.status * 2 ^ (3 * k)) 0 + v.retried.toNat * 2 ^ 18

/-- The 1,024 bytes of a record (R186). -/
def vergeRecord (count : Nat) (v : Verge) : Bytes :=
  let val (k : Nat) : Nat := (sget 0 k v.values).toNat
  let head := leBytes 4 v.start.toNat ++ leBytes 2 (sub32 v.endNs v.start / 1000) ++ leBytes 1 (b2n v.software)
    ++ leBytes 1 (b2n v.deferred + 2 * b2n v.forced + 4 * b2n v.aborted + 8 * b2n v.energy)
    ++ leBytes 4 count ++ leBytes 4 (vergeStatus v)
  let body := leBytes 2 (val 1) ++ leBytes 2 (val 2) ++ leBytes 4 (val 3) ++ leBytes 4 (val 4) ++ leBytes 4 (val 0)
    ++ leBytes 2 (tdrStart v.tdrWord) ++ leBytes 1 (tdrStep v.tdrWord) ++ [0] ++ leBytes 2 (fld v.cfgWord 15 0)
    ++ leBytes 2 (pointsValid v.tdrWord) ++ zeros 24
  padTo 1024 (head ++ body ++ v.profile.flatMap fun x => leBytes 2 x.toNat)

/-- Address of a port's verge record (R186). -/
def vergeAddr (p : Nat) (s : State) : Nat := base40 FPA_VRG_BASE_LO FPA_VRG_BASE_HI 0 s + p * 1024

/-- The window ends: the record is written and counted, the event pulses, the port goes on (R182, R185, R186). A T1L port
stays in LPI until it has a frame to send. -/
def closeVerge (p : Nat) (v : Verge) (ans : MemAnswer) (s : State) : State :=
  let a := vergeAddr p s
  let v := { v with energy := v.energy || (v.current.isSome && v.currentEnergy) }
  let disturbed := (List.range 6).any fun k => decide (sget 0 k v.status = 1)
  let s := setVerge p {} s
  let s := onlyIf disturbed (fun s => setCause FPA_CAUSE p 2 (bump FPA_VRG_CNT p 15 0 s)) s
  let s :=
    if ¬ canReach .unit true a 1024 s then s
    else if ¬ memGood (answer a ans s) then noteAnswer a (answer a ans s) s
    else
      let n := (portRun p s).records + 1
      let s := setPortRun p { portRun p s with records := n } (noteAnswer a (answer a ans s) s)
      wrBytes a (vergeRecord n.toNat v) (bump FPA_VRG_CNT p 31 16 s)
  pulseSource (.port p 3) s

/-- Measurement stops at once: unfinished measurements are aborted and the record is written (R187). -/
def abortVerge (p : Nat) (ans : MemAnswer) (s : State) : State :=
  let v := verge p s
  match v.state with
  | .none => s
  | .deferring => setVerge p {} s
  | .active =>
    let left := match v.current with
      | some k => if v.retrying then v.todo else k :: v.todo
      | none => v.todo
    let st := if v.retrying then v.status else left.foldl (fun m k => sset 0 k 6 m) v.status
    closeVerge p { v with aborted := true, endNs := now s, status := st } ans s

/-- An active window ends now: measurements still to run are short, and one that the fitting cannot make is not available
(R182, R183). -/
def endVerge (p : Nat) (ans : MemAnswer) (s : State) : State :=
  let v := verge p s
  let left := match v.current with
    | some k => k :: v.todo
    | none => v.todo
  let st := if v.retrying then v.status else left.foldl (fun m k => sset 0 k (if measurable p k s then 2 else 3) m) v.status
  closeVerge p { v with status := st, endNs := now s } ans s

/-- The gate-list entry that opened a window ends: a deferring window is skipped, an active one ends with it (R182, R187). -/
def entryEndsVerge (p : Nat) (ans : MemAnswer) (s : State) : State :=
  let v := verge p s
  if v.software then s
  else
    match v.state with
    | .none => s
    | .deferring => skipVerge p s
    | .active => endVerge p ans s

/-! ### Commands -/

/-- A write of FPA_VRG_CTRL: its fields, then abort and go (R179, R187). -/
def vergeCtrlWrite (path : Nat) (value : Word) (s : State) : State :=
  atInst path FPA_VRG_CTRL (fun p s =>
    let s := setRg FPA_VRG_CTRL p (value &&& 0x3F3FFF) s
    let s := onlyIf (bit value 30) (abortVerge p .ok) s
    onlyIf (bit value 31)
      (fun s =>
        let ns := rgF FPA_VRG_CTRL p 13 0 s * 1000
        (requestVerge p ns (now s + w32 ns) false (BitVec.ofNat 6 (rgF FPA_VRG_CTRL p 21 16 s)) true s).1)
      s) s

/-- VERGE_GO (R179). -/
def execVergeGo (path : Path) (value : Word) (s : State) : Out := .next (vergeCtrlWrite path value s)

/-- VERGE_ABORT (R187). -/
def execVergeAbort (path : Path) (value : Word) (s : State) : Out := .next (vergeCtrlWrite path value s)

/-- The end of a deferring window that an entry on clock lengths opened has come. An entry that a step or a road ends takes
its window with it when it does (R181, R182). -/
def endPassed (v : Verge) (s : State) : Bool := !v.software && !v.expected && decide (0 ≤ diff32 (now s) v.endNs)

/-- VERGE_WINDOW_START (R181): `quiet` says that the line shows the port's quiet condition, beside what the block knows of
it. -/
def vergeWindowStart (p : Nat) (quiet : Bool) (s : State) : State :=
  let v := verge p s
  let met := quiet && lineQuiet p s && quietExists p s
  let waited := sub32 (now s) v.requested
  if v.state ≠ .deferring ∨ endPassed v s then s
  else if met ∧ waited ≤ deferNs p s then startVerge p false s
  else if vergeForce p s ∧ deferNs p s ≤ waited then startVerge p true s
  else s
def execVergeWindowStart (port : FieldPort) (quiet : Bool) (s : State) : Out := .next (vergeWindowStart port quiet s)

/-- VERGE_SKIPPED (R181). -/
def vergeSkipped (p : Nat) (s : State) : State :=
  let v := verge p s
  let waited := sub32 (now s) v.requested
  if v.state = .deferring ∧ (endPassed v s ∨ (deferNs p s ≤ waited ∧ ¬ vergeForce p s)) then skipVerge p s else s
def execVergeSkipped (port : FieldPort) (s : State) : Out := .next (vergeSkipped port s)

/-- A TDR profile as reported: points beyond 1,000 m read 0 (R184). -/
def reportedProfile (w : Word) (xs : List (BitVec 16)) : List (BitVec 16) :=
  (List.range 256).map fun k => if tdrDistance w k ≤ 1000 then xs.getD k 0 else 0

/-- VERGE_MEASUREMENT_DONE (R183-R185). -/
def vergeMeasurementDone (p : Nat) (value : Word) (overrange energy : Bool) (profile : List (BitVec 16)) (s : State) :
    State :=
  let v := verge p s
  match v.current with
  | none => s
  | some k =>
    if v.state ≠ .active ∨ diff32 (now s) v.nextNs < measureNs k then s
    else
      let c := clampResult k (scaledResult p k value s)
      let e := energy || v.currentEnergy
      let st := if e then 1 else if overrange || c.2 then 4 else 0
      let v := { v with status := sset 0 k st v.status, values := sset 0 k c.1 v.values, energy := v.energy || e,
                        retried := if v.retrying then v.retried ||| BitVec.ofNat 6 (2 ^ k) else v.retried,
                        profile := if k = 5 then reportedProfile v.tdrWord profile else v.profile,
                        nextNs := v.nextNs + w32 (measureNs k), current := none }
      setVerge p (vergeNext p s v) s
def execVergeMeasurementDone (port : FieldPort) (value : Word) (overrange energy : Bool) (profile : List (BitVec 16))
    (s : State) : Out := .next (vergeMeasurementDone port value overrange energy profile s)

/-- VERGE_WINDOW_END (R182): a software window ends after its duration; a gate-list window ends with its entry, here when
the entry is no longer in force. -/
def vergeWindowEnd (p : Nat) (ans : MemAnswer) (s : State) : State :=
  let v := verge p s
  if v.state = .active ∧ (if v.software then 0 ≤ diff32 (now s) v.endNs else (gateRun p s).vergeFrom.isNone) then
    endVerge p ans s
  else s
def execVergeWindowEnd (port : FieldPort) (ans : MemAnswer) (s : State) : Out := .next (vergeWindowEnd port ans s)

end Sys2Proof.Machine
end

