-- ==== Sys2Proof/Machine/Gates.lean ====
section
/-! DEFINITION. Trigger frames (R77) and gate lists (R246-R254). -/

set_option Elab.async false

namespace Sys2Proof.Machine

open Sys2Proof

/-! ### Trigger frames (R77) -/

/-- Address of a trigger slot. -/
def trigAddr (slot : Nat) (s : State) : Nat := base40 MST_TRIG_BASE_LO MST_TRIG_BASE_HI 0 s + slot * 256

/-- Inject a trigger slot's frame from switch port 198, or refuse it. -/
def triggerFrame (slot : Nat) (ans : MemAnswer) (s : State) : State :=
  let a := trigAddr slot s
  if ¬ canReach .unit true a 256 s then refuseAction s
  else if ¬ memGood (answer a ans s) then refuseAction (noteAnswer a (answer a ans s) s)
  else
    let s := noteAnswer a (answer a ans s) s
    let b := rdBytes a 256 s
    let l := leAt b 0 2
    let port := leAt b 2 1
    let cls := leAt b 3 1
    if l < 60 ∨ 248 < l ∨ 131 < port ∨ 7 < cls ∨ leAt b 4 4 ≠ 0 then refuseAction s
    else
      let r := internalOffer (newFrame (slice b 8 l) 198 cls s) port s
      if r.2 then r.1 else refuseAction r.1

/-! ### Entries (R246) -/

/-- Milepost ns with the wraps of extended time above it (R30): the clock on which lists run. -/
def nowX (s : State) : BitVec 64 := s.mp.extWraps ++ now s

/-- A length of up to 2^64 ns. -/
def w64 (n : Nat) : BitVec 64 := BitVec.ofNat 64 n

/-- Signed distance from `b` to `a` in extended ns. -/
def diff64 (a b : BitVec 64) : Int := (a - b).toInt

/-- The low word of an extended time: Milepost ns. -/
def lowNs (t : BitVec 64) : Word := BitVec.ofNat 32 t.toNat

abbrev formNone : Nat := 0
abbrev formClock : Nat := 1
abbrev formRoad : Nat := 2
abbrev formStepped : Nat := 3

/-- The two words of an entry. -/
def entryInterval (e : BitVec 64) : Nat := fld e 31 0
def entryGates (e : BitVec 64) : Nat := fld e 39 32
def entryKind (e : BitVec 64) : Nat := fld e 41 40
def entryMask (e : BitVec 64) : BitVec 6 := BitVec.ofNat 6 (fld e 47 42)
def entrySlot (e : BitVec 64) : Nat := fld e 59 48

def GateList.entry (g : GateList) (i : Nat) : BitVec 64 := g.entries.getD i 0

/-- Open classes of an entry; a verge entry closes every class (R253). -/
def openMask (e : BitVec 64) : BitVec 8 := if entryKind e = 1 then 0 else BitVec.ofNat 8 (entryGates e)

/-- The gates in force: open with no list (R246). -/
def gatesNow (g : GateRun) : BitVec 8 := if g.oper.form = formNone then 255 else openMask (g.oper.entry g.entry)

/-- The list runs on clock lengths: clock form, or road form in fallback (R249). -/
def onClock (g : GateRun) : Bool := g.oper.form == formClock || (g.oper.form == formRoad && g.fallback)

/-- Length of an interval in the list's terms: its clock length in fallback (R249). -/
def intervalLen (g : GateRun) (i : Nat) : Nat :=
  let w := entryInterval (g.oper.entry i)
  if g.oper.form = formRoad ∧ g.fallback then w * g.oper.fallbackNs / 2 ^ 32 else w

/-- Length of a cycle in the list's terms (R247, R249). -/
def cycleLen (g : GateRun) : Nat :=
  let c := g.oper.cycle.toNat
  if g.oper.form = formRoad then
    if g.fallback then c / 2 ^ 32 * g.oper.fallbackNs + c % 2 ^ 32 * g.oper.fallbackNs / 2 ^ 32 else c
  else c % 2 ^ 32

/-- Sum of the lengths of entries 0 to i - 1. -/
def lenBefore (g : GateRun) (i : Nat) : Nat := (List.range i).foldl (fun n j => n + intervalLen g j) 0

/-- Offset of the end of an entry from the cycle start (R247): the last entry holds until the cycle ends, and the cycle
end cuts the entry in force. -/
def endOffset (g : GateRun) (i : Nat) : Nat :=
  if g.oper.entries.length ≤ i + 1 then cycleLen g else min (cycleLen g) (lenBefore g (i + 1))

/-- Scheduled length of entry i of a list on clock lengths. -/
def entryLen (g : GateRun) (i : Nat) : Nat := endOffset g i - lenBefore g i

/-- Position of the end boundary of the entry in force, in road form. -/
def endPosition (g : GateRun) : BitVec 48 := g.cycleStart + BitVec.ofNat 48 (endOffset { g with fallback := false } g.entry)

/-- Whether a service holds a copy or a suspended remainder (R254). -/
def serviceHolds (p c : Nat) (s : State) : Bool :=
  !(jqueue p c s).isEmpty || (match sget none p s.tpk.suspended with
    | some x => decide (x.cls = c)
    | none => false)

/-- Count the windows that a change of gates closes (R254); a switch-over ends every run. -/
def closeWindows (p : Nat) (before after : BitVec 8) (switch : Bool) (s : State) : State :=
  forEach (List.range 8)
    (fun c s =>
      if bit before c ∧ (switch ∨ ¬ bit after c) ∧ serviceHolds p c s then
        setCause TPK_CAUSE2 0 c (bump TPK_S_LATE (p * 8 + c) 31 0 s)
      else s) s

/-- The latest end time of the entry in force (R248): time(x) of its end. -/
def gateEndTime (g : GateRun) (s : State) : Option Word :=
  let w := roadWhen g.oper.road (endPosition g) s
  if w.1 = whenOk ∨ w.1 = whenNotConverged then some w.2 else none

/-- The entry after entry `i`, and whether a new cycle begins. -/
def nextOf (g : GateRun) (i : Nat) : Nat × Bool :=
  if g.oper.entries.length ≤ i + 1 ∨ cycleLen g ≤ lenBefore g (i + 1) then (0, true) else (i + 1, false)

/-- Offset from the cycle start at which the run of entries with class c open closes (R254); none: open in every entry. -/
def runEnd (g : GateRun) (c : Nat) : Nat → Nat → Nat → Option Nat
  | 0, _, _ => none
  | k + 1, i, cyc =>
    let n := nextOf g i
    let e := cyc * cycleLen g + endOffset g i
    if bit (openMask (g.oper.entry n.1)) c then runEnd g c k n.1 (if n.2 then cyc + 1 else cyc) else some e

/-- The close of class c's window from the entry in force. -/
def windowClose (g : GateRun) (c : Nat) : Option Nat := runEnd g c g.oper.entries.length g.entry 0

/-- time(x) of the window closes of a road list, class by class (R248); an unlimited window has status ok and time 0. -/
def evalWindows (g : GateRun) (s : State) : List (Nat × Word) :=
  if g.oper.form = formRoad ∧ ¬ g.fallback then
    (List.range 8).map fun c => match windowClose g c with
      | some o => roadWhen g.oper.road (g.cycleStart + BitVec.ofNat 48 o) s
      | none => (whenOk, 0)
  else []

/-- Length and end of the verge window that the entry in force requests (R253): its scheduled length on the clock, or the
rest of it when a Milepost step starts it part way (R247). -/
def vergeSpan (g : GateRun) (partWay : Bool) : Nat × Word :=
  let t := lowNs g.start
  if g.oper.form = formStepped then
    let n := entryInterval (g.oper.entry g.entry)
    (n, t + w32 n)
  else if onClock g then
    (if partWay then (g.clockEnd - g.start).toNat else entryLen g g.entry, lowNs g.clockEnd)
  else match g.endTime with
    | some e => (sub32 e t, e)
    | none => (0, t)

/-- Start an entry whose place in the list has been set: gates, lateness, verge request, trigger (R246, R253, R254). The
entry before ends the verge window that it opened (R182). -/
def startEntry (p : Nat) (before : BitVec 8) (switch partWay : Bool) (ans : MemAnswer) (s : State) : State :=
  let s := entryEndsVerge p ans s
  let g := gateRun p s
  let opened (c : Nat) : Bool := bit (gatesNow g) c && (switch || !bit before c)
  let vel := (si (road g.oper.road s).pubRate).natAbs
  let g := { g with stretched := false, vergeFrom := none,
                    openVel := (List.range 8).foldl (fun m c => if opened c then sset 0 c vel m else m) g.openVel,
                    endTime := if g.oper.form = formRoad ∧ ¬ g.fallback then gateEndTime g s else none,
                    windowEnds := evalWindows g s }
  let s := setGateRun p g s
  let s := closeWindows p before (gatesNow g) switch s
  let e := g.oper.entry g.entry
  if g.oper.form = formNone then s
  else if entryKind e = 1 then
    let v := vergeSpan g partWay
    (requestVerge p v.1 v.2 (!onClock g) (entryMask e) false s).1
  else if entryKind e = 2 then triggerFrame (entrySlot e) ans s
  else s

/-- Put entry `i` of the cycle that starts at `cs` ns in force at `t`, on clock lengths. -/
def placeClock (g : GateRun) (i : Nat) (cs t : BitVec 64) : GateRun :=
  { g with entry := i, start := t, cycleNs := cs, clockEnd := cs + w64 (endOffset g i) }

/-- Put entry `i` of the cycle that starts at position `x` in force at `t`, in road form. -/
def placeRoad (g : GateRun) (i : Nat) (x : BitVec 48) (t : BitVec 64) : GateRun :=
  { g with entry := i, start := t, cycleStart := x, fallback := false, rejoining := false, leaving := none }

/-- Extended ns of the next TCLK edge. -/
def nextEdgeNs (s : State) : BitVec 64 :=
  w64 ((s.mp.extWraps.toNat * 2 ^ 64 + s.mp.counter.toNat + (rg MPT_INCR_INT 0 s).toNat % 256 * 2 ^ 32
    + (rg MPT_INCR_FRAC 0 s).toNat) / 2 ^ 32)

/-- A list on its road goes over to clock lengths (R249): the entry in force ends at its start plus its clock length, or on
the next edge if that time has passed. -/
def toFallback (g : GateRun) (s : State) : GateRun :=
  let g := { g with fallback := true, rejoining := false, endTime := none, windowEnds := [] }
  let g := placeClock g g.entry (g.start - w64 (lenBefore g g.entry)) g.start
  { g with clockEnd := if diff64 (nowX s) g.clockEnd ≤ 0 then g.clockEnd else nextEdgeNs s }

/-- The entry after the one in force, and whether a new cycle begins. -/
def nextEntry (g : GateRun) : Nat × Bool := nextOf g g.entry

/-- min_ns of the entry in force has passed (R248). -/
def minPassed (g : GateRun) (s : State) : Bool := decide ((g.oper.minNs : Int) ≤ diff64 (nowX s) g.start)

/-- The cycle boundary that the road crosses forward on this edge, if any (R249). -/
def crossedBoundary (g : GateRun) (r : Road) : Option (BitVec 48) :=
  let c := max 1 g.oper.cycle.toNat
  let off := (r.prev - g.oper.base).toNat
  let x := g.oper.base + BitVec.ofNat 48 ((off / c + 1) * c)
  let d := dist48 r.prev r.pub
  if 0 < d ∧ 0 < dist48 r.prev x ∧ dist48 r.prev x ≤ d then some x else none

/-- Fallback begins (R249, R259): a list that was about to rejoin its road runs on on the clock. `late`: a boundary that
the road crosses on this edge still ends its entry. -/
def gateFallback (late : Bool) (p : Nat) (s : State) : State :=
  let g := gateRun p s
  if g.oper.form ≠ formRoad then s
  else
    let g := if g.fallback then { g with rejoining := false }
      else { toFallback g s with leaving := if late then some s.mp.tclk else none }
    setCause TPK_CAUSE 0 0 (setGateRun p g s)

/-- The lists that follow a road. -/
def listsOf (n : Nat) (s : State) : List Nat :=
  (skeys s.tpk.gates).filter fun p => (gateRun p s).oper.form = formRoad ∧ (gateRun p s).oper.road = n

/-- A road leaves TRACKING for a state (R249). -/
def roadLeavesTracking (new : RoadState) (n : Nat) (s : State) : State :=
  forEach (listsOf n s) (gateFallback (decide (new = .coasting ∨ new = .held))) s

/-- An observation of a road is applied: time(x) of each window end is evaluated again (R248). -/
def refreshEndTimes (n : Nat) (s : State) : State :=
  forEach (listsOf n s) (fun p s =>
    let g := gateRun p s
    if g.fallback then s else setGateRun p { g with endTime := gateEndTime g s, windowEnds := evalWindows g s } s) s

/-- The list that the end boundary of the entry in force leaves, on the road (R248). -/
def nextOnRoad (g : GateRun) (t : BitVec 64) : GateRun :=
  let n := nextEntry { g with fallback := false }
  placeRoad g n.1 (if n.2 then g.cycleStart + g.oper.cycle else g.cycleStart) t

/-- The boundary of a list that follows its road (R248). -/
def roadBoundary (p : Nat) (ans : MemAnswer) (s : State) : State :=
  let g := gateRun p s
  if ¬ (g.stretched ∨ 0 ≤ dist48 (endPosition g) (road g.oper.road s).pub) then s
  else if ¬ minPassed g s then
    if g.stretched then s
    else setCause TPK_CAUSE 0 2 (bump TPK_P_CNT p 31 16 (setGateRun p { g with stretched := true } s))
  else startEntry p (gatesNow g) false false ans (setGateRun p (nextOnRoad g (nowX s)) s)

/-- The boundary of a list in fallback: of its clock, or the cycle boundary of its road, TRACKING again (R249). A boundary
that the road crosses on the edge on which it enters COASTING or HELD ends the entry first (R259). -/
def fallbackBoundary (p : Nat) (ans : MemAnswer) (s : State) : State :=
  let g := gateRun p s
  let r := road g.oper.road s
  let t := nowX s
  let start (g' : GateRun) (s : State) : State := startEntry p (gatesNow g) false false ans (setGateRun p g' s)
  if g.leaving = some s.mp.tclk ∧ 0 ≤ dist48 (endPosition g) r.pub ∧ minPassed g s then
    start (toFallback (nextOnRoad g t) s) s
  else
    let x := if r.state = .tracking then crossedBoundary g r else none
    let g := match x with
      | some y => { g with rejoining := true, cycleStart := if g.rejoining then g.cycleStart else y }
      | none => g
    if g.rejoining then
      if minPassed g s then setCause TPK_CAUSE 0 1 (start (placeRoad g 0 g.cycleStart t) s) else setGateRun p g s
    else if diff64 t g.clockEnd < 0 ∨ ¬ minPassed g s then s
    else
      let n := nextEntry g
      let soonest := g.start + w64 g.oper.minNs
      let e := if diff64 g.clockEnd soonest < 0 then soonest else g.clockEnd
      start (placeClock g n.1 (if n.2 then e else e - w64 (lenBefore g n.1)) e) s

/-- The boundary of a clock list (R247). -/
def clockBoundary (p : Nat) (ans : MemAnswer) (s : State) : State :=
  let g := gateRun p s
  if diff64 (nowX s) g.clockEnd < 0 then s
  else
    let n := nextEntry g
    startEntry p (gatesNow g) false false ans
      (setGateRun p (placeClock g n.1 (if n.2 then g.cycleNs + w64 (cycleLen g) else g.cycleNs) (nowX s)) s)

/-- The entry in force of a clock or road list ends on this edge (R247-R249). -/
def boundaryDue (p : Nat) (s : State) : Bool :=
  let g := gateRun p s
  let r := road g.oper.road s
  let past := decide (0 ≤ diff64 (nowX s) g.clockEnd)
  let reached := decide (0 ≤ dist48 (endPosition g) r.pub)
  if g.oper.form = formClock then past
  else if g.oper.form = formRoad then
    minPassed g s &&
      (if g.fallback then
        past || g.rejoining || (g.leaving == some s.mp.tclk && reached)
          || (decide (r.state = .tracking) && (crossedBoundary g r).isSome)
       else g.stretched || reached)
  else false

/-! ### Steps of a stepped list (R250) -/

/-- Advance a stepped list to its next entry at `t`. -/
def advanceStep (p : Nat) (t : BitVec 64) (ans : MemAnswer) (s : State) : State :=
  let g := gateRun p s
  let i := if g.oper.entries.length ≤ g.entry + 1 then 0 else g.entry + 1
  startEntry p (gatesNow g) false false ans (setGateRun p { g with entry := i, start := t, stepDeferred := false } s)

/-- A switch-over is pending (R251). -/
def gatePending (p : Nat) (s : State) : Bool := (gateRun p s).switchNs.isSome || (gateRun p s).switchPos.isSome

/-- The pending switch-over is due (R251). -/
def switchDue (p : Nat) (s : State) : Bool :=
  let g := gateRun p s
  (match g.switchNs with
    | some w => decide (0 ≤ diff32 (now s) w)
    | none => false)
  || (match g.switchPos with
    | some x =>
      let r := road (rgF TPK_GCL_CFG p 29 24 s) s
      decide (0 < dist48 r.prev r.pub) && decide (0 < dist48 r.prev x) && decide (dist48 r.prev x ≤ dist48 r.prev r.pub)
    | none => false)

/-- A step request by milestone action 5 (R250): it takes effect on the edge after the firing edge. The list holds one
deferred step: a further one is refused while there is one, or while the step of this edge is to be deferred. -/
def gateStep (p : Nat) (ans : MemAnswer) (s : State) : State :=
  let g := gateRun p s
  if g.oper.form ≠ formStepped ∨ 131 < p ∨ inReset 197 s ∨ g.stepDeferred then refuseAction s
  else if g.stepDue.isNone then setGateRun p { g with stepDue := some ans } s
  else if (g.oper.minNs : Int) ≤ diff64 (nextEdgeNs s) g.start then setGateRun p { g with stepDeferred := true } s
  else refuseAction s

/-- The step of the edge before takes effect, or is deferred while min_ns has not passed (R250). It waits likewise while a
switch-over of the edge may end the list first (R259). -/
def takeDueStep (p : Nat) (s : State) : State :=
  let g := gateRun p s
  match g.stepDue with
  | none => s
  | some ans =>
    let s := setGateRun p { g with stepDue := none } s
    if minPassed g s ∧ ¬ switchDue p s ∧ g.switchPos.isNone then
      let s := advanceStep p (nowX s) ans s
      setGateRun p { gateRun p s with stepDeferred := g.stepDeferred } s
    else setGateRun p { g with stepDue := none, stepDeferred := true } s

/-- The steps of every list, on a TCLK edge. -/
def takeDueSteps (s : State) : State := forEach (skeys s.tpk.gates) takeDueStep s

/-- A deferred step takes effect on this edge (R250). -/
def stepReady (p : Nat) (s : State) : Bool :=
  let g := gateRun p s
  decide (g.oper.form = formStepped) && g.stepDeferred && minPassed g s

/-- GATE_STEP_DEFERRED (R250, R259). -/
def gateStepDeferred (p : Nat) (ans : MemAnswer) (s : State) : State :=
  if stepReady p s ∧ ¬ switchDue p s then advanceStep p (nowX s) ans s else s
def execGateStepDeferred (port : ExtPort) (ans : MemAnswer) (s : State) : Out := .next (gateStepDeferred port ans s)

/-- A verge entry of a stepped list has been in force for 10,000 us from the start of its window (R250). -/
def autostepDue (p : Nat) (s : State) : Bool :=
  let g := gateRun p s
  decide (g.oper.form = formStepped) && entryKind (g.oper.entry g.entry) == 1
    && g.vergeFrom.any fun t => decide (10000000 ≤ sub32 (now s) t)

/-- VERGE_AUTOSTEP (R250, R259). -/
def vergeAutostep (p : Nat) (ans : MemAnswer) (s : State) : State :=
  if autostepDue p s ∧ ¬ switchDue p s then
    setCause TPK_CAUSE 0 5 (bump TPK_P_CNT p 7 0 (advanceStep p (nowX s) ans s))
  else s
def execVergeAutostep (port : ExtPort) (ans : MemAnswer) (s : State) : Out := .next (vergeAutostep port ans s)

/-- The schedule of a port changes on this edge: a choice of the MAC waits for it (R259). -/
def scheduleDue (p : Nat) (s : State) : Bool := switchDue p s || boundaryDue p s || stepReady p s || autostepDue p s

/-! ### Commit and switch-over (R251, R252) -/

/-- The admin entry i of a port. -/
def adminEntry (p i : Nat) (s : State) : BitVec 64 := sget 0 (p * 256 + i) s.tpk.admin

def gclForm (p : Nat) (s : State) : Nat := rgF TPK_GCL_CFG p 31 30 s
def gclCount (p : Nat) (s : State) : Nat := rgF TPK_GCL_CFG p 8 0 s
def gclMin (p : Nat) (s : State) : Nat := max 8 (rgF TPK_GCL_MIN p 15 0 s)
def gclBase (p : Nat) (s : State) : BitVec 48 :=
  BitVec.ofNat 48 (rgF TPK_GCL_BASE_HI p 15 0 s * 2 ^ 32 + (rg TPK_GCL_BASE_LO p s).toNat)
def gclCycle (p : Nat) (s : State) : BitVec 48 :=
  BitVec.ofNat 48 (rgF TPK_GCL_CYC_HI p 15 0 s * 2 ^ 32 + (rg TPK_GCL_CYC_LO p s).toNat)

/-- The admin copy as a list. -/
def adminList (p : Nat) (s : State) : GateList :=
  { form := gclForm p s, road := rgF TPK_GCL_CFG p 29 24 s, base := gclBase p s, cycle := gclCycle p s,
    fallbackNs := (rg TPK_GCL_FALLBACK p s).toNat, minNs := gclMin p s, count := gclCount p s,
    entries := (List.range (min 256 (gclCount p s))).map fun i => adminEntry p i s }

/-- A list that R252 refuses: its form, count, entries, cycle and fallback_ns. -/
def gateListBad (form count fallback minNs cycle : Nat) (trunk : Bool) (entries : List (BitVec 64)) : Bool :=
  form != formNone &&
    (decide (count = 0) || decide (256 < count)
      || entries.any (fun e => entryKind e == 3 || decide (fld e 63 60 ≠ 0) || (trunk && entryKind e == 1))
      || (form == formClock && (entries.any (fun e => decide (entryInterval e < minNs))
            || decide (cycle % 2 ^ 32 < 2000) || decide (2000000000 < cycle % 2 ^ 32)))
      || (form == formRoad && (entries.any (fun e => decide (entryInterval e = 0)) || decide (cycle = 0)
            || decide (0x7FFFFFFFFFFF < cycle)))
      || decide (fallback < 2000) || decide (4000000000 < fallback))

/-- First position b + n * C, n from `n0`, ahead of `pub` by more than `lead` (R251). -/
def firstAhead (b : BitVec 48) (c : Nat) (pub : BitVec 48) (lead : Nat) : BitVec 48 :=
  -- the least n >= 1 with distance above `lead`, counting cycles from b behind or ahead of the position
  let d := dist48 pub b
  let n := max 1 (((lead : Int) - d) / (c : Int) + 1)
  b + BitVec.ofNat 48 (n.toNat * c)

/-- Commit the admin copy (R251). -/
def commitGates (p : Nat) (s : State) : State :=
  let l := adminList p s
  let g := gateRun p s
  if gatePending p s ∨ gateListBad l.form (gclCount p s) l.fallbackNs l.minNs l.cycle.toNat (decide (128 ≤ p)) l.entries
  then setCause TPK_CAUSE 0 4 (bump TPK_P_CNT p 15 8 s)
  else
    let t := now s
    let soon := t + 2000
    let r := road l.road s
    let atTime (w : Word) : State := setGateRun p { g with switchNs := some w } s
    if l.form = formClock then
      let base : Word := BitVec.ofNat 32 l.base.toNat
      let d := sub32 base t
      if 2000 ≤ d ∧ d < 2 ^ 31 then atTime base
      else
        let c := l.cycle.toNat % 2 ^ 32
        let back := if d = 0 then 0 else if 2 ^ 31 ≤ d then 2 ^ 32 - d else 0
        let ahead := if d < 2 ^ 31 then d else 0
        -- base + n * cycle lies 2,000 ns or more after t
        let n := max 1 ((2000 + back - ahead + c - 1) / c)
        atTime (base + w32 (n * c))
    else if l.form = formRoad ∧ r.state = .tracking then
      let lead : Nat := 2000 * (si r.pubRate).natAbs / 2 ^ 16
      let x := if (lead : Int) < dist48 r.pub l.base then l.base
               else firstAhead l.base (max 1 l.cycle.toNat) r.pub lead
      setGateRun p { g with switchPos := some x } s
    else atTime soon

/-- TPK_GCL_SWITCH (R263): the time of the pending switch-over, or of the last one. A switch-over at a position is shown by
the latest time(x) of it. DESIGN CHOICE: while time(x) has none, the last switch-over stands. -/
def switchTime (p : Nat) (s : State) : Word :=
  let g := gateRun p s
  match g.switchNs, g.switchPos with
  | some w, _ => w
  | none, some x =>
    let w := roadWhen (rgF TPK_GCL_CFG p 29 24 s) x s
    if w.1 = whenOk ∨ w.1 = whenNotConverged then w.2 else rg TPK_GCL_SWITCH p s
  | none, none => rg TPK_GCL_SWITCH p s

/-- A step that a switch-over of its edge overtakes reaches the new list (R250, R259): entry 0 has just started, so it is
deferred; a list of another form refuses it (R79). DESIGN CHOICE: a step that the old list held deferred goes the same way. -/
def carryStep (p : Nat) (s : State) : State :=
  let g := gateRun p s
  if g.oper.form = formStepped then setGateRun p { g with stepDeferred := true } s else refuseAction s

/-- The admin copy comes into force and entry 0 starts (R251, R254). -/
def switchGates (p : Nat) (ans : MemAnswer) (s : State) : State :=
  let old := gateRun p s
  let l := adminList p s
  let t := nowX s
  let g : GateRun := { oper := l, start := t }
  let g :=
    if l.form = formClock then
      -- the cycle begins at the base that the commit fixed, which the edge has just passed
      placeClock g 0 (t - w64 (sub32 (now s) (old.switchNs.getD (now s)))) t
    else if l.form = formRoad then
      match old.switchPos with
      | some x => if (road l.road s).state = .tracking then placeRoad g 0 x t else placeClock { g with fallback := true } 0 t t
      | none => placeClock { g with fallback := true } 0 t t
    else g
  let s := setRg TPK_GCL_SWITCH p (now s) s
  let s := onlyIf (g.fallback) (setCause TPK_CAUSE 0 0) s
  let s := startEntry p (gatesNow old) true false ans (setGateRun p g s)
  if old.stepDue.isNone ∧ ¬ old.stepDeferred then s else carryStep p s

/-- GATE_SWITCH_OVER (R251). -/
def gateSwitchOver (p : Nat) (ans : MemAnswer) (s : State) : State :=
  if switchDue p s then switchGates p ans s else s
def execGateSwitchOver (port : ExtPort) (ans : MemAnswer) (s : State) : Out := .next (gateSwitchOver port ans s)

/-- A write of TPK_GCL_COMMIT: cancel clears a pending switch-over, unless that is due on the edge, and go commits
(R251, R259). -/
def gclCommitWrite (path : Nat) (value : Word) (s : State) : State :=
  atInst path TPK_GCL_COMMIT (fun p s =>
    let s := onlyIf (bit value 1 && !switchDue p s)
      (fun s => setGateRun p { gateRun p s with switchNs := none, switchPos := none } s) s
    onlyIf (bit value 0) (commitGates p) s) s

/-- TPK_GCL_COMMIT_GO (R251). -/
def execTpkGclCommitGo (path : Path) (value : Word) (s : State) : Out := .next (gclCommitWrite path value s)

/-- TPK_GCL_COMMIT_CANCEL (R251). -/
def execTpkGclCommitCancel (path : Path) (value : Word) (s : State) : Out := .next (gclCommitWrite path value s)

/-- GATE_ENTRY_START (R246-R249): the boundary of a clock or road list is reached. A switch-over that is due on the edge
goes before it (R259). -/
def gateEntryStart (p : Nat) (ans : MemAnswer) (s : State) : State :=
  let g := gateRun p s
  if switchDue p s then s
  else if g.oper.form = formClock then clockBoundary p ans s
  else if g.oper.form = formRoad then (if g.fallback then fallbackBoundary p ans s else roadBoundary p ans s)
  else s
def execGateEntryStart (port : ExtPort) (ans : MemAnswer) (s : State) : Out := .next (gateEntryStart port ans s)

/-! ### A Milepost step (R247) -/

/-- Walk a clock list's entries from the cycle start to the one in force at offset `o`. -/
def entryAt (g : GateRun) (o : Nat) : Nat :=
  let n := g.oper.entries.length
  match (List.range n).find? fun i => decide (o < endOffset g i) with
  | some i => i
  | none => n - 1

/-- A clock list placed where R247 places it now, the start of a cycle being at `cs`. -/
def placeNow (g : GateRun) (cs : BitVec 64) (s : State) : GateRun :=
  let o := (diff64 (nowX s) cs % (max 1 (cycleLen g) : Nat)).toNat
  placeClock g (entryAt g o) (nowX s - w64 o) (nowX s)

/-- What a list does on the edge of a Milepost step of `delta` ns (R247): a clock list restarts at the new value, a
list in fallback keeps the remaining length of its entry. -/
def gateMilepostStep (delta : BitVec 64) (p : Nat) (s : State) : State :=
  let g := gateRun p s
  if g.oper.form = formClock then
    startEntry p (gatesNow g) false true .ok (setGateRun p (placeNow g g.cycleNs s) s)
  else if g.oper.form = formRoad ∧ g.fallback then
    setGateRun p { g with clockEnd := g.clockEnd + delta, start := g.start + delta, cycleNs := g.cycleNs + delta } s
  else s

/-- The lists whose roads a Milepost step takes out of TRACKING (R57, cause 12) go over to clock lengths on the old counter,
so that what remains of their entry remains (R247, R249). -/
def gatesLoseRoads (s : State) : State :=
  forEach ((List.range 64).filter fun n => decide ((road n s).state = .tracking ∧ 2 ≤ roadKind n s))
    (roadLeavesTracking .acquiring) s

/-- Every list on a Milepost step. -/
def gatesMilepostStep (delta : BitVec 64) (s : State) : State := forEach (skeys s.tpk.gates) (gateMilepostStep delta) s

/-! ### The reload of function 197 (R260) -/

/-- The oper copy of a list as it is reloaded with the admin copy. DESIGN CHOICE: until its switch-over the list is in force
where R247 places a clock list, from entry 0 of a stepped list, and from entry 0 in fallback of a road list; no entry starts
by the reload itself, so no verge window is requested and no trigger frame injected. -/
def loadOper (p : Nat) (s : State) : State :=
  let l := adminList p s
  let t := nowX s
  let g : GateRun := { oper := l, start := t }
  let g :=
    if l.form = formClock then placeNow g (s.mp.extWraps ++ BitVec.ofNat 32 l.base.toNat) s
    else if l.form = formRoad then placeClock { g with fallback := true } 0 t t
    else g
  setGateRun p g s

end Sys2Proof.Machine
end

