-- ==== Sys2Proof/Machine/QueueBase.lean ====
section
/-! DEFINITION. Work queues: index blocks, prefetch, completions, errors, doorbells and shutdown (R287-R306). -/

set_option Elab.async false

namespace Sys2Proof.Machine

open Sys2Proof

/-- States of QMG_Q_STAT. -/
abbrev qDisabled : Nat := 0
abbrev qRunning : Nat := 1
abbrev qHolding : Nat := 2
abbrev qError : Nat := 3
abbrev qShutting : Nat := 4

def qState (q : Nat) (s : State) : Nat := rgF QMG_Q_STAT q 2 0 s
def setQState (q v : Nat) (s : State) : State := setRgF QMG_Q_STAT q 2 0 v s
def qKind (q : Nat) (s : State) : Nat := rgF QMG_Q_CFG q 21 20 s

/-- Ring sizes (R288): an exponent other than 4 to 16 is treated as 4. -/
def ringSize (e : Nat) : Nat := if 4 ≤ e ∧ e ≤ 16 then 2 ^ e else 16
def qSize (q : Nat) (s : State) : Nat := ringSize (rgF QMG_Q_CFG q 14 10 s)
def qCsize (q : Nat) (s : State) : Nat := ringSize (rgF QMG_Q_CFG q 19 15 s)

def qIndex (q : Nat) (s : State) : Nat := base40 QMG_Q_IDX_LO QMG_Q_IDX_HI q s
def qSlot (q : Nat) (i : Word) (s : State) : Nat :=
  base40 QMG_Q_RING_LO QMG_Q_RING_HI q s + i.toNat % qSize q s * 32
def qCslot (q : Nat) (i : Word) (s : State) : Nat :=
  base40 QMG_Q_CRING_LO QMG_Q_CRING_HI q s + i.toNat % qCsize q s * 32

/-- Stop a queue in the error state (R303, R304). -/
def qStop (q code : Nat) (idx : Word) (s : State) : State :=
  let s := setRgF QMG_Q_STAT q 18 16 code (setQState q qError s)
  setCause QMG_Q_CAUSE q (if code = 7 then 1 else 0) (setRg QMG_QERR q idx s)

/-- The completion ring is full (R302). -/
def cringFull (q : Nat) (s : State) : Bool :=
  decide (qCsize q s ≤ ((queueRun q s).cprod - (queueRun q s).ccons).toNat)

/-- The completion ring or the index block cannot be accessed: the queue stops and writes nothing further (R303, R304); one
that is shutting down ends disabled. -/
def ringFault (q code : Nat) (idx : Word) (s : State) : State :=
  let shutting := decide (qState q s = qShutting)
  let s := qStop q code idx (setQueueRun q { queueRun q s with mute := true } s)
  onlyIf shutting (fun s => setRgF QMG_Q_CFG q 31 31 0 (setQState q qDisabled s)) s

/-- The err_code of an access to `n` bytes at `a` that memory answers with `ans`; 0 for none. -/
def ringError (a n : Nat) (ans : MemAnswer) (s : State) : Nat :=
  if ¬ canReach .unit true a n s then 5 else if memGood (answer a ans s) then 0 else 7

/-- What an access of the queue manager records of its answer (R446, R453). -/
def noteAccess (a : Nat) (ans : MemAnswer) (s : State) : State := noteAnswer a (answer a ans s) s

/-- Write one completion to the ring, then cons and cprod in one 8-byte write (R288). -/
def writeCompletion (q : Nat) (x : QueueAnswers) (c : Completion) (s : State) : State :=
  let r := queueRun q s
  let a := qCslot q r.cprod s
  let k := max (ringError a 32 x.post s) (ringError (qIndex q s) 64 x.index s)
  let s := noteAccess (qIndex q s) x.index (noteAccess a x.post s)
  if k ≠ 0 then ringFault q k (c.cons - 1) s
  else
    let s := setQueueRun q { r with cprod := r.cprod + 1, cons := c.cons } (wrBytes a c.bytes s)
    wrBytes (qIndex q s + 4) (leBytes 4 c.cons.toNat ++ leBytes 4 (r.cprod + 1).toNat) s

/-- Write held completions in order as room appears, and resume (R302). -/
def drainHolding (q : Nat) (x : QueueAnswers) : Nat → State → State
  | 0, s => s
  | n + 1, s =>
    match (queueRun q s).holding with
    | [] => if qState q s = qHolding then setQState q qRunning s else s
    | c :: t =>
      if cringFull q s ∨ (queueRun q s).mute then s
      else
        let s := writeCompletion q x c (setQueueRun q { queueRun q s with holding := t } s)
        drainHolding q x n (if qState q s = qHolding then setQState q qRunning s else s)

/-- Post a completion: to the ring, or to the holding area while the ring is full (R302). A queue whose completion ring or
index block has failed posts nothing (R304). -/
def postCompletion (q : Nat) (x : QueueAnswers) (c : Completion) (s : State) : State :=
  if (queueRun q s).mute then s
  else if (queueRun q s).holding.isEmpty ∧ ¬ cringFull q s then writeCompletion q x c s
  else
    let s := setQueueRun q { queueRun q s with holding := (queueRun q s).holding ++ [c] } s
    let s := setCause QMG_Q_CAUSE q 2 s
    if 16 ≤ (queueRun q s).holding.length ∧ qState q s = qRunning then
      { setQState q qHolding s with wrrLeft := if s.wrrCur = q then 0 else s.wrrLeft }
    else s

/-- The bytes of a completion (R300). -/
def completionBytes (last : Word) (count status value length port cls : Nat) (cookie : Bytes) (time : Word) : Bytes :=
  leBytes 4 last.toNat ++ leBytes 2 count ++ leBytes 1 status ++ [0] ++ leBytes 4 value ++ leBytes 2 length
    ++ leBytes 1 port ++ leBytes 1 cls ++ slice cookie 0 8 ++ leBytes 4 time.toNat ++ [0, 0, 0, 0]

/-- Close an open batch that ends before index `upto`, with a status and its last entry's value; the completion covers it
(R300, R301). -/
def closeBatchAt (q : Nat) (x : QueueAnswers) (upto : Word) (status : Nat) (s : State) : State :=
  let r := queueRun q s
  if r.batch = 0 then s
  else
    let c : Completion :=
      { bytes := completionBytes (upto - 1) r.batch status r.batchValue 0 0 0 r.batchCookie r.batchTime, cons := upto }
    addRgF QMG_Q_CNT q 31 0 r.batch
      (postCompletion q x c (setQueueRun q { r with batch := 0, batchCookie := [], batchTime := 0, batchValue := 0 } s))

/-- Fetch entries ahead of the one to process, up to 8 in all, that were never prefetched (R292). DESIGN CHOICE: a fetch ahead
that memory does not serve leaves its entry to be read when it is processed. -/
def qPrefetch (q : Nat) : Nat → State → State
  | 0, s => s
  | n + 1, s =>
    let r := queueRun q s
    if (r.fetched - r.next).toNat < 8 ∧ 0 < (r.prod - r.fetched).toNat ∧ (r.prod - r.fetched).toNat ≤ qSize q s
        ∧ ringError (qSlot q r.fetched s) 32 .ok s = 0 then
      let e := rdBytes (qSlot q r.fetched s) 32 s
      qPrefetch q n (setQueueRun q { r with prefetch := sset [] r.fetched.toNat e r.prefetch, fetched := r.fetched + 1 } s)
    else s

/-- The entry to process next, as prefetched or read now. -/
def qEntry (q : Nat) (s : State) : Bytes :=
  let r := queueRun q s
  let e := sget [] r.next.toNat r.prefetch
  if e.isEmpty then rdBytes (qSlot q r.next s) 32 s else e

/-- The entry to process next has been prefetched: the ring is not read for it. -/
def qFetched (q : Nat) (s : State) : Bool := !(sget [] (queueRun q s).next.toNat (queueRun q s).prefetch).isEmpty

/-- The err_code of reading the entry to process next; 0 for none (R303, R304). -/
def entryError (q : Nat) (ans : MemAnswer) (s : State) : Nat :=
  if qFetched q s then 0 else ringError (qSlot q (queueRun q s).next s) 32 ans s

/-- An entry that cannot be read. Its cookie is a free value. -/
def unreadEntry (s : State) : Bytes := zeros 16 ++ freeBytes s.draws 8 ++ zeros 8
def drawCookie (s : State) : State := { s with draws := s.draws + 8 }

/-- Read ccons, and prod when `all`, from the index block and check them (R290, R303). Answers whether the queue goes on. -/
def readIndices (q : Nat) (all : Bool) (ans : MemAnswer) (s : State) : State × Bool :=
  let a := qIndex q s
  let r := queueRun q s
  if ¬ canReach .unit true a 64 s then (ringFault q 5 r.next s, false)
  else if ¬ memGood (answer a ans s) then (ringFault q 7 r.next (noteAnswer a (answer a ans s) s), false)
  else
    let s := noteAnswer a (answer a ans s) s
    let p := if all then w32 (rdLe a 4 s) else r.prod
    let c := w32 (rdLe (a + 12) 4 s)
    if qSize q s < (p - r.cons).toNat then (qStop q 1 p s, false)
    else if qCsize q s < (r.cprod - c).toNat then (qStop q 1 c s, false)
    else (setQueueRun q { r with prod := p, ccons := c } s, true)

/-- Move past the entry just processed; a visit of the round robin ends when the queue runs out of entries (R293). A doorbell
that came meanwhile has prod read again once it is reached (R290). -/
def qAdvance (q : Nat) (s : State) : State :=
  let r := queueRun q s
  let again := r.ringAgain && r.next + 1 == r.prod && (qState q s == qRunning || qState q s == qHolding)
  let s := setQueueRun q { r with prefetch := sset [] r.next.toNat [] r.prefetch, next := r.next + 1,
                                  fetched := if r.fetched = r.next then r.next + 1 else r.fetched,
                                  ringAgain := r.ringAgain && !again } s
  let s := qPrefetch q 8 (onlyIf again (fun s => (readIndices q true .ok s).1) s)
  if s.wrrCur = q ∧ (queueRun q s).next = (queueRun q s).prod then { s with wrrLeft := 0 } else s

/-- The entry before index `upto` has its outcome: its own completion, or its place in the batch (R301). `time` is when it
was processed. -/
def completeEntry (q : Nat) (x : QueueAnswers) (upto : Word) (status value : Nat) (e : Bytes) (time : Word) (s : State) :
    State :=
  let r := queueRun q s
  let s := setQueueRun q { r with batch := r.batch + 1, batchCookie := slice e 16 8, batchTime := time,
                                  batchValue := value } s
  if ¬ bit (rg QMG_Q_CFG q s) 29 ∨ status ≠ 0 ∨ bit (BitVec.ofNat 8 (leAt e 11 1)) 5 then closeBatchAt q x upto status s
  else s

/-- The entry that is processed has its outcome at once. -/
def finishEntry (q : Nat) (x : QueueAnswers) (status value : Nat) (e : Bytes) (s : State) : State :=
  let s := qAdvance q s
  completeEntry q x (queueRun q s).next status value e (now s) s

/-- A failing entry completes with its status and stops the queue (R303, R304); in step mode its completion follows those of
the entries before it. -/
def failEntry (q : Nat) (x : QueueAnswers) (code : Nat) (e : Bytes) (s : State) : State :=
  let i := (queueRun q s).next
  let status := if code = 7 then 4 else 3
  if (queueRun q s).dispatch.isEmpty then qStop q code i (finishEntry q x status 0 e s)
  else
    let s := qAdvance q s
    qStop q code i (setQueueRun q { queueRun q s with failed := some (status, e, now s) } s)

/-- The queue is processing entries (R290). -/
def qProcessing (q : Nat) (s : State) : Bool := qKind q s != 1 && (queueRun q s).prod != (queueRun q s).next

/-- The queues that have been rung on an edge. -/
def rungOn (edge : Nat) (s : State) : List Nat := if s.rungEdge = edge then s.rungQueues else []

/-- A doorbell from any source on an edge (R290, R302, R306): ccons is read at every one, prod when the queue is not
processing. Doorbells of one edge to one queue are one. Answers whether it was taken. -/
def doorbellOp (q edge : Nat) (ans : MemAnswer) (s : State) : State × Bool :=
  if inReset 205 s then (s, false)
  else if (rungOn edge s).contains q then (s, true)
  else
    let s := { s with rungEdge := edge, rungQueues := rungOn edge s ++ [q] }
    if qState q s = qRunning ∨ qState q s = qHolding then
      let busy := qProcessing q s
      let s := onlyIf busy (fun s => setQueueRun q { queueRun q s with ringAgain := true } s) s
      let r := readIndices q (!busy) ans s
      (if r.2 then qPrefetch q 8 (drainHolding q {} 17 r.1) else r.1, true)
    else (bump QMG_CNT_DB 0 15 0 s, false)

/-- Read all four indices and start the queue (R291). -/
def startQueue (q : Nat) (ans : MemAnswer) (s : State) : State :=
  let a := qIndex q s
  let s := setQueueRun q {} (setRgF QMG_Q_STAT q 18 16 0 (setQState q qRunning s))
  if ¬ canReach .unit true a 64 s then ringFault q 5 0 s
  else if ¬ memGood (answer a ans s) then ringFault q 7 0 (noteAnswer a (answer a ans s) s)
  else
    let s := noteAnswer a (answer a ans s) s
    let p := w32 (rdLe a 4 s)
    let c := w32 (rdLe (a + 4) 4 s)
    let cp := w32 (rdLe (a + 8) 4 s)
    let cc := w32 (rdLe (a + 12) 4 s)
    let s := setQueueRun q { prod := p, cons := c, cprod := cp, ccons := cc, next := c, fetched := c } s
    if qSize q s < (p - c).toNat then qStop q 1 p s
    else if qCsize q s < (cp - cc).toNat then qStop q 1 cc s
    else qPrefetch q 8 s

/-- The end of a shutdown, once no entry waits for its outcome: the open batch, then the remaining entries (R305). Both wait
until the holding area has room for them (R302). -/
def abortRest (q : Nat) (x : QueueAnswers) (s : State) : State :=
  if 14 < (queueRun q s).holding.length then s
  else
    let s := closeBatchAt q x (queueRun q s).next 0 s
    let r := queueRun q s
    let p := r.prod
    let n := (p - r.next).toNat
    if n = 0 then s
    else
      let a := qSlot q (p - 1) s
      let ok := decide (ringError a 32 (x.ring.headD .ok) s = 0)
      let cookie := if ok then slice (rdBytes a 32 s) 16 8 else freeBytes s.draws 8
      let s := onlyIf (!ok) drawCookie (noteAccess a (x.ring.headD .ok) s)
      let c : Completion := { bytes := completionBytes (p - 1) n 1 0 0 0 0 cookie (now s), cons := p }
      addRgF QMG_Q_CNT q 31 0 n
        (postCompletion q x c (setQueueRun q { r with next := p, fetched := p, prefetch := [], ringAgain := false } s))

/-- Held completions as room appears; a queue that is shutting down with no entry under way completes the rest, and is
disabled when all is written (R302, R305). -/
def settleQueue (q : Nat) (x : QueueAnswers) (s : State) : State :=
  let s := drainHolding q x 17 s
  let r := queueRun q s
  if qState q s ≠ qShutting ∨ ¬ r.dispatch.isEmpty ∨ r.failed.isSome ∨ r.busy then s
  else
    let s := drainHolding q x 17 (abortRest q x s)
    let r := queueRun q s
    if qState q s = qShutting ∧ r.holding.isEmpty ∧ r.batch = 0 ∧ r.next = r.prod then
      setRgF QMG_Q_CFG q 31 31 0 (setQState q qDisabled s)
    else s

/-- Shut a queue down (R305): prod is read once more; entries already begun finish first. An index block that does not
answer ends it at once (R304), and a malformed prod stops the queue as it always does (R289, R303). -/
def shutdownOp (q : Nat) (x : QueueAnswers) (s : State) : State :=
  if qState q s = qDisabled ∨ qState q s = qShutting then s
  else
    let a := qIndex q s
    let s := setQState q qShutting s
    if ¬ canReach .unit true a 64 s then ringFault q 5 (queueRun q s).next s
    else
      let s := noteAccess a x.index s
      let p := w32 (rdLe a 4 s)
      if ¬ memGood (answer a x.index s) then ringFault q 7 (queueRun q s).next s
      else if qSize q s < (p - (queueRun q s).cons).toNat then qStop q 1 p s
      else settleQueue q x (setQueueRun q { queueRun q s with prod := p } s)

end Sys2Proof.Machine
end

