-- ==== Sys2Proof/Machine/Milestones.lean ====
section
/-! DEFINITION. Milestone records, firing, actions, placement slots and the event router (R67-R87). -/

set_option Elab.async false

namespace Sys2Proof.Machine

open Sys2Proof

/-! ### Records (R67, R68) -/

abbrev Rec := BitVec 128

def Rec.target (w : Rec) : BitVec 48 := BitVec.ofNat 48 (fld w 47 0)
def Rec.road (w : Rec) : Nat := fld w 53 48
def Rec.armed (w : Rec) : Bool := bit w 54
def Rec.action (w : Rec) : Nat := fld w 59 56
def Rec.oneShot (w : Rec) : Bool := bit w 64
def Rec.lateAllowed (w : Rec) : Bool := bit w 65
def Rec.nextPass (w : Rec) : Bool := bit w 66
def Rec.eitherDir (w : Rec) : Bool := bit w 67
def Rec.skipIfPassed (w : Rec) : Bool := bit w 68
def Rec.strandedFire (w : Rec) : Bool := bit w 69
def Rec.divided (w : Rec) : Bool := bit w 70
def Rec.arg (w : Rec) : Nat := fld w 95 72
/-- Stride in 2^-32 lap. -/
def Rec.stride (w : Rec) : Nat := fld w 63 60 * 2 ^ 32 + fld w 127 96
def Rec.n (w : Rec) : Nat := fld w 103 96
def Rec.k (w : Rec) : Nat := fld w 111 104

/-- Replace bits hi:lo of a record. -/
def Rec.put (w : Rec) (hi lo v : Nat) : Rec :=
  let m : Rec := BitVec.ofNat 128 ((2 ^ (hi - lo + 1) - 1) * 2 ^ lo)
  (w &&& ~~~m) ||| (BitVec.ofNat 128 (v * 2 ^ lo) &&& m)

def Rec.setTarget (w : Rec) (t : BitVec 48) : Rec := w.put 47 0 t.toNat
def Rec.setArmed (w : Rec) (b : Bool) : Rec := w.put 54 54 (b2n b)
def Rec.setK (w : Rec) (k : Nat) : Rec := w.put 111 104 k

/-- The record as the unit holds it: the bits that R67 lays out as 0 read 0 (R7). -/
def Rec.normal (w : Rec) : Rec :=
  let w := (w.put 55 55 0).put 71 71 0
  if w.divided then w.put 127 112 0 else w

/-- An arg that R76 does not allow under its action. -/
def argBad (action arg : Nat) : Bool :=
  match action with
  | 0 => arg != 0
  | 1 => false
  | 2 => decide (4096 ≤ arg)
  | 3 => decide (71 < arg % 128) || decide (arg / 128 % 2 ≠ 0) || decide (512 ≤ arg)
  | 4 => decide (131 < arg % 256) || decide (2 < arg / 256 % 16)
  | 5 => decide (131 < arg)
  | 6 => decide (511 < arg % 512 + arg / 512 % 16) || decide (8192 ≤ arg)
  | 7 => decide (512 ≤ arg)
  | _ => true

/-- A record that the loader and MST_COMMIT refuse (R68). -/
def Rec.bad (w : Rec) : Bool :=
  decide (8 ≤ w.action) || (!w.oneShot && !w.divided && w.stride == 0)
    || (w.divided && (w.n == 0 || decide (w.n ≤ w.k))) || argBad w.action w.arg

/-- Action 1 or 7 in step mode: compared at step boundaries only (R80). -/
def stepOrdered (w : Rec) (s : State) : Bool := stepMode s && (w.action == 1 || w.action == 7)

def mstEnable (s : State) : Bool := bit (rg MST_CTRL 0 s) 0

/-- Records of the road are compared now (R73, R74). -/
def roadCompares (n : Nat) (s : State) : Bool :=
  (road n s).state.comparing && mstEnable s && s.enableReturn.isNone && !inReset 201 s

/-! ### Passed targets (R73) -/

/-- The distance from the road's published position to the target is 0 or less. -/
def passed (pub x : BitVec 48) : Bool := decide (dist48 pub x ≤ 0)

/-- The first occurrence of a fraction ahead of a position. -/
def nextOccurrence (pub x : BitVec 48) : BitVec 48 :=
  let f := x.toNat % 2 ^ 32
  let lap := pub.toNat / 2 ^ 32
  BitVec.ofNat 48 ((if pub.toNat % 2 ^ 32 < f then lap else lap + 1) * 2 ^ 32 + f)

/-- The test of R73 against a position; `edge` is the due edge or boundary of a firing that it makes late. -/
def testAgainst (n : Nat) (pub : BitVec 48) (edge : Nat) (s : State) : State :=
  let w : Rec := recWord n s
  if ¬ w.armed ∨ (recRun n s).pending ∨ ¬ passed pub w.target ∨ w.eitherDir then s
  else if w.skipIfPassed then bump MST_CNT_SKIP 0 11 0 (setRecWord n (w.setArmed false) s)
  else if w.nextPass then setRecWord n (w.setTarget (nextOccurrence pub w.target)) s
  else setRecRun n { pending := true, forced := true, due := edge } s

/-- The test of R73 on an arming or a return; a record of R80 is tested at the next boundary, with pos(t_b). -/
def passedTest (n : Nat) (s : State) : State :=
  if stepOrdered (recWord n s) s then setRecRun n { recRun n s with untested := true } s
  else testAgainst n (road (Rec.road (recWord n s)) s).pub s.mp.tclk s

/-- An arming: the test is made now where the road compares, and otherwise at its return (R73). -/
def armTest (n : Nat) (s : State) : State :=
  if roadCompares (Rec.road (recWord n s)) s then passedTest n s else s

/-- The armed records of a road, ascending. -/
def armedOn (n : Nat) (s : State) : List Nat :=
  (skeys s.recs).filter fun i => Rec.armed (recWord i s) && decide (Rec.road (recWord i s) = n)

/-- A road returns to comparison (R73). -/
def roadReturns (n : Nat) (s : State) : State :=
  if roadCompares n s then forEach (armedOn n s) passedTest s else s

/-- Firings due on this edge that a stop or the entry to LOST on the same edge undoes: the record is held, neither fired
nor pending (R75). -/
def forgetDue (n : Nat) (s : State) : State :=
  forEach ((skeys s.recRun).filter fun i =>
      let r := recRun i s
      r.pending && !r.forced && !r.strandedFire && decide (r.due = s.mp.tclk)
        && !stepOrdered (recWord i s) s && decide (Rec.road (recWord i s) = n))
    (fun i s => setRecRun i {} s) s

/-- A road enters LOST (R73, R74). -/
def roadStrands (n : Nat) (s : State) : State :=
  if inReset 201 s ∨ (armedOn n s).isEmpty then s
  else
    let s := setCause MST_CAUSE 0 2 s
    forEach ((armedOn n s).filter fun i => Rec.strandedFire (recWord i s))
      (fun i s =>
        let r := recRun i s
        let e := if stepOrdered (recWord i s) s then s.stp.step else s.mp.tclk
        setRecRun i { r with pending := true, strandedFire := true, backward := false,
                             due := e } s) s

/-! ### Commit (R68) -/

/-- A commit changes its record (R68, R75): the pending state ends and the arming test applies. -/
def commitRecord (n : Nat) (w : Rec) (s : State) : State :=
  onlyIf w.armed (armTest n) (setRecRun n {} (setRecWord n w s))

/-- The commits of earlier edges to the records that satisfy `p` change them, in order; the last one stands. -/
def applyCommits (p : Nat → State → Bool) (s : State) : State :=
  let due := s.commits.filter fun c => decide (c.edge < s.mp.tclk) && p c.record s
  forEach due (fun c => commitRecord c.record c.word)
    { s with commits := s.commits.filter fun c => !(decide (c.edge < s.mp.tclk) && p c.record s) }

/-- The record staged by a path. -/
def stagedRecord (path : Nat) (s : State) : Rec :=
  BitVec.ofNat 128 ((rg MST_REC path s).toNat + (rg (MST_REC + 4) path s).toNat * 2 ^ 32
    + (rg (MST_REC + 8) path s).toNat * 2 ^ 64 + (rg (MST_REC + 12) path s).toNat * 2 ^ 96)

/-- Take or refuse a commit (R68): a record that is taken changes on the next edge. -/
def offerCommit (n : Nat) (w : Rec) (s : State) : State :=
  if w.bad then setCause MST_CAUSE 0 0 (bump MST_CNT_REFUSED 0 15 0 s)
  else { s with commits := s.commits ++ [{ record := n, word := w, edge := s.mp.tclk }] }

/-- MST_COMMIT (R68). -/
def mstCommit (path : Nat) (value : Word) (s : State) : State :=
  atInst path MST_COMMIT (fun n s => onlyIf (bit value 0) (offerCommit n (stagedRecord path s).normal) s) s
def execMstCommit (path : Path) (value : Word) (s : State) : Out := .next (mstCommit path value s)

/-- MST_CTRL.enable (R73): a write of 1 while it is 0 is a return on the edge after the write. -/
def mstCtrlEnableWrite (path : Nat) (value : Word) (s : State) : State :=
  atGlobal path MST_CTRL (fun s =>
    let was := mstEnable s
    let s := setRgF MST_CTRL 0 0 0 (b2n (bit value 0)) s
    if bit value 0 ∧ ¬ was then { s with enableReturn := some s.mp.tclk }
    else if bit value 0 then s else { s with enableReturn := none }) s
def execMstCtrlEnableWrite (path : Path) (value : Word) (s : State) : Out := .next (mstCtrlEnableWrite path value s)

/-! ### Placement slots (R81, R82) -/

/-- MST_PLC_CUR (R81): the slot moves at once; markers of an earlier switch lose their effect. DESIGN CHOICE: messages of the
new generation that a receiver holds while the old one drained stay held (R82). -/
def mstPlcCurWrite (path : Nat) (value : Word) (s : State) : State :=
  atInst path MST_PLC_CUR (fun n s =>
    setSlotRun n { slotRun n s with markerLanes := [], markersOut := 0 } (setRg MST_PLC_CUR n (value &&& 0xFF07FF) s)) s
def execMstPlcCurWrite (path : Path) (value : Word) (s : State) : Out := .next (mstPlcCurWrite path value s)

/-- Lanes that the old target of a switch names. -/
def oldLanes (isDistrict : Bool) (target : Nat) (s : State) : List Nat :=
  if isDistrict then (lanesOf (target % 64)).filter fun l => !laneInReset l s else [target % 1024]

/-- DRAIN_MARKER_ENQUEUE (R82): waiting markers enter queues that have a free entry. -/
def drainMarkerEnqueue (slot : Nat) (s : State) : State :=
  forEach (slotRun slot s).markerLanes
    (fun l s =>
      let r := slotRun slot s
      if (lane l s).queue.length < 16 then
        let s := setLane l { lane l s with
          queue := (lane l s).queue ++ [.marker (BitVec.ofNat 9 slot) r.oldGen r.oldSeq] } s
        setSlotRun slot { r with markerLanes := r.markerLanes.filter fun x => x ≠ l, markersOut := r.markersOut + 1 } s
      else s) s
def execDrainMarkerEnqueue (slot : Fin 512) (s : State) : Out := .next (drainMarkerEnqueue slot s)

/-- Jobs of a slot's old generation that are queued and not started on the given lanes, in order. A frame's job has gone to
its district and not through the slot's target (R113, R125). -/
def queuedJobs (slot : Nat) (gen : BitVec 8) (lanes : List Nat) (s : State) : List Job :=
  lanes.flatMap fun l => (lane l s).queue.filterMap fun e =>
    match e with
    | .job j => if j.slot.toNat = slot ∧ j.gen = gen ∧ j.source ≠ 3 then some j else none
    | .marker .. => none

/-- Start a reissued job with its original number; its record and, in step mode, its time are those of the reissue
(R18, R82, R116). -/
def reissueJob (slot : Nat) (j : Job) (s : State) : State :=
  let cur := rg MST_PLC_CUR slot s
  match targetLane (bit cur 10) (fld cur 9 0) s with
  | none => refuseAction s
  | some l =>
    if lm64Closed l 4 s then refuseAction s
    else
      let e := enqueueJob l { j with gen := BitVec.ofNat 8 (fld cur 23 16), source := 4, reissued := true, record := 16383,
                                     time := if stepMode s then s.stp.tb else j.time } s
      if e.2 then e.1 else refuseAction e.1

/-- Action 7 (R82). -/
def placementSwitch (slot : Nat) (s : State) : State :=
  let cur := rg MST_PLC_CUR slot s
  let next := rg MST_PLC_NEXT slot s
  let refused (s : State) : State := bump MST_PLC_CNT slot 31 24 s
  if ¬ bit next 31 then refused s
  else if bit cur 31 ∨ fld next 23 16 = fld cur 23 16 then setCause MST_CAUSE 0 5 (refused s)
  else
    let r := slotRun slot s
    let oldGen : BitVec 8 := BitVec.ofNat 8 (fld cur 23 16)
    let lanes := oldLanes (bit cur 10) (fld cur 9 0) s
    let jobs := queuedJobs slot oldGen lanes s
    let s := setRg MST_PLC_CUR slot (setBit (next &&& 0xFF07FF) 31 true) s
    let s := setRgF MST_PLC_NEXT slot 31 31 0 s
    let s := setSlotRun slot { r with oldGen := oldGen, oldSeq := r.seq - 1, markerLanes := lanes, markersOut := 0 } s
    let s := drainMarkerEnqueue slot s
    if bit next 11 then forEach jobs (reissueJob slot) s else s

/-! ### Snapshots (R78) -/

def snapAddr (slot : Nat) (s : State) : Nat := base40 MST_SNAP_BASE_LO MST_SNAP_BASE_HI 0 s + slot * 256

/-- Bytes 16-255 of a snapshot, before padding. -/
def snapData (kind port : Nat) (s : State) : Bytes :=
  match kind with
  | 0 => (List.range 44).flatMap fun i => leBytes 4 (rg (MAC_CNT + 4 * i) port s).toNat
  | 1 => (List.range 8).flatMap fun c => leBytes 4 (rg MFE_CH_LAST c s).toNat
  | _ => (List.range 16).flatMap fun c =>
      leBytes 4 ((shaft c s).lap.toNat * 65536 + (shaft c s).frac.toNat / 65536)

/-- Action 4 (R78). -/
def snapshot (n kind port slot flags : Nat) (t : Word) (ans : MemAnswer) (s : State) : State :=
  let a := snapAddr slot s
  if ¬ canReach .unit true a 256 s then refuseAction s
  else if ¬ memGood (answer a ans s) then
    let s := noteAnswer a (answer a ans s) s
    refuseAction { wrBytes (a + 16) (freeBytes s.draws 240) s with draws := s.draws + 240 }
  else
    let s := noteAnswer a (answer a ans s) s
    let count : Word := sget 0 slot s.snapCount + 1
    let s := { s with snapCount := sset 0 slot count s.snapCount, snapAt := sset 0 slot (elapsedNs s) s.snapAt }
    let s := wrBytes (a + 16) (padTo 240 (snapData kind port s)) s
    wrBytes a (leBytes 4 t.toNat ++ leBytes 2 n ++ leBytes 1 flags ++ leBytes 1 kind ++ leBytes 4 count.toNat ++ zeros 4) s

/-! ### Actions (R76, R79) -/

/-- Start a DMA channel by a milestone or an event line; a start that R313 refuses counts as a refused action (R79). -/
def dmaAction (c : Nat) (s : State) : State × Bool :=
  let r := dmaStartOp c s
  if r.2 then r else (refuseAction r.1, false)

/-- What a firing passes to its action. -/
structure Firing where
  record : Nat
  time : Word
  late : Bool
  stranded : Bool
  backward : Bool
deriving DecidableEq, Repr

/-- The flag byte of a firing, as a snapshot holds it. -/
def Firing.flags (f : Firing) : Nat := b2n f.late + 2 * b2n f.stranded + 4 * b2n f.backward

/-- The effect of a record's action (R76). -/
def doAction (w : Rec) (f : Firing) (ans : MemAnswer) (s : State) : State :=
  let arg := w.arg
  match w.action with
  | 1 =>
    (startJob (arg % 512)
      { code := BitVec.ofNat 15 (arg / 512), source := 0, late := f.late, stranded := f.stranded,
        backward := f.backward, record := BitVec.ofNat 14 f.record, time := f.time } s).1
  | 2 => triggerFrame (arg % 4096) ans s
  | 3 =>
    if arg / 256 % 2 = 0 then (dmaAction (arg % 128) s).1
    else if inReset 204 s then refuseAction s else dmaArmOp (arg % 128) s
  | 4 => snapshot f.record (arg / 256 % 16) (arg % 256) (arg / 4096) f.flags f.time ans s
  | 5 => gateStep (arg % 256) ans s
  | 6 => forEach ((List.range (arg / 512 % 16 + 1)).map fun i => arg % 512 + i) (fun l => pulseLineAt l f.time) s
  | 7 => placementSwitch (arg % 512) s
  | _ => s

/-! ### Re-arming (R69, R73) -/

/-- floor(k * 2^32 / n). -/
def partAt (n k : Nat) : Nat := k * 2 ^ 32 / n

/-- One forward re-arm (R69). -/
def Rec.forward (w : Rec) : Rec :=
  if w.divided then
    (w.setTarget (w.target + BitVec.ofNat 48 (partAt w.n (w.k + 1) - partAt w.n w.k))).setK ((w.k + 1) % w.n)
  else w.setTarget (w.target + BitVec.ofNat 48 w.stride)

/-- One backward re-arm (R69). -/
def Rec.back (w : Rec) : Rec :=
  if w.divided then
    let k := (w.k + w.n - 1) % w.n
    (w.setTarget (w.target - BitVec.ofNat 48 (partAt w.n (k + 1) - partAt w.n k))).setK k
  else w.setTarget (w.target - BitVec.ofNat 48 w.stride)

/-- Single steps of a divided record until its target is ahead: the record and the steps taken. -/
def stepParts (pub : BitVec 48) : Nat → Rec → Nat → Rec × Nat
  | 0, w, c => (w, c)
  | fuel + 1, w, c => if passed pub w.target then stepParts pub fuel w.forward (c + 1) else (w, c)

/-- A passed target stepped by strides or parts until it is ahead (R73): the record and the steps taken. -/
def stepAhead (pub : BitVec 48) (w : Rec) : Rec × Nat :=
  if ¬ passed pub w.target then (w, 0)
  else
    let behind := (-(dist48 pub w.target)).toNat
    if w.divided then
      let laps := behind / 2 ^ 32
      stepParts pub 256 (w.setTarget (w.target + BitVec.ofNat 48 (laps * 2 ^ 32))) (laps * w.n)
    else
      let k := behind / max 1 w.stride + 1
      (w.setTarget (w.target + BitVec.ofNat 48 (k * w.stride)), k)

/-- Re-arm or disarm after a firing (R69, R73). `pub` is the position that the new target is tested against, when the
road compares. -/
def rearm (n : Nat) (backward : Bool) (edge : Nat) (pub : Option (BitVec 48)) (s : State) : State :=
  let w : Rec := recWord n s
  if w.oneShot then setRecWord n (w.setArmed false) s
  else
    let w := if backward then w.back else w.forward
    match pub with
    | none => setRecWord n w s
    | some p =>
      if w.eitherDir ∨ ¬ passed p w.target then setRecWord n w s
      else if w.lateAllowed then setRecRun n { pending := true, forced := true, due := edge } (setRecWord n w s)
      else
        let r := stepAhead p w
        addRgF MST_CNT_SKIP 0 23 12 r.2 (setRecWord n r.1 s)

/-! ### Firing (R71, R72) -/

/-- Pulse the lines whose source is a record. In step mode a line with destination 3 is delivered at the boundary at
which its record fires (R87). -/
def pulseRecord (n : Nat) (t : Word) (ordered : Bool) (s : State) : State :=
  forEach ((sourcedLines s.regs).filter fun p => lineMatches p.2 (.record n))
    (fun p s =>
      let d := rg MST_EVT_DST p.1 s
      if ordered ∧ fld d 26 24 = 3 then
        let s := bump MST_EVT_CNT p.1 31 16 s
        let r := startJob (fld d 8 0) { code := BitVec.ofNat 15 (fld d 23 9), source := 1, time := t } s
        if r.2 then r.1 else bump MST_EVT_CNT p.1 7 0 r.1
      else pulseLineAt p.1 t s) s

/-- A record fires (R72): counts, time, lines, action, re-arm. `edge` counts TCLK edges, or boundaries under R80. DESIGN CHOICE:
a stranded firing that R71 deferred until its road has returned re-arms as one on a road that does not compare: its new target
is not tested against the road's position (R73). -/
def fireRecord (n edge : Nat) (t : Word) (pub : Option (BitVec 48)) (ordered : Bool) (ans : MemAnswer) (s : State) :
    State :=
  let w : Rec := recWord n s
  let r := recRun n s
  let late := r.forced || r.strandedFire || decide (edge ≠ r.due)
  let f : Firing := { record := n, time := t, late := late, stranded := r.strandedFire, backward := r.backward }
  let s := setRecRun n {} s
  let s := onlyIf late (bump MST_CNT_LATE 0 31 0) (bump MST_CNT_FIRED 0 31 0 s)
  let s := setRg MST_MS_LAST n t s
  let s := bump MST_MS_STATUS n 31 16 s
  let s := setRgF MST_MS_STATUS n 15 8 (if late then min 255 (edge - r.due) else 0) s
  let s := setRgF MST_MS_STATUS n 3 3 (b2n late) s
  let s := pulseRecord n t ordered s
  let s := doAction w f ans s
  rearm n r.backward edge (if r.strandedFire then none else pub) s

/-- A pending record that may fire on this edge (R71, R73, R74). -/
def mayFire (n : Nat) (s : State) : Bool :=
  let w : Rec := recWord n s
  let r := recRun n s
  r.pending && mstEnable s && !stepOrdered w s &&
    (r.strandedFire || ((road w.road s).state.comparing && s.enableReturn.isNone
      && (!r.forced || decide (r.due < s.mp.tclk))))

/-- How far a record's target lies behind the road in its direction of motion (R71). DESIGN CHOICE: a road that did not
move on the edge is taken to move as its published rate says, and forward at rate 0. -/
def behindOf (n : Nat) (s : State) : Int :=
  let w : Rec := recWord n s
  let r := road w.road s
  let d := dist48 r.prev r.pub
  if d < 0 ∨ (d = 0 ∧ si r.pubRate < 0) then dist48 r.pub w.target else dist48 w.target r.pub

/-- The furthest behind of the candidates; the lower number on a tie. -/
def furthest (s : State) : List Nat → Option Nat
  | [] => none
  | n :: t =>
    match furthest s t with
    | none => some n
    | some m => if behindOf n s < behindOf m s then some m else some n

/-- The record that a road may fire now. -/
def candidate (n : Nat) (s : State) : Option Nat :=
  furthest s ((skeys s.recRun).filter fun i => mayFire i s && decide (Rec.road (recWord i s) = n))

/-- Roads that have fired on this edge. -/
def firedNow (s : State) : List Nat := if s.fireEdge = s.mp.tclk + 1 then s.firedRoads else []

/-- The next record to fire on this edge (R71): road order wraps from the road after the last one served. -/
def nextFiring (s : State) : Option (Nat × Nat) :=
  if 16 ≤ (firedNow s).length ∨ inReset 201 s then none
  else
    let order := (List.range 64).map fun i => (s.lastServed + 1 + i) % 64
    (order.filter fun r => !(firedNow s).contains r).findSome? fun r => (candidate r s).map fun n => (r, n)

/-- MILESTONE_FIRE (R72): the next record of this edge fires. -/
def milestoneFire (ans : MemAnswer) (s : State) : State :=
  match nextFiring s with
  | none => s
  | some (r, n) =>
    let s := { s with firedRoads := firedNow s ++ [r], fireEdge := s.mp.tclk + 1, lastServed := r }
    -- a record committed for this edge replaces the old one after its firing (R75)
    applyCommits (fun i _ => i = n)
      (fireRecord n s.mp.tclk (now s) (if roadCompares r s then some (road r s).pub else none) false ans s)
def execMilestoneFire (ans : MemAnswer) (s : State) : Out := .next (milestoneFire ans s)

/-! ### Comparison (R70) -/

/-- A target reached between two positions: none, or whether the crossing is backward. -/
def reached (w : Rec) (prev cur : BitVec 48) : Option Bool :=
  let d := dist48 prev cur
  let x := dist48 prev w.target
  if 0 < d ∧ 1 ≤ x ∧ x ≤ d then some false
  else if w.eitherDir ∧ d < 0 ∧ d ≤ x ∧ x ≤ -1 then some true
  else none

/-- A record that fires or may fire on this edge: it is reached on it, or pending (R70, R71). -/
def comesDue (n : Nat) (s : State) : Bool :=
  let w : Rec := recWord n s
  let r := road w.road s
  !stepOrdered w s && (mayFire n s
    || (w.armed && !(recRun n s).pending && roadCompares w.road s && (reached w r.prev r.pub).isSome))

/-- MILESTONE_COMPARE (R70, R73): once per edge, each armed record of a comparing road. A commit comes before it, except
to a record that may fire on the edge (R75). -/
def milestoneCompare (s : State) : State :=
  if s.cmpEdge = s.mp.tclk + 1 ∨ inReset 201 s then s
  else
    let s := applyCommits (fun n s => !comesDue n s) { s with cmpEdge := s.mp.tclk + 1 }
    if ¬ mstEnable s then s else
    match s.enableReturn with
    | some e =>
      if e < s.mp.tclk then
        forEach (List.range 64) roadReturns { s with enableReturn := none }
      else s
    | none =>
      forEach (skeys s.recs)
        (fun n s =>
          let w : Rec := recWord n s
          let r := road w.road s
          if ¬ w.armed ∨ (recRun n s).pending ∨ ¬ r.state.comparing ∨ stepOrdered w s then s
          else
            match reached w r.prev r.pub with
            | some b => setRecRun n { pending := true, backward := b, due := s.mp.tclk } s
            | none => s) s
def execMilestoneCompare (s : State) : Out := .next (milestoneCompare s)

/-- Records that stay reached and unserved when the edge ends (R71). -/
def deferredCount (s : State) : Nat :=
  ((skeys s.recRun).filter fun n => mayFire n s).length

/-- The edge ends: each deferral is counted (R71). -/
def countDeferrals (s : State) : State :=
  let n := deferredCount s
  if n = 0 ∨ inReset 201 s then s
  else setCause MST_CAUSE 0 3 (addRgF MST_CNT_DEFER 0 31 0 n s)

/-- One record of R80 at a boundary: tested where it was armed or its road returned since the last one, else compared
between the road's positions at the two boundaries; then it fires where it may. -/
def stepRecord (tb : Word) (ans : MemAnswer) (n : Nat) (s : State) : State :=
  let w : Rec := recWord n s
  let r := road w.road s
  let cur := (r.publishAt (roadKind w.road s) tb).1
  if ¬ stepOrdered w s then s
  else
    let s :=
      if ¬ roadCompares w.road s then s
      else if (recRun n s).untested then testAgainst n cur s.stp.step (setRecRun n { recRun n s with untested := false } s)
      else if ¬ w.armed ∨ (recRun n s).pending then s
      else
        match reached w r.stepPos cur with
        | some b => setRecRun n { pending := true, backward := b, due := s.stp.step } s
        | none => s
    let q := recRun n s
    if q.pending ∧ (q.strandedFire ∨ (roadCompares w.road s ∧ (¬ q.forced ∨ q.due < s.stp.step))) then
      fireRecord n s.stp.step tb (if roadCompares w.road s then some cur else none) true ans s
    else s

/-- The records of actions 1 and 7 at a step boundary (R80). DESIGN CHOICE: several that fire at one boundary do so in
ascending record number. -/
def stepMilestones (tb : Word) (ans : MemAnswer) (s : State) : State :=
  let s := if inReset 201 s ∨ ¬ mstEnable s then s else forEach (skeys s.recs) (stepRecord tb ans) s
  forEach (skeys s.roads)
    (fun n s => setRoad n { road n s with stepPos := ((road n s).publishAt (roadKind n s) tb).1 } s) s

/-! ### Event lines (R84-R87) -/

/-- MST_SW_PULSE (R84). -/
def mstSwPulse (path : Nat) (value : Word) (s : State) : State :=
  atGlobal path MST_SW_PULSE (fun s => pulseLine (fld value 8 0) s) s
def execMstSwPulse (path : Path) (value : Word) (s : State) : Out := .next (mstSwPulse path value s)

/-- A pulse that its destination refuses (R79). -/
def refusePulse (l : Nat) (s : State) : State := bump MST_EVT_CNT l 7 0 (refuseAction s)

/-- Arm a record by an event line (R75, R86). -/
def armByLine (l n : Nat) (s : State) : State :=
  let w : Rec := recWord n s
  if w.armed then bump MST_CNT_SKIP 0 31 24 s
  else if w.bad then refusePulse l s
  else armTest n (setRecWord n (w.setArmed true) s)

/-- A doorbell by a pulse of an edge: doorbells of one edge to one queue merge (R86, R306). -/
def lineDoorbell (l q edge : Nat) (s : State) : State :=
  if inReset 205 s then refusePulse l s else (doorbellOp q (edge + 1) .ok s).1

/-- The effect of a pulse at its destination (R86, R87). -/
def deliverPulse (p : Pulse) (s : State) : State :=
  let l := p.line
  let d := rg MST_EVT_DST l s
  match fld d 26 24 with
  | 1 =>
    let c := fld d 6 0
    if 72 ≤ c then refusePulse l s
    else
      let r := dmaAction c s
      if r.2 then r.1 else bump MST_EVT_CNT l 7 0 r.1
  | 2 => armByLine l (fld d 13 0) s
  | 3 =>
    if stepMode s then setCause MST_CAUSE 0 4 (bump MST_EVT_CNT l 7 0 s)
    else
      let r := startJob (fld d 8 0) { code := BitVec.ofNat 15 (fld d 23 9), source := 1, time := p.ns } s
      if r.2 then r.1 else bump MST_EVT_CNT l 7 0 r.1
  | 4 =>
    let r := chkStart (fld d 7 0) s
    if r.2 then r.1 else refusePulse l r.1
  | 5 => lineDoorbell l (fld d 9 0) p.edge s
  | 6 =>
    let r := journalIntake (markerRecord l (fld d 15 0) p.ns p.epoch s) s
    if r.2 then r.1 else refusePulse l r.1
  | _ => s

/-- Take the oldest pulse of a line. -/
def takePulse (l : Nat) : List Pulse → Option (Pulse × List Pulse)
  | [] => none
  | p :: t => if p.line = l then some (p, t) else (takePulse l t).map fun q => (q.1, p :: q.2)

/-- EVENT_LINE_DELIVER (R84, R86): a pulse raised two edges earlier acts. -/
def eventLineDeliver (l : Nat) (s : State) : State :=
  match takePulse l s.pulses with
  | none => s
  | some (p, rest) =>
    if p.edge + 2 ≤ s.mp.tclk then deliverPulse p { s with pulses := rest } else s
def execEventLineDeliver (line : Fin 512) (s : State) : Out := .next (eventLineDeliver line s)

end Sys2Proof.Machine
end

