-- ==== Sys2Proof/Machine/Roads.lean ====
section
/-! DEFINITION. Roads: observations, the tracker, states, clock roads, history and road-state entries (R45-R64). -/

set_option Elab.async false

namespace Sys2Proof.Machine

open Sys2Proof

/-! ### History and entries (R60, R62, R63) -/

/-- The tracker state of a road in network byte order, as a road-state entry carries it: state, t_s, p, v, a. -/
def Road.entryBytes (r : Road) : Bytes :=
  beBytes 1 r.state.code ++ beBytes 4 r.tS.toNat ++ beBytes 8 r.p.toNat ++ beBytes 6 r.v.toNat ++ beBytes 4 r.a.toNat

/-- Write a history entry (R60). -/
def writeHistory (n : Nat) (trans fracOnly : Bool) (s : State) : State :=
  let r := road n s
  let i := rgF ROA_HIST n 11 0 s
  let b := leBytes 4 r.tS.toNat ++ leBytes 8 r.p.toNat ++ leBytes 6 r.v.toNat ++ leBytes 4 r.a.toNat
    ++ leBytes 1 r.state.code ++ leBytes 1 (b2n trans + 2 * b2n fracOnly)
  let s := wrBytes (histAddr n i) b s
  let s := { s with frozen := sset 0 (n * 4096 + i) (if r.state = .held then r.pub else 0) s.frozen }
  setRgF ROA_HIST n 28 16 (min 4096 (rgF ROA_HIST n 28 16 s + 1)) (setRgF ROA_HIST n 11 0 ((i + 1) % 4096) s)

/-- Clear a road's history. -/
def clearHistory (n : Nat) (s : State) : State := setRgF ROA_HIST n 28 16 0 (setRgF ROA_HIST n 11 0 0 s)

/-- Queue the road's entry (R63): a newer one replaces one that still waits. -/
def queueEntry (n : Nat) (s : State) : State :=
  let r := road n s
  let hier := bit (rg ROA_CTRL n s) 4 && bit (rg ROA_RSF 0 s) 20
  setRoad n { r with queuedEntry := r.entryBytes, queuedHier := r.queuedHier || hier } s

/-! ### Transitions (R57) -/

/-- A transition: counted, recorded, written to history, queued, pulsed; milestones and gate lists follow. What the road
publishes in its new state is seen from the publication of the edge (R53); an IDLE road publishes 0 (R56). -/
def transition (n : Nat) (new : RoadState) (cause : Nat) (s : State) : State :=
  let r := road n s
  let was := r.state
  let r := { r with state := new, transitions := r.transitions + 1 }
  let r := if new = .idle then { r with pub := 0, pubRate := 0 } else r
  let r := if new = .acquiring ∨ new = .coasting then { r with entered := now s, appliedSince := false } else r
  let s := setRoad n r s
  let s := onlyIf (decide (new = .acquiring)) (setRgF ROA_STATE n 11 8 0) s
  let s := setRgF ROA_STATE n 7 4 cause s
  let s := bump ROA_CNT_DROP n 31 16 s
  let s := setCause ROA_CAUSE n 0 s
  let s := writeHistory n true false s
  let s := queueEntry n s
  let s := pulseSource (.road n) s
  let s := onlyIf (decide (new = .lost) || decide (cause = 2)) (forgetDue n) s
  let s := onlyIf (decide (new = .lost)) (roadStrands n) s
  onlyIf (decide (was = .tracking) && decide (new ≠ .tracking)) (roadLeavesTracking new n) s

/-- After the transitions of an edge: a road that now compares and did not publishes and passes the return test (R73). -/
def settleReturn (n : Nat) (before : RoadState) (s : State) : State :=
  let r := road n s
  if before.comparing ∨ ¬ r.state.comparing then s
  else
    let p := r.publishAt (roadKind n s) (now s)
    roadReturns n (setRoad n { r with pub := p.1, pubRate := p.2, prev := p.1, pubA := r.a, pubT := r.tS } s)

/-! ### Observations (R46, R47) -/

/-- The bytes of an observation in the merged stream: the record of R46. -/
def Observation.bytes (o : Observation) : Bytes :=
  leBytes 4 o.time.toNat ++ leBytes 4 o.frac.toNat ++ leBytes 2 o.lap.toNat ++ leBytes 1 o.road
    ++ leBytes 1 (b2n o.fracOnly + 2 * b2n o.reacquire + 4 * b2n o.hintValid) ++ leBytes 4 o.hint.toNat

/-- An observation record (R46) of a source kind. -/
def observationOf (b : Bytes) (kind : Nat) : Observation :=
  { road := leAt b 10 1 % 64, srcKind := kind, time := w32 (leAt b 0 4), frac := w32 (leAt b 4 4),
    lap := BitVec.ofNat 16 (leAt b 8 2), fracOnly := leAt b 11 1 % 2 = 1, reacquire := leAt b 11 1 / 2 % 2 = 1,
    hintValid := leAt b 11 1 / 4 % 2 = 1, hint := w32 (leAt b 12 4) }

/-- Place of a source among those that feed one road: mains, shaft, remote, lane (R47). -/
def sourcePlace (kind : Nat) : Nat := if kind = 2 then 0 else if kind = 3 then 1 else if kind = 5 then 2 else 3

/-- Of two observations that reach the queue on one edge, `x` enters before `y`, which comes later (R47). -/
def entersBefore (x y : Observation) : Bool :=
  decide (x.road < y.road) || (decide (x.road = y.road) && decide (sourcePlace x.srcKind ≤ sourcePlace y.srcKind))

/-- Entries of the queue's tail that reached it on the present edge. -/
def newEntries (s : State) : Nat := if s.arriveEdge = edgeNow s then min s.arriveCount s.ingest.length else 0

/-- The ingest queue with an observation that reaches it: those of one edge stand in ascending road number, and for one road
in the order of their sources (R47). -/
def withObservation (o : Observation) (s : State) : List Observation :=
  let n := s.ingest.length - newEntries s
  let new := s.ingest.drop n
  s.ingest.take n ++ new.filter (fun x => entersBefore x o) ++ [o] ++ new.filter fun x => !entersBefore x o

/-- An observation reaches the ingest queue; the one beyond its 256 is dropped (R47, R445). -/
def enqueueObservation (o : Observation) (s : State) : State :=
  if inReset 200 s then bump ROA_INGEST 0 31 16 s
  else
    let q := withObservation o s
    let k := newEntries s
    let s := { s with ingest := q.take 256, arriveEdge := edgeNow s, arriveCount := if q.length ≤ 256 then k + 1 else k }
    match q.drop 256 with
    | x :: _ => setCause ROA_CAUSE x.road 1 (bump ROA_CNT_DROP x.road 15 0 (bump ROA_INGEST 0 31 16 s))
    | [] => s

def staleObservation (n : Nat) (s : State) : State := setCause ROA_CAUSE n 2 (bump ROA_CNT_REJ n 31 16 s)

/-- An observation of a local source: in step mode it is captured and reaches R47 through the merged stream (R59). DESIGN
CHOICE: the record of R46 names no producer, so one whose kind is not its road's is discarded before it is captured. -/
def localObservation (o : Observation) (s : State) : State :=
  if ¬ stepMode s then enqueueObservation o s
  else if o.srcKind ≠ roadKind (o.road % 64) s then staleObservation (o.road % 64) s
  else captureInput inputObservation o.bytes s

/-- The kind of the producer of a merged observation: mains or shaft, as its road has it (R357). -/
def mergedKind (b : Bytes) (s : State) : Nat := if roadKind (leAt b 10 1 % 64) s = 3 then 3 else 2

/-! ### The tracker (R50-R52, R54) -/

def satTo (w : Nat) (x : Int) : Nat := wrapI w (satS w x)

/-- Book an applied observation (R51, R54): counts, history, timeouts, horizon, window ends. -/
def bookApplied (n : Nat) (fracOnly : Bool) (s : State) : State :=
  let r := road n s
  let s := setRoad n { r with appliedSince := true, lastTime := r.tS, obsAt := elapsedNs s,
                              horizon := horizonOf (si r.v) } s
  let s := setRgF ROA_STATE n 14 12 0 s
  let s := bump ROA_CNT_ACC n 31 0 s
  refreshEndTimes n (writeHistory n false fracOnly s)

/-- The first branch of R50: the observation initialises the road. -/
def initialise (n : Nat) (o : Observation) (s : State) : State :=
  let r := road n s
  let lap := if o.fracOnly then r.pub.toNat / 2 ^ 32 else o.lap.toNat
  let v : Int := if o.hintValid then si o.hint else si (rg ROA_RATE_INIT n s)
  let r := { r with p := BitVec.ofNat 64 (lap * 2 ^ 48 + o.frac.toNat * 2 ^ 16), a := 0, tS := o.time,
                    v := BitVec.ofNat 48 (wrapI 48 v), initPending := false }
  bookApplied n o.fracOnly (setRgF ROA_STATE n 11 8 0 (setRoad n r s))

/-- Predicted position and residual of an observation (R50). -/
def residual (r : Road) (o : Observation) : BitVec 64 × Int :=
  let pp := r.posAt (sub32 o.time r.tS)
  let z : Nat := o.lap.toNat * 2 ^ 48 + o.frac.toNat * 2 ^ 16
  (pp, if o.fracOnly then sgn 48 (wrapI 48 (((o.frac.toNat * 2 ^ 16 : Nat) : Int) - pp.toNat))
       else sgn 64 (wrapI 64 ((z : Int) - (pp.toNat : Int))))

/-- Apply an observation's residual with a gain word (R50). -/
def applyResidual (r : Road) (t : Word) (pp : BitVec 64) (e : Int) (gain : Word) : Road :=
  let T : Int := sub32 t r.tS
  let vp := r.velAt T
  { r with p := BitVec.ofNat 64 (wrapI 64 ((pp.toNat : Int) + rnd e (fld gain 3 0))),
           v := BitVec.ofNat 48 (satTo 48 (vp + Int.tdiv (rnd e (fld gain 12 8)) T)),
           a := if bit gain 24 then
                  BitVec.ofNat 32 (satTo 32 (si r.a + Int.tdiv (rnd e (fld gain 20 16) * 2 ^ 24) (T * T)))
                else 0,
           tS := t }

/-- Limit 2^(48 - exp), with 0 treated as 1 (ROA_TOL). -/
def tolLimit (e : Nat) : Nat := 2 ^ (48 - max 1 e)

/-- |v| below the standstill threshold (R57). -/
def belowStandstill (n : Nat) (s : State) : Bool := decide ((si (road n s).v).natAbs < (rgHeld ROA_STANDSTILL n s).toNat)

/-- An observation that passed R47 (R50-R52, R57), under the settings held before the writes of its edge (R58). -/
def trackerUpdate (n : Nat) (o : Observation) (s : State) : State :=
  let r := road n s
  if r.state = .lost then initialise n o (transition n .acquiring 10 s)
  else if o.reacquire then initialise n o (transition n .acquiring 11 s)
  else if r.initPending then initialise n o s
  else
    let q := residual r o
    if r.state = .acquiring then
      if q.2.natAbs ≤ tolLimit (rgHeldF ROA_TOL n 4 0 s) then
        let s := setRoad n (applyResidual r o.time q.1 q.2 (rgHeld ROA_ACQ_GAIN n s)) s
        let c := rgF ROA_STATE n 11 8 s + 1
        let s := setRgF ROA_STATE n 11 8 c s
        let s := if c < 8 then s
          else
            let s := transition n .tracking 3 s
            onlyIf (belowStandstill n s) (transition n .held 7) s
        bookApplied n o.fracOnly s
      else initialise n o s
    else if tolLimit (rgHeldF ROA_TOL n 12 8 s) < q.2.natAbs then
      let s := bump ROA_CNT_REJ n 15 0 s
      let c := rgF ROA_STATE n 14 12 s + 1
      if c < 4 then setRgF ROA_STATE n 14 12 c s
      else initialise n o (setCause ROA_CAUSE n 3 (transition n .acquiring 9 s))
    else
      let s := setRoad n (applyResidual r o.time q.1 q.2 (rgHeld ROA_TRK_GAIN n s)) s
      let s :=
        match r.state with
        | .coasting =>
          let s := transition n .tracking 5 s
          onlyIf (belowStandstill n s) (transition n .held 7) s
        | .tracking => onlyIf (belowStandstill n s) (transition n .held 7) s
        | .held =>
          onlyIf (decide (2 * (rgHeld ROA_STANDSTILL n s).toNat ≤ (si (road n s).v).natAbs)) (transition n .tracking 8) s
        | _ => s
      bookApplied n o.fracOnly s

/-! ### Road-state entries (R64) -/

/-- The worker's current manager address (R377). -/
def managerAddr (s : State) : Option (BitVec 48) :=
  if bit (rg HIE_MGR_HI 0 s) 31 then
    some (BitVec.ofNat 48 (rgF HIE_MGR_HI 0 15 0 s * 2 ^ 32 + (rg HIE_MGR_LO 0 s).toNat))
  else none

/-- Roads that follow a manager's road. -/
def followers (m : Nat) (s : State) : List Nat :=
  (List.range 64).filter fun n => roadKind n s = 5 ∧ rgF ROA_SRC n 13 8 s = m

/-- The seq of an entry is taken: 1 to 32,767 after the last one, or any when none is held (R64, R387). -/
def entryFresh (b : Bytes) (r : Road) : Bool :=
  let d := match r.lastSeq with
    | some q => (BitVec.ofNat 16 (beAt b 2 2) - q).toNat
    | none => 1
  decide (d ≠ 0 ∧ d < 2 ^ 15)

/-- One follower takes an entry, or discards it as stale (R57, R64). The timeouts run from its arrival. DESIGN CHOICE: the
arrival is the instant at which the entry leaves the ingest queue and is taken. DESIGN CHOICE:
a state byte that is no code of R60 moves no state; the tracker state is replaced all the same. -/
def takeEntry (b : Bytes) (n : Nat) (s : State) : State :=
  let r := road n s
  if ¬ entryFresh b r then staleObservation n s
  else
    let v : BitVec 48 := BitVec.ofNat 48 (beAt b 16 6)
    let r := { r with tS := w32 (beAt b 4 4), p := BitVec.ofNat 64 (beAt b 8 8), v := v,
                      a := BitVec.ofNat 32 (beAt b 24 4), lastSeq := some (BitVec.ofNat 16 (beAt b 2 2)),
                      lastTime := now s, entered := now s, obsAt := elapsedNs s, initPending := false, appliedSince := true,
                      horizon := horizonOf (si v) }
    let before := r.state
    let s := setRoad n r s
    let s := match RoadState.ofCode (beAt b 1 1) with
      | some st => if st = before then s else transition n st 13 s
      | none => s
    refreshEndTimes n (writeHistory n false false (settleReturn n before s))

/-- The observation that an entry of 32 bytes is for one follower: its time, lap and fraction are the manager's. -/
def entryObservation (b : Bytes) (n : Nat) : Observation :=
  { road := n, srcKind := 5, time := w32 (beAt b 4 4), lap := BitVec.ofNat 16 (beAt b 8 2), frac := w32 (beAt b 10 4),
    fracOnly := false, reacquire := false, hintValid := false, hint := 0, entry := b }

/-- A road-state entry reaches R47's queue for each road that follows it, ascending. -/
def roadEntry (b : Bytes) (s : State) : State :=
  forEach (followers (beAt b 0 1) s) (fun n => enqueueObservation (entryObservation b n)) s

/-- The entries of a ROAD_STATE payload (R62); none where the payload is not of that form. -/
def entriesOf (payload : Bytes) : List Bytes :=
  let k := beAt payload 0 1
  if 1 ≤ k ∧ k ≤ 16 ∧ payload.length = 4 + 32 * k then (List.range k).map fun i => slice payload (4 + 32 * i) 32
  else []

/-- ROAD_STATE_RECEIVE (R64, R357, R377, R387): entries come from either manager address. -/
def roadStateReceive (src : BitVec 48) (payload : Bytes) (s : State) : State :=
  forEach (entriesOf payload)
    (fun b s =>
      if rgF HIE_CFG 0 31 30 s ≠ 2 ∨ ¬ isManagerAddr src then
        forEach (followers (beAt b 0 1) s) staleObservation s
      else if stepMode s then captureInput inputRoadState b s
      else roadEntry b s) s
def execRoadStateReceive (src : BitVec 48) (payload : Bytes) (s : State) : Out :=
  .next (roadStateReceive src payload s)

/-! ### The ingest queue (R47) -/

/-- What R47's checks make of an observation. -/
inductive IngestCheck where
  | stale | idle | passed
deriving DecidableEq, Repr

/-- The checks of R47, in its order. The order of times is not asked of a road-state entry: R64 has it taken by its seq,
and an entry on a transition carries the t_s of the one before (DEDUCED). -/
def ingestCheck (o : Observation) (s : State) : IngestCheck :=
  let n := o.road % 64
  let r := road n s
  let uninit := decide (r.state = .lost) || (decide (r.state = .acquiring) && r.initPending)
  let d := sub32 o.time r.tS
  let f := sub32 o.time (now s)
  if o.srcKind ≠ roadKind n s then .stale
  else if r.state = .idle then .idle
  else if o.srcKind ≠ 5 ∧ ¬ uninit ∧ (d = 0 ∨ 2 ^ 31 ≤ d) then .stale
  else if 1000001 ≤ f ∧ f < 2 ^ 31 then .stale
  else .passed

/-- An observation that leaves the queue: discarded, or passed to its road. -/
def checkObservation (o : Observation) (s : State) : State :=
  let n := o.road % 64
  match ingestCheck o s with
  | .stale => staleObservation n s
  | .idle => bump ROA_CNT_REJ n 31 16 s
  | .passed =>
    if o.srcKind = 5 then takeEntry o.entry n s else settleReturn n (road n s).state (trackerUpdate n o s)

/-- What is kept of an observation that leaves the queue, for the happenings of its edge (R58). -/
def ingestOf (o : Observation) (s : State) : Ingested :=
  let n := o.road % 64
  { edge := edgeNow s, obs := o, road := road n s, accepted := rg ROA_CNT_ACC n s, rejected := rg ROA_CNT_REJ n s,
    drops := rg ROA_CNT_DROP n s, status := rg ROA_STATE n s, history := rg ROA_HIST n s }

/-- OBSERVATION_INGEST (R47): one observation leaves the queue on an edge; a second of the same edge waits. -/
def observationIngest (s : State) : State :=
  match s.ingest with
  | [] => s
  | o :: t =>
    if s.ingestEdge = edgeNow s then s
    else
      checkObservation o { s with ingest := t, ingestEdge := edgeNow s,
                                  ingested := some (ingestOf o s) }
def execObservationIngest (s : State) : Out := .next (observationIngest s)

/-- An observation that passed R47 is rejected by R52; the fourth in a row initialises the road. -/
def rejects (o : Observation) (s : State) : Bool :=
  let n := o.road % 64
  let r := road n s
  (r.state == .tracking || r.state == .coasting || r.state == .held) && !o.reacquire && !r.initPending
    && decide (tolLimit (rgHeldF ROA_TOL n 12 8 s) < (residual r o).2.natAbs) && decide (rgF ROA_STATE n 14 12 s < 3)

/-- The observation that leaves the queue on this edge will be applied to road `n`: a timeout of the edge gives way to it
(R58). -/
def applyComes (n : Nat) (s : State) : Bool :=
  match s.ingest with
  | [] => false
  | o :: _ =>
    decide (s.ingestEdge ≠ edgeNow s) && decide (o.road % 64 = n) && ingestCheck o s == .passed
      && (if o.srcKind = 5 then entryFresh o.entry (road n s) else !rejects o s)

/-! ### Start, stop, reacquire (R48, R49, R57) -/

/-- The period register. -/
def roadPeriod (n : Nat) (s : State) : Nat := (rg ROA_PERIOD n s).toNat

/-- Start an IDLE road (R48, R57). DESIGN CHOICE: a start forgets the last seq of a kind-5 road, so the first entry
after it is taken whatever its seq. -/
def startRoad (n : Nat) (s : State) : State :=
  let r := road n s
  if r.state ≠ .idle ∨ inReset 200 s then s
  else
    let s := setRgF ROA_STATE n 14 12 0 (clearHistory n s)
    if roadKind n s = 1 then
      let t := now s
      let p := max 1 (roadPeriod n s)
      let c := t.toNat % p
      let r := { r with n := c, period := p, lastNs := t, tS := t, p := clockPos 0 c p, v := clockRate p, a := 0,
                        obsAt := elapsedNs s, horizon := horizonOf (si (clockRate p)), initPending := false, prev := 0, pub := 0 }
      settleReturn n .idle (transition n .tracking 1 (setRoad n r s))
    else
      transition n .acquiring 1 (setRoad n { r with initPending := true, pub := 0, prev := 0, lastSeq := none } s)

/-- ROAD_START (R57). -/
def execRoadStart (n : Fin 64) (s : State) : Out := .next (startRoad n s)

/-- The observation that left the queue for road `n` on this edge: a stop discards it as stale, and it initialises the road
of a reacquire (R58). -/
def ingestedNow (n : Nat) (s : State) : Option Ingested :=
  s.ingested.filter fun x => decide (x.edge = edgeNow s ∧ x.obs.road % 64 = n)

/-- Road `n` and its registers as they were before the observation of this edge; entries sent since keep their seq. -/
def beforeIngest (n : Nat) (s : State) : State :=
  match ingestedNow n s with
  | none => s
  | some x =>
    let s := setRg ROA_CNT_ACC n x.accepted (setRg ROA_CNT_REJ n x.rejected (setRg ROA_CNT_DROP n x.drops s))
    let s := setRg ROA_STATE n x.status (setRg ROA_HIST n x.history s)
    setRoad n { x.road with sendSeq := (road n s).sendSeq } { s with ingested := none }

/-- ROAD_STOP (R49, R57). -/
def stopRoad (n : Nat) (s : State) : State :=
  let u := beforeIngest n s
  if n = 0 ∨ (road n u).state = .idle ∨ inReset 200 s then s
  else
    let u := onlyIf (ingestedNow n s).isSome (bump ROA_CNT_REJ n 31 16) u
    transition n .idle 2 (setRoad n { road n u with initPending := false } u)
def execRoadStop (n : Fin 64) (s : State) : Out := .next (stopRoad n s)

/-- ROAD_REACQUIRE (R57). -/
def reacquireRoad (n : Nat) (s : State) : State :=
  let u := beforeIngest n s
  if (road n u).state = .idle ∨ inReset 200 s ∨ roadKind n s < 2 then s
  else
    let t := transition n .acquiring 11 (setRoad n { road n u with initPending := true } u)
    match ingestedNow n s with
    | some x => checkObservation x.obs t
    | none => t
def execRoadReacquire (n : Fin 64) (s : State) : Out := .next (reacquireRoad n s)

/-- A select outside the range of its kind (R45). -/
def srcBad (kind select : Nat) : Bool := (kind == 2 && decide (3 ≤ select)) || (kind == 3 && decide (16 ≤ select))

/-- ROA_SRC (R45, R49). -/
def roaSrcWrite (path : Nat) (value : Word) (s : State) : State :=
  atInst path ROA_SRC (fun n s =>
    if n = 0 ∨ (road n s).state ≠ .idle ∨ srcBad (fld value 2 0) (fld value 13 8) then s
    else setRg ROA_SRC n (value &&& 0x3F07) s) s
def execRoaSrcWrite (path : Path) (value : Word) (s : State) : Out := .next (roaSrcWrite path value s)

/-- A period outside the range of R45. -/
def periodBad (v : Nat) : Bool := decide (v < 1000) || decide (4000000000 < v)

/-- ROA_PERIOD (R48). -/
def roaPeriodWrite (path : Nat) (value : Word) (s : State) : State :=
  atInst path ROA_PERIOD (fun n s => if periodBad value.toNat then s else setRg ROA_PERIOD n value s) s
def execRoaPeriodWrite (path : Path) (value : Word) (s : State) : Out := .next (roaPeriodWrite path value s)

/-- A write of ROA_CTRL (R57, R58): export is stored; a stop prevails over the rest. DESIGN CHOICE: start and reacquire
of one write are carried out in this order, so an IDLE road of kinds 2-5 makes both transitions. -/
def roaCtrlWrite (path : Nat) (value : Word) (s : State) : State :=
  atInst path ROA_CTRL (fun n s =>
    let s := setRgF ROA_CTRL n 4 4 (b2n (bit value 4)) s
    if bit value 1 then stopRoad n s
    else
      let s := onlyIf (bit value 0) (startRoad n) s
      onlyIf (bit value 2) (reacquireRoad n) s) s

/-- ROA_POS_LAP_READ (R53, R66): the read latches position, rate, acceleration and last observation for the path, all
of the tracker state that was published last. -/
def roaPosLapRead (path : Nat) (s : State) : State :=
  match winOf path ROA_POS_LAP s with
  | none => s
  | some n =>
    let r := road n s
    let v := si r.pubRate
    let s := setRg ROA_POS_FRAC path (w32 r.pub.toNat) s
    let s := setRg ROA_RATE_LO path (w32 (wrapI 64 v)) s
    let s := setRg ROA_RATE_HI path (w32 (wrapI 64 v / 2 ^ 32)) s
    setRg ROA_LAST_OBS path r.pubT (setRg ROA_ACCEL path r.pubA s)
def execRoaPosLapRead (path : Path) (s : State) : Out := .next (roaPosLapRead path s)

/-! ### Each edge (R48, R53, R56) -/

/-- One road publishes. -/
def publishRoad (n : Nat) (s : State) : State :=
  let r := road n s
  if r.state = .idle then s
  else
    let r := if roadKind n s = 1 then { r with n := r.countAt (now s), lastNs := now s } else r
    let p := r.publishAt (roadKind n s) (now s)
    setRoad n { r with prev := r.pub, pub := p.1, pubRate := p.2, pubA := r.a, pubT := r.tS } s

/-- ROAD_PUBLISH (R53). -/
def roadPublish (s : State) : State := forEach (List.range 64) publishRoad s
def execRoadPublish (s : State) : Out := .next (roadPublish s)

/-- CLOCK_ROAD_LAP (R48). -/
def clockRoadLap (n : Nat) (s : State) : State :=
  let r := road n s
  let c := r.countAt (now s)
  if roadKind n s ≠ 1 ∨ r.state ≠ .tracking ∨ c < r.period then s
  else
    let p := max 1 (roadPeriod n s)
    let c := c - r.period
    let r := { r with n := c, lastNs := now s, period := p, tS := now s, p := clockPos (r.lap + 1) c p,
                      v := clockRate p, horizon := horizonOf (si (clockRate p)), obsAt := elapsedNs s }
    writeHistory n false false (setRoad n r s)
def execClockRoadLap (n : Fin 64) (s : State) : Out := .next (clockRoadLap n s)

/-! ### Timeouts (R57) -/

def obsTimeoutNs (n : Nat) (s : State) : Nat := max 1 (rgF ROA_TIMEOUT n 15 0 s) * 1000
def coastLimitNs (n : Nat) (s : State) : Nat := max 1 (rgF ROA_TIMEOUT n 31 16 s) * 1000

/-- OBS_TIMEOUT (R57, R58). -/
def obsTimeout (n : Nat) (s : State) : State :=
  let r := road n s
  if applyComes n s then s
  else if (r.state = .tracking ∨ r.state = .held) ∧ roadKind n s ≠ 1 ∧ (obsTimeoutNs n s : Int) ≤ diff32 (now s) r.lastTime
  then transition n .coasting 4 s else s
def execObsTimeout (n : Fin 64) (s : State) : Out := .next (obsTimeout n s)

/-- COAST_LIMIT_EXPIRY (R57, R58). -/
def coastLimitExpiry (n : Nat) (s : State) : State :=
  let r := road n s
  if applyComes n s then s else
  match r.state with
  | .coasting =>
    if (coastLimitNs n s : Int) ≤ diff32 (now s) r.entered ∨ (r.horizon : Int) < diff32 (now s) r.tS then
      transition n .lost 6 s else s
  | .acquiring =>
    let from' := if r.appliedSince ∧ 0 < diff32 r.lastTime r.entered then r.lastTime else r.entered
    if ((obsTimeoutNs n s + coastLimitNs n s : Nat) : Int) ≤ diff32 (now s) from' then transition n .lost 6 s else s
  | _ => s
def execCoastLimitExpiry (n : Fin 64) (s : State) : Out := .next (coastLimitExpiry n s)

/-! ### A Milepost step (R57) -/

/-- What a road does on the edge of a Milepost step of `delta` ns, after the counter has moved. -/
def roadMilepostStep (delta : Word) (n : Nat) (s : State) : State :=
  let r := road n s
  if r.state = .idle then s
  else if roadKind n s = 1 then
    let c : Int := (r.n : Int) + diff32 (now s - delta) r.lastNs + si delta
    let p : Int := max 1 r.period
    let k := (c % p).toNat
    let lap := wrapI 16 ((r.lap : Int) + c / p)
    setRoad n { r with n := k, lastNs := now s, tS := now s, obsAt := elapsedNs s, p := clockPos lap k r.period }
      (clearHistory n s)
  else if roadKind n s = 0 then s
  else transition n .acquiring 12 (setRoad n { r with initPending := true } (clearHistory n s))

/-- Every road on a Milepost step. -/
def roadsMilepostStep (delta : Word) (s : State) : State := forEach (List.range 64) (roadMilepostStep delta) s

end Sys2Proof.Machine
end

