-- ==== Sys2Proof/Machine/Mains.lean ====
section
/-! DEFINITION. The mains front end: sample sets, phase trackers and their observations (R90-R98). -/

set_option Elab.async false

namespace Sys2Proof.Machine

open Sys2Proof

/-- Roads of a kind whose select names `i` (R97, R105). -/
def roadsFrom (kind i : Nat) (s : State) : List Nat :=
  (List.range 64).filter fun n => roadKind n s = kind ∧ rgF ROA_SRC n 13 8 s = i

/-- Offer an observation to every road that a source feeds. -/
def feedRoads (kind i : Nat) (time : Word) (lap : BitVec 16) (frac : Word) (hint : Option Word) (s : State) : State :=
  forEach (roadsFrom kind i s)
    (fun n => localObservation
      { road := n, srcKind := kind, time := time, lap := lap, frac := frac, fracOnly := false, reacquire := false,
        hintValid := hint.isSome, hint := hint.getD 0 }) s

/-! ### Samples (R92, R93) -/

/-- A calibrated sample and its overrange mark (R92). -/
def calibrate (raw : BitVec 24) (offset gain : Word) : Int × Bool :=
  let x := (si raw - si offset) * gain.toNat
  let y := (x + 2 ^ 21) / 2 ^ 22
  (satS 24 y, decide (si raw = -(2 ^ 23) ∨ si raw = 2 ^ 23 - 1) || decide (satS 24 y ≠ y))

/-- The sample of a channel: 0 on a disabled channel (R92). -/
def sampleOf (c : Nat) (raw : BitVec 24) (s : State) : Int × Bool :=
  if bit (rg MFE_CH_CFG c s) 0 then
    let q := calibrate raw (rg MFE_CH_OFFSET c s) (rg MFE_CH_GAIN c s)
    (q.1, q.2 || bit s.mfeStuck c)
  else (0, false)

/-- Store a channel's sample and count an overrange. -/
def storeSample (c : Nat) (q : Int × Bool) (s : State) : State :=
  let s := setRg MFE_CH_LAST c (w32 (wrapI 32 q.1)) s
  if q.2 then setCause MFE_CAUSE 0 0 (bump MFE_CH_OVR c 31 0 s) else s

/-! ### Phase trackers (R95-R97) -/

/-- The tracker signal of a phase from the eight samples (R94, R95). -/
def trackerSignal (p : Nat) (xs : List Int) (s : State) : Int :=
  let v (i : Nat) : Int := xs.getD i 0
  if bit (rg MFE_TRK_CFG p s) 1 then v p - v ((p + 1) % 3) else v p - v 3

def trkLap (p : Nat) (s : State) : Nat := rgF MFE_TRK_STAT p 31 16 s
def trkPeriod (p : Nat) (s : State) : Nat := (rg MFE_TRK_PERIOD p s).toNat

/-- Quotient rounded to nearest. -/
def roundDiv (x y : Nat) : Nat := (2 * x + y) / (2 * y)

/-- An issued observation (R97); the roads get none while the die link is down. -/
def issueMains (p : Nat) (t : Word) (frac : Word) (s : State) : State :=
  let per := trkPeriod p s
  let hint := if per = 0 then none else some (w32 (roundDiv (2 ^ 48) per))
  onlyIf (dieUp 0 s) (feedRoads 2 p t (BitVec.ofNat 16 (trkLap p s)) frac hint) (bump MFE_TRK_CNT p 15 0 s)

def excursion (p : Nat) (s : State) : State := setCause MFE_CAUSE 0 (4 + p) (bump MFE_TRK_CNT p 31 16 s)

/-- A positive crossing at `t` (R96). DESIGN CHOICE: delta is taken modulo 2^32 without a sign, so a crossing more than 2^31
ns after the previous one counts as a long delta; the manual does not say how it is reduced. -/
def positiveCrossing (p : Nat) (t : Word) (s : State) : State :=
  let k := tracker p s
  let running := k.state == .running
  -- holdoff withholds its crossings, then the tracker runs
  let k' := if k.state = .holdoff then
      { k with holdLeft := k.holdLeft - 1, state := if k.holdLeft ≤ 1 then .running else .holdoff } else k
  let accept (k : Tracker) : Tracker := { k with refT := some t, dropSince := decide (k.state = .dropout) }
  match k.refT with
  | none => setTracker p (accept k') (setRgF MFE_TRK_STAT p 31 16 0 (setRg MFE_TRK_PERIOD p 0 s))
  | some r =>
    let d := sub32 t r
    let per := trkPeriod p s
    let laps := if per = 0 then 1 else roundDiv d per
    if 15384615 ≤ d ∧ d ≤ 22222223 then
      let s := setTracker p (accept k') (addRgF MFE_TRK_STAT p 31 16 1 (setRg MFE_TRK_PERIOD p (w32 d) s))
      onlyIf running (issueMains p t 0) s
    else if 22222223 < d ∧ k.dropSince then
      onlyIf running (issueMains p t 0) (setTracker p (accept k') (addRgF MFE_TRK_STAT p 31 16 laps s))
    else if 22222223 < d then
      excursion p (setTracker p (accept k') (addRgF MFE_TRK_STAT p 31 16 (max 1 laps) s))
    else excursion p (setTracker p k' s)

/-- A negative crossing at `t` (R95). -/
def negativeCrossing (p : Nat) (t : Word) (s : State) : State :=
  let k := tracker p s
  if bit (rg MFE_TRK_CFG p s) 2 ∧ k.state = .running ∧ k.refT.isSome then issueMains p t 0x80000000 s else s

/-- Time of a crossing between two sets (R95). -/
def crossTime (ta tb : Word) (sa sb : Int) : Word :=
  ta + BitVec.ofNat 32 (wrapI 32 (Int.tdiv ((sub32 tb ta : Int) * (-sa)) (sb - sa)))

/-- The signal has stayed below drop_level for 12 ms at time `t` (R96). -/
def dropReached (k : Tracker) (t : Word) : Bool :=
  k.state != .dropout && k.belowSince.any fun b => decide (12000000 ≤ sub32 t b)

/-- Dropout of a phase is declared (R96). -/
def declareDropout (p : Nat) (s : State) : State :=
  setCause MFE_CAUSE 0 (1 + p) (setTracker p { tracker p s with state := .dropout, dropSince := true } s)

/-- A tracker on one sample set (R96, R98): levels, with the dropout that they declare, crossing, table, issue. -/
def trackerSet (p : Nat) (t : Word) (sig : Int) (s : State) : State :=
  if ¬ bit (rg MFE_TRK_CFG p s) 0 then s
  else
    let level := rgF MFE_TRK_LEVEL p 23 0 s
    let hyst : Int := rgF MFE_TRK_HYST p 23 0 s
    let k := tracker p s
    let k := { k with belowSince := if sig.natAbs < level then some (k.belowSince.getD t) else none }
    let s := setTracker p k s
    let s := onlyIf (dropReached k t) (declareDropout p) s
    let k := tracker p s
    let k := if k.state = .dropout ∧ level * 9 < sig.natAbs * 8 then
        let h := rgF MFE_TRK_CFG p 7 4 s
        { k with state := if h = 0 then .running else .holdoff, holdLeft := h } else k
    let sa : Int := k.prevSig
    let up : Bool := k.havePrev && k.armedDown && (decide (sa ≤ 0) && decide (0 < sig))
    let down : Bool := k.havePrev && k.armedUp && (decide (0 ≤ sa) && decide (sig < 0))
    let ct := crossTime k.prevTime t sa sig
    let k := { k with prevTime := t, prevSig := sig, havePrev := true,
                      armedDown := (k.armedDown && !up) || decide (sig < -hyst),
                      armedUp := (k.armedUp && !down) || decide (hyst < sig) }
    let s := setTracker p k s
    let s := onlyIf up (positiveCrossing p ct) s
    onlyIf down (negativeCrossing p ct) s

/-! ### Commands -/

/-- Phases in dropout, as the ring's drop byte shows them. -/
def dropBits (s : State) : Nat :=
  (List.range 3).foldl
    (fun n p => n + b2n (bit (rg MFE_TRK_CFG p s) 0 && (tracker p s).state == .dropout) * 2 ^ p) 0

/-- Write a sample set to the ring (R93); an index beyond a ring that has been made smaller wraps into it. -/
def writeSet (time : Word) (xs : List Int) (ovr : Nat) (s : State) : State :=
  let k := rgF MFE_BUF_CFG 0 4 0 s
  let i := rgF MFE_BUF_WR 0 15 0 s % 2 ^ k
  let a := base40 MFE_BUF_LO MFE_BUF_HI 0 s + i * 64
  let s' := { s with mfeSeq := s.mfeSeq + 1 }
  if k < 8 ∨ 16 < k then s'
  else
    let b := leBytes 4 time.toNat ++ leBytes 4 s.mfeSeq.toNat ++ (xs.flatMap fun x => leBytes 4 (wrapI 32 x))
      ++ leBytes 1 ovr ++ leBytes 1 (dropBits s)
    let s' := setRg MFE_BUF_WR 0 (w32 ((i + 1) % 2 ^ k)) s'
    if canReach .unit true a 64 s then wrBytes a (padTo 64 b) s' else s'

/-- MAINS_SAMPLE_SET (R92, R93, R96). Bit c of `live`: the stream of channel c changed. -/
def mainsSampleSet (time : Word) (raw : List (BitVec 24)) (live : BitVec 8) (s : State) : State :=
  if inReset 202 s ∨ ¬ bit (rg MFE_CTRL 0 s) 0 then s
  else if 0 < s.mfeDiscard then { s with mfeDiscard := s.mfeDiscard - 1 }
  else
    let s := { s with mfeStuck := s.mfeStuck &&& ~~~live }
    let qs := (List.range 8).map fun c => sampleOf c (raw.getD c 0) s
    let xs := qs.map fun q => q.1
    let ovr := (List.range 8).foldl (fun n c => n + b2n ((qs.getD c (0, false)).2) * 2 ^ c) 0
    let s := forEach (List.range 8) (fun c => storeSample c (qs.getD c (0, false))) s
    let s := forEach (List.range 3) (fun p s => trackerSet p time (trackerSignal p xs s) s) s
    writeSet time xs ovr s
def execMainsSampleSet (time : Word) (raw : List (BitVec 24)) (live : BitVec 8) (s : State) : Out :=
  .next (mainsSampleSet time raw live s)

/-- MAINS_DROPOUT (R96). -/
def mainsDropout (p : Nat) (s : State) : State :=
  let k := tracker p s
  match k.belowSince with
  | some t =>
    if bit (rg MFE_TRK_CFG p s) 0 ∧ k.state ≠ .dropout ∧ 12000000 ≤ sub32 (now s) t ∧ ¬ inReset 202 s then
      declareDropout p s
    else s
  | none => s
def execMainsDropout (phase : Fin 3) (s : State) : Out := .next (mainsDropout phase s)

/-- MODULATOR_STUCK (R92). The modulators go on while their die link is down. -/
def modulatorStuck (c : Nat) (s : State) : State :=
  if inReset 202 s then s
  else setCause MFE_CAUSE 0 7 { s with mfeStuck := s.mfeStuck ||| BitVec.ofNat 8 (2 ^ c) }
def execModulatorStuck (channel : Fin 8) (s : State) : Out := .next (modulatorStuck channel s)

/-- A write of MFE_TRK_CFG (R96, R98): trk_en 0 turns the tracker off; an enabled tracker starts in dropout. -/
def mfeTrkCfgWrite (path : Nat) (value : Word) (s : State) : State :=
  atInst path MFE_TRK_CFG (fun p s =>
    let was := bit (rg MFE_TRK_CFG p s) 0
    let s := setRg MFE_TRK_CFG p (value &&& 0xF7) s
    if ¬ bit value 0 then
      setTracker p { state := .off } (setRgF MFE_TRK_STAT p 31 16 0 (setRg MFE_TRK_PERIOD p 0 s))
    else if was then s else setTracker p {} s) s

/-- MFE_TRK_DISABLE (R98). -/
def execMfeTrkDisable (path : Path) (value : Word) (s : State) : Out := .next (mfeTrkCfgWrite path value s)

end Sys2Proof.Machine
end

