-- ==== Sys2Proof/Machine/Shafts.lean ====
section
/-! DEFINITION. The shaft inputs: quadrature, index and SSI channels (R99-R105). -/

set_option Elab.async false

namespace Sys2Proof.Machine

open Sys2Proof

/-- Mode of a channel: 0 off, 1 quadrature, 2 SSI; 3 is treated as 0 (SHF_CFG). -/
def shfMode (c : Nat) (s : State) : Nat :=
  let m := rgF SHF_CFG c 1 0 s
  if m = 3 then 0 else m

def shfCpr (c : Nat) (s : State) : Nat := rgF SHF_CPR c 24 0 s
def cprBad (v : Nat) : Bool := decide (v < 4) || decide (16777216 < v)
def ssiSt (c : Nat) (s : State) : Nat := rgF SHF_SSI c 14 10 s
def ssiMt (c : Nat) (s : State) : Nat := rgF SHF_SSI c 19 15 s
def ssiErr (c : Nat) (s : State) : Nat := rgF SHF_SSI c 20 20 s

/-- An SSI configuration that clocks no frames (R103). -/
def ssiBad (c : Nat) (s : State) : Bool :=
  decide (32 < ssiMt c s + ssiSt c s + ssiErr c s) || decide (ssiSt c s < 8) || decide (24 < ssiSt c s)
    || decide (16 < ssiMt c s)

/-- A channel is referenced: with index_mode 0 from the start (R101). DESIGN CHOICE: index_mode 0 counts as it stands, so that
writing it makes a running channel referenced at once, and writing 1 or 2 over it makes a channel without an index
unreferenced. -/
def shfReferenced (c : Nat) (s : State) : Bool :=
  (shaft c s).referenced || (shfMode c s == 1 && rgF SHF_CFG c 5 4 s == 0)

/-- Position fraction of a count (R100). -/
def countFrac (count cpr : Nat) : Word := w32 (count * 2 ^ 32 / max 1 cpr)

/-- A shaft observation goes to its roads while the die link is up (R105). -/
def issueShaft (c : Nat) (t : Word) (hint : Option Word) (s : State) : State :=
  if dieUp 1 s then feedRoads 3 c t (shaft c s).lap (shaft c s).frac hint s else s

/-- A rate as a 32-bit hint. -/
def hintOf (x : Int) : Word := w32 (wrapI 32 (satS 32 x))

/-- +1 or -1 for a change of one input: A leading B counts up (R100). -/
def quadStep (a0 b0 a1 : Bool) : Int :=
  -- 00 -> 10 -> 11 -> 01 -> 00 counts up
  if a0 = a1 then (if a0 then (if b0 then -1 else 1) else (if b0 then 1 else -1))
  else if a1 then (if b0 then -1 else 1) else (if b0 then 1 else -1)

/-- Move the count by one (R100). -/
def moveCount (h : Shaft) (cpr : Nat) (d : Int) : Shaft :=
  let h := if 0 < d then
      (if h.count + 1 < cpr then { h with count := h.count + 1 } else { h with count := 0, lap := h.lap + 1 })
    else (if 0 < h.count then { h with count := h.count - 1 } else { h with count := cpr - 1, lap := h.lap - 1 })
  { h with frac := countFrac h.count cpr }

/-- The observation that is due on a channel goes out with the position as it stands (R102, R105): the count and the index
of its QCLK cycle have acted. An unreferenced channel issues none. -/
def issueDue (c : Nat) (s : State) : State :=
  let h := shaft c s
  match h.due with
  | none => s
  | some (_, t, hint) =>
    if shfReferenced c s then
      issueShaft c t hint (setShaft c { h with due := none, lastObs := some t, lastObsAt := elapsedNs s } s)
    else setShaft c { h with due := none } s

/-- The observation that is due goes out unless `time` names its own QCLK cycle. -/
def issueEarlier (c : Nat) (time : Word) (s : State) : State :=
  onlyIf ((shaft c s).due.any fun d => d.1 != time) (issueDue c) s

/-- QUADRATURE_CHANGE (R99, R100, R102): `time` is the Milepost time of acceptance. A level is accepted in every mode and
in a reset; it counts in quadrature mode. DESIGN CHOICE: the count stands still while cpr is invalid, where R100 gives it no
range; the rate hint is truncated, as R102 names no rounding. -/
def quadratureChange (c : Nat) (a b : Bool) (time : Word) (s : State) : State :=
  let s := issueEarlier c time s
  let h := shaft c s
  if inReset 203 s ∨ shfMode c s ≠ 1 ∨ (h.a = a ∧ h.b = b) then setShaft c { h with a := a, b := b } s
  else if h.a ≠ a ∧ h.b ≠ b then
    setCause SHF_CAUSE c 0 (bump SHF_CNT c 31 16 (setShaft c { h with a := a, b := b } s))
  else if cprBad (shfCpr c s) then setShaft c { h with a := a, b := b } s
  else
    let t := time - w32 ((rgF SHF_CFG c 13 8 s + 1) * 5)
    let d0 := quadStep h.a h.b a
    let d := if bit (rg SHF_CFG c s) 2 then -d0 else d0
    let hint := match h.lastChange with
      | some p =>
        let dt := if elapsedNs s - h.sinceAt < 2 ^ 31 then sub32 t p else elapsedNs s - h.sinceAt
        if h.idleAfter ∨ dt = 0 then none else some (hintOf (d * (2 ^ 48 / (shfCpr c s * dt) : Nat)))
      | none => none
    let h := moveCount { h with a := a, b := b, lastChange := some t, since := t, sinceAt := elapsedNs s, idleAfter := false }
      (shfCpr c s) d
    let due : Bool := match h.lastObs with
      | some p =>
        let least := rgF SHF_OBS c 15 0 s * 1000
        decide (least = 0 ∨ 2 ^ 31 ≤ elapsedNs s - h.lastObsAt ∨ (least : Int) ≤ diff32 t p)
      | none => true
    setShaft c { h with due := if due then some (time, t, hint) else h.due } s
def execQuadratureChange (channel : Fin 16) (a b : Bool) (time : Word) (s : State) : Out :=
  .next (quadratureChange channel a b time s)

/-- SHAFT_INDEX (R101, R105): `time` is the Milepost time of acceptance. -/
def shaftIndex (c : Nat) (time : Word) (s : State) : State :=
  let s := issueEarlier c time s
  let h := shaft c s
  let mode := rgF SHF_CFG c 5 4 s
  if inReset 203 s ∨ shfMode c s ≠ 1 ∨ mode = 0 ∨ (bit (rg SHF_CFG c s) 6 ∧ ¬ (h.a ∧ h.b)) then s
  else if ¬ h.referenced then setShaft c { h with count := 0, lap := 0, frac := 0, referenced := true } s
  else if h.count = 0 then s
  else
    let s := setCause SHF_CAUSE c 1 (bump SHF_CNT c 15 0 s)
    if mode = 2 then
      setShaft c { h with lap := if shfCpr c s ≤ 2 * h.count then h.lap + 1 else h.lap, count := 0, frac := 0 } s
    else s
def execShaftIndex (channel : Fin 16) (time : Word) (s : State) : Out := .next (shaftIndex channel time s)

/-- SHAFT_IDLE_OBS (R102). -/
def shaftIdleObs (c : Nat) (s : State) : State :=
  let s := issueDue c s
  let h := shaft c s
  let idle := rgF SHF_OBS c 31 16 s
  if inReset 203 s ∨ shfMode c s ≠ 1 ∨ ¬ shfReferenced c s ∨ idle = 0 ∨ cprBad (shfCpr c s)
      ∨ ageOf h.since h.sinceAt s < idle * 1000 then s
  else
    issueShaft c (now s) none (setShaft c { h with idleAfter := true, since := now s, sinceAt := elapsedNs s,
                                                   lastObs := some (now s), lastObsAt := elapsedNs s } s)
def execShaftIdleObs (channel : Fin 16) (s : State) : Out := .next (shaftIdleObs channel s)

/-- SSI_FRAME_START (R103). -/
def ssiFrameStart (c : Nat) (s : State) : State :=
  let h := shaft c s
  let period := max 20 (min 10000 (rgF SHF_SSI_TIME c 15 0 s)) * 1000
  let due : Bool := match h.ssiStart with
    | some t => decide (period ≤ sub32 (now s) t)
    | none => true
  if inReset 203 s ∨ shfMode c s ≠ 2 ∨ h.ssiBusy ∨ ¬ due then s
  else if ssiBad c s then setCause SHF_CAUSE c 4 s
  else setShaft c { h with ssiBusy := true, ssiDiscard := false, ssiStart := some (now s) } s
def execSsiFrameStart (channel : Fin 16) (s : State) : Out := .next (ssiFrameStart channel s)

/-- Gray code to binary, bit by bit from the top. -/
def grayToBin (g : Nat) : Nat → Nat
  | 0 => 0
  | k + 1 => grayToBin g k ^^^ (g / 2 ^ k)

/-- SSI_FRAME_DONE (R103, R104). `raw` holds the bits read, the last one in bit 0; `lineOk` says that the line had the
levels of R103; `edgeTime` is the Milepost time of the first falling edge. DESIGN CHOICE: a multi-turn change of exactly half
the range and a fraction step of exactly half a lap are taken as backward, where R104 speaks of less than half. -/
def ssiFrameDone (c : Nat) (raw : Word) (lineOk : Bool) (edgeTime : Word) (s : State) : State :=
  let h := shaft c s
  if ¬ h.ssiBusy then s
  else if inReset 203 s ∨ h.ssiDiscard then setShaft c { h with ssiBusy := false, ssiDiscard := false } s
  else
    let st := ssiSt c s
    let mt := ssiMt c s
    let err := ssiErr c s
    let s := setShaft c { h with ssiBusy := false } s
    if ¬ lineOk then setCause SHF_CAUSE c 2 (bump SHF_CNT_FRAME c 31 16 s)
    else if err = 1 ∧ bit raw 0 = bit (rg SHF_SSI c s) 21 then
      setCause SHF_CAUSE c 3 (bump SHF_CNT_FRAME c 15 0 s)
    else
      let code := raw.toNat / 2 ^ err % 2 ^ (mt + st)
      let val := if bit (rg SHF_SSI c s) 22 then grayToBin code (mt + st) % 2 ^ (mt + st) else code
      let turns := val / 2 ^ st
      let frac := w32 (val % 2 ^ st * 2 ^ (32 - st))
      let first := h.ssiLast.isNone
      let lap : BitVec 16 :=
        if 0 < mt then
          match h.ssiTurns with
          | some old => h.lap + BitVec.ofNat 16 (wrapI 16 (sgn mt (turns + 2 ^ mt - old)))
          | none => BitVec.ofNat 16 turns
        else if first then 0
        else
          let d := diff32 frac h.frac
          if 0 < d ∧ frac.toNat < h.frac.toNat then h.lap + 1
          else if d < 0 ∧ h.frac.toNat < frac.toNat then h.lap - 1 else h.lap
      let t := edgeTime - w32 (rgF SHF_LATCH c 11 0 s)
      let pos : BitVec 48 := BitVec.ofNat 48 (lap.toNat * 2 ^ 32 + frac.toNat)
      let hint := match h.ssiLast with
        | some (t0, p0) =>
          if diff32 t t0 = 0 then none else some (hintOf (Int.tdiv (dist48 p0 pos * 2 ^ 16) (diff32 t t0)))
        | none => none
      let h := { h with ssiBusy := false, lap := lap, frac := frac, referenced := true, ssiLast := some (t, pos),
                        ssiTurns := some turns, lastObs := some t,
                        lastObsAt := elapsedNs s }
      issueShaft c t hint (setShaft c h s)
def execSsiFrameDone (channel : Fin 16) (raw : Word) (lineOk : Bool) (edgeTime : Word) (s : State) : Out :=
  .next (ssiFrameDone channel raw lineOk edgeTime s)

/-- A cleared, unreferenced channel that keeps its input levels. A frame on its clock completes and is discarded. -/
def clearShaft (c : Nat) (s : State) : State :=
  let h := shaft c s
  setShaft c { a := h.a, b := h.b, since := now s, sinceAt := elapsedNs s, ssiBusy := h.ssiBusy, ssiDiscard := h.ssiBusy } s

/-- Set cfg_err where the mode's configuration is refused (R100, R103). -/
def checkShaft (c : Nat) (s : State) : State :=
  if (shfMode c s = 1 ∧ cprBad (shfCpr c s)) ∨ (shfMode c s = 2 ∧ ssiBad c s) then setCause SHF_CAUSE c 4 s else s

/-- SHF_CFG (R105): a change of mode clears the position. -/
def shfCfgWrite (path : Nat) (value : Word) (s : State) : State :=
  atInst path SHF_CFG (fun c s =>
    let was := shfMode c s
    let s := issueDue c s
    let s := setRg SHF_CFG c (value &&& 0x3F77) s
    let h := shaft c s
    let s := onlyIf h.ssiBusy (setShaft c { h with ssiDiscard := true }) s
    let s := if shfMode c s = was then s else clearShaft c s
    checkShaft c s) s
def execShfCfgWrite (path : Path) (value : Word) (s : State) : Out := .next (shfCfgWrite path value s)

/-- SHF_CPR (R100, R105). DESIGN CHOICE: a write in SSI mode with a frame under way meets two rows of R105, and both act: the
frame is discarded and the write is ignored. -/
def shfCprWrite (path : Nat) (value : Word) (s : State) : State :=
  atInst path SHF_CPR (fun c s =>
    let h := shaft c s
    let s := onlyIf h.ssiBusy (setShaft c { h with ssiDiscard := true }) s
    if shfMode c s ≠ 0 then s
    else
      let s := setRg SHF_CPR c (value &&& 0x1FFFFFF) s
      onlyIf (cprBad (shfCpr c s)) (setCause SHF_CAUSE c 4) s) s

/-- SHF_SSI (R103). -/
def shfSsiWrite (path : Nat) (value : Word) (s : State) : State :=
  atInst path SHF_SSI (fun c s => checkShaft c (setRg SHF_SSI c (value &&& 0x7FFFFFFF) s)) s

/-- SHF_POS_LAP_READ (R105, R109). -/
def shfPosLapRead (path : Nat) (s : State) : State :=
  match winOf path SHF_POS_LAP s with
  | some c => setRg SHF_POS_FRAC path (shaft c s).frac s
  | none => s
def execShfPosLapRead (path : Path) (s : State) : Out := .next (shfPosLapRead path s)

end Sys2Proof.Machine
end

