-- ==== Sys2Proof/Machine/Milepost.lean ====
section
/-! DEFINITION. The Milepost counter, its increment and its one step, the two-step FIFOs and the extended-time record
(R22-R33, R39, R41). -/

set_option Elab.async false

namespace Sys2Proof.Machine

open Sys2Proof

/-- The path is the one that MPT_CTRL.servo_owner names: 0 and 5-7 the supervisor's cores, 1-4 a session; the loader's
own path is not bound (R24). -/
def servoOwner (path : Nat) (s : State) : Bool :=
  let o := rgF MPT_CTRL 0 2 0 s
  decide (path = loaderPath) || (if 1 ≤ o ∧ o ≤ 4 then decide (path = o + 3) else decide (path < 4))

/-- A write that only the servo owner may make (R24). -/
def ownerWrite (path : Nat) (f : State → State) (s : State) : State :=
  if servoOwner path s ∧ writable path MPT_INCR_INT 0 s then f s else s

/-- Whether an 8.32 increment lies in the range of R22. -/
def incrOk (x : Nat) : Bool := decide (0x3FC000000 ≤ x ∧ x ≤ 0x404000000)

/-- The active increment, which MPT_INCR_INT and MPT_INCR_FRAC read as (R23). -/
def activeIncr (s : State) : Nat := rgF MPT_INCR_INT 0 7 0 s * 2 ^ 32 + (rg MPT_INCR_FRAC 0 s).toNat

/-- Make an 8.32 increment active. -/
def setIncr (x : Nat) (s : State) : State :=
  setRg MPT_INCR_INT 0 (w32 (x / 2 ^ 32 % 256)) (setRg MPT_INCR_FRAC 0 (w32 x) s)

/-- MPT_INCR_FRAC_WRITE stages the fraction (R23). -/
def mptIncrFracWrite (path : Nat) (value : Word) (s : State) : State :=
  ownerWrite path (fun s => { s with mp := { s.mp with stagedFrac := value } }) s
def execMptIncrFracWrite (path : Path) (value : Word) (s : State) : Out := .next (mptIncrFracWrite path value s)

/-- Commit an 8.32 increment: refused outside the range of R22; the last commit wins (R23). -/
def commitIncr (x : Nat) (s : State) : State :=
  if incrOk x then
    setRgF MPT_STATUS 0 2 2 1 { s with mp := { s.mp with stagedIncr := BitVec.ofNat 40 x } }
  else setCause MPT_CAUSE 0 3 (bump MPT_REFUSED 0 31 16 s)

/-- MPT_INCR_INT_WRITE stages the integer part and commits the pair (R22, R23). -/
def mptIncrIntWrite (path : Nat) (value : Word) (s : State) : State :=
  ownerWrite path (fun s => commitIncr (value.toNat % 256 * 2 ^ 32 + s.mp.stagedFrac.toNat) s) s
def execMptIncrIntWrite (path : Path) (value : Word) (s : State) : Out := .next (mptIncrIntWrite path value s)

/-- MPT_STEP.go requests the one step, or is refused (R26). -/
def mptStepGo (path : Nat) (value : Word) (s : State) : State :=
  ownerWrite path (fun s =>
    if ¬ bit value 0 then s
    else if bit (rg MPT_STATUS 0 s) 0 then setCause MPT_CAUSE 0 2 (bump MPT_REFUSED 0 15 0 s)
    else setRgF MPT_STATUS 0 1 1 1 s) s
def execMptStepGo (path : Path) (value : Word) (s : State) : Out := .next (mptStepGo path value s)

/-- Staging of the step target in MPT_SET_NS and MPT_SET_FRAC (R24, R26). -/
def mptSetWrite (path r : Nat) (value : Word) (s : State) : State := ownerWrite path (setRg r 0 value) s

/-- The counter takes the step target; step_used sets, and roads and gate lists react (R26, R59, R253). -/
def takeStep (s : State) : State :=
  let old := nowX s
  let s := gatesLoseRoads s
  let target := (rg MPT_SET_NS 0 s).toNat * 2 ^ 32 + (rg MPT_SET_FRAC 0 s).toNat
  let s := { s with mp := { s.mp with counter := BitVec.ofNat 64 target } }
  let s := setCause MPT_CAUSE 0 1 (setRgF MPT_STATUS 0 1 0 1 s)
  let delta := nowX s - old
  gatesMilepostStep delta (roadsMilepostStep (lowNs delta) s)

/-- The counter adds the active increment; a carry out of bit 63 is a wrap, which extended time and the journal count
(R22, R30, R340). -/
def addIncr (s : State) : State :=
  let sum := s.mp.counter.toNat + activeIncr s
  let s := { s with mp := { s.mp with counter := BitVec.ofNat 64 sum } }
  if sum < 2 ^ 64 then s
  else
    let s := { s with mp := { s.mp with extWraps := s.mp.extWraps + 1, wrapAt := some (elapsedNs s) } }
    setCause MPT_CAUSE 0 0 (pulseSource .wrap (bump JNL_EPOCH 0 15 0 s))

/-- One TCLK rising edge: the step or the addition, then a committed increment becomes active for the next edge (R23,
R26, R27). Shaft observations of the QCLK cycles before the edge reach the
road unit (R105). At the end of the edge before, the commits that waited for a firing change their records, and the records that
did not fire are deferred (R71, R75). The steps of gate lists that fired on the edge before take effect (R250). -/
def tclkEdge (s : State) : State :=
  let s := forEach (List.range 16) issueDue s
  let s := countDeferrals (applyCommits (fun _ _ => true) s)
  let s := { s with mp := { s.mp with tclk := s.mp.tclk + 1, elapsed := s.mp.elapsed + activeIncr s } }
  let s := if bit (rg MPT_STATUS 0 s) 1 then takeStep s else addIncr s
  takeDueSteps (if bit (rg MPT_STATUS 0 s) 2 then setRgF MPT_STATUS 0 2 2 0 (setIncr s.mp.stagedIncr.toNat s) else s)

/-- MILEPOST_TICK (R22). -/
def execMilepostTick (s : State) : Out := .next (tclkEdge s)

/-- INCREMENT_APPLIED (R23): the TCLK edge on which a committed increment becomes active. -/
def incrementApplied (s : State) : State := if bit (rg MPT_STATUS 0 s) 2 then tclkEdge s else s
def execIncrementApplied (s : State) : Out := .next (incrementApplied s)

/-- STEP_TAKEN (R26): the TCLK edge on which a pending step is taken. -/
def stepTaken (s : State) : State := if bit (rg MPT_STATUS 0 s) 1 then tclkEdge s else s
def execStepTaken (s : State) : Out := .next (stepTaken s)

/-- MPT_NS_READ latches the fraction for the reading path only (R25). -/
def mptNsRead (path : Nat) (s : State) : State := setRg MPT_FRAC path (w32 s.mp.counter.toNat) s
def execMptNsRead (path : Path) (s : State) : Out := .next (mptNsRead path s)

/-- Two-step FIFO of a trunk (R39). -/
def ts2 (t : Nat) (s : State) : List Ts2Entry := sget [] t s.mp.ts2
def setTs2 (t : Nat) (q : List Ts2Entry) (s : State) : State :=
  { s with mp := { s.mp with ts2 := sset [] t q s.mp.ts2 } }

/-- An egress timestamp enters a trunk's two-step FIFO, or is discarded when it is full (R39). -/
def pushTs2 (t : Nat) (e : Ts2Entry) (s : State) : State :=
  if (ts2 t s).length < 64 then setTs2 t (ts2 t s ++ [e]) s
  else setCause MPT_CAUSE 0 6 (bump MPT_TS2_LEVEL (128 + t) 31 16 s)

/-- The trunk whose FIFO a path's window shows. -/
def ts2Window (path : Nat) (s : State) : Option Nat :=
  match winOf path MPT_TS2_TIME s with
  | some p => if 128 ≤ p ∧ p < 132 then some (p - 128) else none
  | none => none

/-- MPT_TS2_TIME_READ removes the head entry (R39). -/
def mptTs2TimeRead (path : Nat) (s : State) : State :=
  match ts2Window path s with
  | some t => setTs2 t (ts2 t s).tail s
  | none => s
def execMptTs2TimeRead (path : Path) (s : State) : Out := .next (mptTs2TimeRead path s)

/-- MPT_FW_SET (R41): accepted from paths 0-3 only. -/
def mptFwSetWrite (path : Nat) (value : Word) (s : State) : State :=
  if path < 4 then
    atGlobal path MPT_FW_SET
      (forEach [0, 1, 2] fun i s => onlyIf (bit value i) (setCause MPT_CAUSE 0 (7 + i)) s) s
  else s
def execMptFwSetWrite (path : Path) (value : Word) (s : State) : Out := .next (mptFwSetWrite path value s)

/-- EXT_TIME_PUBLISH (R31, R32): the firmware makes seq odd, writes the record and makes seq even again; a late
publication raises 1449 through MPT_FW_SET. -/
def extTimePublish (taiBase : BitVec 64) (utc : BitVec 16) (taiValid late : Bool) (s : State) : State :=
  let a := supervisorBase
  let seq := rdWord a s + 2
  let ext := s.mp.extWraps.toNat * 2 ^ 32 + (now s).toNat
  let s := wrBytes a (leBytes 4 (seq.toNat / 2 * 2) ++ leBytes 4 (1 + 2 * b2n taiValid) ++ leBytes 8 ext
    ++ leBytes 8 taiBase.toNat ++ leBytes 2 utc.toNat ++ zeros 6) s
  onlyIf late (mptFwSetWrite 0 4) s
def execExtTimePublish (taiBase : BitVec 64) (utcOffset : BitVec 16) (taiValid late : Bool) (s : State) : Out :=
  .next (extTimePublish taiBase utcOffset taiValid late s)

end Sys2Proof.Machine
end

