-- ==== Sys2Proof/Machine/Macs.lean ====
section
/-! DEFINITION. The MACs: reception and filtering, PAUSE and PFC, pre-emption, transmission with timestamps, and the
trunk PCS (R34, R35, R38-R40, R192-R205). -/

set_option Elab.async false

namespace Sys2Proof.Machine

open Sys2Proof

/-! ### Timestamps (R34, R35) -/

/-- Corrections of a port's mode in tenths of a nanosecond: ingress, egress. -/
def correction (p : Nat) (s : State) : Nat × Nat :=
  if 128 ≤ p then (512, 448) else if portMode p s = 0 then (32600, 15400) else (11200, 7200)

/-- Milepost interpolated to sixteenths of the TCLK period, less `num / den` ns, as whole nanoseconds. -/
def stamp (phase : Nat) (num : Int) (den : Nat) (s : State) : Word :=
  let raw : Int := s.mp.counter.toNat * 16 + activeIncr s * phase
  BitVec.ofNat 32 (wrapI 32 ((raw * den - num * 2 ^ 36) / ((den : Int) * 2 ^ 36)))

/-- Ingress timestamp of a frame whose timestamp point is now. -/
def ingressStamp (p phase : Nat) (s : State) : Word := stamp phase (correction p s).1 10 s

/-- Egress timestamp. -/
def egressStamp (p phase : Nat) (s : State) : Word := stamp phase (-(correction p s).2) 10 s

/-- Bit time of a serial port in units of 5/128 ns (R175). -/
def bitTime (p : Nat) (s : State) : Nat := rgF FPA_SER_BIT p 24 0 s

/-- Ingress timestamp of a serial message: half a bit time and 60 ns earlier (R35). -/
def serialStamp (p phase : Nat) (s : State) : Word := stamp phase (bitTime p s * 5 + 60 * 256) 256 s

/-! ### Reception (R192) -/

/-- The port's receiver is up: a frame can arrive. An unused trunk receives nothing (R14), nor does any port inside a verge
window (R182). -/
def portReceives (p : Nat) (s : State) : Bool :=
  linkUp p s && !inReset (portFunction p) s
    && (decide (128 ≤ p) && trunkRole (p - 128) s != roleUnused || (portOn p s && dieUp (p / 64) s && (verge p s).state != .active && !isSerial p s))

/-- The MAC discards what it receives into rx_dropped: reception is disabled or the port is isolated (R192, R333). -/
def discards (p : Nat) (s : State) : Bool := !bit (rg MAC_CFG p s) 0 || isolated p s

/-- Register of filter entry e of a MAC: 0x180 for entries 0-15, 0x2C0 for 16-31 (R206). -/
def filtLo (e : Nat) : Nat := if e < 16 then MAC_FILT_LO + 8 * e else MAC_FILT_LO + 0x140 + 8 * (e - 16)

/-- A valid filter entry matches the address; one written on this edge still counts as it was (R193). -/
def filterHit (p : Nat) (a : BitVec 48) (s : State) : Bool :=
  (List.range (if p < 128 then 16 else 32)).any fun e =>
    bit (rgHeld (filtLo e + 4) p s) 31
      && decide (rgHeldF (filtLo e + 4) p 15 0 s * 2 ^ 32 + (rgHeld (filtLo e) p s).toNat = a.toNat)

/-- The filter table of R192 for frames other than MAC control. -/
def accepts (p : Nat) (a : BitVec 48) (s : State) : Bool :=
  let cfg := rg MAC_CFG p s
  filterHit p a s || bit cfg 2
    || (destKind a == 1 && bit cfg 3) || (destKind a == 2 && bit cfg 4)

/-- A Waypost frame: EtherType 0x88B5, or UDP to the Waypost port with filter entry 0 as its destination (R211). -/
def isWaypost (p : Nat) (b : Bytes) (s : State) : Bool :=
  decide (etherType b = 0x88B5)
    || (udpDst b == some (rgF WPT_CFG 0 15 0 s) && dstAddr b == filterAddr p s)

/-- A twin frame of type 1 or 2 on the backup trunk goes to the twin unit, never enters Junction and counts in rx_frames_ok
(R356). -/
def isBackupFrame (p : Nat) (b : Bytes) (s : State) : Bool :=
  backupTrunk s == some (p - 128) && decide (128 ≤ p) && decide (beAt b 12 2 = rgF TWN_CFG 0 15 0 s)
    && dstAddr b == filterAddr p s && bit (rg TWN_CFG 0 s) 31 && (beAt b 14 1 == 1 || beAt b 14 1 == 2)

/-- Pass an accepted frame of length l with FCS to Junction. -/
def passFrame (p l : Nat) (ts : Word) (b : Bytes) (s : State) : State :=
  let s := macGood 0 p l (dstAddr b) s
  if isBackupFrame p b s then s
  else setMacRun p { macRun p s with rxq := (macRun p s).rxq ++ [{ bytes := b, ts := ts }] } s

/-! ### PAUSE and PFC (R194-R198) -/

def gateProt (p : Nat) (s : State) : BitVec 8 := BitVec.ofNat 8 (rgF MAC_PAUSE_CFG p 15 8 s)

/-- A received PAUSE frame names every class (R194, R195); time 0 cancels any pause in progress of the classes that are
not gate-protected. -/
def takePause (p : Nat) (quanta : BitVec 16) (s : State) : State :=
  if ¬ pausePort p s then macBump 16 p s
  else
    let s := onlyIf (gateProt p s != 0) (macBump 41 p) (macBump 17 p s)
    if ¬ bit (rg MAC_PAUSE_CFG p s) 0 then s
    else
      let m := macRun p s
      let g := gateProt p s
      setMacRun p (if quanta = 0 then
          { m with linkPause := none, linkMask := 0, pfc := sfilter (fun c => bit g c) m.pfc }
        else { m with linkPause := some quanta, linkMask := ~~~g }) s

/-- A received PFC frame (R194, R195): each class that it names and that is not gate-protected is held for its own time;
time 0 cancels any pause in progress of the class. -/
def takePfc (p : Nat) (classes : BitVec 8) (quanta : List (BitVec 16)) (s : State) : State :=
  if ¬ pausePort p s then macBump 16 p s
  else
    let s := onlyIf (gateProt p s &&& classes != 0) (macBump 41 p) (macBump 18 p s)
    if ¬ bit (rg MAC_PAUSE_CFG p s) 1 then s
    else
      let named := (List.range 8).filter fun c => bit classes c && !bit (gateProt p s) c
      let one (m : MacRun) (c : Nat) : MacRun :=
        let q := quanta.getD c 0
        { m with pfc := sset 0 c q m.pfc,
                 linkMask := if q = 0 then m.linkMask &&& ~~~(BitVec.ofNat 8 (2 ^ c)) else m.linkMask }
      setMacRun p (named.foldl one (macRun p s)) s

/-- PAUSE_RECEIVE and PFC_RECEIVE: a good MAC control frame arrives. -/
def controlArrives (p : Nat) (f : State → State) (s : State) : State :=
  if ¬ portReceives p s ∧ ¬ (isSerial p s ∧ portOn p s) then s
  else if discards p s then macBump 21 p s
  else f s
def execPauseReceive (port : ExtPort) (quanta : BitVec 16) (s : State) : Out :=
  .next (controlArrives port (takePause port quanta) s)
def execPfcReceive (port : ExtPort) (classes : BitVec 8) (quanta : List (BitVec 16)) (s : State) : Out :=
  .next (controlArrives port (takePfc port classes quanta) s)

/-- MAC control frames by opcode (R194). -/
def takeControl (p : Nat) (b : Bytes) (s : State) : State :=
  match beAt b 14 2 with
  | 0x0001 => takePause p (BitVec.ofNat 16 (beAt b 16 2)) s
  | 0x0101 =>
    takePfc p (BitVec.ofNat 8 (beAt b 17 1)) ((List.range 8).map fun c => BitVec.ofNat 16 (beAt b (18 + 2 * c) 2)) s
  | _ => macBump 16 p s

/-- PAUSE_TIMER_EXPIRY (R195). -/
def pauseTimerExpiry (p c : Nat) (link : Bool) (s : State) : State :=
  let m := macRun p s
  if link then setMacRun p { m with linkPause := none, linkMask := 0 } s
  else setMacRun p { m with pfc := sset 0 c 0 m.pfc } s
def execPauseTimerExpiry (port : ExtPort) (cls : Fin 8) (link : Bool) (s : State) : Out :=
  .next (pauseTimerExpiry port cls link s)

/-- A write of MAC_PAUSE_CFG (R198). -/
def macPauseCfgWrite (path : Nat) (value : Word) (s : State) : State :=
  atInst path MAC_PAUSE_CFG (fun p s =>
    let s := setRg MAC_PAUSE_CFG p (value &&& 0xFF03) s
    let m := macRun p s
    let m := if bit value 0 then m else { m with linkPause := none, linkMask := 0 }
    let m := if bit value 1 then m else { m with pfc := [] }
    let g := gateProt p s
    setMacRun p { m with linkMask := m.linkMask &&& ~~~g, pfc := sfilter (fun c => !bit g c) m.pfc } s) s

/-- A write of MAC_PAUSE_TX requests one frame on a trunk or T1L port; a later request replaces it (R197). -/
def macPauseTxWrite (path : Nat) (value : Word) (s : State) : State :=
  atInst path MAC_PAUSE_TX (fun p s =>
    if bit value 31 ∧ pausePort p s then setMacRun p { macRun p s with pauseReq := some value } s else s) s
def execMacPauseTxPause (path : Path) (value : Word) (s : State) : Out := .next (macPauseTxWrite path value s)
def execMacPauseTxPfc (path : Path) (value : Word) (s : State) : Out := .next (macPauseTxWrite path value s)

/-- The PAUSE or PFC frame of a MAC_PAUSE_TX word (R192, R197), without FCS: from entry 0, each named class with the same
quanta. PRESUMED: the destination and the layout are those of IEEE 802.3 annex 31. -/
def controlFrame (p : Nat) (w : Word) (s : State) : Bytes :=
  let head := ethHeader 0x0180C2000001 (filterAddr p s) 0x8808
  let q := fld w 15 0
  padFrame (head ++ (if bit w 30 then
      beBytes 2 0x0101 ++ beBytes 2 (fld w 23 16)
        ++ (List.range 8).flatMap fun c => beBytes 2 (if bit (BitVec.ofNat 8 (fld w 23 16)) c then q else 0)
    else beBytes 2 0x0001 ++ beBytes 2 q))

/-- The line is at a frame or fragment boundary, and no verge window keeps the port from transmitting (R180, R197). -/
def lineFree (p : Nat) (s : State) : Bool :=
  linkUp p s && (handed p s).isNone && (decide (128 ≤ p) || (verge p s).state == .none)

/-- PAUSE_FRAME_SEND (R197). -/
def pauseFrameSend (p : Nat) (s : State) : State :=
  match (macRun p s).pauseReq with
  | some w =>
    if lineFree p s ∧ pausePort p s then
      let s := macBump (if bit w 30 then 35 else 34) p (setMacRun p { macRun p s with pauseReq := none } s)
      putLine p .frame (withFcs (controlFrame p w s)) s
    else s
  | none => s
def execPauseFrameSend (port : ExtPort) (s : State) : Out := .next (pauseFrameSend port s)

/-! ### Frames in (R192, R200) -/

/-- A port on which no Waypost enters: a field port, or an analysis trunk (R13, R14). -/
def noWaypost (p : Nat) (s : State) : Bool := decide (p < 128) || trunkRole (p - 128) s == roleAnalysis

/-- The filter's decision on a frame, its address already decided in `pass` or not (R13, R192, R193). -/
def filtered (p : Nat) (pass : Option Bool) (b : Bytes) (s : State) : Bool :=
  !(pass.getD (accepts p (dstAddr b) s)) || (noWaypost p s && isWaypost p b s)

/-- A whole received frame with its FCS (R13, R192, R194). -/
def receiveWhole (p : Nat) (frame : Bytes) (symbolErr : Bool) (pass : Option Bool) (ts : Word) (s : State) : State :=
  let l := frame.length
  if discards p s then macBump 21 p s
  else
    let s := onlyIf symbolErr (macBump 13 p) s
    let b := frame.take (l - 4)
    if l < 64 then macBump 14 p s
    else if maxLen p s < l then macBump 15 p s
    else if crcOf 2 b ≠ leVal (frame.drop (l - 4)) then macBump 12 p s
    else if beAt b 12 2 = 0x8808 then takeControl p b s
    else if filtered p pass b s then macBump 16 p s
    else passFrame p l ts b s

/-- MAC_RECEIVE_FRAME (R192). -/
def macReceiveFrame (p : Nat) (frame : Bytes) (symbolErr : Bool) (phase : Nat) (s : State) : State :=
  if portReceives p s then receiveWhole p frame symbolErr none (ingressStamp p phase s) s else s
def execMacReceiveFrame (port : ExtPort) (frame : Bytes) (symbolErr : Bool) (phase : Fin 16) (s : State) : Out :=
  .next (macReceiveFrame port frame symbolErr phase s)

/-- The partner's verify request is answered at once, or at the next boundary of the line (R199). -/
def sendResponse (p : Nat) (s : State) : State :=
  if (macRun p s).responseDue ∧ lineFree p s then
    putLine p .response verifyPacket (setMacRun p { macRun p s with responseDue := false } s)
  else s

def verifyRequest (p : Nat) (s : State) : State :=
  if canPreempt p s then sendResponse p (setMacRun p { macRun p s with responseDue := true } s) else s

/-- A fragment joins the frame in reassembly; its address is decided with the bytes that complete it (R193, R200). -/
def joinFragment (p : Nat) (r : Reassembly) (x : FragmentIn) (s : State) : Reassembly :=
  let b := r.bytes ++ x.bytes
  { r with bytes := b, count := r.count + 1, symbolErr := r.symbolErr || x.symbolErr,
           pass := if r.pass.isNone ∧ 6 ≤ b.length then some (accepts p (dstAddr b) s) else r.pass }

/-- FRAGMENT_RECEIVE (R199, R200). -/
def fragmentReceive (p : Nat) (x : FragmentIn) (first last ok : Bool) (s : State) : State :=
  if ¬ portReceives p s then s
  else if x.verify then verifyRequest p s
  else
    let m := macRun p s
    let held := m.reassembly.any fun r => r.symbolErr
    -- the frame ends under R200; PCS errors in it count as in any other
    let bad (err : Bool) (s : State) : State :=
      macBump 20 p (onlyIf err (macBump 13 p) (setMacRun p { macRun p s with reassembly := none } s))
    if ¬ preActive p s ∨ ¬ ok then bad (held || x.symbolErr) s
    else
      -- a first fragment during a reassembly ends the frame in reassembly
      let s := if first ∧ m.reassembly.isSome then bad held s else s
      match (if first then some { bytes := [], count := 0, ts := ingressStamp p x.phase s } else m.reassembly) with
      | none => bad x.symbolErr s
      | some r =>
        let r := joinFragment p r x s
        if last then
          let s := setMacRun p { macRun p s with reassembly := none } s
          receiveWhole p r.bytes r.symbolErr r.pass r.ts (macAdd 19 r.count p s)
        else setMacRun p { macRun p s with reassembly := some r } s
def execFragmentReceive (port : ExtPort) (bytes : FragmentIn) (first last smdOk countOk mcrcOk : Bool) (s : State) : Out :=
  .next (fragmentReceive port bytes first last (smdOk && countOk && mcrcOk) s)

/-! ### Pre-emption verification (R199) -/

/-- A write of MAC_PRE_CFG; ports without pre-emption ignore it. A change of en restarts verification, verify_dis alone
does not (R199). -/
def macPreCfgWrite (path : Nat) (value : Word) (s : State) : State :=
  atInst path MAC_PRE_CFG (fun p s =>
    if ¬ canPreempt p s then s
    else
      let was := rg MAC_PRE_CFG p s
      let s := setRg MAC_PRE_CFG p (value &&& 0x7FF) s
      if bit was 0 = bit value 0 then showVerify p s else restartVerify p s) s

/-- PREEMPT_VERIFY: an attempt is sent, or three are unanswered (R199). -/
def preemptVerify (p : Nat) (s : State) : State :=
  if ¬ canPreempt p s ∨ rgF MAC_PRE_STAT p 1 0 s ≠ 1 ∨ ¬ linkUp p s then s
  else if rgF MAC_PRE_STAT p 3 2 s < 3 then
    onlyIf (decide (128 ≤ p) || (verge p s).state == .none)
      (fun s => putLine p .verify verifyPacket (addRgF MAC_PRE_STAT p 3 2 1 s)) s
  else
    onlyIf (decide (128 ≤ p)) (setCause TRK_CAUSE (p - 128) 5) (setVerification p .failed s)
def execPreemptVerify (port : ExtPort) (s : State) : Out := .next (preemptVerify port s)

/-- VERIFY_RESPONSE_RECEIVE (R199). -/
def verifyResponseReceive (p : Nat) (s : State) : State :=
  if canPreempt p s ∧ rgF MAC_PRE_STAT p 1 0 s = 1 ∧ 0 < rgF MAC_PRE_STAT p 3 2 s ∧ linkUp p s then
    setVerification p .succeeded s
  else s
def execVerifyResponseReceive (port : ExtPort) (s : State) : Out := .next (verifyResponseReceive port s)

/-! ### Frames out -/

/-- The tag that a copy to an external port leaves with (R212): untagged and padded, with its own tag, or with a new one.
Frames from internal ports leave as they are. -/
def retag (p : Nat) (f : JFrame) (s : State) : Bytes :=
  let b := f.bytes
  if f.internal then b
  else if bit (rg JCT_P_CFG p s) 15 ∧ f.vid = rgF JCT_P_CFG p 11 0 s then
    padFrame (if f.tagged then b.take 12 ++ b.drop 16 else b)
  else if f.tagged then putAt b 14 (beBytes 2 (beAt b 14 2 / 4096 * 4096 + f.vid))
  else b.take 12 ++ beBytes 2 0x8100 ++ beBytes 2 (f.cls * 8192 + f.vid) ++ b.drop 12

/-- The bytes of a copy as it leaves, without FCS (R212, R229, R267). -/
def outBytes (p : Nat) (c : Copy) (f : JFrame) (s : State) : Bytes :=
  let b := retag p f s
  let b := match f.stream with
    | some (_, q) => if c.tag then insertRtag q b else b
    | none => b
  if c.trunc ≠ 0 then b.take c.trunc else b

/-- A PTP event message in a frame (R37-R40): message offset and type 0-3. -/
def ptpEvent (b : Bytes) : Option (Nat × Nat) :=
  match ptpAt b with
  | some o =>
    let t := beAt b o 1 % 16
    if t < 4 ∧ o + 34 ≤ b.length then some (o, t) else none
  | none => none

/-- A carry of a ones' complement sum. -/
def foldCarry (n : Nat) : Nat := n % 65536 + n / 65536

/-- The UDP checksum of a frame whose eight bytes at `o` become `v`, incrementally under RFC 1624 (R40); a checksum of 0 is
none. -/
def udpUpdate (o : Nat) (v b : Bytes) : Bytes :=
  match udpAt b with
  | none => b
  | some u =>
    let hc := beAt b (u + 6) 2
    if hc = 0 then b
    else
      let sum := (List.range 4).foldl
        (fun n k => n + (65535 - beAt b (o + 2 * k) 2) + beAt v (2 * k) 2) (65535 - hc)
      let c := 65535 - foldCarry (foldCarry sum)
      putAt b (u + 6) (beBytes 2 (if c = 0 then 65535 else c))

/-- correctionField of an event message plus `add`, saturated, and whether it saturates (R40). R38 does not say what an
overflow of a one-step addition gives: it saturates as R40's does, with no count and no cause (DESIGN CHOICE, log entry
171). -/
def newCorrection (b : Bytes) (o add : Nat) : BitVec 64 × Bool :=
  let cf := sgn 64 (beAt b (o + 8) 8) + (add : Int)
  if 2 ^ 63 ≤ cf then (0x7FFFFFFFFFFFFFFF, true) else (BitVec.ofInt 64 cf, false)

/-- An event message with `add` in its correctionField (R38, R40). R38 names the FCS alone: that a one-step message over
UDP/IPv4 has its UDP checksum updated as R40's is a DESIGN CHOICE (log entry 171). -/
def correctMessage (add : Nat) (b : Bytes) : Bytes :=
  match ptpEvent b with
  | some (o, _) =>
    let v := beBytes 8 (newCorrection b o add).1.toNat
    putAt (udpUpdate (o + 8) v b) (o + 8) v
  | none => b

/-- What the transparent clock adds to a copy between external ports that leaves at `te` (R40). -/
def residence (c : Copy) (f : JFrame) (te : Word) (s : State) : Option Nat :=
  let cfg := rg MPT_CTRL 0 s
  match ptpEvent f.bytes with
  | some (_, t) =>
    if ¬ bit cfg 8 ∨ 132 ≤ f.src ∨ c.mirror ∨ (udpAt f.bytes).isSome ∧ ¬ bit cfg 9 then none
    else some ((te - f.ts).toNat * 65536 + (if bit cfg 10 ∧ t = 0 then (rg MPT_PORT_LINKDLY f.src s).toNat else 0))
  | none => none

/-- The counts of the transparent clock (R40). -/
def transparentClock (c : Copy) (f : JFrame) (te : Word) (s : State) : State :=
  match residence c f te s, ptpEvent f.bytes with
  | some add, some (o, _) =>
    let s := onlyIf (newCorrection f.bytes o add).2 (fun s => setCause MPT_CAUSE 0 5 (bump MPT_TC_SAT 0 31 0 s)) s
    bump MPT_TC_COUNT 0 31 0 s
  | _, _ => s

/-- An event message of the device itself that the port handles: ptp_en, and a transport that matches (log entry 50). -/
def ownEvent (p : Nat) (f : JFrame) (s : State) : Option (Nat × Nat) :=
  let transport := rgF MPT_PORT_CTRL p 3 2 s
  if 132 ≤ f.src ∧ ptpEn p s ∧ (2 ≤ transport ∨ ((udpAt f.bytes).isSome ↔ transport = 1)) then ptpEvent f.bytes
  else none

/-- Two-step: an event message from the device on a two_step trunk is sent unmodified, and its egress timestamp enters the
trunk's FIFO (R39). -/
def twoStepEntry (p : Nat) (f : JFrame) (te : Word) (s : State) : Option Ts2Entry :=
  match ownEvent p f s with
  | some (o, t) =>
    if 128 ≤ p ∧ bit (rg MPT_PORT_CTRL p s) 1 then
      some { seqId := BitVec.ofNat 16 (beAt f.bytes (o + 30) 2), msgType := BitVec.ofNat 4 t,
             domain := BitVec.ofNat 8 (beAt f.bytes (o + 4) 1), time := te }
    else none
  | none => none

/-- The reference of a one-step event message of the device (R38). -/
def oneStepOf (p : Nat) (f : JFrame) (s : State) : Option Word := if (ownEvent p f s).isSome then f.oneStep else none

/-- A one-step request that cannot be met drops the frame (R38). -/
def oneStepBad (p : Nat) (f : JFrame) (te : Word) (s : State) : Bool :=
  match oneStepOf p f s with
  | some r => decide (2 ^ 31 ≤ (te - r).toNat)
  | none => false

def dropOneStep (p : Nat) (s : State) : State :=
  setCause MPT_CAUSE 0 4 (bump MPT_ONESTEP_DROP 0 31 0 (endHanded p s))

/-- The bytes of a copy as they leave with egress timestamp `c.te` (R38-R40). -/
def sentBytes (p : Nat) (c : Copy) (f : JFrame) (s : State) : Bytes :=
  let b := outBytes p c f s
  match c.te with
  | none => b
  | some te =>
    match oneStepOf p f s, residence c f te s with
    | some r, _ => if (twoStepEntry p f te s).isSome then b else correctMessage ((te - r).toNat * 65536) b
    | none, some add => correctMessage add b
    | none, none => b

/-- A MAC ends a copy after `n` bytes of it: with the inverse of their FCS, or a preemptable fragment with the inverted
mCRC; tx_stomped counts it (R201). -/
def stompLine (p n : Nat) (c : Copy) (s : State) : State :=
  let m := macRun p s
  let b := match jframe c.frame s with
    | some f => (sentBytes p c f s).take n
    | none => []
  let s :=
    if preemptable p c.cls s then
      putLine p (if c.sent = 0 then .first m.smd else .later m.smd ((m.fragment - 1) % 4))
        (b.drop c.sent ++ leBytes 4 (2 ^ 32 - 1 - mcrcOf b)) s
    else putLine p .frame (stomped b) s
  macBump 38 p s

/-- The buffer reports an uncorrectable cell: a copy that has started ends under R201, one that has not is dropped, and so
are the frame's other copies not started, queued or handed over (R228). -/
def bufferEcc (p cell : Nat) (c : Copy) (s : State) : State :=
  let count (x : Copy) (s : State) : State :=
    setCause JCT_CAUSE 0 5 (bump JCT_Q_RESIDUE (x.port * 8 + x.cls) 15 0 s)
  let s := bump JCT_CNT_ECC 0 15 0 s
  let s := dropUnstarted c.frame count s
  let s := forEach ((handedOf c.frame s).filter fun x => x.te.isNone && decide (x.port ≠ p))
    (fun x s => endHanded x.port (count x s)) s
  let s := onlyIf (c.te.isSome || decide (0 < cell)) (stompLine p (max c.sent (256 * cell)) c) s
  endHanded p (count c s)

/-- The next point at which the frame on the line is to be pre-empted (R258): where the fit test placed one, or the first
point that R199 allows when an express copy or a hold of its class asks for it (R196). -/
def stopPoint (p total : Nat) (c : Copy) (s : State) : Option Nat :=
  if ¬ preemptable p c.cls s ∨ (suspended p s).isSome then none
  else
    let soon := c.sent + minFragment p s - 4
    let next :=
      if s.tpk.preempting.contains p ∨ classHeld p c.cls s then
        some (if c.stopAt = 0 then soon else min soon c.stopAt)
      else if c.stopAt ≠ 0 then some c.stopAt
      else none
    next.filter fun n => decide (n + 64 ≤ total)

/-- The first byte of a copy leaves (R34): its egress timestamp, and what PTP does on it (R38-R40); none when a one-step
request cannot be met. -/
def startCopy (p phase : Nat) (c : Copy) (f : JFrame) (s : State) : Option (Copy × State) :=
  if c.te.isSome then some (c, s)
  else
    let te := egressStamp p phase s
    let m := macRun p s
    let s' := onlyIf (preemptable p c.cls s) (setMacRun p { m with smd := (m.smd + 1) % 4, fragment := 0 }) s
    match twoStepEntry p f te s with
    | some e => some ({ c with te := some te }, pushTs2 (p - 128) e s')
    | none =>
      if oneStepBad p f te s then none
      else some ({ c with te := some te }, transparentClock c f te s')

/-- The coordinator's transmit opportunity allows a frame now (R174): the first within to_timer bit times of the beacon,
each further one within burst_tmr bit times of the one before. Other ports need none. -/
def mayTransmit (p : Nat) (s : State) : Bool :=
  !plcaCoordinator p s ||
    (match (portRun p s).cycleStart with
      | none => false
      | some t =>
        decide (0 < (portRun p s).oppLeft) &&
          (match (portRun p s).oppEnd with
            | none => decide (sub32 (now s) t ≤ rgF FPA_T1S_PLCA p 15 8 s * 100)
            | some e => decide (diff32 (now s) e ≤ rgF FPA_T1S_BURST p 15 8 s * 100)))

/-- A frame of `n` bytes uses the transmit opportunity (R174). -/
def useOpportunity (p n : Nat) (s : State) : State :=
  if plcaCoordinator p s then
    setPortRun p { portRun p s with
      oppLeft := (portRun p s).oppLeft - 1, oppEnd := some (now s + w32 (n * 800)) } s
  else s

/-- A copy that has started goes on to its end or to a pre-emption point (R199, R202, R258). -/
def finishCopy (p : Nat) (c : Copy) (f : JFrame) (s : State) : State :=
  let b := sentBytes p c f s
  let total := b.length + 4
  let m := macRun p s
  let kind : LineKind :=
    if 0 < c.sent then .later m.smd ((m.fragment - 1) % 4)
    else if preemptable p c.cls s then .first m.smd else .frame
  match stopPoint p total c s with
  | some n =>
    let s := macBump 36 p (onlyIf (decide (c.sent = 0)) (macBump 37 p) s)
    let s := setMacRun p { macRun p s with fragment := m.fragment + 1 } s
    let s := putLine p kind ((b.take n).drop c.sent ++ leBytes 4 (mcrcOf (b.take n))) s
    setPreempting p false (setSuspended p (some { c with sent := n, stopAt := 0 }) (setHanded p none s))
  | none =>
    let s := onlyIf (decide (0 < c.sent)) (macBump 36 p) s
    let s := putLine p kind ((withFcs b).drop c.sent) (useOpportunity p total s)
    endHanded p (macGood 22 p total (dstAddr b) s)

/-- A verge window keeps a copy off the line: while it is active every one, and from its request on one that has not
started (R180, R182). -/
def vergeHolds (p : Nat) (c : Copy) (s : State) : Bool :=
  decide (p < 128) && ((verge p s).state == .active || ((verge p s).state == .deferring && c.te.isNone))

/-- MAC_TRANSMIT_FRAME (R34, R38-R40, R174, R180, R199, R202, R228): the MAC transmits the handed copy, whole or up to a
pre-emption point. A cut-through copy whose last byte has not arrived starts and goes on. -/
def macTransmit (p phase collisions : Nat) (x : CellAnswer) (s : State) : State :=
  match handed p s with
  | none => s
  | some c =>
    match jframe c.frame s with
    | none => endHanded p s
    | some f =>
      if 132 ≤ p ∨ isSerial p s ∨ ¬ linkUp p s ∨ vergeHolds p c s ∨ ¬ mayTransmit p s then s
      else if ¬ bit (rg MAC_CFG p s) 1 then macBump 43 p (endHanded p s)
      else
        let s := onlyIf (decide (x.ans = .corrected)) (bump JCT_CNT_ECC 0 31 16) s
        if x.ans = .uncorrectable then bufferEcc p x.cell c s
        else
          let s := onlyIf (portMode p s == 1 && decide (p < 128)) (macAdd 39 collisions p) s
          if p < 128 ∧ portMode p s = 1 ∧ 16 ≤ collisions then macBump 40 p (endHanded p s)
          else
            match startCopy p phase c f s with
            | none => dropOneStep p s
            | some (c, s) => if f.cutting then setHanded p (some c) s else finishCopy p c f (setHanded p (some c) s)
def execMacTransmitFrame (port : ExtPort) (phase : Fin 16) (collisions : Nat) (ans : CellAnswer) (s : State) : Out :=
  .next (macTransmit port phase collisions ans s)

/-! ### Trunk PCS (R205) -/

/-- A trunk runs the KR backplane PMD (TRK_CFG.pmd). -/
def isKr (t : Nat) (s : State) : Bool := rgF TRK_CFG t 1 0 s != 1

/-- Status bits 6:0 of a trunk from what its PCS reports (R205): an unused trunk receives nothing (R14); training and FEC
belong to KR, with train_en, and with fec_req when the partner agrees. -/
def pcsStatus (t : Nat) (x : PcsReport) (hiBer localFault remoteFault : Bool) (s : State) : Nat :=
  if trunkRole t s = roleUnused then 0
  else
    let kr (b : Nat) : Bool := isKr t s && bit (rg TRK_CFG t s) b
    b2n (x.lock && !hiBer && !localFault && !remoteFault) + 2 * b2n x.lock + 4 * b2n hiBer + 8 * b2n localFault
      + 16 * b2n remoteFault + 32 * b2n (x.trainDone && kr 3) + 64 * b2n (x.fecAgreed && kr 4)

/-- The counts that a PCS report brings (R207). -/
def pcsCounts (t : Nat) (x : PcsReport) (s : State) : State :=
  let s := addRgF TRK_CNT_BLK t 15 0 x.ber (addRgF TRK_CNT_BLK t 31 16 x.errored s)
  onlyIf (bit (rg TRK_STAT t s) 6) (addRgF TRK_CNT_FEC t 31 16 x.corrected) s

/-- TRUNK_LINK_CHANGE (R205, R216): what the PCS of a trunk reports. -/
def trunkLinkChange (t : Nat) (x : PcsReport) (hiBer localFault remoteFault : Bool) (s : State) : State :=
  if inReset (128 + t) s then s
  else
    let old := rg TRK_STAT t s
    let s := setRgF TRK_STAT t 6 0 (pcsStatus t x hiBer localFault remoteFault s) s
    let new := rg TRK_STAT t s
    let s := onlyIf (trunkRole t s != roleUnused) (pcsCounts t x) s
    let s := onlyIf (bit new 2 && !bit old 2) (setCause TRK_CAUSE t 1) s
    let s := onlyIf ((bit new 3 && !bit old 3) || (bit new 4 && !bit old 4)) (setCause TRK_CAUSE t 2) s
    if bit old 0 = bit new 0 then s
    else
      let s := onlyIf (!bit new 0) (fun s => linkFailed (128 + t) (lineLost (128 + t) s)) s
      pulseSource (.port (128 + t) (if bit new 0 then 0 else 1)) (setCause TRK_CAUSE t 0 s)
def execTrunkLinkChange (trunk : Fin 4) (blockLock : PcsReport) (hiBer localFault remoteFault : Bool) (s : State) : Out :=
  .next (trunkLinkChange trunk blockLock hiBer localFault remoteFault s)

/-- FEC_UNCORRECTABLE_BLOCK (R205): only while FEC is in use. -/
def fecUncorrectable (t : Nat) (s : State) : State :=
  if inReset (128 + t) s ∨ ¬ bit (rg TRK_STAT t s) 6 then s
  else setCause TRK_CAUSE t 4 (bump TRK_CNT_FEC t 15 0 s)
def execFecUncorrectableBlock (trunk : Fin 4) (s : State) : Out := .next (fecUncorrectable trunk s)

end Sys2Proof.Machine
end

