-- ==== Sys2Proof/Machine/Replication.lean ====
section
/-! DEFINITION. Sequence recovery and latent-error detection (R266, R269-R273). -/

set_option Elab.async false

namespace Sys2Proof.Machine

open Sys2Proof

def genEn (n : Nat) (s : State) : Bool := bit (rg FRE_STR_CFG n s) 31
def recEn (n : Nat) (s : State) : Bool := bit (rg FRE_STR_CFG n s) 30
def trunkA (n : Nat) (s : State) : Nat := 128 + rgF FRE_STR_CFG n 23 22 s
def trunkB (n : Nat) (s : State) : Nat := 128 + rgF FRE_STR_CFG n 25 24 s

/-- History length (R269). -/
def histLen (n : Nat) (s : State) : Nat := max 1 (min 128 (rgF FRE_STR_REC n 7 0 s))

/-- The recovery history: bit j stands for sequence recov - j. -/
def recHist (n : Nat) (s : State) : BitVec 128 :=
  (rg (FRE_STR_HIST + 12) n s ++ rg (FRE_STR_HIST + 8) n s ++ rg (FRE_STR_HIST + 4) n s ++ rg FRE_STR_HIST n s : BitVec 128)

/-- Store the history, with the bits at or above hist_len 0. -/
def setRecHist (n : Nat) (h : BitVec 128) (s : State) : State :=
  let v := h.toNat % 2 ^ histLen n s
  setRg (FRE_STR_HIST + 12) n (w32 (v / 2 ^ 96)) (setRg (FRE_STR_HIST + 8) n (w32 (v / 2 ^ 64))
    (setRg (FRE_STR_HIST + 4) n (w32 (v / 2 ^ 32)) (setRg FRE_STR_HIST n (w32 v) s)))

/-- Count a passed frame or a discarded duplicate in the latent period (R272); a period of 0 disables the test. -/
def countLatent (n : Nat) (passed : Bool) (s : State) : State :=
  if ¬ bit (rg FRE_STR_CFG n s) 26 ∨ rgF FRE_STR_LAT n 31 16 s = 0 then s
  else if passed then { s with freP := sset 0 n (sget 0 n s.freP + 1) s.freP }
  else { s with freD := sset 0 n (sget 0 n s.freD + 1) s.freD }

/-- A frame passes recovery. -/
def recPass (n : Nat) (s : State) : State × Bool := (countLatent n true (bump FRE_CNT_PASS n 31 0 s), true)

/-- Recovery of a frame with a sequence number (R269): whether it passes. -/
def recoverySeq (n : Nat) (q : BitVec 16) (s : State) : State × Bool :=
  let hl := histLen n s
  let recov := BitVec.ofNat 16 (rgF FRE_STR_STAT n 15 0 s)
  let h := recHist n s
  let d := sgn 16 (q - recov).toNat
  if bit (rg FRE_STR_STAT n s) 16 then
    recPass n (setRecHist n (BitVec.allOnes 128) (setRg FRE_STR_STAT n (w32 q.toNat) s))
  else if (hl : Int) ≤ d ∨ d ≤ -(hl : Int) then
    (setCause FRE_CAUSE 0 0 (bump FRE_CNT_ROGUE n 31 16 s), false)
  else if 0 < d then
    let lost := ((List.range d.toNat).filter fun i => !bit h (hl - 1 - i)).length
    let s := addRgF FRE_CNT_LOST n 31 0 lost s
    recPass n (setRecHist n ((h <<< d.toNat) ||| 1) (setRgF FRE_STR_STAT n 15 0 q.toNat s))
  else if bit h (-d).toNat then
    (countLatent n false (bump FRE_CNT_DISC n 31 0 s), false)
  else recPass n (setRecHist n (h ||| (1 <<< (-d).toNat)) s)

/-- A passed frame proves bad: its history bit is cleared while it lies in the window (R270). -/
def revertSeq (n : Nat) (q : BitVec 16) (s : State) : State :=
  let d := sgn 16 (BitVec.ofNat 16 (rgF FRE_STR_STAT n 15 0 s) - q).toNat
  if 0 ≤ d ∧ d < histLen n s then
    setCause FRE_CAUSE 0 5 (bump FRE_CNT_MISC2 n 15 0 (setRecHist n (recHist n s &&& ~~~((1 : BitVec 128) <<< d.toNat)) s))
  else s

/-- What stage 4 makes of a frame (R266). -/
inductive Stage4 where
  | drop
  | pass (bytes : Bytes) (recovered : Option (Nat × BitVec 16)) (generate : Option Generator)

/-- Lookup stage 4 (R266, R274): the stream that the frame's rule names. -/
def stage4 (n p : Nat) (b : Bytes) (s : State) : State × Stage4 :=
  if inReset 198 s then (bump FRE_GLB_DROP 0 31 0 s, .drop)
  else if p = trunkA n s ∨ p = trunkB n s then
    if ¬ recEn n s then (s, .pass b none none)
    else if hasRtag b then
      let r := recoverySeq n (rtagSeq b) s
      if r.2 then
        (r.1, .pass (if bit (rg FRE_STR_CFG n s) 29 then stripRtag b else b) (some (n, rtagSeq b)) none)
      else (r.1, .drop)
    else
      let s := setCause FRE_CAUSE 0 3 (bump FRE_CNT_ROGUE n 15 0 s)
      (s, if bit (rg FRE_STR_CFG n s) 28 then .pass b none none else .drop)
  else if genEn n s ∧ ¬ bit (rg FRE_STR_CFG n s) 27 then (s, .pass b none (some (generator n s)))
  else (s, .pass b none none)

/-- RECOVERY_RESET_TIMEOUT (R271). -/
def recoveryResetTimeout (n : Nat) (s : State) : State :=
  if inReset 198 s ∨ ¬ recEn n s ∨ rgF FRE_STR_REC n 31 16 s = 0 ∨ bit (rg FRE_STR_STAT n s) 16 then s
  else setCause FRE_CAUSE 0 2 (bump FRE_CNT_MISC n 31 16 (setRgF FRE_STR_STAT n 16 16 1 s))
def execRecoveryResetTimeout (stream : Fin 1024) (s : State) : Out := .next (recoveryResetTimeout stream s)

/-- The latent period of a stream begins (R272). -/
def startPeriod (n : Nat) (s : State) : State := { s with freP := sset 0 n 0 s.freP, freD := sset 0 n 0 s.freD }

/-- LATENT_PERIOD_END (R272). -/
def latentPeriodEnd (n : Nat) (s : State) : State :=
  if inReset 198 s ∨ ¬ bit (rg FRE_STR_CFG n s) 26 ∨ rgF FRE_STR_LAT n 31 16 s = 0 then s
  else
    let p := sget 0 n s.freP
    let d := sget 0 n s.freD
    let s := startPeriod n s
    if rgF FRE_STR_LAT n 15 0 s + d < p then setCause FRE_CAUSE 0 1 (bump FRE_CNT_MISC2 n 31 16 s) else s
def execLatentPeriodEnd (stream : Fin 1024) (s : State) : Out := .next (latentPeriodEnd stream s)

/-- A write of FRE_STR_CFG: rec_en from 0 to 1 sets take_any (R273), lat_en from 0 to 1 begins a latent period (R272). -/
def freCfgWrite (n : Nat) (value : Word) (s : State) : State :=
  let was := recEn n s
  let s := onlyIf (bit value 26 && !bit (rg FRE_STR_CFG n s) 26) (startPeriod n) s
  let s := setRg FRE_STR_CFG n value s
  if ¬ was ∧ recEn n s then setRgF FRE_STR_STAT n 16 16 1 s else s

/-- A write of FRE_STR_LAT: a new latent_period_ms begins a latent period (R272). -/
def freLatWrite (n : Nat) (value : Word) (s : State) : State :=
  onlyIf (decide (fld value 31 16 ≠ rgF FRE_STR_LAT n 31 16 s)) (startPeriod n) s |> setRg FRE_STR_LAT n value

/-- A write of FRE_STR_REC: a write to hist_len sets take_any (R273). -/
def freRecWrite (n : Nat) (value : Word) (s : State) : State :=
  let s := setRg FRE_STR_REC n value s
  setRgF FRE_STR_STAT n 16 16 1 (setRecHist n (recHist n s) s)

/-- A write of FRE_STR_SEQ is ignored while gen_en is 1 (R273). -/
def freSeqWrite (n : Nat) (value : Word) (s : State) : State :=
  if genEn n s then s else setRgF FRE_STR_SEQ n 15 0 value.toNat s

end Sys2Proof.Machine
end

