-- ==== Sys2Proof/Machine/Tolls.lean ====
section
/-! DEFINITION. Tolls: two-rate three-colour markers (R244, R245). -/

set_option Elab.async false

namespace Sys2Proof.Machine

open Sys2Proof

/-- Instances of a register that the store lists, ascending. -/
def listedInsts (r : Nat) : Sparse Word → List Nat
  | [] => []
  | (k, _) :: t => if k / 2 ^ 24 = r then k % 2 ^ 24 :: listedInsts r t else listedInsts r t

/-- Buckets in units of 2^-20 byte, and their capacities. -/
def tollC (i : Nat) (s : State) : Nat := sget 0 i s.tpk.tollC
def tollP (i : Nat) (s : State) : Nat := sget 0 i s.tpk.tollP
def tollCap (r i : Nat) (s : State) : Nat := rgF r i 23 0 s * 2 ^ 20
def setTollC (i v : Nat) (s : State) : State :=
  { s with tpk := { s.tpk with tollC := sset 0 i (min v (tollCap TPK_TOLL_CBS i s)) s.tpk.tollC } }
def setTollP (i v : Nat) (s : State) : State :=
  { s with tpk := { s.tpk with tollP := sset 0 i (min v (tollCap TPK_TOLL_PBS i s)) s.tpk.tollP } }

/-- Meter a frame of `b` bytes (R244); during a reset of function 197 it is green and uncounted (R260). -/
def tollMeter (i b : Nat) (dei : Bool) (s : State) : State × Colour :=
  if inReset 197 s then (s, .green)
  else
    let n := b * 2 ^ 20
    let pre := bit (rg TPK_TOLL_CFG i s) 0 && dei
    if tollP i s < n then (bump TPK_TOLL_RED i 31 0 s, .red)
    else if pre ∨ tollC i s < n then (bump TPK_TOLL_YELLOW i 31 0 (setTollP i (tollP i s - n) s), .yellow)
    else (bump TPK_TOLL_GREEN i 31 0 (setTollC i (tollC i s - n) (setTollP i (tollP i s - n) s)), .green)

/-- Give back `b` bytes to each bucket that a frame of the colour debited (R245). -/
def tollGiveBack (i b : Nat) (c : Colour) (s : State) : State :=
  if inReset 197 s then s
  else
    match c with
    | .red => s
    | .yellow => setTollP i (tollP i s + b * 2 ^ 20) s
    | .green => setTollC i (tollC i s + b * 2 ^ 20) (setTollP i (tollP i s + b * 2 ^ 20) s)

/-- TOLL_ACCRUAL (R244): the rates of every Toll are added. -/
def tollAccrual (s : State) : State :=
  if inReset 197 s then s
  else
    let cs := listedInsts TPK_TOLL_CIR s.regs
    let ps := (listedInsts TPK_TOLL_PIR s.regs).filter fun i => !cs.contains i
    forEach (cs ++ ps)
      (fun i s =>
        let cir := (rg TPK_TOLL_CIR i s).toNat
        let pir := (rg TPK_TOLL_PIR i s).toNat
        setTollC i (tollC i s + cir) (setTollP i (tollP i s + max pir cir) s)) s
def execTollAccrual (s : State) : Out := .next (tollAccrual s)

end Sys2Proof.Machine
end

