-- ==== Sys2Proof/Machine/WaypostBase.lean ====
section
/-! DEFINITION. Building and sending Waypost messages (R393-R399). -/

set_option Elab.async false

namespace Sys2Proof.Machine

open Sys2Proof

/-! ### Message types and flags (R395, R400) -/

abbrev wpRegRd : Nat := 1
abbrev wpRegWr : Nat := 2
abbrev wpMemRd : Nat := 3
abbrev wpMemWr : Nat := 4
abbrev wpDoorbell : Nat := 5
abbrev wpEvent : Nat := 6
abbrev wpImgChunk : Nat := 7
abbrev wpImgCommit : Nat := 8
abbrev wpRelay : Nat := 9
abbrev wpRoadState : Nat := 10
abbrev wpClaimEcho : Nat := 11
abbrev wpLm64 : Nat := 12

abbrev flagResponse : Nat := 1
abbrev flagOpen : Nat := 2
abbrev flagUnsolicited : Nat := 4

/-! ### Messages (R395, R396) -/

/-- The 16-byte header. -/
def wpHeader (type session flags : Nat) (epoch seq : Word) (length status : Nat) : Bytes :=
  [1] ++ beBytes 1 type ++ beBytes 1 session ++ beBytes 1 flags ++ beBytes 4 epoch.toNat ++ beBytes 4 seq.toNat
    ++ beBytes 2 length ++ beBytes 1 status ++ [0]

/-- The trailer of a message under a key. -/
def wpTrailer (key msg : Bytes) : Bytes := (hmac256 key msg).take 16

/-- Header, payload and trailer. -/
def wpMessage (key : Bytes) (type session flags : Nat) (epoch seq : Word) (status : Nat) (payload : Bytes) : Bytes :=
  let m := wpHeader type session flags epoch seq payload.length status ++ payload
  m ++ wpTrailer key m

/-- K_E: the key of a host session's epoch. -/
def epochKey (base : Bytes) (session : Nat) (epoch : Word) : Bytes :=
  hmac256 base ([0x57, 0x50, 0x53, 0x4B] ++ beBytes 1 session ++ beBytes 4 epoch.toNat)

/-! ### Encapsulation (R393) -/

/-- Sum of 16-bit words in network order. -/
def wordSum : Bytes → Nat
  | a :: b :: t => a.toNat * 256 + b.toNat + wordSum t
  | [a] => a.toNat * 256
  | [] => 0

/-- The Internet checksum of bytes whose checksum field is 0. -/
def inetSum (b : Bytes) : Nat :=
  let n := wordSum b
  65535 - (if n = 0 then 0 else (n - 1) % 65535 + 1)

/-- The UDP pseudo-header. -/
def pseudoHeader (src dst len : Nat) : Bytes := beBytes 4 src ++ beBytes 4 dst ++ [0, 17] ++ beBytes 2 len

/-- A UDP datagram with its checksum. -/
def udpDatagram (src dst sport dport : Nat) (data : Bytes) : Bytes :=
  let len := 8 + data.length
  let h := beBytes 2 sport ++ beBytes 2 dport ++ beBytes 2 len
  let c := inetSum (pseudoHeader src dst len ++ h ++ [0, 0] ++ data)
  h ++ beBytes 2 (if c = 0 then 65535 else c) ++ data

/-- An IPv4 packet without options; its type of service, identification, don't-fragment bit and time to live are free
values, drawn from `d` on. -/
def ipv4Packet (proto d src dst : Nat) (body : Bytes) : Bytes :=
  let f (i : Nat) : Byte := Config.freeByte (d + i)
  let a := [0x45, f 0] ++ beBytes 2 (20 + body.length) ++ [f 1, f 2, f 3 &&& 0x40, 0, f 4] ++ beBytes 1 proto
  let z := beBytes 4 src ++ beBytes 4 dst
  a ++ beBytes 2 (inetSum (a ++ [0, 0] ++ z)) ++ z ++ body

/-- Station address of a trunk. -/
def trunkAddr (t : Nat) (s : State) : BitVec 48 := filterAddr (128 + t) s

/-- The Waypost UDP port. -/
def udpPort (s : State) : Nat := rgF WPT_CFG 0 15 0 s

/-- A Waypost message leaves on a trunk, from switch port 199 in class 7, for a peer. -/
def wpSendOn (t : Nat) (peer : WpPeer) (msg : Bytes) (s : State) : State :=
  match peer.udp with
  | none => internalFrame 199 (128 + t) 7 (padFrame (ethHeader peer.mac (trunkAddr t s) 0x88B5 ++ msg)) s
  | some (ip, port) =>
    let own := (rg (WPT_IPV4_T + 4 * t) 0 s).toNat
    let p := ipv4Packet 17 s.draws own ip.toNat (udpDatagram own ip.toNat (udpPort s) port.toNat msg)
    let s := { s with draws := s.draws + 5 }
    internalFrame 199 (128 + t) 7 (padFrame (ethHeader peer.mac (trunkAddr t s) 0x0800 ++ p)) s

/-! ### Host sessions (R397, R398) -/

/-- Current trunk of a session. -/
def sessionTrunk (i : Nat) (s : State) : Nat := rgF WPT_S_STAT i 9 8 s

/-- A session has a current epoch. -/
def sessionOpened (i : Nat) (s : State) : Bool := rg WPT_S_EPOCH i s != 0

/-- Send a message of a host session on its current trunk, under the key of the epoch. -/
def wpSendSession (i : Nat) (peer : WpPeer) (type flags : Nat) (epoch seq : Word) (status : Nat) (payload : Bytes)
    (s : State) : State :=
  match (session i s).key with
  | none => s
  | some base => wpSendOn (sessionTrunk i s) peer (wpMessage (epochKey base i epoch) type i flags epoch seq status payload) s

/-- An unsolicited message; withheld unless the session has a current epoch. Answers whether it was sent. -/
def wpUnsolicited (i type : Nat) (payload : Bytes) (s : State) : State × Bool :=
  if ¬ sessionOpened i s ∨ inReset 210 s then (s, false)
  else
    let q := rg WPT_S_TXSEQ i s
    (wpSendSession i (session i s).peer type flagUnsolicited (rg WPT_S_EPOCH i s) q 0 payload (setRg WPT_S_TXSEQ i (q + 1) s), true)

/-- A response on a trunk that is down is lost at its MAC (R409). -/
def lostAtMac (t : Nat) (f : State → State) (s : State) : State :=
  if linkUp (128 + t) s then f s else macBump 43 (128 + t) s

/-- Answer a request of a host session at the address and port that it came from: its epoch and seq are echoed and the
response is counted (R393, R398). -/
def wpRespond (i : Nat) (peer : WpPeer) (type : Nat) (epoch seq : Word) (status : Nat) (payload : Bytes) (s : State) : State :=
  lostAtMac (sessionTrunk i s) (wpSendSession i peer type flagResponse epoch seq status payload) (bump WPT_S_CNT i 15 0 s)

/-! ### Associations (R399) -/

abbrev assocHierarchy : Nat := 0
abbrev assocEcho : Nat := 1

/-- Session byte of an association. -/
def assocByte (a : Nat) : Nat := if a = 0 then 0x80 else 0xC0

/-- Next seq for a destination address, and the table with it taken. -/
def takeAssocSeq (a : Nat) (dst : BitVec 48) : List (Nat × BitVec 48 × Word) → Word × List (Nat × BitVec 48 × Word)
  | [] => (1, [(a, dst, 2)])
  | (a', d', q) :: t =>
    if a' = a ∧ d' = dst then (q, (a', d', q + 1) :: t)
    else
      let r := takeAssocSeq a dst t
      (r.1, (a', d', q) :: r.2)

/-- Send an association message on an external port. -/
def wpSendAssocPort (a type port : Nat) (dst : BitVec 48) (payload : Bytes) (s : State) : State :=
  match sget none a s.wpt.assocKey with
  | none => s
  | some key =>
    if inReset 210 s then s
    else
      let r := takeAssocSeq a dst s.wpt.sendSeq
      let s := { s with wpt := { s.wpt with sendSeq := r.2 } }
      let m := wpMessage key type (assocByte a) (if type = wpRoadState then flagUnsolicited else 0) s.wpt.boot r.1 0 payload
      internalFrame 199 port 7 (padFrame (ethHeader dst (filterAddr port s) 0x88B5 ++ m)) s

/-! ### Relay answers (R381, R385) -/

/-- Payload of a RELAY message. -/
def relayPayload (subtype worker session code : Nat) (tag : Word) (body : Bytes) : Bytes :=
  beBytes 1 subtype ++ beBytes 1 worker ++ beBytes 1 session ++ beBytes 1 code ++ beBytes 4 tag.toNat ++ body

/-- Statuses by which a worker refuses an inner message itself (R385): its type, its form or its right. -/
def innerRefused (status : Nat) : Bool := status == 1 || status == 3 || status == 7

/-- Answer whoever asked for a piece of host work: a session, or a manager by a relay response. -/
def answerAsker (who : Asker) (type status : Nat) (payload : Bytes) (s : State) : State :=
  match who with
  | .host i peer epoch seq => wpRespond i peer type epoch seq status payload s
  | .relay trunk addr w i tag epoch seq =>
    let inner := wpHeader type i flagResponse epoch seq payload.length status ++ payload
    wpSendAssocPort assocHierarchy wpRelay (128 + trunk) addr
      (relayPayload 2 w i (if innerRefused status then 4 else 0) tag inner) s
  | .nobody => s

/-- Pass the answer of a relay to the host that asked; codes 1-3 count as refused. -/
def answerRelay (o : RelayOut) (code : Nat) (body : Bytes) (s : State) : State :=
  match o.host with
  | none => s
  | some (tag, who) =>
    let s := if 1 ≤ code ∧ code ≤ 3 then setCause HIE_CAUSE 0 2 (bump HIE_CNT 0 15 0 s) else s
    answerAsker who wpRelay 0 (relayPayload 2 o.worker o.session code tag body) s

/-- Take a relay off the list of those that wait. -/
def endRelay (o : RelayOut) (s : State) : State :=
  let s := { s with hie := { s.hie with outs := s.hie.outs.filter fun x => x.tag ≠ o.tag } }
  setRgF HIE_W_STAT o.worker 20 16 (rgF HIE_W_STAT o.worker 20 16 s - 1) s

/-- Answer every relay that satisfies `p` with a code. -/
def failRelays (p : RelayOut → Bool) (code : Nat) (s : State) : State :=
  forEach (s.hie.outs.filter p) (fun o s => answerRelay o code [] (endRelay o s)) s

/-! ### Claim echoes (R364-R366) -/

/-- Payload of a claim echo of a group. -/
def echoPayload (g : Nat) (s : State) : Bytes :=
  beBytes 4 (rg TWN_OS_H g s).toNat ++ beBytes 2 g ++ [0, 0] ++ beBytes 4 (outGroup g s).accepted.toNat
    ++ beBytes 4 (outGroup g s).refused.toNat

/-- TCLK edges of the claim window (R366). -/
def claimWindowEdges (s : State) : Nat := max 1 (rgF TWN_OS_CFG 0 31 16 s) * 250000

/-- Echo to every address from which the group has accepted a frame within the window. -/
def sendEchoes (g : Nat) (s : State) : State :=
  forEach ((outGroup g s).senders.filter fun x => decide (s.mp.tclk - x.edge ≤ claimWindowEdges s))
    (fun x s => wpSendAssocPort assocEcho wpClaimEcho x.port x.addr (echoPayload g s) s) s

end Sys2Proof.Machine
end

