-- ==== Sys2Proof/Machine/Junction.lean ====
section
/-! DEFINITION. Junction: tables, lookup, mirroring, ageing, the auditor (R209-R218, R224-R230, R236, R364, R366). -/

set_option Elab.async false

namespace Sys2Proof.Machine

open Sys2Proof

/-! ### Tables (R236) -/

/-- Word k of a table entry. -/
def tblWord (e : BitVec 256) (k : Nat) : Word := BitVec.ofNat 32 (e.toNat / 2 ^ (32 * k))

/-- An entry from its eight words. -/
def tblOf (f : Nat → Word) : BitVec 256 :=
  (List.range 8).foldl (fun v k => v ||| BitVec.ofNat 256 ((f k).toNat * 2 ^ (32 * k))) 0

/-- The defined bits of an entry of each table; the others are 0. -/
def tblMask (table k : Nat) : Word :=
  match table, k with
  | 0, 0 | 0, 1 | 0, 2 | 0, 3 => 0xFFFFFFFF
  | 0, 4 => 0xC000000F
  | 1, 0 => 0xFFFFFFFF
  | 1, 1 => 0x0FFFFFFF
  | 1, 2 => 0x7FF
  | 2, 0 => 0xFFFFFFFF
  | 2, 1 => 0x0FFFFFFF
  | 2, 2 => 0x1FF03
  | 2, 3 => 0xFFFF8000
  | 2, 4 => 0xFFF03
  | 2, 5 => 0x80FF83FF
  | 2, 6 => 0x8000000F
  | 2, 7 => 0x80000000
  | 3, 6 => 0xFF
  | 3, 7 => 0
  | 3, _ => 0xFFFFFFFF
  | _, _ => 0

/-- Entries of a table. -/
def tblSize : Nat → Nat
  | 0 => 4096
  | 1 => 32768
  | 2 => 2048
  | _ => 256

def tblOfNumber (table : Nat) (s : State) : Sparse (BitVec 256) :=
  match table with
  | 0 => s.jct.vlan
  | 1 => s.jct.macs
  | 2 => s.jct.rules
  | _ => s.jct.groups

def tblGet (table i : Nat) (s : State) : BitVec 256 := sget 0 i (tblOfNumber table s)

/-- Write an entry whole; a rule's version increments and its banks move (R218), and a MAC entry's age starts anew
(R214). -/
def tblPut (table i : Nat) (e : BitVec 256) (s : State) : State :=
  let e := tblOf fun k => tblWord e k &&& tblMask table k
  let j := s.jct
  match table with
  | 0 => { s with jct := { j with vlan := sset 0 i e j.vlan } }
  | 1 => { s with jct := { j with macs := sset 0 i e j.macs, macSeen := sset 0 i s.mp.tclk j.macSeen } }
  | 2 =>
    let s := { s with jct := { j with rules := sset 0 i e j.rules } }
    let s := setRg JCT_SID_PREV i (rg JCT_SID_CUR i s) s
    bump JCT_SID_VER i 3 0 (setRg JCT_SID_CUR i 0 s)
  | _ => { s with jct := { j with groups := sset 0 i e j.groups } }

/-! ### VLAN and MAC tables (R212, R214) -/

def vlanEntry (v : Nat) (s : State) : BitVec 256 := tblGet 0 v s
def vlanMember (v p : Nat) (s : State) : Bool := decide (p < 132) && bit (vlanEntry v s) p
def vlanValid (v : Nat) (s : State) : Bool := bit (vlanEntry v s) 159
def vlanNoLearn (v : Nat) (s : State) : Bool := bit (vlanEntry v s) 158

/-- Address and VID of a MAC entry. -/
def macKeyAddr (e : BitVec 256) : BitVec 48 := BitVec.ofNat 48 e.toNat
def macKeyVid (e : BitVec 256) : Nat := fld e 59 48
def macPort (e : BitVec 256) : Nat := fld e 71 64
def macStatic (e : BitVec 256) : Bool := bit e 72
def macValid (e : BitVec 256) : Bool := bit e 73
def macGroup (e : BitVec 256) : Bool := bit e 74

/-- The set of a key (R214). -/
def macSet (vid : Nat) (a : BitVec 48) : Nat := crc32c (beBytes 2 (vid % 4096) ++ beBytes 6 a.toNat) % 4096

/-- Indexes of the set of a key. -/
def macWays (vid : Nat) (a : BitVec 48) : List Nat := (List.range 8).map fun w => macSet vid a * 8 + w

/-- The entry of a key. -/
def macFind (vid : Nat) (a : BitVec 48) (s : State) : Option Nat :=
  (macWays vid a).find? fun i =>
    let e := tblGet 1 i s
    macValid e && decide (macKeyAddr e = a) && decide (macKeyVid e = vid)

/-- The lowest free way of a key's set. -/
def macFree (vid : Nat) (a : BitVec 48) (s : State) : Option Nat :=
  (macWays vid a).find? fun i => !macValid (tblGet 1 i s)

/-- A dynamic entry. -/
def macDynamic (vid : Nat) (a : BitVec 48) (port : Nat) : BitVec 256 :=
  BitVec.ofNat 256 (a.toNat + vid * 2 ^ 48 + (port + 2 ^ 9) * 2 ^ 64)

/-- The age of a MAC entry starts anew (R214). -/
def refreshMac (i : Nat) (s : State) : State :=
  { s with jct := { s.jct with macSeen := sset 0 i s.mp.tclk s.jct.macSeen } }

/-- The source of a frame is to be learnt (R214). -/
def learns (p vid : Nat) (a : BitVec 48) (s : State) : Bool :=
  !isGroup a && bit (rg JCT_CTRL 0 s) 1 && bit (rg JCT_P_CFG p s) 17 && !vlanNoLearn vid s

/-- Learning (R214). -/
def learn (p vid : Nat) (a : BitVec 48) (s : State) : State :=
  match macFind vid a s with
  | none =>
    match macFree vid a s with
    | some i => tblPut 1 i (macDynamic vid a p) s
    | none => setCause JCT_CAUSE 0 6 (bump JCT_CNT_LEARN 0 31 16 s)
  | some i =>
    let e := tblGet 1 i s
    if macPort e = p ∧ ¬ macGroup e then onlyIf (!macStatic e) (refreshMac i) s
    else if macStatic e then bump JCT_CNT_MISC 0 31 24 s
    else bump JCT_CNT_LEARN 0 15 0 (tblPut 1 i (macDynamic vid a p) s)

/-! ### Stream rules (R213) -/

/-- Whether a rule matches a frame. -/
def ruleMatches (e : BitVec 256) (p vid : Nat) (b : Bytes) : Bool :=
  let a := macKeyAddr e
  bit e 255 && (bit e 80 || decide (fld e 79 72 = p)) &&
    (match fld e 65 64 with
      | 0 => decide (a = dstAddr b) && decide (macKeyVid e = vid)
      | 1 => decide (a = srcAddr b) && decide (macKeyVid e = vid)
      | 2 => (ipDst b == some (tblWord e 0).toNat) && (decide (fld e 47 32 = 0) || udpDst b == some (fld e 47 32))
      | _ => false)

/-- The first matching rule of an ascending table. -/
def firstRule (p vid : Nat) (b : Bytes) : Sparse (BitVec 256) → Option (Nat × BitVec 256)
  | [] => none
  | (i, e) :: t => if ruleMatches e p vid b then some (i, e) else firstRule p vid b t

/-! ### Output stage (R364-R366) -/

/-- Record the source of an accepted frame; a fifth address replaces the oldest (R366). -/
def noteSender (a : BitVec 48) (p edge : Nat) (l : List Sender) : List Sender :=
  let x : Sender := { addr := a, port := p, edge := edge }
  let rest := l.filter fun y => y.addr ≠ a
  if rest.length < 4 then rest ++ [x]
  else
    match leastOfEdge rest with
    | some o => (rest.filter fun y => y.addr ≠ o.addr) ++ [x]
    | none => [x]
where
  /-- The sender whose last accepted frame is oldest. -/
  leastOfEdge : List Sender → Option Sender
    | [] => none
    | y :: t =>
      match leastOfEdge t with
      | none => some y
      | some z => if z.edge < y.edge then some z else some y

/-- The rule of R364 on a claimed frame. Answers whether it is acted on. -/
def obeyClaim (g p : Nat) (c : Word) (src : BitVec 48) (s : State) : State × Bool :=
  let o := outGroup g s
  let valid := bit (rg TWN_OS_STAT g s) 31
  let s := if ¬ valid ∨ claimWindowEdges s < s.mp.tclk - o.lastEdge then
    setRgF TWN_OS_STAT g 31 31 1 (setRg TWN_OS_H g c s) else s
  let higher := decide ((rg TWN_OS_H g s).toNat < c.toNat)
  let s := onlyIf higher (setRg TWN_OS_H g c) s
  let accepted := rg TWN_OS_H g s == c
  let s :=
    if accepted then
      let l := noteSender src p s.mp.tclk o.senders
      let s := setOutGroup g { o with lastEdge := s.mp.tclk, accepted := o.accepted + 1, senders := l } s
      setRgF TWN_OS_STAT g 2 0 l.length (bump TWN_OS_CNT g 31 16 s)
    else
      setCause TWN_CAUSE 0 9 (bump TWN_OS_CNT g 15 0 (setOutGroup g { o with refused := o.refused + 1 } s))
  (onlyIf higher (sendEchoes g) s, accepted)

/-- The output stage after lookup stage 5 (R366). A frame too short for a claim field carries no claim. -/
def outputStage (e : BitVec 256) (p : Nat) (b : Bytes) (s : State) : State × Bool :=
  if ¬ bit (rg TWN_CFG 0 s) 29 ∨ ¬ bit e 223 ∨ inReset 208 s then (s, true)
  else
    match claimAt b s with
    | some o => obeyClaim (fld e 195 192) p (w32 (beAt b o 4)) (srcAddr b) s
    | none => (s, true)

/-! ### Destinations (R216, R229, R230) -/

/-- Members of a group. -/
def groupMembers (g : Nat) (s : State) : List Nat :=
  (List.range 200).filter fun p => bit (tblGet 3 g s) p

/-- The destination set before removal, and whether it comes from a rule destination (R216). -/
def rawDests (rule : Option (BitVec 256)) (vid : Nat) (dst : BitVec 48) (s : State) : List Nat × Bool :=
  let flood := (List.range 132).filter fun p => vlanMember vid p s
  let normal :=
    match macFind vid dst s with
    | some i =>
      let e := tblGet 1 i s
      if isGroup dst then (if macGroup e ∧ macStatic e then groupMembers (macPort e) s else flood)
      else if macGroup e then flood else [macPort e]
    | none => flood
  match rule with
  | some e =>
    match fld e 129 128 with
    | 1 => ([fld e 143 136], true)
    | 2 => (groupMembers (fld e 143 136) s, true)
    | _ => (normal, false)
  | none => (normal, false)

/-- A port that no destination may name (R216). -/
def badDest (p : Nat) : Bool := decide (p = 198) || decide (199 < p)

/-- On a device in a hierarchy, where a frame from a hierarchy trunk goes (R379): on a worker to its other hierarchy
trunk, on a manager nowhere. -/
def bridgeDests (p : Nat) (s : State) : Option (List Nat) :=
  if p < 128 ∨ trunkRole (p - 128) s ≠ roleHierarchy then none
  else
    match rgF HIE_CFG 0 31 30 s with
    | 1 => some []
    | 2 => some (((trunksOf roleHierarchy s).map fun t => 128 + t).filter fun q => decide (q ≠ p))
    | _ => none

/-- A trunk whose function is in reset, of the stream that generates for the frame: its copies wait in Junction (R273). -/
def trunkWaits (st : Option Generator) (q : Nat) (s : State) : Bool := inReset q s && st.any fun g => g.trunks.contains q

/-! ### Lookup (R210) -/

/-- A received frame before its lookup. -/
structure Arrival where
  port : Nat
  bytes : Bytes
  ts : Word
  /-- Looked up before its last byte came: the length is not known yet. -/
  cutting : Bool

/-- Length with FCS that the lookup counts: max_len of the ingress MAC while the end has not come (R223). -/
def Arrival.length (a : Arrival) (b : Bytes) (s : State) : Nat :=
  if a.cutting then maxLen a.port s else b.length + 4

/-- The held form of an arrival. -/
def Arrival.frame (a : Arrival) (b : Bytes) (cls : Nat) (s : State) : JFrame :=
  { id := 0, bytes := b, src := a.port, cls := cls, ts := a.ts, arrived := now s, cells := 0, refs := 0,
    length := a.length b s, cutting := a.cutting }

/-- The trap stage (R211): the internal port that takes the frame, or none. -/
def trapPort (a : Arrival) (s : State) : Option Nat :=
  let p := a.port
  if 128 ≤ p ∧ isWaypost p a.bytes s then some 199
  else if ptpEn p s ∧ (ptpAt a.bytes).isSome
      ∧ (dstAddr a.bytes = filterAddr p s ∨ dstAddr a.bytes = 0x0180C200000E) then some 196
  else none

/-- VID and class of a frame (R212). -/
def frameVid (p : Nat) (b : Bytes) (s : State) : Nat :=
  let v := beAt b 14 2 % 4096
  if tagged b ∧ v ≠ 0 then v else rgF JCT_P_CFG p 11 0 s
def frameClass (p : Nat) (b : Bytes) (s : State) : Nat :=
  if tagged b then beAt b 14 2 / 8192 else rgF JCT_P_CFG p 14 12 s

/-- The frame is dropped at stage 2 (R212). -/
def vlanDrops (p vid : Nat) (s : State) : Bool :=
  decide (vid = 4095) || !vlanValid vid s || (bit (rg JCT_P_CFG p s) 16 && !vlanMember vid p s)

/-- The destination set of stage 7 (R14, R216, R379): of what comes from a hierarchy trunk a manager forwards nothing.
DESIGN CHOICE (log entry 172): switch port 196 joins the set of a PTP frame under R211 there as elsewhere. -/
def destSet (a : Arrival) (vid : Nat) (rule : Option (BitVec 256)) (st : Option Generator) (s : State) : List Nat :=
  let p := a.port
  let bridge := bridgeDests p s
  let raw : List Nat × Bool := match bridge with
    | some l => (l, true)
    | none => rawDests rule vid (dstAddr a.bytes) s
  let keep (q : Nat) : Bool :=
    !badDest q && decide (q ≠ p)
      && (decide (132 ≤ q)
        || ((linkUp q s || trunkWaits st q s) && (raw.2 || vlanMember vid q s)
            && !isTwinLink q s))
  let kept := raw.1.filter keep
  if ptpEn p s ∧ (ptpAt a.bytes).isSome ∧ 196 ∉ kept then kept ++ [196] else kept

/-- The set that stage 7 starts from names a port that none may name (R216). -/
def namesBad (a : Arrival) (vid : Nat) (rule : Option (BitVec 256)) (s : State) : Bool :=
  (bridgeDests a.port s).isNone && (rawDests rule vid (dstAddr a.bytes) s).1.any badDest

/-- What stages 7 and 8 decide about a frame now (R214, R216, R217, R230). -/
def destPlan (a : Arrival) (vid : Nat) (rule : Option (BitVec 256)) (st : Option Generator) (s : State) : DestPlan :=
  let p := a.port
  let im := if bit (rg JCT_P_CFG p s) 19 then mirrorDest (rgF JCT_P_CFG p 22 20 s) s else []
  let rm := match rule with
    | some e => if bit e 144 then mirrorDest (fld e 147 145) s else []
    | none => []
  { ports := destSet a vid rule st s, mirrors := im ++ rm, bad := namesBad a vid rule s,
    learns := learns p vid (srcAddr a.bytes) s }

/-- Stages 7 to 9 as decided (R214, R216, R222, R230, R379). Answers the state and whether admission was reached. -/
def forwardFrame (a : Arrival) (f : JFrame) (d : DestPlan) (st : Option Generator) (s : State) : State × Bool :=
  let s := onlyIf d.learns (learn a.port f.vid (srcAddr a.bytes)) s
  let s := onlyIf d.bad (fun s => setCause JCT_CAUSE 0 7 (bump JCT_CNT_MISC 0 23 16 s)) s
  if d.ports.isEmpty then (setCause JCT_CAUSE 0 7 (bump JCT_CNT_LOOKUP 0 15 0 s), false)
  else
    let ds := splitDests st f.cls (d.ports.map fun q => { port := q, cls := f.cls })
    ((admitStream st f (ds ++ d.mirrors) s).1, true)

/-- The Toll's index, and the DEI of the frame as it arrived (R215, R244). -/
def tollOf (e : BitVec 256) : Nat := fld e 123 112
def deiOf (b : Bytes) : Bool := tagged b && bit (BitVec.ofNat 16 (beAt b 14 2)) 12

/-- A frame of the port is metered with max_len at its lookup (R245). -/
def metersEarly (p : Nat) (s : State) : Bool := bit (rg JCT_CTRL 0 s) 0 && decide (128 ≤ p)

/-- Stage 6 (R215, R245): the colour, with max_len metered on a trunk while ct_en is 1; what a lookup before the last byte
debited in excess is given back. -/
def tollStage (a : Arrival) (e : BitVec 256) (k : Looked) (b : Bytes) (s : State) : State × Colour :=
  let i := tollOf e
  let excess := maxLen a.port s - (b.length + 4)
  if ¬ bit e 111 then (s, .green)
  else
    match k.colour with
    | some (c, debited) => (onlyIf debited (tollGiveBack i excess c) s, c)
    | none =>
      if metersEarly a.port s then
        let r := tollMeter i (maxLen a.port s) (deiOf a.bytes) s
        if a.cutting then r else (tollGiveBack i excess r.2 r.1, r.2)
      else tollMeter i (b.length + 4) (deiOf a.bytes) s

/-- The bytes that a verdict of the context needs are there when the lookup begins (R210, R282): they lie in the first 64
bytes, or the frame is no longer than these. -/
def verdictSoon (ctx : Nat) (a : Arrival) (b : Bytes) (s : State) : Bool :=
  decide (dataBase b + chkNeed ctx s + (a.bytes.length - b.length) ≤ 64) || decide (a.bytes.length + 4 ≤ 64)

/-- Stage 5 (R280, R282, R284): a frame whose end has not come, and of which not enough is there, goes on when the context
can check it, and its verdict follows. -/
def checkStage (a : Arrival) (e : BitVec 256) (b : Bytes) (s : State) : State × Bool :=
  let ctx := fld e 183 176
  if ¬ bit e 191 then (s, true)
  else if a.cutting ∧ ¬ verdictSoon ctx a b s then chkReady ctx s
  else chkFrame ctx b s

/-- Stage 5 and the output stage after it, of a frame that matched rule `i` (R282, R366). Answers whether the frame goes
on. -/
def checkStages (i : Nat) (a : Arrival) (e : BitVec 256) (b : Bytes) (s : State) : State × Bool :=
  let c := checkStage a e b s
  let s := notePoints i (fld e 183 176) c.2 b c.1
  if c.2 then outputStage e a.port b s else (s, false)

/-- Stages 5 to 9 of a frame that matched rule `i`, whose bytes after stage 4 are `k.body`. Answers the state and whether
admission was reached. -/
def ruleStages (i : Nat) (a : Arrival) (e : BitVec 256) (k : Looked) (s : State) : State × Bool :=
  let ctx := fld e 183 176
  let b := k.body
  let late := a.cutting && bit e 191 && !verdictSoon ctx a b s
  let o := checkStages i a e b s
  if ¬ o.2 then (o.1, false)
  else
    let t := tollStage a e k b o.1
    if t.2 = .red then (t.1, false)
    else
      let f := { a.frame b k.cls t.1 with
        yellow := t.2 == .yellow, vid := k.vid, tagged := tagged a.bytes, recovered := k.recovered,
        stripped := decide (b.length < a.bytes.length), rule := if a.cutting then some (i, k.version) else none,
        toll := if bit e 111 && !inReset 197 o.1 then some (tollOf e) else none,
        check := if late then some ctx else none }
      forwardFrame a f (k.plan.getD (destPlan a k.vid (some e) k.generate t.1)) k.generate t.1

/-- A frame counts in the bank of its rule's version at its lookup; one more than one write old counts as stale (R218). -/
def countRule (i : Nat) (v : BitVec 4) (s : State) : State :=
  match (BitVec.ofNat 4 (rgF JCT_SID_VER i 3 0 s) - v).toNat with
  | 0 => bump JCT_SID_CUR i 31 0 s
  | 1 => bump JCT_SID_PREV i 31 0 s
  | _ => bump JCT_CNT_STALE 0 31 0 s

/-- Stages 1 to 3 (R211-R213). A frame of the twin link goes to the twin unit, whose commands carry its receipt. -/
def identify (p : Nat) (b : Bytes) (ts : Word) (s : State) : Looked :=
  let k : Looked := { bytes := b, ts := ts, body := b }
  if 128 ≤ p ∧ trunkRole (p - 128) s = roleTwin then { k with eliminated := true }
  else
    match trapPort { port := p, bytes := b, ts := ts, cutting := false } s with
    | some q => { k with trap := some q }
    | none =>
      let vid := frameVid p b s
      if vlanDrops p vid s then { k with vlanDrop := true }
      else
        let cls := frameClass p b s
        match firstRule p vid b s.jct.rules with
        | none => { k with vid := vid, cls := cls }
        | some (i, e) =>
          { k with vid := vid, cls := if bit e 127 then fld e 126 124 else cls, rule := some (i, e),
                   version := BitVec.ofNat 4 (rgF JCT_SID_VER i 3 0 s) }

/-- Stages 1 to 4 (R210): what is decided about a frame, and what elimination does. -/
def lookStart (p : Nat) (b : Bytes) (ts : Word) (s : State) : State × Looked :=
  let k := identify p b ts s
  match k.rule with
  | none => (s, k)
  | some (_, e) =>
    if ¬ bit e 175 then (s, k)
    else
      match stage4 (fld e 169 160) p b s with
      | (s, .drop) => (s, { k with eliminated := true })
      | (s, .pass b rec gen) => (s, { k with body := b, recovered := rec, generate := gen })

/-- Stages 5 to 9, and the counts of the earlier ones. Answers the state and whether admission was reached. -/
def lookFinish (p : Nat) (cutting : Bool) (k : Looked) (s : State) : State × Bool :=
  let a : Arrival := { port := p, bytes := k.bytes, ts := k.ts, cutting := cutting }
  match k.trap with
  | some q => ((admitFrame (a.frame k.bytes 7 s) [{ port := q, cls := 7 }] s).1, true)
  | none =>
    if k.vlanDrop then (setCause JCT_CAUSE 0 7 (bump JCT_CNT_LOOKUP 0 31 16 s), false)
    else
      match k.rule with
      | none =>
        if k.eliminated then (s, false)
        else
          let f := { a.frame k.body k.cls s with vid := k.vid, tagged := tagged k.bytes }
          forwardFrame a f (k.plan.getD (destPlan a k.vid none none s)) none s
      | some (i, e) =>
        let s := onlyIf (!cutting) (countRule i k.version) s
        if k.eliminated then (s, false) else ruleStages i a e k s

/-- The lookup of a whole frame (R210). -/
def lookupFrame (p : Nat) (b : Bytes) (ts : Word) (s : State) : State :=
  let r := lookStart p b ts s
  (lookFinish p false r.2 r.1).1

/-- A frame that reaches Junction during its reset is discarded (R234). -/
def resetDrop (s : State) : State := setCause JCT_CAUSE 0 10 (bump JCT_CNT_MISC 0 15 0 s)

/-- The lookup of a frame may begin before its last byte has come: its MAC would pass it. -/
def mayLook (p : Nat) (b : Bytes) (s : State) : Bool :=
  portReceives p s && !discards p s && (macRun p s).arriving.isNone && (macRun p s).rxq.isEmpty
    && decide (beAt b 12 2 ≠ 0x8808) && !filtered p none b s && !isBackupFrame p b s

/-- A frame from the port may be cut through (R232). -/
def mayCut (p : Nat) (s : State) : Bool := decide (128 ≤ p) && bit (rg JCT_CTRL 0 s) 0

def setArriving (p : Nat) (a : Option Arriving) (s : State) : State := setMacRun p { macRun p s with arriving := a } s

/-- A frame that waits for its end is metered at its lookup, where stage 5 lets it through (R245). -/
def meterEarly (a : Arrival) (k : Looked) (s : State) : State × Looked :=
  match k.rule with
  | none => (s, k)
  | some (i, e) =>
    if bit e 111 ∧ metersEarly a.port s ∧ (checkStages i a e k.body s).2 then
      let r := tollMeter (tollOf e) (maxLen a.port s) (deiOf a.bytes) s
      (r.1, { k with colour := some (r.2, !inReset 197 s) })
    else (s, k)

/-- A frame whose lookup metered it and whose end, `length` bytes with FCS, proves bad: the Toll gives back the excess
(R245). -/
def giveBackEarly (p : Nat) (k : Looked) (length : Nat) (s : State) : State :=
  match k.rule, k.colour with
  | some (_, e), some (c, true) => tollGiveBack (tollOf e) (maxLen p s - length) c s
  | _, _ => s

/-- The lookup of a frame that is still arriving (R210, R217, R232): stages 1 to 4 act now, and stage 7 decides. With
cut-through permitted the other stages are tried too, and a frame of which a copy is cut through is held from now on. Any
other frame waits, with what was decided, for its MAC to find it good. -/
def lookArriving (p : Nat) (x : HeadIn) (s : State) : State :=
  let r := lookStart p x.bytes (ingressStamp p x.phase s) s
  let k := r.2
  if k.trap.isSome ∨ k.vlanDrop ∨ k.eliminated then setArriving p (some { looked := k }) r.1
  else
    let a : Arrival := { port := p, bytes := k.bytes, ts := k.ts, cutting := true }
    let k := { k with plan := some (destPlan a k.vid (k.rule.map fun q => q.2) k.generate r.1) }
    let id := r.1.jct.nextId
    let t := lookFinish p true k r.1
    if mayCut p r.1 ∧ t.2 ∧ (copiesOf id t.1).any (fun c => c.cut) then setArriving p (some { looked := k, frame := some id }) t.1
    else
      let m := meterEarly a k r.1
      setArriving p (some { looked := m.2 }) m.1

/-- JUNCTION_LOOKUP (R210, R232): of the oldest frame that the port's MAC has passed; or of a frame whose end has not
come. -/
def junctionLookup (p : Nat) (arriving : Option HeadIn) (s : State) : State :=
  match arriving with
  | none =>
    match (macRun p s).rxq with
    | [] => s
    | x :: t =>
      let s := setMacRun p { macRun p s with rxq := t } s
      if inReset 196 s then resetDrop s else lookupFrame p x.bytes x.ts s
  | some x =>
    if ¬ mayLook p x.bytes s then s
    else if inReset 196 s then
      setArriving p (some { looked := { bytes := x.bytes, ts := 0, eliminated := true } }) (resetDrop s)
    else lookArriving p x s
def execJunctionLookup (port : ExtPort) (cutThrough : Option HeadIn) (s : State) : Out :=
  .next (junctionLookup port cutThrough s)

/-- INTERNAL_FRAME (R209); a frame of the firmware, from switch port 196, may carry a one-step reference (R38). -/
def execInternalFrame (src : Fin 68) (egress : BitVec 8) (cls : Fin 8) (frame : FrameOut) (s : State) : Out :=
  let f := newFrame frame.bytes (132 + src) cls s
  .next (internalOffer { f with oneStep := if src.val = 64 then frame.reference else none } egress.toNat s).1

/-! ### Table commands (R217, R236) -/

/-- A stream rule holds a value that R236 does not define. -/
def ruleUndefined (e : BitVec 256) : Bool := decide (fld e 65 64 = 3) || decide (fld e 129 128 = 3)

/-- A command on an entry: its status, and what it does. -/
def tblCommand (path op table i : Nat) (s : State) : State × Nat :=
  let e := tblOf fun k => rg (JCT_TBL_D + 4 * k) path s
  if 2 ≤ op ∧ table ≠ 1 then (s, 4)
  else if op = 2 then
    match macFind (macKeyVid e) (macKeyAddr e) s with
    | some j => (tblPut 1 j e s, 0)
    | none =>
      match macFree (macKeyVid e) (macKeyAddr e) s with
      | some j => (tblPut 1 j e s, 0)
      | none => (s, 2)
  else if op = 3 then
    match macFind (macKeyVid e) (macKeyAddr e) s with
    | some j => (tblPut 1 j 0 s, 0)
    | none => (s, 3)
  else if tblSize table ≤ i then (s, 1)
  else if op = 0 then
    let v := tblGet table i s
    (forEach (List.range 8) (fun k => setRg (JCT_TBL_D + 4 * k) path (tblWord v k)) s, 0)
  else if table = 2 ∧ ruleUndefined e then (s, 5)
  else (tblPut table i e s, 0)

/-- A write of JCT_TBL_CMD on a path: with go it performs the command and acknowledges (R217). -/
def tblCmdWrite (path : Nat) (value : Word) (s : State) : State :=
  if ¬ writable path JCT_TBL_CMD 0 s then s
  else
    let s := setRg JCT_TBL_CMD path (value &&& 0x7FFF0033) s
    if bit value 31 then
      let r := tblCommand path (fld value 5 4) (fld value 1 0) (fld value 30 16) s
      setRg JCT_TBL_STAT path (w32 (r.2 * 2)) r.1
    else s

/-- JCT_TBL_READ (R217). -/
def execJctTblRead (path : Path) (value : Word) (s : State) : Out := .next (tblCmdWrite path value s)
/-- JCT_TBL_WRITE (R217, R218). -/
def execJctTblWrite (path : Path) (value : Word) (s : State) : Out := .next (tblCmdWrite path value s)
/-- JCT_TBL_INSERT (R214). -/
def execJctTblInsert (path : Path) (value : Word) (s : State) : Out := .next (tblCmdWrite path value s)
/-- JCT_TBL_DELETE (R214). -/
def execJctTblDelete (path : Path) (value : Word) (s : State) : Out := .next (tblCmdWrite path value s)

/-! ### Ageing, residue, auditor (R214, R224-R227) -/

/-- TCLK edges of a second (R22). -/
abbrev edgesPerSecond : Nat := 250000000

/-- MAC_ENTRY_AGEING (R214): a dynamic entry that has not been refreshed for age_s seconds is removed. -/
def macEntryAgeing (i : Nat) (s : State) : State :=
  let e := tblGet 1 i s
  let age := rgF JCT_CTRL 0 31 16 s
  if macValid e ∧ ¬ macStatic e ∧ age ≠ 0 ∧ ¬ inReset 196 s
      ∧ age * edgesPerSecond ≤ s.mp.tclk - sget 0 i s.jct.macSeen then tblPut 1 i 0 s else s
def execMacEntryAgeing (index : Fin 32768) (s : State) : Out := .next (macEntryAgeing index s)

/-- A copy's age exceeds the limit of its class (R224). -/
def overAge (c : Copy) (s : State) : Bool :=
  let limit := rgF (JCT_AGE + 4 * c.cls) 0 19 0 s * 1000
  decide (limit ≠ 0) && (match jframe c.frame s with
    | some f => decide (limit < sub32 (now s) f.arrived)
    | none => false)

/-- Count an aged copy (R224). -/
def countAged (c : Copy) (s : State) : State := setCause JCT_CAUSE 0 1 (bump JCT_Q_DROP (c.port * 8 + c.cls) 15 0 s)

/-- Drop the over-age copies at the head of a queue; `fuel` bounds their number. -/
def sweepQueue (p c : Nat) : Nat → State → State
  | 0, s => s
  | n + 1, s =>
    match jqueue p c s with
    | [] => s
    | x :: t => if overAge x s then sweepQueue p c n (countAged x (releaseRef x.frame (setJqueue p c t s))) else s

/-- AGE_SWEEP (R224). -/
def ageSweep (s : State) : State :=
  if inReset 196 s then s
  else forEach (queueKeys s) (fun k s => sweepQueue k.1 k.2 (jqueue k.1 k.2 s).length s) s
def execAgeSweep (s : State) : Out := .next (ageSweep s)

/-- RESIDUE_EXPIRY (R225, R226): when the residue timer has run out, the copies not yet started are dropped; one that is
over its age counts as aged. -/
def residueExpiry (id : Nat) (s : State) : State :=
  match jframe id s with
  | some f =>
    if f.residueAt.any fun t => decide (0 ≤ diff32 (now s) t) then
      let s0 := s
      let count (c : Copy) (s : State) : State :=
        if overAge c s0 then countAged c s
        else setCause JCT_CAUSE 0 2 (bump JCT_Q_RESIDUE (c.port * 8 + c.cls) 31 16 s)
      dropUnstarted id count (updJframe id (fun f => { f with residueAt := none }) s)
    else s
  | none => s
def execResidueExpiry (frame : Nat) (s : State) : Out := .next (residueExpiry frame s)

/-- AUDIT_VISIT (R227): the auditor looks at its next cell; the operands say what it finds there. A cell missed twice
returns to the free list, and the free count with it. -/
def auditVisit (free held busy : Bool) (s : State) : State :=
  if ¬ bit (rg JCT_AUDIT 0 s) 0 ∨ inReset 196 s then s
  else
    let n := s.jct.auditCell
    let rest := s.jct.suspects.filter fun x => x ≠ n
    let lost := !free && !held && !busy
    let again := s.jct.suspects.contains n
    let s := onlyIf (free && held) (fun s => setCause JCT_CAUSE 0 4 (bump JCT_CNT_AUDIT 0 15 0 s)) s
    let s := onlyIf (lost && again) (fun s => setCause JCT_CAUSE 0 3 (bump JCT_CNT_AUDIT 0 31 16 s)) s
    let s := { s with jct := { s.jct with suspects := if lost ∧ ¬ again then rest ++ [n] else rest,
                                          auditCell := (n + 1) % 65536 } }
    onlyIf (decide (n = 65535)) (bump JCT_AUDIT 0 31 16) s
def execAuditVisit (free held busy : Bool) (s : State) : Out := .next (auditVisit free held busy s)

end Sys2Proof.Machine
end

