-- ==== Sys2Proof/Machine/Operands.lean ====
section
/-! DEFINITION. The lane's instruction words: formats, fields and legal encodings (R139-R141), and the views of its
registers (R138, R151). -/

set_option Elab.async false

namespace Sys2Proof.Machine

open Sys2Proof

/-! ### Formats (R140) -/

/-- Format A: op 0, rd, rs, rt, sh, fn. -/
def encA (fn rd rs rt sh : Nat) : Word := w32 (rd * 2 ^ 21 + rs * 2 ^ 16 + rt * 2 ^ 11 + sh * 2 ^ 6 + fn)

/-- Formats I and M: op, rd (or rt, the data), rs (or the base), imm16. -/
def encI (op rd rs imm : Nat) : Word := w32 (op * 2 ^ 26 + rd * 2 ^ 21 + rs * 2 ^ 16 + imm)

/-- Format B: op, rs, off21. -/
def encB (op rs off : Nat) : Word := w32 (op * 2 ^ 26 + rs * 2 ^ 21 + off)

/-- Format V: op, vd, vs, vt, gr, imm3, fn. -/
def encV (op fn vd vs vt gr imm : Nat) : Word :=
  w32 (op * 2 ^ 26 + vd * 2 ^ 22 + vs * 2 ^ 18 + vt * 2 ^ 14 + gr * 2 ^ 9 + imm * 2 ^ 6 + fn)

/-- Format S: op 0x3F, a, b, c, d, sub. -/
def encS (sub a b c d : Nat) : Word :=
  w32 (0x3F * 2 ^ 26 + a * 2 ^ 21 + b * 2 ^ 16 + c * 2 ^ 11 + d * 2 ^ 6 + sub)

/-- Format S, code form: op 0x3F, code, sub. -/
def encCode (sub code : Nat) : Word := w32 (0x3F * 2 ^ 26 + code * 2 ^ 10 + sub)

/-- Legal words of op 0x00 (R144). -/
def legalA (w : Word) : Bool :=
  let fn := fld w 5 0
  let rd := fld w 25 21
  let rt := fld w 15 11
  let sh := fld w 10 6
  if fn ≤ 0x0A ∨ (0x10 ≤ fn ∧ fn ≤ 0x16) ∨ fn = 0x19 ∨ fn = 0x1A then decide (sh = 0)
  else if 0x0B ≤ fn ∧ fn ≤ 0x0D then decide (rt = 0)
  else if fn = 0x18 ∨ fn = 0x21 then decide (rt = 0 ∧ sh = 0)
  else if fn = 0x20 then decide (rd = 0 ∧ rt = 0 ∧ sh = 0)
  else false

/-- Legal words of op 0x20-0x23 (R152, R154-R156). -/
def legalV (w : Word) : Bool :=
  let op := fld w 31 26
  let fn := fld w 5 0
  let vd := fld w 25 22
  let vs := fld w 21 18
  let vt := fld w 17 14
  let gr := fld w 13 9
  let imm := fld w 8 6
  if op = 0x20 then
    if fn ≤ 4 ∨ (8 ≤ fn ∧ fn ≤ 0x0B) then decide (gr = 0 ∧ imm = 0)
    else if fn = 5 ∨ fn = 6 then decide (vt = 0 ∧ imm = 0)
    else if fn = 7 then decide (vt = 0 ∧ gr = 0 ∧ imm = 0)
    else if fn = 0x0C then decide (imm = 0)
    else false
  else if op = 0x21 then
    if fn ≤ 6 ∨ fn = 0x0C then decide (gr = 0 ∧ imm = 0)
    else if fn ≤ 0x0B then decide (vt = 0 ∧ gr = 0 ∧ imm = 0)
    else false
  else if op = 0x22 then
    if fn ≤ 1 then decide (vs = 0 ∧ vt = 0)
    else if fn = 2 then decide (vt = 0 ∧ gr = 0 ∧ imm = 0)
    else if fn = 3 then decide (vs = 0 ∧ vt = 0 ∧ imm ≤ 3)
    else if fn = 4 then decide (vd = 0 ∧ vt = 0 ∧ imm ≤ 3)
    else if fn = 5 then decide (vd = 0 ∧ vt = 0)
    else if fn = 6 ∨ fn = 7 then decide (vs = 0 ∧ vt = 0 ∧ imm = 0)
    else false
  else
    if fn ≤ 2 then decide (gr = 0 ∧ imm = 0)
    else if fn = 3 then decide (vd % 2 = 0 ∧ gr = 0 ∧ imm ≤ 1)
    else if fn = 4 then decide (vt = 0 ∧ gr = 0 ∧ imm ≤ 2)
    else if fn = 5 then decide (vd % 2 = 0 ∧ gr = 0 ∧ imm = 0)
    else if fn = 6 then decide (vd % 2 = 0 ∧ vs % 2 = 0 ∧ vt = 0 ∧ gr = 0 ∧ imm = 0)
    else false

/-- Legal words of op 0x3F (the table before R157, R159, R164, R165, R167). -/
def legalS (w : Word) : Bool :=
  let sub := fld w 5 0
  let a := fld w 25 21
  let b := fld w 20 16
  let c := fld w 15 11
  let d := fld w 10 6
  if sub = 0 ∨ sub = 0x0A then decide (a = 0 ∧ b = 0 ∧ c = 0 ∧ d = 0)
  else if sub = 1 ∨ sub = 2 then decide (c = 0 ∧ d = 0)
  else if sub = 3 then decide (d ≤ 4)
  else if sub = 4 then decide (a < 16 ∧ c = 0 ∧ d = 0)
  else if sub = 5 then decide (a < 16 ∧ d = 0)
  else if sub = 6 then decide (a < 16 ∧ c < 16 ∧ d = 0)
  else if sub = 7 then decide (a = 0 ∧ b < 16 ∧ c = 0 ∧ d = 0)
  else if sub = 8 then decide (b = 0 ∧ c = 0 ∧ d ≤ 1)
  else if sub = 9 then decide (d ≤ 2)
  else if sub = 0x0B then decide (fld w 9 6 = 0)
  else if sub = 0x0C then decide (b = 0 ∧ c = 0 ∧ d = 0)
  else false

/-- Whether a word is an instruction of this chapter (R140, R141); any other faults with cause 2. -/
def legalWord (w : Word) : Bool :=
  let op := fld w 31 26
  if op = 0 then legalA w
  else if op ≤ 6 then true
  else if op = 7 then decide (fld w 20 16 = 0)
  else if op ≤ 0x16 then true
  else if 0x20 ≤ op ∧ op ≤ 0x23 then legalV w
  else if op = 0x3F then legalS w
  else false

/-! ### Registers (R138) -/

/-- Read a general register; g0 reads as 0. -/
def getG (r : Nat) (ln : LaneState) : Word := if r = 0 then 0 else sget 0 r ln.g

/-- Write a general register; writes to g0 are discarded. -/
def setG (r : Nat) (v : Word) (ln : LaneState) : LaneState :=
  if r = 0 then ln else { ln with g := sset 0 r v ln.g }

def getV (r : Nat) (ln : LaneState) : VWord := sget 0 r ln.v
def setV (r : Nat) (v : VWord) (ln : LaneState) : LaneState := { ln with v := sset 0 r v ln.v }

/-! ### Vector views (R151) -/

/-- Element i of the .H view, signed. -/
def vh (v : VWord) (i : Nat) : Int := sgn 16 (v.toNat / 2 ^ (16 * i))

/-- Element j of the .W view. -/
def vw (v : VWord) (j : Nat) : Word := w32 (v.toNat / 2 ^ (32 * j))

/-- A vector from eight .H elements, each modulo 2^16. -/
def ofH (f : Nat → Int) : VWord :=
  BitVec.ofNat 128 ((List.range 8).foldl (fun n i => n + wrapI 16 (f i) * 2 ^ (16 * i)) 0)

/-- A vector from four .W elements. -/
def ofW (f : Nat → Word) : VWord :=
  BitVec.ofNat 128 ((List.range 4).foldl (fun n j => n + (f j).toNat * 2 ^ (32 * j)) 0)

def sat16 (x : Int) : Int := satS 16 x
def sat32 (x : Int) : Int := satS 32 x

/-- The 16 bytes of a vector register in memory order (R151). -/
def vecBytes (v : VWord) : Bytes := leBytes 16 v.toNat

end Sys2Proof.Machine
end

