-- ==== Sys2Proof/Machine/LaneExec.lean ====
section
/-! DEFINITION. How a lane issues, retires and faults, and how it reaches memory (R110-R112, R128, R139, R143,
R147-R149). -/

set_option Elab.async false

namespace Sys2Proof.Machine

open Sys2Proof

/-! ### Issue and retirement -/

/-- Device address of a lane's local memory and of its district's memory (R475). -/
def localAddr (l : Nat) : Nat := laneBase + l * 0x10000
def districtAddr (d : Nat) : Nat := districtBase + d * 0x80000

/-- The word at a local address as memory holds it. -/
def localWord (l a : Nat) (s : State) : Word := rdWord (localAddr l + a) s

/-- The word that the lane issues at its program counter: one fetched ahead keeps its old form (R149). -/
def fetchWord (l : Nat) (s : State) : Word :=
  let ln := lane l s
  match ln.stale.find? (fun p => p.1 = ln.pc.toNat) with
  | some p => p.2
  | none => localWord l ln.pc.toNat s

/-- The lane can issue an instruction: it runs a job, and is neither halted, in reset nor stalled in a SEND. -/
def laneReady (l : Nat) (s : State) : Bool :=
  let ln := lane l s
  ln.run == .running && !ln.halted && !laneInReset l s && !ln.sending

/-- The lane issues the word `w`: it is the legal word at its program counter (R139, R140). -/
def laneIssues (l : Nat) (w : Word) (s : State) : Bool :=
  laneReady l s && decide ((lane l s).pc.toNat < 0x10000) && fetchWord l s == w && legalWord w

/-- Perform an instruction when the lane issues it; otherwise the event does not occur. -/
def issue (l : Nat) (w : Word) (f : State → State) (s : State) : State := if laneIssues l w s then f s else s

/-- Move to the next instruction (R139). -/
def retire (ln : LaneState) : LaneState :=
  { ln with pc := ln.pc + 4, stale := sfilter (fun k => decide (ln.pc.toNat < k)) ln.stale }

/-- Continue at a target; the words fetched ahead are dropped. -/
def jumpTo (target : Word) (ln : LaneState) : LaneState := { ln with pc := target, stale := [] }

/-- An instruction that changes only its lane. -/
def laneOp (l : Nat) (w : Word) (f : LaneState → LaneState) (s : State) : State :=
  issue l w (fun s => setLane l (retire (f (lane l s))) s) s

/-- A fault of the instruction that issues (R132, R143). -/
def faultAt (l cause : Nat) (faddr : Word) (s : State) : State := laneFault l cause faddr 0 (lane l s).pc s

/-! ### Addresses (R110, R111) -/

/-- What a lane address names. -/
inductive LaneRef where
  | localMem (addr : Nat)
  | districtMem (addr : Nat)
  | aperture (addr : Nat)
  | fault (cause : Nat)
deriving DecidableEq, Repr

/-- The device address of an aperture access, or cause 5 (R111). -/
def apertureRef (base : BitVec 40) (o len : Nat) (write : Bool) (s : State) : LaneRef :=
  let a := base.toNat + o
  if canReach .aperture write a len s then .aperture a else .fault 5

/-- Resolve an aligned access of `len` bytes (R110). -/
def laneRef (l : Nat) (a : Word) (len : Nat) (write : Bool) (s : State) : LaneRef :=
  let n := a.toNat
  if n < 0x10000 then .localMem (localAddr l + n)
  else if 0x100000 ≤ n ∧ n < 0x180000 then .districtMem (districtAddr (l / 16) + (n - 0x100000))
  else if 0x40000000 ≤ n ∧ n < 0x80000000 then apertureRef (lane l s).apb0 (n - 0x40000000) len write s
  else if 0x80000000 ≤ n ∧ n < 0xC0000000 then apertureRef (lane l s).apb1 (n - 0x80000000) len write s
  else .fault 4

def LaneRef.addr : LaneRef → Nat
  | .localMem a | .districtMem a | .aperture a => a
  | .fault _ => 0

/-- The fault that a memory's answer causes (R112). -/
def answerCause (r : LaneRef) (ans : MemAnswer) (s : State) : Option Nat :=
  match r with
  | .localMem _ => if ans = .uncorrectable then some 6 else none
  | .districtMem _ => if ans = .uncorrectable then some 7 else none
  | .aperture a => if memGood (answer a ans s) then none else some 8
  | .fault c => some c

/-- Record what the memory reported (R112, R453). -/
def noteRef (r : LaneRef) (ans : MemAnswer) (s : State) : State :=
  match r with
  | .fault _ => s
  | r => noteAnswer r.addr (answer r.addr ans s) s

/-! ### Step buffer (R128) -/

/-- The word that an ATOM leaves: 0 add, 1 swap, 2 compare-and-swap (R165). -/
def atomWord (op : Nat) (old operand compare : Word) : Word :=
  if op = 0 then old + operand else if op = 1 then operand else if old = compare then operand else old

/-- Perform one buffered write. -/
def applyStepWrite (w : StepWrite) (s : State) : State :=
  match w with
  | .write a d => wrBytes a d s
  | .atom a op x c => wrLe a 4 (atomWord op (rdWord a s) x c).toNat s

/-- Memory as a lane sees it in step mode: the committed contents overlaid with its own buffered writes (R128). -/
def laneView (l : Nat) (s : State) : State :=
  if stepMode s then forEach (lane l s).stepWrites applyStepWrite s else s

/-! ### Stores under way (R148) -/

/-- Stores that may still not have performed: the fourth LCLK edge after an issue falls before the second TCLK edge. -/
def flightsOf (d : Nat) (s : State) : List Flight :=
  (district d s).flights.filter fun x => decide (s.mp.tclk ≤ x.edge + 1)

/-- A store reaches its district's memory over what stands there; for the other lanes it is under way. -/
def addFlight (x : Flight) (s : State) : State :=
  let d := x.lane / 16
  let x := { x with old := rdBytes x.addr x.new.length s }
  wrBytes x.addr x.new (setDistrict d { district d s with flights := flightsOf d s ++ [x] } s)

/-- A lane's plain store to its district's memory. -/
def putFlight (l edge a : Nat) (d : Bytes) (s : State) : State :=
  addFlight { lane := l, edge := edge, addr := a, old := [], new := d } s

/-- Take a store back, where memory still holds it. -/
def undoFlight (x : Flight) (s : State) : State := if rdBytes x.addr x.new.length s = x.new then wrBytes x.addr x.old s else s

/-- Some of the stores under way have performed, in the order of their issue: how many is a free choice. -/
def performSome (d : Nat) (s : State) : State :=
  let fs := flightsOf d s
  if fs.isEmpty then s
  else setDistrict d { district d s with flights := fs.drop (Config.storesPerformed s.draws) }
    { s with draws := s.draws + 1 }

/-- Memory without the stores under way but the lane's own, which it sees at once. -/
def seenMemory (l : Nat) (s : State) : State :=
  let fs := flightsOf (l / 16) s
  let s := forEach fs.reverse undoFlight s
  forEach (fs.filter fun x => x.lane = l) (fun x => wrBytes x.addr x.new) s

/-- What a read by a lane finds: the state after the free choice, and memory as the lane sees it (R128, R148). -/
def laneSees (l : Nat) (r : LaneRef) (s : State) : State × State :=
  match r with
  | .districtMem _ =>
    if stepMode s ∨ (flightsOf (l / 16) s).all (fun x => x.lane = l) then (s, laneView l s)
    else (performSome (l / 16) s, seenMemory l (performSome (l / 16) s))
  | _ => (s, laneView l s)

/-- The stores of a district that `p` names have performed, and with them every store issued before. -/
def settleThrough (d : Nat) (p : Flight → Bool) (s : State) : State :=
  let fs := (flightsOf d s).reverse
  setDistrict d { district d s with flights := (fs.takeWhile fun x => !p x).reverse } s

/-- The lane's own stores have performed, and with them every store issued before (R148, R166). -/
def settleFlights (l : Nat) (s : State) : State := settleThrough (l / 16) (fun x => x.lane = l) s

/-- The lane's own stores to the bytes read have performed (R159). -/
def settleRead (l : Nat) (r : LaneRef) (n : Nat) (s : State) : State :=
  match r with
  | .districtMem a => settleThrough (l / 16) (fun x => x.lane = l && decide (x.addr < a + n ∧ a < x.addr + x.new.length)) s
  | _ => s

/-- An ATOM performs, after the lane's own stores and every ATOM issued before, at the word that the performed stores have
left; the stores still under way perform after it. It performs an edge after its store wait, so another lane may still
find the word before it (R124, R165). Answers the old word. -/
def atomDistrict (l a : Nat) (f : Word → Word) (s : State) : State × Word :=
  let d := l / 16
  let s := settleThrough d (fun x => x.atomic) (performSome d (settleFlights l s))
  let rest := flightsOf d s
  let s := forEach rest.reverse undoFlight (setDistrict d { district d s with flights := [] } s)
  let old := rdWord a s
  let x : Flight := { lane := l, edge := s.mp.tclk, addr := a, old := [], new := leBytes 4 (f old).toNat, atomic := true }
  (forEach (x :: rest) addFlight s, old)

/-- Entries of the step buffer. -/
def stepRoom (l n : Nat) (s : State) : Bool := decide ((lane l s).stepEntries + n ≤ 256)

/-- Put a write in the step buffer. -/
def bufferWrite (w : StepWrite) (ln : LaneState) : LaneState :=
  { ln with stepWrites := ln.stepWrites ++ [w], stepEntries := ln.stepEntries + 1 }

/-- Hold a send in the step buffer: it occupies `n` entries (R159). -/
def bufferSend (x : StepSend) (n : Nat) (ln : LaneState) : LaneState :=
  { ln with stepSends := ln.stepSends ++ [x], stepEntries := ln.stepEntries + n }

/-- Whether a store is held in the step buffer (R128). -/
def isBuffered (r : LaneRef) (s : State) : Bool :=
  stepMode s && (match r with | .districtMem _ | .aperture _ => true | _ => false)

/-! ### Loads and stores (R147-R149) -/

/-- Read `len` bytes at a lane address and retire with what `f` makes of them (R147). -/
def loadOp (l : Nat) (w : Word) (addr : Word) (len : Nat) (ans : MemAnswer) (f : Bytes → LaneState → LaneState)
    (s : State) : State :=
  issue l w (fun s =>
    if addr.toNat % len ≠ 0 then faultAt l 3 addr s
    else
      let r := laneRef l addr len false s
      let s' := noteRef r ans s
      match answerCause r ans s with
      | some c => faultAt l c addr s'
      | none =>
        let v := laneSees l r s'
        setLane l (retire (f (rdBytes r.addr len v.2) (lane l v.1))) v.1) s

/-- A local store at the lane address `a` covers the word at `k`, which has no old form yet. -/
def coversWord (a len : Nat) (ln : LaneState) (k : Nat) : Bool :=
  decide (k < 0x10000 ∧ a < k + 4 ∧ k < a + len) && !(skeys ln.stale).contains k

/-- Words fetched ahead that a local store covers keep their old form (R149). The lane fetches up to two words ahead; how
many it has fetched at the store is a free choice. -/
def keepFetched (l a len : Nat) (s : State) : State :=
  let pc := (lane l s).pc.toNat
  let ks := [pc + 4, pc + 8].filter (coversWord a len (lane l s))
  if ks = [] then s
  else
    forEach ks
      (fun k t =>
        if k ≤ pc + 4 * Config.wordsAhead s.draws then
          setLane l { lane l t with stale := sinsert k (localWord l k t) (serase k (lane l t).stale) } t
        else t) { s with draws := s.draws + 1 }

/-- Store bytes in local memory. -/
def storeLocal (l a : Nat) (d : Bytes) (s : State) : State :=
  wrBytes (localAddr l + a) d (keepFetched l a d.length s)

/-- An aperture write that faulted may still have reached memory (R143): one free choice. -/
def landed (a : Nat) (d : Bytes) (s : State) : State :=
  let s' := { s with draws := s.draws + 1 }
  if Config.writeLanded s.draws then wrBytes a d s' else s'

/-- Store bytes at a lane address and retire (R128, R143, R147, R148). -/
def storeOp (l : Nat) (w : Word) (addr : Word) (d : Bytes) (ans : MemAnswer) (s : State) : State :=
  issue l w (fun s =>
    if addr.toNat % d.length ≠ 0 then faultAt l 3 addr s
    else
      let r := laneRef l addr d.length true s
      match r with
      | .fault c => faultAt l c addr s
      | r =>
        if isBuffered r s then
          if stepRoom l 1 s then setLane l (retire (bufferWrite (.write r.addr d) (lane l s))) s
          else faultAt l 11 0 s
        else
          let s' := noteRef r ans s
          match answerCause r ans s with
          | some 8 => faultAt l 8 addr (landed r.addr d s')
          | some c => faultAt l c addr s'
          | none =>
            let s' := match r with
              | .localMem _ => storeLocal l addr.toNat d s'
              | .districtMem a => putFlight l s.mp.tclk a d s'
              | r => wrBytes r.addr d s'
            setLane l (retire (lane l s')) s') s

end Sys2Proof.Machine
end

