-- ==== Sys2Proof/Machine/Lanes.lean ====
section
/-! DEFINITION. Lanes and districts outside the instructions: job starts, drain markers, message delivery, frames into
districts, halts (R82, R115, R118, R121, R125, R126, R131, R133). -/

set_option Elab.async false

namespace Sys2Proof.Machine

open Sys2Proof

/-! ### Job start (R115, R116) -/

/-- Words 0-7 of a job entry (R116). -/
def jobWords (j : Job) : List Word :=
  [ w32 (j.code.toNat + j.source.toNat * 2 ^ 15 + b2n j.late * 2 ^ 24 + b2n j.stranded * 2 ^ 25
      + b2n j.backward * 2 ^ 26 + b2n j.reissued * 2 ^ 27),
    w32 (j.slot.toNat + j.gen.toNat * 2 ^ 16), w32 (j.seq.toNat + j.record.toNat * 2 ^ 16), j.time,
    j.args.getD 0 0, j.args.getD 1 0, j.args.getD 2 0, j.args.getD 3 0 ]

/-- The registers at a job's start: g1-g8 from the entry, every other register 0. -/
def loadWords : List Word → Nat → LaneState → LaneState
  | [], _, ln => ln
  | w :: t, i, ln => loadWords t (i + 1) (setG i w ln)

/-- The aperture bases that a job runs with (R111). -/
def apertureBase (lo hi l : Nat) (s : State) : BitVec 40 := BitVec.ofNat 40 (base40 lo hi l s)

/-- A lane can take the next queue entry. -/
def takesNext (l : Nat) (s : State) : Bool := (lane l s).run == .idle && !(lane l s).halted && !laneInReset l s

/-- JOB_START (R115): the job at the head of the queue starts, or the lane faults with cause 10 or 6. -/
def jobStart (l : Nat) (ans : MemAnswer) (s : State) : State :=
  if ¬ takesNext l s then s
  else
    match (lane l s).queue with
    | .job j :: t =>
      let ln := lane l s
      let s := setLane l { ln with queue := t, job := some j, keepWrites := ln.stepWrites.length,
                                   keepSends := ln.stepSends.length, keepEntries := ln.stepEntries } s
      let vec := 4 * (j.code.toNat % 256)
      let s := noteRef (.localMem (localAddr l + vec)) ans s
      if ans = .uncorrectable then laneFault l 6 (w32 vec) 0 (w32 vec) s
      else
        let e := localWord l vec s
        if e = 0 ∨ e.toNat % 4 ≠ 0 ∨ 0x10000 ≤ e.toNat then laneFault l 10 (w32 vec) 0 e s
        else
          setLane l (loadWords (jobWords j) 1
            { lane l s with g := [], v := [], pc := e, run := .running, stale := [], sending := false,
                            apb0 := apertureBase LNC_APB0_LO LNC_APB0_HI l s,
                            apb1 := apertureBase LNC_APB1_LO LNC_APB1_HI l s }) s
    | _ => s
def execJobStart (lane : Lane) (ans : MemAnswer) (s : State) : Out := .next (jobStart lane ans s)

/-! ### Drain markers (R82, R118) -/

/-- The drain-marker message of a slot. -/
def markerMessage (l slot : Nat) (gen : BitVec 8) (seq : BitVec 16) (s : State) : Message :=
  { src := l, flags := if stepMode s then 3 else 1, slot := BitVec.ofNat 9 slot, gen := gen,
    cls := BitVec.ofNat 3 (rgF LNC_DST_CTRL (l / 16) 6 4 s), seq := seq, msgSeq := (lane l s).msgSeq,
    time := if stepMode s then w32 s.stp.step else now s, payload := [] }

/-- The last marker of a slot's switch leaves its queue: the message to the receiver, or the end of draining. -/
def markerLeaves (l slot : Nat) (gen : BitVec 8) (seq : BitVec 16) (s : State) : State :=
  if bit (rg MST_PLC_RX slot s) 16 then
    let m := markerMessage l slot gen seq s
    let dest := MsgDest.lane (rgF MST_PLC_RX slot 9 0 s)
    if stepMode s then
      setLane l { lane l s with stepSends := (lane l s).stepSends ++ [.message dest m] } s
    else sendMessage dest m s
  else setRgF MST_PLC_CUR slot 31 31 0 s

/-- DRAIN_MARKER_HEAD (R118): a marker at the head of the queue of a lane that can take it. -/
def drainMarkerHead (l : Nat) (s : State) : State :=
  if ¬ takesNext l s then s
  else
    match (lane l s).queue with
    | .marker slot gen seq :: t =>
      let s := setLane l { lane l s with queue := t } s
      let n := slot.toNat
      let r := slotRun n s
      if r.markersOut = 0 ∨ r.oldGen ≠ gen ∨ ¬ bit (rg MST_PLC_CUR n s) 31 then s
      else
        let s := setSlotRun n { r with markersOut := r.markersOut - 1 } s
        if r.markersOut = 1 ∧ r.markerLanes.isEmpty then markerLeaves l n gen seq s else s
    | _ => s
def execDrainMarkerHead (lane : Lane) (s : State) : Out := .next (drainMarkerHead lane s)

/-! ### Messages (R121, R122) -/

/-- MESSAGE_DELIVER (R121, R122): the oldest message of the district's own lanes, or the one that Junction delivers;
the latter waits while the district is in reset. -/
def messageDeliver (d : Nat) (viaJunction : Bool) (s : State) : State :=
  if viaJunction then
    match handed (132 + d) s with
    | some c =>
      match (jframe c.frame s).bind fun f => f.msg with
      | some (dest, m) => if inReset (132 + d) s then s else deliverMessage dest m (endHanded (132 + d) s)
      | none => s
    | none => s
  else
    match (district d s).direct with
    | (dest, m) :: t => deliverMessage dest m (setDistrict d { district d s with direct := t } s)
    | [] => s
def execMessageDeliver (district : District) (viaJunction : Bool) (s : State) : Out :=
  .next (messageDeliver district viaJunction s)

/-! ### Frames into a district (R125, R126) -/

/-- Longest frame that a buffer takes, without FCS. -/
abbrev maxDistrictFrame : Nat := 2032

/-- The free buffer that takes a frame: R125 names none; the lowest index is a DESIGN CHOICE (log entry 169). -/
def freeBufferOf (d : Nat) (s : State) : Option Nat :=
  (List.range (frxCount (district d s).frx)).find? fun i => !(district d s).buffers.contains i

/-- Offset of a buffer in district memory. -/
def bufferOffset (d i : Nat) (s : State) : Nat := (fld (district d s).frx 7 0 + i) * 2048

/-- The 16-byte header of a buffer. -/
def bufferHeader (port cls idx : Nat) (ts count : Word) (len : Nat) : Bytes :=
  leBytes 2 len ++ leBytes 1 port ++ leBytes 1 cls ++ leBytes 4 ts.toNat ++ leBytes 2 idx ++ [0, 0]
    ++ leBytes 4 count.toNat

def dropDistrictFrame (d : Nat) (s : State) : State := bump LNC_DST_CNT_FRAME d 15 0 s

/-- Write a frame into a free buffer and start its job, or drop it (R113, R125); a refused start counts as a refused
action too (R79). `time` is the job's time word. A frame whose job start is refused is dropped only: it is not written to
the buffer it returns and does not count as received (DESIGN CHOICE, log entry 169). -/
def placeFrame (d port cls : Nat) (ts time : Word) (b : Bytes) (s : State) : State :=
  if maxDistrictFrame < b.length then dropDistrictFrame d s
  else
    match freeBufferOf d s with
    | none => dropDistrictFrame d s
    | some i =>
      let off := bufferOffset d i s
      let j : Job := { source := 3, time := time, buffer := some i,
                       args := [w32 (0x100000 + off), w32 b.length, w32 port, w32 i] }
      match leastOf (fun l => jobCount l s) ((lanesOf d).filter fun l => takesJobs l s) with
      | none => refuseAction (dropDistrictFrame d s)
      | some l =>
        let e := enqueueJob l j s
        if ¬ e.2 then refuseAction (dropDistrictFrame d e.1)
        else
          let s := e.1
          let dr := district d s
          let s := setDistrict d { dr with buffers := dr.buffers ++ [i], frames := dr.frames + 1 } s
          wrBytes (districtAddr d + off) (bufferHeader port cls i ts (dr.frames + 1) b.length ++ b)
            (bump LNC_DST_CNT_FRAME d 31 16 s)

/-- The district takes frames: it is not in reset and has no layout staged. -/
def takesFrames (d : Nat) (s : State) : Bool := !inReset (132 + d) s && !(district d s).frxPending

/-- A captured frame as its input bytes: district, ingress port, class, timestamp, frame (R357). -/
def frameInput (d port cls : Nat) (ts : Word) (b : Bytes) : Bytes :=
  beBytes 1 d ++ beBytes 1 port ++ beBytes 1 cls ++ [0] ++ beBytes 4 ts.toNat ++ b

/-- FRAME_TO_DISTRICT (R125, R357): in step mode a frame from switch ports 0-131 is captured for the next step. -/
def frameToDistrict (d : Nat) (s : State) : State :=
  match handed (132 + d) s with
  | none => s
  | some c =>
    match jframe c.frame s with
    | none => endHanded (132 + d) s
    | some f =>
      if f.msg.isSome ∨ ¬ takesFrames d s ∨ f.cutting then s
      else
        let b := if c.trunc ≠ 0 then f.bytes.take c.trunc else f.bytes
        let s := endHanded (132 + d) s
        if stepMode s ∧ f.src < 132 then captureInput inputFrame (frameInput d f.src c.cls f.ts b) s
        else placeFrame d f.src c.cls f.ts (if stepMode s then s.stp.tb else f.ts) b s
def execFrameToDistrict (district : District) (s : State) : Out := .next (frameToDistrict district s)

/-- LNC_DST_FRX_WRITE (R126): the layout is staged. -/
def lncDstFrxWrite (path : Nat) (value : Word) (s : State) : State :=
  atInst path LNC_DST_FRX (fun d s =>
    setDistrict d { district d s with frxPending := true } (setRg LNC_DST_FRX d (value &&& 0xFF00FF) s)) s
def execLncDstFrxWrite (path : Path) (value : Word) (s : State) : Out := .next (lncDstFrxWrite path value s)

/-- FRX_LAYOUT_APPLY (R126). -/
def frxLayoutApply (d : Nat) (s : State) : State :=
  let r := district d s
  if r.frxPending ∧ r.buffers.isEmpty ∧ ¬ inReset (132 + d) s then
    setDistrict d { r with frx := rg LNC_DST_FRX d s, frxPending := false } s
  else s
def execFrxLayoutApply (district : District) (s : State) : Out := .next (frxLayoutApply district s)

/-! ### Halts (R131, R133) -/

/-- Set or clear the halt of a district and its lanes; a lane stalled in a SEND of kind 2 halts when it completes (R168). -/
def setHalt (d : Nat) (h : Bool) (s : State) : State :=
  let s := setDistrict d { district d s with halted := h } s
  forEach (lanesOf d) (fun l s => setLane l { lane l s with halted := h && !(lane l s).sending } s) s

/-- DISTRICT_HALT (R131, R133): in step mode it waits for the next step. -/
def districtHalt (d : Nat) (s : State) : State :=
  if inReset (132 + d) s then s
  else if stepMode s then awaitStep (.halt d) s
  else setHalt d true s
def execDistrictHalt (district : District) (s : State) : Out := .next (districtHalt district s)

/-- DISTRICT_RESUME (R131, R133). -/
def districtResume (d : Nat) (s : State) : State :=
  if inReset (132 + d) s then s
  else if stepMode s then awaitStep (.resume d) s
  else setHalt d false s
def execDistrictResume (district : District) (s : State) : Out := .next (districtResume district s)

end Sys2Proof.Machine
end

