-- ==== Sys2Proof/Machine/Ports.lean ====
section
/-! DEFINITION. Field ports: link changes, PLCA beacons, legacy serial, surge counting (R173-R178, R188, R190). -/

set_option Elab.async false

namespace Sys2Proof.Machine

open Sys2Proof

/-! ### Links -/

/-- The bit time lies in the accepted range (R175). -/
def bitTimeOk (p : Nat) (s : State) : Bool := decide (2560 ≤ bitTime p s ∧ bitTime p s ≤ 21333334)

/-- A bit time outside the range, once written, is reported (R175). -/
def serialBitCheck (r p : Nat) (s : State) : State :=
  onlyIf (decide (r = FPA_SER_BIT) && !bitTimeOk p s) (setCause FPA_CAUSE p 4) s

/-- A serial port's link bit: up while enabled with a valid bit time (FPA_LINK). -/
def serialRelink (p : Nat) (s : State) : State :=
  onlyIf (isSerial p s) (setLink p (portOn p s && bitTimeOk p s)) s

/-- FPA_T1L_CFG.level and role; 3 is treated as 0. -/
def t1lLevel (p : Nat) (s : State) : Nat := rgF FPA_T1L_CFG p 3 2 s % 3
def t1lRole (p : Nat) (s : State) : Nat := rgF FPA_T1L_CFG p 5 4 s % 3
def t1lNegotiates (p : Nat) (s : State) : Bool := bit (rg FPA_T1L_CFG p s) 0

/-- Level and master of a T1L link (R172): forced without auto-negotiation, where level 0 is 2.4 Vpp and role 0 slave;
what clause 98 resolved otherwise. -/
def t1lSetting (p level : Nat) (isMaster : Bool) (s : State) : Nat × Bool :=
  if t1lNegotiates p s then (level, isMaster) else (max 1 (t1lLevel p s), t1lRole p s == 1)

/-- The partners agree on what the port advertises (R172). -/
def t1lAgrees (p level : Nat) (isMaster : Bool) (s : State) : Bool :=
  !t1lNegotiates p s
    || (decide (level = 1 ∨ level = 2) && decide (t1lLevel p s = 0 ∨ t1lLevel p s = level)
        && decide (t1lRole p s = 0 ∨ (t1lRole p s = 1 ↔ isMaster)))

/-- PLCA runs on the port (R173). -/
def plcaRuns (p : Nat) (s : State) : Bool := bit (rg FPA_T1S_PLCA p s) 24 && decide (rgF FPA_T1S_PLCA p 7 0 s ≠ 255)

/-- What a T1L link report leaves in FPA_PORT_STAT: level and role of a link that is up; LPI needs EEE in effect, and a
window asserts it on the transmit direction (R172, R180). -/
def t1lStatus (p : Nat) (up : Bool) (level : Nat) (isMaster lpiTx lpiRx : Bool) (s : State) : State :=
  let x := t1lSetting p level isMaster s
  let e := eeeInEffect p s
  setRgF FPA_PORT_STAT p 15 13 (4 * b2n (lpiRx && e) + 2 * b2n ((lpiTx && e) || (verge p s).state != .none))
    (setRgF FPA_PORT_STAT p 7 5 (if up then x.1 * 2 + b2n x.2 else 0) s)

/-- A T1L link reported to be up, with a level, a role, and whether the partner advertises EEE (R172): it stays down when
the partners cannot agree. -/
def t1lLink (p : Nat) (up : Bool) (x : LinkPartner) (isMaster lpiTx lpiRx : Bool) (s : State) : State :=
  let up := up && t1lAgrees p x.level.toNat isMaster s
  t1lStatus p up x.level.toNat isMaster lpiTx lpiRx (setLink p up (setPortRun p { portRun p s with eee := up && x.eee } s))

/-- LINK_CHANGE (R172, R173, R190). -/
def linkChange (p : Nat) (up : Bool) (level : LinkPartner) (isMaster lpiTx lpiRx plca : Bool) (s : State) : State :=
  if ¬ portOn p s ∨ isSerial p s ∨ ¬ dieUp (p / 64) s then s
  else if portMode p s = 0 then t1lLink p up level isMaster lpiTx lpiRx s
  else setRgF FPA_PORT_STAT p 15 13 (b2n (plca && plcaRuns p s)) (setLink p up s)
def execLinkChange (port : FieldPort) (up : Bool) (level : LinkPartner) (isMaster lpiTx lpiRx plca : Bool) (s : State) :
    Out := .next (linkChange port up level isMaster lpiTx lpiRx plca s)

/-- T1S_BEACON (R174, R180): when a cycle is over the coordinator opens the next one with its own transmit opportunity, or
withholds the beacon for a verge window. -/
def t1sBeacon (p : Nat) (s : State) : State :=
  if ¬ portOn p s ∨ ¬ plcaCoordinator p s ∨ ¬ cycleOver p s then s
  else if (verge p s).state = .none then
    bump FPA_T1S_CNT p 31 16 (setPortRun p { portRun p s with
      cycleStart := some (now s), oppLeft := 1 + rgF FPA_T1S_BURST p 7 0 s, oppEnd := none } s)
  else bump FPA_T1S_CNT p 15 0 s
def execT1sBeacon (port : FieldPort) (s : State) : Out := .next (t1sBeacon port s)

/-! ### Legacy serial (R175-R178) -/

/-- Data bits, parity bits and stop bits of a character. -/
def dataBits (p : Nat) (s : State) : Nat := if bit (rg FPA_SER_CFG p s) 0 then 7 else 8
def parityKind (p : Nat) (s : State) : Nat :=
  let k := rgF FPA_SER_CFG p 4 2 s
  if k ≤ 4 then k else 0
def parityBits (p : Nat) (s : State) : Nat := if parityKind p s = 0 then 0 else 1
def stopBits (p : Nat) (s : State) : Nat := if bit (rg FPA_SER_CFG p s) 5 then 2 else 1

/-- The parity bit of a character: even, odd, mark or space (R175). -/
def parityOf (kind : Nat) (c : Nat) : Bool :=
  let odd := (List.range 8).foldl (fun b i => b != decide (c / 2 ^ i % 2 = 1)) false
  match kind with
  | 1 => odd
  | 2 => !odd
  | 3 => true
  | _ => false

/-- The port is a serial port that can send and receive. -/
def serialOn (p : Nat) (s : State) : Bool :=
  isSerial p s && portOn p s && bitTimeOk p s && dieUp (p / 64) s

/-- Forget the message in reception. -/
def clearReception (p : Nat) (s : State) : State :=
  setPortRun p { portRun p s with chars := [], broken := false, framing := false, parity := false, errIndex := none } s

/-- Longest message (R176). -/
abbrev maxChars : Nat := 1496

/-- The frame of a received message (R177). -/
def serialFrame (p : Nat) (data : Bytes) (flags errIndex : Nat) (s : State) : Bytes :=
  padFrame (beBytes 2 (rgF FPA_SER_DA_HI p 15 0 s) ++ beBytes 4 (rg FPA_SER_DA_LO p s).toNat
    ++ beBytes 6 (filterAddr p s).toNat ++ beBytes 2 (rgF FPA_SER_ETYPE 0 15 0 s)
    ++ beBytes 2 data.length ++ beBytes 2 flags ++ beBytes 2 errIndex ++ [0, 0, 0, 0] ++ data)

/-- Deliver a message's frame to Junction from switch port p (R177, R202); Waypost never enters on a field port (R13). -/
def deliverSerial (p : Nat) (b : Bytes) (ts : Word) (s : State) : State :=
  if discards p s then macBump 21 p s
  else if isWaypost p b s then macBump 16 p s
  else passFrame p (b.length + 4) ts b s

/-- The message in reception ends (R176, R177, R178). -/
def endMessage (p : Nat) (brk truncated : Bool) (s : State) : State :=
  let r := portRun p s
  if r.chars.isEmpty then clearReception p s
  else
    let master := !bit (rg FPA_SER_CFG p s) 6
    let resp := master && r.response
    let flags := b2n r.framing + 2 * b2n r.parity + 4 * b2n brk + 8 * b2n truncated + 16 * b2n resp
    let b := serialFrame p r.chars flags (r.errIndex.getD 0xFFFF) s
    let s := onlyIf (master && !r.response) (bump FPA_SER_CNT2 p 23 16) s
    let s := clearReception p (setPortRun p { portRun p s with response := false } s)
    deliverSerial p b r.ts s

/-- A message that holds the longest length ends by itself (R176). -/
def endFull (p : Nat) (s : State) : State :=
  onlyIf (decide (maxChars ≤ (portRun p s).chars.length)) (endMessage p false true) s

/-- Take one sampled character: bit 0 is the start bit, data from bit 1, least significant first (R175, R176). -/
def takeCharacter (p : Nat) (bits : BitVec 12) (phase : Nat) (s : State) : State :=
  let nd := dataBits p s
  let np := parityBits p s
  let ns := stopBits p s
  let r := portRun p s
  if fld bits (nd + np + ns) 0 = 0 then
    -- a break stores no character
    setPortRun p { r with broken := true } s
  else
    let c := fld bits nd 1
    let framing := (List.range ns).any fun i => !bit bits (1 + nd + np + i)
    let parity := decide (np = 1) && (bit bits (1 + nd) != parityOf (parityKind p s) c)
    let s := onlyIf framing (bump FPA_SER_CNT p 31 16) s
    let s := onlyIf parity (bump FPA_SER_CNT p 15 0) s
    endFull p (setPortRun p { r with
      chars := r.chars ++ [BitVec.ofNat 8 c],
      framing := r.framing || framing, parity := r.parity || parity,
      errIndex := if (framing || parity) && r.errIndex.isNone then some r.chars.length else r.errIndex,
      ts := if r.chars.isEmpty then serialStamp p phase s else r.ts } s)

/-- SERIAL_CHARACTER_RECEIVE (R176): a start edge that does not hold is a glitch. -/
def serialCharacterReceive (p : Nat) (startHeld : Bool) (bits : BitVec 12) (phase : Nat) (s : State) : State :=
  if serialOn p s ∧ startHeld ∧ (verge p s).state ≠ .active then takeCharacter p bits phase s else s
def execSerialCharacterReceive (port : FieldPort) (startHeld : Bool) (bits : BitVec 12) (phase : Fin 16) (s : State) :
    Out := .next (serialCharacterReceive port startHeld bits phase s)

/-- SERIAL_MESSAGE_END (R176): an idle gap, a break that has come, or a full message. -/
def serialMessageEnd (p : Nat) (why : MessageEnd) (s : State) : State :=
  if ¬ serialOn p s ∨ ¬ receiving p s then s
  else
    match why with
    | .gap => endMessage p false false s
    | .lineBreak => if (portRun p s).broken then endMessage p true false s else s
    | .full => endFull p s
def execSerialMessageEnd (port : FieldPort) (why : MessageEnd) (s : State) : Out := .next (serialMessageEnd port why s)

/-- SERIAL_RESPONSE_TIMEOUT (R178). -/
def serialResponseTimeout (p : Nat) (s : State) : State :=
  if serialOn p s ∧ (portRun p s).response then
    let s := bump FPA_SER_CNT2 p 31 24 (setPortRun p { portRun p s with response := false } s)
    deliverSerial p (serialFrame p [] 32 0xFFFF s) (now s) s
  else s
def execSerialResponseTimeout (port : FieldPort) (s : State) : Out := .next (serialResponseTimeout port s)

/-- The port may send its next message: `lineIdle` says that the line has been idle for gap_bits (R178, R180). -/
def maySend (p : Nat) (lineIdle : Bool) (s : State) : Bool :=
  serialOn p s && lineIdle && !receiving p s && (verge p s).state == .none
    && (bit (rg FPA_SER_CFG p s) 6 || !(portRun p s).response)

/-- The characters of a transmit frame: bit 7 is not sent with 7 data bits (R177). -/
def sentChars (p : Nat) (b : Bytes) (s : State) : Bytes :=
  (slice b 24 (beAt b 14 2)).map fun x => if dataBits p s = 7 then x &&& 0x7F else x

/-- A transmit frame is malformed (R177). -/
def serialBad (b : Bytes) (s : State) : Bool :=
  let len := beAt b 14 2
  decide (beAt b 12 2 ≠ rgF FPA_SER_ETYPE 0 15 0 s) || decide (len = 0) || decide (maxChars < len)
    || decide (b.length < 24 + len)

/-- SERIAL_TRANSMIT (R38, R177, R178): `mismatch` says that a character read back differs. -/
def serialTransmit (p : Nat) (lineIdle mismatch : Bool) (s : State) : State :=
  match handed p s with
  | none => s
  | some c =>
    match jframe c.frame s with
    | none => endHanded p s
    | some f =>
      if ¬ maySend p lineIdle s ∨ f.cutting then s
      else if ¬ bit (rg MAC_CFG p s) 1 then macBump 43 p (endHanded p s)
      else if f.oneStep.isSome then dropOneStep p s
      else
        let b := outBytes p c f s
        if serialBad b s then bump FPA_SER_CNT2 p 7 0 (endHanded p s)
        else
          let master := !bit (rg FPA_SER_CFG p s) 6
          let s := onlyIf (master && decide (beAt b 20 2 ≠ 0))
            (fun s => setPortRun p { portRun p s with response := true } s) s
          let s := onlyIf (!master && mismatch) (bump FPA_SER_CNT2 p 15 8) s
          endHanded p (putLine p .serial (sentChars p b s) (macGood 22 p (b.length + 4) (dstAddr b) s))
def execSerialTransmit (port : FieldPort) (lineIdle mismatch : Bool) (s : State) : Out :=
  .next (serialTransmit port lineIdle mismatch s)

/-! ### Surge counting (R188) -/

/-- Class of a clamp event by its peak. -/
def surgeClassOf (peakMa : Nat) : Nat := if peakMa ≤ 200 then 0 else if peakMa ≤ 1000 then 1 else 2

/-- Add to the count of a class, wrapping. -/
def addSurgeClass (p c n : Nat) (s : State) : State := addRgF FPA_SURGE_CLASS p (10 * c + 9) (10 * c) n s

/-- The clamp conducts while a measurement runs: neither in the settling time nor after its end (R182, R185). -/
def surgeInMeasurement (v : Verge) (start : Word) (durationNs : Nat) : Bool :=
  v.current.any fun k =>
    decide (0 < diff32 (start + w32 durationNs) v.nextNs) && decide (diff32 start (v.nextNs + w32 (measureNs k)) < 0)

/-- SURGE_CLAMP_EVENT (R185, R187, R188): `gapNs` is the time since the end of the previous conduction. -/
def surgeClampEvent (p peakMa durationNs gapNs : Nat) (start : Word) (s : State) : State :=
  if peakMa ≤ 50 ∨ durationNs < 20 then s
  else
    let k := surgeClassOf peakMa
    let v := verge p s
    let s := onlyIf (surgeInMeasurement v start durationNs) (setVerge p { v with currentEnergy := true }) s
    match (if gapNs ≤ 10000 then (portRun p s).surgeClass else none) with
    | some old =>
      if old < k then
        -- the merged event reaches a higher class: its count moves
        addSurgeClass p k 1 (addSurgeClass p old 1023 (setPortRun p { portRun p s with surgeClass := some k } s))
      else s
    | none =>
      let s := setPortRun p { portRun p s with surgeClass := some k } s
      let s := setRg FPA_SURGE_LAST p start (addSurgeClass p k 1 (bump FPA_SURGE_CNT p 31 0 s))
      setCause FPA_CAUSE p 1 (pulseSource (.port p 4) s)
def execSurgeClampEvent (port : FieldPort) (peakMa durationNs gapNs : Nat) (start : Word) (s : State) : Out :=
  .next (surgeClampEvent port peakMa durationNs gapNs start s)

end Sys2Proof.Machine
end

