-- ==== Sys2Proof/Machine/Turnpike.lean ====
section
/-! DEFINITION. Turnpike's choice of copies, its shapers, the fit test and the subscriber map (R238-R243, R255-R258), and
the end of a cut-through frame (R223, R233, R241, R245, R270, R282). -/

set_option Elab.async false

namespace Sys2Proof.Machine

open Sys2Proof

/-! ### Shapers (R242, R243) -/

/-- Which shaper: a port, a service (port * 8 + class), or a subscriber. -/
inductive Shaper where
  | port (p : Nat) | service (k : Nat) | sub (n : Nat)
deriving DecidableEq, Repr

def Shaper.enabled (b : Shaper) (s : State) : Bool :=
  match b with
  | .port p => bit (rg TPK_P_CFG p s) 8
  | .service k => bit (rg TPK_S_CFG k s) 31
  | .sub n => decide (n < 4096) && bit (rg TPK_SUB_CFG n s) 30

/-- Credit in units of 2^-20 byte. -/
def Shaper.credit (b : Shaper) (s : State) : Int :=
  match b with
  | .port p => sget 0 p s.tpk.portCredit
  | .service k => sget 0 k s.tpk.serviceCredit
  | .sub n => sget 0 n s.tpk.subCredit

def Shaper.setCredit (b : Shaper) (v : Int) (s : State) : State :=
  match b with
  | .port p => { s with tpk := { s.tpk with portCredit := sset 0 p v s.tpk.portCredit } }
  | .service k => { s with tpk := { s.tpk with serviceCredit := sset 0 k v s.tpk.serviceCredit } }
  | .sub n => { s with tpk := { s.tpk with subCredit := sset 0 n v s.tpk.subCredit } }

def Shaper.rate (b : Shaper) (s : State) : Nat :=
  match b with
  | .port p => (rg TPK_P_RATE p s).toNat
  | .service k => (rg TPK_S_RATE k s).toNat
  | .sub n => (rg TPK_SUB_RATE n s).toNat

/-- The burst in units of 2^-20 byte. -/
def Shaper.cap (b : Shaper) (s : State) : Int :=
  match b with
  | .port p => rgF TPK_P_BURST p 23 0 s * 2 ^ 20
  | .service k => rgF TPK_S_BURST k 23 0 s * 2 ^ 20
  | .sub n => rgF TPK_SUB_BURST n 23 0 s * 2 ^ 20

/-- The shaper holds a queued copy. -/
def Shaper.active (b : Shaper) (s : State) : Bool :=
  match b with
  | .port p => portHolds p (fun _ => true) s
  | .service k => !(jqueue (k / 8) (k % 8) s).isEmpty
  | .sub n => portHolds (rgF TPK_SUB_CFG n 7 0 s) (fun y => decide (y.sub = n)) s

/-- The shapers on a copy's path. -/
def shapersOf (c : Copy) : List Shaper := [.sub c.sub, .service (c.port * 8 + c.cls), .port c.port]

/-- A path's credit permits a copy (R240). -/
def creditOk (c : Copy) (s : State) : Bool :=
  (shapersOf c).all fun b => !b.enabled s || decide (0 ≤ b.credit s)

/-- Charge or give back bytes on a copy's path. -/
def chargePath (c : Copy) (n : Int) (s : State) : State :=
  forEach (shapersOf c) (fun b s => if b.enabled s then b.setCredit (b.credit s - n * 2 ^ 20) s else s) s

/-- What a shaper's registers held before the writes of this edge. -/
def Shaper.wasEnabled (b : Shaper) (s : State) : Bool :=
  match b with
  | .port p => bit (rgHeld TPK_P_CFG p s) 8
  | .service k => bit (rgHeld TPK_S_CFG k s) 31
  | .sub n => decide (n < 4096) && bit (rgHeld TPK_SUB_CFG n s) 30

def Shaper.wasRate (b : Shaper) (s : State) : Nat :=
  match b with
  | .port p => (rgHeld TPK_P_RATE p s).toNat
  | .service k => (rgHeld TPK_S_RATE k s).toNat
  | .sub n => (rgHeld TPK_SUB_RATE n s).toNat

def Shaper.wasCap (b : Shaper) (s : State) : Int :=
  match b with
  | .port p => rgHeldF TPK_P_BURST p 23 0 s * 2 ^ 20
  | .service k => rgHeldF TPK_S_BURST k 23 0 s * 2 ^ 20
  | .sub n => rgHeldF TPK_SUB_BURST n 23 0 s * 2 ^ 20

/-- One accrual of a shaper (R242): with the values held before a write of its edge, after which the write's own effects on
the credit stand (R243). -/
def Shaper.accrue (b : Shaper) (s : State) : State :=
  if ¬ b.enabled s ∨ ¬ b.wasEnabled s then s
  else if b.active s then b.setCredit (min (min (b.credit s + b.wasRate s) (b.wasCap s)) (b.cap s)) s
  else if b.credit s < 0 then b.setCredit (min (b.credit s + b.wasRate s) 0) s
  else s

/-- SHAPER_ACCRUAL (R202, R242): every 1 us. MACs with a held class count the microsecond. -/
def shaperAccrual (s : State) : State :=
  let s := forEach ((List.range 132).filter fun p => (List.range 8).any fun c => classHeld p c s) (macBump 42) s
  if inReset 197 s then s
  else
    let s := forEach (listedInsts TPK_SUB_CFG s.regs) (fun n => Shaper.accrue (.sub n)) s
    let s := forEach (listedInsts TPK_S_CFG s.regs) (fun k => Shaper.accrue (.service k)) s
    forEach (listedInsts TPK_P_CFG s.regs) (fun p => Shaper.accrue (.port p)) s
def execShaperAccrual (s : State) : Out := .next (shaperAccrual s)

/-! ### Lengths and times (R208, R241, R256) -/

/-- Signed overhead of a port. -/
def overhead (p : Nat) (s : State) : Int := sgn 8 (rgF TPK_P_CFG p 23 16 s)

/-- L of a copy: max_len of the egress MAC while a cut-through frame's length is not known. -/
def copyLen (c : Copy) (f : JFrame) (s : State) : Nat :=
  if f.cutting then maxLen c.port s else chargedLen f c.trunc c.tag

/-- The charge n of a copy: below 0 when the overhead takes more than its length. -/
def chargeOf (c : Copy) (f : JFrame) (s : State) : Int := (copyLen c f s : Int) + overhead c.port s

/-- Transmission time per byte in units of 1/640 ns. -/
def byteTime (p : Nat) : Nat := if 128 ≤ p then 512 else 512000

/-- Transmission time of `left` bytes of a copy in units of 1/640 ns (R256). -/
def txTime (c : Copy) (f : JFrame) (left : Nat) (s : State) : Int :=
  let p := c.port
  if isSerial p s then
    let bits := rgF FPA_SER_CFG p 5 5 s + 2 + (if rgF FPA_SER_CFG p 0 0 s = 1 then 7 else 8)
      + (if rgF FPA_SER_CFG p 4 2 s = 0 ∨ 4 < rgF FPA_SER_CFG p 4 2 s then 0 else 1)
    ((beAt (outBytes p c f s) 14 2 * bits + 2) * bitTime p s * 25 : Nat)
  else ((left : Int) + overhead p s) * byteTime p

/-! ### Windows (R254, R256, R257) -/

/-- Every entry holds class c open, or there is no list. -/
def alwaysOpen (g : GateRun) (c : Nat) : Bool :=
  decide (g.oper.form = formNone) || g.oper.entries.all fun e => bit (openMask e) c

/-- Sum of the intervals of the run of open entries from entry i, at most n entries; none when one of them is 0. -/
def runSum (g : GateRun) (c : Nat) : Nat → Nat → Option Nat
  | 0, _ => some 0
  | n + 1, i =>
    let e := g.oper.entry i
    if ¬ bit (openMask e) c then some 0
    else if entryInterval e = 0 then none
    else (runSum g c n (if g.oper.entries.length ≤ i + 1 then 0 else i + 1)).map fun x => x + entryInterval e

/-- Time from now to the start of a T1S coordinator's transmit opportunity (R256): 0 while it may transmit. DESIGN CHOICE: the
next cycle is taken to start where this one ends when no other node uses its opportunities. -/
def startDelay (p : Nat) (s : State) : Int :=
  match (portRun p s).cycleStart with
  | some t =>
    if plcaCoordinator p s ∧ ¬ mayTransmit p s then
      max 0 (diff32 (ownOpportunityEnd p t s + w32 ((rgF FPA_T1S_PLCA p 23 16 s - 1) * rgF FPA_T1S_PLCA p 15 8 s * 100))
        (now s))
    else 0
  | none => 0

/-- The time to the close of class c's window in ns; none is unlimited (R256). -/
def windowEndIn (p c : Nat) (s : State) : Option Int :=
  let g := gateRun p s
  let t := now s
  if alwaysOpen g c ∨ (g.oper.form = formRoad ∧ ¬ g.fallback ∧ windowClose g c = none) then none
  else if g.oper.form = formStepped then
    (runSum g c g.oper.entries.length g.entry).map fun n => diff64 g.start (nowX s) + (n : Int)
  else if onClock g then
    let close := match windowClose g c with
      | some off => some (diff64 g.clockEnd (nowX s) + ((off : Int) - endOffset g g.entry))
      | none => none
    let switch := g.switchNs.map fun w => diff32 w t
    match close, switch with
    | some a, some b => some (min a b)
    | some a, none => some a
    | none, x => x
  else
    let w := g.windowEnds.getD c (whenNotValid, 0)
    if w.1 = whenOk ∨ w.1 = whenNotConverged then some (diff32 w.2 t)
    else if w.1 = whenBeyond then
      let r := road g.oper.road s
      some (diff32 (r.tS + w32 r.horizon) t)
    else some 0

/-- The window remaining of class c in ns, from the time at which a copy would start; none is unlimited (R256). -/
def windowLeft (p c : Nat) (s : State) : Option Int := (windowEndIn p c s).map fun n => n - startDelay p s

/-- Length in list terms of the run of open entries from entry i in the order in which they run, at most n entries. -/
def runLen (g : GateRun) (c : Nat) : Nat → Nat → Nat
  | 0, _ => 0
  | n + 1, i => if ¬ bit (openMask (g.oper.entry i)) c then 0 else entryLen g i + runLen g c n (nextOf g i).1

/-- The entries of a list that its cycle reaches (R247). -/
def reachedEntries (g : GateRun) : List Nat :=
  (List.range g.oper.entries.length).filter fun i => decide (i = 0 ∨ lenBefore g i < cycleLen g)

/-- The longest window of class c in ns; none is unlimited (R257). -/
def longestWindow (p c : Nat) (s : State) : Option Nat :=
  let g := gateRun p s
  let n := g.oper.entries.length
  let best (f : Nat → Nat) (l : List Nat) : Nat := l.foldl (fun m i => max m (f i)) 0
  let reached := reachedEntries g
  if alwaysOpen g c then none
  else if g.oper.form = formStepped then
    if g.oper.entries.any fun e => bit (openMask e) c && decide (entryInterval e = 0) then none
    else some (best (fun i => (runSum g c n i).getD 0) (List.range n))
  else if reached.all fun i => bit (openMask (g.oper.entry i)) c then none
  else if onClock g then some (best (runLen g c n) reached)
  else
    let v := sget 0 c g.openVel
    if v = 0 then none else some (best (runLen g c n) reached * 2 ^ 16 / v)

/-! ### The fit test (R257) -/

/-- What the fit test decides for a copy whose gate is open. -/
inductive Fit where
  | sent | firstFragment (stopAt : Nat) | oversize | wait
deriving DecidableEq, Repr

/-- The latest pre-emption point whose fragment ends within `w` ns: bytes of the frame sent by then, when a first fragment
is possible. -/
def fragmentStop (c : Copy) (total : Nat) (w : Int) (s : State) : Option Nat :=
  let k := min (w * 640 / byteTime c.port - overhead c.port s - 4) ((total : Int) - 64 - c.sent)
  if preemptable c.port c.cls s ∧ (minFragment c.port s : Int) ≤ k + 4 then some (c.sent + k.toNat) else none

/-- The fit test of a copy or of a suspended remainder (R257). -/
def fitTest (c : Copy) (s : State) : Fit :=
  match jframe c.frame s with
  | none => .wait
  | some f =>
    let total := copyLen c f s
    let tau := txTime c f (total - c.sent) s
    match windowLeft c.port c.cls s with
    | none => .sent
    | some w =>
      if tau ≤ w * 640 then .sent
      else
        match fragmentStop c total w s with
        | some n => .firstFragment n
        | none =>
          match longestWindow c.port c.cls s with
          | some l => if ¬ f.cutting ∧ c.sent = 0 ∧ (l * 640 : Int) < tau then .oversize else .wait
          | none => .wait

/-- Whether the fit test lets a copy start. -/
def Fit.starts : Fit → Bool
  | .sent | .firstFragment _ => true
  | .oversize | .wait => false

/-! ### Eligibility (R240) -/

/-- The MAC can take frames: link, mode, isolation, resets and verge windows (R180, R240, R260, R333). -/
def portReady (p : Nat) (s : State) : Bool :=
  linkUp p s && !isolated p s && !inReset 197 s && !inReset p s
    && (decide (128 ≤ p) || (verge p s).state == .none)

/-- A copy's frame has arrived as far as the copy needs (R210, R232). -/
def copyReady (c : Copy) (s : State) : Bool :=
  match jframe c.frame s with
  | some f => c.cut || !f.cutting
  | none => false

/-- The standby unit of a twin manager sends nothing but twin frames on its hierarchy trunks (R377). DESIGN CHOICE: its
copies for them wait. -/
def standbySilent (c : Copy) (s : State) : Bool :=
  decide (128 ≤ c.port) && decide (rgF HIE_CFG 0 31 30 s = 1) && bit (rg TWN_CFG 0 s) 31 && !twinActive s
    && decide (trunkRole (c.port - 128) s = roleHierarchy)
    && (jframe c.frame s).any fun f => decide (etherType f.bytes ≠ rgF TWN_CFG 0 15 0 s)

/-- A head copy is eligible (R240). -/
def eligible (c : Copy) (s : State) : Bool :=
  bit (gatesNow (gateRun c.port s)) c.cls && !classHeld c.port c.cls s && creditOk c s && copyReady c s
    && (fitTest c s).starts && !standbySilent c s

/-- The heads of the subscriber FIFOs of a queue. -/
def fifoHeads : List Copy → List Copy
  | [] => []
  | c :: t => c :: (fifoHeads t).filter fun x => x.sub ≠ c.sub

/-- Every head of a port. -/
def portHeads (p : Nat) (s : State) : List Copy := (List.range 8).flatMap fun c => fifoHeads (jqueue p c s)

/-! ### Deficit round robin (R241) -/

/-- One round over members with their needs; the member that is selected, and the deficits. -/
def dwrrRound (need : Nat → Int) (quantum : Nat → Nat) : List Nat → Sparse Nat → Option Nat × Sparse Nat
  | [], d => (none, d)
  | m :: t, d =>
    if ((sget 0 m d : Nat) : Int) < need m then dwrrRound need quantum t (sset 0 m (sget 0 m d + quantum m) d)
    else (some m, sset 0 m (((sget 0 m d : Nat) : Int) - need m).toNat d)

/-- Rounds until a member is selected; `ms` are the members with an eligible head, in visiting order. -/
def dwrr (need : Nat → Int) (quantum : Nat → Nat) (ms : List Nat) : Nat → Sparse Nat → Option Nat × Sparse Nat
  | 0, d => (none, d)
  | n + 1, d =>
    match dwrrRound need quantum ms d with
    | (some m, d) => (some m, d)
    | (none, d) => dwrr need quantum ms n d

/-- Ascending members, beginning at the one to visit next. -/
def visitOrder (next : Nat) (ms : List Nat) : List Nat :=
  (ms.filter fun m => decide (next ≤ m)) ++ ms.filter fun m => decide (m < next)

/-- Insert in ascending order. -/
def insertNat (n : Nat) : List Nat → List Nat
  | [] => [n]
  | x :: t => if n ≤ x then n :: x :: t else x :: insertNat n t

/-- Quantum of a weight. -/
def quantumOf (w : Nat) : Nat := max 1 w * 64

/-- Deficits of the members of one set, and the member that its round robin visits first. -/
structure DwrrState where
  deficits : Sparse Nat
  next : Nat

/-- Rounds that suffice for the longest frame at the least quantum. -/
abbrev dwrrRounds : Nat := 300

/-- Weight of a subscriber within a service. -/
def subWeight (p c sub : Nat) (s : State) : Nat :=
  if sub < 4096 then rgF TPK_SUB_CFG sub 23 16 s else rgF TPK_S_CFG (p * 8 + c) 15 8 s

/-- The service's deficits by subscriber: members that hold no copy stand at 0. -/
def serviceDeficits (p c : Nat) (s : State) : Sparse Nat :=
  let base := (p * 8 + c) * 4097
  ((s.tpk.subDeficit.filter fun e => decide (base ≤ e.1 ∧ e.1 < base + 4097)).filter fun e =>
    (jqueue p c s).any fun x => decide (x.sub = e.1 - base)).map fun e => (e.1 - base, e.2)

/-- The next copy of a service among its eligible heads, and its set's state after the choice. -/
def chooseSub (p c : Nat) (heads : List Copy) (s : State) : Option (Copy × DwrrState) :=
  let mine := heads.filter fun x => decide (x.cls = c)
  let ms := mine.foldl (fun l x => insertNat x.sub l) []
  let need (m : Nat) : Int :=
    match mine.find? fun x => decide (x.sub = m) with
    | some x => match jframe x.frame s with
      | some f => chargeOf x f s
      | none => 0
    | none => 0
  let r := dwrr need (fun m => quantumOf (subWeight p c m s))
    (visitOrder (sget 0 (p * 8 + c) s.tpk.subNext) ms) dwrrRounds (serviceDeficits p c s)
  match r.1 with
  | some m => (mine.find? fun x => decide (x.sub = m)).map fun x => (x, { deficits := r.2, next := m })
  | none => none

/-- Store a service's set. -/
def putService (p c : Nat) (d : DwrrState) (s : State) : State :=
  let base := (p * 8 + c) * 4097
  let others := s.tpk.subDeficit.filter fun e => !decide (base ≤ e.1 ∧ e.1 < base + 4097)
  { s with tpk := { s.tpk with
      subDeficit := d.deficits.foldl (fun l e => sset 0 (base + e.1) e.2 l) others,
      subNext := sset 0 (p * 8 + c) d.next s.tpk.subNext } }

/-- The port's deficits by class: classes that hold no copy stand at 0. -/
def portDeficits (p : Nat) (s : State) : Sparse Nat :=
  ((s.tpk.classDeficit.filter fun e => decide (e.1 / 8 = p)).filter fun e => !(jqueue p (e.1 % 8) s).isEmpty).map
    fun e => (e.1 % 8, e.2)

/-- Store a port's set. -/
def putPort (p : Nat) (d : DwrrState) (s : State) : State :=
  let others := s.tpk.classDeficit.filter fun e => decide (e.1 / 8 ≠ p)
  { s with tpk := { s.tpk with
      classDeficit := d.deficits.foldl (fun l e => sset 0 (p * 8 + e.1) e.2 l) others,
      classNext := sset 0 p d.next s.tpk.classNext } }

/-- Choose a copy among candidate heads (R240): the highest strict class, or the next class of the port's set; then the
next subscriber of the service. -/
def chooseCopy (p : Nat) (heads : List Copy) (s : State) : Option (Copy × State) :=
  let strict (c : Nat) : Bool := bit (rg TPK_P_CFG p s) c
  let classes := (List.range 8).filter fun c => heads.any fun x => decide (x.cls = c)
  match (classes.filter strict).reverse with
  | c :: _ => (chooseSub p c heads s).map fun r => (r.1, putService p c r.2 s)
  | [] =>
    let pick (c : Nat) := chooseSub p c heads s
    let need (c : Nat) : Int :=
      match pick c with
      | some (x, _) => match jframe x.frame s with
        | some f => chargeOf x f s
        | none => 0
      | none => 0
    let r := dwrr need (fun c => quantumOf (rgF TPK_S_CFG (p * 8 + c) 7 0 s))
      (visitOrder (sget 0 p s.tpk.classNext) classes) dwrrRounds (portDeficits p s)
    match r.1 with
    | some c => (pick c).map fun x => (x.1, putService p c x.2 (putPort p { deficits := r.2, next := c } s))
    | none => none

/-! ### Selection (R224-R226, R240, R257) -/

/-- The residue time in ns (R225); 0 is taken as 1 us. -/
def residueNs (s : State) : Nat := max 1 (rgF JCT_MC_CFG 0 19 0 s) * 1000

/-- A copy leaves its queue: its cells go back, and the first copy of a frame with several destinations starts its residue
timer (R225). -/
def takeCopy (c : Copy) (s : State) : State :=
  let s := setJqueue c.port c.cls (removeCopy (fun x => x = c) (jqueue c.port c.cls s)) s
  updJframe c.frame
    (fun f => if f.multi ∧ f.residueAt.isNone then { f with residueAt := some (now s + w32 (residueNs s)) } else f) s

/-- Hand a copy to its MAC: the charges, the counts and the point at which it stops (R240, R257). -/
def handCopy (c : Copy) (s : State) : State :=
  match jframe c.frame s with
  | none => s
  | some f =>
    let n := chargeOf c f s
    let stop := match fitTest c s with
      | .firstFragment k => k
      | _ => 0
    let len := if f.cutting then maxLen c.port s else 0
    let on : List Bool := (shapersOf c).map fun b => b.enabled s
    let shaped : BitVec 3 := BitVec.ofNat 3 (b2n (on.getD 0 false) + 2 * b2n (on.getD 1 false) + 4 * b2n (on.getD 2 false))
    let weighed := !bit (rg TPK_P_CFG c.port s) c.cls
    let s := takeCopy c (chargePath c n s)
    let s := bump TPK_S_TX (c.port * 8 + c.cls) 31 0 s
    let s := onlyIf (decide (c.sub < 4096)) (bump TPK_SUB_TX c.sub 31 0) s
    setHanded c.port (some { c with stopAt := stop, charged := len, shaped := shaped, weighed := weighed }) s

/-- Drop the first oversize head of a port, if any (R257). -/
def dropOversize (p : Nat) : Nat → State → State
  | 0, s => s
  | n + 1, s =>
    match (portHeads p s).find? fun c => bit (gatesNow (gateRun p s)) c.cls && copyReady c s && fitTest c s == .oversize with
    | some c =>
      let s := setJqueue p c.cls (removeCopy (fun x => x = c) (jqueue p c.cls s)) s
      let s := setCause TPK_CAUSE 0 3 (bump TPK_S_DROP (p * 8 + c.cls) 31 16 (releaseRef c.frame s))
      dropOversize p n s
    | none => s

/-- Choose and hand a copy that satisfies `f`, dropping over-age ones as they are selected (R224, R226). -/
def serve (p : Nat) (f : Copy → State → Bool) : Nat → State → State
  | 0, s => s
  | n + 1, s =>
    match chooseCopy p ((portHeads p s).filter fun c => eligible c s && f c s) s with
    | none => s
    | some (c, s') =>
      if overAge c s then
        serve p f n (countAged c (releaseRef c.frame (setJqueue p c.cls (removeCopy (fun x => x = c) (jqueue p c.cls s)) s)))
      else handCopy c s'

/-- Copies queued at a port: a bound on what one selection can drop. -/
def portCopies (p : Nat) (s : State) : Nat := (List.range 8).foldl (fun n c => n + (jqueue p c s).length) 0

/-- An express copy (R255). -/
def express (c : Copy) (s : State) : Bool := !preemptable c.port c.cls s

/-- A suspended remainder may go on (R258). -/
def remainderReady (c : Copy) (s : State) : Bool :=
  bit (gatesNow (gateRun c.port s)) c.cls && !classHeld c.port c.cls s && (fitTest c s).starts

/-- An external port's choice (R240). What the MAC has to send of its own goes first: the answer to a verify request
(R199), and a requested PAUSE or PFC frame (R197). -/
def selectExternal (p : Nat) (s : State) : State :=
  let s := sendResponse p s
  if ¬ portReady p s ∨ ((handed p s).isNone ∧ (macRun p s).pauseReq.isSome) then s
  else
    let s := dropOversize p (portCopies p s) s
    match handed p s with
    | some c =>
      if preemptable p c.cls s ∧ (portHeads p s).any (fun x => express x s && eligible x s) then setPreempting p true s
      else s
    | none =>
      match suspended p s with
      | some r =>
        let s' := serve p express (portCopies p s + 1) s
        if (handed p s').isSome then s'
        else if remainderReady r s' then
          let stop := match fitTest r s' with
            | .firstFragment k => k
            | _ => 0
          setHanded p (some { r with stopAt := stop }) (setSuspended p none s')
        else s'
      | none => serve p (fun _ _ => true) (portCopies p s + 1) s

/-- An internal unit accepts a copy: a district takes messages while it is out of reset, and frames while it has no layout
staged; frames for switch port 196 are taken from the queue by RECEIVE_FRAME_WRITE. -/
def internalAccepts (p : Nat) (c : Copy) (s : State) : Bool :=
  copyReady c s &&
    (if p < 196 then
      !inReset p s && (((jframe c.frame s).bind fun f => f.msg).isSome || takesFrames (p - 132) s)
     else decide (p = 197) && !inReset 207 s || decide (p = 199))

/-- An internal port's choice: strict class order (R238). -/
def selectInternal (p : Nat) : Nat → State → State
  | 0, s => s
  | n + 1, s =>
    if (handed p s).isSome then s
    else
      match ((List.range 8).reverse.filterMap fun c => (jqueue p c s).head?).find? fun c => internalAccepts p c s with
      | none => s
      | some c =>
        if overAge c s then
          selectInternal p n (countAged c (releaseRef c.frame (setJqueue p c.cls (jqueue p c.cls s).tail s)))
        else setHanded p (some c) (takeCopy c s)

/-- The buffer's answer for a copy that has just been handed over (R228): a correctable error is counted, an uncorrectable
one takes the copy, and the frame's others that have not started. -/
def handedAnswer (p : Nat) (x : CellAnswer) (s : State) : State :=
  match handed p s with
  | none => s
  | some c =>
    if x.ans = .uncorrectable then bufferEcc p (if c.te.isSome then x.cell else 0) c s
    else onlyIf (decide (x.ans = .corrected)) (bump JCT_CNT_ECC 0 31 16) s

/-- The frame that the receive queues of switch port 196 take next is read in the queue (R228). -/
def queuedAnswer (x : CellAnswer) (s : State) : State :=
  match ((List.range 8).reverse.filterMap fun c => (jqueue 196 c s).head?).find? fun c => copyReady c s with
  | none => s
  | some c =>
    if x.ans = .uncorrectable then bufferEcc 196 0 c (setHanded 196 (some c) (takeCopy c s))
    else onlyIf (decide (x.ans = .corrected)) (bump JCT_CNT_ECC 0 31 16) s

/-- TURNPIKE_SELECT (R228, R238, R240): the choice of a port. On an edge on which the schedule of the port changes it waits
for the change (R259). -/
def turnpikeSelect (p : Nat) (x : CellAnswer) (s : State) : State :=
  let given (t : State) : State := if (handed p s).isNone then handedAnswer p x t else t
  if p < 132 then (if scheduleDue p s then s else given (selectExternal p s))
  else if p = 196 then queuedAnswer x s
  else if p = 198 then s
  else given (selectInternal p (portCopies p s + 1) s)
def execTurnpikeSelect (read : PortRead) (s : State) : Out := .next (turnpikeSelect read.port read.ans s)

/-! ### The end of a cut-through frame (R223, R233, R241, R245, R270) -/

/-- More bytes than a frame has. -/
abbrev allBytes : Nat := 65536

/-- Copies of a frame that are suspended. -/
def suspendedOf (id : Nat) (s : State) : List Copy :=
  ((List.range 132).filterMap fun p => suspended p s).filter fun c => decide (c.frame = id)

/-- A copy that its MAC or internal unit holds ends: one on the line under R201. -/
def endOnLine (c : Copy) (s : State) : State :=
  endHanded c.port (onlyIf (decide (c.port < 132) && c.te.isSome) (stompLine c.port allBytes c) s)

/-- A suspended remainder ends with the inverted mCRC (R201). -/
def endRemainder (c : Copy) (s : State) : State := endSuspended c.port (stompLine c.port c.sent c s)

/-- End the copies on the line, drop the others (R201, R233, R282). -/
def killCopies (id : Nat) (s : State) : State :=
  dropUnstarted id (fun _ s => s) (forEach (suspendedOf id s) endRemainder (forEach (handedOf id s) endOnLine s))

/-- Correct the cells charged to a copy to the true length (R223). -/
def trueCharge (f : JFrame) (c : Copy) : Copy :=
  let n := cellsOf (chargedLen f c.trunc c.tag)
  let g := min c.guar n
  { c with guar := g, pool := min c.pool (n - g) }

/-- The shapers that a copy was charged to (R241). -/
def chargedShapers (c : Copy) : List Shaper :=
  ((shapersOf c).zip [c.shaped.getLsbD 0, c.shaped.getLsbD 1, c.shaped.getLsbD 2]).filterMap fun x =>
    if x.2 then some x.1 else none

/-- Give back to a copy's shapers and deficits what it was charged above its true length (R241). A shaper that holds no
copy keeps no credit (R242), a member that holds none keeps no deficit (R241), and a shaper disabled since then stays at 0. -/
def giveBack (f : JFrame) (c : Copy) (s : State) : State :=
  let p := c.port
  let n : Int := (c.charged : Int) - copyLen c f s
  let s := forEach ((chargedShapers c).filter fun b => b.enabled s)
    (fun b s =>
      let v := b.credit s + n * 2 ^ 20
      b.setCredit (if b.active s then v else min v 0) s) s
  let sub := (p * 8 + c.cls) * 4097 + c.sub
  let t := s.tpk
  let t := if (jqueue p c.cls s).any fun x => decide (x.sub = c.sub) then
    { t with subDeficit := sset 0 sub (((sget 0 sub t.subDeficit : Nat) : Int) + n).toNat t.subDeficit } else t
  let t := if c.weighed ∧ ¬ (jqueue p c.cls s).isEmpty then
    let k := p * 8 + c.cls
    { t with classDeficit := sset 0 k (((sget 0 k t.classDeficit : Nat) : Int) + n).toNat t.classDeficit } else t
  { s with tpk := t }

/-- Give back for the copy on a port's line and for its suspended remainder. -/
def giveBackPort (f : JFrame) (p : Nat) (s : State) : State :=
  let due (c : Copy) : Bool := decide (c.frame = f.id ∧ c.charged ≠ 0)
  let s := match (handed p s).filter due with
    | some c => setHanded p (some { c with charged := 0 }) (giveBack f c s)
    | none => s
  match (suspended p s).filter due with
  | some c => setSuspended p (some { c with charged := 0 }) (giveBack f c s)
  | none => s

/-- The frame is whole: lengths, cells, Toll and shapers are corrected; `length` is what R208 counts, `received` what the
Toll metered. -/
def completeFrame (f : JFrame) (length received : Nat) (s : State) : State :=
  let f' := { f with length := length, cutting := false }
  let cells := cellsOf (chargedLen f' 0 f.stream.isSome)
  let s := setJframe { f' with cells := cells, fromGuar := min f.fromGuar cells } s
  let s := match f.toll with
    | some i => tollGiveBack i (maxLen f.src s - received) (if f.yellow then .yellow else .green) s
    | none => s
  let s := forEach (queueKeys s)
    (fun k s => setJqueue k.1 k.2 ((jqueue k.1 k.2 s).map fun c => if c.frame = f.id then trueCharge f' c else c) s) s
  forEach (List.range 132) (giveBackPort f') s

/-- The verdict on a cut-through frame that its lookup could not reach (R282), on what arrived of it before its FCS. DESIGN
CHOICE: it acts with the last byte of the frame. -/
def cutVerdict (f : JFrame) (s : State) : State × Bool :=
  match f.check with
  | none => (s, true)
  | some ctx =>
    let r := if inReset 206 s then (bump CHK_GLB_DROP 0 31 0 s, false)
      else chkVerdict ctx ((f.bytes.take (f.length - 4)).drop (dataBase f.bytes)) s
    (onlyIf (!r.2) (failPoints ctx) r.1, r.2)

/-- Copies not yet started whose R-TAG makes the frame, its length now known, too long for their trunk (R267). -/
def dropOversizeTags (f : JFrame) (s : State) : State :=
  forEach ((copiesOf f.id s).filter fun c => c.tag && tagOversize f c.port s)
    (fun c s => countOversize f (dropQueued c.port c.cls (fun x => x = c) s)) s

/-- A sequence that recovery passed proves bad (R270). -/
def revertPassed (r : Option (Nat × BitVec 16)) (s : State) : State :=
  match r with
  | some (n, q) => revertSeq n q s
  | none => s

/-- A frame of which no copy is left leaves the buffer. -/
def reapFrame (id : Nat) (s : State) : State :=
  match jframe id s with
  | some f => if f.refs = 0 then releaseRef id s else s
  | none => s

/-- What becomes of a frame whole in the buffer: a verdict that discards ends it, and so does an end that its MAC found bad,
which alone counts as a bad cut-through frame (R233, R282). -/
def settleCut (f : JFrame) (good : Bool) (s : State) : State :=
  let v := cutVerdict f s
  if ¬ v.2 then killCopies f.id v.1
  else if good then dropOversizeTags f v.1
  else killCopies f.id (setCause JCT_CAUSE 0 8 (bump JCT_CNT_CT 0 15 0 v.1))

/-- The end of a frame that was held while it arrived (R218, R223, R233, R241, R245, R269, R270, R282): `length` counts the
FCS, `good` is what its MAC found. -/
def endCut (id length : Nat) (good : Bool) (s : State) : State :=
  match jframe id s with
  | none => s
  | some f =>
    let counted := if f.stripped then length - 6 else length
    let s := completeFrame f counted length s
    let s := match f.rule with
      | some (i, v) => countRule i v s
      | none => s
    let s := settleCut { f with length := counted, cutting := false } good s
    reapFrame id (onlyIf (!good) (revertPassed f.recovered) s)

/-- The counter of a frame's end at its MAC (R192); none when it is good. -/
def endError (p : Nat) (good : Bool) (length : Nat) (s : State) : Option Nat :=
  if length < 64 then some 14 else if maxLen p s < length then some 15 else if good then none else some 12

/-- A good frame whose lookup was made while it arrived, and which waited for its end, goes on to stages 5 to 9 (R210); one
that elimination has not dropped is discarded during a reset of Junction (R234). -/
def passArrived (p : Nat) (k : Looked) (s : State) : State :=
  if inReset 196 s ∧ ¬ k.eliminated then resetDrop s else (lookFinish p false k s).1

/-- FRAME_LAST_BYTE (R192, R202, R210, R223, R233, R282): the end of the frame whose lookup was made while it arrived;
`length` counts the FCS. -/
def frameLastByte (p : Nat) (x : FrameEnd) (length : Nat) (s : State) : State :=
  match (macRun p s).arriving with
  | none => s
  | some a =>
    let s := onlyIf x.symbolErr (macBump 13 p) (setArriving p none s)
    let err := endError p x.good length s
    let s := match err with
      | some i => macBump i p s
      | none => macGood 0 p length (dstAddr a.looked.bytes) s
    match a.frame with
    | some id => endCut id length err.isNone s
    | none =>
      if err.isNone then passArrived p a.looked s
      else revertPassed a.looked.recovered (giveBackEarly p a.looked length s)
def execFrameLastByte (port : ExtPort) (good : FrameEnd) (length : Nat) (s : State) : Out :=
  .next (frameLastByte port good length s)

/-- The frame that a port's MAC is receiving is cut off: what Junction holds of it ends as bad (R204, R233). -/
def arrivalLost (p : Nat) (s : State) : State :=
  match (macRun p s).arriving with
  | none => s
  | some a =>
    let s := setArriving p none s
    match a.frame with
    | some id => endCut id (a.looked.bytes.length + 4) false s
    | none => revertPassed a.looked.recovered (giveBackEarly p a.looked (a.looked.bytes.length + 4) s)

/-! ### The subscriber map (R239) -/

/-- A write of TPK_MAP_CMD on a path: with go it reads or writes an entry. -/
def mapCmdWrite (path : Nat) (value : Word) (s : State) : State :=
  if ¬ writable path TPK_MAP_CMD 0 s then s
  else
    let s := setRg TPK_MAP_CMD path (value &&& 0x40FF00FF) s
    if ¬ bit value 31 then s
    else
      let e := fld value 23 16
      let i := fld value 7 0
      if 132 ≤ e ∨ 200 ≤ i then setRg TPK_MAP_STAT path 2 s
      else if ¬ bit value 30 then
        let v := sget 0 (e * 200 + i) s.tpk.map
        setRg TPK_MAP_STAT path 0 (setRg TPK_MAP_DATA path (w32 (fld v 12 12 * 2 ^ 31 + fld v 11 0)) s)
      else
        let d := rg TPK_MAP_DATA path s
        if bit d 31 ∧ rgF TPK_SUB_CFG (fld d 11 0) 7 0 s ≠ e then
          setCause TPK_CAUSE 0 7 (setRg TPK_MAP_STAT path 4 s)
        else
          let v := BitVec.ofNat 13 (fld d 31 31 * 4096 + fld d 11 0)
          setRg TPK_MAP_STAT path 0 { s with tpk := { s.tpk with map := sset 0 (e * 200 + i) v s.tpk.map } }

/-- TPK_MAP_READ (R239). -/
def execTpkMapRead (path : Path) (value : Word) (s : State) : Out := .next (mapCmdWrite path value s)
/-- TPK_MAP_WRITE (R239). -/
def execTpkMapWrite (path : Path) (value : Word) (s : State) : Out := .next (mapCmdWrite path value s)

end Sys2Proof.Machine
end

