-- ==== Sys2Proof/Machine/Queues.lean ====
section
/-! DEFINITION. Work-queue commands: doorbells, enabling, invalidation, and entries of kinds 0 to 2 (R290-R307). -/

set_option Elab.async false

namespace Sys2Proof.Machine

open Sys2Proof

/-! ### Doorbells, enabling, shutdown, invalidation -/

/-- QMG_DOORBELL (R290). -/
def execQmgDoorbell (queue : Fin 1024) (ans : MemAnswer) (s : State) : Out :=
  .next (doorbellOp queue (edgeNow s) ans s).1

/-- Fields of QMG_Q_CFG that a write may set: kind and ring sizes only while the queue is disabled (R291). -/
def qcfgFields (value old : Word) (enabled : Bool) : Word :=
  let always : Word := 0x27000300
  let idle : Word := 0x003FFC00
  if enabled then (value &&& always) ||| (old &&& ~~~always) else (value &&& (always ||| idle)) ||| (old &&& ~~~(always ||| idle))

/-- A write of QMG_Q_CFG (R291, R305, R306). -/
def qcfgWrite (q : Nat) (value : Word) (ans : MemAnswer) (s : State) : State :=
  let on := bit (rg QMG_Q_CFG q s) 31
  let s := setRg QMG_Q_CFG q (qcfgFields value (rg QMG_Q_CFG q s) on) s
  if on then (if bit value 30 ∨ ¬ bit value 31 then shutdownOp q { index := ans } s else s)
  else if bit value 31 ∧ qState q s ≠ qShutting then startQueue q ans (setRgF QMG_Q_CFG q 31 31 1 s)
  else s

/-- QUEUE_ENABLE (R291). -/
def queueEnable (path : Nat) (value : Word) (ans : MemAnswer) (s : State) : State :=
  atInst path QMG_Q_CFG (fun q s => qcfgWrite q value ans s) s
def execQueueEnable (path : Path) (value : Word) (ans : MemAnswer) (s : State) : Out :=
  .next (queueEnable path value ans s)

/-- QUEUE_SHUTDOWN (R305). -/
def queueShutdown (q : Nat) (x : QueueAnswers) (s : State) : State :=
  if inReset 205 s then s else shutdownOp q x s
def execQueueShutdown (queue : Fin 1024) (ans : QueueAnswers) (s : State) : Out := .next (queueShutdown queue ans s)

/-- A write of QMG_INVAL (R292): with go, the prefetched copies in the range are discarded. -/
def invalWrite (path : Nat) (value : Word) (s : State) : State :=
  if ¬ writable path QMG_INVAL 0 s then s
  else
    let s := setRg QMG_INVAL path (value &&& 0x07FFFFFF) s
    if ¬ bit value 31 then s
    else
      let q := fld value 9 0
      let n := if fld value 26 10 = 0 then 65536 else fld value 26 10
      let first := rg QMG_INVAL_FIRST path s
      let r := queueRun q s
      let s := setQueueRun q { r with prefetch := sfilter (fun i => decide (n ≤ sub32 (w32 i) first)) r.prefetch } s
      setRg QMG_INVAL_DONE path 1 (setRg QMG_INVAL_STAT path r.next s)

/-- QMG_INVAL_GO (R292). -/
def execQmgInvalGo (path : Path) (value : Word) (s : State) : Out := .next (invalWrite path value s)

/-- A queue may still write held completions (R302): it is enabled, and neither its completion ring nor its index block has
failed (R304). -/
def mayDrain (q : Nat) (s : State) : Bool := qState q s != qDisabled && !(queueRun q s).mute

/-- CRING_POLL (R302): ccons is read while the completion ring is full. -/
def cringPoll (q : Nat) (x : QueueAnswers) (s : State) : State :=
  let a := qIndex q s
  let r := queueRun q s
  if inReset 205 s ∨ (¬ cringFull q s ∧ r.holding.isEmpty) ∨ ¬ mayDrain q s then s
  else
    let s := noteAccess a x.index s
    let c := w32 (rdLe (a + 12) 4 s)
    if ¬ memGood (answer a x.index s) then ringFault q 7 r.next s
    else if qCsize q s < (r.cprod - c).toNat then
      (if qState q s = qRunning ∨ qState q s = qHolding then qStop q 1 c s else s)
    else settleQueue q x (setQueueRun q { r with ccons := c } s)
def execCringPoll (queue : Fin 1024) (ans : QueueAnswers) (s : State) : Out := .next (cringPoll queue ans s)

/-! ### Turns (R293) -/

/-- The enabled receive queue of a class, the lowest number. -/
def receiveQueue (c : Nat) (s : State) : Option Nat :=
  (skeys s.queues).find? fun q => decide (qKind q s = 1) && decide (rgF QMG_Q_CFG q 26 24 s = c) && decide (qState q s ≠ qDisabled)

/-- The frame that a queue of switch port 196 offers, over-age heads dropped. -/
def headFrame (c : Nat) (s : State) : Option (Copy × JFrame) :=
  match (jqueue 196 c s).head? with
  | some x => (jframe x.frame s).bind fun f => if f.cutting then none else some (x, f)
  | none => none

/-- A class of switch port 196 has a frame that its receive queue can take. -/
def receiveReady (c : Nat) (s : State) : Bool :=
  (headFrame c s).isSome && !inReset 205 s &&
    (receiveQueue c s).any fun q =>
      let r := queueRun q s
      qState q s == qRunning && r.prod != r.next && !cringFull q s && r.holding.isEmpty

/-- In step mode the entries that wait for dispatch, with the completions that are held, fill the completion ring and the
holding area: no further one begins, so that no completion is lost (R302, R307). -/
def dispatchFull (q : Nat) (s : State) : Bool :=
  let r := queueRun q s
  stepMode s && decide (qKind q s = 2)
    && decide (qCsize q s + 16 ≤ (r.cprod - r.ccons).toNat + r.holding.length + r.dispatch.length)

/-- A queue is active (R293): running, with unprocessed entries and room for completions; a receive queue while a frame of its
class can be written. -/
def qActive (q : Nat) (s : State) : Bool :=
  let r := queueRun q s
  decide (qState q s = qRunning) && decide (r.prod ≠ r.next) && !cringFull q s && r.holding.isEmpty && !dispatchFull q s
    && (decide (qKind q s ≠ 1) ||
      (match (List.range 8).reverse.find? fun c => receiveReady c s with
        | some c => receiveQueue c s == some q
        | none => false))

/-- The queue whose turn it is in the weighted round robin (R293): the one being visited while entries or visits of its turn
are left, else the next active one. DESIGN CHOICE: the visits of a queue in a round follow one another. -/
def wrrTurn (s : State) : Option Nat :=
  if (0 < s.wrrLeft ∨ 0 < s.wrrVisits) ∧ qActive s.wrrCur s then some s.wrrCur
  else
    let ks := (skeys s.queues).filter fun q => qActive q s
    match ks.find? fun q => decide (s.wrrCur < q) with
    | some q => some q
    | none => ks.head?

/-- Charge the turn of a queue for `n` entries: weight visits of up to burst entries (R293). -/
def wrrCharge (q n : Nat) (s : State) : State :=
  let b := max 1 (min 64 (rgF QMG_Q_SCHED q 6 0 s))
  if s.wrrCur = q ∧ 0 < s.wrrLeft then { s with wrrLeft := s.wrrLeft - n }
  else if s.wrrCur = q ∧ 0 < s.wrrVisits then { s with wrrVisits := s.wrrVisits - 1, wrrLeft := b - n }
  else { s with wrrCur := q, wrrVisits := max 1 (rgF QMG_Q_SCHED q 15 8 s) - 1, wrrLeft := b - n }

/-- An entry of a queue of a kind may begin: out of reset, in its turn, with room in the completion ring (R293, R302). -/
def beginEntry (q kind : Nat) (s : State) : Bool :=
  !inReset 205 s && decide (qKind q s = kind) && decide (wrrTurn s = some q)

/-! ### Beginning an entry -/

/-- All bytes in a range are 0. -/
def zeroAt (e : Bytes) (off len : Nat) : Bool := decide (leAt e off len = 0)

/-- Read the entry to process next (R292, R303, R304). A ring outside accessible memory stops the queue; one that does not
answer also completes the entry. -/
def readEntry (q : Nat) (x : QueueAnswers) (f : Bytes → State → State) (s : State) : State :=
  let i := (queueRun q s).next
  let a := qSlot q i s
  match entryError q (x.ring.headD .ok) s with
  | 0 => f (qEntry q s) (if qFetched q s then s else noteAccess a (x.ring.headD .ok) s)
  | 5 => qStop q 5 i s
  | k => failEntry q x k (unreadEntry s) (drawCookie (noteAccess a (x.ring.headD .ok) s))

/-- Begin the next entry of a queue of a kind (R293, R302): nothing happens out of turn, and a full completion ring sets
its cause. -/
def withEntry (q kind : Nat) (x : QueueAnswers) (f : Bytes → State → State) (s : State) : State :=
  let r := queueRun q s
  if inReset 205 s ∨ qKind q s ≠ kind ∨ qState q s ≠ qRunning ∨ r.prod = r.next then s
  else if cringFull q s ∨ ¬ r.holding.isEmpty then setCause QMG_Q_CAUSE q 2 s
  else if beginEntry q kind s then readEntry q x f (wrrCharge q 1 s)
  else s

/-- An entry completes REFUSED (R298). -/
def refuseEntry (q : Nat) (x : QueueAnswers) (e : Bytes) (s : State) : State :=
  finishEntry q x 5 0 e (setCause QMG_Q_CAUSE q 4 (bump QMG_Q_CNT_DROP q 15 0 s))

/-! ### Transmit entries (R294, R295) -/

/-- Pieces of a scatter chain of at most `fuel` links, or the error code: 2 a byte that must be 0, 3 an empty link, 4 no
last link, 5 a link outside accessible memory, 7 one that memory does not serve. -/
def chainPieces (a : Nat) (s : State) : Nat → List MemAnswer → Except Nat (List (Nat × Nat))
  | 0, _ => .error 4
  | n + 1, xs =>
    if ringError a 16 (xs.headD .ok) s ≠ 0 then .error (ringError a 16 (xs.headD .ok) s)
    else
      let l := rdBytes a 16 s
      let piece := (leAt l 0 5, leAt l 8 2)
      if ¬ zeroAt l 5 3 ∨ ¬ zeroAt l 12 4 ∨ 2 ≤ leAt l 10 2 then .error 2
      else if piece.2 = 0 then .error 3
      else if leAt l 10 2 = 1 then .ok [piece]
      else
        match chainPieces (a + 16) s n xs.tail with
        | .ok t => .ok (piece :: t)
        | .error k => .error k

/-- How many links of a chain are read. -/
def linksRead (a : Nat) (s : State) : Nat → List MemAnswer → Nat
  | 0, _ => 0
  | n + 1, xs =>
    if ringError a 16 (xs.headD .ok) s = 5 then 0
    else if ringError a 16 (xs.headD .ok) s ≠ 0 then 1
    else
      let l := rdBytes a 16 s
      if leAt l 10 2 ≠ 0 ∨ ¬ zeroAt l 5 3 ∨ ¬ zeroAt l 12 4 ∨ leAt l 8 2 = 0 then 1 else 1 + linksRead (a + 16) s n xs.tail

/-- A transmit entry uses a chain (R294). -/
def usesChain (e : Bytes) : Bool := bit (BitVec.ofNat 8 (leAt e 11 1)) 4

/-- Pieces of a transmit frame, or the error code of a malformed entry (R294, R303). -/
def transmitPieces (e : Bytes) (xs : List MemAnswer) (s : State) : Except Nat (List (Nat × Nat)) :=
  let addr := leAt e 0 5
  let len := leAt e 8 2
  let port := leAt e 10 1
  let flags := BitVec.ofNat 8 (leAt e 11 1)
  let top := if port < 132 then maxLen port s - 4 else 2032
  if ¬ zeroAt e 5 3 ∨ fld flags 7 6 ≠ 0 ∨ (¬ bit flags 3 ∧ ¬ zeroAt e 12 4) ∨ ¬ zeroAt e 24 8 then .error 2
  else if len < 60 ∨ (port < 196 ∧ top < len) then .error 3
  else
    match (if usesChain e then chainPieces addr s 64 xs else .ok [(addr, len)]) with
    | .error k => .error k
    | .ok ps =>
      if ps.foldl (fun n p => n + p.2) 0 ≠ len then .error 4
      else if ps.any fun p => !canReach .unit false p.1 p.2 s then .error 5
      else if 196 ≤ port then .error 6
      else .ok ps

/-- What a list of accesses records of its answers, up to the first that memory does not serve. -/
def noteAll : List Nat → List MemAnswer → State → State
  | [], _, s => s
  | a :: t, xs, s =>
    if memGood (answer a (xs.headD .ok) s) then noteAll t xs.tail (noteAccess a (xs.headD .ok) s)
    else noteAccess a (xs.headD .ok) s

/-- Whether memory serves a list of accesses. -/
def servesAll : List Nat → List MemAnswer → State → Bool
  | [], _, _ => true
  | a :: t, xs, s => memGood (answer a (xs.headD .ok) s) && servesAll t xs.tail s

/-- The frame of a good transmit entry (R294, R295). -/
def transmitFrame (e : Bytes) (ps : List (Nat × Nat)) (s : State) : JFrame :=
  let flags := BitVec.ofNat 8 (leAt e 11 1)
  { newFrame (ps.flatMap fun p => rdBytes p.1 p.2 s) 196 (fld flags 2 0) s with
    oneStep := if bit flags 3 then some (w32 (leAt e 12 4)) else none }

/-- TRANSMIT_ENTRY (R294, R295, R304). -/
def transmitEntry (q : Nat) (x : QueueAnswers) (s : State) : State :=
  withEntry q 0 x (fun e s =>
    let n := if usesChain e then linksRead (leAt e 0 5) s 64 x.data else 0
    let pieces := transmitPieces e x.data s
    let s := noteAll ((List.range n).map fun k => leAt e 0 5 + 16 * k) x.data s
    match pieces with
    | .error k => failEntry q x k e s
    | .ok ps =>
      let xs := x.data.drop n
      let s := noteAll (ps.map fun p => p.1) xs s
      if ¬ servesAll (ps.map fun p => p.1) xs s then failEntry q x 7 e s
      else
        let r := internalOffer (transmitFrame e ps s) (leAt e 10 1) s
        if r.2 then finishEntry q x 0 0 e r.1 else refuseEntry q x e r.1) s
def execTransmitEntry (queue : Fin 1024) (ans : QueueAnswers) (s : State) : Out := .next (transmitEntry queue ans s)

/-! ### Receive postings (R296, R297, R301) -/

/-- The longest buffer (QMG_Q_BUF). -/
def bufMax (q : Nat) (s : State) : Nat := max 64 (min 16384 (rgF QMG_Q_BUF q 15 0 s))

/-- The error code of a posting; 0 for none (R296, R303). -/
def postingError (q : Nat) (e : Bytes) (s : State) : Nat :=
  let len := leAt e 8 2
  if ¬ zeroAt e 5 3 ∨ ¬ zeroAt e 10 6 ∨ ¬ zeroAt e 24 8 then 2
  else if len = 0 ∨ bufMax q s < len then 3
  else if leAt e 0 5 % 16 ≠ 0 ∨ ¬ canReach .unit true (leAt e 0 5) len s then 5
  else 0

/-- How the writing of a frame ended: bytes left over, buffers used, the last one's entry, and the error code of the posting
that failed with its entry, none where the ring cannot be reached. -/
structure FillResult where
  st : State
  left : Bytes
  used : Nat
  last : Bytes
  bad : Nat
  badEntry : Option Bytes

/-- Fill buffers in posting order (R296, R303, R304). -/
def fillBuffers (q : Nat) : Nat → QueueAnswers → Bytes → Nat → Bytes → State → FillResult
  | 0, _, b, n, l, s => ⟨s, b, n, l, 0, none⟩
  | fuel + 1, x, b, n, l, s =>
    let r := queueRun q s
    if b.isEmpty ∨ r.prod = r.next then ⟨s, b, n, l, 0, none⟩
    else
      let a := qSlot q r.next s
      let y := if qFetched q s then x else { x with ring := x.ring.tail }
      let k := entryError q (x.ring.headD .ok) s
      let s := if qFetched q s then s else noteAccess a (x.ring.headD .ok) s
      if k = 5 then ⟨s, b, n, l, k, none⟩
      else if k ≠ 0 then ⟨drawCookie s, b, n, l, k, some (unreadEntry s)⟩
      else
        let e := qEntry q s
        let k := postingError q e s
        let s := if k = 0 then noteAccess (leAt e 0 5) (x.data.headD .ok) s else s
        if k ≠ 0 then ⟨s, b, n, l, k, some e⟩
        else if ¬ memGood (answer (leAt e 0 5) (x.data.headD .ok) s) then ⟨s, b, n, l, 7, some e⟩
        else
          let len := leAt e 8 2
          fillBuffers q fuel { y with data := y.data.tail } (b.drop len) (n + 1) e
            (qAdvance q (wrBytes (leAt e 0 5) (b.take len) s))

/-- The completion of a frame that used n buffers (R300, R301). -/
def receiveCompletion (q : Nat) (x : QueueAnswers) (n status written : Nat) (f : JFrame) (cls : Nat) (e : Bytes) (s : State) :
    State :=
  let i := (queueRun q s).next
  let c : Completion :=
    { bytes := completionBytes (i - 1) n status f.ts.toNat written f.src cls (slice e 16 8) (now s), cons := i }
  addRgF QMG_Q_CNT q 31 0 n (postCompletion q x c s)

/-- What the buffers do with a frame that they have been filled with: it completes, or its buffers end or fail before it does
(R297, R303, R304); a frame of which none was written leaves no completion of its own. -/
def receiveOutcome (q : Nat) (x : QueueAnswers) (f : JFrame) (cls total : Nat) (w : FillResult) : State :=
  let s := { w.st with wrrLeft := if w.st.wrrCur = q then w.st.wrrLeft - (w.used - 1) else w.st.wrrLeft }
  if w.left.isEmpty then receiveCompletion q x w.used 0 total f cls w.last s
  else
    let s :=
      if w.used = 0 then s
      else receiveCompletion q x w.used 2 (total - w.left.length) f cls w.last
        (setCause QMG_Q_CAUSE q 3 (bump QMG_Q_CNT_DROP q 31 16 s))
    if w.bad = 0 then s
    else
      match w.badEntry with
      | some e => failEntry q x w.bad e s
      | none => qStop q w.bad (queueRun q s).next s

/-- RECEIVE_FRAME_WRITE (R224, R238, R293, R296, R297, R301, R304): strict class order, so no frame is written while a higher
class can be served. A posting that is malformed leaves the frame in Junction. -/
def receiveFrameWrite (c : Nat) (x : QueueAnswers) (s : State) : State :=
  let s := forEach ((List.range 8).filter fun k => decide (c ≤ k)) (fun k s => sweepQueue 196 k (jqueue 196 k s).length s) s
  match receiveQueue c s, headFrame c s with
  | some q, some (y, f) =>
    withEntry q 1 x (fun e s =>
      let k := postingError q e s
      if k ≠ 0 then failEntry q x k e s
      else
        let z := if qFetched q s then x else { x with ring := x.ring.tail }
        let s := setQueueRun q { queueRun q s with prefetch := sset [] (queueRun q s).next.toNat e (queueRun q s).prefetch } s
        let b := if y.trunc ≠ 0 then f.bytes.take y.trunc else f.bytes
        receiveOutcome q z f c b.length (fillBuffers q (qSize q s) z b 0 [] (releaseRef f.id (takeCopy y s)))) s
  | _, _ => s
def execReceiveFrameWrite (cls : Fin 8) (ans : QueueAnswers) (s : State) : Out := .next (receiveFrameWrite cls ans s)

/-! ### A reset of the queue manager (R308) -/

/-- A frame whose copying a reset cuts off is dropped and counted. Whether one is being copied, from the entry whose turn it is,
is a free value; of a frame that goes to receive buffers a part may have been written. -/
def dropCopies (s : State) : State :=
  let count : State → State := bump QMG_CNT_DB 0 31 16
  match wrrTurn s with
  | none => s
  | some q =>
    let cut := Config.copyUnderWay s.draws
    let n := Config.copiedBytes s.draws
    let s := { s with draws := s.draws + 1 }
    if qKind q s = 0 then onlyIf cut count s
    else if qKind q s = 1 then
      match (List.range 8).reverse.find? fun c => receiveReady c s with
      | none => s
      | some c =>
        match headFrame c s with
        | some (y, f) =>
          if ¬ cut then s
          else
            let b := (if y.trunc ≠ 0 then f.bytes.take y.trunc else f.bytes).take n
            count (fillBuffers q (qSize q s) {} b 0 [] (releaseRef f.id (takeCopy y s))).st
        | none => s
    else s

/-- The queue manager: nothing of its queues survives. -/
def clearQueues (s : State) : State :=
  { dropCopies s with queues := [], wrrCur := 1023, wrrLeft := 0, wrrVisits := 0 }

/-! ### Lane jobs (R298, R307) -/

/-- The error code of a lane-job entry; 0 for none. -/
def jobEntryError (e : Bytes) : Nat :=
  if ¬ zeroAt e 4 7 ∨ leAt e 11 1 &&& 0xDF ≠ 0 ∨ ¬ zeroAt e 12 4 then 2
  else if 512 ≤ leAt e 0 2 ∨ 32768 ≤ leAt e 2 2 then 6
  else 0

/-- The job of an entry. -/
def entryJob (e : Bytes) (time : Word) : Job :=
  { code := BitVec.ofNat 15 (leAt e 2 2), source := 2, time := time,
    args := (List.range 4).map fun i => w32 (leAt e (16 + 4 * i) 4) }

/-- Start the job of an entry: whether it started, and the value of its completion (R300). -/
def startEntryJob (e : Bytes) (time : Word) (s : State) : State × Bool × Nat :=
  let slot := leAt e 0 2
  let cur := rg MST_PLC_CUR slot s
  let seq := (slotRun slot s).seq.toNat
  let l := (targetLane (bit cur 10) (fld cur 9 0) s).getD 0
  let r := startJob slot (entryJob e time) s
  (r.1, r.2, seq + l * 2 ^ 16)

/-- LANE_JOB_ENTRY (R298, R307): in step mode the entry becomes an input, and completes when its start is dispatched. -/
def laneJobEntry (q : Nat) (x : QueueAnswers) (s : State) : State :=
  withEntry q 2 x (fun e s =>
    let k := jobEntryError e
    if k ≠ 0 then failEntry q x k e s
    else if stepMode s then
      let seq := s.twn.inputSeq
      let s := captureInput inputJob e (qAdvance q s)
      setQueueRun q { queueRun q s with dispatch := (queueRun q s).dispatch ++ [(seq, e)] } s
    else
      let r := startEntryJob e (now s) s
      if r.2.1 then finishEntry q x 0 r.2.2 e r.1 else refuseEntry q x e r.1) s
def execLaneJobEntry (queue : Fin 1024) (ans : QueueAnswers) (s : State) : Out := .next (laneJobEntry queue ans s)

/-- The entry that failed behind those that waited for dispatch completes after the last of them (R303). -/
def completeFailed (q : Nat) (s : State) : State :=
  let r := queueRun q s
  match r.failed with
  | some (status, e, t) =>
    if r.dispatch.isEmpty then completeEntry q {} r.next status 0 e t (setQueueRun q { r with failed := none } s) else s
  | none => s

/-- A lane-job entry is dispatched at a step (R307): its own completion follows, where this unit processed it. -/
def dispatchEntry (own : Bool) (seq : Word) (e : Bytes) (s : State) : State :=
  let t := s.stp.tb
  let r := startEntryJob e t s
  let s := r.1
  match (if own then (skeys s.queues).find? fun q => (queueRun q s).dispatch.any fun x => x.1 = seq else none) with
  | none => s
  | some q =>
    let u := queueRun q s
    let upto := u.next - w32 (u.dispatch.length - 1 + b2n u.failed.isSome)
    let s := setQueueRun q { u with dispatch := u.dispatch.filter fun x => x.1 ≠ seq } s
    let s :=
      if r.2.1 then completeEntry q {} upto 0 r.2.2 e t s
      else completeEntry q {} upto 5 0 e t (setCause QMG_Q_CAUSE q 4 (bump QMG_Q_CNT_DROP q 15 0 s))
    settleQueue q {} (completeFailed q s)

end Sys2Proof.Machine
end

