-- ==== Sys2Proof/Machine/Resets.lean ====
section
/-! DEFINITION. The start of function resets and of lane resets: what each unit stops, discards and clears
(R28, R106, R134, R135, R189, R204, R234, R260, R274, R284, R308, R319, R349, R372, R391, R410, R444-R449). -/

set_option Elab.async false

namespace Sys2Proof.Machine

open Sys2Proof

/-! ### Registers that a reset returns to the Reset column (R9) -/

/-- Bits of a register that only the image or the loader writes (R171, R236, R351, R374, R419). -/
def imageMask (r : Nat) : Word :=
  if r = ROA_CTRL then 8
  else if r = FPA_PORT_CFG then 0x1F
  else if r = JCT_BUF_CFG then 0x1FFFF
  else if r = JCT_GUAR then 0xFFFFFFFF
  else if r = JCT_DT then 0xFFFFFF
  else if r = TWN_CFG then 0xC0000000
  else if r = JNL_BASE_LO then 0xFFF00000
  else if r = JNL_BASE_HI then 0xFF
  else if r = JNL_C_LAYOUT then 0x7FFF7FFF
  else 0

/-- A register that holds only counts, causes and status. -/
def countReg (r : Nat) : Bool := !(regRow r).keep && decide ((regRow r).rw = 0) && imageMask r == 0

/-- Return the registers that satisfy `p` to the Reset column. -/
def dropRegs (p : Nat → Nat → Bool) (s : State) : State :=
  { s with regs := sfilter (fun k => !p (k / 2 ^ 24) (k % 2 ^ 24)) s.regs }

/-- Functions whose counts are zeroed when the reset begins; of the others all registers wait for its end (R189). -/
def zeroesAtStart (f : Nat) : Bool := decide (196 ≤ f ∧ f ≤ 210 ∧ f ≠ 199)

def zeroCounts (f : Nat) (s : State) : State := dropRegs (fun r i => ownerOf r i == f && countReg r) s

/-! ### Lanes and districts (R134, R135) -/

/-- Jobs in a lane's queue, in order. -/
def queuedJobsOf (l : Nat) (s : State) : List Job :=
  (lane l s).queue.filterMap fun e => match e with | .job j => some j | .marker .. => none

/-- A lane enters reset (R134): its job ends, the jobs of its queue are counted as refused and their buffers return, and
its inbox, step buffer and registers are cleared. The record of its last fault stays (R132). -/
def clearLane (l : Nat) (s : State) : State :=
  let s := freeBuffer l s
  let ln := lane l s
  let jobs := queuedJobsOf l s
  let s := addRgF LNC_LANE_CNT_DROP l 31 22 jobs.length s
  let s := setRgF LNC_DST_FAULTED (l / 16) (l % 16) (l % 16) 0 s
  let dr := district (l / 16) s
  let s := setDistrict (l / 16)
    { dr with sends := dr.sends.filter (fun x => x.lane ≠ l),
              buffers := dr.buffers.filter fun b => !jobs.any fun j => j.buffer == some b } s
  setLane l { inReset := true, msgSeq := ln.msgSeq, faultPc := ln.faultPc, halted := (district (l / 16) s).halted } s

/-- A district enters reset: all its lanes do, every buffer is free, and no halt remains. -/
def clearDistrict (d : Nat) (s : State) : State :=
  let s := forEach (lanesOf d) clearLane s
  let s := forEach (lanesOf d) (fun l s => setLane l { lane l s with halted := false } s) s
  setDistrict d { district d s with halted := false, buffers := [], frxPending := false, sends := [] } s

/-! ### Ports (R189, R204) -/

/-- The MAC of a port discards what is under way and forgets its pauses. -/
def clearMac (p : Nat) (s : State) : State :=
  let m := macRun p s
  let s := onlyIf m.reassembly.isSome (macBump 21 p) s
  let s := if m.arriving.isSome then macBump 21 p (arrivalLost p s) else s
  let s := lineLost p s
  let s := setMacRun p { rxq := (macRun p s).rxq } s
  restartVerify p s

/-- A field port enters reset. -/
def clearPort (p : Nat) (s : State) : State :=
  let s := abortVerge p .ok s
  let s := if receiving p s then macBump 21 p s else s
  let s := clearReception p s
  let s := setPortRun p { portRun p s with response := false, cycleStart := none, oppLeft := 0, oppEnd := none } s
  setLink p false (clearMac p s)

/-- A trunk enters reset. -/
def clearTrunk (t : Nat) (s : State) : State :=
  let s := setTs2 t [] (clearMac (128 + t) s)
  if bit (rg TRK_STAT t s) 0 then
    pulseSource (.port (128 + t) 1) (setCause TRK_CAUSE t 0 (setRgF TRK_STAT t 4 0 0 s))
  else s

/-! ### Junction and Turnpike (R234, R260) -/

/-- Junction discards every frame; a copy on the line and a suspended remainder are ended. The MAC of a frame that is still
arriving awaits its end. -/
def clearJunction (s : State) : State :=
  let held := s.jct.frames.length
  let stomp (p : Nat) (s : State) : State :=
    let s := match suspended p s with
      | some c => endRemainder c s
      | none => s
    match handed p s with
    | some c => endOnLine c s
    | none => s
  let s := forEach (List.range 200) stomp s
  let s := forEach (queueKeys s) (fun k => setJqueue k.1 k.2 []) s
  let forget (p : Nat) (s : State) : State :=
    match (macRun p s).arriving with
    | some a => if a.frame.isSome then setArriving p (some { looked := { a.looked with eliminated := true } }) s else s
    | none => s
  let s := forEach (List.range 132) forget s
  let waiting := (List.range 132).foldl (fun n p => n + (macRun p s).rxq.length) 0
  let s := forEach (List.range 132) (fun p s => setMacRun p { macRun p s with rxq := [] } s) s
  let s := { s with jct := { s.jct with frames := [], suspects := [], auditCell := 0, macSeen := [],
                                        macs := s.jct.macs.filter fun e => !(macValid e.2 && !macStatic e.2) } }
  let s := setRgF JCT_AUDIT 0 31 16 0 s
  if held + waiting = 0 then s else setCause JCT_CAUSE 0 10 (addRgF JCT_CNT_MISC 0 15 0 (held + waiting) s)

/-- Turnpike drops what is suspended or in fragments (R260), and its credits and deficits start anew. -/
def clearTurnpike (s : State) : State :=
  let count (c : Copy) (s : State) : State :=
    setCause TPK_CAUSE 0 6 (bump TPK_S_DROP (c.port * 8 + c.cls) 15 0 s)
  let abort (p : Nat) (s : State) : State :=
    let s := match suspended p s with
      | some c => endRemainder c (count c s)
      | none => s
    match handed p s with
    | some c => if 0 < c.sent then endOnLine c (count c s) else s
    | none => s
  let s := forEach (List.range 132) abort s
  { s with tpk := { s.tpk with portCredit := [], serviceCredit := [], subCredit := [], classDeficit := [],
                               subDeficit := [], classNext := [], subNext := [], preempting := [] } }

/-! ### Timebase, roads, milestones, front ends (R28, R75, R106, R445) -/

/-- The road unit: every road IDLE without a transition; the send sequence of each road goes on. -/
def clearRoads (s : State) : State :=
  let was := (List.range 64).filter fun n => (road n s).state == .tracking
  let s := forEach (List.range 64) (fun n s => setRoad n { sendSeq := (road n s).sendSeq } s) s
  forEach was (roadLeavesTracking .idle) { s with ingest := [], frozen := [] }

/-- The milestone unit forgets firings and pulses (R75). DESIGN CHOICE: the snapshot counts of R78 start anew. -/
def clearMilestones (s : State) : State :=
  { s with recRun := [], commits := [], pulses := [], lastServed := 63, fireEdge := 0, firedRoads := [], enableReturn := none,
           snapCount := [], snapAt := [], slots := [] }

def clearMains (s : State) : State := { s with trackers := [], mfeSeq := 0, mfeDiscard := 16, mfeStuck := 0 }

/-- Every DMA channel stops after the burst in flight (R319): what it has written by then stays. How much that is, is a free
value. -/
def clearDma (s : State) : State :=
  let stop (c : Nat) (s : State) : State :=
    dmaMove c (min (dmaCount c s) (Config.dmaWritten s.draws)) { s with draws := s.draws + 1 }
  { forEach ((List.range 72).filter fun c => dmaBusy c s) stop s with dmaHeld := [], dmaEdge := [] }

/-! ### Queues, journal, twin, hierarchy, Waypost (R308, R349, R372, R391, R410) -/

/-- The journal restarts empty; a path still waits for its frame that Junction holds. -/
def clearJournal (s : State) : State :=
  let n := s.jnl.intake.length
  let paths := (List.range 4).foldl
    (fun m p => sset ({} : DrainPath) p { sending := (drainPath p s).sending } m) ([] : Sparse DrainPath)
  let s := addRgF JNL_CNT_IN 0 31 0 n { s with jnl := { paths := paths } }
  setRg JNL_ALM_ACK 0 0 s

/-- The twin unit forgets its merge state, and host commands that wait for it go without an answer. It enters pairing when
the reset completes and suppresses from now on (R372); its next marker follows the step that runs. -/
def clearTwin (s : State) : State :=
  let s := { s with twn := { state := s.twn.state, lastMarker := s.stp.step },
                    stp := { s.stp with delivered := [], stalled := false } }
  let s := forEach (List.range 4) (fun i => setSession i { session i s with waiting := [] }) s
  setRgF TWN_STAT 0 23 15 0 s

/-- The hierarchy unit: relays are answered with code 1, deliveries abandoned, the manager forgotten. -/
def clearHierarchy (s : State) : State :=
  let s := failRelays (fun _ => true) 1 s
  let s := forEach ((List.range 64).filter fun n => roadKind n s = 5)
    (fun n s => setRoad n { road n s with lastSeq := none } s) s
  { s with hie := { nextTag := s.hie.nextTag, statusSeq := s.hie.statusSeq, lastRefused := s.hie.lastRefused } }

/-- A word from the random source that is neither 0 nor `cur` (R397, R399): every other word can come. -/
def drawWord (cur : Word) (s : State) : State × Word :=
  let w := (Config.freeWord s.draws).toNat
  let k := if cur = 0 then w % (2 ^ 32 - 1) + 1 else w % (2 ^ 32 - 2) + 1
  ({ s with draws := s.draws + 1 }, w32 (if cur = 0 ∨ k < cur.toNat then k else k + 1))

/-- The Waypost endpoint closes every session and forgets every peer. Mapper jobs under way still run to their end (R408). -/
def clearWaypost (s : State) : State :=
  let d := drawWord 0 s
  let s := d.1
  let keep := (List.range 4).foldl
    (fun m i => sset ({} : SessionRun) i { key := (session i s).key } m) ([] : Sparse SessionRun)
  let s := { s with wpt := { s.wpt with sessions := keep, boot := d.2, peers := [], sendSeq := [], resetDue := false } }
  dropRegs (fun r i => decide (r % 0x1000 = 0 ∧ r ≠ SYS_ID ∧ 4 ≤ i ∧ i < 8)) s

/-! ### Die links (R187, R447) -/

/-- A die link goes down: verge windows of its ports end unrecorded, their links are lost. -/
def loseDie (d : Nat) (s : State) : State :=
  let port (p : Nat) (s : State) : State :=
    let open' := (verge p s).state != .none
    let s := setPortRun p { portRun p s with verge := {}, vergeLost := (portRun p s).vergeLost || open' } s
    setLink p false (clearReception p s)
  forEach ((List.range 64).map fun i => 64 * d + i) port s

/-! ### The start of a reset (R444) -/

/-- What a function does when its reset begins. -/
def clearFunction (f : Nat) (s : State) : State :=
  if f < 128 then clearPort f s
  else if f < 132 then clearTrunk (f - 128) s
  else if f < 196 then clearDistrict (f - 132) s
  else if f = 196 then clearJunction s
  else if f = 197 then clearTurnpike s
  else if f = 199 then
    setRgF MPT_STATUS 0 2 0 0 { s with mp := { s.mp with stagedFrac := 0, stagedIncr := 0, ts2 := [] } }
  else if f = 200 then clearRoads s
  else if f = 201 then clearMilestones s
  else if f = 202 then clearMains s
  else if f = 203 then forEach (List.range 16) clearShaft s
  else if f = 204 then clearDma s
  else if f = 205 then clearQueues s
  else if f = 207 then clearJournal s
  else if f = 208 then clearTwin s
  else if f = 209 then clearHierarchy s
  else if f = 210 then clearWaypost s
  else if f = 211 ∨ f = 212 then
    if rgF MEM_STAT (f - 211) 2 0 s = 2 then setRgF MEM_STAT (f - 211) 2 0 3 s else s
  else if f = 213 ∨ f = 214 then loseDie (f - 213) (setRgF MEM_STAT (f - 211) 2 0 3 s)
  else s

/-- A function reset begins; a request for a function already in reset is merged (R449). -/
def startReset (f : Nat) (s : State) : State :=
  if 215 ≤ f ∨ inReset f s then s
  else
    let s := if f = 209 then clearFunction f s else s
    let s := onlyIf (zeroesAtStart f) (zeroCounts f) s
    let s := if f = 209 then s else clearFunction f s
    setInReset f true s

/-! ### Lane resets (R131, R134) -/

/-- LANE_RESET: the lane enters reset; in step mode at the next step. -/
def laneReset (l : Nat) (s : State) : State :=
  if laneInReset l s then s
  else if stepMode s then awaitStep (.resetLane l) s
  else clearLane l s
def execLaneReset (lane : Lane) (s : State) : Out := .next (laneReset lane s)

/-- DISTRICT_RESET (R131, R135). -/
def districtReset (d : Nat) (s : State) : State :=
  if inReset (132 + d) s then s
  else if stepMode s then awaitStep (.resetDistrict d) s
  else startReset (132 + d) s
def execDistrictReset (district : District) (s : State) : Out := .next (districtReset district s)

/-- PORT_RESET (R189). -/
def execPortReset (port : FieldPort) (s : State) : Out := .next (startReset port s)

/-- FUNCTION_RESET (R444): SYS_RST with go = 1 and sys = 0. -/
def functionReset (value : Word) (s : State) : State :=
  if bit value 31 ∧ ¬ bit value 30 then
    let f := fld value 7 0
    if 132 ≤ f ∧ f < 196 then districtReset (f - 132) s else startReset f s
  else s
def execFunctionReset (_path : Path) (value : Word) (s : State) : Out := .next (functionReset value s)

end Sys2Proof.Machine
end

