-- ==== Sys2Proof/Machine/Image.lean ====
section
/-! DEFINITION. Route images: layout, section table, records, and what a record does to the block (R413-R419). -/

set_option Elab.async false

namespace Sys2Proof.Machine

open Sys2Proof

/-! ### Header and trailer (R413, R414, R421) -/

abbrev imgMax : Nat := 134217728

def hdrPart (b : Bytes) : Nat := leAt b 8 4
def hdrSteppings (b : Bytes) : Nat := leAt b 12 1
def hdrKind (b : Bytes) : Nat := leAt b 13 1
def hdrPersonality (b : Bytes) : Nat := leAt b 14 1
def hdrKeySlot (b : Bytes) : Nat := leAt b 15 1
def hdrIdentity (b : Bytes) : Nat := leAt b 16 8
def hdrBase (b : Bytes) : Nat := leAt b 24 8
def hdrTotal (b : Bytes) : Nat := leAt b 32 4
def hdrSigned (b : Bytes) : Nat := leAt b 36 4
def hdrSections (b : Bytes) : Nat := leAt b 40 2
def hdrDigest (b : Bytes) : Bytes := slice b 48 48

abbrev kindFull : Nat := 0
abbrev kindPartial : Nat := 1
abbrev kindBundle : Nat := 2

def allZero (b : Bytes) : Bool := b.all fun x => x == 0

/-- Check 1: magic, version, lengths, reserved bytes, and a base identity where none belongs. -/
def headerBad (b : Bytes) : Bool :=
  slice b 0 4 != [0x53, 0x43, 0x56, 0x49] || leAt b 4 2 != 1 || leAt b 6 2 != 256 || leAt b 44 4 != 256
    || decide (2 < hdrKind b) || decide (1 < hdrPersonality b) || (hdrKind b != kindPartial && hdrBase b != 0)
    || !allZero (slice b 42 2) || !allZero (slice b 104 152)

/-- Check 3: total_len and signed_len. -/
def lengthBad (b : Bytes) : Bool :=
  hdrTotal b != hdrSigned b + 224 || decide (imgMax < hdrTotal b) || decide (b.length < hdrTotal b)
    || hdrSigned b % 16 != 0 || decide (hdrSigned b < 256)

def trailer (b : Bytes) : Bytes := slice b (hdrSigned b) 224

/-- Check 6: the signature. -/
def signatureBad (b : Bytes) : Bool :=
  let t := trailer b
  !allZero (slice t 97 15) || !allZero (slice t 208 16) || slice t 0 1 != [4]
    || !ecdsaVerify (beVal (slice t 1 48)) (beVal (slice t 49 48)) (sha384 (b.take (hdrSigned b)))
        (beVal (slice t 112 48)) (beVal (slice t 160 48))

/-! ### Section table (R415, R416) -/

/-- A table entry: type, instance, offset, length. -/
structure TableEntry where
  type : Nat
  instNo : Nat
  off : Nat
  len : Nat
deriving DecidableEq, Repr

def tableEntry (b : Bytes) (i : Nat) : TableEntry :=
  let o := 256 + 16 * i
  { type := leAt b o 2, instNo := leAt b (o + 2) 2, off := leAt b (o + 4) 4, len := leAt b (o + 8) 4 }

def tableOf (b : Bytes) : List TableEntry := (List.range (hdrSections b)).map (tableEntry b)

/-- Instances of a section type. -/
def instanceOk (t i : Nat) : Bool :=
  if t = 2 then decide (i < 132) else if t = 11 then decide (i < 64) else if t = 19 then decide (i < 4)
  else if t = 23 then decide (1 ≤ i ∧ i < 16) else decide (1 ≤ t ∧ t < 23 ∧ i = 0)

/-- Sections that an image of a kind may not hold. -/
def kindBars (kind t : Nat) : Bool :=
  (t == 1 && kind == kindPartial) || (t == 23 && kind == kindFull)

/-- Sections that an image of a kind must hold. -/
def kindNeeds (kind : Nat) (ts : List TableEntry) : Bool :=
  let has (t : Nat) := ts.any fun e => e.type = t
  (kind == kindPartial || has 1) && (kind != kindBundle || has 17)

/-- An entry of the table breaks R413, R415 or R416, given the entry before it. -/
def entryBad (b : Bytes) (i : Nat) : Bool :=
  let e := tableEntry b i
  let p := tableEntry b (i - 1)
  !instanceOk e.type e.instNo || kindBars (hdrKind b) e.type || !allZero (slice b (256 + 16 * i + 12) 4)
    || decide (e.off % 16 ≠ 0 ∨ e.off < 256 + 16 * hdrSections b ∨ hdrSigned b < e.off + e.len)
    || (decide (0 < i) && !(decide (p.type < e.type) || (p.type == e.type && decide (p.instNo < e.instNo))))

/-- Two sections overlap. -/
def overlaps (x y : TableEntry) : Bool := decide (x.off < y.off + y.len ∧ y.off < x.off + x.len)

/-- Bytes between the table, the sections and the trailer that no part occupies are 0 (R413). -/
def gapsZero (b : Bytes) (ts : List TableEntry) : Bool :=
  let taken (k : Nat) := decide (k < 256 + 16 * hdrSections b) || ts.any fun e => decide (e.off ≤ k ∧ k < e.off + e.len)
  (List.range (hdrSigned b)).all fun k => taken k || b.getD k 0 == 0

/-! ### Records (R417, R418) -/

/-- The records of a section; none when they do not fill it. -/
def recordsOf : Nat → Bytes → Option (List (Nat × Bytes))
  | 0, _ => none
  | n + 1, b =>
    if b.isEmpty then some []
    else
      let len := leAt b 4 4
      let pad := (4 - len % 4) % 4
      if b.length < 8 + len + pad ∨ leAt b 2 2 ≠ 0 ∨ ¬ allZero (slice b (8 + len) pad) then none
      else
        match recordsOf n (b.drop (8 + len + pad)) with
        | some t => some ((leAt b 0 2, slice b 8 len) :: t)
        | none => none

abbrev tagReg : Nat := 1
abbrev tagDevice : Nat := 2
abbrev tagPort : Nat := 3
abbrev tagTable : Nat := 5
abbrev tagGcl : Nat := 6
abbrev tagSubmap : Nat := 7
abbrev tagMsrec : Nat := 8
abbrev tagEvline : Nat := 9
abbrev tagPlace : Nat := 10
abbrev tagLane : Nat := 11
abbrev tagDmem : Nat := 12
abbrev tagMem : Nat := 13
abbrev tagKey : Nat := 14
abbrev tagRange : Nat := 15
abbrev tagWorker : Nat := 16
abbrev tagProfile : Nat := 18

/-- Sections in which a tag may stand. -/
def tagAllowed (tag t i : Nat) : Bool :=
  if tag = tagReg then decide (2 ≤ t ∧ t ≤ 20)
  else if tag = tagDevice then t == 1
  else if tag = tagPort then t == 2 && decide (i < 128)
  else if tag = tagTable then t == 3
  else if tag = tagGcl ∨ tag = tagSubmap then t == 4
  else if tag = tagMsrec ∨ tag = tagEvline ∨ tag = tagPlace then t == 8
  else if tag = tagLane ∨ tag = tagDmem then t == 11
  else if tag = tagMem then t == 21
  else if tag = tagKey then decide (16 ≤ t ∧ t ≤ 18)
  else if tag = tagRange then t == 16
  else if tag = tagWorker then t == 17
  else if tag = tagPoint then t == 22
  else if tag = tagProfile then t == 6
  else false

/-- Size of an item of a record that holds a run of them; 0 for another record. -/
def itemSize (tag : Nat) : Nat :=
  if tag = tagReg then 12 else if tag = tagTable then 40 else if tag = tagSubmap then 4 else if tag = tagMsrec then 20
  else if tag = tagEvline ∨ tag = tagPlace ∨ tag = tagRange then 12 else if tag = tagWorker ∨ tag = tagPoint then 16 else 0

/-- Device-record roles are codes 0-4 or 15. -/
def roleNibbles (v : Bytes) : List Nat := (List.range 4).map fun t => leAt v 8 2 / 16 ^ t % 16

/-- A record breaks R418. -/
def imageRecordBad (t i personality : Nat) (tag : Nat) (v : Bytes) : Bool :=
  let n := v.length
  if !tagAllowed tag t i then true
  else if itemSize tag ≠ 0 then n % itemSize tag != 0
    || (tag == tagTable && (itemsOf 40 v).any fun x => !allZero (slice x 1 3))
    || (tag == tagSubmap && (itemsOf 4 v).any fun x => leAt x 2 2 / 4096 % 8 != 0)
    || (tag == tagWorker && (itemsOf 16 v).any fun x => !allZero (slice x 1 7))
  else if tag = tagDevice then
    n != 10 || leAt v 0 1 != personality || decide (1 < leAt v 1 1) || decide (1 < leAt v 2 1) || decide (2 < leAt v 3 1)
      || decide (2 < leAt v 5 1) || leAt v 6 2 != 0 || (roleNibbles v).any fun r => decide (4 < r ∧ r ≠ 15)
  else if tag = tagPort then n != 4 || decide (3 ≤ leAt v 0 1) || decide (1 < leAt v 1 1) || decide (3 < leAt v 2 1) || leAt v 3 1 != 0
  else if tag = tagGcl then decide (n < 28) || n != 28 + 8 * leAt v 4 2 || leAt v 3 1 != 0 || decide (3 < leAt v 1 1)
  else if tag = tagLane then decide (n < 4) || leAt v 1 3 != 0
  else if tag = tagDmem then decide (n < 4)
  else if tag = tagMem then decide (n < 8)
  else if tag = tagKey then
    n != 36 || leAt v 1 3 != 0
      || !(if t = 16 then leAt v 0 1 == 5 else if t = 17 then leAt v 0 1 == 4 else decide (leAt v 0 1 < 4))
  else if tag = tagProfile then decide (n < 1 ∨ 4096 < n)
  else false

/-- The sections of an image, parsed; a section that breaks R417 has no records. -/
def sectionsOf (b : Bytes) : List ImgSection :=
  (tableOf b).map fun e =>
    let raw := slice b e.off e.len
    { type := e.type, instNo := e.instNo, raw := if e.type = 23 then raw else [],
      records := if e.type = 23 then [] else (recordsOf (raw.length + 1) raw).getD [] }

/-! ### Presets (R416, R419) -/

/-- Bits of a register whose access code is wo. -/
def woMask (r : Nat) : Word :=
  if r = MPT_STEP ∨ r = MST_COMMIT ∨ r = LNC_LANE_CTRL ∨ r = TWN_CTRL then 1
  else if r = MPT_FW_SET ∨ r = ROA_CTRL ∨ r = LNC_DST_CTRL ∨ r = DMA_CTRL then 7
  else if r = MST_SW_PULSE then 0x1FF
  else if r = FPA_PORT_CFG then 0x200
  else if r = FPA_VRG_CTRL then 0xC0000000
  else if r = MAC_PAUSE_TX then 0xC0FFFFFF
  else if r = JCT_TBL_CMD ∨ r = TPK_MAP_CMD ∨ r = QMG_INVAL ∨ r = FLT_SAFE_CTRL then 0x80000000
  else if r = TPK_GCL_COMMIT then 3
  else if r = QMG_DOORBELL then 0x3FF
  else if r = QMG_Q_CFG then 0x40000000
  else if r = IMG_CTRL then 0x3D
  else if r = IMG_REVOKE then 0xFF03
  else if r = SYS_RST then 0xC000FFFF
  else if r = SYS_WDOG_KICK then 0xFF
  else 0

/-- Bits that a preset writes. -/
def presetMask (r : Nat) : Word := w32 (regRow r).rw ||| imageMask r

/-- Register number of an offset from 0xF0_0000_0000; none where no register can stand (R480). -/
def regNumber (off : Nat) : Option Nat :=
  let o := off % 0x10000
  if o < 0x1000 ∧ o % 4 = 0 ∧ off / 0x10000 ≤ 0x16 then some (off / 0x10000 * 0x1000 + o) else none

/-- Blocks, and parts of blocks, that a section's presets may reach. -/
def presetBlock (t r : Nat) : Bool :=
  let blk := r / 0x1000
  let glob := decide (r % 0x1000 < 0x100)
  match t with
  | 2 => blk == 7 || blk == 8 || blk == 0x16 || (blk == 1 && !glob)
  | 3 => blk == 9
  | 4 => blk == 0xA
  | 5 => blk == 0xB
  | 6 => blk == 1 && glob
  | 7 => blk == 2
  | 8 => blk == 3
  | 9 => blk == 4
  | 10 => blk == 5
  | 11 => blk == 6 && !glob
  | 12 => blk == 0xE
  | 13 => blk == 0xD
  | 14 => blk == 0xC
  | 15 => blk == 0xF
  | 16 => blk == 0x11
  | 17 => blk == 0x12
  | 18 => blk == 0x13
  | 19 => blk == 0x15
  | 20 => blk == 0x10
  | _ => false

/-- The window field of the select names an instance, the section's own one where it has one. -/
def presetInstance (t i r : Nat) (sel : Word) : Bool :=
  decide (r % 0x1000 < 0x100) ||
    match winInst r sel with
    | none => false
    | some k =>
      if t = 2 then (if r / 0x1000 = 0x16 then decide (k + 128 = i) else k == i)
      else if t = 11 then (if r % 0x1000 < 0x200 then k / 16 == i else k == i)
      else if t = 19 then k == i
      else true

/-- A preset is refused (R419); `frac` is the fraction staged before it (R24). -/
def presetBad (t i off : Nat) (sel value frac : Word) : Bool :=
  match regNumber off with
  | none => true
  | some r =>
    let incr := r = MPT_INCR_FRAC ∨ r = MPT_INCR_INT
    !presetBlock t r || !presetInstance t i r sel || ((woMask r ||| w32 (regRow r).w1c) &&& value != 0)
      || (decide (¬ incr) && presetMask r == 0)
      || (decide (r = MPT_INCR_INT) && !incrOk (fld value 7 0 * 2 ^ 32 + frac.toNat))
      || (decide (r = ROA_SRC) && srcBad (fld value 2 0) (fld value 13 8))

/-- The presets of a section in order, each with the fraction staged before it: any is refused. -/
def presetsBad (t i : Nat) : List Bytes → Word → Bool
  | [], _ => false
  | x :: rest, frac =>
    let off := leAt x 0 4
    let v := w32 (leAt x 8 4)
    presetBad t i off (w32 (leAt x 4 4)) v frac
      || presetsBad t i rest (if regNumber off = some MPT_INCR_FRAC then v else frac)

/-- Write one half of an admin gate entry, by its key port * 256 + entry (R246). -/
def setAdminHalf (high : Bool) (key : Nat) (value : Word) (s : State) : State :=
  let e := sget 0 key s.tpk.admin
  let e : BitVec 64 := if high then value ++ e.extractLsb' 0 32 else e.extractLsb' 32 32 ++ value
  { s with tpk := { s.tpk with admin := sset 0 key e s.tpk.admin } }

/-- What a preset raises besides its value: an invalid bit time (R175), an invalid cpr (R109), and the occurrences of force bits
that it takes from 0 to 1 (R326). -/
def presetRaises (r i : Nat) (old : Word) (s : State) : State :=
  let s := serialBitCheck r i s
  let s := onlyIf (r == SHF_CPR && cprBad (shfCpr i s)) (setCause SHF_CAUSE i 4) s
  onlyIf (r == FLT_G_FORCE) (forceRises i old) s

/-- Apply one preset through the loader's path, whose own copy holds what each path keeps for itself (R419); what a register
write ignores, a preset does not change (R48, R49). DESIGN CHOICE: a preset of SHF_CPR takes effect whatever mode a preset
before it has set (R105, R444): the channel does not run in the reset. -/
def applyPreset (off : Nat) (sel value : Word) (s : State) : State :=
  match regNumber off with
  | none => s
  | some r =>
    let s := setRg (r / 0x1000 * 0x1000) loaderPath sel s
    if r = MPT_INCR_FRAC then { s with mp := { s.mp with stagedFrac := value } }
    else if r = MPT_INCR_INT then setIncr (fld value 7 0 * 2 ^ 32 + s.mp.stagedFrac.toNat) s
    else
      match winInst r sel with
      | none => s
      | some i =>
        if r = TPK_GCL_ENT0 ∨ r = TPK_GCL_ENT1 then setAdminHalf (r = TPK_GCL_ENT1) i value s
        else if (r = ROA_PERIOD ∧ periodBad value.toNat) ∨ (r = ROA_SRC ∧ i = 0) then s
        else
          let i := if pathReg r then loaderPath else i
          let m := presetMask r &&& ~~~(absentBits r i s)
          let old := rg r i s
          presetRaises r i old (setRg r i (clampValue r i ((old &&& ~~~m) ||| (value &&& m))) s)

/-! ### Records applied (R418, R426) -/

/-- A gate list record: the four base and cycle words, fallback, count and entries go to the admin copy. -/
def applyGcl (v : Bytes) (s : State) : State :=
  let p := leAt v 0 1
  let n := min 256 (leAt v 4 2)
  let s := setRg TPK_GCL_CFG p (setFld (setFld (setFld 0 31 30 (leAt v 1 1)) 29 24 (leAt v 2 1)) 8 0 (leAt v 4 2)) s
  let s := setRg TPK_GCL_MIN p (w32 (leAt v 6 2)) s
  let s := setRg TPK_GCL_BASE_LO p (w32 (leAt v 8 4)) (setRg TPK_GCL_BASE_HI p (w32 (leAt v 12 2)) s)
  let s := setRg TPK_GCL_CYC_LO p (w32 (leAt v 16 4)) (setRg TPK_GCL_CYC_HI p (w32 (leAt v 20 2)) s)
  let s := setRg TPK_GCL_FALLBACK p (w32 (leAt v 24 4)) s
  forEach (List.range n)
    (fun i s => { s with tpk := { s.tpk with
      admin := sset 0 (p * 256 + i) (BitVec.ofNat 64 (leAt v (28 + 8 * i) 8)) s.tpk.admin } }) s

/-- The record of a section of instance `i`, applied. -/
def applyRecord (i tag : Nat) (v : Bytes) (s : State) : State :=
  let each (k : Nat) (f : Bytes → State → State) : State := forEach (itemsOf k v) f s
  if tag = tagReg then each 12 fun x => applyPreset (leAt x 0 4) (w32 (leAt x 4 4)) (w32 (leAt x 8 4))
  else if tag = tagPort then setRgF FPA_PORT_CFG i 4 0 (leAt v 1 1 * 16 + leAt v 0 1 * 4 + leAt v 2 1) s
  else if tag = tagTable then each 40 fun x => tblPut (leAt x 0 1) (leAt x 4 4) (tblOf fun k => w32 (leAt x (8 + 4 * k) 4))
  else if tag = tagGcl then applyGcl v s
  else if tag = tagSubmap then
    each 4 fun x s =>
      let w := leAt x 2 2
      let e : BitVec 13 := BitVec.ofNat 13 (w % 4096 + (w / 32768) * 4096)
      { s with tpk := { s.tpk with map := sset 0 (leAt x 0 1 * 200 + leAt x 1 1) e s.tpk.map } }
  else if tag = tagMsrec then each 20 fun x => setRecWord (leAt x 0 4) (Rec.normal (BitVec.ofNat 128 (leAt x 4 16)))
  else if tag = tagEvline then
    each 12 fun x s =>
      setRg MST_EVT_SRC (leAt x 0 4) (w32 (leAt x 4 4) &&& 0x7FFFFFF)
        (setRg MST_EVT_DST (leAt x 0 4) (w32 (leAt x 8 4) &&& 0x7FFFFFF) s)
  else if tag = tagPlace then
    each 12 fun x s =>
      setRg MST_PLC_CUR (leAt x 0 4) (w32 (leAt x 4 4) &&& 0xFF07FF)
        (setRg MST_PLC_RX (leAt x 0 4) (w32 (leAt x 8 4) &&& 0x103FF) s)
  else if tag = tagLane then wrBytes (localAddr (16 * i + leAt v 0 1)) (v.drop 4) s
  else if tag = tagDmem then wrBytes (districtAddr i + leAt v 0 4) (v.drop 4) s
  else if tag = tagMem then wrBytes (leAt v 0 8 % 2 ^ 40) (v.drop 8) s
  else if tag = tagKey then
    let use := leAt v 0 1
    let key := slice v 4 32
    if use < 4 then setSession use { session use s with key := some key } s
    else { s with wpt := { s.wpt with assocKey := sset none (use - 4) (some key) s.wpt.assocKey } }
  else s

/-- A section applied. -/
def applySection (x : ImgSection) (s : State) : State :=
  forEach x.records (fun r => applyRecord x.instNo r.1 r.2) s

/-- Function that a section is bound to; 999 for none (R416). -/
def boundFunction (t i : Nat) : Nat :=
  if t = 2 then i
  else if 3 ≤ t ∧ t ≤ 10 then 193 + t
  else if t = 11 then 132 + i
  else if 12 ≤ t ∧ t ≤ 18 then 192 + t
  else if t = 19 then 211 + i
  else noFunction

/-- A section concerns a function: the LM64 map concerns districts 60-63. -/
def boundTo (x : ImgSection) (f : Nat) : Bool :=
  boundFunction x.type x.instNo == f || (x.type == 22 && decide (192 ≤ f ∧ f < 196))

/-- The DEVICE record of a configuration. -/
def deviceRecord (xs : List ImgSection) : Option Bytes :=
  ((xs.find? fun x => x.type = 1).bind fun x => x.records.find? fun r => r.1 = tagDevice).map fun r => r.2

/-- Role, worker number, twin and step enables of a configuration. -/
def devByte (xs : List ImgSection) (k : Nat) : Nat := ((deviceRecord xs).map fun v => leAt v k 1).getD 0
def devTwin (xs : List ImgSection) : Bool := devByte xs 1 == 1
def devStep (xs : List ImgSection) : Bool := devByte xs 2 == 1
def devRole (xs : List ImgSection) : Nat := devByte xs 3
def devWorker (xs : List ImgSection) : Nat := devByte xs 4
def devTopology (xs : List ImgSection) : Nat := devByte xs 5

/-- Apply what the DEVICE record sets: trunk roles and topology, twin and hierarchy enables. -/
def applyDevice (xs : List ImgSection) (s : State) : State :=
  let roles := ((deviceRecord xs).map roleNibbles).getD [15, 15, 15, 15]
  let code := (List.range 4).foldl (fun m t => sset 15 t (roles.getD t 15) m) ([] : Sparse Nat)
  let s := { s with img := { s.img with roleCode := code, topology := devTopology xs } }
  let s := setRgF TWN_CFG 0 31 30 (2 * b2n (devTwin xs) + b2n (devStep xs && devTwin xs)) s
  let s := setRgF HIE_CFG 0 31 30 (devRole xs) (setRgF HIE_CFG 0 27 24 (devWorker xs) s)
  setRgF LNC_CTRL 0 0 0 (b2n (devStep xs && devTwin xs)) s

end Sys2Proof.Machine
end

