-- ==== Sys2Proof/Machine/Twin.lean ====
section
/-! DEFINITION. Twin pairs: pairing, heartbeats, the merged stream's frames, takeover, demotion, rejoining, claim echoes
(R352-R372). -/

set_option Elab.async false

namespace Sys2Proof.Machine

open Sys2Proof

/-! ### States and epochs (R352, R354, R363) -/

/-- Put the unit in a state. -/
def setTwinState (x : TwinState) (s : State) : State :=
  setRgF TWN_STAT 0 2 0 x.code { s with twn := { s.twn with state := x } }

/-- The twin unit works: enabled by the image and not in reset. -/
def twinOn (s : State) : Bool := s.twn.state != .off && !inReset 208 s

/-- State at the end of a load or of a reset of function 208 (R352, R372). -/
def twinStart (s : State) : State :=
  let s := setRgF TWN_STAT 0 9 8 (rgF SYS_STRAP 0 1 0 s) s
  if ¬ bit (rg TWN_CFG 0 s) 31 then setTwinState .off s
  else if twinRank s = 1 ∨ twinRank s = 2 then setTwinState .pairing s
  else setCause TWN_CAUSE 0 0 (setTwinState .refused s)

/-- Own epoch. -/
def twinEpoch (s : State) : Nat := rgF TWN_EPOCH 0 23 0 s

/-- The epoch becomes `e` plus 1; it stays at its maximum (R363). -/
def raiseEpoch (e : Nat) (s : State) : State :=
  if 0xFFFFFF ≤ e then setCause TWN_CAUSE 0 7 (setRgF TWN_EPOCH 0 23 0 0xFFFFFF s)
  else setRgF TWN_EPOCH 0 23 0 (e + 1) s

/-- Twin-link and backup paths are present. -/
def linkHb (s : State) : Bool := bit (rg TWN_STAT 0 s) 18
def backupHb (s : State) : Bool := bit (rg TWN_STAT 0 s) 19

/-- Both paths count as present from pairing on, and their periods begin (R367). -/
def startPaths (s : State) : State :=
  let s := { s with twn := { s.twn with missLink := 0, missBackup := 0, heardLink := false, heardBackup := false } }
  setRgF TWN_STAT 0 19 18 (1 + 2 * b2n (backupTrunk s).isSome) s

/-! ### The merged stream (R127, R359) -/

/-- The merged stream of step n is complete: its marker n + 1 and the closes of step n are held (R359). -/
def mergeReady (n : Nat) (s : State) : Bool :=
  let t := s.twn
  let mine := (sget none n t.ownClose).isSome
  let theirs := match sget none n t.peerClose with
    | some k => decide (k ≤ (t.inputs.filter fun x => x.step = n ∧ x.rank ≠ twinRank s).length)
    | none => false
  t.markers.any (fun m => m.1 = n + 1) && mine && (t.alone || theirs) && !t.copying && !inReset 208 s

/-- A job that a lane still has to end holds the next step (R127). -/
def laneHolds (l : Nat) (s : State) : Bool :=
  let ln := lane l s
  let jobs := ln.queue.any fun e => match e with | .job _ => true | .marker .. => false
  ln.run != .faulted && !ln.halted && !laneInReset l s && (ln.run != .idle || jobs)

/-- Every job of the step has ended. -/
def jobsEnded (s : State) : Bool := (skeys s.lanes).all fun l => !laneHolds l s

/-- The steps whose closing marker the merged stream has delivered, from the running one on. -/
def mergedSteps (s : State) : List Nat :=
  (s.twn.markers.map fun m => m.1 - 1).filter fun n => decide (s.stp.step ≤ n) && mergeReady n s

/-- Note when the merged stream delivered each marker, and whether the next step is stalled by jobs (R127). -/
def noteStall (s : State) : State :=
  if ¬ stepMode s then s
  else
    let note (m : Sparse (Option Nat)) (n : Nat) :=
      if (sget none n m).isSome then m else sset none n (some (elapsedNs s)) m
    { s with stp := { s.stp with
        delivered := (mergedSteps s).foldl note s.stp.delivered,
        stalled := s.stp.stalled || (mergeReady s.stp.step s && !jobsEnded s) } }

/-! ### Takeover and demotion (R365, R367, R368, R371) -/

/-- Takeover (R368, R371): a unit that was suppressing does so until the next step release. -/
def takeover (s : State) : State :=
  let s := setRgF TWN_STAT 0 23 20 0 (raiseEpoch (max (twinEpoch s) s.twn.peerEpoch.toNat) s)
  let s := setTwinState .active
    { s with twn := { s.twn with releasing := stepMode s && (s.twn.releasing || s.twn.state != .active), alone := true,
                                 tookOver := some s.mp.tclk } }
  noteStall (setCause TWN_CAUSE 0 2 s)

/-- Isolated standby. -/
def isolate (s : State) : State := setTwinState .isolated { s with twn := { s.twn with paired := false } }

/-- Isolated standby by a higher claim, by echoes or by a demotion action. -/
def demote (s : State) : State := setCause TWN_CAUSE 0 3 (isolate s)

/-- The demotion action of R329 (R371). -/
def demotionAction (s : State) : State :=
  if twinOn s ∧ (s.twn.state = .active ∨ s.twn.state = .standby) then demote s else s

/-- What happened to the paths: one was lost just now, the backup path came back just now, or a heartbeat arrived. -/
inductive PathEvent where
  | lost | returned | heartbeat
deriving DecidableEq, Repr

/-- The table of R367. A takeover prevails over an echo run that reached 8 on the same edge (R371). -/
def evaluatePaths (what : PathEvent) (s : State) : State :=
  let lost := what == .lost
  let me := s.twn.state
  let peer := rgF TWN_STAT 0 17 15 s
  if ¬ linkHb s ∧ ¬ backupHb s then
    if lost ∧ (me = .active ∨ me = .standby ∨ (me = .isolated ∧ s.twn.echoed = some s.mp.tclk)) then takeover (setCause TWN_CAUSE 0 1 s)
    else if me = .rejoining then isolate s
    else s
  else if ¬ linkHb s ∧ me = .standby then setCause TWN_CAUSE 0 6 (isolate s)
  else if ¬ linkHb s ∧ me = .active ∧ what ≠ .heartbeat then
    noteStall (setCause TWN_CAUSE 0 6 { s with twn := { s.twn with alone := true } })
  else if me = .standby ∧ ¬ lost ∧ (peer = 4 ∨ peer = 1 ∨ peer = 6 ∨ peer = 5) then takeover s
  else if me = .active ∧ ¬ lost ∧ peer = 2 ∧ claimNumber s < s.twn.peerClaim then demote s
  else s

/-! ### Hellos and pairing (R353) -/

/-- The identity of the running image. -/
def imageIdentity (s : State) : BitVec 64 := rg IMG_ID_HI 0 s ++ rg IMG_ID_LO 0 s

/-- Send a hello. -/
def sendHello (s : State) : State :=
  twinSend 1 0 0 (beBytes 4 (twinEpoch s) ++ beBytes 1 s.twn.state.code ++ [0, 0, 0]
    ++ beBytes 8 (imageIdentity s).toNat) s

/-- TWIN_HELLO_TIMER: in pairing, and in the refused state, a hello leaves. -/
def twinHelloTimer (s : State) : State :=
  if twinOn s ∧ (s.twn.state = .pairing ∨ s.twn.state = .refused) then sendHello s else s
def execTwinHelloTimer (s : State) : Out := .next (twinHelloTimer s)

/-- Both units refuse. -/
def refusePair (s : State) : State := setCause TWN_CAUSE 0 0 (setTwinState .refused s)

/-- Rejoining begins (R370): the lanes and the road unit are reset, the merge state is discarded. -/
def startRejoin (s : State) : State :=
  let s := setTwinState .rejoining { s with twn :=
    { s.twn with paired := false, alone := false, markers := [], inputs := [], ownClose := [], peerClose := [],
                 ownDigest := [], peerDigest := [], peerSeq := none, lastMarker := 0 } }
  let s := { s with stp := { s.stp with held := [], commands := [], heldMsgs := [], delivered := [], stalled := false } }
  startReset 200 (forEach (List.range 64) (fun d => startReset (132 + d)) s)

/-- Pairing is agreed: rank 2 becomes active and rank 1 standby, in step mode from the first boundary. -/
def agreePair (peerEpoch : BitVec 24) (s : State) : State :=
  let s := startPaths (raiseEpoch (max (twinEpoch s) peerEpoch.toNat) s)
  let s := { s with twn := { s.twn with alone := false } }
  if stepMode s then { s with twn := { s.twn with paired := true } }
  else setTwinState (if twinRank s = 2 then .active else .standby) s

/-- TWIN_HELLO_RECEIVE (R353). An active unit answers, so that a peer in pairing learns of it. -/
def twinHelloReceive (rank : BitVec 8) (epoch : BitVec 24) (state : BitVec 8) (identity : BitVec 64) (s : State) : State :=
  if ¬ twinOn s then s
  else
    let s := setRgF TWN_STAT 0 11 10 rank.toNat { s with twn := { s.twn with peerEpoch := epoch } }
    if s.twn.state = .active then sendHello s
    else if s.twn.state ≠ .pairing then s
    else if rank.toNat = twinRank s ∨ identity ≠ imageIdentity s then refusePair s
    else if s.twn.paired then s
    else if state = 1 then agreePair epoch s
    else if state = 2 then startRejoin (startPaths s)
    else s
def execTwinHelloReceive (rank : BitVec 8) (epoch : BitVec 24) (state : BitVec 8) (identity : BitVec 64) (s : State) : Out :=
  .next (twinHelloReceive rank epoch state identity s)

/-- SOLO_WAIT_EXPIRY (R353): the unit becomes active alone. -/
def soloWaitExpiry (s : State) : State :=
  if twinOn s ∧ s.twn.state = .pairing ∧ ¬ s.twn.paired then
    setTwinState .active (raiseEpoch (twinEpoch s) { s with twn := { s.twn with alone := true } })
  else s
def execSoloWaitExpiry (s : State) : Out := .next (soloWaitExpiry s)

/-! ### Heartbeats (R356, R367) -/

/-- Body of a heartbeat; the merge of step n begins step n + 1. -/
def heartbeatBody (s : State) : Bytes :=
  beBytes 4 (twinEpoch s) ++ beBytes 1 s.twn.state.code ++ [0, 0, 0] ++ beBytes 4 (claimNumber s).toNat
    ++ beBytes 4 (s.stp.step - 1)

/-- A period of 1 ms ends: paths without a heartbeat in it have missed one. -/
def countPeriods (s : State) : State :=
  let t := s.twn
  let active := rgF TWN_STAT 0 17 15 s = 2
  let missed := b2n (!t.heardLink) + b2n (!t.heardBackup && (backupTrunk s).isSome)
  let s := { s with twn :=
    { t with missLink := if t.heardLink then 0 else t.missLink + 1,
             missBackup := if t.heardBackup then 0 else t.missBackup + 1,
             linkSeen := if t.heardLink ∧ active then t.linkSeen + 1 else 0,
             heardLink := false, heardBackup := false } }
  addRgF TWN_CNT_HB 0 31 16 missed s

/-- HEARTBEAT_TIMER: a heartbeat leaves on the twin link and on the backup path, and a period ends. -/
def heartbeatTimer (s : State) : State :=
  if ¬ twinOn s then s
  else twinSendBackup 2 (heartbeatBody s) (twinSend 2 0 0 (heartbeatBody s) (countPeriods s))
def execHeartbeatTimer (s : State) : Out := .next (heartbeatTimer s)

/-- HEARTBEAT_RECEIVE (R367, R370): an active unit in step mode stalls for the copy when its peer begins to rejoin. -/
def heartbeatReceive (backup : Bool) (epoch : BitVec 24) (state : BitVec 8) (claim lastStep : Word)
    (s : State) : State :=
  if ¬ twinOn s then s
  else
    let before := rgF TWN_STAT 0 17 15 s
    let t := s.twn
    let t := if backup then { t with heardBackup := true, missBackup := 0 }
             else { t with heardLink := true, missLink := 0 }
    let s := { s with twn := { t with peerEpoch := epoch, peerClaim := claim, peerStep := lastStep.toNat } }
    let s := setRgF TWN_STAT 0 17 15 state.toNat s
    let what := if backup ∧ ¬ backupHb s then PathEvent.returned else .heartbeat
    let s := if backup then setRgF TWN_STAT 0 19 19 1 s else setRgF TWN_STAT 0 18 18 1 s
    let s := evaluatePaths what s
    if s.twn.state = .active ∧ stepMode s ∧ state = 6 ∧ before ≠ 6 then { s with twn := { s.twn with copying := true, syncNext := 0 } }
    else s
def execHeartbeatReceive (backup : Bool) (_rank : BitVec 8) (epoch : BitVec 24) (state : BitVec 8)
    (claim lastStep : Word) (s : State) : Out :=
  .next (heartbeatReceive backup epoch state claim lastStep s)

/-- A path has been without a heartbeat for miss_count periods (R367). -/
def pathSilent (backup : Bool) (s : State) : Bool :=
  decide (max 1 (rgF TWN_STAT 0 31 24 s) ≤ if backup then s.twn.missBackup else s.twn.missLink)

/-- Every path that has been silent for miss_count periods is lost: two that fail at the same moment go together (R369). -/
def losePaths (s : State) : State :=
  let s := onlyIf (pathSilent true s) (setRgF TWN_STAT 0 19 19 0) s
  onlyIf (pathSilent false s) (setRgF TWN_STAT 0 18 18 0) s

/-- HEARTBEAT_LOSS (R367): miss_count periods have passed without a heartbeat on a present path. -/
def heartbeatLoss (backup : Bool) (s : State) : State :=
  let present := if backup then backupHb s else linkHb s
  if twinOn s ∧ present ∧ pathSilent backup s then
    let s := losePaths s
    evaluatePaths .lost { s with twn := { s.twn with copying := s.twn.copying && (linkHb s || backupHb s) } }
  else s
def execHeartbeatLoss (backup : Bool) (s : State) : Out := .next (heartbeatLoss backup s)

/-! ### Markers, inputs and closes (R357-R359) -/

/-- TWN_STEP.step_us, clamped (R374). -/
def stepNs (s : State) : Nat := max 25 (min 10000 (rgF TWN_STEP 0 13 0 s)) * 1000

/-- Hold a boundary marker. The resend buffer holds the inputs of the last 64 steps. -/
def takeBoundary (n : Nat) (tb : Word) (s : State) : State :=
  noteStall { s with twn := { s.twn with lastMarker := n, lastTb := tb, noBoundary := false,
                                         markers := s.twn.markers ++ [(n, tb)],
                                         resend := s.twn.resend.filter fun x => decide (n < x.step + 64) } }

/-- The step that runs, and the number of its marker. -/
def setStep (n : Nat) (s : State) : State := setRg LNC_STEP 0 (w32 n) { s with stp := { s.stp with step := n } }

/-- BOUNDARY_MARKER_EMIT (R358): the active unit emits the next marker; the first stands at the time of its emission. -/
def boundaryMarkerEmit (s : State) : State :=
  if ¬ twinOn s ∨ ¬ stepMode s then s
  else if s.twn.state = .active ∨ (s.twn.paired ∧ twinRank s = 2) then
    let s := if s.twn.paired then setTwinState .active { s with twn := { s.twn with paired := false } } else s
    let n := s.twn.lastMarker + 1
    let tb := if s.twn.noBoundary then now s else s.twn.lastTb + w32 (stepNs s)
    twinSend 3 n 0 (beBytes 4 tb.toNat) (takeBoundary n tb s)
  else s
def execBoundaryMarkerEmit (s : State) : Out := .next (boundaryMarkerEmit s)

/-- Put an input at its place in merge order: step, originating rank, sequence number (R359). -/
def inputBefore (x y : TwinInput) : Bool :=
  decide (x.step < y.step) || (decide (x.step = y.step) &&
    (decide (x.rank < y.rank) || (decide (x.rank = y.rank) && decide ((x.seq - y.seq).toNat ≥ 2 ^ 31))))

/-- A peer's input is held once. -/
def takeInput (x : TwinInput) (s : State) : State :=
  if s.twn.inputs.any (fun y => y.rank = x.rank ∧ y.seq = x.seq) then s
  else noteStall (bump TWN_CNT_IN 0 15 0 { s with twn := { s.twn with inputs := s.twn.inputs ++ [x] } })

/-- The first of some inputs' sequence numbers. -/
def firstSeq : List TwinInput → Word
  | [] => 0
  | [x] => x.seq
  | x :: t => if (x.seq - firstSeq t).toNat ≥ 2 ^ 31 then x.seq else firstSeq t

/-- A close of the peer: when inputs of the step are missing, all of the step's are asked for again; a standby unit that
asks for a step which its peer no longer holds isolates itself (R358). DESIGN CHOICE: before the first close of a peer its
sequence is taken from the inputs that are held. -/
def takeClose (n count : Nat) (s : State) : State :=
  let mine := s.twn.inputs.filter fun x => x.step = n ∧ x.rank ≠ twinRank s
  let base := s.twn.peerSeq.getD (firstSeq mine)
  let s := { s with twn :=
    { s.twn with peerClose := sset none n (some count) s.twn.peerClose, peerSeq := some (base + w32 count) } }
  if mine.length < count then
    let s := onlyIf (decide (n + 64 ≤ s.twn.lastMarker) && s.twn.state == .standby)
      (fun s => setCause TWN_CAUSE 0 5 (isolate s)) s
    twinSend 6 n 0 (beBytes 4 base.toNat ++ beBytes 4 count) (bump TWN_CNT_HB 0 15 8 s)
  else noteStall s

/-- Compare the digests of a step when both are held (R361). -/
def compareDigest (n : Nat) (s : State) : State :=
  match sget none n s.twn.ownDigest, sget none n s.twn.peerDigest with
  | some a, some b =>
    let s := { s with twn := { s.twn with ownDigest := serase n s.twn.ownDigest, peerDigest := serase n s.twn.peerDigest } }
    let s := bump TWN_CNT_DIG 0 31 16 s
    if a = b then s
    else
      let s := if bit (rg TWN_CAUSE 0 s) 4 then s else setRg TWN_DIG_STEP 0 (w32 n) s
      setCause TWN_CAUSE 0 4 (bump TWN_CNT_DIG 0 15 0 s)
  | _, _ => s

/-- RESEND_REQUEST (R358): the inputs asked for are sent again; a standby that no longer holds one isolates itself. -/
def resendRequest (first count : Word) (s : State) : State :=
  if ¬ twinOn s then s
  else
    let found := s.twn.resend.filter fun x => decide ((x.seq - first).toNat < count.toNat)
    let s := forEach found
      (fun x s => twinSend 4 x.step x.seq.toNat (beBytes 1 x.kind ++ [0, 0, 0] ++ x.body) s) s
    if found.length < count.toNat ∧ s.twn.state = .standby then setCause TWN_CAUSE 0 5 (isolate s) else s
def execResendRequest (first count : Word) (s : State) : Out := .next (resendRequest first count s)

/-! ### The copy to a rejoining peer (R370)

Memory is copied by device address. Road states, frozen history positions and placement slots have none, and the manual
gives them no place in a type-8 frame; they stand at addresses beyond the 40-bit space (log entry 83). -/

abbrev syncRoads : Nat := 2 ^ 40
abbrev syncSlots : Nat := 2 ^ 40 + 64
abbrev syncFrozen : Nat := 2 ^ 41

/-- The roads whose state is copied. -/
def syncedRoads (s : State) : List Nat := (List.range 64).filter fun n => decide (2 ≤ roadKind n s ∧ roadKind n s ≤ 5)

/-- The memory ranges of the image's twin section. -/
def twinRanges (s : State) : List (Nat × Nat) :=
  s.img.resident.flatMap fun x =>
    (x.records.filter fun r => r.1 = tagRange).flatMap fun r =>
      (itemsOf 12 r.2).map fun b => (leAt b 0 8, leAt b 8 4)

/-- The memory that is copied: lanes, districts, histories and the image's ranges, as address and length. -/
def syncRanges (s : State) : List (Nat × Nat) :=
  [(laneBase, 1024 * 0x10000), (districtBase, 64 * 0x80000)]
    ++ (syncedRoads s).map (fun n => (histAddr n 0, 98304)) ++ twinRanges s

/-- Pieces of a range of `len` bytes. -/
def piecesOf (len : Nat) : Nat := (len + 1023) / 1024

/-- The n-th piece of the ranges: at most 1,024 bytes. -/
def pieceAt : Nat → List (Nat × Nat) → Option (Nat × Nat)
  | _, [] => none
  | n, (a, len) :: t =>
    if n < piecesOf len then some (a + 1024 * n, min 1024 (len - 1024 * n)) else pieceAt (n - piecesOf len) t

/-- A road's state as it is copied, in network byte order. -/
def roadSync (n : Nat) (s : State) : Bytes :=
  let r := road n s
  beBytes 1 r.state.code ++ beBytes 1 (b2n r.initPending + 2 * b2n r.appliedSince + 4 * b2n r.lastSeq.isSome)
    ++ beBytes 2 (r.lastSeq.getD 0).toNat ++ beBytes 4 r.tS.toNat ++ beBytes 8 r.p.toNat ++ beBytes 6 r.v.toNat
    ++ beBytes 4 r.a.toNat ++ beBytes 6 r.pub.toNat ++ beBytes 6 r.pubRate.toNat ++ beBytes 6 r.prev.toNat
    ++ beBytes 6 r.stepPos.toNat ++ beBytes 4 r.entered.toNat ++ beBytes 4 r.lastTime.toNat ++ beBytes 4 r.horizon
    ++ beBytes 4 (rg ROA_STATE n s).toNat ++ beBytes 4 (rg ROA_HIST n s).toNat

/-- Take a copied road state. -/
def takeRoadSync (n : Nat) (b : Bytes) (s : State) : State :=
  let r := { road n s with
    state := (RoadState.ofCode (beAt b 0 1)).getD .idle, initPending := decide (beAt b 1 1 % 2 = 1),
    appliedSince := decide (beAt b 1 1 / 2 % 2 = 1),
    lastSeq := if beAt b 1 1 / 4 % 2 = 1 then some (BitVec.ofNat 16 (beAt b 2 2)) else none,
    tS := w32 (beAt b 4 4), p := BitVec.ofNat 64 (beAt b 8 8), v := BitVec.ofNat 48 (beAt b 16 6),
    a := BitVec.ofNat 32 (beAt b 22 4), pub := BitVec.ofNat 48 (beAt b 26 6), pubRate := BitVec.ofNat 48 (beAt b 32 6),
    prev := BitVec.ofNat 48 (beAt b 38 6), stepPos := BitVec.ofNat 48 (beAt b 44 6), entered := w32 (beAt b 50 4),
    lastTime := w32 (beAt b 54 4), horizon := beAt b 58 4 }
  setRg ROA_HIST n (w32 (beAt b 66 4)) (setRg ROA_STATE n (w32 (beAt b 62 4)) (setRoad n r s))

/-- A placement slot as it is copied, in network byte order. -/
def slotSync (n : Nat) (s : State) : Bytes :=
  let r := slotRun n s
  beBytes 4 (rg MST_PLC_CUR n s).toNat ++ beBytes 4 (rg MST_PLC_NEXT n s).toNat ++ beBytes 4 (rg MST_PLC_RX n s).toNat
    ++ beBytes 2 r.seq.toNat ++ beBytes 2 r.oldSeq.toNat ++ beBytes 1 r.oldGen.toNat ++ beBytes 1 (b2n r.rxHi.isSome)
    ++ beBytes 2 (r.rxHi.getD 0).toNat ++ beBytes 8 r.rxSeen.toNat

/-- Take a copied placement slot. -/
def takeSlotSync (n : Nat) (b : Bytes) (s : State) : State :=
  let r := { slotRun n s with
    seq := BitVec.ofNat 16 (beAt b 12 2), oldSeq := BitVec.ofNat 16 (beAt b 14 2), oldGen := BitVec.ofNat 8 (beAt b 16 1),
    rxHi := if beAt b 17 1 = 1 then some (BitVec.ofNat 16 (beAt b 18 2)) else none,
    rxSeen := BitVec.ofNat 64 (beAt b 20 8) }
  setRg MST_PLC_RX n (w32 (beAt b 8 4)) (setRg MST_PLC_NEXT n (w32 (beAt b 4 4))
    (setRg MST_PLC_CUR n (w32 (beAt b 0 4)) (setSlotRun n r s)))

/-- What is copied besides memory: an address and bytes for each. -/
def syncRecords (s : State) : List (Nat × Bytes) :=
  let rs := syncedRoads s
  rs.map (fun n => (syncRoads + n, roadSync n s))
    ++ (s.frozen.filter fun x => rs.contains (x.1 / 4096)).map (fun x => (syncFrozen + x.1, beBytes 6 x.2.toNat))
    ++ (List.range 512).map (fun n => (syncSlots + n, slotSync n s))

/-- Body of the n-th sync frame of the copy: memory first. -/
def syncBody (n : Nat) (s : State) : Option Bytes :=
  let rs := syncRanges s
  match pieceAt n rs with
  | some (a, len) => some (beBytes 8 a ++ rdBytes a len s)
  | none => ((syncRecords s)[n - (rs.map fun x => piecesOf x.2).sum]?).map fun x => beBytes 8 x.1 ++ x.2

/-- A sync frame takes effect on a rejoining unit (R355, R370). -/
def takeSync (step : Nat) (body : Bytes) (s : State) : State :=
  let a := beAt body 0 8
  let d := body.drop 8
  let r := regionOf a s
  let s := { s with twn := { s.twn with syncStep := step } }
  if s.twn.state ≠ .rejoining then s
  else if syncFrozen ≤ a then { s with frozen := sset 0 (a - syncFrozen) (BitVec.ofNat 48 (beAt d 0 6)) s.frozen }
  else if syncSlots ≤ a then onlyIf (decide (a < syncSlots + 512)) (takeSlotSync (a - syncSlots) d) s
  else if syncRoads ≤ a then takeRoadSync (a - syncRoads) d s
  else if r ≠ .none ∧ r ≠ .resident ∧ r ≠ .junctionBuffer ∧ regionOf (a + d.length - 1) s = r then wrBytes a d s
  else s

/-- TWIN_INPUT_RECEIVE: a marker, input, close, resend request, digest or sync frame from the peer (R355). -/
def twinInputReceive (kind : BitVec 8) (rank : BitVec 8) (step seq : Word) (body : Bytes) (s : State) : State :=
  if ¬ twinOn s then s
  else
    match kind.toNat with
    | 3 =>
      if s.twn.state = .standby ∨ s.twn.state = .isolated ∨ s.twn.state = .rejoining ∨ s.twn.paired then
        -- a unit that has just been paired counts steps as its active peer does
        let s := if s.twn.paired then
            setStep (step.toNat - 1) (setTwinState .standby { s with twn :=
              { s.twn with paired := false, lastMarker := step.toNat - 1 } })
          else s
        if s.twn.lastMarker < step.toNat then takeBoundary step.toNat (w32 (beAt body 0 4)) s else s
      else s
    | 4 => takeInput { step := step.toNat, rank := rank.toNat, seq := seq, kind := beAt body 0 1, body := body.drop 4 } s
    | 5 => takeClose step.toNat (beAt body 0 4) s
    | 6 => resendRequest (w32 (beAt body 0 4)) (w32 (beAt body 4 4)) s
    | 7 =>
      compareDigest step.toNat
        { s with twn := { s.twn with peerDigest := sset none step.toNat (some (w32 (beAt body 0 4))) s.twn.peerDigest } }
    | 8 => takeSync step.toNat body s
    | 1 | 2 => s
    | _ => bump TWN_CNT_HB 0 7 0 s
def execTwinInputReceive (kind : BitVec 8) (rank : BitVec 8) (step seq : Word) (body : Bytes) (s : State) : Out :=
  .next (twinInputReceive kind rank step seq body s)

/-- The lowest step whose next marker is held and whose close is still to be sent. -/
def closeDue (s : State) : Option Nat :=
  ((s.twn.markers.map fun m => m.1 - 1).filter fun n => (sget none n s.twn.ownClose).isNone && decide (s.stp.step ≤ n)).head?

/-- CLOSE_SEND (R358). -/
def closeSend (s : State) : State :=
  if ¬ twinOn s ∨ ¬ stepMode s then s
  else
    match closeDue s with
    | none => s
    | some n =>
      let k := (s.twn.inputs.filter fun x => x.step = n ∧ x.rank = twinRank s).length
      noteStall (twinSend 5 n 0 (beBytes 4 k)
        { s with twn := { s.twn with ownClose := sset none n (some k) s.twn.ownClose } })
def execCloseSend (s : State) : Out := .next (closeSend s)

/-! ### Claim echoes (R364-R366) -/

/-- CLAIM_ECHO: the echo run of an active unit (R365). -/
def claimEcho (payload : Bytes) (s : State) : State :=
  if ¬ twinOn s ∨ s.twn.state ≠ .active then s
  else
    let h := w32 (beAt payload 0 4)
    if h = claimNumber s then setRgF TWN_STAT 0 23 20 0 s
    else if claimNumber s < h then
      let run := rgF TWN_STAT 0 23 20 s + 1
      if run < 8 then setRgF TWN_STAT 0 23 20 run s
      else
        -- a takeover on the same edge prevails (R371)
        let s := setRgF TWN_STAT 0 23 20 0 s
        if s.twn.tookOver = some s.mp.tclk then s
        else demote { s with twn := { s.twn with echoed := some s.mp.tclk } }
    else s
def execClaimEcho (payload : Bytes) (s : State) : Out := .next (claimEcho payload s)

/-- OUTPUT_STAGE_ECHO_TIMER (R366). -/
def outputStageEchoTimer (s : State) : State :=
  if bit (rg TWN_CFG 0 s) 29 ∧ ¬ inReset 208 s then
    forEach ((List.range 16).filter fun g => bit (rg TWN_OS_STAT g s) 31) sendEchoes s
  else s
def execOutputStageEchoTimer (s : State) : Out := .next (outputStageEchoTimer s)

/-! ### Rejoining (R370) -/

/-- TWN_CTRL_REJOIN. -/
def twnCtrlRejoin (path : Nat) (value : Word) (s : State) : State :=
  atGlobal path TWN_CTRL (fun s => if bit value 0 ∧ s.twn.state = .isolated then startRejoin s else s) s
def execTwnCtrlRejoin (path : Path) (value : Word) (s : State) : Out := .next (twnCtrlRejoin path value s)

/-- REJOIN_AUTO. -/
def rejoinAuto (s : State) : State :=
  if twinOn s ∧ s.twn.state = .isolated ∧ bit (rg TWN_CFG 0 s) 28 ∧ 100 ≤ s.twn.linkSeen
      ∧ rgF TWN_CAUSE 0 5 3 s = 0 then startRejoin s
  else s
def execRejoinAuto (s : State) : Out := .next (rejoinAuto s)

/-- The active unit stands at the boundary at which it copies: the marker is held and the jobs have ended (R370). -/
def atBoundary (s : State) : Bool := s.twn.markers.any (fun m => m.1 = s.stp.step + 1) && jobsEnded s

/-- REJOIN_COPY_DONE: the active unit sends the next frame of the copy, and once none is left goes on with its peer; the
rejoining unit becomes standby. -/
def rejoinCopyDone (s : State) : State :=
  if ¬ twinOn s then s
  else if s.twn.state = .active ∧ s.twn.copying then
    match syncBody s.twn.syncNext s with
    | some body =>
      if atBoundary s then
        twinSend 8 s.stp.step 0 body { s with twn := { s.twn with syncNext := s.twn.syncNext + 1 } }
      else s
    | none => noteStall { s with twn := { s.twn with copying := false, syncNext := 0, alone := false } }
  else if s.twn.state = .active ∧ s.twn.alone then
    noteStall { s with twn := { s.twn with alone := false } }
  else if s.twn.state = .rejoining then
    -- the sync frames carry the step at whose boundary the copy was taken
    let n := s.twn.syncStep
    let tb := match s.twn.markers.find? fun m => m.1 = n with
      | some m => m.2
      | none => s.twn.lastTb
    let s := { s with stp := { s.stp with step := n, tb := tb, delivered := [], stalled := false } }
    let s := { s with twn := { s.twn with markers := s.twn.markers.filter fun m => decide (n < m.1),
                                          inputs := s.twn.inputs.filter fun x => decide (n ≤ x.step) } }
    setCause TWN_CAUSE 0 8 (setTwinState .standby (setRg LNC_STEP 0 (w32 n) s))
  else s
def execRejoinCopyDone (s : State) : Out := .next (rejoinCopyDone s)

end Sys2Proof.Machine
end

