-- ==== Sys2Proof/Machine/Faults.lean ====
section
/-! DEFINITION. The fault collector's reactions, SAFE_n, isolation and event frames (R326-R335). -/

set_option Elab.async false

namespace Sys2Proof.Machine

open Sys2Proof

/-! ### Forcing (R326, R328) -/

/-- FLT_G_FORCE_WRITE: each force bit that goes from 0 to 1 makes a forced occurrence, in ascending source number. -/
def fltGForceWrite (path : Nat) (value : Word) (s : State) : State :=
  atInst path FLT_G_FORCE (fun g s =>
    let old := rg FLT_G_FORCE g s
    forceRises g old (setRg FLT_G_FORCE g value (noteHeld FLT_G_FORCE g s))) s
def execFltGForceWrite (path : Path) (value : Word) (s : State) : Out := .next (fltGForceWrite path value s)

/-- Clear sticky bits of a group; a forced source's bit is set again (R326). -/
def stickyClear (g : Nat) (value : Word) (s : State) : State :=
  setRg FLT_G_STICKY g ((rg FLT_G_STICKY g s &&& ~~~value) ||| rg FLT_G_FORCE g s) s

/-! ### SAFE_n (R332) -/

/-- The safe state is asserted: SAFE_n low, and the safe frames when the state was 0. -/
def assertSafe (ans : MemAnswer) (s : State) : State :=
  let was := rgF FLT_SAFE_CTRL 0 0 0 s
  let s := setRgF FLT_SAFE_CTRL 0 0 0 1 { s with flt := { s.flt with safeLow := true } }
  if was = 1 then s
  else
    let first := rgF FLT_SAFE_CFG 0 11 0 s
    forEach ((List.range (rgF FLT_SAFE_CFG 0 19 16 s)).map fun i => first + i)
      (fun k s => if 4095 < k then refuseAction s else triggerFrame k ans s) s

/-- A full load holds SAFE_n low with state 1 and injects nothing. -/
def loadSafe (s : State) : State :=
  setRgF FLT_SAFE_CTRL 0 0 0 1 { s with flt := { s.flt with safeLow := true } }

/-- The reaction class that a source has now. -/
def classNow (src : Nat) (s : State) : Nat :=
  rgF (FLT_G_CLS + 4 * (src % 32 / 8)) (src / 32) (4 * (src % 8) + 3) (4 * (src % 8)) s

/-- A source remains that keeps the outputs safe: sticky, unmasked, and of a class with the safe-outputs action. -/
def safePending (s : State) : Bool :=
  (List.range 64).any fun g =>
    groupSum g s && (List.range 32).any fun b =>
      bit (rg FLT_G_STICKY g s) b && !bit (rg FLT_G_MASK g s) b && bit (rg FLT_CLS_ACT (classNow (32 * g + b) s) s) 0

/-- FLT_SAFE_RELEASE. SAFE_n stays low until a full load has completed: a release before that is refused. DESIGN CHOICE: it is
counted too, as R332 counts the release that falls within a load. -/
def fltSafeRelease (path : Nat) (value : Word) (s : State) : State :=
  atGlobal path FLT_SAFE_CTRL (fun s =>
    if ¬ bit value 31 then s
    else if safePending s ∨ s.sys.phase ≠ .running then bump FLT_SAFE_CTRL 0 15 8 s
    else setRgF FLT_SAFE_CTRL 0 0 0 0 { s with flt := { s.flt with safeLow := false } }) s
def execFltSafeRelease (path : Path) (value : Word) (s : State) : Out := .next (fltSafeRelease path value s)

/-! ### Isolation (R333) -/

/-- Isolate a port. -/
def isolatePort (p : Nat) (s : State) : State :=
  setRg (FLT_ISO + 4 * (p / 32)) 0 (setBit (rg (FLT_ISO + 4 * (p / 32)) 0 s) (p % 32) true) s

/-- FLT_ISO_CLEAR. -/
def fltIsoClear (path index : Nat) (value : Word) (s : State) : State :=
  atGlobal path (FLT_ISO + 4 * index)
    (fun s => setRg (FLT_ISO + 4 * index) 0 (rg (FLT_ISO + 4 * index) 0 s &&& ~~~value) s) s
def execFltIsoClear (path : Path) (index : Fin 5) (value : Word) (s : State) : Out :=
  .next (fltIsoClear path index value s)

/-! ### Event frames (R335) -/

/-- Payload of an event frame. -/
def eventPayload (o : Occurrence) (suppressed : Bool) (missed : Word) : Bytes :=
  beBytes 2 o.src ++ beBytes 1 o.cls ++ beBytes 1 (b2n o.forced + 2 * b2n suppressed + 4 * b2n o.overflow)
    ++ beBytes 4 o.time.toNat ++ beBytes 4 missed.toNat ++ beBytes 4 o.count.toNat

/-- An event frame to a session, or one more withheld from it. -/
def eventFrame (n : Nat) (o : Occurrence) (suppressed : Bool) (s : State) : State :=
  let left := sget 16 n s.flt.budget
  let missed := sget 0 n s.flt.missed
  let r := if left = 0 then (s, false) else wpUnsolicited n wpEvent (eventPayload o suppressed missed) s
  let s := r.1
  if r.2 then
    bump (FLT_EVT_S + 4 * n) 0 31 16
      { s with flt := { s.flt with budget := sset 16 n (left - 1) s.flt.budget, missed := sset 0 n 0 s.flt.missed } }
  else
    bump (FLT_EVT_S + 4 * n) 0 15 0 { s with flt := { s.flt with missed := sset 0 n (missed + 1) s.flt.missed } }

/-- EVENT_BUDGET_TICK. -/
def eventBudgetTick (s : State) : State :=
  forEach (List.range 4)
    (fun n s => { s with flt := { s.flt with budget := sset 16 n (min 16 (sget 16 n s.flt.budget + 1)) s.flt.budget } }) s
def execEventBudgetTick (s : State) : Out := .next (eventBudgetTick s)

/-! ### Reactions (R327, R329, R330) -/

/-- The port that owns a source of groups 0-17. -/
def sourcePort (src : Nat) : Nat := if src < 512 then src / 4 else 128 + (src - 512) / 16

/-- The function that owns a source of groups 0-25. -/
def sourceFunction (src : Nat) : Nat := if src < 576 then sourcePort src else 132 + (src - 576) / 4

/-- Districts that the halt action reaches. -/
def haltSet (o : Occurrence) (s : State) : List Nat :=
  (List.range 64).filter fun d =>
    (decide (576 ≤ o.src ∧ o.src < 832) && d == (o.src - 576) / 4)
      || bit (rg (FLT_CLS_DMASK_LO + 4 * (d / 32)) o.cls s) (d % 32)

/-- Function that the reset action names; 215 and above name none. -/
def resetTarget (o : Occurrence) (s : State) : Nat :=
  let f := rgF FLT_CLS_ACT o.cls 23 16 s
  if f = 255 then (if o.src < 832 then sourceFunction o.src else 255) else f

/-- The external actions, in order. -/
def externalActions (o : Occurrence) (ans : MemAnswer) (s : State) : State :=
  let a := rg FLT_CLS_ACT o.cls s
  let s := onlyIf (bit a 0) (assertSafe ans) s
  let s := onlyIf (bit a 1 && decide (o.src < 576)) (isolatePort (sourcePort o.src)) s
  let s := onlyIf (bit a 2) (forEach (haltSet o s) districtHalt) s
  let f := resetTarget o s
  let s := onlyIf (bit a 3) (if 132 ≤ f ∧ f < 196 then districtReset (f - 132) else startReset f) s
  onlyIf (bit a 4) demotionAction s

/-- The reporting actions, in order. -/
def reportingActions (o : Occurrence) (suppressed : Bool) (s : State) : State :=
  let a := rg FLT_CLS_ACT o.cls s
  let s := onlyIf (bit a 5) (fun s => (journalIntake (alarmRecord o o.cls suppressed) s).1) s
  let s := onlyIf (bit a 6) (fun s => { s with flt := { s.flt with notified := s.flt.notified ++ [o] } }) s
  onlyIf (bit a 7)
    (forEach ((List.range 4).filter fun n => bit a (8 + n)) (fun n => eventFrame n o suppressed)) s

/-- A rehearsal suppresses the external actions of a forced occurrence, unless the class is marked safety (R330). -/
def rehearsed (o : Occurrence) (s : State) : Bool :=
  o.forced && bit (rg FLT_CLS_ACT o.cls s) 31 && !bit (rg FLT_CLS_ACT o.cls s) 30

/-- When the queue has room, the noted occurrences enter it in ascending class order (R327). -/
def refillQueue (s : State) : State :=
  forEach (List.range 16)
    (fun c s =>
      match sget none c s.flt.noted with
      | some o =>
        if s.flt.queue.length < 256 then
          setRgF FLT_CLS_CNT c 0 0 0 { s with flt :=
            { s.flt with queue := s.flt.queue ++ [{ o with overflow := true }], noted := sset none c none s.flt.noted } }
        else s
      | none => s) s

/-- The external half of serving an occurrence, done once. -/
def beginReaction (o : Occurrence) (ans : MemAnswer) (s : State) : State :=
  let s := bump FLT_CLS_CNT o.cls 31 16 s
  let s := if rehearsed o s then bump FLT_CLS_CNT o.cls 15 1 s else externalActions o ans s
  { s with flt := { s.flt with begun := true } }

/-- REACTION_SERVE: the head occurrence acts; its journal alarm waits while function 207 is in reset (R349). -/
def reactionServe (ans : MemAnswer) (s : State) : State :=
  match s.flt.queue with
  | [] => s
  | o :: _ =>
    let quiet := rehearsed o s
    let s := if s.flt.begun then s else beginReaction o ans s
    if bit (rg FLT_CLS_ACT o.cls s) 5 ∧ inReset 207 s then s
    else
      let s := { s with flt := { s.flt with queue := s.flt.queue.tail, begun := false } }
      refillQueue (reportingActions o quiet s)
def execReactionServe (ans : MemAnswer) (s : State) : Out := .next (reactionServe ans s)

end Sys2Proof.Machine
end

