-- ==== Sys2Proof/Machine/ImageCheck.lean ====
section
/-! DEFINITION. The loader's checks in the order of their codes (R425), and the rules of other chapters that they make
(R14-R18, R68, R87, R170, R219, R252, R265, R278, R296, R337, R375, R378, R420, R429). No check writes anything: the
configuration that an image would give is formed on a copy of the reset state. -/

set_option Elab.async false

namespace Sys2Proof.Machine

open Sys2Proof

/-- A failed check: refusal code, section type, and table index (IMG_LAST). -/
structure ImgRefusal where
  code : Nat
  type : Nat := 0
  index : Nat := 0
deriving DecidableEq, Repr

/-- The refusal of code `c` at section (t, i) of an image; the header stands for a section that the image lacks. -/
def refuseAt (b : Bytes) (c t i : Nat) : ImgRefusal :=
  match (List.range (hdrSections b)).find? fun k => (tableEntry b k).type == t && (tableEntry b k).instNo == i with
  | some k => { code := c, type := t, index := k }
  | none => { code := c }

/-- The first section of a list that fails a test, as a refusal. -/
def firstBad (b : Bytes) (c : Nat) (f : ImgSection → Bool) (xs : List ImgSection) : Option ImgRefusal :=
  (xs.find? f).map fun x => refuseAt b c x.type x.instNo

/-! ### The configuration after application (R426) -/

/-- Order of sections: ascending type and instance. -/
def sectionLe (x y : ImgSection) : Bool := decide (x.type < y.type) || (x.type == y.type && decide (x.instNo ≤ y.instNo))

def insertSection (x : ImgSection) : List ImgSection → List ImgSection
  | [] => [x]
  | y :: t => if sectionLe x y then x :: y :: t else y :: insertSection x t

/-- The resident copy once a partial image's sections have replaced theirs. -/
def mergeSections (old new : List ImgSection) : List ImgSection :=
  let kept := old.filter fun x => !(new.any fun y => y.type = x.type ∧ y.instNo = x.instNo)
  new.foldl (fun l x => insertSection x l) kept

/-- The sections in force once the image is applied. -/
def sectionsAfter (b : Bytes) (s : State) : List ImgSection :=
  if hdrKind b = kindPartial then mergeSections s.img.resident (sectionsOf b) else sectionsOf b

/-- What a configuration makes of the reset state: every section but lane and district memory, memory and worker images. -/
def configured (xs : List ImgSection) : State :=
  forEach (xs.filter fun x => x.type ≠ 11 ∧ x.type ≠ 21 ∧ x.type ≠ 23) applySection (applyDevice xs State.reset)

/-! ### Codes 7 and 8 -/

/-- Code 7: the section table. -/
def tableRefusal (b : Bytes) : Option ImgRefusal :=
  let n := hdrSections b
  let ts := tableOf b
  if n = 0 ∨ 512 < n ∨ hdrSigned b < 256 + 16 * n then some { code := 7 }
  else
    match (List.range n).find? fun i =>
        entryBad b i || (List.range i).any fun j => overlaps (tableEntry b j) (tableEntry b i) with
    | some i => some { code := 7, type := (tableEntry b i).type, index := i }
    | none => if kindNeeds (hdrKind b) ts && gapsZero b ts then none else some { code := 7 }

/-- Code 7: a partial image holds worker images on a manager only (R416). -/
def workerRefusal (b : Bytes) (s : State) : Option ImgRefusal :=
  if hdrKind b ≠ kindPartial ∨ rgF HIE_CFG 0 31 30 s = 1 then none
  else ((List.range (hdrSections b)).find? fun i => (tableEntry b i).type == 23).map fun i =>
    { code := 7, type := 23, index := i }

/-- A section's body is not a run of records, or one of its records breaks R418. -/
def sectionBad (personality : Nat) (e : TableEntry) (raw : Bytes) : Bool :=
  e.type != 23 &&
    match recordsOf (raw.length + 1) raw with
    | none => true
    | some rs =>
      rs.any (fun r => imageRecordBad e.type e.instNo personality r.1 r.2
        || (r.1 == tagEvline && (itemsOf 12 r.2).any fun x => decide (512 ≤ leAt x 0 4))
        || (r.1 == tagPlace && (itemsOf 12 r.2).any fun x => decide (512 ≤ leAt x 0 4))
        || (r.1 == tagSubmap && (itemsOf 4 r.2).any fun x => decide (132 ≤ leAt x 0 1 ∨ 200 ≤ leAt x 1 1)))
        || (e.type == 1 && decide ((rs.filter fun r => r.1 = tagDevice).length ≠ 1))

/-- Code 8: the records. -/
def recordRefusal (b : Bytes) : Option ImgRefusal :=
  ((List.range (hdrSections b)).find? fun i =>
      sectionBad (hdrPersonality b) (tableEntry b i) (slice b (tableEntry b i).off (tableEntry b i).len)).map
    fun i => { code := 8, type := (tableEntry b i).type, index := i }

/-! ### Codes 9 and 10 -/

/-- Code 9: a partial image that does not belong on the running configuration, or a bundle on a device that runs as a
worker. DEDUCED: a worker is loaded with a kind-0 image (R384, R429). -/
def kindRefusal (b : Bytes) (s : State) : Option ImgRefusal :=
  if hdrKind b = kindBundle ∧ s.sys.phase = .running ∧ rgF HIE_CFG 0 31 30 s = 2 then some { code := 9 }
  else if hdrKind b = kindPartial
      ∧ (s.sys.phase ≠ .running ∨ hdrBase b ≠ (rg IMG_ID_HI 0 s).toNat * 2 ^ 32 + (rg IMG_ID_LO 0 s).toNat) then
    some { code := 9 }
  else none

/-- Code 10: another personality (R17). -/
def personalityRefusal (b : Bytes) (s : State) : Option ImgRefusal :=
  if hdrKind b = kindPartial ∧ hdrPersonality b ≠ rgF IMG_STAT 0 24 24 s then some { code := 10 } else none

/-! ### Code 11: fittings (R170, R420) -/

/-- A mode matches its fitting: 0 none, 1 transformer, 2 direct; modes 0 T1L, 1 T1S, 2 serial, 3 off. -/
def fittingOk (fitting mode : Nat) : Bool :=
  match fitting with
  | 0 => mode == 3
  | 1 => mode != 2
  | 2 => mode != 0
  | _ => false

/-- The 256-byte fitting table of a configuration. -/
def fittingTable (c : State) : Bytes :=
  (List.range 128).flatMap fun p => [BitVec.ofNat 8 (rgF FPA_PORT_CFG p 3 2 c), BitVec.ofNat 8 (rgF FPA_PORT_CFG p 4 4 c)]

def fittingRefusal (b : Bytes) (xs : List ImgSection) (c s : State) : Option ImgRefusal :=
  match firstBad b 11 (fun x => x.type == 2 && decide (x.instNo < 128)
      && !fittingOk (rgF FPA_PORT_CFG x.instNo 3 2 c) (rgF FPA_PORT_CFG x.instNo 1 0 c)) xs with
  | some r => some r
  | none =>
    if sha384 (fittingTable c) ≠ hdrDigest b then some { code := 11 }
    else
      match s.img.boardDigest with
      | some d => if d = hdrDigest b then none else some { code := 11 }
      | none => none

/-! ### Codes 12 and 17: trunk roles and hierarchy (R14, R15, R375, R378, R429) -/

/-- Streams whose configuration an image states. -/
def statedStreams (c : State) : List Nat := listedInsts FRE_STR_CFG c.regs

/-- The number of hierarchy trunks agrees with the role and the topology (R378). -/
def hierarchyTrunksOk (role topology n : Nat) : Bool :=
  if role = 0 then n == 0
  else if topology = 0 then n == 1
  else if topology = 1 then n == 1 || (role == 2 && n == 2)
  else n == 2

/-- Code 12. -/
def roleRefusal (b : Bytes) (xs : List ImgSection) (c : State) : Option ImgRefusal :=
  let count (r : Nat) := (trunksOf r c).length
  let role := devRole xs
  if count roleTwin ≠ b2n (devTwin xs) ∨ (if role = 2 then count roleUplink ≠ 0 else count roleUplink = 0)
      ∨ ¬ hierarchyTrunksOk role (devTopology xs) (count roleHierarchy) then some (refuseAt b 12 1 0)
  else if (statedStreams c).any fun n => genEn n c
      && !(trunkRole (trunkA n c - 128) c == roleUplink && trunkRole (trunkB n c - 128) c == roleUplink) then
    some (refuseAt b 12 5 0)
  else none

/-- Worker numbers of the worker table. -/
def workerNumbers (xs : List ImgSection) : List Nat :=
  (xs.filter fun x => x.type = 17).flatMap fun x =>
    (x.records.filter fun r => r.1 = tagWorker).flatMap fun r => (itemsOf 16 r.2).map fun v => leAt v 0 1

def distinct : List Nat → Bool
  | [] => true
  | a :: t => !t.contains a && distinct t

/-- A type-23 body is a kind-0 image for this part whose DEVICE record names the worker (R429). The manager checks no more:
DESIGN CHOICE: of the steppings it asks only that one is named, as it does not know the worker's. -/
def workerBodyOk (n : Nat) (body : Bytes) : Bool :=
  !headerBad body && hdrPart body == 0x8128 && hdrSteppings body != 0 && hdrKind body == kindFull
    && devWorker (sectionsOf body) == n

/-- Hierarchy trunks that the DEVICE record of an image gives its device. -/
def hierarchyTrunks (xs : List ImgSection) : Nat := (trunksOf roleHierarchy (applyDevice xs State.reset)).length

/-- The workers of a manager agree with its topology (R378): each names the same one, and has the trunks that it needs; in a
chain one worker, the last, has one trunk. -/
def workersAgree (topology : Nat) (bodies : List ImgSection) : Bool :=
  let ws := bodies.map fun x => sectionsOf x.raw
  ws.all (fun w => devTopology w == topology && hierarchyTrunksOk 2 topology (hierarchyTrunks w))
    && (topology != 1 || ws.isEmpty || (ws.filter fun w => hierarchyTrunks w == 1).length == 1)

/-- Code 17. -/
def hierarchyRefusal (b : Bytes) (xs : List ImgSection) : Option ImgRefusal :=
  let role := devRole xs
  let ws := workerNumbers xs
  let bodies := xs.filter fun x => x.type = 23
  if (role = 2 ∧ (ws ≠ [] ∨ devWorker xs < 1 ∨ 15 < devWorker xs)) ∨ (role ≠ 2 ∧ devWorker xs ≠ 0)
      ∨ (hdrKind b = kindFull ∧ role = 1) ∨ (hdrKind b = kindBundle ∧ role ≠ 1) then some (refuseAt b 17 1 0)
  else if ws.any (fun n => decide (n < 1 ∨ 15 < n)) ∨ ¬ distinct ws
      ∨ (role = 1 ∧ ws.any fun n => !(bodies.any fun x => x.instNo = n)) then some (refuseAt b 17 17 0)
  else
    match firstBad b 17 (fun x => !ws.contains x.instNo || !workerBodyOk x.instNo x.raw) bodies with
    | some r => some r
    | none => if role = 1 ∧ ¬ workersAgree (devTopology xs) bodies then some (refuseAt b 17 17 0) else none

/-! ### Codes 13 to 16 -/

/-- Code 13: the buffer layout and the table entries (R219, R236). -/
def junctionRefusal (b : Bytes) (xs : List ImgSection) (c : State) : Option ImgRefusal :=
  let itemBad (v : Bytes) : Bool :=
    decide (tblSize (leAt v 0 1) ≤ leAt v 4 4) || decide (3 < leAt v 0 1)
      || (leAt v 0 1 == 2 && ruleUndefined (tblOf fun k => w32 (leAt v (8 + 4 * k) 4)))
  if telePool c < 4096 then some (refuseAt b 13 3 0)
  else firstBad b 13 (fun x => x.records.any fun r => r.1 == tagTable && (itemsOf 40 r.2).any itemBad) xs

/-- Code 14: gate lists (R252). -/
def gateRefusal (b : Bytes) (xs : List ImgSection) (c : State) : Option ImgRefusal :=
  let listBad (p : Nat) : Bool :=
    let l := adminList p c
    gateListBad l.form (gclCount p c) l.fallbackNs l.minNs l.cycle.toNat (decide (128 ≤ p)) l.entries
  let recBad (v : Bytes) : Bool :=
    decide (132 ≤ leAt v 0 1) || (leAt v 1 1 != 0 && decide (256 < leAt v 4 2)) || listBad (leAt v 0 1)
  firstBad b 14 (fun x => (x.records.any fun r => r.1 == tagGcl && recBad r.2)
    || (x.type == 4 && (listedInsts TPK_GCL_CFG c.regs).any listBad)) xs

/-- The key of a stream that binds by internal key. -/
def streamKey (n : Nat) (c : State) : Option (Nat × Nat × Nat) :=
  let v := rg FRE_STR_CFG n c
  if bit v 27 then some (fld v 15 8, fld v 23 22, fld v 2 0) else none

/-- Code 15: replication streams (R265). -/
def replicationRefusal (b : Bytes) (c : State) : Option ImgRefusal :=
  let ruleBad (e : BitVec 256) : Bool :=
    bit e 255 && bit e 175 && !genEn (fld e 169 160) c && !recEn (fld e 169 160) c
  let ns := statedStreams c
  if c.jct.rules.any fun e => ruleBad e.2 then some (refuseAt b 15 3 0)
  else if ns.any fun n => (genEn n c && trunkA n c == trunkB n c)
      || ns.any fun m => decide (m < n) && (streamKey n c).isSome && streamKey n c == streamKey m c then
    some (refuseAt b 15 5 0)
  else none

/-- Code 16: the journal layout (R337), when the configuration has a journal section, and the ports of the drain paths
(R343). -/
def journalRefusal (b : Bytes) (xs : List ImgSection) (c s : State) : Option ImgRefusal :=
  let base := base40 JNL_BASE_LO JNL_BASE_HI 0 c
  let off (k : Nat) := rgF JNL_C_LAYOUT k 30 16 c
  let size (k : Nat) := rgF JNL_C_LAYOUT k 14 0 c
  let total := size 0 + size 1 + size 2
  let ddr (a : Nat) : Bool := regionOf a s == .ddrA || regionOf a s == .ddrB
  let placed (k : Nat) : Bool :=
    let a := base + off k * 2 ^ 20
    let z := a + size k * 2 ^ 20 - 1
    ddr a && ddr z && adjoin (regionOf a s) (regionOf z s) s
  let meet (j k : Nat) : Bool := decide (off j < off k + size k ∧ off k < off j + size j)
  let pathBad (p : Nat) : Bool :=
    let port := rgF JNL_P_PORT p 7 0 c
    bit (rg JNL_P_CFG p c) 31 && !(decide (128 ≤ port ∧ port < 132) || isSerial port c)
  if (List.range 4).any pathBad then some (refuseAt b 16 15 0)
  else if (xs.any fun x => x.type = 15)
      ∧ (size 0 < 1 ∨ size 1 < 1 ∨ size 2 < 1 ∨ meet 0 1 ∨ meet 0 2 ∨ meet 1 2 ∨ total < 256 ∨ 16384 < total
        ∨ ¬ placed 0 ∨ ¬ placed 1 ∨ ¬ placed 2) then some (refuseAt b 16 15 0)
  else none

/-! ### Codes 18 and 19 -/

/-- Code 18: step-mode event lines (R87) and the twin section. -/
def twinRefusal (b : Bytes) (xs : List ImgSection) (c : State) : Option ImgRefusal :=
  let stepping := devTwin xs && devStep xs
  let lineBad (l : Nat) : Bool :=
    let src := rg MST_EVT_SRC l c
    rgF MST_EVT_DST l 26 24 c == 3 && !(fld src 26 24 == 1 && stepOrdered (recWord (fld src 13 0) c) c)
  if devStep xs ∧ ¬ devTwin xs then some (refuseAt b 18 1 0)
  else if rgF TWN_CFG 0 31 30 c ≠ 2 * b2n (devTwin xs) + b2n stepping then some (refuseAt b 18 16 0)
  else if stepping ∧ (listedInsts MST_EVT_DST c.regs).any lineBad then some (refuseAt b 18 8 0)
  else none

/-- A POINT entry is badly bound (R419). -/
def pointBad (v : Bytes) : Bool :=
  let f (k n : Nat) := leAt v k n
  decide (8191 < f 0 2 ∨ 1 < f 2 1 ∨ f 3 1 < 1 ∨ 32 < f 3 1 ∨ f 5 1 ≠ 0 ∨ f 14 2 ≠ 0) ||
    match f 4 1 with
    | 0 => f 2 1 != 0 || decide (2048 ≤ f 8 2) || (decide (256 ≤ f 12 2) && f 12 2 != 0xFFFF)
    | 1 => f 2 1 != 0 || decide (4096 ≤ f 8 2) || decide (252 < f 10 2)
    | 2 => f 2 1 != 0 || decide (64 ≤ f 8 1)
    | 3 => f 2 1 != 1 || decide (4096 ≤ f 8 2) || decide (256 < f 10 2 + (f 3 1 + 7) / 8)
    | _ => true

/-- A placement target that lies in districts 60-63. -/
def placedInMapper (w : Word) : Bool :=
  if bit w 10 then decide (60 ≤ fld w 5 0) else decide (960 ≤ fld w 9 0)

/-- A range of `n` bytes meets the local or the district memory of districts 60-63. -/
def inMapper (a n : Nat) : Bool :=
  let meets (lo hi : Nat) : Bool := decide (a < hi ∧ lo < a + n)
  meets (localAddr 960) (localAddr 1024) || meets (districtAddr 60) (districtAddr 64)

/-- A district section whose presets give a district a frame buffer layout with buffers. -/
def presetsFrames (x : ImgSection) : Bool :=
  let regs := x.records.filter fun r => r.1 = tagReg
  0 < frxCount (rg LNC_DST_FRX x.instNo (applySection { x with records := regs } State.reset))

/-- Code 19: the rules of LM64 transaction mode (R18): no lane code, district memory or job source in districts 60-63. -/
def lm64Refusal (b : Bytes) (xs : List ImgSection) (c : State) : Option ImgRefusal :=
  let pts := pointEntries xs
  if hdrPersonality b = 0 then firstBad b 19 (fun x => x.type == 22) xs
  else
    match firstBad b 19 (fun x => x.type == 11 && decide (60 ≤ x.instNo)
        && x.records.any fun r => r.1 == tagLane || r.1 == tagDmem) xs,
      firstBad b 19 (fun x => x.records.any fun r => r.1 == tagMem && inMapper (leAt r.2 0 8 % 2 ^ 40) (r.2.length - 8)) xs with
    | some r, _ => some r
    | none, some r => some r
    | none, none =>
      if (listedInsts MST_PLC_CUR c.regs).any (fun n => placedInMapper (rg MST_PLC_CUR n c))
          ∨ (listedInsts MST_PLC_NEXT c.regs).any (fun n => placedInMapper (rg MST_PLC_NEXT n c)) then
        some (refuseAt b 19 8 0)
      else if xs.any (fun x => x.type == 11 && decide (60 ≤ x.instNo) && presetsFrames x) then
        firstBad b 19 (fun x => x.type == 11 && decide (60 ≤ x.instNo) && presetsFrames x) xs
      else if pts.any pointBad ∨ ¬ distinct (pts.map fun v => leAt v 0 2) then some (refuseAt b 19 22 0)
      else none

/-! ### Codes 20 to 24 -/

/-- Code 20: presets (R419). -/
def presetRefusal (b : Bytes) (xs : List ImgSection) : Option ImgRefusal :=
  firstBad b 20 (fun x => presetsBad x.type x.instNo
    ((x.records.filter fun r => r.1 = tagReg).flatMap fun r => itemsOf 12 r.2) 0) xs

/-- Code 21: check contexts (R278). -/
def checkRefusal (b : Bytes) (c : State) : Option ImgRefusal :=
  if (listedInsts CHK_CTX_CFG c.regs).any fun n => chkEn n c && chkOverlap n c then some (refuseAt b 21 14 0) else none

/-- Code 22: receive queues (R296). -/
def queueRefusal (b : Bytes) (c : State) : Option ImgRefusal :=
  let rx := (listedInsts QMG_Q_CFG c.regs).filter fun q => bit (rg QMG_Q_CFG q c) 31 && qKind q c == 1
  if distinct (rx.map fun q => rgF QMG_Q_CFG q 26 24 c) then none else some (refuseAt b 22 13 0)

/-- Code 23: memory records. -/
def memoryRefusal (b : Bytes) (xs : List ImgSection) (s : State) : Option ImgRefusal :=
  let out (tag : Nat) (v : Bytes) : Bool :=
    if tag = tagLane then decide (16 ≤ leAt v 0 1 ∨ 65536 < v.length - 4)
    else if tag = tagDmem then decide (524288 < leAt v 0 4 + (v.length - 4))
    else if tag = tagMem then decide (2 ^ 40 ≤ leAt v 0 8) || !canReach .loader true (leAt v 0 8) (v.length - 8) s
    else false
  firstBad b 23 (fun x => x.records.any fun r => out r.1 r.2) xs

/-- Code 24: milestone records (R68). -/
def milestoneRefusal (b : Bytes) (xs : List ImgSection) : Option ImgRefusal :=
  let out (v : Bytes) : Bool := decide (16384 ≤ leAt v 0 4) || Rec.bad (BitVec.ofNat 128 (leAt v 4 16))
  firstBad b 24 (fun x => x.records.any fun r => r.1 == tagMsrec && (itemsOf 20 r.2).any out) xs

/-! ### All checks -/

/-- Codes 1-6: header, lengths, key and signature. -/
def envelopeRefusal (b : Bytes) (s : State) : Option ImgRefusal :=
  let slot := sget {} (hdrKeySlot b) s.img.keySlots
  if headerBad b then some { code := 1 }
  else if hdrPart b ≠ 0x8128 ∨ hdrSteppings b / 2 ^ rgF SYS_ID 0 15 12 s % 2 = 0 then some { code := 2 }
  else if lengthBad b then some { code := 3 }
  else
    match slot.hash with
    | none => some { code := 4 }
    | some h =>
      if slot.revoked ∨ s.img.otpBad ∨ 3 < hdrKeySlot b then some { code := 4 }
      else if sha384 (slice (trailer b) 0 97) ≠ h then some { code := 5 }
      else if signatureBad b then some { code := 6 }
      else none


/-- The first failure of a list of checks that are made in order. -/
def checkInOrder : List (Unit → Option ImgRefusal) → Option ImgRefusal
  | [] => none
  | f :: t => match f () with
    | some r => some r
    | none => checkInOrder t

/-- Every check of R425 that an image of bytes `b` undergoes, in order. -/
def checkImage (b : Bytes) (s : State) : Option ImgRefusal :=
  match checkInOrder [fun _ => envelopeRefusal b s, fun _ => tableRefusal b, fun _ => workerRefusal b s, fun _ => recordRefusal b,
      fun _ => kindRefusal b s, fun _ => personalityRefusal b s] with
  | some r => some r
  | none =>
    let xs := sectionsAfter b s
    let c := configured xs
    checkInOrder [fun _ => fittingRefusal b xs c s, fun _ => roleRefusal b xs c, fun _ => junctionRefusal b xs c,
      fun _ => gateRefusal b xs c, fun _ => replicationRefusal b c, fun _ => journalRefusal b xs c s,
      fun _ => hierarchyRefusal b xs, fun _ => twinRefusal b xs c, fun _ => lm64Refusal b xs c,
      fun _ => presetRefusal b xs, fun _ => checkRefusal b c, fun _ => queueRefusal b c,
      fun _ => memoryRefusal b xs s, fun _ => milestoneRefusal b xs]

end Sys2Proof.Machine
end

