-- ==== Sys2Proof/Machine/RoadFrames.lean ====
section
/-! DEFINITION. Sending road-state entries (R62, R63, R377, R387). -/

set_option Elab.async false

namespace Sys2Proof.Machine

open Sys2Proof

/-- The device acts as a manager: in a twin only the active unit does (R377). -/
def managerActs (s : State) : Bool :=
  decide (rgF HIE_CFG 0 31 30 s = 1) && (!bit (rg TWN_CFG 0 s) 31 || twinActive s)

/-- State codes of HIE_W_STAT (R383). -/
abbrev workerAbsent : Nat := 0
abbrev workerRefused : Nat := 1
abbrev workerLoading : Nat := 2
abbrev workerInService : Nat := 3
abbrev workerLost : Nat := 4

def workerState (w : Nat) (s : State) : Nat := rgF HIE_W_STAT w 2 0 s
def setWorkerState (w x : Nat) (s : State) : State := setRgF HIE_W_STAT w 2 0 x s

/-- Station address of a worker: the source of its latest status, or an address that the manual does not give. -/
def workerAddr (w : Nat) (s : State) : BitVec 48 := (worker w s).addr.getD (Config.workerStation w)

/-- Trunks that reach a worker: that of its latest status (R380), or every hierarchy trunk before the first. -/
def workerTrunks (w : Nat) (s : State) : List Nat :=
  if (worker w s).addr.isSome then [rgF HIE_W_STAT w 9 8 s] else trunksOf roleHierarchy s

/-- A message of the hierarchy association to a worker. -/
def sendWorker (w type : Nat) (payload : Bytes) (s : State) : State :=
  forEach (workerTrunks w s) (fun t => wpSendAssocPort assocHierarchy type (128 + t) (workerAddr w s) payload) s

/-- The 32 bytes of a road's waiting entry (R62). -/
def roadEntryBytes (n : Nat) (s : State) : Bytes :=
  let r := road n s
  let e := r.queuedEntry
  beBytes 1 n ++ slice e 0 1 ++ beBytes 2 r.sendSeq.toNat ++ slice e 1 4 ++ slice e 5 8 ++ slice e 13 6
    ++ beBytes 2 (min 65535 r.transitions) ++ slice e 19 4 ++ zeros 4

/-- ROAD_STATE payloads of entries, at most 16 in each (R62). -/
def roadPayloads : Nat → List Bytes → List Bytes
  | 0, _ => []
  | k + 1, es =>
    if es.isEmpty then []
    else
      let h := es.take 16
      (beBytes 1 h.length ++ zeros 3 ++ h.flatten) :: roadPayloads k (es.drop 16)

/-- Entries to a host session; withheld ones are counted as event frames are (R335, R398). -/
def roadToSession (i : Nat) (payload : Bytes) (s : State) : State :=
  let r := wpUnsolicited i wpRoadState payload s
  if r.2 then r.1 else bump (FLT_EVT_S + 4 * i) 0 15 0 r.1

/-- The sessions of ROA_RSF. -/
def roadSessions (s : State) : List Nat := (List.range 4).filter fun i => bit (rg ROA_RSF 0 s) (16 + i)

/-- A road whose waiting entry is sent: its next sequence number, and no transition since. -/
def entrySent (n : Nat) (s : State) : State :=
  let r := road n s
  let goes := r.queuedHier || !(roadSessions s).isEmpty
  setRoad n { r with queuedEntry := [], queuedHier := false, transitions := if goes then 0 else r.transitions,
                     sendSeq := if goes then r.sendSeq + 1 else r.sendSeq } s

/-- ROAD_STATE_SEND: the waiting entries, ascending, to the sessions of ROA_RSF, and the hierarchy's to every worker in
service, ascending. -/
def roadStateSend (s : State) : State :=
  let ns := (List.range 64).filter fun n => !(road n s).queuedEntry.isEmpty
  if inReset 200 s ∨ ns.isEmpty then s
  else
    let all := roadPayloads 4 (ns.map fun n => roadEntryBytes n s)
    let hier := roadPayloads 4 ((ns.filter fun n => (road n s).queuedHier).map fun n => roadEntryBytes n s)
    let ws := if managerActs s then (List.range 16).filter fun w => workerState w s = workerInService else []
    let sess := roadSessions s
    let s := forEach ns entrySent s
    let s := forEach sess (fun i => forEach all (roadToSession i)) s
    forEach ws (fun w => forEach hier (sendWorker w wpRoadState)) s
def execRoadStateSend (s : State) : Out := .next (roadStateSend s)

/-- ROAD_STATE_PERIODIC: every period_us an entry of each exported road; none when the period is 0. -/
def roadStatePeriodic (s : State) : State :=
  if inReset 200 s ∨ rgF ROA_RSF 0 15 0 s = 0 then s
  else forEach ((List.range 64).filter fun n => bit (rg ROA_CTRL n s) 4) queueEntry s
def execRoadStatePeriodic (s : State) : Out := .next (roadStatePeriodic s)

end Sys2Proof.Machine
end

