-- ==== Sys2Proof/Machine/Journal.lean ====
section
/-! DEFINITION. The journal: its rings, coalescing, overflow summaries, drain paths and acknowledgements (R337-R348). -/

set_option Elab.async false

namespace Sys2Proof.Machine

open Sys2Proof

/-! ### Rings (R337, R338) -/

/-- Records that the region of a class holds. -/
def jnlCap (c : Nat) (s : State) : Nat := rgF JNL_C_LAYOUT c 14 0 s * 16384

/-- Address of a record's slot. -/
def jnlAddr (c : Nat) (seq : Word) (s : State) : Nat :=
  base40 JNL_BASE_LO JNL_BASE_HI 0 s + rgF JNL_C_LAYOUT c 30 16 s * 2 ^ 20 + seq.toNat % max 1 (jnlCap c s) * 64

/-- Next seq of a class, and the oldest kept. -/
def jnlWr (c : Nat) (s : State) : Word := rg JNL_C_WR c s
def jnlOld (c : Nat) (s : State) : Word := rg JNL_C_OLD c s

/-- The 64 bytes of a record. -/
def recordBytes (r : JRecord) (seq : Word) : Bytes :=
  leBytes 4 r.time.toNat ++ leBytes 2 r.epoch.toNat ++ leBytes 1 (r.cls + 16 * r.kind) ++ leBytes 1 r.flags.toNat
    ++ leBytes 4 seq.toNat ++ leBytes 2 r.origin.toNat ++ [0, 0] ++ slice r.body 0 48

/-- Body of a run or an overflow summary (R339). -/
def runBody (a : AlarmRun) : Bytes :=
  padTo 48 (leBytes 4 a.firstTime.toNat ++ leBytes 2 a.firstEpoch.toNat ++ [0, 0] ++ leBytes 4 a.lastTime.toNat
    ++ leBytes 2 a.lastEpoch.toNat ++ [0, 0] ++ leBytes 4 a.count.toNat ++ slice a.head 0 4)

/-! ### Paths (R343, R346) -/

/-- A drain path is enabled and drains a class. -/
def pathOn (p : Nat) (s : State) : Bool := bit (rg JNL_P_CFG p s) 31
def pathDrains (p c : Nat) (s : State) : Bool := pathOn p s && bit (rg JNL_P_CFG p s) (16 + c)

/-- Seq of a class that a path takes next. -/
def pathSend (p c : Nat) (s : State) : Word := rg (JNL_P_SEND + 4 * c) p s
def setPathSend (p c : Nat) (v : Word) (s : State) : State := setRg (JNL_P_SEND + 4 * c) p v s

/-- Records of a class that a path has not taken. -/
def untaken (p c : Nat) (s : State) : Nat := (jnlWr c s - pathSend p c s).toNat

/-- A path has taken the record `seq`. -/
def taken (p c : Nat) (seq : Word) (s : State) : Bool :=
  decide (untaken p c s ≤ (jnlWr c s - seq - 1).toNat)

/-- A path loses a record whose slot is reused (R346). -/
def loseRecord (p c : Nat) (seq : Word) (s : State) : State :=
  let d := drainPath p s
  let g : Gap := match sget none c d.gaps with
    | some g => { g with count := g.count + 1, last := seq }
    | none => { count := 1, first := seq, last := seq }
  let s := setPathSend p c (seq + 1) (setDrainPath p { d with gaps := sset none c (some g) d.gaps } s)
  if c = 2 then setCause JNL_CAUSE 0 2 (bump JNL_P_DROP p 31 16 s) else setCause JNL_CAUSE 0 3 (bump JNL_P_DROP p 15 0 s)

/-- An alarm record is protected from reuse (R342). -/
def alarmProtected (seq : Word) (s : State) : Bool :=
  let ack := rg JNL_ALM_ACK 0 s
  decide ((jnlWr 0 s - ack).toNat ≥ (jnlWr 0 s - seq).toNat)
    || (List.range 4).any (fun p => pathDrains p 0 s && !taken p 0 seq s)

/-- The next slot of a class is in use by its oldest record. -/
def ringFull (c : Nat) (s : State) : Bool := decide (jnlCap c s ≤ (jnlWr c s - jnlOld c s).toNat)

/-- Write a record at the next seq of its class: the oldest one is overwritten when the ring is full, and a write that
fails loses the record (R338, R346, R350). A path that does not drain the class passes a reused slot by in silence. -/
def writeRecord (r : JRecord) (ans : MemAnswer) (s : State) : State :=
  let c := r.cls
  let seq := jnlWr c s
  let a := jnlAddr c seq s
  if jnlCap c s = 0 ∨ ¬ canReach .unit true a 64 s ∨ ¬ memGood (answer a ans s) then
    setCause JNL_CAUSE 0 6 (noteAnswer a (answer a ans s) s)
  else
    let old := jnlOld c s
    let s := noteAnswer a (answer a ans s) s
    let s :=
      if ringFull c s then
        let s := forEach ((List.range 4).filter fun p => !taken p c old s)
          (fun p s => if c ≠ 0 ∧ pathDrains p c s then loseRecord p c old s else setPathSend p c (old + 1) s) s
        setRg JNL_C_OLD c (old + 1) s
      else s
    bump JNL_C_CNT c 31 0 (setRg JNL_C_WR c (seq + 1) (wrBytes a (recordBytes r seq) s))

/-! ### Alarms (R341, R342) -/

/-- Any overflow summary is pending. -/
def summariesPending (s : State) : Bool := !s.jnl.summaries.isEmpty

/-- The alarm region is full: the next slot still holds a protected alarm. -/
def alarmFull (s : State) : Bool := ringFull 0 s && alarmProtected (jnlOld 0 s) s

/-- No enabled alarm path has taken the newest alarm of an origin. -/
def foldable (a : AlarmRun) (r : JRecord) (s : State) : Bool :=
  !(List.range 4).any (fun p => pathDrains p 0 s && taken p 0 a.seq s)
    && decide ((jnlWr 0 s - a.seq).toNat ≤ (jnlWr 0 s - jnlOld 0 s).toNat)
    && (!bit r.flags 3 || slice r.body 0 4 == slice a.head 0 4)

/-- Rewrite the newest record of an origin as a run. -/
def rewriteRun (a : AlarmRun) (r : JRecord) (ans : MemAnswer) (s : State) : State :=
  let at' := jnlAddr 0 a.seq s
  if ¬ canReach .unit true at' 64 s ∨ ¬ memGood (answer at' ans s) then
    setCause JNL_CAUSE 0 6 (noteAnswer at' (answer at' ans s) s)
  else
    let s := noteAnswer at' (answer at' ans s) s
    let run : JRecord := { r with kind := 2, flags := a.flags, time := a.firstTime, epoch := a.firstEpoch, body := runBody a }
    wrBytes at' (recordBytes run a.seq) (bump JNL_CNT_ALM 0 31 16 s)

/-- Write a new alarm, fold it into the newest record of its origin, or into its overflow summary. The newest alarm of an
origin is remembered while coalesce is 1 (R341). -/
def writeAlarm (r : JRecord) (ans : MemAnswer) (s : State) : State :=
  if summariesPending s ∨ alarmFull s then foldSummary r s
  else
    let o := originIndex r
    let coalesce := bit (rg JNL_CFG 0 s) 1 && decide (r.kind ≠ 5)
    let fresh (s : State) : State :=
      let seq := jnlWr 0 s
      let s' := writeRecord r ans s
      if jnlWr 0 s' = seq then s'
      else
        let run := if coalesce then some { foldRun none r with seq := seq } else none
        { s' with jnl := { s'.jnl with newest := sset none o run s'.jnl.newest } }
    match sget none o s.jnl.newest with
    | some a =>
      if coalesce ∧ foldable a r s then
        let b := { foldRun (some a) r with seq := a.seq }
        rewriteRun b r ans { s with jnl := { s.jnl with newest := sset none o (some b) s.jnl.newest } }
      else fresh s
    | none => fresh s

/-- JOURNAL_RECORD_WRITE (R340): one record leaves the intake queue. -/
def journalRecordWrite (ans : MemAnswer) (s : State) : State :=
  if inReset 207 s then s
  else
    match s.jnl.intake with
    | [] => s
    | r :: t =>
      let s := { s with jnl := { s.jnl with intake := t } }
      if r.cls = 0 then writeAlarm r ans s else writeRecord r ans s
def execJournalRecordWrite (ans : MemAnswer) (s : State) : Out := .next (journalRecordWrite ans s)

/-- Record of an origin's overflow summary. -/
def summaryRecord (o : Nat) (a : AlarmRun) : JRecord :=
  { cls := 0, kind := 4, flags := a.flags,
    origin := BitVec.ofNat 16 (if 3072 ≤ o then o - 3072 else if 2048 ≤ o then o - 2048 else o),
    time := a.firstTime, epoch := a.firstEpoch, body := runBody a }

/-- ALARM_SUMMARY_WRITE (R342): the pending summary of the lowest origin is written once a slot is free. -/
def alarmSummaryWrite (ans : MemAnswer) (s : State) : State :=
  if inReset 207 s ∨ alarmFull s then s
  else
    match s.jnl.summaries with
    | (o, some a) :: _ =>
      let s := { s with jnl := { s.jnl with summaries := sset none o none s.jnl.summaries } }
      bump JNL_CNT_ALM 0 15 8 (writeRecord (summaryRecord o a) ans s)
    | _ => s
def execAlarmSummaryWrite (ans : MemAnswer) (s : State) : Out := .next (alarmSummaryWrite ans s)

/-! ### Drain frames (R343-R346) -/

/-- Records per message, share and full payload of a path. -/
def recPerMsg (p : Nat) (s : State) : Nat := max 1 (min 16 (rgF JNL_P_CFG p 12 8 s))
def pathShare (p : Nat) (s : State) : Nat := rgF JNL_P_CFG p 7 4 s
def fullPayload (p : Nat) (s : State) : Nat := 8 + 64 * recPerMsg p s

/-- Milli-byte credit of a payload, taken from the alarm bucket first for alarms. -/
def takeCredit (p c size : Nat) (s : State) : Option State :=
  let d := drainPath p s
  let need := size * 1000
  if c = 0 then
    if need ≤ d.alarmMilli + d.generalMilli then
      some (setDrainPath p { d with alarmMilli := d.alarmMilli - need, generalMilli := d.generalMilli - (need - d.alarmMilli) } s)
    else none
  else if need ≤ d.generalMilli then some (setDrainPath p { d with generalMilli := d.generalMilli - need } s)
  else none

/-- A record as a drain payload carries it: every field of it in network byte order, a lane's body as it is. -/
def networkRecord (b : Bytes) : Bytes :=
  let be (off len : Nat) : Bytes := beBytes len (leAt b off len)
  let head := be 0 4 ++ be 4 2 ++ slice b 6 2 ++ be 8 4 ++ be 12 2 ++ [0, 0]
  let kind := leAt b 6 1 / 16
  let body := b.drop 16
  if kind = 0 then head ++ slice body 0 48
  else if kind = 1 then head ++ slice body 0 4 ++ be 20 4 ++ slice body 8 40
  else if kind = 5 then head ++ be 16 2 ++ slice body 2 46
  else if kind = 3 then head ++ be 16 4 ++ be 20 4 ++ be 24 4 ++ slice body 12 36
  else
    head ++ be 16 4 ++ be 20 2 ++ [0, 0] ++ be 24 4 ++ be 28 2 ++ [0, 0] ++ be 32 4 ++ slice b 36 4 ++ slice body 24 24

/-- The gap marker that a path owes for a class (R339, R346). -/
def gapRecord (p c : Nat) (g : Gap) (s : State) : JRecord :=
  { cls := c, kind := 3, flags := 0, origin := BitVec.ofNat 16 p, time := now s, epoch := journalEpoch s,
    body := padTo 48 (leBytes 4 g.count ++ leBytes 4 g.first.toNat ++ leBytes 4 g.last.toNat ++ leBytes 1 c) }

/-- The frame of a drain payload on its port (R343). -/
def drainFrame (p : Nat) (payload : Bytes) (s : State) : Bytes :=
  let port := rgF JNL_P_PORT p 7 0 s
  if 128 ≤ port then
    let da := BitVec.ofNat 48 (rgF JNL_P_DA_HI p 15 0 s * 2 ^ 32 + (rg JNL_P_DA_LO p s).toNat)
    padFrame (ethHeader da (filterAddr port s) (rgF JNL_P_PORT p 31 16 s) ++ payload)
  else
    padFrame (ethHeader (filterAddr port s) (filterAddr port s) (rgF FPA_SER_ETYPE 0 15 0 s)
      ++ beBytes 2 payload.length ++ zeros 8 ++ payload)

/-- Form a frame of `k` records of class `c`, led by the gap marker that the class owes. -/
def sendDrain (p c k : Nat) (s : State) : State :=
  let seq := pathSend p c s
  let d := drainPath p s
  let gap := sget none c d.gaps
  let lead := match gap with
    | some g => networkRecord (recordBytes (gapRecord p c g s) 0)
    | none => []
  let recs := (List.range k).flatMap fun i => networkRecord (rdBytes (jnlAddr c (seq + w32 i) s) 64 s)
  let n := k + b2n gap.isSome
  let payload := beBytes 1 1 ++ beBytes 1 p ++ beBytes 2 n ++ beBytes 4 (rg JNL_P_MSG p s).toNat ++ lead ++ recs
  let f := { newFrame (drainFrame p payload s) 197 (rgF JNL_P_CFG p 2 0 s) s with drain := some p }
  let s := setDrainPath p { d with sending := true, gaps := sset none c none d.gaps } s
  let s := onlyIf gap.isSome (bump JNL_P_CNT p 15 0) s
  let s := bump JNL_P_MSG p 31 0 (bump JNL_P_CNT p 31 16 (setPathSend p c (seq + w32 k) s))
  (internalOffer f (rgF JNL_P_PORT p 7 0 s) s).1

/-- A path may form a frame: the classes in order, alarms never passed (R345). -/
def formFrame (p : Nat) (s : State) : State :=
  if ¬ pathOn p s ∨ (drainPath p s).sending ∨ inReset 207 s then s
  else
    let try' (c : Nat) : Option (Option State) :=
      let k := min (untaken p c s) (recPerMsg p s)
      if ¬ pathDrains p c s ∨ k = 0 then none
      else
        let size := 8 + 64 * k + (if (sget none c (drainPath p s).gaps).isSome then 64 else 0)
        match takeCredit p c size s with
        | some s' => some (some (sendDrain p c k s'))
        | none => if c = 0 then some none else none
    match try' 0 with
    | some r => r.getD s
    | none =>
      match try' 1 with
      | some r => r.getD s
      | none => ((try' 2).getD none).getD s

/-- JOURNAL_CREDIT_STEP (R345): every millisecond each path gains credit, and an enabled one may form a frame. -/
def journalCreditStep (s : State) : State :=
  if inReset 207 s then s
  else
    forEach (List.range 4)
      (fun p s =>
        let d := drainPath p s
        let budget := rgF JNL_P_BUDGET p 23 0 s
        let cap := fullPayload p s * 1000
        formFrame p (setDrainPath p { d with
          alarmMilli := min cap (d.alarmMilli + budget * pathShare p s / 16),
          generalMilli := min cap (d.generalMilli + budget * (16 - pathShare p s) / 16) } s)) s
def execJournalCreditStep (s : State) : Out := .next (journalCreditStep s)

/-- JOURNAL_DRAIN_FRAME_END (R343, R345): the frame of the path has left Junction. -/
def journalDrainFrameEnd (p : Nat) (s : State) : State :=
  if ¬ (drainPath p s).sending ∨ s.jct.frames.any (fun f => f.drain = some p) then s
  else formFrame p (setDrainPath p { drainPath p s with sending := false } s)
def execJournalDrainFrameEnd (drain : Fin 4) (s : State) : Out := .next (journalDrainFrameEnd drain s)

/-! ### Acknowledgements (R347) -/

/-- A new acknowledgement index, taken when it does not pass the write index. -/
def takeAck (a : Word) (s : State) : State :=
  let ack := rg JNL_ALM_ACK 0 s
  if (a - ack).toNat ≤ (jnlWr 0 s - ack).toNat then setRg JNL_ALM_ACK 0 a s
  else setCause JNL_CAUSE 0 4 (bump JNL_CNT_ALM 0 7 0 s)

/-- JNL_ALM_ACK_WRITE. -/
def jnlAlmAckWrite (path : Nat) (value : Word) (s : State) : State := atGlobal path JNL_ALM_ACK (takeAck value) s
def execJnlAlmAckWrite (path : Path) (value : Word) (s : State) : Out := .next (jnlAlmAckWrite path value s)

/-- JOURNAL_ACK_FRAME: a frame that Turnpike has handed to switch port 197. -/
def journalAckFrame (s : State) : State :=
  match handed 197 s with
  | none => s
  | some c =>
    match jframe c.frame s with
    | none => endHanded 197 s
    | some f =>
      if f.cutting then s
      else
        let s := endHanded 197 s
        let off := if f.src < 128 then 24 else 14
        if inReset 207 s ∨ f.bytes.length < off + 8 ∨ beAt f.bytes off 1 ≠ 2 then s
        else takeAck (w32 (beAt f.bytes (off + 4) 4)) s
def execJournalAckFrame (s : State) : Out := .next (journalAckFrame s)

/-- A path's port is a trunk, or a field port in legacy-serial mode. -/
def pathPortOk (p : Nat) (s : State) : Bool :=
  let port := rgF JNL_P_PORT p 7 0 s
  decide (128 ≤ port ∧ port < 132) || isSerial port s

/-- A path that a register write has put on another port is disabled (R343). -/
def checkPath (p : Nat) (s : State) : State :=
  if pathPortOk p s then s else setCause JNL_CAUSE 0 5 (setRgF JNL_P_CFG p 31 31 0 s)

/-- A write of JNL_P_PORT (R343). -/
def jnlPortWrite (path : Nat) (value : Word) (s : State) : State :=
  atInst path JNL_P_PORT (fun p s => checkPath p (setRg JNL_P_PORT p (value &&& 0xFFFF00FF) s)) s

end Sys2Proof.Machine
end

