-- ==== Sys2Proof/Machine/Loader.lean ====
section
/-! DEFINITION. The loader: staging, commits, boot records, keys, and the application of images (R422-R431), with the
completion of function resets (R9, R444-R448). -/

set_option Elab.async false

namespace Sys2Proof.Machine

open Sys2Proof

/-! ### Refusals and transfers (R424, R425) -/

def setImg (f : LoaderRun → LoaderRun) (s : State) : State := { s with img := f s.img }

/-- A refusal is recorded (R425). -/
def imgRefuse (r : ImgRefusal) (s : State) : State :=
  setCause IMG_CAUSE 0 0 (bump IMG_CNT 0 15 0 (setRg IMG_LAST 0 (w32 (r.code * 2 ^ 24 + r.type * 2 ^ 16 + r.index)) s))

/-- The open transfer is closed. -/
def closeTransfer (s : State) : State := setImg (fun x => { x with transfer := none, staging := [], received := [] }) s

/-- Add an interval to the intervals received; they stay disjoint and ascending. -/
def addInterval (a z : Nat) : List (Nat × Nat) → List (Nat × Nat)
  | [] => [(a, z)]
  | (b, y) :: t =>
    if z < b then (a, z) :: (b, y) :: t
    else if y < a then (b, y) :: addInterval a z t
    else addInterval (min a b) (max z y) t

/-- Distinct bytes received. -/
def receivedBytes (s : State) : Nat := s.img.received.foldl (fun n p => n + (p.2 - p.1)) 0

/-- Every byte below `n` has been received. -/
def receivedAll (n : Nat) (s : State) : Bool := s.img.received.any fun p => p.1 == 0 && decide (n ≤ p.2)

/-- Bytes of the staging area from 0. -/
def stagedBytes (n : Nat) (s : State) : Bytes := (List.range n).map fun k => sget 0 k s.img.staging

/-- Write bytes of a chunk into the staging area. -/
def stageBytes (off : Nat) : Bytes → Sparse Byte → Sparse Byte
  | [], m => m
  | b :: t, m => stageBytes (off + 1) t (sset 0 off b m)

/-- IMAGE_TRANSFER_TIMEOUT (R400): 60 s without a chunk close the transfer. -/
def imageTransferTimeout (s : State) : State := if s.img.transfer.isSome then closeTransfer s else s
def execImageTransferTimeout (s : State) : Out := .next (imageTransferTimeout s)

/-- IMG_CTRL.abort fell on this very edge: a chunk or commit that meets it is malformed (R430). -/
def abortsNow (s : State) : Bool := s.img.abortEdge == some s.mp.tclk

/-- Something is being verified or waits to be applied (R430). -/
def loaderBusy (s : State) : Bool := s.img.verifying.isSome || s.img.verified.isSome || s.img.forwarded.isSome

/-! ### Boot records (R423) -/

/-- The 16 bytes of a boot record: magic, preferred slot, trial state, two zeros, seq and CRC-32C. -/
def recordImage (preferred trial : Nat) (seq : Word) : Bytes :=
  let b : Bytes := [0x53, 0x56, 0x42, 0x52, BitVec.ofNat 8 preferred, BitVec.ofNat 8 trial, 0, 0] ++ leBytes 4 seq.toNat
  b ++ leBytes 4 (crc32c b)

/-- What a copy says: it is valid when its magic and its CRC are correct. -/
def bootRecord (b : Bytes) : Option BootRecord :=
  if b.length = 16 ∧ b.take 4 = [0x53, 0x56, 0x42, 0x52] ∧ leAt b 12 4 = crc32c (b.take 12) then
    some { preferred := leAt b 4 1, trial := leAt b 5 1, seq := w32 (leAt b 8 4) }
  else none

/-- The valid copy that is used, and whether it is the first. -/
def usedRecord (s : State) : Option (BootRecord × Bool) :=
  match bootRecord s.img.recordA, bootRecord s.img.recordB with
  | none, none => none
  | some a, none => some (a, true)
  | none, some b => some (b, false)
  | some a, some b => if (a.seq - b.seq).toNat < 2 ^ 31 then some (a, true) else some (b, false)

/-- Write the boot record: the copy not in use, with seq + 1. DESIGN CHOICE: with no valid copy the first one, with seq 1. -/
def writeBootRecord (preferred trial : Nat) (s : State) : State :=
  match usedRecord s with
  | some (r, true) => setImg (fun x => { x with recordB := recordImage preferred trial (r.seq + 1) }) s
  | some (r, false) => setImg (fun x => { x with recordA := recordImage preferred trial (r.seq + 1) }) s
  | none => setImg (fun x => { x with recordA := recordImage preferred trial 1 }) s

def flashBusy (s : State) : Bool := s.img.flashWrite.isSome

/-- Write the boot record now, or after the slot write that runs (R430). -/
def requestBootRecord (preferred trial : Nat) (s : State) : State :=
  if flashBusy s then setImg (fun x => { x with recordWait := some (preferred, trial) }) s
  else writeBootRecord preferred trial s

/-- The boot record as it will stand: a write that waits comes before the used copy. -/
def recordNow (s : State) : Option (Nat × Nat) :=
  match s.img.recordWait with
  | some r => some r
  | none => (usedRecord s).map fun r => (r.1.preferred, r.1.trial)

/-- IMG_CTRL: abort closes the transfer, prefer_go writes the record, confirm ends an attempted trial. -/
def imgCtrlWrite (value : Word) (s : State) : State :=
  let s := onlyIf (bit value 5) (fun s => setImg (fun x => { x with abortEdge := some s.mp.tclk }) (closeTransfer s)) s
  let s := onlyIf (bit value 2) (requestBootRecord (fld value 3 3) (fld value 4 4)) s
  if bit value 0 then
    match recordNow s with
    | some (p, 2) => requestBootRecord p 0 s
    | _ => s
  else s
def execImgCtrlAbort (_path : Path) (value : Word) (s : State) : Out := .next (imgCtrlWrite value s)
def execImgCtrlPreferGo (_path : Path) (value : Word) (s : State) : Out := .next (imgCtrlWrite value s)
def execImgCtrlConfirm (_path : Path) (value : Word) (s : State) : Out := .next (imgCtrlWrite value s)

/-- A slot write that has ended: the slot holds the image, or flash_fail is set. -/
def endSlotWrite (ok : Bool) (slot : Nat) (b : Bytes) (s : State) : State :=
  if ok then setImg (fun x => if slot = 1 then { x with flashA := b } else { x with flashB := b }) s
  else setCause IMG_CAUSE 0 4 s

/-- FLASH_WRITE_DONE (R424): the next slot write that waits begins; after the last one a record write that waited
follows. -/
def flashWriteDone (ok : Bool) (s : State) : State :=
  match s.img.flashWrite with
  | none => s
  | some (slot, b) =>
    let s := endSlotWrite ok slot b s
    match s.img.flashNext with
    | w :: t => setImg (fun x => { x with flashWrite := some w, flashNext := t }) s
    | [] =>
      let s := setRgF IMG_STAT 0 25 25 0 (setImg (fun x => { x with flashWrite := none }) s)
      match s.img.recordWait with
      | some (p, t) => writeBootRecord p t (setImg (fun x => { x with recordWait := none }) s)
      | none => s

/-- A verified image goes to its slot. DESIGN CHOICE: a second slot write waits for the one that runs. -/
def writeSlot (target : Nat) (b : Bytes) (s : State) : State :=
  if flashBusy s then setImg (fun x => { x with flashNext := x.flashNext ++ [(target, b)] }) s
  else setRgF IMG_STAT 0 25 25 1 (setImg (fun x => { x with flashWrite := some (target, b) }) s)
def execFlashWriteDone (ok : Bool) (s : State) : Out := .next (flashWriteDone ok s)

/-! ### Key slots (R422) -/

def keySlot (k : Nat) (s : State) : KeySlot := sget {} k s.img.keySlots
def usable (k : KeySlot) : Bool := k.hash.isSome && !k.revoked

/-- Whether slot `k` may be revoked: it is not the running image's, and another usable slot remains. -/
def mayRevoke (k : Nat) (s : State) : Bool :=
  !(s.sys.phase == .running && rgF IMG_STAT 0 21 20 s == k) && (List.range 4).any fun j => j != k && usable (keySlot j s)

/-- IMG_REVOKE: the second of two equal writes from one path within 1 ms burns the revoke bit. -/
def imgRevokeWrite (path : Nat) (value : Word) (within1ms : Bool) (s : State) : State :=
  let v := value &&& 0xFF03
  let k := fld v 1 0
  if fld v 15 8 ≠ 0xA5 then setImg (fun x => { x with revokeFirst := none }) s
  else if within1ms ∧ s.img.revokeFirst.any (fun x => x.1 == path && x.2.1 == v) then
    let s := setImg (fun x => { x with revokeFirst := none }) s
    if mayRevoke k s then
      setCause IMG_CAUSE 0 7 (setImg (fun x =>
        { x with keySlots := sset {} k { keySlot k s with revoked := true } x.keySlots }) s)
    else s
  else setImg (fun x => { x with revokeFirst := some (path, v, now s) }) s
def execImgRevokeWrite (path : Path) (value : Word) (within1ms : Bool) (s : State) : Out :=
  .next (imgRevokeWrite path value within1ms s)

/-! ### Reloading a function (R9, R426, R448) -/

/-- Zero a range of memory. -/
def wipe (a n : Nat) (s : State) : State := { s with mem := sfilter (fun k => decide (k < a ∨ a + n ≤ k)) s.mem }

/-- What the configuration of a function holds beyond registers is empty before its sections are applied. -/
def emptyFunction (f : Nat) (s : State) : State :=
  if 132 ≤ f ∧ f < 196 then
    let d := f - 132
    wipe (districtAddr d) 524288 (wipe (localAddr (16 * d)) 1048576 s)
  else if f = 196 then { s with jct := { s.jct with vlan := [], macs := [], macSeen := [], rules := [], groups := [] } }
  else if f = 197 then { s with tpk := { s.tpk with map := [], admin := [], gates := [], tollC := [], tollP := [] } }
  else if f = 198 then { s with freP := [], freD := [] }
  else if f = 201 then { s with recs := [] }
  else if f = 208 then { s with wpt := { s.wpt with assocKey := sset none assocEcho none s.wpt.assocKey } }
  else if f = 209 then { s with wpt := { s.wpt with assocKey := sset none assocHierarchy none s.wpt.assocKey } }
  else if f = 210 then forEach (List.range 4) (fun i s => setSession i { session i s with key := none } s) s
  else s

/-- Registers that the end of a function's reset returns to the Reset column: counts zeroed at the start keep what has
been counted since, and a channel keeps what it is. DESIGN CHOICE: the MPT counters that R28 zeroes are those of function 199;
MPT_TS2_LEVEL.overflow stands in the window of a trunk and goes with the trunk's own function. -/
def reloads (f r i : Nat) : Bool :=
  ownerOf r i == f && !(regRow r).keep && !(zeroesAtStart f && countReg r) && !(r == MEM_CFG || r == MEM_STAT)

/-- Bare state (R442): the trunks' PMD and addresses, and session 0 under the recovery key. -/
def bareSettings (s : State) : State :=
  let trunk (t : Nat) (s : State) : State :=
    let s := setRgF TRK_CFG t 1 0 (rgF SYS_STRAP 0 4 4 s) s
    let a := s.img.deviceMac.toNat
    let s := setRg MAC_FILT_LO (128 + t) (w32 a) s
    setRg (MAC_FILT_LO + 4) (128 + t) (w32 (2 ^ 31 + a / 2 ^ 32)) s
  let s := forEach [0, 1] trunk s
  match s.sys.wpOpen, s.img.recoveryKey with
  | true, some key =>
    let s := setSession 0 { session 0 s with key := some key } s
    setRg WPT_S_CFG 0 (w32 (2 ^ 31 + 0x27 * 256 + 16 + 3)) s
  | _, _ => s

/-- The PTP settings of a device's hierarchy role (R386): its hierarchy trunks take part over Ethernet, and a worker with
two of them is an end-to-end transparent clock. -/
def hierarchyPtp (f : Nat) (s : State) : State :=
  if rgF HIE_CFG 0 31 30 s = 0 then s
  else if 128 ≤ f ∧ f < 132 ∧ trunkRole (f - 128) s = roleHierarchy then
    setRgF MPT_PORT_CTRL f 3 2 0 (setRgF MPT_PORT_CTRL f 0 0 1 s)
  else if f = 199 ∧ rgF HIE_CFG 0 31 30 s = 2 ∧ (trunksOf roleHierarchy s).length = 2 then setRgF MPT_CTRL 0 10 10 0 s
  else s

/-- A function's registers, tables and memories as the resident copy has them, and the settings of the device's role. -/
def reloadFunction (f : Nat) (s : State) : State :=
  let s := dropRegs (reloads f) (emptyFunction f s)
  let s := onlyIf (decide (f = 208 ∨ f = 209)) (applyDevice s.img.resident) s
  let s := hierarchyPtp f (forEach (s.img.resident.filter fun x => boundTo x f) applySection s)
  onlyIf (s.sys.phase == .bare && (f == 128 || f == 129 || f == 210)) bareSettings s

/-- What a function does when it is released. -/
def startFunction (f : Nat) (s : State) : State :=
  if f < 128 then restartVerify f (serialRelink f s)
  else if f < 132 then restartVerify f s
  else if f < 196 then
    let d := f - 132
    let s := forEach (lanesOf d) (fun l s => setLane l { lane l s with inReset := false } s) s
    setDistrict d { district d s with frx := rg LNC_DST_FRX d s, frxPending := false } s
  else if f = 197 then
    let s := forEach (listedInsts TPK_TOLL_CBS s.regs) (fun i s => setTollC i (tollCap TPK_TOLL_CBS i s) s) s
    let s := forEach (listedInsts TPK_TOLL_PBS s.regs) (fun i s => setTollP i (tollCap TPK_TOLL_PBS i s) s) s
    forEach (List.range 132) (fun p s => commitGates p (loadOper p s)) s
  else if f = 200 then
    forEach ((List.range 64).filter fun n => n == 0 || bit (rg ROA_CTRL n s) 3) startRoad s
  -- the reloaded records are armed on the first edge after the release, as by a return (R75)
  else if f = 201 then { s with enableReturn := some s.mp.tclk }
  else if f = 203 then forEach (listedInsts SHF_CFG s.regs) checkShaft s
  else if f = 205 then
    forEach ((listedInsts QMG_Q_CFG s.regs).filter fun q => bit (rg QMG_Q_CFG q s) 31) (fun q => startQueue q .ok) s
  else if f = 208 then twinStart s
  else if f = 211 ∨ f = 212 then onlyIf (rgF MEM_STAT (f - 211) 2 0 s == 3) (setRgF MEM_STAT (f - 211) 2 0 2) s
  else if f = 213 ∨ f = 214 then setRgF MEM_STAT (f - 211) 2 0 1 s
  else s

/-- A function leaves reset. -/
def releaseFunction (f : Nat) (s : State) : State := startFunction f (setInReset f false s)

/-- Function of the channel that holds the resident copy. -/
def residentChannel (s : State) : Option Nat := (residentBase s).map fun a => if a < 2 ^ 36 then 211 else 212

/-- A reload that a memory error stops: the function stays in reset (R427). -/
def failReload (f : Nat) (s : State) : State :=
  setCause IMG_CAUSE 0 2 (setRgF IMG_LAST 0 15 0 f (setImg (fun x => { x with failed := f :: x.failed }) s))

/-- The answer of the resident copy to a reload, recorded. -/
def noteResident (ans : MemAnswer) (s : State) : State :=
  match residentBase s with
  | some a => noteAnswer a ans s
  | none => s

/-- Functions that run in the bare state (R442). -/
def bareRuns (f : Nat) : Bool :=
  f == 128 || f == 129 || f == 196 || f == 197 || f == 199 || f == 210 || decide (211 ≤ f ∧ f < 215)

/-- A reset function may complete: its boot state lets it run, its die link is up, the resident copy answers, and no
failed reload holds it (R427, R442, R444, R449). -/
def mayComplete (f : Nat) (s : State) : Bool :=
  inReset f s && s.sys.phase != .hold && (s.sys.phase != .bare || bareRuns f) && !s.img.failed.contains f
    && (decide (128 ≤ f) || dieUp (f / 64) s)
    && (s.img.resident.isEmpty ||
      match residentChannel s with
      | some c => c == f || !inReset c s
      | none => true)

/-- FUNCTION_RESET_COMPLETE (R444, R448). -/
def functionResetComplete (f : Nat) (ans : MemAnswer) (s : State) : State :=
  if ¬ mayComplete f s then s
  else if s.img.resident.isEmpty then releaseFunction f (reloadFunction f s)
  else if memGood ans then releaseFunction f (reloadFunction f (noteResident ans s))
  else failReload f (noteResident ans s)
def execFunctionResetComplete (func : BitVec 8) (ans : MemAnswer) (s : State) : Out :=
  .next (functionResetComplete func.toNat ans s)

/-- LANE_RESET_DONE (R134): local memory and aperture bases reload, and the lane becomes idle. -/
def laneResetDone (l : Nat) (s : State) : State :=
  if ¬ (lane l s).inReset ∨ inReset (132 + l / 16) s then s
  else
    let own (x : ImgSection) : List (Nat × Bytes) :=
      x.records.filter fun r => r.1 = tagLane ∧ leAt r.2 0 1 = l % 16
    let regs (x : ImgSection) : List (Nat × Bytes) :=
      (x.records.filter fun r => r.1 = tagReg).map fun r => (tagReg, ((itemsOf 12 r.2).filter fun v =>
        match regNumber (leAt v 0 4) with
        | some n => decide (LNC_APB0_LO ≤ n ∧ n ≤ LNC_APB1_HI) && winInst n (w32 (leAt v 4 4)) == some l
        | none => false).flatten)
    let xs := s.img.resident.filter fun x => x.type = 11 ∧ x.instNo = l / 16
    let s := dropRegs (fun r i => decide (LNC_APB0_LO ≤ r ∧ r ≤ LNC_APB1_HI) && i == l) (wipe (localAddr l) 65536 s)
    let s := forEach xs (fun x s => applySection { x with records := own x ++ regs x } s) s
    setLane l { lane l s with inReset := false } s
def execLaneResetDone (lane : Lane) (s : State) : Out := .next (laneResetDone lane s)

/-! ### Application (R426, R428) -/

/-- The running identity and what IMG_STAT shows of the image. -/
def setRunning (b : Bytes) (source : Nat) (s : State) : State :=
  let s := setRg IMG_ID_LO 0 (w32 (leAt b 16 4)) (setRg IMG_ID_HI 0 (w32 (leAt b 20 4)) s)
  let s := setRgF IMG_STAT 0 24 24 (hdrPersonality b) (setRgF IMG_STAT 0 23 20 (source * 4 + hdrKeySlot b) s)
  let s := bump IMG_CNT 0 31 16 { s with sys := { s.sys with phase := .running, wpOpen := false } }
  let warn := devTwin s.img.resident && (backupTrunk s).isNone
  onlyIf warn (setCause IMG_CAUSE 0 5) (setRg IMG_WARN 0 (w32 (b2n warn)) s)

/-- Reload functions in ascending order; a memory error stops the first one's reload. -/
def reloadAll (fs : List Nat) (ans : MemAnswer) (s : State) : State :=
  let s := forEach fs reloadFunction (noteResident ans s)
  match fs with
  | f :: _ => onlyIf (!memGood ans) (failReload f) s
  | [] => s

/-- Release functions in ascending order, but for one whose reload failed and for a port without its die link. -/
def releaseAll (fs : List Nat) (s : State) : State :=
  forEach (fs.filter fun f => !s.img.failed.contains f && (decide (128 ≤ f) || dieUp (f / 64) s)) releaseFunction s

/-- Sections applied without reset: faults and the memory image. -/
def applyUnbound (xs : List ImgSection) (s : State) : State :=
  forEach (xs.filter fun x => x.type = 20 ∨ x.type = 21) applySection s

/-- A full image or bundle: every function resets, and the die links train again within the application. -/
def applyFull (b : Bytes) (source : Nat) (ans : MemAnswer) (s : State) : State :=
  let fs := List.range 215
  let s := forEach fs startReset s
  let s := loadSafe s
  let s := setRg LNC_STEP 0 0 { s with stp := {}, wpt := { s.wpt with points := [] } }
  let s := setImg (fun x => { x with resident := sectionsOf b, failed := [] }) s
  let s := applyDevice s.img.resident s
  let s := setRgF MEM_STAT 2 2 0 2 (setRgF MEM_STAT 3 2 0 2 s)
  let s := reloadAll fs ans s
  let s := releaseAll fs (applyUnbound s.img.resident s)
  setRunning b source (setRgF MEM_STAT 2 2 0 2 (setRgF MEM_STAT 3 2 0 2 s))

/-- A partial image: the bound functions reset and reload, all others run on. -/
def applyPartial (b : Bytes) (source : Nat) (ans : MemAnswer) (s : State) : State :=
  let new := sectionsOf b
  let fs := (List.range 215).filter fun f => new.any fun x => boundTo x f
  let s := forEach fs startReset s
  let s := setImg (fun x => { x with resident := mergeSections x.resident new }) s
  let s := if new.any fun x => x.type = 22 then { s with wpt := { s.wpt with points := [] } } else s
  setRunning b source (releaseAll fs (reloadAll fs ans (applyUnbound new s)))

/-- IMAGE_APPLY (R426). -/
def imageApply (ans : MemAnswer) (s : State) : State :=
  match s.img.verified with
  | none => s
  | some (b, source) =>
    let s := setImg (fun x => { x with verified := none }) s
    if hdrKind b = kindPartial then applyPartial b source ans s else applyFull b source ans s
def execImageApply (ans : MemAnswer) (s : State) : Out := .next (imageApply ans s)

/-! ### Verification (R424, R425, R428) -/

/-- Answer a commit with its code. A worker remembers whether the last image offered to it was refused (R381). -/
def answerCommit (c : Commit) (code : Nat) (s : State) : State :=
  let s := match c.who with
    | .relay .. => { s with hie := { s.hie with lastRefused := decide (code ≠ 0) } }
    | _ => s
  answerAsker c.who wpImgCommit (if code = 0 then 0 else 6) [BitVec.ofNat 8 code, 0, 0, 0] s

/-- The IMG_COMMIT that a commit came by, as a host command: its message, and the image's identity (R405, R428). -/
def commitInput (c : Commit) : Bytes :=
  let h (i : Nat) (epoch seq : Word) : Bytes := wpHeader wpImgCommit i 0 epoch seq 8 0
  (match c.who with
    | .host i _ epoch seq => h i epoch seq
    | .relay _ _ _ i _ epoch seq => h i epoch seq
    | .nobody => h 0 0 0)
    ++ beBytes 4 c.image.length ++ beBytes 1 c.target ++ [0, 0, 0] ++ slice c.image 16 8

/-- A verified image: applied, forwarded as a host command in step mode, or written to its slot. -/
def acceptImage (c : Commit) (s : State) : State :=
  if c.target = 0 then
    if stepMode s then
      captureInput inputHost (commitInput c) (setImg (fun x => { x with forwarded := some c }) s)
    else setImg (fun x => { x with verified := some (c.image, 2) }) (answerCommit c 0 s)
  else writeSlot c.target (c.image.take (hdrTotal c.image)) (answerCommit c 0 s)

/-- IMAGE_VERIFY_DONE (R425): the checks end in a refusal code or a pass. -/
def imageVerifyDone (ans : MemAnswer) (s : State) : State :=
  match s.img.verifying with
  | none => s
  | some c =>
    let s := noteResident ans (setImg (fun x => { x with verifying := none }) s)
    match (if memGood ans then checkImage c.image s else some { code := 26 }) with
    | some r => answerCommit c r.code (imgRefuse r s)
    | none => acceptImage c s
def execImageVerifyDone (ans : MemAnswer) (s : State) : Out := .next (imageVerifyDone ans s)

/-- A host command that applies an image reaches its boundary (R428). -/
def stepImage (identity : Bytes) (s : State) : State :=
  match s.img.forwarded with
  | some c =>
    let s := setImg (fun x => { x with forwarded := none }) s
    if slice c.image 16 8 = identity then
      setImg (fun x => { x with verified := some (c.image, 2) }) (answerCommit c 0 s)
    else demotionAction (setCause IMG_CAUSE 0 6 (answerCommit c 28 (imgRefuse { code := 28 } s)))
  | none =>
    let n := hdrTotal (stagedBytes 256 s)
    let b := stagedBytes n s
    if s.img.transfer.isSome ∧ receivedAll n s ∧ slice b 16 8 = identity ∧ (checkImage b s).isNone then
      setImg (fun x => { x with verified := some (b, 2) }) (closeTransfer s)
    else demotionAction (setCause IMG_CAUSE 0 6 (imgRefuse { code := 28 } s))

end Sys2Proof.Machine
end

