-- ==== Sys2Proof/Machine/System.lean ====
section
/-! DEFINITION. Device-wide resets, straps, boot, OTP programming, watchdog, monitors, die links and memory scrubbing
(R433-R455). -/

set_option Elab.async false

namespace Sys2Proof.Machine

open Sys2Proof

/-! ### Device-wide resets (R436-R438) -/

/-- SYS_STRAP of a set of strap levels. -/
def strapWord (x : Straps) : Word := w32 (b2n x.barePmd * 16 + x.boot.toNat * 4 + x.rank.toNat)

/-- The straps as a reset samples them whose command does not carry their levels: a register write (R438). -/
def strapsNow (s : State) : Straps :=
  let x := Config.strapLevel s.draws
  { rank := x.extractLsb' 0 2, boot := x.extractLsb' 2 2, barePmd := bit x 4 }

/-- Registers of the AO domain and the surge counts (R436). -/
def aoKeeps (r : Nat) : Bool :=
  (r / 0x1000 == 0x10 && decide (r % 0x1000 ≠ 0) && ((regRow r).rw != 0 || r == FLT_G_STICKY || decide (FLT_ISO ≤ r ∧ r < FLT_ISO + 20)))
    || r == SYS_RST_CAUSE || r == SYS_CAUSE || r == FPA_SURGE_CNT || r == FPA_SURGE_CLASS || r == FPA_SURGE_LAST

/-- What survives without power to the logic: OTP and flash. -/
def fuses (x : LoaderRun) : LoaderRun :=
  { flashA := x.flashA, flashB := x.flashB, recordA := x.recordA, recordB := x.recordB, keySlots := x.keySlots,
    recoveryKey := x.recoveryKey, boardDigest := x.boardDigest, deviceMac := x.deviceMac,
    macProgrammed := x.macProgrammed, descriptors := x.descriptors }

/-- A device-wide reset: SYS_RST_CAUSE bit `cause` is set, the straps are sampled, and TWN_STAT.rank shows their rank (R374). A
power-on reset keeps nothing of the registers. Memory keeps its bytes until the boot zeroes the SRAM. A thermal hold goes on
through another reset (R436). DESIGN CHOICE: a power-on reset ends it, as it clears the AO domain. -/
def deviceReset (cause : Nat) (straps : Straps) (s : State) : State :=
  let keep := if cause = 0 then [] else sfilter (fun k => aoKeeps (k / 2 ^ 24)) s.regs
  let n := { State.reset with pending := s.pending, mem := s.mem, draws := s.draws, img := fuses s.img, regs := keep }
  let n := if cause = 0 then n else { n with sys := { n.sys with thermalHold := s.sys.thermalHold } }
  -- the clamp detectors go on counting, and merging, through every reset but power-on (R188)
  let merging (t : Sparse PortRun) (p : Nat) : Sparse PortRun := sset {} p { surgeClass := (portRun p s).surgeClass } t
  let n := if cause = 0 then n else { n with ports := (List.range 128).foldl merging [] }
  let n := setRgF TWN_STAT 0 9 8 straps.rank.toNat (setRg SYS_STRAP 0 (strapWord straps) n)
  if cause = 0 then n
  else setCause SYS_CAUSE 0 6 (setRg SYS_RST_CAUSE 0 (setBit (rg SYS_RST_CAUSE 0 n) cause true) n)

/-- POWER_ON_RESET. -/
def execPowerOnReset (straps : Straps) (s : State) : Out := .next (deviceReset 0 straps s)

/-- SYSTEM_RESET: SYSRST_n low for at least 1 us. -/
def systemReset (lowNs : Nat) (straps : Straps) (s : State) : State := if lowNs < 1000 then s else deviceReset 1 straps s
def execSystemReset (lowNs : Nat) (straps : Straps) (s : State) : Out := .next (systemReset lowNs straps s)

/-- BROWN_OUT_RESET. -/
def execBrownOutReset (straps : Straps) (s : State) : Out := .next (deviceReset 2 straps s)

/-- SYS_RST with go, sys and key 0xC3. -/
def softwareReset (value : Word) (straps : Straps) (s : State) : State :=
  if bit value 31 ∧ bit value 30 ∧ fld value 15 8 = 0xC3 then deviceReset 4 straps s else s
def execSoftwareReset (_path : Path) (value : Word) (straps : Straps) (s : State) : Out :=
  .next (softwareReset value straps s)

/-- A sensor's temperature. -/
def celsius (t : BitVec 8) : Int := t.toInt

/-- THERMAL_TRIP: any sensor at 125 C or above; the reset is held until every sensor reads below 110 C. -/
def thermalTrip (logic fd0 fd1 : BitVec 8) (straps : Straps) (s : State) : State :=
  if 125 ≤ celsius logic ∨ 125 ≤ celsius fd0 ∨ 125 ≤ celsius fd1 then
    let s := deviceReset 5 straps s
    { s with sys := { s.sys with thermalHold := true } }
  else s
def execThermalTrip (logic fd0 fd1 : BitVec 8) (straps : Straps) (s : State) : Out :=
  .next (thermalTrip logic fd0 fd1 straps s)

/-! ### Watchdog (R450) -/

/-- The watchdog counts a stage anew. -/
def restartWatchdog (stage : Nat) (s : State) : State :=
  let ms := if stage = 0 then rgF SYS_WDOG_CFG 0 31 16 s else rgF SYS_WDOG_CFG 0 15 0 s
  setRgF SYS_WDOG_STAT 0 17 0 (stage * 65536 + max 1 ms) { s with sys := { s.sys with wdogStart := elapsedNs s } }

/-- WATCHDOG_KICK: 0x5A, then 0xA5 within 1 ms; anything else sets kick_err. -/
def watchdogKick (value : Word) (within1ms : Bool) (s : State) : State :=
  let set (p : Option Word) : State := { s with sys := { s.sys with kickFirst := p } }
  let v := fld value 7 0
  if v = 0x5A ∧ s.sys.kickFirst = none then set (some (now s))
  else if v = 0xA5 ∧ s.sys.kickFirst.isSome ∧ within1ms then restartWatchdog 0 (set none)
  else setCause SYS_SUP_CAUSE 0 1 (set none)
def execWatchdogKick (_path : Path) (value : Word) (within1ms : Bool) (s : State) : Out :=
  .next (watchdogKick value within1ms s)

/-- WDOG goes low for 1 ms at an expiry (R450). -/
def expireWatchdog (s : State) : State := { s with sys := { s.sys with wdogLow := some (elapsedNs s) } }

/-- The supervisor complex restarts its firmware, which takes at most 50 ms (R450, R451). -/
def restartSupervisor (s : State) : State :=
  { s with sys := { s.sys with restarted := elapsedNs s + Config.restartTime s.draws % 50000001 }, draws := s.draws + 1 }

/-- WATCHDOG_STAGE1. -/
def watchdogStage1 (s : State) : State :=
  if rgF SYS_WDOG_STAT 0 17 16 s ≠ 0 then s
  else
    restartSupervisor (expireWatchdog
      (setCause SYS_SUP_CAUSE 0 0 (restartWatchdog 1 (bump SYS_WDOG_STAT 0 31 24 s))))
def execWatchdogStage1 (s : State) : Out := .next (watchdogStage1 s)

/-- WATCHDOG_RESET: stage 2 expires after stage 1. -/
def watchdogReset (straps : Straps) (s : State) : State :=
  if rgF SYS_WDOG_STAT 0 17 16 s ≠ 1 then s else expireWatchdog (deviceReset 3 straps s)
def execWatchdogReset (straps : Straps) (s : State) : Out := .next (watchdogReset straps s)

/-! ### Monitors and clocks (R435, R452) -/

/-- Nominal millivolts of the rails, in the order of SYS_MON_V0-V5, each register's high half first. -/
def railNominal : List Nat := [800, 750, 900, 800, 1200, 1200, 1800, 2500, 3300, 1800, 5000]

/-- A reading lies outside 5 % of nominal. -/
def railOut (nominal mv : Nat) : Bool := decide (mv * 100 < nominal * 95 ∨ nominal * 105 < mv * 100)

/-- MONITOR_READING: temperatures, rails, warnings, and the end of a thermal hold. -/
def monitorReading (logic fd0 fd1 : BitVec 8) (mv : List (BitVec 16)) (s : State) : State :=
  let v (i : Nat) : Nat := (mv.getD i 0).toNat
  let s := setRg SYS_MON_TEMP 0 (w32 (fd1.toNat * 65536 + fd0.toNat * 256 + logic.toNat)) s
  let s := forEach (List.range 5) (fun i => setRg (SYS_MON_V + 4 * i) 0 (w32 (v (2 * i) * 65536 + v (2 * i + 1)))) s
  let s := setRg (SYS_MON_V + 20) 0 (w32 (v 10)) s
  let rail (i : Nat) (s : State) : State :=
    let n := if railOut (railNominal.getD i 0) (v i) then sget 0 i s.sys.voltLow + 1 else 0
    let s := { s with sys := { s.sys with voltLow := sset 0 i n s.sys.voltLow } }
    onlyIf (decide (3 ≤ n)) (setCause SYS_CAUSE 0 0) s
  let s := forEach (List.range 11) rail s
  let hot (c : Nat) : Bool := decide ((c : Int) ≤ celsius logic ∨ (c : Int) ≤ celsius fd0 ∨ (c : Int) ≤ celsius fd1)
  let s := onlyIf (hot (rgF SYS_MON_CFG 0 7 0 s)) (setCause SYS_CAUSE 0 1) s
  let s := onlyIf (hot (rgF SYS_MON_CFG 0 15 8 s)) (setCause SYS_CAUSE 0 2) s
  if hot 110 then s else { s with sys := { s.sys with thermalHold := false } }
def execMonitorReading (logic fd0 fd1 : BitVec 8) (millivolts : List (BitVec 16)) (s : State) : Out :=
  .next (monitorReading logic fd0 fd1 millivolts s)

/-- XO_LOSS. -/
def execXoLoss (s : State) : Out := .next (setCause SYS_CAUSE 0 4 s)

/-- SUPPLY_SEQUENCE_ERROR (R433). -/
def execSupplySequenceError (s : State) : Out :=
  .next (setRg SYS_RST_CAUSE 0 (setBit (rg SYS_RST_CAUSE 0 s) 6 true) s)

/-! ### Die links and scrubbing (R447, R455) -/

/-- DIE_LINK_DOWN: 16 consecutive failed retries, or loss of lock. -/
def dieLinkDown (d : Nat) (lossOfLock : Bool) (s : State) : State :=
  if ¬ dieUp d s then s
  else
    let s := if lossOfLock then s else addRgF MEM_CNT (2 + d) 31 16 16 s
    setCause MEM_CAUSE (2 + d) 0 (loseDie d (setRgF MEM_STAT (2 + d) 2 0 0 s))
def execDieLinkDown (die : Fin 2) (lossOfLock : Bool) (s : State) : Out := .next (dieLinkDown die lossOfLock s)

/-- DIE_LINK_RETRAIN: a training ends with the link up, or is tried again. Windows lost with the link are counted. -/
def dieLinkRetrain (d : Nat) (up : Bool) (s : State) : State :=
  let st := rgF MEM_STAT (2 + d) 2 0 s
  if (st ≠ 0 ∧ st ≠ 1) ∨ s.sys.phase = .reset then s
  else if ¬ up then setRgF MEM_STAT (2 + d) 2 0 1 s
  else
    let s := setCause MEM_CAUSE (2 + d) 1 (bump MEM_CNT (2 + d) 15 0 (setRgF MEM_STAT (2 + d) 2 0 2 s))
    let port (p : Nat) (s : State) : State :=
      let s := if (portRun p s).vergeLost then
                 setPortRun p { portRun p s with vergeLost := false } (bump FPA_VRG_SKIP p 21 11 s) else s
      serialRelink p s
    forEach ((List.range 64).map fun i => 64 * d + i) port s
def execDieLinkRetrain (die : Fin 2) (up : Bool) (s : State) : Out := .next (dieLinkRetrain die up s)

/-- DIE_LINK_RETRY_BURST: retries are counted; over 256 in 1 ms set retry_burst. -/
def dieLinkRetryBurst (d retries : Nat) (s : State) : State :=
  onlyIf (decide (256 < retries)) (setCause MEM_CAUSE (2 + d) 2) (addRgF MEM_CNT (2 + d) 31 16 retries s)
def execDieLinkRetryBurst (die : Fin 2) (retriesInMs : Nat) (s : State) : Out :=
  .next (dieLinkRetryBurst die retriesInMs s)

/-- MEMORY_SCRUB_PASS: a pass over a ready channel counts what it corrected and could not correct. -/
def memoryScrubPass (c corrected uncorrectable : Nat) (s : State) : State :=
  if rgF MEM_SCRUB c 7 0 s = 0 ∨ rgF MEM_STAT c 2 0 s ≠ 2 then s
  else
    let s := addRgF MEM_CNT c 15 0 uncorrectable (addRgF MEM_CNT c 31 16 corrected s)
    onlyIf (decide (0 < uncorrectable)) (setCause MEM_CAUSE c 1) s
def execMemoryScrubPass (channel : Fin 2) (correctedCount uncorrectableCount : Nat) (s : State) : Out :=
  .next (memoryScrubPass channel correctedCount uncorrectableCount s)

/-! ### OTP (R443) -/

/-- JTAG_OTP_PROGRAM: in hold, a field that is not yet written. Fields 0-3: key slot hash; 4: recovery key; 5: MAC
address; 6: board digest; 7 and 8: memory descriptors of channels A and B. -/
def jtagOtpProgram (field : Nat) (data : Bytes) (s : State) : State :=
  let x := s.img
  if s.sys.phase ≠ .hold then s
  else if field < 4 then
    if data.length = 48 ∧ (keySlot field s).hash.isNone then
      setImg (fun x => { x with keySlots := sset {} field { keySlot field s with hash := some data } x.keySlots }) s
    else s
  else if field = 4 then
    if data.length = 32 ∧ x.recoveryKey.isNone then setImg (fun x => { x with recoveryKey := some data }) s else s
  else if field = 5 then
    if data.length = 6 ∧ ¬ x.macProgrammed then
      setImg (fun x => { x with deviceMac := BitVec.ofNat 48 (beVal data), macProgrammed := true }) s
    else s
  else if field = 6 then
    if data.length = 48 ∧ x.boardDigest.isNone then setImg (fun x => { x with boardDigest := some data }) s else s
  else if field ≤ 8 then
    if (sget none (field - 7) x.descriptors).isNone then
      setImg (fun x => { x with descriptors := sset none (field - 7) (some data) x.descriptors }) s
    else s
  else s
def execJtagOtpProgram (field : BitVec 8) (data : Bytes) (s : State) : Out :=
  .next (jtagOtpProgram field.toNat data s)

/-! ### Boot (R423, R439-R442) -/

/-- One DDR4 channel is configured and trained (R440): from its OTP descriptor when that is programmed, else from an SPD
EEPROM, else it is absent. The command says what either source holds, source 2 or 3 that no EEPROM answers. -/
def bootChannel (c : Nat) (x : DdrFit) (s : State) : State :=
  let otp := (sget none c s.img.descriptors).isSome
  if ¬ otp ∧ 2 ≤ x.source.toNat then setRg MEM_CFG c (w32 128) s
  else
    let source := if otp then 0 else 1
    let s := setRg MEM_CFG c (w32 (source * 64 + x.rankSize.toNat * 4 + x.ranks.toNat)) s
    if x.trains then setRgF MEM_STAT c 2 0 2 s else setCause MEM_CAUSE c 0 (setRgF MEM_STAT c 2 0 4 s)

/-- Hold the functions that satisfy `p` in reset. -/
def holdFunctions (p : Nat → Bool) (s : State) : State := forEach ((List.range 215).filter p) (fun f => setInReset f true) s

/-- Hold (R442): every function stays in reset, the present channels and the die links with them. -/
def enterHold (s : State) : State :=
  let s := holdFunctions (fun _ => true) { s with sys := { s.sys with phase := .hold } }
  let held (i : Nat) (s : State) : State :=
    onlyIf (decide (2 ≤ i) || rgF MEM_STAT i 2 0 s == 2) (setRgF MEM_STAT i 2 0 3) s
  forEach (List.range 4) held s

/-- The bare state (R442). -/
def enterBare (s : State) : State :=
  let op := rgF SYS_STRAP 0 3 2 s != 2 && s.img.recoveryKey.isSome
  bareSettings (holdFunctions (fun f => !bareRuns f) { s with sys := { s.sys with phase := .bare, wpOpen := op } })

/-- The image of a QSPI slot, or the refusal that it meets. -/
def readSlot (b : Bool) (ans : MemAnswer) (s : State) : Except ImgRefusal Bytes :=
  let x := if b then s.img.flashB else s.img.flashA
  if ¬ memGood ans then .error { code := 26 }
  else match checkImage x s with
    | some r => .error r
    | none => .ok x

/-- What the choice of R423 tries first, and how the record is written once a slot loads: `some` of the preferred slot
is written with trial 0. -/
structure SlotPlan where
  /-- Slot B is tried first. -/
  first : Bool
  /-- Write the record when the slot tried first loads, and when the other one does. -/
  writeFirst : Bool
  writeOther : Bool
  trialFailed : Bool := false
deriving DecidableEq, Repr

/-- The plan of a boot, and the record written before loading. -/
def slotPlan (s : State) : SlotPlan × State :=
  match usedRecord s with
  | none => (⟨false, true, true, false⟩, s)
  | some (r, _) =>
    let b := r.preferred == 1
    if 1 < r.preferred then (⟨false, false, false, false⟩, s)
    else if r.trial = 0 then (⟨b, false, true, false⟩, s)
    else if r.trial = 1 then (⟨b, false, true, false⟩, writeBootRecord r.preferred 2 s)
    else if r.trial = 2 then (⟨!b, true, true, true⟩, s)
    else (⟨false, false, false, false⟩, s)

/-- Load from QSPI: the slot tried first, then the other; the bare state when both are refused. -/
def bootFromFlash (ansA ansB : MemAnswer) (s : State) : State :=
  let plan := slotPlan s
  let p := plan.1
  let s := onlyIf p.trialFailed (setCause IMG_CAUSE 0 3) plan.2
  let ans (b : Bool) : MemAnswer := if b then ansB else ansA
  match readSlot p.first (ans p.first) s with
  | .ok x => applyFull x (b2n p.first) .ok (onlyIf p.writeFirst (writeBootRecord (b2n p.first) 0) s)
  | .error r =>
    let s := imgRefuse r s
    match readSlot (!p.first) (ans !p.first) s with
    | .ok x =>
      applyFull x (b2n !p.first) .ok (setCause IMG_CAUSE 0 1 (onlyIf p.writeOther (writeBootRecord (b2n !p.first) 0) s))
    | .error r => enterBare (imgRefuse r s)

/-- BOOT (R439): OTP, SRAM, DDR4 and die links, then hold, the bare state or an image. -/
def boot (otpOk : Bool) (fitA fitB : DdrFit) (ansA ansB : MemAnswer) (s : State) : State :=
  if s.sys.phase ≠ .reset ∨ s.sys.thermalHold then s
  else
    let d := drawWord 0 s
    let s := { d.1 with wpt := { d.1.wpt with boot := d.2 } }
    let s := onlyIf (!otpOk) (setCause SYS_CAUSE 0 5) (setImg (fun x => { x with otpBad := !otpOk }) s)
    let s := { s with mem := sfilter (fun k => decide (k < 2 ^ 37)) s.mem }
    let s := bootChannel 1 fitB (bootChannel 0 fitA s)
    let s := setRgF MEM_STAT 2 2 0 2 (setRgF MEM_STAT 3 2 0 2 s)
    let s := restartWatchdog 0 s
    let strap := rgF SYS_STRAP 0 3 2 s
    if ¬ otpOk then enterBare s
    else if strap = 3 then enterHold s
    else if strap = 1 ∨ (residentBase s).isNone then enterBare s
    else bootFromFlash ansA ansB s
def execBoot (otpOk : Bool) (fitA fitB : DdrFit) (ansA ansB : MemAnswer) (s : State) : Out :=
  .next (boot otpOk fitA fitB ansA ansB s)

end Sys2Proof.Machine
end

