-- ==== Sys2Proof/Machine/RegAccess.lean ====
section
/-! DEFINITION. Register accesses on an access path: REGISTER_WRITE (R4, R6-R10, R444, R480) and HOST_WORK_ENTRY
(R299). -/

set_option Elab.async false

namespace Sys2Proof.Machine

open Sys2Proof

/-! ### Reach (R4, R10, R24, R480) -/

/-- First address of the register blocks. -/
abbrev regBase : Nat := 0xF000000000

/-- The hierarchy role of the device (R375): 0 none, 1 manager, 2 worker. -/
def hieRole (s : State) : Nat := rgF HIE_CFG 0 31 30 s

/-- The instance that a path reaches at a register; the worker window is the manager's only (R392). -/
def reachInst (path r : Nat) (s : State) : Option Nat :=
  if r / 0x1000 = 0x12 ∧ 0x100 ≤ r % 0x1000 ∧ hieRole s ≠ 1 then none
  else if pathReg r then (winOf path r s).map fun _ => path
  else winOf path r s

/-- Registers that only the servo owner writes (R24). -/
def servoReg (r : Nat) : Bool :=
  r == MPT_INCR_INT || r == MPT_INCR_FRAC || r == MPT_SET_NS || r == MPT_SET_FRAC || r == MPT_STEP

/-- An access that is refused with an access error and has no effect (R4, R24, R41, R480). -/
def accessError (path : Nat) (write : Bool) (addr size : Nat) (s : State) : Bool :=
  decide (size ≠ 4) || decide (addr % 4 ≠ 0) || decide (addr < regBase) || decide (regBase + 0x170000 ≤ addr)
    || (write && match regNumber (addr - regBase) with
        | some r => (servoReg r && !servoOwner path s) || (r == MPT_FW_SET && decide (4 ≤ path))
        | none => false)

/-! ### Reading -/

/-- The head of the two-step FIFO that a window shows. -/
def ts2Head (i : Nat) (s : State) : Option Ts2Entry := if 128 ≤ i ∧ i < 132 then (ts2 (i - 128) s).head? else none

/-- MPT registers that show a live value (R25, R39). -/
def readMpt (r i : Nat) (s : State) : Word :=
  if r = MPT_NS then now s
  else if r = MPT_TS2_LEVEL then rg r i s ||| w32 (if 128 ≤ i then (ts2 (i - 128) s).length else 0)
  else if r = MPT_TS2_HEAD then
    match ts2Head i s with
    | some e => w32 (2 ^ 31 + e.domain.toNat * 2 ^ 20 + e.msgType.toNat * 2 ^ 16 + e.seqId.toNat)
    | none => 0
  else if r = MPT_TS2_TIME then (match ts2Head i s with | some e => e.time | none => 0)
  else rg r i s

/-- ROA registers that show a level, a state or the live position (R66). -/
def readRoa (r i : Nat) (s : State) : Word :=
  if r = ROA_INGEST then rg r i s ||| w32 s.ingest.length
  else if r = ROA_STATE then rg r i s ||| w32 (road i s).state.code
  else if r = ROA_POS_LAP then w32 ((road i s).pub.toNat / 2 ^ 32)
  else rg r i s

/-- MST registers that show a record (R68, R89). -/
def readMst (path r i : Nat) (s : State) : Word :=
  if MST_REC ≤ r ∧ r < MST_COMMIT then
    match winOf path MST_COMMIT s with
    | some n => w32 ((recWord n s).toNat / 2 ^ (8 * (r - MST_REC)))
    | none => 0
  else if r = MST_MS_STATUS then
    let w := recWord i s
    rg r i s ||| flagAt 2 (recRun i s).pending
      ||| flagAt 1 (Rec.armed w && (road (Rec.road w) s).state == .lost) ||| flagAt 0 (Rec.armed w)
  else rg r i s

/-- Code of a tracker's state. -/
def TrackerState.code : TrackerState → Nat
  | .off => 0 | .dropout => 1 | .holdoff => 2 | .running => 3

/-- State code of a lane (LNC_LANE_STAT); a suspended WAITM stays so in a halt (R158, R168). -/
def laneCode (l : Nat) (s : State) : Nat :=
  let ln := lane l s
  if laneInReset l s then 5
  else if ln.run = .faulted then 3
  else if ln.run = .waiting then 2
  else if ln.halted then 4
  else if ln.run = .running then 1
  else 0

/-- LNC registers that show the state of lanes and districts (R110, R131-R136). -/
def readLnc (r i : Nat) (s : State) : Word :=
  if r = LNC_CTRL then flagAt 0 (stepMode s)
  else if r = LNC_FLT_SUM then
    w32 ((List.range 32).foldl (fun n j =>
      n + b2n (rg LNC_DST_FAULTED (2 * j) s != 0 || rg LNC_DST_FAULTED (2 * j + 1) s != 0) * 2 ^ j) 0)
  else if r = LNC_LANE_STAT then
    w32 ((lane i s).inbox.length * 2 ^ 16 + (lane i s).queue.length * 2 ^ 8 + laneCode i s)
  else if r = LNC_LANE_PC then
    (if (lane i s).run = .running ∨ (lane i s).run = .waiting then (lane i s).pc else (lane i s).faultPc)
  else if r = LNC_DST_STAT then
    let d := district i s
    w32 ((frxCount d.frx - d.buffers.length) * 2 ^ 24) ||| flagAt 2 d.frxPending ||| flagAt 1 (inReset (132 + i) s)
      ||| flagAt 0 d.halted
  else rg r i s

/-- The verge state code of FPA_PORT_STAT. -/
def VergeState.code : VergeState → Nat
  | .none => 0 | .deferring => 1 | .active => 2

/-- FPA registers that show links and windows (R170-R190). -/
def readFpa (r i : Nat) (s : State) : Word :=
  if FPA_LINK ≤ r ∧ r < FPA_LINK + 16 then
    w32 ((List.range 32).foldl (fun n j => n + b2n (linkUp (32 * ((r - FPA_LINK) / 4) + j) s) * 2 ^ j) 0)
  else if r = FPA_PORT_STAT then rg r i s ||| w32 ((verge i s).state.code * 2 ^ 16)
  else rg r i s

/-- MAC registers that show the pause timers (R195). -/
def readMac (r i : Nat) (s : State) : Word :=
  if r = MAC_PAUSE_STAT then
    w32 ((List.range 8).foldl (fun n c => n + b2n (classHeld i c s) * 2 ^ (8 + c)) 0)
      ||| flagAt 0 (macRun i s).linkPause.isSome
  else rg r i s

/-- JCT registers that show the buffer (R219, R220). -/
def readJct (r i : Nat) (s : State) : Word :=
  if r = JCT_FREE then w32 (teleFree s)
  else if r = JCT_CFREE then w32 (ctrlFree s)
  else if r = JCT_Q_USED then
    let q := jqueue (i / 8) (i % 8) s
    w32 (queueGuar q * 2 ^ 24 + (queueGuar q + queuePool q))
  else rg r i s

/-- A credit in whole bytes, rounded down and saturating. -/
def wholeBytes (x : Int) : Word := w32 (wrapI 32 (satS 32 (x / 2 ^ 20)))

/-- TPK registers that show credits and gate lists (R242, R246). -/
def readTpk (r i : Nat) (s : State) : Word :=
  if r = TPK_P_CREDIT then wholeBytes (Shaper.credit (.port i) s)
  else if r = TPK_S_CREDIT then wholeBytes (Shaper.credit (.service i) s)
  else if r = TPK_SUB_CREDIT then wholeBytes (Shaper.credit (.sub i) s)
  else if r = TPK_GCL_STAT then
    let g := gateRun i s
    flagAt 31 (gatePending i s) ||| flagAt 30 g.fallback
      ||| w32 (g.oper.form * 2 ^ 28 + g.oper.count * 2 ^ 8 + g.entry % 256)
  else if r = TPK_GCL_SWITCH then switchTime i s
  else if r = TPK_GCL_ENT0 then w32 (adminEntry (i / 256) (i % 256) s).toNat
  else if r = TPK_GCL_ENT1 then w32 ((adminEntry (i / 256) (i % 256) s).toNat / 2 ^ 32)
  else if r = TPK_GCL_OENT0 then w32 ((gateRun (i / 256) s).oper.entry (i % 256)).toNat
  else if r = TPK_GCL_OENT1 then w32 (((gateRun (i / 256) s).oper.entry (i % 256)).toNat / 2 ^ 32)
  else rg r i s

/-- The boot record's trial state and preferred slot, as IMG_STAT shows them (R423). DESIGN CHOICE: of a byte above the codes it
shows the low bits. -/
def recordBits (s : State) : Word :=
  match usedRecord s with
  | some (x, _) => w32 (x.trial % 4 * 2 ^ 18 + x.preferred % 2 * 2 ^ 17)
  | none => 0

/-- The state code of IMG_STAT. -/
def imgState (s : State) : Nat :=
  if s.img.verified.isSome then 3 else if s.img.verifying.isSome then 2 else b2n (s.sys.phase == .running)

/-- IMG registers (R424, R427, R432). -/
def readImg (r i : Nat) (s : State) : Word :=
  if r = IMG_STAT then
    rg r i s ||| w32 (imgState s * 2 ^ 26) ||| recordBits s ||| flagAt 16 s.img.boardDigest.isSome
      ||| w32 (((s.img.transfer.map fun x => x.2).getD 0) * 2 ^ 14)
  else if r = IMG_RES_LO then (match residentBase s with | some a => w32 a &&& 0xF0000000 | none => 0)
  else if r = IMG_RES_HI then (match residentBase s with | some a => w32 (a / 2 ^ 32) | none => 0)
  else if r = IMG_STAGE then
    match s.img.transfer with
    | some (t, _) => flagAt 31 true ||| w32 (t * 2 ^ 29 + receivedBytes s)
    | none => 0
  else if r = IMG_KEY_STAT then
    flagAt 31 (keySlot i s).hash.isSome ||| flagAt 30 (keySlot i s).revoked
  else if r = IMG_KEY_HASH then (match (keySlot i s).hash with | some h => w32 (leAt h 0 4) | none => 0)
  else rg r i s

/-- The state code of WPT_S_STAT. -/
def sessionCode (i : Nat) (s : State) : Nat :=
  if ¬ bit (rg WPT_S_CFG i s) 31 then 0 else if sessionOpened i s then 2 else 1

/-- The time left of the watchdog's stage in ms, as a read shows it (R450, R454): it runs on OSC, so that within 10 % of the time
gone it is free, and it never rises within a stage: the register keeps what the read before showed. -/
def wdogLeft (s : State) : Nat :=
  let full := max 1 (if rgF SYS_WDOG_STAT 0 17 16 s = 0 then rgF SYS_WDOG_CFG 0 31 16 s else rgF SYS_WDOG_CFG 0 15 0 s)
  let gone := elapsedNs s - s.sys.wdogStart
  let most := min (rgF SYS_WDOG_STAT 0 15 0 s) (full - gone * 9 / 10000000)
  let least := full - (gone * 11 / 10000000 + 1)
  if least < most then most - Config.oscCount s.draws % (most - least + 1) else most

/-- Registers of the other blocks that show what no register keeps. -/
def readOther (r i : Nat) (s : State) : Word :=
  if r = MFE_TRK_STAT then
    rg r i s ||| w32 (if bit (rg MFE_TRK_CFG i s) 0 then (tracker i s).state.code else 0)
  else if r = SHF_CAUSE_SUM then
    w32 ((List.range 16).foldl (fun n c => n + b2n (rg SHF_CAUSE c s != 0) * 2 ^ c) 0)
  else if r = SHF_POS_LAP then flagAt 31 (shfReferenced i s) ||| w32 (shaft i s).lap.toNat
  else if r = QMG_Q_STAT then
    rg r i s ||| w32 ((queueRun i s).holding.length * 2 ^ 8 + (queueRun i s).prefetch.length % 16 * 2 ^ 4)
  else if DMA_BUSY ≤ r ∧ r < DMA_BUSY + 12 then
    w32 ((List.range 32).foldl (fun n j =>
      let c := 32 * ((r - DMA_BUSY) / 4) + j
      n + b2n (decide (c < 72) && dmaBusy c s) * 2 ^ j) 0)
  else if r = JNL_P_CREDIT then
    w32 ((drainPath i s).alarmMilli / 1000 % 65536 * 65536 + (drainPath i s).generalMilli / 1000 % 65536)
  else if r = FLT_SUM_LO ∨ r = FLT_SUM_HI then
    w32 ((List.range 32).foldl (fun n j => n + b2n (groupSum ((r - FLT_SUM_LO) / 4 * 32 + j) s) * 2 ^ j) 0)
  else if r = TWN_CLAIM then claimNumber s
  else if r = SYS_WDOG_STAT then setFld (rg r i s) 15 0 (wdogLeft s)
  else if r = WPT_S_STAT then
    rg r i s ||| w32 ((session i s).queue.length * 2 ^ 4) ||| flagAt 2 (session i s).pending.isSome
      ||| w32 (sessionCode i s)
  else rg r i s

/-- The stored and the live bits of a register instance. -/
def readInst (path r i : Nat) (s : State) : Word :=
    match r / 0x1000 with
    | 0x01 => readMpt r i s
    | 0x02 => readRoa r i s
    | 0x03 => readMst path r i s
    | 0x06 => readLnc r i s
    | 0x07 => readFpa r i s
    | 0x08 => readMac r i s
    | 0x09 => readJct r i s
    | 0x0A => readTpk r i s
    | 0x14 => readImg r i s
    | _ => readOther r i s

/-- What a read of a register returns on a path (R6, R7, R10); wo registers read 0, as nothing is stored in them. -/
def regValue (path r : Nat) (s : State) : Word :=
  match reachInst path r s with
  | none => 0
  | some i => readInst path r i s &&& ~~~(absentBits r i s)

/-- What a read does besides: latched copies and FIFO heads (R25, R39, R66, R105), and one free value used (R450). -/
def readEffect (path r : Nat) (s : State) : State :=
  if r = MPT_NS then mptNsRead path s
  else if r = MPT_TS2_TIME then mptTs2TimeRead path s
  else if r = ROA_POS_LAP then roaPosLapRead path s
  else if r = SHF_POS_LAP then shfPosLapRead path s
  else if r = SYS_WDOG_STAT then setRgF SYS_WDOG_STAT 0 15 0 (wdogLeft s) { s with draws := s.draws + 1 }
  else s

/-- A read at an offset of the register space: its value, and the state after it. -/
def regRead (path off : Nat) (s : State) : State × Word :=
  match regNumber off with
  | some r => (readEffect path r s, regValue path r s)
  | none => (s, 0)

/-! ### Writing -/

/-- The rw bits of a register instance: some fields are absent on some instances. -/
def rwMask (r i : Nat) (s : State) : Word := w32 (regRow r).rw &&& ~~~(absentBits r i s)

/-- A write under the access codes (R6, R7). -/
def storeReg (r i : Nat) (v : Word) (s : State) : State :=
  let rw := rwMask r i s
  let old := rg r i s
  setRg r i (clampValue r i ((old &&& ~~~rw ||| v &&& rw) &&& ~~~(v &&& w32 (regRow r).w1c))) (noteHeld r i s)

/-- Perform a write where the path reaches an instance whose function is not in reset (R10, R444). -/
def atReg (path r : Nat) (f : Nat → State → State) (s : State) : State :=
  match reachInst path r s with
  | some i => if writable path r i s then f i s else s
  | none => s

/-- A write of FPA_PORT_CFG, FPA_T1S_PLCA, FPA_SER_CFG or FPA_SER_BIT: enable 0 takes the link down and ends what
FPA_PORT_STAT shows of it, PLCA that is turned off is not active, a serial port's link follows its settings, an invalid bit
time is reported, and reset starts the port's reset (R171, R173, R175, R189, R191). -/
def fpaWrite (r p : Nat) (v : Word) (s : State) : State :=
  let s := serialBitCheck r p (serialRelink p (storeReg r p v s))
  let s := onlyIf (r == FPA_T1S_PLCA && !plcaRuns p s) (setRgF FPA_PORT_STAT p 13 13 0) s
  let s := onlyIf (r == FPA_PORT_CFG && !bit v 8) (fun s => clearLinkStatus p (setLink p false s)) s
  onlyIf (r == FPA_PORT_CFG && bit v 9) (startReset p) s

/-- A write of LNC_DST_CTRL (R121, R133, R135). -/
def dstCtrlWrite (d : Nat) (v : Word) (s : State) : State :=
  let s := storeReg LNC_DST_CTRL d v s
  let s := onlyIf (bit v 0) (districtReset d) s
  let s := onlyIf (bit v 1) (districtHalt d) s
  onlyIf (bit v 2) (districtResume d) s

/-- A write of a shaper's registers: a change of shape_en sets the credit to 0, a burst below the credit clamps it
(R243). -/
def shaperWrite (b : Shaper) (r i : Nat) (v : Word) (s : State) : State :=
  let was := b.enabled s
  let s := storeReg r i v s
  if b.enabled s ≠ was then b.setCredit 0 s
  else if b.cap s < b.credit s then b.setCredit (b.cap s) s
  else s

/-- A write of TPK_SUB_CFG: the owning port changes only while the subscriber is not valid and holds no copy. -/
def subCfgWrite (n : Nat) (v : Word) (s : State) : State :=
  let free := !bit (rg TPK_SUB_CFG n s) 31 && !(Shaper.active (.sub n) s)
  let v := if free then v else setFld v 7 0 (rgF TPK_SUB_CFG n 7 0 s)
  shaperWrite (.sub n) TPK_SUB_CFG n v s

/-- A write that a pending switch-over refuses and counts (R251). -/
def gateCfgWrite (p : Nat) (f : State → State) (s : State) : State :=
  if gatePending p s then bump TPK_P_CNT p 15 8 s else f s

/-- A write of TPK_TOLL_CBS or TPK_TOLL_PBS: a bucket above the new burst is clamped to it. -/
def tollWrite (r i : Nat) (v : Word) (s : State) : State :=
  let s := storeReg r i v s
  setTollP i (tollP i s) (setTollC i (tollC i s) s)

/-- Writes of the TPK block. -/
def tpkWrite (path r : Nat) (v : Word) (s : State) : State :=
  let at' := atReg path r
  if r = TPK_MAP_CMD then mapCmdWrite path v s
  else if r = TPK_GCL_COMMIT then gclCommitWrite path v s
  else if r = TPK_GCL_CFG ∨ (TPK_GCL_BASE_LO ≤ r ∧ r ≤ TPK_GCL_CYC_HI) then
    at' (fun p => gateCfgWrite p (storeReg r p v)) s
  else if r = TPK_GCL_ENT0 ∨ r = TPK_GCL_ENT1 then
    at' (fun k => gateCfgWrite (k / 256) (setAdminHalf (r = TPK_GCL_ENT1) k v)) s
  else if TPK_P_CFG ≤ r ∧ r ≤ TPK_P_BURST then at' (fun p => shaperWrite (.port p) r p v) s
  else if TPK_S_CFG ≤ r ∧ r ≤ TPK_S_BURST then at' (fun k => shaperWrite (.service k) r k v) s
  else if r = TPK_SUB_CFG then at' (fun n => subCfgWrite n v) s
  else if r = TPK_SUB_RATE ∨ r = TPK_SUB_BURST then at' (fun n => shaperWrite (.sub n) r n v) s
  else if r = TPK_TOLL_CBS ∨ r = TPK_TOLL_PBS then at' (fun i => tollWrite r i v) s
  else at' (fun i => storeReg r i v) s

/-- Writes of a check context: a write of its configuration drops the held expectation, and a write that
makes the check field overlap the covered region sets cfg_err (R278, R279). -/
def chkWrite (r c : Nat) (v : Word) (s : State) : State :=
  let s := storeReg r c v s
  let s := onlyIf (r == CHK_CTX_CFG) (setRgF CHK_CTX_STAT c 31 31 0) s
  onlyIf ((r == CHK_CTX_CFG || r == CHK_CTX_COV || r == CHK_CTX_FLD) && chkOverlap c s)
    (setCause CHK_CTX_CAUSE c 3) s

/-- Writes of the queue manager (R290-R292). -/
def qmgWrite (path r : Nat) (v : Word) (s : State) : State :=
  if r = QMG_DOORBELL then atReg path r (fun _ s => (doorbellOp (fld v 9 0) (edgeNow s) .ok s).1) s
  else if r = QMG_INVAL then invalWrite path v s
  else if r = QMG_Q_CFG then queueEnable path v .ok s
  else if QMG_Q_BUF ≤ r ∧ r ≤ QMG_Q_IDX_HI then
    atReg path r (fun q s => if bit (rg QMG_Q_CFG q s) 31 then s else storeReg r q v s) s
  else atReg path r (fun i => storeReg r i v) s

/-- Writes of a DMA channel (R310, R313). -/
def dmaWrite (r c : Nat) (v : Word) (s : State) : State :=
  if r = DMA_CTRL then
    let s := onlyIf (bit v 2) (dmaDisarm c) s
    let s := onlyIf (bit v 1) (dmaArmOp c) s
    onlyIf (bit v 0) (dmaStart c) s
  else if DMA_SRC_LO ≤ r ∧ r ≤ DMA_METER ∧ r ≠ DMA_CAUSE ∧ dmaBusy c s then s
  else storeReg r c v s

/-- Writes of the twin unit (R363, R370, R374). -/
def twnWrite (path r : Nat) (v : Word) (s : State) : State :=
  if r = TWN_CTRL then twnCtrlRejoin path v s
  else
    let code := s.twn.state.code
    if (r = TWN_EPOCH ∧ 1 < code) ∨ (r = TWN_STEP ∧ code ≠ 0) then s
    else atReg path r (fun i => storeReg r i v) s

/-- Close a host session: its epochs are cleared and its window is emptied (R409, R410). -/
def closeSession (i : Nat) (s : State) : State :=
  let s := setSession i { session i s with pending := none, seen := 0 } s
  setRg WPT_S_EPOCH i 0 (setRg WPT_S_HI i 0 s)

/-- A write of WPT_S_CFG: a session that is disabled closes, unless its own batch runs (R409). -/
def sessionCfgWrite (path i : Nat) (v : Word) (s : State) : State :=
  let s := storeReg WPT_S_CFG i v s
  onlyIf (!bit v 31 && decide (path ≠ 4 + i)) (closeSession i) s

/-- What follows a session's own batch: its close, and the reset of function 210 that it asked for (R409, R444). -/
def afterBatch (path : Nat) (s : State) : State :=
  if path < 4 then s
  else
    let s := onlyIf (!bit (rg WPT_S_CFG (path - 4) s) 31) (closeSession (path - 4)) s
    if s.wpt.resetDue then startReset 210 { s with wpt := { s.wpt with resetDue := false } } else s

/-- The time since a first write is at most 1 ms of Milepost (R422, R450). -/
def within1ms (t : Option Word) (s : State) : Bool := t.any fun x => decide (sub32 (now s) x ≤ 1000000)

/-- Writes of the system unit (R436, R444, R450). -/
def sysWrite (path r : Nat) (v : Word) (s : State) : State :=
  if r = SYS_RST then
    if bit v 30 then softwareReset v (strapsNow s) { s with draws := s.draws + 1 }
    else if bit v 31 ∧ fld v 7 0 = 210 ∧ 4 ≤ path ∧ path < 8 then { s with wpt := { s.wpt with resetDue := true } }
    else functionReset v s
  else if r = SYS_WDOG_KICK then watchdogKick v (within1ms s.sys.kickFirst s) s
  else atReg path r (fun i => storeReg r i v) s

/-- Writes of the blocks that act on their lanes, ports and streams. -/
def unitWrite (path r : Nat) (v : Word) (s : State) : State :=
  let at' := atReg path r
  if r = ROA_SRC then roaSrcWrite path v s
  else if r = ROA_PERIOD then roaPeriodWrite path v s
  else if r = ROA_CTRL then roaCtrlWrite path v s
  else if r = MST_COMMIT then mstCommit path v s
  else if r = MST_CTRL then mstCtrlEnableWrite path v s
  else if r = MST_PLC_CUR then mstPlcCurWrite path v s
  else if r = MST_SW_PULSE then mstSwPulse path v s
  else if r = MFE_TRK_CFG then mfeTrkCfgWrite path v s
  else if r = SHF_CFG then shfCfgWrite path v s
  else if r = SHF_CPR then shfCprWrite path v s
  else if r = SHF_SSI then shfSsiWrite path v s
  else if r = LNC_LANE_CTRL then at' (fun l => onlyIf (bit v 0) (laneReset l)) s
  else if r = LNC_DST_CTRL then at' (fun d => dstCtrlWrite d v) s
  else if r = LNC_DST_FRX then lncDstFrxWrite path v s
  else if r = FPA_PORT_CFG ∨ r = FPA_T1S_PLCA ∨ r = FPA_SER_CFG ∨ r = FPA_SER_BIT then at' (fun p => fpaWrite r p v) s
  else if r = FPA_VRG_CTRL then vergeCtrlWrite path v s
  else if r = MAC_PAUSE_CFG then macPauseCfgWrite path v s
  else if r = MAC_PAUSE_TX then macPauseTxWrite path v s
  else if r = MAC_PRE_CFG then macPreCfgWrite path v s
  else if r = JCT_TBL_CMD then tblCmdWrite path v s
  else if r = FRE_STR_CFG then at' (fun n => freCfgWrite n (v &&& rwMask r n s)) s
  else if r = FRE_STR_REC then at' (fun n => freRecWrite n (v &&& rwMask r n s)) s
  else if r = FRE_STR_LAT then at' (fun n => freLatWrite n (v &&& rwMask r n s)) s
  else if r = FRE_STR_SEQ then at' (fun n => freSeqWrite n v) s
  else at' (fun i => storeReg r i v) s

/-- A write to a register through a path, whose access has been found good. -/
def writeReg (path r : Nat) (v : Word) (s : State) : State :=
  match r / 0x1000 with
  | 0x00 => sysWrite path r v s
  | 0x01 =>
    if r = MPT_INCR_FRAC then mptIncrFracWrite path v s
    else if r = MPT_INCR_INT then mptIncrIntWrite path v s
    else if r = MPT_SET_NS ∨ r = MPT_SET_FRAC then mptSetWrite path r v s
    else if r = MPT_STEP then mptStepGo path v s
    else if r = MPT_FW_SET then mptFwSetWrite path v s
    else atReg path r (fun i => storeReg r i v) s
  | 0x0A => tpkWrite path r v s
  | 0x0C => atReg path r (fun c => chkWrite r c v) s
  | 0x0D => qmgWrite path r v s
  | 0x0E => atReg path r (fun c => if r = DMA_SEL then storeReg r c v else dmaWrite r c v) s
  | 0x0F =>
    if r = JNL_P_PORT then jnlPortWrite path v s
    else if r = JNL_P_CFG then
      atReg path r (fun p s =>
        let s := storeReg r p v s
        onlyIf (bit (rg JNL_P_CFG p s) 31) (checkPath p) s) s
    else if r = JNL_ALM_ACK then jnlAlmAckWrite path v s
    else atReg path r (fun i => storeReg r i v) s
  | 0x10 =>
    if r = FLT_G_STICKY then atReg path r (fun g => stickyClear g v) s
    else if r = FLT_G_FORCE then fltGForceWrite path v s
    else if r = FLT_SAFE_CTRL then fltSafeRelease path v s
    else if FLT_ISO ≤ r ∧ r < FLT_EVT_S then fltIsoClear path ((r - FLT_ISO) / 4) v s
    else atReg path r (fun i => storeReg r i v) s
  | 0x11 => twnWrite path r v s
  | 0x13 =>
    if r = WPT_S_CFG then atReg path r (fun i => sessionCfgWrite path i v) s
    else atReg path r (fun i => storeReg r i v) s
  | 0x14 =>
    if r = IMG_CTRL then imgCtrlWrite v s
    else if r = IMG_REVOKE then imgRevokeWrite path v (within1ms (s.img.revokeFirst.map fun x => x.2.2) s) s
    else atReg path r (fun i => storeReg r i v) s
  | _ => unitWrite path r v s

/-- A write at an offset of the register space; an offset that no register occupies ignores it (R7). -/
def regWrite (path off : Nat) (v : Word) (s : State) : State :=
  match regNumber off with
  | some r => writeReg path r v s
  | none => s

/-! ### REGISTER_WRITE (R4, R6-R10) -/

/-- Hardware sets one w1c bit: a sticky bit, a half-range flag or a cause bit rises as it always does (R203, R323). -/
def hardwareRaise (r i b : Nat) (s : State) : State :=
  if r = FLT_G_STICKY then raiseSrc (32 * i + b) s
  else if r = MAC_HALF0 ∨ r = MAC_HALF1 then setHalf i (b + (if r = MAC_HALF0 then 0 else 32)) s
  else if (causeSource r i b).isSome then setCause r i b s
  else setRg r i (setBit (rg r i s) b true) s

/-- What hardware does to a register in the cycle of a write (R8): it clears and sets w1c bits, and moves rw bits and the
rd bits that report; no unit moves a force bit. A MAC counter's bit 31 that rises is its half-range event (R203). -/
def hardwareActs (r i : Nat) (set clr : Word) (s : State) : State :=
  let w1c := w32 (regRow r).w1c
  let move := if r = FLT_G_FORCE then 0 else rwMask r i s ||| reportBits r
  let old := rg r i s
  let s := onlyIf (set != 0 || clr != 0)
    (setRg r i ((rg r i s &&& ~~~(clr &&& (w1c ||| move))) ||| (set &&& move))) s
  let s := onlyIf (decide (MAC_CNT ≤ r ∧ r < MAC_CNT + 256) && !bit old 31 && bit (rg r i s) 31) (setHalf i ((r - MAC_CNT) / 4)) s
  forEach ((List.range 32).filter fun b => bit (set &&& w1c) b) (hardwareRaise r i) s

/-- Perform a write unless it is refused. A w1c bit that hardware sets in the same cycle stays 1; a field that
hardware updates takes the software value; every other action applies (R8). -/
def registerWrite (path addr size : Nat) (value hwSet hwClr : Word) (s : State) : State :=
  match regNumber (addr - regBase) with
  | none => s
  | some r =>
    let s := if addr < regBase then s else atReg path r (fun i => hardwareActs r i hwSet hwClr) s
    if accessError path true addr size s then s
    else afterBatch path (writeReg path r (value &&& ~~~(hwSet &&& w32 (regRow r).w1c)) s)

/-- REGISTER_WRITE. -/
def execRegisterWrite (path : Path) (addr size : Nat) (value hwSet hwClr : Word) (s : State) : Out :=
  .next (registerWrite path addr size value hwSet hwClr s)

/-! ### HOST_WORK_ENTRY (R299) -/

/-- The error code of a host-work entry; 0 for none (R299, R303). -/
def hostWorkError (e : Bytes) : Nat :=
  if ¬ zeroAt e 5 3 ∨ ¬ zeroAt e 8 2 ∨ leAt e 11 1 &&& 0xDF ≠ 0 ∨ ¬ zeroAt e 24 8 then 2
  else if leAt e 0 5 < regBase then 5
  else if 1 < leAt e 10 1 then 6
  else 0

/-- The access of a host-work entry is done: the entry has its outcome, before a shutdown that the access began goes on (R305);
a reset of the queue manager by the access leaves nothing to complete (R308). -/
def endHostWork (q : Nat) (x : QueueAnswers) (value : Nat) (e : Bytes) (s : State) : State :=
  if (queueRun q s).busy then settleQueue q x (finishEntry q x 0 value e (setQueueRun q { queueRun q s with busy := false } s))
  else s

/-- HOST_WORK_ENTRY: the access runs on the path of the queue's session. -/
def hostWorkEntry (q : Nat) (x : QueueAnswers) (s : State) : State :=
  withEntry q 3 x (fun e s =>
    let k := hostWorkError e
    let path := 4 + rgF QMG_Q_CFG q 9 8 s
    let write := leAt e 10 1 = 1
    let off := leAt e 0 5 - regBase
    if k ≠ 0 then failEntry q x k e s
    else if accessError path write (leAt e 0 5) 4 s then finishEntry q x 6 0 e s
    else
      let s := setQueueRun q { queueRun q s with busy := true } s
      if write then afterBatch path (endHostWork q x 0 e (regWrite path off (w32 (leAt e 12 4)) s))
      else
        let r := regRead path off s
        endHostWork q x r.2.toNat e r.1) s
def execHostWorkEntry (queue : Fin 1024) (ans : QueueAnswers) (s : State) : Out := .next (hostWorkEntry queue ans s)

end Sys2Proof.Machine
end

