-- ==== Sys2Proof/Machine/WaypostExec.lean ====
section
/-! DEFINITION. Carrying out host requests: register batches, memory, doorbells, image transfers and LM64 transactions
(R400-R408, R424, R430). -/

set_option Elab.async false

namespace Sys2Proof.Machine

open Sys2Proof

/-- A request's answer: status and payload; none when the answer comes later. -/
abbrev Reply := Option (Nat × Bytes)

abbrev stDone : Nat := 0
abbrev stType : Nat := 1
abbrev stAccess : Nat := 2
abbrev stMalformed : Nat := 3
abbrev stMemory : Nat := 4
abbrev stBusy : Nat := 5
abbrev stRefused : Nat := 6
abbrev stRights : Nat := 7
abbrev stNoMapper : Nat := 8
abbrev stMapperTimeout : Nat := 9

/-! ### REG_RD and REG_WR (R400, R404, R442) -/

/-- The bare state lets a REG_WR reach SYS, FLT and IMG only (R442). -/
def bareBars (off : Nat) (s : State) : Bool :=
  s.sys.phase == .bare && !(off / 0x10000 == 0 || off / 0x10000 == 0x10 || off / 0x10000 == 0x14)

/-- The endpoint has itself been reset by an access of the batch. -/
def batchEnds (s : State) : Bool := s.sys.phase == .reset

/-- Accesses of a REG_RD in item order, up to the first that fails: status, accesses done, values. -/
def readBatch (path : Nat) : List Nat → State → State × Nat × Nat × Bytes
  | [], s => (s, stDone, 0, [])
  | off :: t, s =>
    if accessError path false (regBase + off) 4 s then (s, stAccess, 0, [])
    else
      let r := regRead path off s
      let x := readBatch path t r.1
      (x.1, x.2.1, x.2.2.1 + 1, beBytes 4 r.2.toNat ++ x.2.2.2)

/-- Accesses of a REG_WR in item order, up to the first that fails. -/
def writeBatch (path : Nat) : List (Nat × Word) → State → State × Nat × Nat
  | [], s => (s, stDone, 0)
  | (off, v) :: t, s =>
    if batchEnds s then (s, stDone, 0)
    else if accessError path true (regBase + off) 4 s ∨ bareBars off s then (s, stAccess, 0)
    else
      let x := writeBatch path t (regWrite path off v s)
      (x.1, x.2.1, x.2.2 + 1)

/-- A batch of n items of `size` bytes, n from 1 to 64. -/
def batchOk (size : Nat) (p : Bytes) : Bool :=
  decide (p.length % size = 0) && decide (1 ≤ p.length / size ∧ p.length / size ≤ 64)

def regRdReq (i : Nat) (p : Bytes) (s : State) : State × Reply :=
  if ¬ batchOk 4 p then (s, some (stMalformed, []))
  else
    let r := readBatch (4 + i) ((List.range (p.length / 4)).map fun k => beAt p (4 * k) 4) s
    (r.1, some (r.2.1, beBytes 2 r.2.2.1 ++ [0, 0] ++ r.2.2.2))

def regWrReq (i : Nat) (p : Bytes) (s : State) : State × Reply :=
  if ¬ batchOk 8 p then (s, some (stMalformed, []))
  else
    let r := writeBatch (4 + i)
      ((List.range (p.length / 8)).map fun k => (beAt p (8 * k) 4, w32 (beAt p (8 * k + 4) 4))) s
    (r.1, some (r.2.1, beBytes 2 r.2.2 ++ [0, 0]))

/-! ### MEM_RD and MEM_WR (R400, R404, R405) -/

/-- Address and length of a memory request whose body is well formed. -/
def memBody (p : Bytes) (write : Bool) : Option (Nat × Nat) :=
  let a := beAt p 0 8
  let len := beAt p 8 2
  if p.length < 12 ∨ 2 ^ 40 ≤ a ∨ len < 4 ∨ 1024 < len ∨ len % 4 ≠ 0 ∨ beAt p 10 2 ≠ 0
      ∨ p.length ≠ 12 + (if write then len else 0) then none
  else some (a, len)

def memRdReq (p : Bytes) (ans : MemAnswer) (s : State) : State × Reply :=
  match memBody p false with
  | none => (s, some (stMalformed, []))
  | some (a, len) =>
    if ¬ canReach .hostRead false a len s then (s, some (stAccess, []))
    else
      let x := answer a ans s
      let s := noteAnswer a x s
      if memGood x then (s, some (stDone, rdBytes a len s)) else (s, some (stMemory, []))

/-- A range in lane local or district memory, which step mode orders (R405). -/
def laneRange (a : Nat) (s : State) : Bool := regionOf a s == .laneLocal || regionOf a s == .districtMem

/-- Bytes that `units` aligned units of 16 bytes from `a` hold. -/
def unitBytes (a units : Nat) : Nat := if units = 0 then 0 else 16 * units - a % 16

/-- Write the data of a MEM_WR: all of it, or the units before the one that fails. -/
def memWrite (a : Nat) (d : Bytes) (ans : MemAnswer) (units : Nat) (s : State) : State × Reply :=
  let x := answer a ans s
  let s := noteAnswer a x s
  if memGood x then (wrBytes a d s, some (stDone, []))
  else (wrBytes a (d.take (min (d.length - 1) (unitBytes a units))) s, some (stMemory, []))

/-- Forward a host command, header and payload, to the merged stream; its response waits for the boundary (R355, R405). -/
def forwardHost (i : Nat) (req : WpRequest) (s : State) : State :=
  let s := setSession i { session i s with waiting := (session i s).waiting ++ [(s.twn.inputSeq, req)] } s
  captureInput inputHost
    (wpHeader req.kind.toNat i 0 req.epoch req.seq req.payload.length 0 ++ req.payload) s

def memWrReq (i : Nat) (req : WpRequest) (ans : MemAnswer) (units : Nat) (s : State) : State × Reply :=
  match memBody req.payload true with
  | none => (s, some (stMalformed, []))
  | some (a, len) =>
    if ¬ canReach .hostWrite true a len s then (s, some (stAccess, []))
    else if stepMode s ∧ laneRange a s then (forwardHost i req s, none)
    else memWrite a (req.payload.drop 12) ans units s

/-! ### DOORBELL (R400, R290) -/

def doorbellReq (p : Bytes) (ans : MemAnswer) (s : State) : State × Reply :=
  let n := beAt p 0 2
  let qs := (List.range n).map fun k => beAt p (2 + 2 * k) 2
  if n < 1 ∨ 16 < n ∨ p.length ≠ 2 + 2 * n ∨ qs.any fun q => decide (1023 < q) then (s, some (stMalformed, []))
  else (forEach qs (fun q s => (doorbellOp q (edgeNow s) ans s).1) s, some (stDone, []))

/-! ### IMG_CHUNK and IMG_COMMIT (R400, R424, R430) -/

def imgChunkReq (i : Nat) (p : Bytes) (s : State) : State × Reply :=
  let off := beAt p 0 4
  let len := beAt p 4 2
  let target := beAt p 6 1
  if p.length ≠ 8 + len ∨ len < 1 ∨ 1024 < len ∨ 2 < target ∨ beAt p 7 1 ≠ 0 then (s, some (stMalformed, []))
  else if abortsNow s then (s, some (stMalformed, []))
  else if loaderBusy s ∨ s.img.transfer.any (fun x => x.2 != i) then (s, some (stBusy, []))
  else if off % 16 ≠ 0 ∨ imgMax < off + len ∨ s.img.transfer.any (fun x => x.1 != target) then
    (closeTransfer s, some (stMalformed, []))
  else
    (setImg (fun x => { x with transfer := some (target, i), staging := stageBytes off (p.drop 8) x.staging,
                               received := addInterval off (off + len) x.received }) s, some (stDone, []))

/-- A commit that is refused before its image is verified. -/
def commitRefused (status code : Nat) (who : Asker) (s : State) : State × Reply :=
  let s := match who with
    | .relay .. => { s with hie := { s.hie with lastRefused := true } }
    | _ => s
  (imgRefuse { code := code } s, some (status, [BitVec.ofNat 8 code, 0, 0, 0]))

def imgCommitReq (i : Nat) (p : Bytes) (who : Asker) (s : State) : State × Reply :=
  let total := beAt p 0 4
  let target := beAt p 4 1
  if p.length ≠ 8 ∨ 2 < target ∨ beAt p 5 3 ≠ 0 ∨ abortsNow s then (s, some (stMalformed, []))
  else if loaderBusy s then commitRefused stBusy 25 who s
  else if s.img.transfer.any (fun x => x.2 != i) then (s, some (stBusy, []))
  else if s.img.transfer ≠ some (target, i) ∨ total ≠ hdrTotal (stagedBytes 256 s) ∨ ¬ receivedAll total s then
    commitRefused stRefused 27 who (closeTransfer s)
  else
    (closeTransfer (setImg (fun x => { x with verifying := some { image := stagedBytes total s, target := target, who := who } }) s),
     none)

/-! ### LM64 transactions (R406-R408) -/

def lm64Op (p : Bytes) : Nat := beAt p 2 1
def lm64Count (p : Bytes) : Nat := beAt p 3 1

/-- An LM64 response to a message: its txn, its op plus 0x80, and the items. -/
def lm64Response (p : Bytes) (items : List Bytes) : Bytes :=
  slice p 0 2 ++ beBytes 1 (lm64Op p + 0x80) ++ beBytes 1 items.length ++ items.flatten

/-- Size of a request item. -/
def lm64ItemSize (op : Nat) : Nat := if op = 2 then 8 else 2

/-- The message has a known op, 1 to 128 items and their length, and the bytes that are 0 in a WRITE_OUT item are. -/
def lm64Ok (p : Bytes) : Bool :=
  let op := lm64Op p
  decide (1 ≤ op ∧ op ≤ 3) && decide (1 ≤ lm64Count p ∧ lm64Count p ≤ 128)
    && decide (p.length = 4 + lm64Count p * lm64ItemSize op)
    && (op != 2 || (List.range (lm64Count p)).all fun k => beAt p (6 + 8 * k) 2 == 0)

/-- A lane of districts 60-63 can take a transaction (R408). -/
def mapperUp (s : State) : Bool := (List.range 64).any fun k => takesJobs (960 + k) s

/-- The map's entry of a point. -/
def pointEntry (n : Nat) (s : State) : Option Bytes :=
  (pointEntries s.img.resident).find? fun v => decide (pointNumber v = n)

/-- Quality of a value of an age in ns: stale beyond the point's maximum age. -/
def agedQuality (v : Bytes) (age : Nat) : Nat := if pointAge v ≠ 0 ∧ pointAge v * 1000000 < age then 1 else 0

/-- Quality and value of a point kept in `PointRun`. -/
def heldPoint (v : Bytes) (s : State) : Nat × Word :=
  let p := pointRun (pointNumber v) s
  match p.updated with
  | none => (if p.bad then 2 else 3, p.value)
  | some t => (if p.bad then 2 else agedQuality v (elapsedNs s - t), p.value)

/-- Quality and value of an input point now. -/
def readPoint (v : Bytes) (s : State) : Nat × Word :=
  match pointKind v with
  | 1 =>
    let a := snapAddr (pointBind v) s
    if sget 0 (pointBind v) s.snapCount = 0 then (3, 0)
    else (agedQuality v (ageOf (rdWord a s) (sget 0 (pointBind v) s.snapAt) s), w32 ((rdWord (a + pointOffset v) s).toNat % 2 ^ pointWidth v))
  | 2 =>
    let r := road (leAt v 8 1) s
    let x := Config.roadPoint r.pub (pointWidth v)
    match r.state with
    | .tracking | .coasting | .held => (agedQuality v (ageOf r.tS r.obsAt s), x)
    | .lost => (1, x)
    | .idle | .acquiring => (3, x)
  | _ => heldPoint v s

/-- The slot of a snapshot point can be read (R477, R478). -/
def slotReadable (v : Bytes) (s : State) : Bool :=
  let a := snapAddr (pointBind v) s
  pointKind v != 1 || (canReach .unit false a 256 s && memGood (answer a .ok s))

/-- A response item of READ_IN or READ_OUT; quality and value of an item that fails are free values, and so are those of a
snapshot point whose slot memory does not serve. -/
def readItem (out : Bool) (n : Nat) (s : State) : State × Bytes :=
  let item (status quality : Nat) (v : Word) : Bytes :=
    beBytes 2 n ++ beBytes 1 status ++ beBytes 1 quality ++ beBytes 4 v.toNat
  let bad (status : Nat) : State × Bytes :=
    ({ s with draws := s.draws + 5 }, beBytes 2 n ++ beBytes 1 status ++ freeBytes s.draws 5)
  match pointEntry n s with
  | none => bad 1
  | some v =>
    if pointIsOut v ≠ out then bad 2
    else if ¬ out ∧ ¬ slotReadable v s then bad 0
    else
      let x := if out then heldPoint v s else readPoint v s
      (s, item 0 x.1 x.2)

/-- A WRITE_OUT item: the field of its trigger slot takes the value. Answers the response item, and the slot written. -/
def writeItem (n : Nat) (x : Word) (s : State) : State × Bytes × Option Nat :=
  let item (status : Nat) : Bytes := beBytes 2 n ++ beBytes 1 status ++ [0]
  match pointEntry n s with
  | none => (s, item 1, none)
  | some v =>
    if ¬ pointIsOut v then (s, item 2, none)
    else if 2 ^ pointWidth v ≤ x.toNat then (s, item 3, none)
    else
      let a := trigAddr (pointBind v) s + pointOffset v
      let s := onlyIf (canReach .unit true a (pointBytes v) s) (wrBytes a (beBytes (pointBytes v) x.toNat)) s
      (setPointRun n { value := x, updated := some (elapsedNs s) } s, item 0, some (pointBind v))

/-- READ_IN or READ_OUT items in order. -/
def readItems (out : Bool) : List Nat → State → State × List Bytes
  | [], s => (s, [])
  | n :: t, s =>
    let r := readItem out n s
    let x := readItems out t r.1
    (x.1, r.2 :: x.2)

/-- WRITE_OUT items in order, and the trigger slots they wrote. -/
def writeItems : List (Nat × Word) → State → State × List Bytes × List Nat
  | [], s => (s, [], [])
  | (n, v) :: t, s =>
    let r := writeItem n v s
    let x := writeItems t r.1
    (x.1, r.2.1 :: x.2.1, r.2.2.toList ++ x.2.2)

/-- Each slot once, in the order of first writing. -/
def eachOnce : List Nat → List Nat
  | [] => []
  | a :: t => a :: (eachOnce t).filter fun x => x != a

/-- The mapper handles a well-formed message: its response; output frames leave once per frame (R407). -/
def lm64Run (p : Bytes) (s : State) : State × Bytes :=
  let n := lm64Count p
  if lm64Op p = 2 then
    let r := writeItems ((List.range n).map fun k => (beAt p (4 + 8 * k) 2, w32 (beAt p (8 + 8 * k) 4))) s
    (forEach (eachOnce r.2.2) (fun slot => triggerFrame slot .ok) r.1, lm64Response p r.2.1)
  else
    let r := readItems (lm64Op p = 3) ((List.range n).map fun k => beAt p (4 + 2 * k) 2) s
    (r.1, lm64Response p r.2)

/-- A transaction is answered and counted. -/
def lm64Answer (status : Nat) (payload : Bytes) (s : State) : State × Reply :=
  (bump WPT_LM64_CNT 0 31 16 s, some (status, payload))

/-- A transaction meets the mapper: its answer, or status 8. -/
def lm64Serve (p : Bytes) (s : State) : State × Nat × Bytes :=
  if ¬ mapperUp s then (s, stNoMapper, lm64Response p [])
  else
    let r := lm64Run p s
    (r.1, stDone, r.2)

def lm64Req (i : Nat) (req : WpRequest) (s : State) : State × Reply :=
  if ¬ lm64Mode s then (s, some (stType, []))
  else if ¬ lm64Ok req.payload then lm64Answer stMalformed (lm64Response req.payload []) s
  else if stepMode s then (forwardHost i req s, none)
  else
    let r := lm64Serve req.payload s
    lm64Answer r.2.1 r.2.2 r.1

/-! ### A request (R400-R402) -/

/-- Bit of WPT_S_CFG.rights that a type needs; none for a type that no host may send. -/
def rightOf (type : Nat) : Option Nat :=
  match type with
  | 1 => some 0 | 2 => some 1 | 3 => some 2 | 4 => some 3 | 5 => some 4 | 7 => some 5 | 8 => some 5 | 9 => some 6
  | 12 => some 7
  | _ => none

/-- A type that a host may send (R400). -/
def hostType (type : Nat) : Bool := (rightOf type).isSome

/-- Carry out a request on the access path of session `i`; a RELAY has its own rule, and a type that no host may send is
answered with status 1. -/
def perform (i : Nat) (req : WpRequest) (ans : MemAnswer) (units : Nat) (s : State) : State × Reply :=
  match req.kind.toNat with
  | 1 => regRdReq i req.payload s
  | 2 => regWrReq i req.payload s
  | 3 => memRdReq req.payload ans s
  | 4 => memWrReq i req ans units s
  | 5 => doorbellReq req.payload ans s
  | 7 => imgChunkReq i req.payload s
  | 8 => imgCommitReq i req.payload req.who s
  | 12 => lm64Req i req s
  | _ => (s, some (stType, []))

/-- The session's right for a type. -/
def mayAsk (i type : Nat) (s : State) : Bool :=
  match rightOf type with
  | some b => bit (rg WPT_S_CFG i s) (8 + b)
  | none => true

/-- A message whose right is clear (R402). -/
def noRight (i : Nat) (s : State) : State × Reply :=
  (setCause WPT_CAUSE 0 4 (bump WPT_S_DROP i 15 8 s), some (stRights, []))

/-- Carry out a request and answer whoever asked; a session that its own batch closes or resets follows. -/
def carryOut (i : Nat) (req : WpRequest) (ans : MemAnswer) (units : Nat) (s : State) : State :=
  let type := req.kind.toNat
  let r := if mayAsk i type s then perform i req ans units s else noRight i s
  let s := match r.2 with
    | some (status, payload) => answerAsker req.who type status payload r.1
    | none => r.1
  onlyIf (type == 2) (afterBatch (4 + i)) s

/-- Queue a request behind those of its session (R385, R398). -/
def queueRequest (i : Nat) (req : WpRequest) (s : State) : State :=
  setSession i { session i s with queue := (session i s).queue ++ [req] } s

/-! ### Host commands at their boundary (R127, R405) -/

/-- A mapper answer that comes after its status 9 is discarded and counted (R408). -/
def countLate (s : State) : State := setCause WPT_CAUSE 0 6 (bump WPT_LM64_CNT 0 15 0 s)

/-- Answer the host command of an input sequence number, where its session still waits for it; the answer of one that timed
out is late. -/
def answerForwarded (i : Nat) (key : Word) (status : Nat) (payload : Bytes) (s : State) : State :=
  match (session i s).waiting.find? fun x => x.1 = key with
  | some (_, req) =>
    let s := setSession i { session i s with waiting := (session i s).waiting.filter fun x => x.1 ≠ key } s
    answerAsker req.who req.kind.toNat status payload (onlyIf (req.kind == 12) (bump WPT_LM64_CNT 0 31 16) s)
  | none =>
    if s.wpt.lateKeys.contains key then
      countLate { s with wpt := { s.wpt with lateKeys := s.wpt.lateKeys.filter fun k => k ≠ key } }
    else s

/-- What memory does with a MEM_WR at its boundary. -/
def boundaryAnswer (n : Nat) : MemAnswer :=
  match (Config.boundaryFault n).toNat with
  | 2 => .uncorrectable
  | 3 => .noAnswer
  | _ => .ok

/-- A forwarded host command acts at its boundary; the unit that received it answers. `key` is its input sequence
number. -/
def stepHost (own : Bool) (key : Word) (body : Bytes) (s : State) : State :=
  let i := beAt body 2 1
  let len := beAt body 12 2
  let p := slice body 16 len
  let reply (r : Nat × Bytes) (s : State) : State := onlyIf own (answerForwarded i key r.1 r.2) s
  if beAt body 1 1 = wpImgCommit then stepImage (slice body (16 + len) 8) s
  else if beAt body 1 1 = wpMemWr then
    let n := s.draws
    let r := memWrite (beAt p 0 8) (p.drop 12) (boundaryAnswer n) (Config.unitsWritten n) { s with draws := n + 1 }
    reply (r.2.getD (stDone, [])) r.1
  else
    let r := lm64Serve p s
    reply r.2 r.1

/-- A commit that a request of a session asked for. -/
def commitOf (i : Nat) (c : Option Commit) : Bool :=
  match c with
  | some c => (match c.who with | .host j .. => j == i | .relay _ _ _ j .. => j == i | .nobody => false)
  | none => false

/-- A session whose last request has no answer yet waits with its next one. -/
def sessionBusy (i : Nat) (s : State) : Bool :=
  !(session i s).waiting.isEmpty || commitOf i s.img.verifying || commitOf i s.img.forwarded

/-- The session whose turn it is: round robin among those with a request to carry out (R404). -/
def turnSession (s : State) : Option Nat :=
  ((List.range 4).map fun k => (s.wpt.nextSession + k) % 4).find? fun i =>
    !(session i s).queue.isEmpty && !sessionBusy i s

/-- Take the head request of a session when it is its turn, the endpoint and its firmware run (R451) and the request is of
the kind. -/
def withRequest (i : Nat) (kind : WpRequest → Bool) (f : WpRequest → State → State) (s : State) : State :=
  match (session i s).queue with
  | [] => s
  | req :: t =>
    if inReset 210 s ∨ elapsedNs s < s.sys.restarted ∨ turnSession s ≠ some i ∨ ¬ kind req then s
    else
      f req (setSession i { session i s with queue := t } { s with wpt := { s.wpt with nextSession := (i + 1) % 4 } })

/-- A host request is carried out. -/
def hostRequest (i : Nat) (kind : WpRequest → Bool) (ans : MemAnswer) (units : Nat) (s : State) : State :=
  withRequest i kind (fun req s => carryOut i req ans units s) s

def isType (type : Nat) (req : WpRequest) : Bool := decide (req.kind.toNat = type)

/-- REG_RD; it also answers a request of a type that no host may send. -/
def execRegRd (session : Fin 4) (s : State) : Out :=
  .next (hostRequest session (fun r => isType 1 r || !hostType r.kind.toNat) .ok 0 s)
/-- REG_WR. -/
def execRegWr (session : Fin 4) (s : State) : Out := .next (hostRequest session (isType 2) .ok 0 s)
/-- MEM_RD. -/
def execMemRd (session : Fin 4) (ans : MemAnswer) (s : State) : Out := .next (hostRequest session (isType 3) ans 0 s)
/-- MEM_WR. -/
def execMemWr (session : Fin 4) (ans : MemAnswer) (unitsDone : Nat) (s : State) : Out :=
  .next (hostRequest session (isType 4) ans unitsDone s)
/-- DOORBELL. -/
def execDoorbell (session : Fin 4) (ans : MemAnswer) (s : State) : Out := .next (hostRequest session (isType 5) ans 0 s)
/-- IMG_CHUNK. -/
def execImgChunk (session : Fin 4) (s : State) : Out := .next (hostRequest session (isType 7) .ok 0 s)
/-- IMG_COMMIT. -/
def execImgCommit (session : Fin 4) (s : State) : Out := .next (hostRequest session (isType 8) .ok 0 s)

/-- READ_IN; it also answers a message of no op (R406). -/
def execReadIn (session : Fin 4) (s : State) : Out :=
  .next (hostRequest session (fun r => isType 12 r && lm64Op r.payload != 2 && lm64Op r.payload != 3) .ok 0 s)
/-- WRITE_OUT. -/
def execWriteOut (session : Fin 4) (s : State) : Out :=
  .next (hostRequest session (fun r => isType 12 r && lm64Op r.payload == 2) .ok 0 s)
/-- READ_OUT. -/
def execReadOut (session : Fin 4) (s : State) : Out :=
  .next (hostRequest session (fun r => isType 12 r && lm64Op r.payload == 3) .ok 0 s)

/-- Status 9 for a transaction. -/
def answerLate (req : WpRequest) (s : State) : State :=
  let r := lm64Answer stMapperTimeout (lm64Response req.payload []) s
  answerAsker req.who 12 stMapperTimeout (lm64Response req.payload []) r.1

/-- The mapper does not answer a transaction in time: status 9, and its answer is still to come (R408). In step mode that
is a transaction which waits for its boundary. -/
def lm64Late (i : Nat) (s : State) : State :=
  match (session i s).waiting.find? fun x => x.2.kind = 12 with
  | some (key, req) =>
    answerLate req (setSession i { session i s with waiting := (session i s).waiting.filter fun x => x.1 ≠ key }
      { s with wpt := { s.wpt with lateKeys := s.wpt.lateKeys ++ [key] } })
  | none =>
    withRequest i (fun r => isType 12 r && lm64Ok r.payload && lm64Mode s && !stepMode s && mayAsk i 12 s && mapperUp s)
      (fun req s => answerLate req { s with wpt := { s.wpt with lateTxns := s.wpt.lateTxns ++ [req.payload] } }) s

/-- LM64_TIMEOUT (R408). -/
def execLm64Timeout (session : Fin 4) (s : State) : Out := .next (lm64Late session s)

/-- LM64_LATE_ANSWER (R408): the mapper's job has run to its end; its answer is discarded and counted. -/
def lm64LateAnswer (s : State) : State :=
  match s.wpt.lateTxns with
  | [] => s
  | p :: t =>
    countLate (lm64Run p { s with wpt := { s.wpt with lateTxns := t } }).1
def execLm64LateAnswer (s : State) : Out := .next (lm64LateAnswer s)

end Sys2Proof.Machine
end

