-- ==== Sys2Proof/Machine/Hierarchy.lean ====
section
/-! DEFINITION. Manager and workers: statuses, worker states, relays and image delivery (R375-R391). -/

set_option Elab.async false

namespace Sys2Proof.Machine

open Sys2Proof

/-! ### Identities (R381, R383, R429) -/

/-- The OTP device identifier that the worker table gives a worker (R418). -/
def tableId (w : Nat) (s : State) : Option Nat :=
  let rs := (s.img.resident.filter fun x => x.type = 17).flatMap fun x =>
    (x.records.filter fun r => r.1 = tagWorker).flatMap fun r => itemsOf 16 r.2
  (rs.find? fun v => decide (leAt v 0 1 = w)).map fun v => leAt v 8 8

/-- The worker image of the bundle. -/
def workerImage (w : Nat) (s : State) : Bytes :=
  match s.img.resident.find? fun x => decide (x.type = 23 ∧ x.instNo = w) with
  | some x => x.raw.take (hdrTotal x.raw)
  | none => []

/-- The device's own worker number (HIE_CFG). -/
def ownWorker (s : State) : Nat := rgF HIE_CFG 0 27 24 s

/-! ### Sending statuses (R381, R382) -/

/-- A status payload: from the manager the sums are 0 and the identity is that of the destination's image. -/
def statusPayload (w : Nat) (fromManager : Bool) (s : State) : Bytes :=
  let sums := if fromManager then zeros 8
    else beBytes 4 (regValue 0 FLT_SUM_HI s).toNat ++ beBytes 4 (regValue 0 FLT_SUM_LO s).toNat
  let identity := if fromManager then hdrIdentity (workerImage w s) else (imageIdentity s).toNat
  let tai := b2n (bit (rdWord (supervisorBase + 4) s) 1)
  relayPayload 3 w 0 0 s.hie.statusSeq
    (sums ++ beBytes 8 identity ++ beBytes 8 Config.deviceId.toNat ++ beBytes 4 s.flt.occ.toNat
      ++ beBytes 1 (b2n s.hie.lastRefused + 2 * tai) ++ beBytes 1 s.twn.state.code ++ [0, 0])

/-- HIE_STATUS_TIMER: a worker sends its status to its manager on every hierarchy trunk, a manager sends one to each
worker of its table that is not refused. -/
def hieStatusTimer (s : State) : State :=
  if inReset 209 s then s
  else
    let seq := s.hie.statusSeq + 1
    let s' := if hieRole s = 2 then
        let dests := match managerAddr s with
          | some a => [a]
          | none => [Config.managerA, Config.managerB]
        let p := statusPayload (ownWorker s) false s
        forEach (trunksOf roleHierarchy s)
          (fun t => forEach dests fun a => wpSendAssocPort assocHierarchy wpRelay (128 + t) a p) s
      else if managerActs s then
        forEach ((workerNumbers s.img.resident).filter fun w => workerState w s ≠ workerRefused)
          (fun w s => sendWorker w wpRelay (statusPayload w true s) s) s
      else s
    { s' with hie := { s'.hie with statusSeq := seq } }
def execHieStatusTimer (s : State) : Out := .next (hieStatusTimer s)

/-! ### Receiving statuses (R376, R377, R383, R388) -/

/-- A RELAY message discarded under R376. -/
def discardRelay (cause : Nat) (s : State) : State := setCause HIE_CAUSE 0 cause (bump HIE_CNT_RX 0 15 0 s)

/-- A worker takes its manager's status: the address it came from is its manager. -/
def takeManagerStatus (src : BitVec 48) (s : State) : State :=
  let was := managerAddr s
  let s := setRg HIE_MGR_LO 0 (w32 src.toNat) (setRg HIE_MGR_HI 0 (w32 (2 ^ 31 + src.toNat / 2 ^ 32)) s)
  let s := onlyIf (was.isSome && was != some src) (setCause HIE_CAUSE 0 4) s
  bump HIE_CNT_RX 0 31 16 { s with hie := { s.hie with managerLost := false } }

/-- A worker enters loading: its image is to be offered. -/
def enterLoading (w : Nat) (s : State) : State :=
  setWorker w { worker w s with offerDue := true, retryWait := false } (setWorkerState w workerLoading s)

/-- A worker leaves loading: a delivery is abandoned. -/
def leaveLoading (w : Nat) (s : State) : State :=
  setWorker w { worker w s with offerDue := false, retryWait := false, delivery := none } s

/-- The state of a worker whose status matches its identifier (R383). -/
def workerStatus (w : Nat) (matching refusedImage : Bool) (s : State) : State :=
  let st := workerState w s
  let s := onlyIf (decide (st = workerLost)) (setCause HIE_W_CAUSE w 2) s
  if st = workerRefused then s
  else if matching then
    if st = workerInService then s else setWorkerState w workerInService (leaveLoading w s)
  else if st ≠ workerLoading then enterLoading w s
  else if refusedImage then
    let r := worker w s
    setCause HIE_W_CAUSE w 3
      (if r.delivery.isNone then setWorker w { r with offerDue := false, retryWait := true } s else s)
  else s

/-- Copy a worker's fault summary: a bit that rises sets the cause (R388). -/
def takeSummary (w : Nat) (payload : Bytes) (s : State) : State :=
  let hi := w32 (beAt payload 8 4)
  let lo := w32 (beAt payload 12 4)
  let rises := (hi &&& ~~~(rg HIE_W_SUM_HI w s) != 0) || (lo &&& ~~~(rg HIE_W_SUM_LO w s) != 0)
  onlyIf rises (setCause HIE_W_CAUSE w 0) (setRg HIE_W_SUM_HI w hi (setRg HIE_W_SUM_LO w lo s))

/-- The manager takes a worker's status. -/
def takeWorkerStatus (trunk w : Nat) (src : BitVec 48) (payload : Bytes) (s : State) : State :=
  match tableId w s with
  | none => s
  | some id =>
    if beAt payload 24 8 ≠ id then
      setCause HIE_W_CAUSE w 4 (setWorkerState w workerRefused (leaveLoading w s))
    else
      let s := bump HIE_W_CNT w 31 16 (bump HIE_CNT_RX 0 31 16 s)
      let s := setRgF HIE_W_STAT w 9 8 trunk (setWorker w { worker w s with addr := some src } s)
      workerStatus w (decide (beAt payload 16 8 = hdrIdentity (workerImage w s))) (beAt payload 36 1 % 2 == 1)
        (takeSummary w payload s)

/-- HIE_STATUS_RECEIVE. -/
def hieStatusReceive (trunk : Nat) (src : BitVec 48) (payload : Bytes) (s : State) : State :=
  let w := beAt payload 1 1
  if inReset 209 s ∨ payload.length < 8 ∨ beAt payload 0 1 ≠ 3 then s
  else if hieRole s = 2 then
    if ¬ isManagerAddr src then discardRelay 3 s
    else if w ≠ ownWorker s then discardRelay 1 s
    else onlyIf (payload.length == 40) (takeManagerStatus src) s
  else if managerActs s then
    if w = 0 then discardRelay 1 s else onlyIf (payload.length == 40) (takeWorkerStatus trunk w src payload) s
  else s
def execHieStatusReceive (trunk : Fin 4) (src : BitVec 48) (payload : Bytes) (s : State) : Out :=
  .next (hieStatusReceive trunk src payload s)

/-- HIE_STATUS_LOSS (R382, R383, R387, R390): of a worker at the manager; on a worker device, number 0 is its manager. -/
def hieStatusLoss (w : Nat) (s : State) : State :=
  if inReset 209 s then s
  else if hieRole s = 2 then
    if w ≠ 0 ∨ s.hie.managerLost then s
    else
      let s := setCause HIE_CAUSE 0 0 { s with hie := { s.hie with managerLost := true } }
      forEach ((List.range 64).filter fun n => roadKind n s = 5) (fun n s => setRoad n { road n s with lastSeq := none } s) s
  else if managerActs s ∧ (workerState w s = workerLoading ∨ workerState w s = workerInService) then
    let s := setCause HIE_W_CAUSE w 1 (setWorkerState w workerLost (leaveLoading w s))
    failRelays (fun o => o.worker = w) 1 s
  else s
def execHieStatusLoss (worker : Fin 16) (s : State) : Out := .next (hieStatusLoss worker s)

/-! ### Relays (R385) -/

/-- Relays outstanding to a worker, and their limit. -/
def outstanding (w : Nat) (s : State) : Nat := rgF HIE_W_STAT w 20 16 s
def maxOut (s : State) : Nat := rgF HIE_RELAY 0 20 16 s

/-- Send a request to a worker under a fresh tag. -/
def forwardRelay (w i : Nat) (host : Option (Word × Asker)) (body : Bytes) (s : State) : State :=
  let tag := s.hie.nextTag
  let o : RelayOut := { tag := tag, worker := w, session := i, host := host }
  let s := { s with hie := { s.hie with nextTag := tag + 1, outs := s.hie.outs ++ [o] } }
  sendWorker w wpRelay (relayPayload 1 w i 0 tag body) (setRgF HIE_W_STAT w 20 16 (outstanding w s + 1) s)

/-- A host's RELAY request, with its right, at a manager. -/
def hostRelay (i : Nat) (req : WpRequest) (s : State) : State :=
  let p := req.payload
  let w := beAt p 1 1
  let who := req.who
  let host := some (w32 (beAt p 4 4), who)
  let refuse (code : Nat) : State := answerRelay { tag := 0, worker := w, session := i, host := host } code [] s
  if ¬ mayAsk i wpRelay s then
    let r := noRight i s
    answerAsker who wpRelay stRights [] r.1
  else if hieRole s ≠ 1 then answerAsker who wpRelay stType [] s
  else if p.length < 8 ∨ beAt p 0 1 ≠ 1 ∨ beAt p 2 1 ≠ i ∨ beAt p 3 1 ≠ 0 then answerAsker who wpRelay stMalformed [] s
  else if ¬ managerActs s ∨ w = 0 ∨ 15 < w ∨ ¬ (workerState w s = workerLoading ∨ workerState w s = workerInService) then
    refuse 1
  else if maxOut s ≤ outstanding w s then refuse 3
  else forwardRelay w i host (p.drop 8) (bump HIE_W_CNT w 15 0 (bump HIE_CNT 0 31 16 s))

/-- The inner message of a relayed request: none where its header is malformed. -/
def innerRequest (i : Nat) (b : Bytes) (who : Asker) : Option WpRequest :=
  if 3 < i ∨ b.length < 16 ∨ beAt b 0 1 ≠ 1 ∨ beAt b 2 1 ≠ i ∨ beAt b 3 1 ≠ 0 ∨ beAt b 12 2 ≠ b.length - 16
      ∨ 1400 < beAt b 12 2 ∨ beAt b 14 2 ≠ 0 then none
  else some { kind := BitVec.ofNat 8 (beAt b 1 1), epoch := w32 (beAt b 4 4), seq := w32 (beAt b 8 4), payload := b.drop 16,
              who := who }

/-- A worker queues a relayed request behind those of its own session, on whose path it is carried out. -/
def workerRelay (trunk : Nat) (src : BitVec 48) (p : Bytes) (s : State) : State :=
  let i := beAt p 2 1
  let b := p.drop 8
  let who : Asker := .relay trunk src (beAt p 1 1) i (w32 (beAt p 4 4)) (w32 (beAt b 4 4)) (w32 (beAt b 8 4))
  match innerRequest i b who with
  | none => answerAsker who (beAt b 1 1) stMalformed [] s
  | some req => queueRequest i req s

/-! ### Delivery of worker images (R384) -/

/-- Bytes of an image that one chunk carries. -/
abbrev chunkBytes : Nat := 1024

/-- An inner message of a delivery. -/
def deliveryMessage (type : Nat) (payload : Bytes) : Bytes := wpHeader type 0 0 0 0 payload.length 0 ++ payload

/-- Send the chunk at an offset, or the commit beyond the last one. -/
def sendDelivery (w off : Nat) (s : State) : State :=
  let img := workerImage w s
  let body := if off < img.length then
      let d := (img.drop off).take chunkBytes
      deliveryMessage wpImgChunk (beBytes 4 off ++ beBytes 2 d.length ++ [0, 0] ++ d)
    else deliveryMessage wpImgCommit (beBytes 4 img.length ++ [0, 0, 0, 0])
  forwardRelay w 0 none body (setWorker w { worker w s with delivery := some off } s)

/-- Workers that load now. -/
def deliveries (s : State) : List Nat := (List.range 16).filter fun w => (worker w s).delivery.isSome

/-- IMAGE_OFFER: on entry to loading, or when retry_s have passed since a refusal; two workers at once, in ascending
number. -/
def imageOffer (w : Nat) (s : State) : State :=
  let due (v : Nat) : Bool :=
    workerState v s == workerLoading && ((worker v s).offerDue || (worker v s).retryWait) && (worker v s).delivery.isNone
  if inReset 209 s ∨ ¬ managerActs s ∨ ¬ due w ∨ 2 ≤ (deliveries s).length
      ∨ (List.range w).any (fun v => due v && (worker v s).offerDue) then s
  else sendDelivery w 0 (setWorker w { worker w s with offerDue := false, retryWait := false } s)
def execImageOffer (worker : Fin 16) (s : State) : Out := .next (imageOffer worker s)

/-- A delivery failed: the next offer comes after retry_s. -/
def deliveryFailed (w : Nat) (s : State) : State := setWorker w { worker w s with delivery := none, retryWait := true } s

/-- The worker answered a message of its delivery: the next one follows. -/
def deliveryAnswered (w code : Nat) (body : Bytes) (s : State) : State :=
  match (worker w s).delivery with
  | none => s
  | some off =>
    if code ≠ 0 ∨ beAt body 14 1 ≠ 0 then deliveryFailed w s
    else if (workerImage w s).length ≤ off then setWorker w { worker w s with delivery := none } s
    else sendDelivery w (min (off + chunkBytes) (workerImage w s).length) s

/-! ### RELAY and RELAY_TIMEOUT -/

/-- A relay response at the manager; one whose tag no longer waits is discarded. -/
def relayResponse (p : Bytes) (s : State) : State :=
  match s.hie.outs.find? fun o => decide (o.tag.toNat = beAt p 4 4 ∧ o.worker = beAt p 1 1) with
  | none => s
  | some o =>
    let s := endRelay o s
    let code := beAt p 3 1
    if o.host.isSome then answerRelay o code (p.drop 8) s else deliveryAnswered o.worker code (p.drop 8) s

/-- A RELAY message of the hierarchy association. -/
def relayArrives (trunk : Nat) (src : BitVec 48) (p : Bytes) (s : State) : State :=
  let sub := beAt p 0 1
  if sub = 3 then hieStatusReceive trunk src p s
  else if inReset 209 s ∨ p.length < 8 ∨ ¬ (sub = 1 ∨ sub = 2) then s
  else if hieRole s = 2 then
    if sub = 1 ∧ ¬ isManagerAddr src then discardRelay 3 s
    else if sub = 2 ∨ beAt p 1 1 ≠ ownWorker s then discardRelay 1 s
    else workerRelay trunk src p s
  else if managerActs s then (if sub = 1 then discardRelay 1 s else relayResponse p s)
  else s

/-- RELAY: a host's request at the head of its session's queue, or a message of the hierarchy association. -/
def relay (trunk : Nat) (src : BitVec 48) (onHierarchy : Bool) (i : Nat) (payload : Bytes) (s : State) : State :=
  if onHierarchy then relayArrives trunk src payload s
  else withRequest i (isType wpRelay) (hostRelay i) s
def execRelay (trunk : Fin 4) (src : BitVec 48) (onHierarchy : Bool) (hostSession : Fin 4) (payload : Bytes)
    (_ans : MemAnswer) (s : State) : Out :=
  .next (relay trunk src onHierarchy hostSession payload s)

/-- RELAY_TIMEOUT: the manager answers code 2. -/
def relayTimeout (tag : Word) (s : State) : State :=
  match s.hie.outs.find? fun o => decide (o.tag = tag) with
  | none => s
  | some o =>
    let s := endRelay o s
    if o.host.isSome then answerRelay o 2 [] s else deliveryFailed o.worker s
def execRelayTimeout (tag : Word) (s : State) : Out := .next (relayTimeout tag s)

end Sys2Proof.Machine
end

