-- ==== Sys2Proof/Machine/LaneInt.lean ====
section
/-! DEFINITION. Integer instructions, loads, stores, jumps and branches of a lane (R144-R150). -/

set_option Elab.async false

namespace Sys2Proof.Machine

open Sys2Proof

/-- rd := f rs rt (R144). -/
def regOp (fn : Nat) (l : Lane) (rd rs rt : GReg) (f : Word → Word → Word) (s : State) : State :=
  laneOp l (encA fn rd rs rt 0) (fun ln => setG rd (f (getG rs ln) (getG rt ln)) ln) s

/-- rd := f rs sh (R144). -/
def shiftOp (fn : Nat) (l : Lane) (rd rs : GReg) (sh : BitVec 5) (f : Word → Nat → Word) (s : State) : State :=
  laneOp l (encA fn rd rs 0 sh.toNat) (fun ln => setG rd (f (getG rs ln) sh.toNat) ln) s

/-- rd := f rs imm (R146). -/
def immOp (op : Nat) (l : Lane) (rd rs : GReg) (imm : BitVec 16) (f : Word → Word) (s : State) : State :=
  laneOp l (encI op rd rs imm.toNat) (fun ln => setG rd (f (getG rs ln)) ln) s

def sext16 (imm : BitVec 16) : Word := imm.signExtend 32
def zext16 (imm : BitVec 16) : Word := imm.setWidth 32
def boolWord (b : Bool) : Word := if b then 1 else 0
def shiftOf (rt : Word) : Nat := fld rt 4 0

/-- The quotient and remainder of R145. -/
def divS (x y : Word) : Word :=
  if y = 0 then 0xFFFFFFFF else w32 (wrapI 32 (Int.tdiv (si x) (si y)))
def divU (x y : Word) : Word := if y = 0 then 0xFFFFFFFF else w32 (x.toNat / y.toNat)
def remS (x y : Word) : Word := if y = 0 then x else w32 (wrapI 32 (Int.tmod (si x) (si y)))
def remU (x y : Word) : Word := if y = 0 then x else w32 (x.toNat % y.toNat)

def execAdd (lane : Lane) (rd rs rt : GReg) (s : State) : Out := .next (regOp 0x00 lane rd rs rt (· + ·) s)
def execSub (lane : Lane) (rd rs rt : GReg) (s : State) : Out := .next (regOp 0x01 lane rd rs rt (· - ·) s)
def execAnd (lane : Lane) (rd rs rt : GReg) (s : State) : Out := .next (regOp 0x02 lane rd rs rt (· &&& ·) s)
def execOr (lane : Lane) (rd rs rt : GReg) (s : State) : Out := .next (regOp 0x03 lane rd rs rt (· ||| ·) s)
def execXor (lane : Lane) (rd rs rt : GReg) (s : State) : Out := .next (regOp 0x04 lane rd rs rt (· ^^^ ·) s)
def execNor (lane : Lane) (rd rs rt : GReg) (s : State) : Out :=
  .next (regOp 0x05 lane rd rs rt (fun x y => ~~~(x ||| y)) s)
def execSlt (lane : Lane) (rd rs rt : GReg) (s : State) : Out :=
  .next (regOp 0x06 lane rd rs rt (fun x y => boolWord (decide (si x < si y))) s)
def execSltu (lane : Lane) (rd rs rt : GReg) (s : State) : Out :=
  .next (regOp 0x07 lane rd rs rt (fun x y => boolWord (decide (x.toNat < y.toNat))) s)
def execSll (lane : Lane) (rd rs rt : GReg) (s : State) : Out :=
  .next (regOp 0x08 lane rd rs rt (fun x y => x <<< shiftOf y) s)
def execSrl (lane : Lane) (rd rs rt : GReg) (s : State) : Out :=
  .next (regOp 0x09 lane rd rs rt (fun x y => x >>> shiftOf y) s)
def execSra (lane : Lane) (rd rs rt : GReg) (s : State) : Out :=
  .next (regOp 0x0A lane rd rs rt (fun x y => x.sshiftRight (shiftOf y)) s)
def execSlli (lane : Lane) (rd rs : GReg) (sh : BitVec 5) (s : State) : Out :=
  .next (shiftOp 0x0B lane rd rs sh (fun x n => x <<< n) s)
def execSrli (lane : Lane) (rd rs : GReg) (sh : BitVec 5) (s : State) : Out :=
  .next (shiftOp 0x0C lane rd rs sh (fun x n => x >>> n) s)
def execSrai (lane : Lane) (rd rs : GReg) (sh : BitVec 5) (s : State) : Out :=
  .next (shiftOp 0x0D lane rd rs sh (fun x n => x.sshiftRight n) s)
def execMul (lane : Lane) (rd rs rt : GReg) (s : State) : Out := .next (regOp 0x10 lane rd rs rt (· * ·) s)
def execMulh (lane : Lane) (rd rs rt : GReg) (s : State) : Out :=
  .next (regOp 0x11 lane rd rs rt (fun x y => w32 (wrapI 64 (si x * si y) / 2 ^ 32)) s)
def execMulhu (lane : Lane) (rd rs rt : GReg) (s : State) : Out :=
  .next (regOp 0x12 lane rd rs rt (fun x y => w32 (x.toNat * y.toNat / 2 ^ 32)) s)
def execDiv (lane : Lane) (rd rs rt : GReg) (s : State) : Out := .next (regOp 0x13 lane rd rs rt divS s)
def execDivu (lane : Lane) (rd rs rt : GReg) (s : State) : Out := .next (regOp 0x14 lane rd rs rt divU s)
def execRem (lane : Lane) (rd rs rt : GReg) (s : State) : Out := .next (regOp 0x15 lane rd rs rt remS s)
def execRemu (lane : Lane) (rd rs rt : GReg) (s : State) : Out := .next (regOp 0x16 lane rd rs rt remU s)

/-- Leading zeros of the low `k` bits. -/
def leadingZeros (x : Word) : Nat → Nat
  | 0 => 0
  | k + 1 => if bit x k then 0 else leadingZeros x k + 1

def execClz (lane : Lane) (rd rs : GReg) (s : State) : Out :=
  .next (laneOp lane (encA 0x18 rd rs 0 0) (fun ln => setG rd (w32 (leadingZeros (getG rs ln) 32)) ln) s)
def execMin (lane : Lane) (rd rs rt : GReg) (s : State) : Out :=
  .next (regOp 0x19 lane rd rs rt (fun x y => if si x ≤ si y then x else y) s)
def execMax (lane : Lane) (rd rs rt : GReg) (s : State) : Out :=
  .next (regOp 0x1A lane rd rs rt (fun x y => if si x ≤ si y then y else x) s)

/-- pc := target, after `f`; a target that is not a multiple of 4 faults with cause 3 (R144). -/
def jumpReg (l : Nat) (w : Word) (rs : Nat) (f : LaneState → LaneState) (s : State) : State :=
  issue l w (fun s =>
    let target := getG rs (lane l s)
    if target.toNat % 4 ≠ 0 then faultAt l 3 target s
    else setLane l (jumpTo target (f (lane l s))) s) s

def execJr (lane : Lane) (rs : GReg) (s : State) : Out := .next (jumpReg lane (encA 0x20 0 rs 0 0) rs id s)
def execJalr (lane : Lane) (rd rs : GReg) (s : State) : Out :=
  .next (jumpReg lane (encA 0x21 rd rs 0 0) rs (fun ln => setG rd (ln.pc + 4) ln) s)

def execAddi (lane : Lane) (rd rs : GReg) (imm : BitVec 16) (s : State) : Out :=
  .next (immOp 0x01 lane rd rs imm (fun x => x + sext16 imm) s)
def execAndi (lane : Lane) (rd rs : GReg) (imm : BitVec 16) (s : State) : Out :=
  .next (immOp 0x02 lane rd rs imm (fun x => x &&& zext16 imm) s)
def execOri (lane : Lane) (rd rs : GReg) (imm : BitVec 16) (s : State) : Out :=
  .next (immOp 0x03 lane rd rs imm (fun x => x ||| zext16 imm) s)
def execXori (lane : Lane) (rd rs : GReg) (imm : BitVec 16) (s : State) : Out :=
  .next (immOp 0x04 lane rd rs imm (fun x => x ^^^ zext16 imm) s)
def execSlti (lane : Lane) (rd rs : GReg) (imm : BitVec 16) (s : State) : Out :=
  .next (immOp 0x05 lane rd rs imm (fun x => boolWord (decide (si x < si (sext16 imm)))) s)
def execSltiu (lane : Lane) (rd rs : GReg) (imm : BitVec 16) (s : State) : Out :=
  .next (immOp 0x06 lane rd rs imm (fun x => boolWord (decide (x.toNat < (sext16 imm).toNat))) s)
def execLui (lane : Lane) (rd : GReg) (imm : BitVec 16) (s : State) : Out :=
  .next (laneOp lane (encI 0x07 rd 0 imm.toNat) (fun ln => setG rd (zext16 imm <<< 16) ln) s)

/-! ### Loads and stores (R147) -/

/-- rs + sext(off16). -/
def effAddr (l rs : Nat) (off : BitVec 16) (s : State) : Word := getG rs (lane l s) + sext16 off

/-- A load of `len` bytes into rt through `ext`. -/
def loadG (op : Nat) (l : Lane) (rt rs : GReg) (off : BitVec 16) (len : Nat) (ext : Nat → Word) (ans : MemAnswer)
    (s : State) : State :=
  loadOp l (encI op rt rs off.toNat) (effAddr l rs off s) len ans (fun b ln => setG rt (ext (leVal b)) ln) s

/-- A store of the low `len` bytes of rt. -/
def storeG (op : Nat) (l : Lane) (rt rs : GReg) (off : BitVec 16) (len : Nat) (ans : MemAnswer) (s : State) : State :=
  storeOp l (encI op rt rs off.toNat) (effAddr l rs off s) (leBytes len (getG rt (lane l s)).toNat) ans s

def execLb (lane : Lane) (rt rs : GReg) (off : BitVec 16) (ans : MemAnswer) (s : State) : Out :=
  .next (loadG 0x08 lane rt rs off 1 (fun n => (BitVec.ofNat 8 n).signExtend 32) ans s)
def execLbu (lane : Lane) (rt rs : GReg) (off : BitVec 16) (ans : MemAnswer) (s : State) : Out :=
  .next (loadG 0x09 lane rt rs off 1 w32 ans s)
def execLh (lane : Lane) (rt rs : GReg) (off : BitVec 16) (ans : MemAnswer) (s : State) : Out :=
  .next (loadG 0x0A lane rt rs off 2 (fun n => (BitVec.ofNat 16 n).signExtend 32) ans s)
def execLhu (lane : Lane) (rt rs : GReg) (off : BitVec 16) (ans : MemAnswer) (s : State) : Out :=
  .next (loadG 0x0B lane rt rs off 2 w32 ans s)
def execLw (lane : Lane) (rt rs : GReg) (off : BitVec 16) (ans : MemAnswer) (s : State) : Out :=
  .next (loadG 0x0C lane rt rs off 4 w32 ans s)
def execSb (lane : Lane) (rt rs : GReg) (off : BitVec 16) (ans : MemAnswer) (s : State) : Out :=
  .next (storeG 0x0D lane rt rs off 1 ans s)
def execSh (lane : Lane) (rt rs : GReg) (off : BitVec 16) (ans : MemAnswer) (s : State) : Out :=
  .next (storeG 0x0E lane rt rs off 2 ans s)
def execSw (lane : Lane) (rt rs : GReg) (off : BitVec 16) (ans : MemAnswer) (s : State) : Out :=
  .next (storeG 0x0F lane rt rs off 4 ans s)

/-! ### Jumps and branches (R150) -/

/-- pc + sext(off21) * 4. -/
def branchTarget (pc : Word) (off : BitVec 21) : Word := pc + off.signExtend 32 * 4

/-- A conditional branch on rs. -/
def branchOp (op : Nat) (l : Lane) (rs : GReg) (off : BitVec 21) (taken : Word → Bool) (s : State) : State :=
  issue l (encB op rs off.toNat) (fun s =>
    let ln := lane l s
    setLane l (if taken (getG rs ln) then jumpTo (branchTarget ln.pc off) ln else retire ln) s) s

def execJ (lane : Lane) (rs : GReg) (off : BitVec 21) (s : State) : Out :=
  .next (issue lane (encB 0x10 rs off.toNat) (fun s =>
    let ln := Machine.lane lane s
    setLane lane (jumpTo (branchTarget ln.pc off) (setG rs (ln.pc + 4) ln)) s) s)
def execBeqz (lane : Lane) (rs : GReg) (off : BitVec 21) (s : State) : Out :=
  .next (branchOp 0x11 lane rs off (fun x => decide (x = 0)) s)
def execBnez (lane : Lane) (rs : GReg) (off : BitVec 21) (s : State) : Out :=
  .next (branchOp 0x12 lane rs off (fun x => decide (x ≠ 0)) s)
def execBltz (lane : Lane) (rs : GReg) (off : BitVec 21) (s : State) : Out :=
  .next (branchOp 0x13 lane rs off (fun x => decide (si x < 0)) s)
def execBgez (lane : Lane) (rs : GReg) (off : BitVec 21) (s : State) : Out :=
  .next (branchOp 0x14 lane rs off (fun x => decide (0 ≤ si x)) s)
def execBlez (lane : Lane) (rs : GReg) (off : BitVec 21) (s : State) : Out :=
  .next (branchOp 0x15 lane rs off (fun x => decide (si x ≤ 0)) s)
def execBgtz (lane : Lane) (rs : GReg) (off : BitVec 21) (s : State) : Out :=
  .next (branchOp 0x16 lane rs off (fun x => decide (0 < si x)) s)

end Sys2Proof.Machine
end

