-- ==== Sys2Proof/Machine/Float.lean ====
section
/-! DEFINITION. IEEE 754 binary32 with the choices of R153: round to nearest even, subnormals kept, one quiet NaN. -/

set_option Elab.async false

namespace Sys2Proof.Machine

open Sys2Proof

/-- The quiet NaN of every NaN result (R153). -/
abbrev qNaN : Word := 0x7FC00000

/-- A binary32 value: a NaN, an infinity, or (-1)^neg * m * 2^e. -/
inductive Fp where
  | nan
  | inf (neg : Bool)
  | fin (neg : Bool) (m : Nat) (e : Int)
deriving DecidableEq, Repr

/-- The value of a word. -/
def fpOf (w : Word) : Fp :=
  let ex := fld w 30 23
  let fr := fld w 22 0
  let neg := bit w 31
  if ex = 255 then (if fr = 0 then .inf neg else .nan)
  else if ex = 0 then .fin neg fr (-149)
  else .fin neg (fr + 2 ^ 23) ((ex : Int) - 150)

/-- Bits of a number. -/
def bitLen (m : Nat) : Nat := if m = 0 then 0 else Nat.log2 m + 1

def signWord (neg : Bool) : Nat := if neg then 2 ^ 31 else 0

/-- (-1)^neg * m * 2^e rounded to nearest, ties to even; overflow gives an infinity. -/
def fpRound (neg : Bool) (m : Nat) (e : Int) : Word :=
  if m = 0 then w32 (signWord neg)
  else
    let q : Int := max (e + bitLen m - 24) (-149)
    let r : Nat :=
      if q ≤ e then m * 2 ^ (e - q).toNat
      else
        let sh := (q - e).toNat
        let t := m / 2 ^ sh
        let rem := m % 2 ^ sh
        if 2 ^ sh < 2 * rem ∨ (2 * rem = 2 ^ sh ∧ t % 2 = 1) then t + 1 else t
    let bits := (q + 149).toNat * 2 ^ 23 + r
    w32 (signWord neg + min bits 0x7F800000)

/-- a * b + c with one rounding (R153, R154). -/
def fpFma (a b c : Fp) : Word :=
  match a, b, c with
  | .nan, _, _ | _, .nan, _ | _, _, .nan => qNaN
  | .inf na, .inf nb, c => infPlus (na != nb) c
  | .inf na, .fin nb m _, c => if m = 0 then qNaN else infPlus (na != nb) c
  | .fin na m _, .inf nb, c => if m = 0 then qNaN else infPlus (na != nb) c
  | .fin _ _ _, .fin _ _ _, .inf nc => w32 (signWord nc + 0x7F800000)
  | .fin na ma ea, .fin nb mb eb, .fin nc mc ec =>
    let np := na != nb
    let mp := ma * mb
    let ep := ea + eb
    let lo := min ep ec
    let p : Int := mp * 2 ^ (ep - lo).toNat
    let c : Int := mc * 2 ^ (ec - lo).toNat
    let sum : Int := (if np then -p else p) + (if nc then -c else c)
    if sum = 0 then w32 (signWord (np && nc))
    else fpRound (decide (sum < 0)) sum.natAbs lo
where
  /-- An infinite product plus a term. -/
  infPlus (neg : Bool) : Fp → Word
    | .nan => qNaN
    | .inf nc => if nc = neg then w32 (signWord neg + 0x7F800000) else qNaN
    | .fin _ _ _ => w32 (signWord neg + 0x7F800000)

/-- The number 1. -/
abbrev fpOne : Fp := .fin false 1 0

def fpNeg : Fp → Fp
  | .nan => .nan
  | .inf n => .inf (!n)
  | .fin n m e => .fin (!n) m e

def fAdd (x y : Word) : Word := fpFma (fpOf x) fpOne (fpOf y)
def fSub (x y : Word) : Word := fpFma (fpOf x) fpOne (fpNeg (fpOf y))

/-- s * t: a zero product keeps the product's sign. -/
def fMul (x y : Word) : Word :=
  match fpOf x, fpOf y with
  | .fin na ma ea, .fin nb mb eb => fpRound (na != nb) (ma * mb) (ea + eb)
  | a, b => fpFma a b (.fin false 0 0)

/-- s * t + d with one rounding. -/
def fFma (s t d : Word) : Word := fpFma (fpOf s) (fpOf t) (fpOf d)

/-- d - s * t with one rounding. -/
def fFms (s t d : Word) : Word := fpFma (fpNeg (fpOf s)) (fpOf t) (fpOf d)

def isNaN (w : Word) : Bool := decide (fld w 30 23 = 255) && decide (fld w 22 0 ≠ 0)

/-- Order of VFMIN and VFMAX, with -0 below +0 (R153). -/
def fKey (w : Word) : Int := if bit w 31 then -(fld w 30 0 : Int) - 1 else fld w 30 0

def fMinMax (less : Bool) (x y : Word) : Word :=
  if isNaN x then (if isNaN y then qNaN else y)
  else if isNaN y then x
  else if decide (fKey x < fKey y) = less then x else y

def fMin (x y : Word) : Word := fMinMax true x y
def fMax (x y : Word) : Word := fMinMax false x y

/-- NaN passes unchanged (R154). -/
def fAbs (x : Word) : Word := if isNaN x then x else x &&& 0x7FFFFFFF
def fNegate (x : Word) : Word := if isNaN x then x else x ^^^ 0x80000000

/-- Signed integer to binary32. -/
def fOfInt (x : Word) : Word := fpRound (decide (si x < 0)) (si x).natAbs 0

/-- (-1)^neg m 2^e rounded to an integer, ties to even. -/
def fpToNat (m : Nat) (e : Int) : Nat :=
  if 0 ≤ e then m * 2 ^ e.toNat
  else
    let sh := (-e).toNat
    let t := m / 2 ^ sh
    let rem := m % 2 ^ sh
    if 2 ^ sh < 2 * rem ∨ (2 * rem = 2 ^ sh ∧ t % 2 = 1) then t + 1 else t

/-- binary32 to int32, saturated; NaN gives 0. -/
def fToInt (x : Word) : Word :=
  match fpOf x with
  | .nan => 0
  | .inf n => if n then 0x80000000 else 0x7FFFFFFF
  | .fin n m e => w32 (wrapI 32 (satS 32 (if n then -(fpToNat m e : Int) else fpToNat m e)))

/-- Integer square root, a bit at a time from bit k - 1 down. -/
def isqrt (n : Nat) : Nat → Nat → Nat
  | 0, r => r
  | k + 1, r => isqrt n k (if (r + 2 ^ k) * (r + 2 ^ k) ≤ n then r + 2 ^ k else r)

/-- Square root (R154). -/
def fSqrt (x : Word) : Word :=
  match fpOf x with
  | .nan => qNaN
  | .inf n => if n then qNaN else 0x7F800000
  | .fin n m e =>
    if m = 0 then x
    else if n then qNaN
    else
      let m2 := if e % 2 = 0 then m else 2 * m
      let e2 := if e % 2 = 0 then e else e - 1
      let v := m2 * 2 ^ 56
      let r := isqrt v 42 0
      fpRound false (2 * r + b2n (decide (r * r ≠ v))) ((e2 - 56) / 2 - 1)

/-- s < t, -0 equal to +0; a NaN compares false (R154). -/
def fLess (x y : Word) : Bool :=
  let k (w : Word) : Int := if bit w 31 then -(fld w 30 0 : Int) else fld w 30 0
  !isNaN x && !isNaN y && decide (k x < k y)

end Sys2Proof.Machine
end

