-- ==== Sys2Proof/Machine/LaneVec.lean ====
section
/-! DEFINITION. Vector instructions of a lane (R151-R156). -/

set_option Elab.async false

namespace Sys2Proof.Machine

open Sys2Proof

/-- vd := f d s t, of the registers as they stood. -/
def vecOp (op fn : Nat) (l : Lane) (vd vs vt : Nat) (f : VWord → VWord → VWord → VWord) (s : State) : State :=
  laneOp l (encV op fn vd vs vt 0 0) (fun ln => setV vd (f (getV vd ln) (getV vs ln) (getV vt ln)) ln) s

/-- vd := f d s (gr). -/
def vecShift (fn : Nat) (l : Lane) (vd vs gr : Nat) (f : VWord → Word → VWord) (s : State) : State :=
  laneOp l (encV 0x20 fn vd vs 0 gr 0) (fun ln => setV vd (f (getV vs ln) (getG gr ln)) ln) s

/-- q15 of R151. -/
def q15 (x : Int) : Int := rnd x 15

def mapH (f : Int → Int → Int → Int) (d s t : VWord) : VWord := ofH fun i => f (vh d i) (vh s i) (vh t i)
def mapW (f : Word → Word → Word → Word) (d s t : VWord) : VWord := ofW fun j => f (vw d j) (vw s j) (vw t j)

/-! ### Fixed point (R152) -/

def execVaddH (lane : Lane) (vd vs vt : VReg) (s : State) : Out :=
  .next (vecOp 0x20 0x00 lane vd vs vt (mapH fun _ a b => sat16 (a + b)) s)
def execVsubH (lane : Lane) (vd vs vt : VReg) (s : State) : Out :=
  .next (vecOp 0x20 0x01 lane vd vs vt (mapH fun _ a b => sat16 (a - b)) s)
def execVmulH (lane : Lane) (vd vs vt : VReg) (s : State) : Out :=
  .next (vecOp 0x20 0x02 lane vd vs vt (mapH fun _ a b => sat16 (q15 (a * b))) s)
def execVmacH (lane : Lane) (vd vs vt : VReg) (s : State) : Out :=
  .next (vecOp 0x20 0x03 lane vd vs vt (mapH fun d a b => sat16 (d + q15 (a * b))) s)

/-- d.w[j] := sat32(d.w[j] + s[2j] t[2j] + s[2j+1] t[2j+1]) (R152). -/
def dotH (d a b : VWord) : VWord :=
  ofW fun j => w32 (wrapI 32 (sat32 (si (vw d j) + vh a (2 * j) * vh b (2 * j) + vh a (2 * j + 1) * vh b (2 * j + 1))))

def execVdotH (lane : Lane) (vd vs vt : VReg) (s : State) : Out := .next (vecOp 0x20 0x04 lane vd vs vt dotH s)
def execVshrH (lane : Lane) (vd vs : VReg) (gr : GReg) (s : State) : Out :=
  .next (vecShift 0x05 lane vd vs gr (fun v g => ofH fun i => rnd (vh v i) (fld g 3 0)) s)
def execVshlH (lane : Lane) (vd vs : VReg) (gr : GReg) (s : State) : Out :=
  .next (vecShift 0x06 lane vd vs gr (fun v g => ofH fun i => sat16 (vh v i * 2 ^ fld g 3 0)) s)
def execVabsH (lane : Lane) (vd vs : VReg) (s : State) : Out :=
  .next (vecOp 0x20 0x07 lane vd vs 0 (mapH fun _ a _ => sat16 a.natAbs) s)
def execVmaxH (lane : Lane) (vd vs vt : VReg) (s : State) : Out :=
  .next (vecOp 0x20 0x08 lane vd vs vt (mapH fun _ a b => max a b) s)
def execVminH (lane : Lane) (vd vs vt : VReg) (s : State) : Out :=
  .next (vecOp 0x20 0x09 lane vd vs vt (mapH fun _ a b => min a b) s)
def execVaddW (lane : Lane) (vd vs vt : VReg) (s : State) : Out :=
  .next (vecOp 0x20 0x0A lane vd vs vt (mapW fun _ a b => a + b) s)
def execVsubW (lane : Lane) (vd vs vt : VReg) (s : State) : Out :=
  .next (vecOp 0x20 0x0B lane vd vs vt (mapW fun _ a b => a - b) s)

/-- Four words of each source rounded and narrowed (R152). -/
def narrowH (a b : VWord) (n : Nat) : VWord :=
  ofH fun i => sat16 (rnd (si (if i < 4 then vw a i else vw b (i - 4))) n)

def execVnarrowH (lane : Lane) (vd vs vt : VReg) (gr : GReg) (s : State) : Out :=
  .next (laneOp lane (encV 0x20 0x0C vd vs vt gr 0)
    (fun ln => setV vd (narrowH (getV vs ln) (getV vt ln) (fld (getG gr ln) 4 0)) ln) s)

/-! ### FP32 (R154) -/

def execVfadd (lane : Lane) (vd vs vt : VReg) (s : State) : Out :=
  .next (vecOp 0x21 0x00 lane vd vs vt (mapW fun _ a b => fAdd a b) s)
def execVfsub (lane : Lane) (vd vs vt : VReg) (s : State) : Out :=
  .next (vecOp 0x21 0x01 lane vd vs vt (mapW fun _ a b => fSub a b) s)
def execVfmul (lane : Lane) (vd vs vt : VReg) (s : State) : Out :=
  .next (vecOp 0x21 0x02 lane vd vs vt (mapW fun _ a b => fMul a b) s)
def execVfma (lane : Lane) (vd vs vt : VReg) (s : State) : Out :=
  .next (vecOp 0x21 0x03 lane vd vs vt (mapW fun d a b => fFma a b d) s)
def execVfms (lane : Lane) (vd vs vt : VReg) (s : State) : Out :=
  .next (vecOp 0x21 0x04 lane vd vs vt (mapW fun d a b => fFms a b d) s)
def execVfmin (lane : Lane) (vd vs vt : VReg) (s : State) : Out :=
  .next (vecOp 0x21 0x05 lane vd vs vt (mapW fun _ a b => fMin a b) s)
def execVfmax (lane : Lane) (vd vs vt : VReg) (s : State) : Out :=
  .next (vecOp 0x21 0x06 lane vd vs vt (mapW fun _ a b => fMax a b) s)
def execVfabs (lane : Lane) (vd vs : VReg) (s : State) : Out :=
  .next (vecOp 0x21 0x07 lane vd vs 0 (mapW fun _ a _ => fAbs a) s)
def execVfneg (lane : Lane) (vd vs : VReg) (s : State) : Out :=
  .next (vecOp 0x21 0x08 lane vd vs 0 (mapW fun _ a _ => fNegate a) s)
def execVfcvtFW (lane : Lane) (vd vs : VReg) (s : State) : Out :=
  .next (vecOp 0x21 0x09 lane vd vs 0 (mapW fun _ a _ => fOfInt a) s)
def execVfcvtWF (lane : Lane) (vd vs : VReg) (s : State) : Out :=
  .next (vecOp 0x21 0x0A lane vd vs 0 (mapW fun _ a _ => fToInt a) s)
def execVfsqrt (lane : Lane) (vd vs : VReg) (s : State) : Out :=
  .next (vecOp 0x21 0x0B lane vd vs 0 (mapW fun _ a _ => fSqrt a) s)
def execVfcmplt (lane : Lane) (vd vs vt : VReg) (s : State) : Out :=
  .next (vecOp 0x21 0x0C lane vd vs vt (mapW fun _ a b => if fLess a b then 0xFFFFFFFF else 0) s)

/-! ### Complex and butterflies (R155) -/

/-- Complex .H product, with t conjugated when `conj`. -/
def cmulH (conj : Bool) (_d a b : VWord) : VWord :=
  ofH fun i =>
    let k := i / 2
    let sr := vh a (2 * k)
    let si := vh a (2 * k + 1)
    let tr := vh b (2 * k)
    let ti := if conj then -(vh b (2 * k + 1)) else vh b (2 * k + 1)
    sat16 (q15 (if i % 2 = 0 then sr * tr - si * ti else sr * ti + si * tr))

def execVcmulH (lane : Lane) (vd vs vt : VReg) (s : State) : Out :=
  .next (vecOp 0x23 0x00 lane vd vs vt (cmulH false) s)
def execVcmuljH (lane : Lane) (vd vs vt : VReg) (s : State) : Out :=
  .next (vecOp 0x23 0x01 lane vd vs vt (cmulH true) s)

/-- Complex FP32 product (R155). -/
def cmulF (_d a b : VWord) : VWord :=
  ofW fun j =>
    let k := j / 2
    let sr := vw a (2 * k)
    let si := vw a (2 * k + 1)
    let tr := vw b (2 * k)
    let ti := vw b (2 * k + 1)
    if j % 2 = 0 then fFma sr tr (fMul si ti ^^^ 0x80000000) else fFma sr ti (fMul si tr)

def execVcmulF (lane : Lane) (vd vs vt : VReg) (s : State) : Out := .next (vecOp 0x23 0x02 lane vd vs vt cmulF s)

/-- Write a register pair. -/
def setPair (vd : Nat) (x y : VWord) (ln : LaneState) : LaneState := setV (vd + 1) y (setV vd x ln)

def execVbf2H (lane : Lane) (vd vs vt : VReg) (scale : BitVec 3) (s : State) : Out :=
  .next (laneOp lane (encV 0x23 0x03 vd vs vt 0 scale.toNat) (fun ln =>
    let a := getV vs ln
    let b := getV vt ln
    setPair vd (ofH fun i => sat16 (rnd (vh a i + vh b i) scale.toNat))
      (ofH fun i => sat16 (rnd (vh a i - vh b i) scale.toNat)) ln) s)

/-- The radix-4 transform of four complex values, given by their parts re k and im k (R155): part p of X[k]. -/
def radix4 {α : Type} (add sub : α → α → α) (re im : Nat → α) (k : Nat) (part : Nat) : α :=
  let ar := add (re 0) (re 2)
  let ai := add (im 0) (im 2)
  let br := sub (re 0) (re 2)
  let bi := sub (im 0) (im 2)
  let cr := add (re 1) (re 3)
  let ci := add (im 1) (im 3)
  let er := sub (re 1) (re 3)
  let ei := sub (im 1) (im 3)
  -- j * e = -ei + j * er
  match k, part with
  | 0, 0 => add ar cr
  | 0, _ => add ai ci
  | 1, 0 => add br ei
  | 1, _ => sub bi er
  | 2, 0 => sub ar cr
  | 2, _ => sub ai ci
  | _, 0 => sub br ei
  | _, _ => add bi er

def bf4H (n : Nat) (v : VWord) : VWord :=
  ofH fun i => sat16 (rnd (radix4 (· + ·) (· - ·) (fun k => vh v (2 * k)) (fun k => vh v (2 * k + 1)) (i / 2) (i % 2)) n)

def execVbf4H (lane : Lane) (vd vs : VReg) (scale : BitVec 3) (s : State) : Out :=
  .next (laneOp lane (encV 0x23 0x04 vd vs 0 0 scale.toNat) (fun ln => setV vd (bf4H scale.toNat (getV vs ln)) ln) s)

def execVbf2F (lane : Lane) (vd vs vt : VReg) (s : State) : Out :=
  .next (laneOp lane (encV 0x23 0x05 vd vs vt 0 0) (fun ln =>
    let a := getV vs ln
    let b := getV vt ln
    setPair vd (ofW fun j => fAdd (vw a j) (vw b j)) (ofW fun j => fSub (vw a j) (vw b j)) ln) s)

/-- Word j of the radix-4 result over the pair (x0, x1), (x2, x3). -/
def bf4F (lo hi : VWord) (j : Nat) : Word :=
  let part (p k : Nat) : Word := if k < 2 then vw lo (2 * k + p) else vw hi (2 * (k - 2) + p)
  radix4 fAdd fSub (part 0) (part 1) (j / 2) (j % 2)

def execVbf4F (lane : Lane) (vd vs : VReg) (s : State) : Out :=
  .next (laneOp lane (encV 0x23 0x06 vd vs 0 0 0) (fun ln =>
    let lo := getV vs ln
    let hi := getV (vs + 1) ln
    setPair vd (ofW fun j => bf4F lo hi j) (ofW fun j => bf4F lo hi (4 + j)) ln) s)

/-! ### Moves, loads and stores (R156) -/

/-- gr + imm3 * 16. -/
def vecAddr (l gr : Nat) (imm : BitVec 3) (s : State) : Word := getG gr (lane l s) + w32 (imm.toNat * 16)

def execVld (lane : Lane) (vd : VReg) (gr : GReg) (imm : BitVec 3) (ans : MemAnswer) (s : State) : Out :=
  .next (loadOp lane (encV 0x22 0x00 vd 0 0 gr imm.toNat) (vecAddr lane gr imm s) 16 ans
    (fun b ln => setV vd (BitVec.ofNat 128 (leVal b)) ln) s)
def execVst (lane : Lane) (vd : VReg) (gr : GReg) (imm : BitVec 3) (ans : MemAnswer) (s : State) : Out :=
  .next (storeOp lane (encV 0x22 0x01 vd 0 0 gr imm.toNat) (vecAddr lane gr imm s)
    (vecBytes (getV vd (Machine.lane lane s))) ans s)
def execVmov (lane : Lane) (vd vs : VReg) (s : State) : Out :=
  .next (laneOp lane (encV 0x22 0x02 vd vs 0 0 0) (fun ln => setV vd (getV vs ln) ln) s)
def execVmovg2v (lane : Lane) (vd : VReg) (gr : GReg) (elem : BitVec 3) (s : State) : Out :=
  .next (laneOp lane (encV 0x22 0x03 vd 0 0 gr elem.toNat) (fun ln =>
    setV vd (ofW fun j => if j = elem.toNat then getG gr ln else vw (getV vd ln) j) ln) s)
def execVmovv2g (lane : Lane) (vs : VReg) (gr : GReg) (elem : BitVec 3) (s : State) : Out :=
  .next (laneOp lane (encV 0x22 0x04 0 vs 0 gr elem.toNat) (fun ln => setG gr (vw (getV vs ln) elem.toNat) ln) s)
def execVextH (lane : Lane) (vs : VReg) (gr : GReg) (elem : BitVec 3) (s : State) : Out :=
  .next (laneOp lane (encV 0x22 0x05 0 vs 0 gr elem.toNat)
    (fun ln => setG gr (w32 (wrapI 32 (vh (getV vs ln) elem.toNat))) ln) s)
def execVsplatH (lane : Lane) (vd : VReg) (gr : GReg) (s : State) : Out :=
  .next (laneOp lane (encV 0x22 0x06 vd 0 0 gr 0) (fun ln => setV vd (ofH fun _ => (fld (getG gr ln) 15 0 : Nat)) ln) s)
def execVsplatW (lane : Lane) (vd : VReg) (gr : GReg) (s : State) : Out :=
  .next (laneOp lane (encV 0x22 0x07 vd 0 0 gr 0) (fun ln => setV vd (ofW fun _ => getG gr ln) ln) s)

end Sys2Proof.Machine
end

