-- ==== Sys2Proof/Machine/LaneSys.lean ====
section
/-! DEFINITION. System, message and road instructions of a lane, and its faults without an instruction (R117-R119,
R129, R139, R157-R167). -/

set_option Elab.async false

namespace Sys2Proof.Machine

open Sys2Proof

/-! ### Job end (R117, R157) -/

/-- JEND (R117, R157): it retires when the lane's stores have performed. -/
def jend (l : Nat) (s : State) : State :=
  issue l (encS 0x00 0 0 0 0) (fun s =>
    let s := settleFlights l (freeBuffer l s)
    let s := setLane l { lane l s with run := .idle, job := none, stale := [] } s
    bump LNC_LANE_CNT_JOB l 31 0 s) s
def execJend (lane : Lane) (s : State) : Out := .next (jend lane s)

/-! ### Messages in (R158) -/

/-- The first message of an inbox that is not held under R83. -/
def firstMessage (l : Nat) (s : State) : Option Message :=
  ((lane l s).inbox.find? fun e => !e.held).map fun e => e.msg

/-- Remove the first message that is not held. -/
def dropFirst : List InboxEntry → List InboxEntry
  | [] => []
  | e :: t => if e.held then e :: dropFirst t else t

/-- Take a message: its 64 bytes go to local memory, it leaves the inbox, and 0 is written to the status register; a
drain marker ends its slot's draining (R83, R118, R158). -/
def takeMessage (l : Nat) (m : Message) (reg : Nat) (addr : Word) (s : State) : State :=
  let s := storeLocal l addr.toNat (messageBytes m) s
  let ln := lane l s
  let s := setLane l (retire (setG reg 0 { ln with inbox := dropFirst ln.inbox, run := .running })) s
  if bit m.flags 0 ∧ (slotRun m.slot.toNat s).oldGen = m.gen then takeMarker l m.slot.toNat s else s

/-- WAITM and POLLM (R158): `suspend` for WAITM outside step mode. -/
def receiveOp (l : Nat) (w : Word) (a b : Nat) (suspend : Bool) (ans : MemAnswer) (s : State) : State :=
  issue l w (fun s =>
    let ln := lane l s
    let addr := getG b ln
    if addr.toNat % 16 ≠ 0 then faultAt l 3 addr s
    else if 0x10000 < addr.toNat + 64 then faultAt l 4 addr s
    else
      match firstMessage l s with
      | some m =>
        let r := LaneRef.localMem (localAddr l + addr.toNat)
        let s' := noteRef r ans s
        match answerCause r ans s with
        | some c => faultAt l c addr s'
        | none => takeMessage l m a addr s'
      | none =>
        if suspend then setLane l { ln with run := .waiting, waitReg := a, waitAddr := addr } s
        else setLane l (retire (setG a 1 ln)) s) s

def execWaitm (lane : Lane) (a b : GReg) (ans : MemAnswer) (s : State) : Out :=
  .next (receiveOp lane (encS 0x01 a b 0 0) a b (!stepMode s) ans s)
def execPollm (lane : Lane) (a b : GReg) (ans : MemAnswer) (s : State) : Out :=
  .next (receiveOp lane (encS 0x02 a b 0 0) a b false ans s)

/-- WAITM_RESUME (R112, R117, R158, R168): not while the lane is halted. -/
def waitmResume (l : Nat) (ans : MemAnswer) (s : State) : State :=
  let ln := lane l s
  if ln.run = .waiting ∧ ¬ ln.halted ∧ ¬ laneInReset l s then
    match firstMessage l s with
    | some m =>
      let r := LaneRef.localMem (localAddr l + ln.waitAddr.toNat)
      let s' := noteRef r ans s
      match answerCause r ans s with
      | some c => faultAt l c ln.waitAddr s'
      | none => takeMessage l m ln.waitReg ln.waitAddr s'
    | none => s
  else s
def execWaitmResume (x : LaneAnswer) (s : State) : Out := .next (waitmResume x.lane x.ans s)

/-! ### Sends (R119, R159) -/

/-- Where `n` bytes at a lane address lie: wholly in local or wholly in district memory, else none. -/
def sendRef (l : Nat) (addr : Word) (n : Nat) : Option LaneRef :=
  let a := addr.toNat
  if a + n ≤ 0x10000 then some (.localMem (localAddr l + a))
  else if 0x100000 ≤ a ∧ a + n ≤ 0x180000 then some (.districtMem (districtAddr (l / 16) + (a - 0x100000)))
  else none

/-- Entries of the step buffer that a send of n read bytes occupies (R159). -/
def sendEntries (n : Nat) : Nat := (n + 15) / 16 + 1

/-- A SEND that reads `n` bytes at `addr` (R143, R159): `ok` says whether destination and length lie in the table, and
`go` performs the send with the bytes read. A refused record is `bad`. -/
def sendOp (l : Nat) (w : Word) (n : Nat) (addr : Word) (ok : Bool) (bad : Bytes → Bool) (ans : MemAnswer)
    (go : Bytes → State → State) (s : State) : State :=
  issue l w (fun s =>
    if n ≠ 0 ∧ addr.toNat % 4 ≠ 0 then faultAt l 3 addr s
    else if ¬ ok then faultAt l 9 0 s
    else
      match (if n = 0 then some (LaneRef.localMem (localAddr l)) else sendRef l addr n) with
      | none => faultAt l 9 0 s
      | some r =>
        let v := laneSees l r (settleRead l r n s)
        let s := v.1
        let b := rdBytes r.addr n v.2
        if bad b then faultAt l 9 0 s
        else if stepMode s ∧ ¬ stepRoom l (sendEntries n) s then faultAt l 11 0 s
        else
          let s' := if n = 0 then s else noteRef r ans s
          match (if n = 0 then none else answerCause r ans s) with
          | some c => faultAt l c addr s'
          | none => go b s') s

/-- Class of messages of a district to other districts (R121). -/
def msgClass (d : Nat) (s : State) : Nat := rgF LNC_DST_CTRL d 6 4 s

/-- The message that a SEND makes, with the tag of its job (R120, R159). -/
def newMessage (l : Nat) (payload : Bytes) (s : State) : Message :=
  let ln := lane l s
  let j := ln.job.getD {}
  { src := l, flags := if stepMode s then 2 else 0, slot := j.slot, gen := j.gen,
    cls := BitVec.ofNat 3 (msgClass (l / 16) s), seq := j.seq, msgSeq := ln.msgSeq,
    time := if stepMode s then w32 s.stp.step else now s, payload := payload }

/-- A SEND of kind 0 or 1 completes: sent at once, or held for the next step. -/
def sendMsg (l : Nat) (dest : MsgDest) (b : Bytes) (s : State) : State :=
  let m := newMessage l b s
  let ln := lane l s
  let ln := retire { ln with msgSeq := ln.msgSeq + 1 }
  if stepMode s then setLane l (bufferSend (.message dest m) (sendEntries b.length) ln) s
  else sendMessage dest m (setLane l ln s)

/-- Kinds 0 and 1. -/
def sendKind01 (kind : Nat) (l : Lane) (a b c : GReg) (ans : MemAnswer) (s : State) : State :=
  let ln := lane l s
  let n := (getG a ln).toNat
  let d := (getG b ln).toNat
  let limit := if kind = 0 then 1024 else 64
  sendOp l (encS 0x03 a b c kind) n (getG c ln) (decide (d < limit) && decide (n ≤ 48)) (fun _ => false) ans
    (sendMsg l (if kind = 0 then .lane d else .district d)) s

def execSendLane (lane : Lane) (a b c : GReg) (ans : MemAnswer) (s : State) : Out :=
  .next (sendKind01 0 lane a b c ans s)
def execSendDistrict (lane : Lane) (a b c : GReg) (ans : MemAnswer) (s : State) : Out :=
  .next (sendKind01 1 lane a b c ans s)

/-- A kind-2 SEND: the frame waits for its district's port and the lane stalls, or it is held for the next step. -/
def sendFrame (l egress cls : Nat) (b : Bytes) (s : State) : State :=
  let ln := lane l s
  if stepMode s then setLane l (bufferSend (.frame egress cls b) (sendEntries b.length) (retire ln)) s
  else
    let d := l / 16
    let s := setLane l { ln with sending := true } s
    setDistrict d { district d s with
      sends := (district d s).sends ++ [{ lane := l, egress := egress, cls := cls, frame := b }] } s

def sendPort (l : Lane) (a b c : GReg) (ans : MemAnswer) (s : State) : State :=
  let ln := lane l s
  let n := (getG a ln).toNat
  let d := getG b ln
  let egress := fld d 7 0
  sendOp l (encS 0x03 a b c 2) n (getG c ln)
    (decide (fld d 31 11 = 0) && (decide (egress < 132) || decide (egress = 196)) && decide (60 ≤ n) && decide (n ≤ 2032))
    (fun _ => false) ans (sendFrame l egress (fld d 10 8)) s
def execSendPort (lane : Lane) (a b c : GReg) (ans : MemAnswer) (s : State) : Out := .next (sendPort lane a b c ans s)

/-- Admit a kind-2 frame from a district port; a refused one counts as undeliverable (R119). -/
def admitSend (l egress cls : Nat) (b : Bytes) (s : State) : State :=
  let r := internalOffer (newFrame b (132 + l / 16) cls s) egress s
  if r.2 then r.1 else undeliverable l r.1

/-- SEND_FRAME_COPY_DONE (R119, R168): the oldest send of the district's port ends its copy, and its lane's stall ends; a
halt that the district has entered meanwhile takes effect on the lane. -/
def sendFrameCopyDone (d : Nat) (s : State) : State :=
  match (district d s).sends with
  | [] => s
  | x :: t =>
    let s := setDistrict d { district d s with sends := t } s
    let s := admitSend x.lane x.egress x.cls x.frame s
    setLane x.lane (retire { lane x.lane s with sending := false, halted := (district d s).halted }) s
def execSendFrameCopyDone (district : District) (s : State) : Out := .next (sendFrameCopyDone district s)

/-- A lane's record enters the journal; one that a full intake queue discards counts as undeliverable (R340). -/
def recordOffer (l cls : Nat) (b : Bytes) (s : State) : State :=
  let full := s.jnl.intake.length ≥ 256 ∧ journalTakes s
  let r := journalIntake (laneRecord l cls b s) s
  onlyIf (decide full && !r.2) (undeliverable l) r.1

/-- A kind-3 SEND: a journal record of 48 bytes (R119, R339). -/
def sendRecord (l cls : Nat) (b : Bytes) (s : State) : State :=
  let ln := retire (lane l s)
  if stepMode s then setLane l (bufferSend (.journal cls b) (sendEntries 48) ln) s
  else recordOffer l cls b (setLane l ln s)

def sendJournal (l : Lane) (a b c : GReg) (ans : MemAnswer) (s : State) : State :=
  let ln := lane l s
  let d := (getG b ln).toNat
  sendOp l (encS 0x03 a b c 3) 48 (getG c ln) (decide (d < 3)) (fun _ => false) ans (sendRecord l d) s
def execSendJournal (lane : Lane) (a b c : GReg) (ans : MemAnswer) (s : State) : Out :=
  .next (sendJournal lane a b c ans s)

/-- Road bits 7:6 or flag bits 7:3 of an observation record are not zero (R159, R163). -/
def recordBad (b : Bytes) : Bool := decide (64 ≤ leAt b 10 1) || decide (8 ≤ leAt b 11 1)

/-- An observation of a lane: it enters R47 at once, or is held for the next step (R129, R163). -/
def laneObservation (l entries : Nat) (b : Bytes) (s : State) : State :=
  let ln := retire (lane l s)
  if stepMode s then setLane l (bufferSend (.observation (observationOf b 4)) entries ln) s
  else enqueueObservation (observationOf b 4) (setLane l ln s)

def sendRoad (l : Lane) (a b c : GReg) (ans : MemAnswer) (s : State) : State :=
  sendOp l (encS 0x03 a b c 4) 16 (getG c (lane l s)) true recordBad ans (laneObservation l 2) s
def execSendRoad (lane : Lane) (a b c : GReg) (ans : MemAnswer) (s : State) : Out := .next (sendRoad lane a b c ans s)

/-- OBS (R163). -/
def obs (l : Lane) (vb : VReg) (s : State) : State :=
  issue l (encS 0x07 0 vb 0 0) (fun s =>
    let b := vecBytes (getV vb (lane l s))
    if recordBad b then faultAt l 9 0 s
    else if stepMode s ∧ ¬ stepRoom l 2 s then faultAt l 11 0 s
    else laneObservation l 2 b s) s
def execObs (lane : Lane) (vb : VReg) (s : State) : Out := .next (obs lane vb s)

/-! ### Road queries (R129, R160-R162) -/

/-- A query on this road is step-ordered: step mode, kinds 2-5 (R129, R169). -/
def stepQuery (n : Nat) (s : State) : Bool := stepMode s && decide (2 ≤ roadKind n s)

/-- The state at a Milepost time that a step-ordered query takes as now (R129). -/
def atTb (s : State) : State :=
  { s with mp := { s.mp with counter := BitVec.ofNat 64 (s.stp.tb.toNat * 2 ^ 32) } }

/-- Position, code and rate in the layout of R160. -/
def roadVec (pos : BitVec 48) (code : Nat) (rate : BitVec 48) : VWord :=
  ofW fun j =>
    match j with
    | 0 => w32 pos.toNat
    | 1 => w32 (pos.toNat / 2 ^ 32 + code * 2 ^ 16)
    | 2 => w32 rate.toNat
    | _ => w32 (wrapI 32 (si rate / 2 ^ 32))

/-- What ROADP returns: in step mode pos(t_b) and vel(t_b) of the tracker, whatever state the road is in (R129, R160). -/
def roadNow (n : Nat) (s : State) : VWord :=
  let r := road n s
  if stepQuery n s then
    let d := diff32 s.stp.tb r.tS
    roadVec (pub48 (r.posAt d)) r.state.code (BitVec.ofNat 48 (wrapI 48 (r.velAt d)))
  else roadVec r.pub r.state.code r.pubRate

def execRoadp (lane : Lane) (vd : VReg) (b : GReg) (s : State) : Out :=
  .next (laneOp lane (encS 0x04 vd b 0 0) (fun ln => setV vd (roadNow (fld (getG b ln) 5 0) s) ln) s)

/-- What ROADAT returns (R61, R161). -/
def roadAtVec (n : Nat) (t : Word) (s : State) : VWord :=
  let q := roadAt n t (if stepQuery n s then atTb s else s)
  roadVec q.2.1 q.1 q.2.2

def execRoadat (lane : Lane) (vd : VReg) (b c : GReg) (s : State) : Out :=
  .next (laneOp lane (encS 0x05 vd b c 0)
    (fun ln => setV vd (roadAtVec (fld (getG b ln) 5 0) (getG c ln) s) ln) s)

/-- What ROADWHEN returns (R55, R162). -/
def roadWhenVec (n : Nat) (x : VWord) (s : State) : VWord :=
  let q := roadWhen n (BitVec.ofNat 48 (fld (vw x 1) 15 0 * 2 ^ 32 + (vw x 0).toNat))
    (if stepQuery n s then atTb s else s)
  let ok := decide (q.1 = whenOk) || decide (q.1 = whenNotConverged)
  ofW fun j => if j = 0 then (if ok then q.2 else 0) else if j = 1 then w32 q.1 else 0

def execRoadwhen (lane : Lane) (vd : VReg) (b : GReg) (vc : VReg) (s : State) : Out :=
  .next (laneOp lane (encS 0x06 vd b vc 0)
    (fun ln => setV vd (roadWhenVec (fld (getG b ln) 5 0) (getV vc ln) s) ln) s)

/-! ### Step, atomics, fence, trap (R164-R167) -/

def execStepqStep (lane : Lane) (gd : GReg) (s : State) : Out :=
  .next (laneOp lane (encS 0x08 gd 0 0 0) (setG gd (if stepMode s then w32 s.stp.step else 0)) s)
def execStepqTime (lane : Lane) (gd : GReg) (s : State) : Out :=
  .next (laneOp lane (encS 0x08 gd 0 0 1) (setG gd (if stepMode s then s.stp.tb else now s)) s)
def execLaneq (lane : Lane) (gd : GReg) (s : State) : Out :=
  .next (laneOp lane (encS 0x0C gd 0 0 0) (setG gd (w32 lane.val)) s)

/-- ATOM (R124, R128, R165): 0 add, 1 swap, 2 compare-and-swap. -/
def atomOp (op : Nat) (l : Lane) (a b c : GReg) (ans : MemAnswer) (s : State) : State :=
  issue l (encS 0x09 a b c op) (fun s =>
    let ln := lane l s
    let addr := getG b ln
    if addr.toNat % 4 ≠ 0 then faultAt l 3 addr s
    else
      match laneRef l addr 4 true s with
      | .districtMem d =>
        if stepMode s ∧ ¬ stepRoom l 1 s then faultAt l 11 0 s
        else
          let r := LaneRef.districtMem d
          let s' := noteRef r ans s
          match answerCause r ans s with
          | some k => faultAt l k addr s'
          | none =>
            if stepMode s then
              setLane l (bufferWrite (.atom d op (getG c ln) (getG a ln))
                (retire (setG a (rdWord d (laneView l s)) ln))) s'
            else
              let q := atomDistrict l d (fun old => atomWord op old (getG c ln) (getG a ln)) s'
              setLane l (retire (setG a q.2 ln)) q.1
      | _ => faultAt l 4 addr s) s
def execAtomAdd (lane : Lane) (a b c : GReg) (ans : MemAnswer) (s : State) : Out := .next (atomOp 0 lane a b c ans s)
def execAtomSwap (lane : Lane) (a b c : GReg) (ans : MemAnswer) (s : State) : Out := .next (atomOp 1 lane a b c ans s)
def execAtomCas (lane : Lane) (a b c : GReg) (ans : MemAnswer) (s : State) : Out := .next (atomOp 2 lane a b c ans s)

/-- FENCE waits for the lane's stores and discards the words fetched ahead (R166). -/
def fence (l : Nat) (s : State) : State :=
  issue l (encS 0x0A 0 0 0 0)
    (fun s => setLane l (retire { lane l s with stale := [] }) (settleFlights l s)) s
def execFence (lane : Lane) (s : State) : Out := .next (fence lane s)

/-- TRAP (R167). -/
def execTrap (lane : Lane) (code : BitVec 16) (s : State) : Out :=
  .next (issue lane (encCode 0x0B code.toNat) (fun s => laneFault lane 1 0 code.toNat (Machine.lane lane s).pc s) s)

/-- ILLEGAL_INSTRUCTION (R140, R141): the word at the program counter is no instruction. -/
def illegalInstruction (l : Nat) (s : State) : State :=
  if laneReady l s ∧ (lane l s).pc.toNat < 0x10000 ∧ ¬ legalWord (fetchWord l s) then faultAt l 2 0 s else s
def execIllegalInstruction (lane : Lane) (s : State) : Out := .next (illegalInstruction lane s)

/-- INSTRUCTION_FETCH_FAULT (R112, R139): a fetch outside local memory, or one that local memory answers with an error; a
corrected one is counted and the lane goes on. -/
def instructionFetchFault (l : Nat) (ans : MemAnswer) (s : State) : State :=
  let pc := (lane l s).pc
  if ¬ laneReady l s then s
  else if 0x10000 ≤ pc.toNat then faultAt l 12 0 s
  else
    let r := LaneRef.localMem (localAddr l + pc.toNat)
    let s' := noteRef r ans s
    match answerCause r ans s with
    | some c => faultAt l c pc s'
    | none => s'
def execInstructionFetchFault (x : LaneAnswer) (s : State) : Out := .next (instructionFetchFault x.lane x.ans s)

end Sys2Proof.Machine
end

