-- ==== Sys2Proof/Machine/Waypost.lean ====
section
/-! DEFINITION. The Waypost endpoint: reception, openings, host messages, associations, ARP and ICMP echo (R393-R399). -/

set_option Elab.async false

namespace Sys2Proof.Machine

open Sys2Proof

/-! ### A message in a frame (R393-R395) -/

/-- A Waypost message as it reached the endpoint: its trunk, its sender, and the bytes from the header on. -/
structure WpArrival where
  trunk : Nat
  peer : WpPeer
  /-- Header, payload, trailer and any padding. -/
  msg : Bytes
  /-- Bytes after the trailer are allowed: the frame was padded to its shortest length. -/
  padded : Bool

def WpArrival.version (m : WpArrival) : Nat := beAt m.msg 0 1
def WpArrival.type (m : WpArrival) : Nat := beAt m.msg 1 1
def WpArrival.session (m : WpArrival) : Nat := beAt m.msg 2 1
def WpArrival.flags (m : WpArrival) : Nat := beAt m.msg 3 1
def WpArrival.epoch (m : WpArrival) : Word := w32 (beAt m.msg 4 4)
def WpArrival.seq (m : WpArrival) : Word := w32 (beAt m.msg 8 4)
def WpArrival.len (m : WpArrival) : Nat := beAt m.msg 12 2
def WpArrival.payload (m : WpArrival) : Bytes := slice m.msg 16 m.len

/-- Flags bit 1: an opening. -/
def WpArrival.opens (m : WpArrival) : Bool := m.flags / 2 % 2 == 1

/-- Header and payload, which the MAC covers. -/
def WpArrival.covered (m : WpArrival) : Bytes := m.msg.take (16 + m.len)

/-- The trailer stands in the message and is the MAC under a key. -/
def WpArrival.verified (m : WpArrival) (key : Bytes) : Bool :=
  decide (32 + m.len ≤ m.msg.length) && slice m.msg (16 + m.len) 16 == wpTrailer key m.covered

/-- Version, reserved bits or length are not those of R395. -/
def WpArrival.badHeader (m : WpArrival) : Bool :=
  decide (m.version ≠ 1) || decide (8 ≤ m.flags) || decide (beAt m.msg 14 2 ≠ 0) || decide (1400 < m.len)
    || (!m.padded && decide (m.msg.length ≠ 32 + m.len))

/-- A frame in the Ethernet encapsulation. -/
def ethArrival (t : Nat) (b : Bytes) (s : State) : Option WpArrival :=
  if bit (rg WPT_CFG 0 s) 17 then
    some { trunk := t, peer := { mac := srcAddr b }, msg := b.drop (dataBase b),
           padded := decide (b.length ≤ 46 + dataBase b) }
  else none

/-- A frame in the UDP/IPv4 encapsulation: no fragment, no options, good checksums, the trunk's address and the port. -/
def udpArrival (t : Nat) (b : Bytes) (s : State) : Option WpArrival :=
  let p := b.drop (dataBase b)
  let total := beAt p 2 2
  let u := slice p 20 (total - 20)
  let ulen := beAt u 4 2
  let src := beAt p 12 4
  let dst := beAt p 16 4
  let own := (rg (WPT_IPV4_T + 4 * t) 0 s).toNat
  if ¬ bit (rg WPT_CFG 0 s) 16 ∨ own = 0 ∨ dst ≠ own ∨ beAt p 0 1 ≠ 0x45 ∨ beAt p 9 1 ≠ 17 ∨ beAt p 6 2 % 0x4000 ≠ 0
      ∨ total < 28 ∨ p.length < total ∨ inetSum (p.take 20) ≠ 0 ∨ ulen < 8 ∨ u.length < ulen
      ∨ beAt u 2 2 ≠ udpPort s
      ∨ (beAt u 6 2 ≠ 0 ∧ inetSum (pseudoHeader src dst ulen ++ u.take ulen) ≠ 0) then none
  else some { trunk := t, peer := { mac := srcAddr b, udp := some (w32 src, BitVec.ofNat 16 (beAt u 0 2)) },
              msg := slice u 8 (ulen - 8), padded := false }

/-- The message of a frame of a trunk, in an encapsulation that is accepted and long enough for a header. -/
def arrivalOf (t : Nat) (b : Bytes) (s : State) : Option WpArrival :=
  let a := if etherType b = 0x88B5 then ethArrival t b s
    else if etherType b = 0x0800 then udpArrival t b s
    else none
  a.filter fun m => decide (16 ≤ m.msg.length)

/-- A frame that is discarded and counted as malformed. -/
def wpMalformed (s : State) : State := bump WPT_CNT_BAD 0 31 16 s

/-- A replay: no response. -/
def wpReplay (i : Nat) (s : State) : State := setCause WPT_CAUSE 0 1 (bump WPT_S_DROP i 23 16 s)

/-! ### Openings (R397) -/

/-- The key of a host session. -/
def sessionKey (i : Nat) (s : State) : Option Bytes := (session i s).key

/-- Draw a pending epoch, neither 0 nor the current one (R397). -/
def drawEpoch (i : Nat) (s : State) : State × Word := drawWord (rg WPT_S_EPOCH i s) s

/-- The answer to an opening goes to its sender, under the base key. -/
def answerOpening (i : Nat) (base : Bytes) (m : WpArrival) (epoch : Word) (status : Nat) (payload : Bytes) (s : State) : State :=
  lostAtMac m.trunk (wpSendOn m.trunk m.peer (wpMessage base m.type i (flagOpen + flagResponse) epoch m.seq status payload))
    (bump WPT_S_CNT i 15 0 s)

/-- An opening in the order of R398: an epoch or seq that is not 0 fails test 3; a bad header, or a type that is not
REG_RD, test 5; a full queue, test 6; a nonce of another length is discarded (R397). Then the pending epoch is drawn and
named in the answer, which carries the nonce back. -/
def openSession (i : Nat) (base : Bytes) (m : WpArrival) (s : State) : State :=
  if m.epoch ≠ 0 ∨ m.seq ≠ 0 then wpReplay i s
  else if m.badHeader ∨ m.flags ≠ flagOpen ∨ m.type ≠ wpRegRd then
    answerOpening i base m 0 stMalformed [] (setCause WPT_CAUSE 0 2 (wpMalformed s))
  else if 8 ≤ (session i s).queue.length then
    answerOpening i base m 0 stBusy [] (setCause WPT_CAUSE 0 3 (bump WPT_S_DROP i 7 0 s))
  else if m.len ≠ 8 then wpMalformed s
  else
    let r := drawEpoch i s
    answerOpening i base m r.2 0 m.payload (setSession i { session i r.1 with pending := some r.2 } r.1)

/-! ### Host messages (R398) -/

/-- Test 1: the session is enabled, on this trunk and in this encapsulation, and the device takes host messages here. -/
def sessionAdmits (i : Nat) (m : WpArrival) (s : State) : Bool :=
  let c := rg WPT_S_CFG i s
  bit c 31 && bit c m.trunk && bit c (if m.peer.udp.isSome then 5 else 4)
    && (s.sys.phase != .running || decide (trunkRole m.trunk s = roleUplink)) && decide (hieRole s ≠ 2)

/-- The window rule: the new highest sequence and window, or none for a replay. -/
def windowTest (hi seq : Word) (seen : BitVec 64) : Option (Word × BitVec 64) :=
  let d := (seq - hi).toNat
  let b := (hi - seq).toNat
  if 1 ≤ d ∧ d < 2 ^ 31 then some (seq, seen <<< d ||| 1)
  else if b ≤ 63 then (if bit seen b then none else some (hi, seen ||| 1 <<< b))
  else none

/-- The pending epoch becomes current: the message's seq is the highest, selects are 0 and TXSEQ is 1. -/
def adoptEpoch (i : Nat) (m : WpArrival) (s : State) : State :=
  let s := setSession i { session i s with pending := none, seen := 1 } s
  let s := setRg WPT_S_EPOCH i m.epoch (setRg WPT_S_HI i m.seq (setRg WPT_S_TXSEQ i 1 s))
  setCause WPT_CAUSE 0 5 (dropRegs (fun r k => decide (r % 0x1000 = 0 ∧ r ≠ SYS_ID ∧ k = 4 + i)) s)

/-- Tests 3 and 4: the epoch and the window. None where the message is a replay. -/
def passWindow (i : Nat) (m : WpArrival) (s : State) : Option State :=
  let cur := rg WPT_S_EPOCH i s
  if m.seq = 0 ∨ m.epoch = 0 then none
  else if m.epoch = cur then
    (windowTest (rg WPT_S_HI i s) m.seq (session i s).seen).map fun w =>
      setRg WPT_S_HI i w.1 (setSession i { session i s with seen := w.2 } s)
  else if (session i s).pending = some m.epoch then some (adoptEpoch i m s)
  else none

/-- A message as a request of its session. -/
def WpArrival.request (i : Nat) (m : WpArrival) : WpRequest :=
  { kind := BitVec.ofNat 8 m.type, epoch := m.epoch, seq := m.seq, payload := m.payload,
    who := .host i m.peer m.epoch m.seq }

/-- Tests 5 and 6, for a message whose sender is now the session's current address; a message that passes is queued. -/
def acceptMessage (i : Nat) (m : WpArrival) (s : State) : State :=
  let s := setSession i { session i s with peer := m.peer } (setRgF WPT_S_STAT i 9 8 m.trunk s)
  if m.badHeader ∨ m.flags % 2 = 1 ∨ m.flags / 4 % 2 = 1 then
    wpRespond i m.peer m.type m.epoch m.seq stMalformed [] (setCause WPT_CAUSE 0 2 (wpMalformed s))
  else if 8 ≤ (session i s).queue.length then
    wpRespond i m.peer m.type m.epoch m.seq stBusy [] (setCause WPT_CAUSE 0 3 (bump WPT_S_DROP i 7 0 s))
  else queueRequest i (m.request i) (bump WPT_CNT_RX 0 31 16 (bump WPT_S_CNT i 31 16 s))

/-- A message of a host session, through the tests in their order. -/
def hostMessage (i : Nat) (m : WpArrival) (s : State) : State :=
  if ¬ sessionAdmits i m s then bump WPT_S_DROP i 31 24 s
  else
    let key := (sessionKey i s).filter fun base => m.verified (if m.opens then base else epochKey base i m.epoch)
    match key with
    | none => setCause WPT_CAUSE 0 0 (bump WPT_S_DROP i 31 24 s)
    | some base =>
      if m.opens then openSession i base m s
      else
        match passWindow i m s with
        | none => wpReplay i s
        | some s => acceptMessage i m s

/-! ### Association messages (R399) -/

/-- An association message that is discarded. -/
def assocDrop (s : State) : State := bump WPT_CNT_BAD 0 15 0 s

/-- The held peer is lost: under R382, or silent for 100 ms on the echo association. -/
def peerLost (a : Nat) (p : PeerRun) (s : State) : Bool :=
  let silent := elapsedNs s - p.last
  if a = assocEcho then decide (100000000 ≤ silent)
  else
    let limit := max 1 (rgF HIE_CFG 0 23 16 s) * max 1 (rgF HIE_CFG 0 15 0 s) * 1000000
    decide (limit ≤ silent) || (hieRole s == 2 && s.hie.managerLost)
      || (List.range 16).any fun w => (worker w s).addr == some p.addr && workerState w s == workerLost

/-- The held peer after a verified message; none where the message is a replay. A message with another epoch is taken when
its seq is 1 to 64 and the peer is lost, and on the echo association when the peer has been silent for 100 ms. -/
def peerTakes (a : Nat) (p : PeerRun) (m : WpArrival) (s : State) : Option PeerRun :=
  if m.epoch = p.epoch then
    (windowTest p.hi m.seq p.seen).map fun w => { p with hi := w.1, seen := w.2, last := elapsedNs s }
  else if peerLost a p s ∧ (a = assocEcho ∨ 1 ≤ m.seq.toNat ∧ m.seq.toNat ≤ 64) then
    some { p with epoch := m.epoch, hi := m.seq, seen := 1, last := elapsedNs s }
  else none

/-- The peer that has been silent longest. -/
def silentLongest (s : State) : List PeerRun → Option PeerRun
  | [] => none
  | p :: t =>
    match silentLongest s t with
    | none => some p
    | some q => if p.last ≤ q.last then some p else some q

/-- A first message of an address: it takes the place of the longest silent one when 16 are held. -/
def addPeer (m : WpArrival) (ps : List PeerRun) (s : State) : List PeerRun :=
  let p : PeerRun := { addr := m.peer.mac, epoch := m.epoch, hi := m.seq, seen := 1, last := elapsedNs s }
  if ps.length < 16 then ps ++ [p]
  else
    match silentLongest s ps with
    | some q => (ps.filter fun x => x.addr != q.addr) ++ [p]
    | none => [p]

/-- The association's peers after a verified message; none for a replay. -/
def peersTake (a : Nat) (m : WpArrival) (s : State) : Option (List PeerRun) :=
  let ps := sget [] a s.wpt.peers
  match ps.find? fun p => p.addr == m.peer.mac with
  | some p => (peerTakes a p m s).map fun q => ps.map fun x => if x.addr = m.peer.mac then q else x
  | none => some (addPeer m ps s)

/-- Types of an association (R400). -/
def assocType (a type : Nat) : Bool :=
  if a = assocEcho then decide (type = wpClaimEcho) else decide (type = wpRelay) || decide (type = wpRoadState)

/-- The content of an accepted association message. -/
def assocContent (m : WpArrival) (s : State) : State :=
  if m.type = wpRelay then relayArrives m.trunk m.peer.mac m.payload s
  else if m.type = wpRoadState then roadStateReceive m.peer.mac m.payload s
  else claimEcho m.payload s

/-- A message of an association is checked against its peer window and acted on; it is never answered. -/
def assocMessage (a : Nat) (m : WpArrival) (s : State) : State :=
  let good := (sget none a s.wpt.assocKey).any fun key => m.verified key
  if ¬ good ∨ m.badHeader ∨ ¬ assocType a m.type then assocDrop s
  else
    match peersTake a m s with
    | none => assocDrop s
    | some ps =>
      assocContent m (bump WPT_CNT_RX 0 15 0 { s with wpt := { s.wpt with peers := sset [] a ps s.wpt.peers } })

/-! ### Reception (R394, R395, R410) -/

/-- What stands at switch port 199 when a whole frame waits there. -/
def waypostFrame (s : State) : Option JFrame :=
  match handed 199 s with
  | none => none
  | some c => (jframe c.frame s).filter fun f => !f.cutting

/-- Its message, when the endpoint takes it: addressed to filter entry 0 of its trunk, in an accepted encapsulation. -/
def waypostMessage (f : JFrame) (s : State) : Option WpArrival :=
  if 128 ≤ f.src ∧ f.src < 132 ∧ dstAddr f.bytes = filterAddr f.src s then arrivalOf (f.src - 128) f.bytes s else none

/-- The other hierarchy trunk of a worker with two, for a frame of another destination (R394). -/
def chainTrunk (f : JFrame) (s : State) : Option Nat :=
  let ts := trunksOf roleHierarchy s
  if hieRole s = 2 ∧ ts.length = 2 ∧ ts.any (fun t => 128 + t == f.src) ∧ dstAddr f.bytes ≠ filterAddr f.src s then
    ts.find? fun t => 128 + t != f.src
  else none

/-- One frame at the endpoint. -/
def takeWaypost (f : JFrame) (s : State) : State :=
  if inReset 210 s then wpMalformed s
  else
    match chainTrunk f s with
    | some t => internalFrame 199 (128 + t) 7 f.bytes s
    | none =>
      match waypostMessage f s with
      | none => wpMalformed s
      | some m =>
        if m.session ≤ 3 then hostMessage m.session m s
        else if m.session = assocByte assocHierarchy then assocMessage assocHierarchy m s
        else if m.session = assocByte assocEcho then assocMessage assocEcho m s
        else setCause WPT_CAUSE 0 2 (wpMalformed s)

/-- The frame at switch port 199 leaves it and is taken, when it is of a kind. -/
def receiveWaypost (kind : JFrame → Bool) (s : State) : State :=
  match (waypostFrame s).filter kind with
  | none => s
  | some f => takeWaypost f (endHanded 199 s)

/-- WAYPOST_RECEIVE: any frame at the endpoint. -/
def execWaypostReceive (s : State) : Out := .next (receiveWaypost (fun _ => true) s)

/-- SESSION_OPEN: a frame that carries an opening of a host session. -/
def isOpening (s : State) (f : JFrame) : Bool :=
  (waypostMessage f s).any fun m => decide (m.session ≤ 3) && m.opens
def execSessionOpen (s : State) : Out := .next (receiveWaypost (isOpening s) s)

/-- ASSOCIATION_MESSAGE: a frame that carries a message of an association. -/
def isAssociation (s : State) (f : JFrame) : Bool :=
  (waypostMessage f s).any fun m => decide (m.session = 0x80 ∨ m.session = 0xC0)
def execAssociationMessage (s : State) : Out := .next (receiveWaypost (isAssociation s) s)

/-! ### ARP and ICMP echo (R393) -/

/-- The answer to an ARP request for an address. -/
def arpReply (t own : Nat) (b : Bytes) (s : State) : Option Bytes :=
  let p := b.drop (dataBase b)
  if p.length < 28 ∨ beAt p 0 2 ≠ 1 ∨ beAt p 2 2 ≠ 0x0800 ∨ beAt p 4 2 ≠ 0x0604 ∨ beAt p 6 2 ≠ 1 ∨ beAt p 24 4 ≠ own then
    none
  else
    some (ethHeader (BitVec.ofNat 48 (beAt p 8 6)) (trunkAddr t s) 0x0806 ++ slice p 0 6 ++ beBytes 2 2
      ++ beBytes 6 (trunkAddr t s).toNat ++ beBytes 4 own ++ slice p 8 10)

/-- The answer to an ICMP echo request for an address; five free bytes of its IPv4 header are drawn. -/
def icmpReply (t own : Nat) (b : Bytes) (s : State) : Option Bytes :=
  let p := b.drop (dataBase b)
  let total := beAt p 2 2
  let c := slice p 20 (total - 20)
  if p.length < total ∨ total < 28 ∨ beAt p 0 1 ≠ 0x45 ∨ beAt p 9 1 ≠ 1 ∨ beAt p 6 2 % 0x4000 ≠ 0 ∨ beAt p 16 4 ≠ own
      ∨ inetSum (p.take 20) ≠ 0 ∨ inetSum c ≠ 0 ∨ beAt c 0 2 ≠ 0x0800 then none
  else
    let d := c.drop 4
    let body := [0, 0] ++ beBytes 2 (inetSum ([0, 0, 0, 0] ++ d)) ++ d
    some (ethHeader (srcAddr b) (trunkAddr t s) 0x0800 ++ ipv4Packet 1 s.draws own (beAt p 12 4) body)

/-- ARP_ICMP_REQUEST: supervisor firmware answers on the trunk for its WPT_IPV4 address. -/
def arpIcmpRequest (t : Nat) (b : Bytes) (s : State) : State :=
  let own := (rg (WPT_IPV4_T + 4 * t) 0 s).toNat
  let a := if own = 0 then none
    else if etherType b = 0x0806 then arpReply t own b s
    else if etherType b = 0x0800 then icmpReply t own b s
    else none
  match a with
  | none => s
  | some r =>
    internalFrame 199 (128 + t) 7 (padFrame r) { s with draws := s.draws + 5 }
def execArpIcmpRequest (trunk : Fin 4) (frame : Bytes) (s : State) : Out := .next (arpIcmpRequest trunk frame s)

end Sys2Proof.Machine
end

