-- ==== Sys2Proof/Machine/Steps.lean ====
section
/-! DEFINITION. The beginning of a step in step mode (R127, R131, R359, R361). -/

set_option Elab.async false

namespace Sys2Proof.Machine

open Sys2Proof

/-! ### What the lanes held (R127) -/

/-- A buffered write goes to district memory; the others go through an aperture. -/
def toDistrict (w : StepWrite) (s : State) : Bool :=
  let a := match w with | .write a _ => a | .atom a .. => a
  regionOf a s == .districtMem

/-- Commit the buffered writes of every lane: district memory first, then the apertures. -/
def commitWrites (s : State) : State :=
  let ls := skeys s.lanes
  let s := forEach ls (fun l s => forEach ((lane l s).stepWrites.filter fun w => toDistrict w s) applyStepWrite s) s
  forEach ls (fun l s => forEach ((lane l s).stepWrites.filter fun w => !toDistrict w s) applyStepWrite s) s

/-- The held sends of all lanes, by sending lane and order of send. -/
def heldSends (s : State) : List (Nat × StepSend) :=
  (skeys s.lanes).flatMap fun l => (lane l s).stepSends.map fun x => (l, x)

/-- Release a held send other than a message. -/
def releaseSend (l : Nat) (x : StepSend) (s : State) : State :=
  match x with
  | .message .. => s
  | .frame egress cls b => admitSend l egress cls b s
  | .journal cls b => recordOffer l cls b s
  | .observation o => enqueueObservation o s

/-- Deliver a held message; a message closed in LM64 mode is discarded (R18), and one from another district waits for the
end of its district's reset (R122). -/
def releaseMessage (x : StepSend) (s : State) : State :=
  match x with
  | .message dest m =>
    if lm64Mode s ∧ 60 ≤ dest.districtOf ∧ m.src / 16 < 60 then undeliverable m.src s
    else if ¬ inReset (132 + dest.districtOf) s then deliverMessage dest m s
    else if m.src / 16 = dest.districtOf then undeliverable m.src s
    else { s with stp := { s.stp with heldMsgs := s.stp.heldMsgs ++ [(dest, m)] } }
  | _ => s

/-- The bytes that a claimed lane frame adds to the digest (R361). -/
def digestPart (s : State) (l : Nat) (x : StepSend) : Option Bytes :=
  match x with
  | .frame egress cls b =>
    if claimed (132 + l / 16) egress s then
      let b := match claimAt b s with
        | some o => putAt b o (zeros 4)
        | none => b
      some (beBytes 1 egress ++ beBytes 1 cls ++ beBytes 2 b.length ++ b)
    else none
  | _ => none

/-- Send the digest of a step over its claimed frames, and compare it. -/
def sendDigest (n : Nat) (parts : List Bytes) (s : State) : State :=
  let d := w32 (crc32c (beBytes 4 n ++ parts.flatten))
  let s := { s with twn := { s.twn with ownDigest := sset none n (some d) s.twn.ownDigest } }
  compareDigest n (twinSend 7 n 0 (beBytes 4 d.toNat ++ beBytes 4 parts.length) s)

/-- Empty every lane's step buffer. -/
def emptyBuffers (s : State) : State :=
  forEach (skeys s.lanes)
    (fun l s => setLane l { lane l s with stepWrites := [], stepSends := [], stepEntries := 0, keepWrites := 0,
                                          keepSends := 0, keepEntries := 0 } s) s

/-! ### The merged inputs (R127, R359) -/

/-- The inputs of a step in merge order. -/
def insertInput (x : TwinInput) : List TwinInput → List TwinInput
  | [] => [x]
  | y :: t => if inputBefore x y then x :: y :: t else y :: insertInput x t

def mergedInputs (n : Nat) (s : State) : List TwinInput :=
  (s.twn.inputs.filter fun x => x.step = n).foldl (fun acc x => insertInput x acc) []

/-- Observations and road-state entries of the merged stream. -/
def applyRoadInput (x : TwinInput) (s : State) : State :=
  if x.kind = inputObservation then enqueueObservation (observationOf x.body (mergedKind x.body s)) s
  else if x.kind = inputRoadState then roadEntry x.body s
  else s

/-- A host command of the merged stream (R405). -/
def applyHostInput (x : TwinInput) (s : State) : State :=
  if x.kind = inputHost then stepHost (x.rank == twinRank s) x.seq x.body s else s

/-- A reset, halt or resume that waited (R131). -/
def applyStepCommand (c : StepCommand) (s : State) : State :=
  match c with
  | .resetLane l => if laneInReset l s then s else clearLane l s
  | .resetDistrict d => startReset (132 + d) s
  | .halt d => if inReset (132 + d) s then s else setHalt d true s
  | .resume d => if inReset (132 + d) s then s else setHalt d false s

/-- District of a captured frame. -/
def inputDistrict (x : TwinInput) : Nat := beAt x.body 0 1 % 64

/-- A captured frame is written and its job dispatched; a lane-job entry's job is dispatched. A frame waits while its
district takes none. -/
def dispatchInput (x : TwinInput) (s : State) : State :=
  if x.kind = inputFrame then
    let d := inputDistrict x
    if takesFrames d s then
      placeFrame d (beAt x.body 1 1) (beAt x.body 2 1) (w32 (beAt x.body 4 4)) s.stp.tb (x.body.drop 8) s
    else { s with stp := { s.stp with held := s.stp.held ++ [x] } }
  else if x.kind = inputJob then dispatchEntry (x.rank == twinRank s) x.seq x.body s
  else s

/-! ### STEP_BEGIN -/

/-- Count a stall at the end of step n, with its length in ns, which saturates (R127, R137). -/
def countStall (n : Nat) (s : State) : State :=
  let was := s.stp.stalled
  let arrival := sget none n s.stp.delivered
  let s := { s with stp := { s.stp with stalled := false, delivered := serase n s.stp.delivered } }
  match arrival with
  | none => s
  | some e =>
    if ¬ was then s
    else setRg LNC_STALL_LAST 0 (w32 (min 0xFFFFFFFF (elapsedNs s - e))) (addRgF LNC_STEP_STALL 0 31 0 1 s)

/-- The boundary time of a marker that is held. -/
def markerTime (n : Nat) (s : State) : Option Word := (s.twn.markers.find? fun m => m.1 = n).map fun m => m.2

/-- Forget the merged step's markers, inputs and closes. -/
def endMerge (n : Nat) (s : State) : State :=
  { s with twn := { s.twn with markers := s.twn.markers.filter (fun m => decide (n + 1 < m.1)),
                               inputs := s.twn.inputs.filter (fun x => decide (n < x.step)),
                               ownClose := serase n s.twn.ownClose, peerClose := serase n s.twn.peerClose } }

/-- Step n + 1 begins at t_b. -/
def beginStep (n : Nat) (tb : Word) (s : State) : State :=
  let ins := mergedInputs n s
  let sends := heldSends s
  let s := countStall n (commitWrites { s with stp := { s.stp with tb := tb } })
  let s := emptyBuffers s
  let held := s.stp.heldMsgs.map fun x => StepSend.message x.1 x.2
  let s := { s with stp := { s.stp with heldMsgs := [] } }
  let s := forEach (held ++ sends.map fun x => x.2) releaseMessage s
  -- a takeover suppresses until the first release (R368)
  let s := { s with twn := { s.twn with releasing := false } }
  let parts := sends.filterMap fun x => digestPart s x.1 x.2
  let s := forEach sends (fun x => releaseSend x.1 x.2) s
  let s := sendDigest n parts s
  let s := forEach ins applyRoadInput s
  let s := forEach s.stp.commands applyStepCommand { s with stp := { s.stp with commands := [] } }
  let s := forEach ins applyHostInput s
  let waited := s.stp.held
  let s := forEach (waited ++ ins) dispatchInput { s with stp := { s.stp with held := [] } }
  let s := stepMilestones tb .ok s
  -- a marker that came before the step began stalls the next one (R127)
  noteStall (endMerge n (setRg LNC_STEP 0 (w32 (n + 1)) { s with stp := { s.stp with step := n + 1 } }))

/-- STEP_BEGIN (R127): the merged stream of the step is complete and its jobs have ended. -/
def stepBegin (s : State) : State :=
  if ¬ stepMode s ∨ ¬ mergeReady s.stp.step s ∨ ¬ jobsEnded s then s
  else
    match markerTime (s.stp.step + 1) s with
    | some tb => beginStep s.stp.step tb s
    | none => s
def execStepBegin (s : State) : Out := .next (stepBegin s)

end Sys2Proof.Machine
end

