-- ==== Sys2Proof/Machine/Dispatch.lean ====
section
/-! DEFINITION. What each command does to the block: one arm per command, one meaning per arm. -/

namespace Sys2Proof.Machine

open Sys2Proof

/-- The effect of a command on everything but the queue. -/
def exec (i : Instr) (s : State) : Host.Outcome State Fault Refusal :=
  match i with
  | .registerWrite path addr size value hwSet hwClr => Sys2Proof.Machine.execRegisterWrite path addr size value hwSet hwClr s
  | .milepostTick => Sys2Proof.Machine.execMilepostTick s
  | .mptIncrFracWrite path value => Sys2Proof.Machine.execMptIncrFracWrite path value s
  | .mptIncrIntWrite path value => Sys2Proof.Machine.execMptIncrIntWrite path value s
  | .incrementApplied => Sys2Proof.Machine.execIncrementApplied s
  | .mptStepGo path value => Sys2Proof.Machine.execMptStepGo path value s
  | .stepTaken => Sys2Proof.Machine.execStepTaken s
  | .mptNsRead path => Sys2Proof.Machine.execMptNsRead path s
  | .mptTs2TimeRead path => Sys2Proof.Machine.execMptTs2TimeRead path s
  | .mptFwSetWrite path value => Sys2Proof.Machine.execMptFwSetWrite path value s
  | .extTimePublish taiBase utcOffset taiValid late => Sys2Proof.Machine.execExtTimePublish taiBase utcOffset taiValid late s
  | .roadStart road => Sys2Proof.Machine.execRoadStart road s
  | .roadStop road => Sys2Proof.Machine.execRoadStop road s
  | .roadReacquire road => Sys2Proof.Machine.execRoadReacquire road s
  | .roaSrcWrite path value => Sys2Proof.Machine.execRoaSrcWrite path value s
  | .roaPeriodWrite path value => Sys2Proof.Machine.execRoaPeriodWrite path value s
  | .roaPosLapRead path => Sys2Proof.Machine.execRoaPosLapRead path s
  | .observationIngest => Sys2Proof.Machine.execObservationIngest s
  | .roadPublish => Sys2Proof.Machine.execRoadPublish s
  | .clockRoadLap road => Sys2Proof.Machine.execClockRoadLap road s
  | .obsTimeout road => Sys2Proof.Machine.execObsTimeout road s
  | .coastLimitExpiry road => Sys2Proof.Machine.execCoastLimitExpiry road s
  | .roadStateReceive src payload => Sys2Proof.Machine.execRoadStateReceive src payload s
  | .roadStatePeriodic => Sys2Proof.Machine.execRoadStatePeriodic s
  | .roadStateSend => Sys2Proof.Machine.execRoadStateSend s
  | .mstCommit path value => Sys2Proof.Machine.execMstCommit path value s
  | .mstCtrlEnableWrite path value => Sys2Proof.Machine.execMstCtrlEnableWrite path value s
  | .milestoneCompare => Sys2Proof.Machine.execMilestoneCompare s
  | .milestoneFire ans => Sys2Proof.Machine.execMilestoneFire ans s
  | .drainMarkerEnqueue slot => Sys2Proof.Machine.execDrainMarkerEnqueue slot s
  | .mstPlcCurWrite path value => Sys2Proof.Machine.execMstPlcCurWrite path value s
  | .mstSwPulse path value => Sys2Proof.Machine.execMstSwPulse path value s
  | .eventLineDeliver line => Sys2Proof.Machine.execEventLineDeliver line s
  | .mainsSampleSet time raw live => Sys2Proof.Machine.execMainsSampleSet time raw live s
  | .mainsDropout phase => Sys2Proof.Machine.execMainsDropout phase s
  | .modulatorStuck channel => Sys2Proof.Machine.execModulatorStuck channel s
  | .mfeTrkDisable path value => Sys2Proof.Machine.execMfeTrkDisable path value s
  | .quadratureChange channel a b time => Sys2Proof.Machine.execQuadratureChange channel a b time s
  | .shaftIndex channel time => Sys2Proof.Machine.execShaftIndex channel time s
  | .shaftIdleObs channel => Sys2Proof.Machine.execShaftIdleObs channel s
  | .ssiFrameStart channel => Sys2Proof.Machine.execSsiFrameStart channel s
  | .ssiFrameDone channel raw lineOk edgeTime => Sys2Proof.Machine.execSsiFrameDone channel raw lineOk edgeTime s
  | .shfCfgWrite path value => Sys2Proof.Machine.execShfCfgWrite path value s
  | .shfPosLapRead path => Sys2Proof.Machine.execShfPosLapRead path s
  | .jobStart lane ans => Sys2Proof.Machine.execJobStart lane ans s
  | .drainMarkerHead lane => Sys2Proof.Machine.execDrainMarkerHead lane s
  | .messageDeliver district viaJunction => Sys2Proof.Machine.execMessageDeliver district viaJunction s
  | .waitmResume lane => Sys2Proof.Machine.execWaitmResume lane s
  | .sendFrameCopyDone district => Sys2Proof.Machine.execSendFrameCopyDone district s
  | .frameToDistrict district => Sys2Proof.Machine.execFrameToDistrict district s
  | .lncDstFrxWrite path value => Sys2Proof.Machine.execLncDstFrxWrite path value s
  | .frxLayoutApply district => Sys2Proof.Machine.execFrxLayoutApply district s
  | .stepBegin => Sys2Proof.Machine.execStepBegin s
  | .laneReset lane => Sys2Proof.Machine.execLaneReset lane s
  | .laneResetDone lane => Sys2Proof.Machine.execLaneResetDone lane s
  | .districtHalt district => Sys2Proof.Machine.execDistrictHalt district s
  | .districtResume district => Sys2Proof.Machine.execDistrictResume district s
  | .districtReset district => Sys2Proof.Machine.execDistrictReset district s
  | .add lane rd rs rt => Sys2Proof.Machine.execAdd lane rd rs rt s
  | .sub lane rd rs rt => Sys2Proof.Machine.execSub lane rd rs rt s
  | .and lane rd rs rt => Sys2Proof.Machine.execAnd lane rd rs rt s
  | .or lane rd rs rt => Sys2Proof.Machine.execOr lane rd rs rt s
  | .xor lane rd rs rt => Sys2Proof.Machine.execXor lane rd rs rt s
  | .nor lane rd rs rt => Sys2Proof.Machine.execNor lane rd rs rt s
  | .slt lane rd rs rt => Sys2Proof.Machine.execSlt lane rd rs rt s
  | .sltu lane rd rs rt => Sys2Proof.Machine.execSltu lane rd rs rt s
  | .sll lane rd rs rt => Sys2Proof.Machine.execSll lane rd rs rt s
  | .srl lane rd rs rt => Sys2Proof.Machine.execSrl lane rd rs rt s
  | .sra lane rd rs rt => Sys2Proof.Machine.execSra lane rd rs rt s
  | .slli lane rd rs sh => Sys2Proof.Machine.execSlli lane rd rs sh s
  | .srli lane rd rs sh => Sys2Proof.Machine.execSrli lane rd rs sh s
  | .srai lane rd rs sh => Sys2Proof.Machine.execSrai lane rd rs sh s
  | .mul lane rd rs rt => Sys2Proof.Machine.execMul lane rd rs rt s
  | .mulh lane rd rs rt => Sys2Proof.Machine.execMulh lane rd rs rt s
  | .mulhu lane rd rs rt => Sys2Proof.Machine.execMulhu lane rd rs rt s
  | .div lane rd rs rt => Sys2Proof.Machine.execDiv lane rd rs rt s
  | .divu lane rd rs rt => Sys2Proof.Machine.execDivu lane rd rs rt s
  | .rem lane rd rs rt => Sys2Proof.Machine.execRem lane rd rs rt s
  | .remu lane rd rs rt => Sys2Proof.Machine.execRemu lane rd rs rt s
  | .clz lane rd rs => Sys2Proof.Machine.execClz lane rd rs s
  | .min lane rd rs rt => Sys2Proof.Machine.execMin lane rd rs rt s
  | .max lane rd rs rt => Sys2Proof.Machine.execMax lane rd rs rt s
  | .jr lane rs => Sys2Proof.Machine.execJr lane rs s
  | .jalr lane rd rs => Sys2Proof.Machine.execJalr lane rd rs s
  | .addi lane rd rs imm => Sys2Proof.Machine.execAddi lane rd rs imm s
  | .andi lane rd rs imm => Sys2Proof.Machine.execAndi lane rd rs imm s
  | .ori lane rd rs imm => Sys2Proof.Machine.execOri lane rd rs imm s
  | .xori lane rd rs imm => Sys2Proof.Machine.execXori lane rd rs imm s
  | .slti lane rd rs imm => Sys2Proof.Machine.execSlti lane rd rs imm s
  | .sltiu lane rd rs imm => Sys2Proof.Machine.execSltiu lane rd rs imm s
  | .lui lane rd imm => Sys2Proof.Machine.execLui lane rd imm s
  | .lb lane rt rs off ans => Sys2Proof.Machine.execLb lane rt rs off ans s
  | .lbu lane rt rs off ans => Sys2Proof.Machine.execLbu lane rt rs off ans s
  | .lh lane rt rs off ans => Sys2Proof.Machine.execLh lane rt rs off ans s
  | .lhu lane rt rs off ans => Sys2Proof.Machine.execLhu lane rt rs off ans s
  | .lw lane rt rs off ans => Sys2Proof.Machine.execLw lane rt rs off ans s
  | .sb lane rt rs off ans => Sys2Proof.Machine.execSb lane rt rs off ans s
  | .sh lane rt rs off ans => Sys2Proof.Machine.execSh lane rt rs off ans s
  | .sw lane rt rs off ans => Sys2Proof.Machine.execSw lane rt rs off ans s
  | .j lane rs off => Sys2Proof.Machine.execJ lane rs off s
  | .beqz lane rs off => Sys2Proof.Machine.execBeqz lane rs off s
  | .bnez lane rs off => Sys2Proof.Machine.execBnez lane rs off s
  | .bltz lane rs off => Sys2Proof.Machine.execBltz lane rs off s
  | .bgez lane rs off => Sys2Proof.Machine.execBgez lane rs off s
  | .blez lane rs off => Sys2Proof.Machine.execBlez lane rs off s
  | .bgtz lane rs off => Sys2Proof.Machine.execBgtz lane rs off s
  | .vaddH lane vd vs vt => Sys2Proof.Machine.execVaddH lane vd vs vt s
  | .vsubH lane vd vs vt => Sys2Proof.Machine.execVsubH lane vd vs vt s
  | .vmulH lane vd vs vt => Sys2Proof.Machine.execVmulH lane vd vs vt s
  | .vmacH lane vd vs vt => Sys2Proof.Machine.execVmacH lane vd vs vt s
  | .vdotH lane vd vs vt => Sys2Proof.Machine.execVdotH lane vd vs vt s
  | .vshrH lane vd vs gr => Sys2Proof.Machine.execVshrH lane vd vs gr s
  | .vshlH lane vd vs gr => Sys2Proof.Machine.execVshlH lane vd vs gr s
  | .vabsH lane vd vs => Sys2Proof.Machine.execVabsH lane vd vs s
  | .vmaxH lane vd vs vt => Sys2Proof.Machine.execVmaxH lane vd vs vt s
  | .vminH lane vd vs vt => Sys2Proof.Machine.execVminH lane vd vs vt s
  | .vaddW lane vd vs vt => Sys2Proof.Machine.execVaddW lane vd vs vt s
  | .vsubW lane vd vs vt => Sys2Proof.Machine.execVsubW lane vd vs vt s
  | .vnarrowH lane vd vs vt gr => Sys2Proof.Machine.execVnarrowH lane vd vs vt gr s
  | .vfadd lane vd vs vt => Sys2Proof.Machine.execVfadd lane vd vs vt s
  | .vfsub lane vd vs vt => Sys2Proof.Machine.execVfsub lane vd vs vt s
  | .vfmul lane vd vs vt => Sys2Proof.Machine.execVfmul lane vd vs vt s
  | .vfma lane vd vs vt => Sys2Proof.Machine.execVfma lane vd vs vt s
  | .vfms lane vd vs vt => Sys2Proof.Machine.execVfms lane vd vs vt s
  | .vfmin lane vd vs vt => Sys2Proof.Machine.execVfmin lane vd vs vt s
  | .vfmax lane vd vs vt => Sys2Proof.Machine.execVfmax lane vd vs vt s
  | .vfabs lane vd vs => Sys2Proof.Machine.execVfabs lane vd vs s
  | .vfneg lane vd vs => Sys2Proof.Machine.execVfneg lane vd vs s
  | .vfcvtFW lane vd vs => Sys2Proof.Machine.execVfcvtFW lane vd vs s
  | .vfcvtWF lane vd vs => Sys2Proof.Machine.execVfcvtWF lane vd vs s
  | .vfsqrt lane vd vs => Sys2Proof.Machine.execVfsqrt lane vd vs s
  | .vfcmplt lane vd vs vt => Sys2Proof.Machine.execVfcmplt lane vd vs vt s
  | .vcmulH lane vd vs vt => Sys2Proof.Machine.execVcmulH lane vd vs vt s
  | .vcmuljH lane vd vs vt => Sys2Proof.Machine.execVcmuljH lane vd vs vt s
  | .vcmulF lane vd vs vt => Sys2Proof.Machine.execVcmulF lane vd vs vt s
  | .vbf2H lane vd vs vt scale => Sys2Proof.Machine.execVbf2H lane vd vs vt scale s
  | .vbf4H lane vd vs scale => Sys2Proof.Machine.execVbf4H lane vd vs scale s
  | .vbf2F lane vd vs vt => Sys2Proof.Machine.execVbf2F lane vd vs vt s
  | .vbf4F lane vd vs => Sys2Proof.Machine.execVbf4F lane vd vs s
  | .vld lane vd gr imm ans => Sys2Proof.Machine.execVld lane vd gr imm ans s
  | .vst lane vd gr imm ans => Sys2Proof.Machine.execVst lane vd gr imm ans s
  | .vmov lane vd vs => Sys2Proof.Machine.execVmov lane vd vs s
  | .vmovg2v lane vd gr elem => Sys2Proof.Machine.execVmovg2v lane vd gr elem s
  | .vmovv2g lane vs gr elem => Sys2Proof.Machine.execVmovv2g lane vs gr elem s
  | .vextH lane vs gr elem => Sys2Proof.Machine.execVextH lane vs gr elem s
  | .vsplatH lane vd gr => Sys2Proof.Machine.execVsplatH lane vd gr s
  | .vsplatW lane vd gr => Sys2Proof.Machine.execVsplatW lane vd gr s
  | .jend lane => Sys2Proof.Machine.execJend lane s
  | .waitm lane a b ans => Sys2Proof.Machine.execWaitm lane a b ans s
  | .pollm lane a b ans => Sys2Proof.Machine.execPollm lane a b ans s
  | .sendLane lane a b c ans => Sys2Proof.Machine.execSendLane lane a b c ans s
  | .sendDistrict lane a b c ans => Sys2Proof.Machine.execSendDistrict lane a b c ans s
  | .sendPort lane a b c ans => Sys2Proof.Machine.execSendPort lane a b c ans s
  | .sendJournal lane a b c ans => Sys2Proof.Machine.execSendJournal lane a b c ans s
  | .sendRoad lane a b c ans => Sys2Proof.Machine.execSendRoad lane a b c ans s
  | .roadp lane vd b => Sys2Proof.Machine.execRoadp lane vd b s
  | .roadat lane vd b c => Sys2Proof.Machine.execRoadat lane vd b c s
  | .roadwhen lane vd b vc => Sys2Proof.Machine.execRoadwhen lane vd b vc s
  | .obs lane vb => Sys2Proof.Machine.execObs lane vb s
  | .stepqStep lane gd => Sys2Proof.Machine.execStepqStep lane gd s
  | .stepqTime lane gd => Sys2Proof.Machine.execStepqTime lane gd s
  | .atomAdd lane a b c ans => Sys2Proof.Machine.execAtomAdd lane a b c ans s
  | .atomSwap lane a b c ans => Sys2Proof.Machine.execAtomSwap lane a b c ans s
  | .atomCas lane a b c ans => Sys2Proof.Machine.execAtomCas lane a b c ans s
  | .fence lane => Sys2Proof.Machine.execFence lane s
  | .trap lane code => Sys2Proof.Machine.execTrap lane code s
  | .laneq lane gd => Sys2Proof.Machine.execLaneq lane gd s
  | .portReset port => Sys2Proof.Machine.execPortReset port s
  | .vergeGo path value => Sys2Proof.Machine.execVergeGo path value s
  | .vergeAbort path value => Sys2Proof.Machine.execVergeAbort path value s
  | .vergeWindowStart port quiet => Sys2Proof.Machine.execVergeWindowStart port quiet s
  | .vergeSkipped port => Sys2Proof.Machine.execVergeSkipped port s
  | .vergeMeasurementDone port value overrange energy profile => Sys2Proof.Machine.execVergeMeasurementDone port value overrange energy profile s
  | .vergeWindowEnd port ans => Sys2Proof.Machine.execVergeWindowEnd port ans s
  | .surgeClampEvent port peakMa durationNs gapNs start => Sys2Proof.Machine.execSurgeClampEvent port peakMa durationNs gapNs start s
  | .serialCharacterReceive port startHeld bits phase => Sys2Proof.Machine.execSerialCharacterReceive port startHeld bits phase s
  | .serialMessageEnd port why => Sys2Proof.Machine.execSerialMessageEnd port why s
  | .serialTransmit port lineIdle mismatch => Sys2Proof.Machine.execSerialTransmit port lineIdle mismatch s
  | .serialResponseTimeout port => Sys2Proof.Machine.execSerialResponseTimeout port s
  | .t1sBeacon port => Sys2Proof.Machine.execT1sBeacon port s
  | .linkChange port up level isMaster lpiTx lpiRx plca => Sys2Proof.Machine.execLinkChange port up level isMaster lpiTx lpiRx plca s
  | .macReceiveFrame port frame symbolErr phase => Sys2Proof.Machine.execMacReceiveFrame port frame symbolErr phase s
  | .pauseReceive port quanta => Sys2Proof.Machine.execPauseReceive port quanta s
  | .pfcReceive port classes quanta => Sys2Proof.Machine.execPfcReceive port classes quanta s
  | .pauseTimerExpiry port cls link => Sys2Proof.Machine.execPauseTimerExpiry port cls link s
  | .macPauseTxPause path value => Sys2Proof.Machine.execMacPauseTxPause path value s
  | .macPauseTxPfc path value => Sys2Proof.Machine.execMacPauseTxPfc path value s
  | .pauseFrameSend port => Sys2Proof.Machine.execPauseFrameSend port s
  | .preemptVerify port => Sys2Proof.Machine.execPreemptVerify port s
  | .fragmentReceive port bytes first last smdOk countOk mcrcOk => Sys2Proof.Machine.execFragmentReceive port bytes first last smdOk countOk mcrcOk s
  | .macTransmitFrame port phase collisions ans => Sys2Proof.Machine.execMacTransmitFrame port phase collisions ans s
  | .trunkLinkChange trunk blockLock hiBer localFault remoteFault => Sys2Proof.Machine.execTrunkLinkChange trunk blockLock hiBer localFault remoteFault s
  | .junctionLookup port cutThrough => Sys2Proof.Machine.execJunctionLookup port cutThrough s
  | .internalFrame src egress cls frame => Sys2Proof.Machine.execInternalFrame src egress cls frame s
  | .frameLastByte port good length => Sys2Proof.Machine.execFrameLastByte port good length s
  | .jctTblRead path value => Sys2Proof.Machine.execJctTblRead path value s
  | .jctTblWrite path value => Sys2Proof.Machine.execJctTblWrite path value s
  | .jctTblInsert path value => Sys2Proof.Machine.execJctTblInsert path value s
  | .jctTblDelete path value => Sys2Proof.Machine.execJctTblDelete path value s
  | .macEntryAgeing index => Sys2Proof.Machine.execMacEntryAgeing index s
  | .ageSweep => Sys2Proof.Machine.execAgeSweep s
  | .residueExpiry frame => Sys2Proof.Machine.execResidueExpiry frame s
  | .auditVisit free held busy => Sys2Proof.Machine.execAuditVisit free held busy s
  | .turnpikeSelect port => Sys2Proof.Machine.execTurnpikeSelect port s
  | .shaperAccrual => Sys2Proof.Machine.execShaperAccrual s
  | .tollAccrual => Sys2Proof.Machine.execTollAccrual s
  | .gateEntryStart port ans => Sys2Proof.Machine.execGateEntryStart port ans s
  | .gateStepDeferred port ans => Sys2Proof.Machine.execGateStepDeferred port ans s
  | .vergeAutostep port ans => Sys2Proof.Machine.execVergeAutostep port ans s
  | .tpkGclCommitGo path value => Sys2Proof.Machine.execTpkGclCommitGo path value s
  | .tpkGclCommitCancel path value => Sys2Proof.Machine.execTpkGclCommitCancel path value s
  | .gateSwitchOver port ans => Sys2Proof.Machine.execGateSwitchOver port ans s
  | .tpkMapRead path value => Sys2Proof.Machine.execTpkMapRead path value s
  | .tpkMapWrite path value => Sys2Proof.Machine.execTpkMapWrite path value s
  | .recoveryResetTimeout stream => Sys2Proof.Machine.execRecoveryResetTimeout stream s
  | .latentPeriodEnd stream => Sys2Proof.Machine.execLatentPeriodEnd stream s
  | .checkTriggerVerdict context ans => Sys2Proof.Machine.execCheckTriggerVerdict context ans s
  | .qmgDoorbell queue ans => Sys2Proof.Machine.execQmgDoorbell queue ans s
  | .queueEnable path value ans => Sys2Proof.Machine.execQueueEnable path value ans s
  | .queueShutdown queue ans => Sys2Proof.Machine.execQueueShutdown queue ans s
  | .qmgInvalGo path value => Sys2Proof.Machine.execQmgInvalGo path value s
  | .transmitEntry queue ans => Sys2Proof.Machine.execTransmitEntry queue ans s
  | .receiveFrameWrite cls ans => Sys2Proof.Machine.execReceiveFrameWrite cls ans s
  | .laneJobEntry queue ans => Sys2Proof.Machine.execLaneJobEntry queue ans s
  | .hostWorkEntry queue ans => Sys2Proof.Machine.execHostWorkEntry queue ans s
  | .cringPoll queue ans => Sys2Proof.Machine.execCringPoll queue ans s
  | .dmaStart channel => Sys2Proof.Machine.execDmaStart channel s
  | .dmaArm channel => Sys2Proof.Machine.execDmaArm channel s
  | .dmaDisarm channel => Sys2Proof.Machine.execDmaDisarm channel s
  | .dmaComplete channel => Sys2Proof.Machine.execDmaComplete channel s
  | .dmaMemFault channel done => Sys2Proof.Machine.execDmaMemFault channel done s
  | .fltGForceWrite path value => Sys2Proof.Machine.execFltGForceWrite path value s
  | .reactionServe ans => Sys2Proof.Machine.execReactionServe ans s
  | .fltSafeRelease path value => Sys2Proof.Machine.execFltSafeRelease path value s
  | .fltIsoClear path index value => Sys2Proof.Machine.execFltIsoClear path index value s
  | .eventBudgetTick => Sys2Proof.Machine.execEventBudgetTick s
  | .journalRecordWrite ans => Sys2Proof.Machine.execJournalRecordWrite ans s
  | .alarmSummaryWrite ans => Sys2Proof.Machine.execAlarmSummaryWrite ans s
  | .journalCreditStep => Sys2Proof.Machine.execJournalCreditStep s
  | .journalDrainFrameEnd drain => Sys2Proof.Machine.execJournalDrainFrameEnd drain s
  | .journalAckFrame => Sys2Proof.Machine.execJournalAckFrame s
  | .jnlAlmAckWrite path value => Sys2Proof.Machine.execJnlAlmAckWrite path value s
  | .twinHelloTimer => Sys2Proof.Machine.execTwinHelloTimer s
  | .twinHelloReceive rank epoch state identity => Sys2Proof.Machine.execTwinHelloReceive rank epoch state identity s
  | .soloWaitExpiry => Sys2Proof.Machine.execSoloWaitExpiry s
  | .heartbeatTimer => Sys2Proof.Machine.execHeartbeatTimer s
  | .heartbeatReceive backup rank epoch state claim lastStep => Sys2Proof.Machine.execHeartbeatReceive backup rank epoch state claim lastStep s
  | .heartbeatLoss backup => Sys2Proof.Machine.execHeartbeatLoss backup s
  | .boundaryMarkerEmit => Sys2Proof.Machine.execBoundaryMarkerEmit s
  | .twinInputReceive kind rank step seq body => Sys2Proof.Machine.execTwinInputReceive kind rank step seq body s
  | .closeSend => Sys2Proof.Machine.execCloseSend s
  | .resendRequest first count => Sys2Proof.Machine.execResendRequest first count s
  | .claimEcho payload => Sys2Proof.Machine.execClaimEcho payload s
  | .outputStageEchoTimer => Sys2Proof.Machine.execOutputStageEchoTimer s
  | .twnCtrlRejoin path value => Sys2Proof.Machine.execTwnCtrlRejoin path value s
  | .rejoinAuto => Sys2Proof.Machine.execRejoinAuto s
  | .hieStatusTimer => Sys2Proof.Machine.execHieStatusTimer s
  | .hieStatusReceive trunk src payload => Sys2Proof.Machine.execHieStatusReceive trunk src payload s
  | .hieStatusLoss worker => Sys2Proof.Machine.execHieStatusLoss worker s
  | .relay trunk src onHierarchy hostSession payload ans => Sys2Proof.Machine.execRelay trunk src onHierarchy hostSession payload ans s
  | .relayTimeout tag => Sys2Proof.Machine.execRelayTimeout tag s
  | .imageOffer worker => Sys2Proof.Machine.execImageOffer worker s
  | .waypostReceive => Sys2Proof.Machine.execWaypostReceive s
  | .sessionOpen => Sys2Proof.Machine.execSessionOpen s
  | .associationMessage => Sys2Proof.Machine.execAssociationMessage s
  | .regRd session => Sys2Proof.Machine.execRegRd session s
  | .regWr session => Sys2Proof.Machine.execRegWr session s
  | .memRd session ans => Sys2Proof.Machine.execMemRd session ans s
  | .memWr session ans unitsDone => Sys2Proof.Machine.execMemWr session ans unitsDone s
  | .doorbell session ans => Sys2Proof.Machine.execDoorbell session ans s
  | .imgChunk session => Sys2Proof.Machine.execImgChunk session s
  | .imgCommit session => Sys2Proof.Machine.execImgCommit session s
  | .imageTransferTimeout => Sys2Proof.Machine.execImageTransferTimeout s
  | .readIn session => Sys2Proof.Machine.execReadIn session s
  | .writeOut session => Sys2Proof.Machine.execWriteOut session s
  | .readOut session => Sys2Proof.Machine.execReadOut session s
  | .lm64Timeout session => Sys2Proof.Machine.execLm64Timeout session s
  | .lm64LateAnswer => Sys2Proof.Machine.execLm64LateAnswer s
  | .imageVerifyDone ans => Sys2Proof.Machine.execImageVerifyDone ans s
  | .imageApply ans => Sys2Proof.Machine.execImageApply ans s
  | .flashWriteDone ok => Sys2Proof.Machine.execFlashWriteDone ok s
  | .imgCtrlAbort path value => Sys2Proof.Machine.execImgCtrlAbort path value s
  | .imgCtrlPreferGo path value => Sys2Proof.Machine.execImgCtrlPreferGo path value s
  | .imgCtrlConfirm path value => Sys2Proof.Machine.execImgCtrlConfirm path value s
  | .imgRevokeWrite path value within1ms => Sys2Proof.Machine.execImgRevokeWrite path value within1ms s
  | .powerOnReset straps => Sys2Proof.Machine.execPowerOnReset straps s
  | .systemReset lowNs straps => Sys2Proof.Machine.execSystemReset lowNs straps s
  | .brownOutReset straps => Sys2Proof.Machine.execBrownOutReset straps s
  | .softwareReset path value straps => Sys2Proof.Machine.execSoftwareReset path value straps s
  | .thermalTrip logic fd0 fd1 straps => Sys2Proof.Machine.execThermalTrip logic fd0 fd1 straps s
  | .boot otpOk fitA fitB ansA ansB => Sys2Proof.Machine.execBoot otpOk fitA fitB ansA ansB s
  | .functionReset path value => Sys2Proof.Machine.execFunctionReset path value s
  | .functionResetComplete func ans => Sys2Proof.Machine.execFunctionResetComplete func ans s
  | .watchdogKick path value within1ms => Sys2Proof.Machine.execWatchdogKick path value within1ms s
  | .watchdogStage1 => Sys2Proof.Machine.execWatchdogStage1 s
  | .watchdogReset straps => Sys2Proof.Machine.execWatchdogReset straps s
  | .monitorReading logic fd0 fd1 millivolts => Sys2Proof.Machine.execMonitorReading logic fd0 fd1 millivolts s
  | .xoLoss => Sys2Proof.Machine.execXoLoss s
  | .dieLinkDown die lossOfLock => Sys2Proof.Machine.execDieLinkDown die lossOfLock s
  | .dieLinkRetrain die up => Sys2Proof.Machine.execDieLinkRetrain die up s
  | .illegalInstruction lane => Sys2Proof.Machine.execIllegalInstruction lane s
  | .instructionFetchFault lane => Sys2Proof.Machine.execInstructionFetchFault lane s
  | .verifyResponseReceive port => Sys2Proof.Machine.execVerifyResponseReceive port s
  | .jtagOtpProgram field data => Sys2Proof.Machine.execJtagOtpProgram field data s
  | .supplySequenceError => Sys2Proof.Machine.execSupplySequenceError s
  | .fecUncorrectableBlock trunk => Sys2Proof.Machine.execFecUncorrectableBlock trunk s
  | .dieLinkRetryBurst die retriesInMs => Sys2Proof.Machine.execDieLinkRetryBurst die retriesInMs s
  | .memoryScrubPass channel correctedCount uncorrectableCount => Sys2Proof.Machine.execMemoryScrubPass channel correctedCount uncorrectableCount s
  | .rejoinCopyDone => Sys2Proof.Machine.execRejoinCopyDone s
  | .arpIcmpRequest trunk frame => Sys2Proof.Machine.execArpIcmpRequest trunk frame s

end Sys2Proof.Machine
end

