-- ==== Sys2Proof/WellFormed.lean ====
section
/-! DEFINITION. Well-formed commands: operands that come from outside have the shape that the block's inputs give them. -/

set_option Elab.async false

namespace Sys2Proof

/-- What a DDR4 channel can show at boot (R440): a source 0-2 and a rank size of 4, 8 or 16 GB. -/
def ddrFitOk (f : DdrFit) : Bool := decide (f.source.toNat ≤ 2 ∧ f.rankSize.toNat ≤ 2)

/-- A command is well formed: eight mains channels in a sample set (R90), eight pause times (R196), six rails (R452), a
profile of at most 2,048 entries, frames of at most 16,384 bytes, Waypost payloads of at most 1,400 (R395), twin states
0-6 (R354), a claim echo of 16 bytes (R365), and names of functions and OTP fields that exist (R443, R444). Every other
operand is well formed by its type. -/
def Instr.wf (i : Instr) : Bool :=
  match i with
  | .registerWrite .. | .milepostTick | .mptIncrFracWrite .. | .mptIncrIntWrite .. | .incrementApplied
  | .mptStepGo .. | .stepTaken | .mptNsRead .. | .mptTs2TimeRead .. | .mptFwSetWrite .. | .extTimePublish ..
  | .roadStart .. | .roadStop .. | .roadReacquire .. | .roaSrcWrite .. | .roaPeriodWrite .. | .roaPosLapRead ..
  | .observationIngest | .roadPublish | .clockRoadLap .. | .obsTimeout .. | .coastLimitExpiry ..
  | .roadStatePeriodic | .roadStateSend | .mstCommit .. | .mstCtrlEnableWrite .. | .milestoneCompare
  | .milestoneFire .. | .drainMarkerEnqueue .. | .mstPlcCurWrite .. | .mstSwPulse .. | .eventLineDeliver ..
  | .mainsDropout .. | .modulatorStuck .. | .mfeTrkDisable .. | .quadratureChange .. | .shaftIndex ..
  | .shaftIdleObs .. | .ssiFrameStart .. | .ssiFrameDone .. | .shfCfgWrite .. | .shfPosLapRead .. | .jobStart ..
  | .drainMarkerHead .. | .messageDeliver .. | .waitmResume .. | .sendFrameCopyDone .. | .frameToDistrict ..
  | .lncDstFrxWrite .. | .frxLayoutApply .. | .stepBegin | .laneReset .. | .laneResetDone .. | .districtHalt ..
  | .districtResume .. | .districtReset .. | .add .. | .sub .. | .and .. | .or .. | .xor .. | .nor .. | .slt ..
  | .sltu .. | .sll .. | .srl .. | .sra .. | .slli .. | .srli .. | .srai .. | .mul .. | .mulh .. | .mulhu ..
  | .div .. | .divu .. | .rem .. | .remu .. | .clz .. | .min .. | .max .. | .jr .. | .jalr .. | .addi .. | .andi ..
  | .ori .. | .xori .. | .slti .. | .sltiu .. | .lui .. | .lb .. | .lbu .. | .lh .. | .lhu .. | .lw .. | .sb ..
  | .sh .. | .sw .. | .j .. | .beqz .. | .bnez .. | .bltz .. | .bgez .. | .blez .. | .bgtz .. | .vaddH ..
  | .vsubH .. | .vmulH .. | .vmacH .. | .vdotH .. | .vshrH .. | .vshlH .. | .vabsH .. | .vmaxH .. | .vminH ..
  | .vaddW .. | .vsubW .. | .vnarrowH .. | .vfadd .. | .vfsub .. | .vfmul .. | .vfma .. | .vfms .. | .vfmin ..
  | .vfmax .. | .vfabs .. | .vfneg .. | .vfcvtFW .. | .vfcvtWF .. | .vfsqrt .. | .vfcmplt .. | .vcmulH ..
  | .vcmuljH .. | .vcmulF .. | .vbf2H .. | .vbf4H .. | .vbf2F .. | .vbf4F .. | .vld .. | .vst .. | .vmov ..
  | .vmovg2v .. | .vmovv2g .. | .vextH .. | .vsplatH .. | .vsplatW .. | .jend .. | .waitm .. | .pollm ..
  | .sendLane .. | .sendDistrict .. | .sendPort .. | .sendJournal .. | .sendRoad .. | .roadp .. | .roadat ..
  | .roadwhen .. | .obs .. | .stepqStep .. | .stepqTime .. | .atomAdd .. | .atomSwap .. | .atomCas .. | .fence ..
  | .trap .. | .laneq .. | .portReset .. | .vergeGo .. | .vergeAbort .. | .vergeWindowStart .. | .vergeSkipped ..
  | .vergeWindowEnd .. | .surgeClampEvent .. | .serialCharacterReceive .. | .serialMessageEnd ..
  | .serialTransmit .. | .serialResponseTimeout .. | .t1sBeacon .. | .linkChange .. | .pauseReceive ..
  | .pauseTimerExpiry .. | .macPauseTxPause .. | .macPauseTxPfc .. | .pauseFrameSend .. | .preemptVerify ..
  | .macTransmitFrame .. | .trunkLinkChange .. | .junctionLookup .. | .frameLastByte .. | .jctTblRead ..
  | .jctTblWrite .. | .jctTblInsert .. | .jctTblDelete .. | .macEntryAgeing .. | .ageSweep | .residueExpiry ..
  | .auditVisit .. | .turnpikeSelect .. | .shaperAccrual | .tollAccrual | .gateEntryStart .. | .gateStepDeferred ..
  | .vergeAutostep .. | .tpkGclCommitGo .. | .tpkGclCommitCancel .. | .gateSwitchOver .. | .tpkMapRead ..
  | .tpkMapWrite .. | .recoveryResetTimeout .. | .latentPeriodEnd .. | .checkTriggerVerdict .. | .qmgDoorbell ..
  | .queueEnable .. | .queueShutdown .. | .qmgInvalGo .. | .transmitEntry .. | .receiveFrameWrite ..
  | .laneJobEntry .. | .hostWorkEntry .. | .cringPoll .. | .dmaStart .. | .dmaArm .. | .dmaDisarm ..
  | .dmaComplete .. | .dmaMemFault .. | .fltGForceWrite .. | .reactionServe .. | .fltSafeRelease ..
  | .fltIsoClear .. | .eventBudgetTick | .journalRecordWrite .. | .alarmSummaryWrite .. | .journalCreditStep
  | .journalDrainFrameEnd .. | .journalAckFrame | .jnlAlmAckWrite .. | .twinHelloTimer | .soloWaitExpiry
  | .heartbeatTimer | .heartbeatLoss .. | .boundaryMarkerEmit | .closeSend | .resendRequest ..
  | .outputStageEchoTimer | .twnCtrlRejoin .. | .rejoinAuto | .hieStatusTimer | .hieStatusLoss ..
  | .relayTimeout .. | .imageOffer .. | .waypostReceive | .sessionOpen | .associationMessage | .regRd ..
  | .regWr .. | .memRd .. | .memWr .. | .doorbell .. | .imgChunk .. | .imgCommit .. | .imageTransferTimeout
  | .readIn .. | .writeOut .. | .readOut .. | .lm64Timeout .. | .lm64LateAnswer | .imageVerifyDone ..
  | .imageApply .. | .flashWriteDone .. | .imgCtrlAbort .. | .imgCtrlPreferGo .. | .imgCtrlConfirm ..
  | .imgRevokeWrite .. | .powerOnReset .. | .systemReset .. | .brownOutReset .. | .softwareReset ..
  | .thermalTrip .. | .functionReset .. | .watchdogKick .. | .watchdogStage1 | .watchdogReset .. | .xoLoss
  | .dieLinkDown .. | .dieLinkRetrain .. | .illegalInstruction .. | .instructionFetchFault ..
  | .verifyResponseReceive .. | .supplySequenceError | .fecUncorrectableBlock .. | .dieLinkRetryBurst ..
  | .memoryScrubPass .. | .rejoinCopyDone => true
  | .roadStateReceive _ p => decide (p.length ≤ 1400)
  | .mainsSampleSet _ raw _ => decide (raw.length = 8)
  | .vergeMeasurementDone _ _ _ _ profile => decide (profile.length ≤ 2048)
  | .macReceiveFrame _ f _ _ => decide (f.length ≤ 16384)
  | .pfcReceive _ _ quanta => decide (quanta.length = 8)
  | .fragmentReceive _ b _ _ _ _ _ => decide (b.bytes.length ≤ 16384)
  | .internalFrame _ _ _ f => decide (f.bytes.length ≤ 16384)
  | .twinHelloReceive _ _ st _ => decide (st.toNat ≤ 6)
  | .heartbeatReceive _ _ _ st _ _ => decide (st.toNat ≤ 6)
  | .twinInputReceive _ _ _ _ b => decide (b.length < 65536)
  | .claimEcho p => decide (p.length = 16)
  | .hieStatusReceive _ _ p => decide (p.length ≤ 1400)
  | .relay _ _ _ _ p _ => decide (p.length ≤ 1400)
  | .boot _ a b _ _ => ddrFitOk a && ddrFitOk b
  | .functionResetComplete f _ => decide (f.toNat < 215)
  | .monitorReading _ _ _ mv => decide (mv.length = 11)
  | .jtagOtpProgram f _ => decide (f.toNat ≤ 8)
  | .arpIcmpRequest _ f => decide (f.length ≤ 16384)

end Sys2Proof
end

