-- ==== Sys2Proof/Safety.lean ====
section
/-! DEFINITION. The terms in which the claims are stated: canonical forms of the state, the words of the lanes'
instructions, and a safe run. -/

set_option Elab.async false

namespace Sys2Proof.Machine

open Sys2Proof

/-! ### Canonical forms -/

/-- Memory is in its canonical form: addresses strictly rising, no entry equal to what an unlisted byte reads as. -/
abbrev Memory.wf (m : List Host.Cell) : Bool := sparseWf (fun _ => (0 : Byte)) m

/-- The register store is in its canonical form: keys strictly rising, no entry at its Reset column value. -/
abbrev Registers.wf (r : Sparse Word) : Bool := sparseWf regReset r

/-- Memory and registers are in their canonical forms, so that equal contents are equal data. -/
def State.wf (s : State) : Bool := Memory.wf s.mem && Registers.wf s.regs

/-- A run is safe: every waiting command is well formed and the contents are in canonical form. -/
def State.safe (s : State) : Bool := s.wf && s.pending.all fun c => c.wf

/-! ### The lanes' instruction words (R140, R144-R167) -/

/-- Lane and word of a command that is a lane's instruction, by the encoding tables of the lane instruction set. -/
def laneWord (i : Instr) : Option (Lane × Word) :=
  match i with
  | .add l rd rs rt => some (l, encA 0x00 rd rs rt 0)
  | .sub l rd rs rt => some (l, encA 0x01 rd rs rt 0)
  | .and l rd rs rt => some (l, encA 0x02 rd rs rt 0)
  | .or l rd rs rt => some (l, encA 0x03 rd rs rt 0)
  | .xor l rd rs rt => some (l, encA 0x04 rd rs rt 0)
  | .nor l rd rs rt => some (l, encA 0x05 rd rs rt 0)
  | .slt l rd rs rt => some (l, encA 0x06 rd rs rt 0)
  | .sltu l rd rs rt => some (l, encA 0x07 rd rs rt 0)
  | .sll l rd rs rt => some (l, encA 0x08 rd rs rt 0)
  | .srl l rd rs rt => some (l, encA 0x09 rd rs rt 0)
  | .sra l rd rs rt => some (l, encA 0x0A rd rs rt 0)
  | .mul l rd rs rt => some (l, encA 0x10 rd rs rt 0)
  | .mulh l rd rs rt => some (l, encA 0x11 rd rs rt 0)
  | .mulhu l rd rs rt => some (l, encA 0x12 rd rs rt 0)
  | .div l rd rs rt => some (l, encA 0x13 rd rs rt 0)
  | .divu l rd rs rt => some (l, encA 0x14 rd rs rt 0)
  | .rem l rd rs rt => some (l, encA 0x15 rd rs rt 0)
  | .remu l rd rs rt => some (l, encA 0x16 rd rs rt 0)
  | .min l rd rs rt => some (l, encA 0x19 rd rs rt 0)
  | .max l rd rs rt => some (l, encA 0x1A rd rs rt 0)
  | .slli l rd rs sh => some (l, encA 0x0B rd rs 0 sh.toNat)
  | .srli l rd rs sh => some (l, encA 0x0C rd rs 0 sh.toNat)
  | .srai l rd rs sh => some (l, encA 0x0D rd rs 0 sh.toNat)
  | .clz l rd rs => some (l, encA 0x18 rd rs 0 0)
  | .jr l rs => some (l, encA 0x20 0 rs 0 0)
  | .jalr l rd rs => some (l, encA 0x21 rd rs 0 0)
  | .addi l rd rs imm => some (l, encI 0x01 rd rs imm.toNat)
  | .andi l rd rs imm => some (l, encI 0x02 rd rs imm.toNat)
  | .ori l rd rs imm => some (l, encI 0x03 rd rs imm.toNat)
  | .xori l rd rs imm => some (l, encI 0x04 rd rs imm.toNat)
  | .slti l rd rs imm => some (l, encI 0x05 rd rs imm.toNat)
  | .sltiu l rd rs imm => some (l, encI 0x06 rd rs imm.toNat)
  | .lui l rd imm => some (l, encI 0x07 rd 0 imm.toNat)
  | .lb l rt rs off _ => some (l, encI 0x08 rt rs off.toNat)
  | .lbu l rt rs off _ => some (l, encI 0x09 rt rs off.toNat)
  | .lh l rt rs off _ => some (l, encI 0x0A rt rs off.toNat)
  | .lhu l rt rs off _ => some (l, encI 0x0B rt rs off.toNat)
  | .lw l rt rs off _ => some (l, encI 0x0C rt rs off.toNat)
  | .sb l rt rs off _ => some (l, encI 0x0D rt rs off.toNat)
  | .sh l rt rs off _ => some (l, encI 0x0E rt rs off.toNat)
  | .sw l rt rs off _ => some (l, encI 0x0F rt rs off.toNat)
  | .j l rs off => some (l, encB 0x10 rs off.toNat)
  | .beqz l rs off => some (l, encB 0x11 rs off.toNat)
  | .bnez l rs off => some (l, encB 0x12 rs off.toNat)
  | .bltz l rs off => some (l, encB 0x13 rs off.toNat)
  | .bgez l rs off => some (l, encB 0x14 rs off.toNat)
  | .blez l rs off => some (l, encB 0x15 rs off.toNat)
  | .bgtz l rs off => some (l, encB 0x16 rs off.toNat)
  | .vaddH l vd vs vt => some (l, encV 0x20 0x00 vd vs vt 0 0)
  | .vsubH l vd vs vt => some (l, encV 0x20 0x01 vd vs vt 0 0)
  | .vmulH l vd vs vt => some (l, encV 0x20 0x02 vd vs vt 0 0)
  | .vmacH l vd vs vt => some (l, encV 0x20 0x03 vd vs vt 0 0)
  | .vdotH l vd vs vt => some (l, encV 0x20 0x04 vd vs vt 0 0)
  | .vmaxH l vd vs vt => some (l, encV 0x20 0x08 vd vs vt 0 0)
  | .vminH l vd vs vt => some (l, encV 0x20 0x09 vd vs vt 0 0)
  | .vaddW l vd vs vt => some (l, encV 0x20 0x0A vd vs vt 0 0)
  | .vsubW l vd vs vt => some (l, encV 0x20 0x0B vd vs vt 0 0)
  | .vfadd l vd vs vt => some (l, encV 0x21 0x00 vd vs vt 0 0)
  | .vfsub l vd vs vt => some (l, encV 0x21 0x01 vd vs vt 0 0)
  | .vfmul l vd vs vt => some (l, encV 0x21 0x02 vd vs vt 0 0)
  | .vfma l vd vs vt => some (l, encV 0x21 0x03 vd vs vt 0 0)
  | .vfms l vd vs vt => some (l, encV 0x21 0x04 vd vs vt 0 0)
  | .vfmin l vd vs vt => some (l, encV 0x21 0x05 vd vs vt 0 0)
  | .vfmax l vd vs vt => some (l, encV 0x21 0x06 vd vs vt 0 0)
  | .vfcmplt l vd vs vt => some (l, encV 0x21 0x0C vd vs vt 0 0)
  | .vcmulH l vd vs vt => some (l, encV 0x23 0x00 vd vs vt 0 0)
  | .vcmuljH l vd vs vt => some (l, encV 0x23 0x01 vd vs vt 0 0)
  | .vcmulF l vd vs vt => some (l, encV 0x23 0x02 vd vs vt 0 0)
  | .vbf2F l vd vs vt => some (l, encV 0x23 0x05 vd vs vt 0 0)
  | .vabsH l vd vs => some (l, encV 0x20 0x07 vd vs 0 0 0)
  | .vfabs l vd vs => some (l, encV 0x21 0x07 vd vs 0 0 0)
  | .vfneg l vd vs => some (l, encV 0x21 0x08 vd vs 0 0 0)
  | .vfcvtFW l vd vs => some (l, encV 0x21 0x09 vd vs 0 0 0)
  | .vfcvtWF l vd vs => some (l, encV 0x21 0x0A vd vs 0 0 0)
  | .vfsqrt l vd vs => some (l, encV 0x21 0x0B vd vs 0 0 0)
  | .vbf4F l vd vs => some (l, encV 0x23 0x06 vd vs 0 0 0)
  | .vmov l vd vs => some (l, encV 0x22 0x02 vd vs 0 0 0)
  | .vshrH l vd vs gr => some (l, encV 0x20 0x05 vd vs 0 gr 0)
  | .vshlH l vd vs gr => some (l, encV 0x20 0x06 vd vs 0 gr 0)
  | .vnarrowH l vd vs vt gr => some (l, encV 0x20 0x0C vd vs vt gr 0)
  | .vbf2H l vd vs vt k => some (l, encV 0x23 0x03 vd vs vt 0 k.toNat)
  | .vbf4H l vd vs k => some (l, encV 0x23 0x04 vd vs 0 0 k.toNat)
  | .vld l vd gr k _ => some (l, encV 0x22 0x00 vd 0 0 gr k.toNat)
  | .vst l vd gr k _ => some (l, encV 0x22 0x01 vd 0 0 gr k.toNat)
  | .vmovg2v l vd gr k => some (l, encV 0x22 0x03 vd 0 0 gr k.toNat)
  | .vmovv2g l vs gr k => some (l, encV 0x22 0x04 0 vs 0 gr k.toNat)
  | .vextH l vs gr k => some (l, encV 0x22 0x05 0 vs 0 gr k.toNat)
  | .vsplatH l vd gr => some (l, encV 0x22 0x06 vd 0 0 gr 0)
  | .vsplatW l vd gr => some (l, encV 0x22 0x07 vd 0 0 gr 0)
  | .jend l => some (l, encS 0x00 0 0 0 0)
  | .waitm l a b _ => some (l, encS 0x01 a b 0 0)
  | .pollm l a b _ => some (l, encS 0x02 a b 0 0)
  | .sendLane l a b c _ => some (l, encS 0x03 a b c 0)
  | .sendDistrict l a b c _ => some (l, encS 0x03 a b c 1)
  | .sendPort l a b c _ => some (l, encS 0x03 a b c 2)
  | .sendJournal l a b c _ => some (l, encS 0x03 a b c 3)
  | .sendRoad l a b c _ => some (l, encS 0x03 a b c 4)
  | .roadp l vd b => some (l, encS 0x04 vd b 0 0)
  | .roadat l vd b c => some (l, encS 0x05 vd b c 0)
  | .roadwhen l vd b vc => some (l, encS 0x06 vd b vc 0)
  | .obs l vb => some (l, encS 0x07 0 vb 0 0)
  | .stepqStep l gd => some (l, encS 0x08 gd 0 0 0)
  | .stepqTime l gd => some (l, encS 0x08 gd 0 0 1)
  | .atomAdd l a b c _ => some (l, encS 0x09 a b c 0)
  | .atomSwap l a b c _ => some (l, encS 0x09 a b c 1)
  | .atomCas l a b c _ => some (l, encS 0x09 a b c 2)
  | .fence l => some (l, encS 0x0A 0 0 0 0)
  | .trap l code => some (l, encCode 0x0B code.toNat)
  | .laneq l gd => some (l, encS 0x0C gd 0 0 0)
  | .registerWrite .. | .milepostTick | .mptIncrFracWrite .. | .mptIncrIntWrite .. | .incrementApplied
  | .mptStepGo .. | .stepTaken | .mptNsRead .. | .mptTs2TimeRead .. | .mptFwSetWrite .. | .extTimePublish ..
  | .roadStart .. | .roadStop .. | .roadReacquire .. | .roaSrcWrite .. | .roaPeriodWrite .. | .roaPosLapRead ..
  | .observationIngest | .roadPublish | .clockRoadLap .. | .obsTimeout .. | .coastLimitExpiry ..
  | .roadStateReceive .. | .roadStatePeriodic | .roadStateSend | .mstCommit .. | .mstCtrlEnableWrite ..
  | .milestoneCompare | .milestoneFire .. | .drainMarkerEnqueue .. | .mstPlcCurWrite .. | .mstSwPulse ..
  | .eventLineDeliver .. | .mainsSampleSet .. | .mainsDropout .. | .modulatorStuck .. | .mfeTrkDisable ..
  | .quadratureChange .. | .shaftIndex .. | .shaftIdleObs .. | .ssiFrameStart .. | .ssiFrameDone ..
  | .shfCfgWrite .. | .shfPosLapRead .. | .jobStart .. | .drainMarkerHead .. | .messageDeliver .. | .waitmResume ..
  | .sendFrameCopyDone .. | .frameToDistrict .. | .lncDstFrxWrite .. | .frxLayoutApply .. | .stepBegin
  | .laneReset .. | .laneResetDone .. | .districtHalt .. | .districtResume .. | .districtReset .. | .portReset ..
  | .vergeGo .. | .vergeAbort .. | .vergeWindowStart .. | .vergeSkipped .. | .vergeMeasurementDone ..
  | .vergeWindowEnd .. | .surgeClampEvent .. | .serialCharacterReceive .. | .serialMessageEnd ..
  | .serialTransmit .. | .serialResponseTimeout .. | .t1sBeacon .. | .linkChange .. | .macReceiveFrame ..
  | .pauseReceive .. | .pfcReceive .. | .pauseTimerExpiry .. | .macPauseTxPause .. | .macPauseTxPfc ..
  | .pauseFrameSend .. | .preemptVerify .. | .fragmentReceive .. | .macTransmitFrame .. | .trunkLinkChange ..
  | .junctionLookup .. | .internalFrame .. | .frameLastByte .. | .jctTblRead .. | .jctTblWrite ..
  | .jctTblInsert .. | .jctTblDelete .. | .macEntryAgeing .. | .ageSweep | .residueExpiry .. | .auditVisit ..
  | .turnpikeSelect .. | .shaperAccrual | .tollAccrual | .gateEntryStart .. | .gateStepDeferred ..
  | .vergeAutostep .. | .tpkGclCommitGo .. | .tpkGclCommitCancel .. | .gateSwitchOver .. | .tpkMapRead ..
  | .tpkMapWrite .. | .recoveryResetTimeout .. | .latentPeriodEnd .. | .checkTriggerVerdict .. | .qmgDoorbell ..
  | .queueEnable .. | .queueShutdown .. | .qmgInvalGo .. | .transmitEntry .. | .receiveFrameWrite ..
  | .laneJobEntry .. | .hostWorkEntry .. | .cringPoll .. | .dmaStart .. | .dmaArm .. | .dmaDisarm ..
  | .dmaComplete .. | .dmaMemFault .. | .fltGForceWrite .. | .reactionServe .. | .fltSafeRelease ..
  | .fltIsoClear .. | .eventBudgetTick | .journalRecordWrite .. | .alarmSummaryWrite .. | .journalCreditStep
  | .journalDrainFrameEnd .. | .journalAckFrame | .jnlAlmAckWrite .. | .twinHelloTimer | .twinHelloReceive ..
  | .soloWaitExpiry | .heartbeatTimer | .heartbeatReceive .. | .heartbeatLoss .. | .boundaryMarkerEmit
  | .twinInputReceive .. | .closeSend | .resendRequest .. | .claimEcho .. | .outputStageEchoTimer
  | .twnCtrlRejoin .. | .rejoinAuto | .hieStatusTimer | .hieStatusReceive .. | .hieStatusLoss .. | .relay ..
  | .relayTimeout .. | .imageOffer .. | .waypostReceive | .sessionOpen | .associationMessage | .regRd ..
  | .regWr .. | .memRd .. | .memWr .. | .doorbell .. | .imgChunk .. | .imgCommit .. | .imageTransferTimeout
  | .readIn .. | .writeOut .. | .readOut .. | .lm64Timeout .. | .lm64LateAnswer | .imageVerifyDone ..
  | .imageApply .. | .flashWriteDone .. | .imgCtrlAbort .. | .imgCtrlPreferGo .. | .imgCtrlConfirm ..
  | .imgRevokeWrite .. | .powerOnReset .. | .systemReset .. | .brownOutReset .. | .softwareReset ..
  | .thermalTrip .. | .boot .. | .functionReset .. | .functionResetComplete .. | .watchdogKick .. | .watchdogStage1
  | .watchdogReset .. | .monitorReading .. | .xoLoss | .dieLinkDown .. | .dieLinkRetrain ..
  | .illegalInstruction .. | .instructionFetchFault .. | .verifyResponseReceive .. | .jtagOtpProgram ..
  | .supplySequenceError | .fecUncorrectableBlock .. | .dieLinkRetryBurst .. | .memoryScrubPass ..
  | .rejoinCopyDone | .arpIcmpRequest .. => none

/-- The memory's answer that a lane's instruction carries. -/
def laneAnswer (i : Instr) : MemAnswer :=
  match i with
  | .lb _ _ _ _ a => a
  | .lbu _ _ _ _ a => a
  | .lh _ _ _ _ a => a
  | .lhu _ _ _ _ a => a
  | .lw _ _ _ _ a => a
  | .sb _ _ _ _ a => a
  | .sh _ _ _ _ a => a
  | .sw _ _ _ _ a => a
  | .vld _ _ _ _ a => a
  | .vst _ _ _ _ a => a
  | .waitm _ _ _ a => a
  | .pollm _ _ _ a => a
  | .sendLane _ _ _ _ a => a
  | .sendDistrict _ _ _ _ a => a
  | .sendPort _ _ _ _ a => a
  | .sendJournal _ _ _ _ a => a
  | .sendRoad _ _ _ _ a => a
  | .atomAdd _ _ _ _ a => a
  | .atomSwap _ _ _ _ a => a
  | .atomCas _ _ _ _ a => a
  | _ => .ok

/-- Register fields of five and four bits, and immediates. -/
def regField (w : Word) (lo : Nat) : GReg := Fin.ofNat 32 (fld w (lo + 4) lo)
def vecField (w : Word) (lo : Nat) : VReg := Fin.ofNat 16 (fld w (lo + 3) lo)
def imm16 (w : Word) : BitVec 16 := BitVec.ofNat 16 (fld w 15 0)
def imm3 (w : Word) : BitVec 3 := BitVec.ofNat 3 (fld w 8 6)

/-- Format A: op 0 (R144). -/
def laneDecodeA (l : Lane) (_ans : MemAnswer) (w : Word) : Option Instr :=
  match fld w 5 0 with
  | 0x00 => some (.add l (regField w 21) (regField w 16) (regField w 11))
  | 0x01 => some (.sub l (regField w 21) (regField w 16) (regField w 11))
  | 0x02 => some (.and l (regField w 21) (regField w 16) (regField w 11))
  | 0x03 => some (.or l (regField w 21) (regField w 16) (regField w 11))
  | 0x04 => some (.xor l (regField w 21) (regField w 16) (regField w 11))
  | 0x05 => some (.nor l (regField w 21) (regField w 16) (regField w 11))
  | 0x06 => some (.slt l (regField w 21) (regField w 16) (regField w 11))
  | 0x07 => some (.sltu l (regField w 21) (regField w 16) (regField w 11))
  | 0x08 => some (.sll l (regField w 21) (regField w 16) (regField w 11))
  | 0x09 => some (.srl l (regField w 21) (regField w 16) (regField w 11))
  | 0x0A => some (.sra l (regField w 21) (regField w 16) (regField w 11))
  | 0x10 => some (.mul l (regField w 21) (regField w 16) (regField w 11))
  | 0x11 => some (.mulh l (regField w 21) (regField w 16) (regField w 11))
  | 0x12 => some (.mulhu l (regField w 21) (regField w 16) (regField w 11))
  | 0x13 => some (.div l (regField w 21) (regField w 16) (regField w 11))
  | 0x14 => some (.divu l (regField w 21) (regField w 16) (regField w 11))
  | 0x15 => some (.rem l (regField w 21) (regField w 16) (regField w 11))
  | 0x16 => some (.remu l (regField w 21) (regField w 16) (regField w 11))
  | 0x19 => some (.min l (regField w 21) (regField w 16) (regField w 11))
  | 0x1A => some (.max l (regField w 21) (regField w 16) (regField w 11))
  | 0x0B => some (.slli l (regField w 21) (regField w 16) (BitVec.ofNat 5 (fld w 10 6)))
  | 0x0C => some (.srli l (regField w 21) (regField w 16) (BitVec.ofNat 5 (fld w 10 6)))
  | 0x0D => some (.srai l (regField w 21) (regField w 16) (BitVec.ofNat 5 (fld w 10 6)))
  | 0x18 => some (.clz l (regField w 21) (regField w 16))
  | 0x20 => some (.jr l (regField w 16))
  | 0x21 => some (.jalr l (regField w 21) (regField w 16))
  | _ => none

/-- Format V: op 0x20 (R152-R156). -/
def laneDecode20 (l : Lane) (_ans : MemAnswer) (w : Word) : Option Instr :=
  match fld w 5 0 with
  | 0x00 => some (.vaddH l (vecField w 22) (vecField w 18) (vecField w 14))
  | 0x01 => some (.vsubH l (vecField w 22) (vecField w 18) (vecField w 14))
  | 0x02 => some (.vmulH l (vecField w 22) (vecField w 18) (vecField w 14))
  | 0x03 => some (.vmacH l (vecField w 22) (vecField w 18) (vecField w 14))
  | 0x04 => some (.vdotH l (vecField w 22) (vecField w 18) (vecField w 14))
  | 0x08 => some (.vmaxH l (vecField w 22) (vecField w 18) (vecField w 14))
  | 0x09 => some (.vminH l (vecField w 22) (vecField w 18) (vecField w 14))
  | 0x0A => some (.vaddW l (vecField w 22) (vecField w 18) (vecField w 14))
  | 0x0B => some (.vsubW l (vecField w 22) (vecField w 18) (vecField w 14))
  | 0x07 => some (.vabsH l (vecField w 22) (vecField w 18))
  | 0x05 => some (.vshrH l (vecField w 22) (vecField w 18) (regField w 9))
  | 0x06 => some (.vshlH l (vecField w 22) (vecField w 18) (regField w 9))
  | 0x0C => some (.vnarrowH l (vecField w 22) (vecField w 18) (vecField w 14) (regField w 9))
  | _ => none

/-- Format V: op 0x21 (R152-R156). -/
def laneDecode21 (l : Lane) (_ans : MemAnswer) (w : Word) : Option Instr :=
  match fld w 5 0 with
  | 0x00 => some (.vfadd l (vecField w 22) (vecField w 18) (vecField w 14))
  | 0x01 => some (.vfsub l (vecField w 22) (vecField w 18) (vecField w 14))
  | 0x02 => some (.vfmul l (vecField w 22) (vecField w 18) (vecField w 14))
  | 0x03 => some (.vfma l (vecField w 22) (vecField w 18) (vecField w 14))
  | 0x04 => some (.vfms l (vecField w 22) (vecField w 18) (vecField w 14))
  | 0x05 => some (.vfmin l (vecField w 22) (vecField w 18) (vecField w 14))
  | 0x06 => some (.vfmax l (vecField w 22) (vecField w 18) (vecField w 14))
  | 0x0C => some (.vfcmplt l (vecField w 22) (vecField w 18) (vecField w 14))
  | 0x07 => some (.vfabs l (vecField w 22) (vecField w 18))
  | 0x08 => some (.vfneg l (vecField w 22) (vecField w 18))
  | 0x09 => some (.vfcvtFW l (vecField w 22) (vecField w 18))
  | 0x0A => some (.vfcvtWF l (vecField w 22) (vecField w 18))
  | 0x0B => some (.vfsqrt l (vecField w 22) (vecField w 18))
  | _ => none

/-- Format V: op 0x22 (R152-R156). -/
def laneDecode22 (l : Lane) (ans : MemAnswer) (w : Word) : Option Instr :=
  match fld w 5 0 with
  | 0x02 => some (.vmov l (vecField w 22) (vecField w 18))
  | 0x00 => some (.vld l (vecField w 22) (regField w 9) (imm3 w) ans)
  | 0x01 => some (.vst l (vecField w 22) (regField w 9) (imm3 w) ans)
  | 0x03 => some (.vmovg2v l (vecField w 22) (regField w 9) (imm3 w))
  | 0x04 => some (.vmovv2g l (vecField w 18) (regField w 9) (imm3 w))
  | 0x05 => some (.vextH l (vecField w 18) (regField w 9) (imm3 w))
  | 0x06 => some (.vsplatH l (vecField w 22) (regField w 9))
  | 0x07 => some (.vsplatW l (vecField w 22) (regField w 9))
  | _ => none

/-- Format V: op 0x23 (R152-R156). -/
def laneDecode23 (l : Lane) (_ans : MemAnswer) (w : Word) : Option Instr :=
  match fld w 5 0 with
  | 0x00 => some (.vcmulH l (vecField w 22) (vecField w 18) (vecField w 14))
  | 0x01 => some (.vcmuljH l (vecField w 22) (vecField w 18) (vecField w 14))
  | 0x02 => some (.vcmulF l (vecField w 22) (vecField w 18) (vecField w 14))
  | 0x05 => some (.vbf2F l (vecField w 22) (vecField w 18) (vecField w 14))
  | 0x06 => some (.vbf4F l (vecField w 22) (vecField w 18))
  | 0x03 => some (.vbf2H l (vecField w 22) (vecField w 18) (vecField w 14) (imm3 w))
  | 0x04 => some (.vbf4H l (vecField w 22) (vecField w 18) (imm3 w))
  | _ => none

/-- Format S: op 0x3F (R157-R167). -/
def laneDecodeS (l : Lane) (ans : MemAnswer) (w : Word) : Option Instr :=
  match fld w 5 0, fld w 10 6 with
  | 0x00, _ => some (.jend l)
  | 0x01, _ => some (.waitm l (regField w 21) (regField w 16) ans)
  | 0x02, _ => some (.pollm l (regField w 21) (regField w 16) ans)
  | 0x03, 0 => some (.sendLane l (regField w 21) (regField w 16) (regField w 11) ans)
  | 0x03, 1 => some (.sendDistrict l (regField w 21) (regField w 16) (regField w 11) ans)
  | 0x03, 2 => some (.sendPort l (regField w 21) (regField w 16) (regField w 11) ans)
  | 0x03, 3 => some (.sendJournal l (regField w 21) (regField w 16) (regField w 11) ans)
  | 0x03, 4 => some (.sendRoad l (regField w 21) (regField w 16) (regField w 11) ans)
  | 0x04, _ => some (.roadp l (vecField w 21) (regField w 16))
  | 0x05, _ => some (.roadat l (vecField w 21) (regField w 16) (regField w 11))
  | 0x06, _ => some (.roadwhen l (vecField w 21) (regField w 16) (vecField w 11))
  | 0x07, _ => some (.obs l (vecField w 16))
  | 0x08, 0 => some (.stepqStep l (regField w 21))
  | 0x08, 1 => some (.stepqTime l (regField w 21))
  | 0x09, 0 => some (.atomAdd l (regField w 21) (regField w 16) (regField w 11) ans)
  | 0x09, 1 => some (.atomSwap l (regField w 21) (regField w 16) (regField w 11) ans)
  | 0x09, 2 => some (.atomCas l (regField w 21) (regField w 16) (regField w 11) ans)
  | 0x0A, _ => some (.fence l)
  | 0x0B, _ => some (.trap l (BitVec.ofNat 16 (fld w 25 10)))
  | 0x0C, _ => some (.laneq l (regField w 21))
  | _, _ => none

/-- The instruction that a legal word spells on a lane, with a memory's answer. -/
def laneDecode (l : Lane) (ans : MemAnswer) (w : Word) : Option Instr :=
  if ¬ legalWord w then none
  else
    match fld w 31 26 with
    | 0x00 => laneDecodeA l ans w
    | 0x01 => some (.addi l (regField w 21) (regField w 16) (imm16 w))
    | 0x02 => some (.andi l (regField w 21) (regField w 16) (imm16 w))
    | 0x03 => some (.ori l (regField w 21) (regField w 16) (imm16 w))
    | 0x04 => some (.xori l (regField w 21) (regField w 16) (imm16 w))
    | 0x05 => some (.slti l (regField w 21) (regField w 16) (imm16 w))
    | 0x06 => some (.sltiu l (regField w 21) (regField w 16) (imm16 w))
    | 0x07 => some (.lui l (regField w 21) (imm16 w))
    | 0x08 => some (.lb l (regField w 21) (regField w 16) (imm16 w) ans)
    | 0x09 => some (.lbu l (regField w 21) (regField w 16) (imm16 w) ans)
    | 0x0A => some (.lh l (regField w 21) (regField w 16) (imm16 w) ans)
    | 0x0B => some (.lhu l (regField w 21) (regField w 16) (imm16 w) ans)
    | 0x0C => some (.lw l (regField w 21) (regField w 16) (imm16 w) ans)
    | 0x0D => some (.sb l (regField w 21) (regField w 16) (imm16 w) ans)
    | 0x0E => some (.sh l (regField w 21) (regField w 16) (imm16 w) ans)
    | 0x0F => some (.sw l (regField w 21) (regField w 16) (imm16 w) ans)
    | 0x10 => some (.j l (regField w 21) (BitVec.ofNat 21 (fld w 20 0)))
    | 0x11 => some (.beqz l (regField w 21) (BitVec.ofNat 21 (fld w 20 0)))
    | 0x12 => some (.bnez l (regField w 21) (BitVec.ofNat 21 (fld w 20 0)))
    | 0x13 => some (.bltz l (regField w 21) (BitVec.ofNat 21 (fld w 20 0)))
    | 0x14 => some (.bgez l (regField w 21) (BitVec.ofNat 21 (fld w 20 0)))
    | 0x15 => some (.blez l (regField w 21) (BitVec.ofNat 21 (fld w 20 0)))
    | 0x16 => some (.bgtz l (regField w 21) (BitVec.ofNat 21 (fld w 20 0)))
    | 0x20 => laneDecode20 l ans w
    | 0x21 => laneDecode21 l ans w
    | 0x22 => laneDecode22 l ans w
    | 0x23 => laneDecode23 l ans w
    | 0x3F => laneDecodeS l ans w
    | _ => none

/-! ### What an instruction may change -/

/-- Only lane `l` differs between two states. -/
def onlyLane (l : Lane) (s t : State) : Prop := t = setLane l (lane l t) s

/-- The command is an instruction that, whenever its lane issues it, writes `g` to general register rd, keeps every other
register, moves to the next instruction and changes nothing but its lane; rd = 0 writes nothing (R138, R139). -/
def writesG (c : Instr) (rd : GReg) (g : State → LaneState → Word) : Prop :=
  ∀ (l : Lane) (w : Word) (s : State), laneWord c = some (l, w) → laneIssues l w s = true →
    ∃ t : State, exec c s = .next t ∧ onlyLane l s t ∧ (lane l t).pc = (lane l s).pc + 4 ∧
      (∀ r : GReg, getG r (lane l t) = if r = rd ∧ r ≠ 0 then g s (lane l s) else getG r (lane l s)) ∧
      (lane l t).v = (lane l s).v ∧ (lane l t).run = (lane l s).run ∧ (lane l t).job = (lane l s).job ∧
      (lane l t).queue = (lane l s).queue ∧ (lane l t).inbox = (lane l s).inbox

/-- The same for an instruction that writes vector register vd: element by element in the .H view (R151). -/
def writesH (c : Instr) (vd : VReg) (g : LaneState → Nat → Int) : Prop :=
  ∀ (l : Lane) (w : Word) (s : State), laneWord c = some (l, w) → laneIssues l w s = true →
    ∃ t : State, exec c s = .next t ∧ onlyLane l s t ∧ (lane l t).pc = (lane l s).pc + 4 ∧
      (∀ i : Fin 8, vh (getV vd (lane l t)) i = g (lane l s) i) ∧
      (∀ r : VReg, r ≠ vd → getV r (lane l t) = getV r (lane l s)) ∧ (lane l t).g = (lane l s).g

/-- The same element by element in the .W view (R151). -/
def writesW (c : Instr) (vd : VReg) (g : State → LaneState → Nat → Word) : Prop :=
  ∀ (l : Lane) (w : Word) (s : State), laneWord c = some (l, w) → laneIssues l w s = true →
    ∃ t : State, exec c s = .next t ∧ onlyLane l s t ∧ (lane l t).pc = (lane l s).pc + 4 ∧
      (∀ j : Fin 4, vw (getV vd (lane l t)) j = g s (lane l s) j) ∧
      (∀ r : VReg, r ≠ vd → getV r (lane l t) = getV r (lane l s)) ∧ (lane l t).g = (lane l s).g

/-- A fault of lane `l` with its cause and address (R132): the lane stops with its job ended, the registers and the
program counter stay, the fault is recorded and counted, and the lane is marked in its district. -/
def faults (l : Lane) (cause : Nat) (faddr : Word) (trapCode : Nat) (s t : State) : Prop :=
  (lane l t).run = .faulted ∧ (lane l t).job = none ∧ (lane l t).g = (lane l s).g ∧ (lane l t).v = (lane l s).v ∧
    (lane l t).pc = (lane l s).pc ∧ rg LNC_LANE_FAULT l t = w32 (trapCode * 65536 + cause) ∧
    rg LNC_LANE_FADDR l t = faddr ∧ rgF LNC_LANE_CNT_FAULT l 31 0 t = (rgF LNC_LANE_CNT_FAULT l 31 0 s + 1) % 2 ^ 32 ∧
    bit (rg LNC_DST_FAULTED (l / 16) t) (l % 16) = true ∧ bit (rg LNC_DST_CAUSE (l / 16) t) 0 = true ∧ (∀ m : Lane, m ≠ l → lane m t = lane m s) ∧ t.mem = s.mem ∧ t.roads = s.roads

/-- A queue of a kind may begin its next entry: it runs and has one, it is its turn, the function is not in reset, the
completion ring has room and the entry can be read (R293, R302). -/
def entryReady (q kind : Nat) (s : State) : Bool :=
  beginEntry q kind s && qState q s == qRunning && (queueRun q s).prod != (queueRun q s).next && !cringFull q s
    && (queueRun q s).holding.isEmpty && entryError q .ok s == 0

/-- No gate list has a step that takes effect on the next TCLK edge (R250). -/
def noStepDue (s : State) : Prop := ∀ p : Nat, (gateRun p s).stepDue = none

/-- The request at the head of a host session's queue may be carried out: it is the session's turn, the endpoint is not in
reset and its firmware runs (R404, R451). -/
def hostTurn (i : Nat) (req : WpRequest) (rest : List WpRequest) (s : State) : Prop :=
  (session i s).queue = req :: rest ∧ inReset 210 s = false ∧ s.sys.restarted ≤ elapsedNs s ∧ turnSession s = some i

/-- The block once the session's turn has been taken: its queue holds the rest, and the next session has the next turn. -/
def afterTurn (i : Nat) (rest : List WpRequest) (s : State) : State :=
  setSession i { session i s with queue := rest } { s with wpt := { s.wpt with nextSession := (i + 1) % 4 } }

/-- After a device-wide reset with its cause bit: the causes are set, the straps sampled, and lanes, roads, queues and
frames are as after reset; memory, flash and the waiting commands stay (R436). -/
def afterReset (cause : Nat) (straps : Straps) (s t : State) : Prop :=
  bit (rg SYS_RST_CAUSE 0 t) cause = true ∧ bit (rg SYS_CAUSE 0 t) 6 = true ∧ rg SYS_STRAP 0 t = strapWord straps ∧
    rgF TWN_STAT 0 9 8 t = straps.rank.toNat ∧
    t.mem = s.mem ∧ t.pending = s.pending ∧ t.img.flashA = s.img.flashA ∧ t.img.flashB = s.img.flashB ∧
    t.lanes = State.reset.lanes ∧ t.roads = State.reset.roads ∧ t.jct = State.reset.jct ∧ t.queues = State.reset.queues

end Sys2Proof.Machine
end

