-- ==== Sys2Proof/Laws/Sparse.lean ====
section
/-! SUPPORT. Laws of the sparse tables, of memory and of the register store: read after write, and the canonical form. -/

set_option Elab.async false

namespace Sys2Proof.Machine

open Sys2Proof

variable {α : Type}

/-! ### Reading -/

theorem sget_serase_same (d : α) (k : Nat) (l : Sparse α) : sget d k (serase k l) = d := by
  induction l with
  | nil => rfl
  | cons p t ih =>
    obtain ⟨k', v⟩ := p
    by_cases h : k' = k
    · simp [serase, h, ih]
    · simp [serase, sget, h, ih]

theorem sget_serase_other (d : α) (k j : Nat) (l : Sparse α) (h : j ≠ k) : sget d j (serase k l) = sget d j l := by
  induction l with
  | nil => rfl
  | cons p t ih =>
    obtain ⟨k', v⟩ := p
    by_cases h' : k' = k
    · subst h'; simp [serase, sget, ih, Ne.symm h]
    · simp only [serase, h', if_false, sget, ih]

theorem sget_sinsert_same (d : α) (k : Nat) (v : α) (l : Sparse α) (hk : k ∉ skeys l) :
    sget d k (sinsert k v l) = v := by
  induction l with
  | nil => simp [sinsert, sget]
  | cons p t ih =>
    obtain ⟨k', v'⟩ := p
    simp only [skeys, List.mem_cons, not_or] at hk
    by_cases hlt : k < k'
    · simp [sinsert, hlt, sget]
    · simp [sinsert, hlt, sget, Ne.symm hk.1, ih hk.2]

theorem sget_sinsert_other (d : α) (k j : Nat) (v : α) (l : Sparse α) (h : j ≠ k) :
    sget d j (sinsert k v l) = sget d j l := by
  induction l with
  | nil => simp [sinsert, sget, Ne.symm h]
  | cons p t ih =>
    obtain ⟨k', v'⟩ := p
    by_cases hlt : k < k'
    · simp [sinsert, hlt, sget, Ne.symm h]
    · simp only [sinsert, hlt, if_false, sget, ih]

theorem skeys_serase (k : Nat) (l : Sparse α) : k ∉ skeys (serase k l) := by
  induction l with
  | nil => simp [serase, skeys]
  | cons p t ih =>
    obtain ⟨k', v⟩ := p
    by_cases h : k' = k
    · simp [serase, h, ih]
    · simp [serase, h, skeys, ih, Ne.symm h]

/-- A read after a write at the same key gives what was written. -/
theorem sget_sset_same [DecidableEq α] (d : α) (k : Nat) (v : α) (l : Sparse α) : sget d k (sset d k v l) = v := by
  unfold sset
  split
  · next h => rw [h]; exact sget_serase_same d k l
  · exact sget_sinsert_same d k v _ (skeys_serase k l)

/-- A write leaves every other key alone. -/
theorem sget_sset_other [DecidableEq α] (d e : α) (k j : Nat) (v : α) (l : Sparse α) (h : j ≠ k) :
    sget e j (sset d k v l) = sget e j l := by
  unfold sset
  split
  · exact sget_serase_other e k j l h
  · rw [sget_sinsert_other e k j v _ h, sget_serase_other e k j l h]

/-! ### The canonical form -/

theorem keysRise_mono (l : Sparse α) (a b : Nat) (hab : a ≤ b) (h : keysRise b l = true) : keysRise a l = true := by
  cases l with
  | nil => rfl
  | cons p t =>
    obtain ⟨k, v⟩ := p
    simp only [keysRise, Bool.and_eq_true, decide_eq_true_eq] at h ⊢
    exact ⟨by omega, h.2⟩

theorem keysRise_serase (k : Nat) (l : Sparse α) (a : Nat) (h : keysRise a l = true) : keysRise a (serase k l) = true := by
  induction l generalizing a with
  | nil => rfl
  | cons p t ih =>
    obtain ⟨k', v⟩ := p
    simp only [keysRise, Bool.and_eq_true, decide_eq_true_eq] at h
    by_cases h' : k' = k
    · simp only [serase, h', if_true]
      exact keysRise_mono _ a (k' + 1) (by omega) (ih _ h.2)
    · simp only [serase, h', if_false, keysRise, Bool.and_eq_true, decide_eq_true_eq]
      exact ⟨h.1, ih _ h.2⟩

theorem keysRise_sinsert (k : Nat) (v : α) (l : Sparse α) (a : Nat) (ha : a ≤ k) (h : keysRise a l = true)
    (hk : k ∉ skeys l) : keysRise a (sinsert k v l) = true := by
  induction l generalizing a with
  | nil => simp [sinsert, keysRise, ha]
  | cons p t ih =>
    obtain ⟨k', v'⟩ := p
    simp only [keysRise, Bool.and_eq_true, decide_eq_true_eq] at h
    simp only [skeys, List.mem_cons, not_or] at hk
    by_cases hlt : k < k'
    · simp only [sinsert, hlt, if_true, keysRise, Bool.and_eq_true, decide_eq_true_eq]
      exact ⟨ha, by omega, h.2⟩
    · simp only [sinsert, hlt, if_false, keysRise, Bool.and_eq_true, decide_eq_true_eq]
      exact ⟨h.1, ih _ (by omega) h.2 hk.2⟩

theorem noDefault_serase [DecidableEq α] (d : Nat → α) (k : Nat) (l : Sparse α) (h : noDefault d l = true) :
    noDefault d (serase k l) = true := by
  induction l with
  | nil => rfl
  | cons p t ih =>
    obtain ⟨k', v⟩ := p
    simp only [noDefault, Bool.and_eq_true] at h
    by_cases h' : k' = k
    · simp only [serase, h', if_true]; exact ih h.2
    · simp only [serase, h', if_false, noDefault, Bool.and_eq_true]; exact ⟨h.1, ih h.2⟩

theorem noDefault_sinsert [DecidableEq α] (d : Nat → α) (k : Nat) (v : α) (l : Sparse α) (hv : v ≠ d k)
    (h : noDefault d l = true) : noDefault d (sinsert k v l) = true := by
  induction l with
  | nil => simp [sinsert, noDefault, hv]
  | cons p t ih =>
    obtain ⟨k', v'⟩ := p
    by_cases hlt : k < k'
    · simp only [sinsert, hlt, if_true, noDefault, Bool.and_eq_true, decide_eq_true_eq]
      exact ⟨hv, by simpa [noDefault] using h⟩
    · simp only [noDefault, Bool.and_eq_true] at h
      simp only [sinsert, hlt, if_false, noDefault, Bool.and_eq_true]
      exact ⟨h.1, ih h.2⟩

/-- A write keeps the canonical form. -/
theorem sset_wf [DecidableEq α] (d : Nat → α) (k : Nat) (v : α) (l : Sparse α) (h : sparseWf d l = true) :
    sparseWf d (sset (d k) k v l) = true := by
  simp only [sparseWf, Bool.and_eq_true] at h ⊢
  unfold sset
  split
  · exact ⟨keysRise_serase k l 0 h.1, noDefault_serase d k l h.2⟩
  · next hv =>
    exact ⟨keysRise_sinsert k v _ 0 (by omega) (keysRise_serase k l 0 h.1) (skeys_serase k l),
      noDefault_sinsert d k v _ hv (noDefault_serase d k l h.2)⟩

theorem keysRise_sfilter (p : Nat → Bool) (l : Sparse α) (a : Nat) (h : keysRise a l = true) :
    keysRise a (sfilter p l) = true := by
  induction l generalizing a with
  | nil => rfl
  | cons q t ih =>
    obtain ⟨k, v⟩ := q
    simp only [keysRise, Bool.and_eq_true, decide_eq_true_eq] at h
    by_cases hp : p k
    · simp only [sfilter, hp, if_true, keysRise, Bool.and_eq_true, decide_eq_true_eq]
      exact ⟨h.1, ih _ h.2⟩
    · simp only [sfilter, hp]
      exact keysRise_mono _ a (k + 1) (by omega) (ih _ h.2)

theorem noDefault_sfilter [DecidableEq α] (d : Nat → α) (p : Nat → Bool) (l : Sparse α) (h : noDefault d l = true) :
    noDefault d (sfilter p l) = true := by
  induction l with
  | nil => rfl
  | cons q t ih =>
    obtain ⟨k, v⟩ := q
    simp only [noDefault, Bool.and_eq_true] at h
    by_cases hp : p k
    · simp only [sfilter, hp, if_true, noDefault, Bool.and_eq_true]
      exact ⟨h.1, ih h.2⟩
    · simp only [sfilter, hp]; exact ih h.2

/-- Keeping the entries of some keys keeps the canonical form. -/
theorem sfilter_wf [DecidableEq α] (d : Nat → α) (p : Nat → Bool) (l : Sparse α) (h : sparseWf d l = true) :
    sparseWf d (sfilter p l) = true := by
  simp only [sparseWf, Bool.and_eq_true] at h ⊢
  exact ⟨keysRise_sfilter p l 0 h.1, noDefault_sfilter d p l h.2⟩

/-! ### Memory -/

theorem rdByte_wrByte_same (a : Nat) (b : Byte) (s : State) : rdByte a (wrByte a b s) = b := sget_sset_same 0 a b s.mem

theorem rdByte_wrByte_other (a c : Nat) (b : Byte) (s : State) (h : c ≠ a) : rdByte c (wrByte a b s) = rdByte c s :=
  sget_sset_other 0 0 a c b s.mem h

/-- Every byte outside the bytes written reads as before. -/
theorem rdByte_wrBytes_outside (a c : Nat) (d : Bytes) (s : State) (h : c < a ∨ a + d.length ≤ c) :
    rdByte c (wrBytes a d s) = rdByte c s := by
  induction d generalizing a s with
  | nil => rfl
  | cons b t ih =>
    simp only [List.length_cons] at h
    simp only [wrBytes]
    rw [ih (a + 1) (wrByte a b s) (by omega), rdByte_wrByte_other a c b s (by omega)]

/-- A read of the bytes just written gives them back. -/
theorem rdBytes_wrBytes (a : Nat) (d : Bytes) (s : State) : rdBytes a d.length (wrBytes a d s) = d := by
  induction d generalizing a s with
  | nil => rfl
  | cons b t ih =>
    simp only [List.length_cons, rdBytes, wrBytes]
    rw [ih, rdByte_wrBytes_outside (a + 1) a t _ (by omega), rdByte_wrByte_same]

/-- Writing one byte keeps memory's canonical form. -/
theorem wrByte_wf (a : Nat) (b : Byte) (s : State) (h : Memory.wf s.mem = true) : Memory.wf (wrByte a b s).mem = true :=
  sset_wf (fun _ => (0 : Byte)) a b s.mem h

/-- Writing bytes keeps memory's canonical form. -/
theorem wrBytes_wf (a : Nat) (d : Bytes) (s : State) (h : Memory.wf s.mem = true) :
    Memory.wf (wrBytes a d s).mem = true := by
  induction d generalizing a s with
  | nil => exact h
  | cons b t ih => exact ih (a + 1) (wrByte a b s) (wrByte_wf a b s h)

theorem wrLe_wf (a len v : Nat) (s : State) (h : Memory.wf s.mem = true) : Memory.wf (wrLe a len v s).mem = true :=
  wrBytes_wf a _ s h

/-- Zeroing a range keeps memory's canonical form. -/
theorem sfilter_mem_wf (p : Nat → Bool) (s : State) (h : Memory.wf s.mem = true) : Memory.wf (sfilter p s.mem) = true :=
  sfilter_wf _ p s.mem h

/-! ### Registers -/

theorem rg_setRg_same (r i : Nat) (v : Word) (s : State) : rg r i (setRg r i v s) = v :=
  sget_sset_same _ _ v s.regs

theorem rg_setRg_other (r i r' i' : Nat) (v : Word) (s : State) (h : rkey r' i' ≠ rkey r i) :
    rg r' i' (setRg r i v s) = rg r' i' s := sget_sset_other _ _ _ _ v s.regs h

/-- Storing a register keeps the store's canonical form. -/
theorem setRg_wf (r i : Nat) (v : Word) (s : State) (h : Registers.wf s.regs = true) :
    Registers.wf (setRg r i v s).regs = true := sset_wf regReset (rkey r i) v s.regs h

end Sys2Proof.Machine
end

