-- ==== Sys2Proof/Laws/State.lean ====
section
/-! SUPPORT. What each update leaves alone, one lemma per field, and what each read gives after each update. -/

namespace Sys2Proof.Machine

open Sys2Proof

/-! ### setRoad -/

@[simp] theorem setRoad_pending (n : Nat) (r : Road) (s : State) : (setRoad n r s).pending = s.pending := by unfold setRoad; rfl
@[simp] theorem setRoad_regs (n : Nat) (r : Road) (s : State) : (setRoad n r s).regs = s.regs := by unfold setRoad; rfl
@[simp] theorem setRoad_mem (n : Nat) (r : Road) (s : State) : (setRoad n r s).mem = s.mem := by unfold setRoad; rfl
@[simp] theorem setRoad_mp (n : Nat) (r : Road) (s : State) : (setRoad n r s).mp = s.mp := by unfold setRoad; rfl
@[simp] theorem setRoad_ingest (n : Nat) (r : Road) (s : State) : (setRoad n r s).ingest = s.ingest := by unfold setRoad; rfl
@[simp] theorem setRoad_ingestEdge (n : Nat) (r : Road) (s : State) : (setRoad n r s).ingestEdge = s.ingestEdge := by unfold setRoad; rfl
@[simp] theorem setRoad_ingested (n : Nat) (r : Road) (s : State) : (setRoad n r s).ingested = s.ingested := by unfold setRoad; rfl
@[simp] theorem setRoad_arriveEdge (n : Nat) (r : Road) (s : State) : (setRoad n r s).arriveEdge = s.arriveEdge := by unfold setRoad; rfl
@[simp] theorem setRoad_arriveCount (n : Nat) (r : Road) (s : State) : (setRoad n r s).arriveCount = s.arriveCount := by unfold setRoad; rfl
@[simp] theorem setRoad_heldEdge (n : Nat) (r : Road) (s : State) : (setRoad n r s).heldEdge = s.heldEdge := by unfold setRoad; rfl
@[simp] theorem setRoad_held (n : Nat) (r : Road) (s : State) : (setRoad n r s).held = s.held := by unfold setRoad; rfl
@[simp] theorem setRoad_recs (n : Nat) (r : Road) (s : State) : (setRoad n r s).recs = s.recs := by unfold setRoad; rfl
@[simp] theorem setRoad_recRun (n : Nat) (r : Road) (s : State) : (setRoad n r s).recRun = s.recRun := by unfold setRoad; rfl
@[simp] theorem setRoad_commits (n : Nat) (r : Road) (s : State) : (setRoad n r s).commits = s.commits := by unfold setRoad; rfl
@[simp] theorem setRoad_rungEdge (n : Nat) (r : Road) (s : State) : (setRoad n r s).rungEdge = s.rungEdge := by unfold setRoad; rfl
@[simp] theorem setRoad_rungQueues (n : Nat) (r : Road) (s : State) : (setRoad n r s).rungQueues = s.rungQueues := by unfold setRoad; rfl
@[simp] theorem setRoad_lastServed (n : Nat) (r : Road) (s : State) : (setRoad n r s).lastServed = s.lastServed := by unfold setRoad; rfl
@[simp] theorem setRoad_enableReturn (n : Nat) (r : Road) (s : State) : (setRoad n r s).enableReturn = s.enableReturn := by unfold setRoad; rfl
@[simp] theorem setRoad_cmpEdge (n : Nat) (r : Road) (s : State) : (setRoad n r s).cmpEdge = s.cmpEdge := by unfold setRoad; rfl
@[simp] theorem setRoad_fireEdge (n : Nat) (r : Road) (s : State) : (setRoad n r s).fireEdge = s.fireEdge := by unfold setRoad; rfl
@[simp] theorem setRoad_firedRoads (n : Nat) (r : Road) (s : State) : (setRoad n r s).firedRoads = s.firedRoads := by unfold setRoad; rfl
@[simp] theorem setRoad_frozen (n : Nat) (r : Road) (s : State) : (setRoad n r s).frozen = s.frozen := by unfold setRoad; rfl
@[simp] theorem setRoad_pulses (n : Nat) (r : Road) (s : State) : (setRoad n r s).pulses = s.pulses := by unfold setRoad; rfl
@[simp] theorem setRoad_snapCount (n : Nat) (r : Road) (s : State) : (setRoad n r s).snapCount = s.snapCount := by unfold setRoad; rfl
@[simp] theorem setRoad_snapAt (n : Nat) (r : Road) (s : State) : (setRoad n r s).snapAt = s.snapAt := by unfold setRoad; rfl
@[simp] theorem setRoad_slots (n : Nat) (r : Road) (s : State) : (setRoad n r s).slots = s.slots := by unfold setRoad; rfl
@[simp] theorem setRoad_trackers (n : Nat) (r : Road) (s : State) : (setRoad n r s).trackers = s.trackers := by unfold setRoad; rfl
@[simp] theorem setRoad_mfeSeq (n : Nat) (r : Road) (s : State) : (setRoad n r s).mfeSeq = s.mfeSeq := by unfold setRoad; rfl
@[simp] theorem setRoad_mfeDiscard (n : Nat) (r : Road) (s : State) : (setRoad n r s).mfeDiscard = s.mfeDiscard := by unfold setRoad; rfl
@[simp] theorem setRoad_mfeStuck (n : Nat) (r : Road) (s : State) : (setRoad n r s).mfeStuck = s.mfeStuck := by unfold setRoad; rfl
@[simp] theorem setRoad_shafts (n : Nat) (r : Road) (s : State) : (setRoad n r s).shafts = s.shafts := by unfold setRoad; rfl
@[simp] theorem setRoad_lanes (n : Nat) (r : Road) (s : State) : (setRoad n r s).lanes = s.lanes := by unfold setRoad; rfl
@[simp] theorem setRoad_districts (n : Nat) (r : Road) (s : State) : (setRoad n r s).districts = s.districts := by unfold setRoad; rfl
@[simp] theorem setRoad_ports (n : Nat) (r : Road) (s : State) : (setRoad n r s).ports = s.ports := by unfold setRoad; rfl
@[simp] theorem setRoad_macs (n : Nat) (r : Road) (s : State) : (setRoad n r s).macs = s.macs := by unfold setRoad; rfl
@[simp] theorem setRoad_jct (n : Nat) (r : Road) (s : State) : (setRoad n r s).jct = s.jct := by unfold setRoad; rfl
@[simp] theorem setRoad_tpk (n : Nat) (r : Road) (s : State) : (setRoad n r s).tpk = s.tpk := by unfold setRoad; rfl
@[simp] theorem setRoad_freP (n : Nat) (r : Road) (s : State) : (setRoad n r s).freP = s.freP := by unfold setRoad; rfl
@[simp] theorem setRoad_freD (n : Nat) (r : Road) (s : State) : (setRoad n r s).freD = s.freD := by unfold setRoad; rfl
@[simp] theorem setRoad_queues (n : Nat) (r : Road) (s : State) : (setRoad n r s).queues = s.queues := by unfold setRoad; rfl
@[simp] theorem setRoad_dmaHeld (n : Nat) (r : Road) (s : State) : (setRoad n r s).dmaHeld = s.dmaHeld := by unfold setRoad; rfl
@[simp] theorem setRoad_dmaEdge (n : Nat) (r : Road) (s : State) : (setRoad n r s).dmaEdge = s.dmaEdge := by unfold setRoad; rfl
@[simp] theorem setRoad_wrrCur (n : Nat) (r : Road) (s : State) : (setRoad n r s).wrrCur = s.wrrCur := by unfold setRoad; rfl
@[simp] theorem setRoad_wrrLeft (n : Nat) (r : Road) (s : State) : (setRoad n r s).wrrLeft = s.wrrLeft := by unfold setRoad; rfl
@[simp] theorem setRoad_wrrVisits (n : Nat) (r : Road) (s : State) : (setRoad n r s).wrrVisits = s.wrrVisits := by unfold setRoad; rfl
@[simp] theorem setRoad_flt (n : Nat) (r : Road) (s : State) : (setRoad n r s).flt = s.flt := by unfold setRoad; rfl
@[simp] theorem setRoad_jnl (n : Nat) (r : Road) (s : State) : (setRoad n r s).jnl = s.jnl := by unfold setRoad; rfl
@[simp] theorem setRoad_twn (n : Nat) (r : Road) (s : State) : (setRoad n r s).twn = s.twn := by unfold setRoad; rfl
@[simp] theorem setRoad_stp (n : Nat) (r : Road) (s : State) : (setRoad n r s).stp = s.stp := by unfold setRoad; rfl
@[simp] theorem setRoad_hie (n : Nat) (r : Road) (s : State) : (setRoad n r s).hie = s.hie := by unfold setRoad; rfl
@[simp] theorem setRoad_wpt (n : Nat) (r : Road) (s : State) : (setRoad n r s).wpt = s.wpt := by unfold setRoad; rfl
@[simp] theorem setRoad_img (n : Nat) (r : Road) (s : State) : (setRoad n r s).img = s.img := by unfold setRoad; rfl
@[simp] theorem setRoad_sys (n : Nat) (r : Road) (s : State) : (setRoad n r s).sys = s.sys := by unfold setRoad; rfl
@[simp] theorem setRoad_draws (n : Nat) (r : Road) (s : State) : (setRoad n r s).draws = s.draws := by unfold setRoad; rfl
@[simp] theorem road_setRoad (n : Nat) (r) (s : State) : road n (setRoad n r s) = r := by
  unfold road setRoad; exact sget_sset_same _ _ _ _
theorem road_setRoad_other (n m : Nat) (r) (s : State) (h : m ≠ n) : road m (setRoad n r s) = road m s := by
  unfold road setRoad; exact sget_sset_other _ _ _ _ _ _ h

/-! ### setRecRun -/

@[simp] theorem setRecRun_pending (n : Nat) (r : RecordRun) (s : State) : (setRecRun n r s).pending = s.pending := by unfold setRecRun; rfl
@[simp] theorem setRecRun_regs (n : Nat) (r : RecordRun) (s : State) : (setRecRun n r s).regs = s.regs := by unfold setRecRun; rfl
@[simp] theorem setRecRun_mem (n : Nat) (r : RecordRun) (s : State) : (setRecRun n r s).mem = s.mem := by unfold setRecRun; rfl
@[simp] theorem setRecRun_mp (n : Nat) (r : RecordRun) (s : State) : (setRecRun n r s).mp = s.mp := by unfold setRecRun; rfl
@[simp] theorem setRecRun_roads (n : Nat) (r : RecordRun) (s : State) : (setRecRun n r s).roads = s.roads := by unfold setRecRun; rfl
@[simp] theorem setRecRun_ingest (n : Nat) (r : RecordRun) (s : State) : (setRecRun n r s).ingest = s.ingest := by unfold setRecRun; rfl
@[simp] theorem setRecRun_ingestEdge (n : Nat) (r : RecordRun) (s : State) : (setRecRun n r s).ingestEdge = s.ingestEdge := by unfold setRecRun; rfl
@[simp] theorem setRecRun_ingested (n : Nat) (r : RecordRun) (s : State) : (setRecRun n r s).ingested = s.ingested := by unfold setRecRun; rfl
@[simp] theorem setRecRun_arriveEdge (n : Nat) (r : RecordRun) (s : State) : (setRecRun n r s).arriveEdge = s.arriveEdge := by unfold setRecRun; rfl
@[simp] theorem setRecRun_arriveCount (n : Nat) (r : RecordRun) (s : State) : (setRecRun n r s).arriveCount = s.arriveCount := by unfold setRecRun; rfl
@[simp] theorem setRecRun_heldEdge (n : Nat) (r : RecordRun) (s : State) : (setRecRun n r s).heldEdge = s.heldEdge := by unfold setRecRun; rfl
@[simp] theorem setRecRun_held (n : Nat) (r : RecordRun) (s : State) : (setRecRun n r s).held = s.held := by unfold setRecRun; rfl
@[simp] theorem setRecRun_recs (n : Nat) (r : RecordRun) (s : State) : (setRecRun n r s).recs = s.recs := by unfold setRecRun; rfl
@[simp] theorem setRecRun_commits (n : Nat) (r : RecordRun) (s : State) : (setRecRun n r s).commits = s.commits := by unfold setRecRun; rfl
@[simp] theorem setRecRun_rungEdge (n : Nat) (r : RecordRun) (s : State) : (setRecRun n r s).rungEdge = s.rungEdge := by unfold setRecRun; rfl
@[simp] theorem setRecRun_rungQueues (n : Nat) (r : RecordRun) (s : State) : (setRecRun n r s).rungQueues = s.rungQueues := by unfold setRecRun; rfl
@[simp] theorem setRecRun_lastServed (n : Nat) (r : RecordRun) (s : State) : (setRecRun n r s).lastServed = s.lastServed := by unfold setRecRun; rfl
@[simp] theorem setRecRun_enableReturn (n : Nat) (r : RecordRun) (s : State) : (setRecRun n r s).enableReturn = s.enableReturn := by unfold setRecRun; rfl
@[simp] theorem setRecRun_cmpEdge (n : Nat) (r : RecordRun) (s : State) : (setRecRun n r s).cmpEdge = s.cmpEdge := by unfold setRecRun; rfl
@[simp] theorem setRecRun_fireEdge (n : Nat) (r : RecordRun) (s : State) : (setRecRun n r s).fireEdge = s.fireEdge := by unfold setRecRun; rfl
@[simp] theorem setRecRun_firedRoads (n : Nat) (r : RecordRun) (s : State) : (setRecRun n r s).firedRoads = s.firedRoads := by unfold setRecRun; rfl
@[simp] theorem setRecRun_frozen (n : Nat) (r : RecordRun) (s : State) : (setRecRun n r s).frozen = s.frozen := by unfold setRecRun; rfl
@[simp] theorem setRecRun_pulses (n : Nat) (r : RecordRun) (s : State) : (setRecRun n r s).pulses = s.pulses := by unfold setRecRun; rfl
@[simp] theorem setRecRun_snapCount (n : Nat) (r : RecordRun) (s : State) : (setRecRun n r s).snapCount = s.snapCount := by unfold setRecRun; rfl
@[simp] theorem setRecRun_snapAt (n : Nat) (r : RecordRun) (s : State) : (setRecRun n r s).snapAt = s.snapAt := by unfold setRecRun; rfl
@[simp] theorem setRecRun_slots (n : Nat) (r : RecordRun) (s : State) : (setRecRun n r s).slots = s.slots := by unfold setRecRun; rfl
@[simp] theorem setRecRun_trackers (n : Nat) (r : RecordRun) (s : State) : (setRecRun n r s).trackers = s.trackers := by unfold setRecRun; rfl
@[simp] theorem setRecRun_mfeSeq (n : Nat) (r : RecordRun) (s : State) : (setRecRun n r s).mfeSeq = s.mfeSeq := by unfold setRecRun; rfl
@[simp] theorem setRecRun_mfeDiscard (n : Nat) (r : RecordRun) (s : State) : (setRecRun n r s).mfeDiscard = s.mfeDiscard := by unfold setRecRun; rfl
@[simp] theorem setRecRun_mfeStuck (n : Nat) (r : RecordRun) (s : State) : (setRecRun n r s).mfeStuck = s.mfeStuck := by unfold setRecRun; rfl
@[simp] theorem setRecRun_shafts (n : Nat) (r : RecordRun) (s : State) : (setRecRun n r s).shafts = s.shafts := by unfold setRecRun; rfl
@[simp] theorem setRecRun_lanes (n : Nat) (r : RecordRun) (s : State) : (setRecRun n r s).lanes = s.lanes := by unfold setRecRun; rfl
@[simp] theorem setRecRun_districts (n : Nat) (r : RecordRun) (s : State) : (setRecRun n r s).districts = s.districts := by unfold setRecRun; rfl
@[simp] theorem setRecRun_ports (n : Nat) (r : RecordRun) (s : State) : (setRecRun n r s).ports = s.ports := by unfold setRecRun; rfl
@[simp] theorem setRecRun_macs (n : Nat) (r : RecordRun) (s : State) : (setRecRun n r s).macs = s.macs := by unfold setRecRun; rfl
@[simp] theorem setRecRun_jct (n : Nat) (r : RecordRun) (s : State) : (setRecRun n r s).jct = s.jct := by unfold setRecRun; rfl
@[simp] theorem setRecRun_tpk (n : Nat) (r : RecordRun) (s : State) : (setRecRun n r s).tpk = s.tpk := by unfold setRecRun; rfl
@[simp] theorem setRecRun_freP (n : Nat) (r : RecordRun) (s : State) : (setRecRun n r s).freP = s.freP := by unfold setRecRun; rfl
@[simp] theorem setRecRun_freD (n : Nat) (r : RecordRun) (s : State) : (setRecRun n r s).freD = s.freD := by unfold setRecRun; rfl
@[simp] theorem setRecRun_queues (n : Nat) (r : RecordRun) (s : State) : (setRecRun n r s).queues = s.queues := by unfold setRecRun; rfl
@[simp] theorem setRecRun_dmaHeld (n : Nat) (r : RecordRun) (s : State) : (setRecRun n r s).dmaHeld = s.dmaHeld := by unfold setRecRun; rfl
@[simp] theorem setRecRun_dmaEdge (n : Nat) (r : RecordRun) (s : State) : (setRecRun n r s).dmaEdge = s.dmaEdge := by unfold setRecRun; rfl
@[simp] theorem setRecRun_wrrCur (n : Nat) (r : RecordRun) (s : State) : (setRecRun n r s).wrrCur = s.wrrCur := by unfold setRecRun; rfl
@[simp] theorem setRecRun_wrrLeft (n : Nat) (r : RecordRun) (s : State) : (setRecRun n r s).wrrLeft = s.wrrLeft := by unfold setRecRun; rfl
@[simp] theorem setRecRun_wrrVisits (n : Nat) (r : RecordRun) (s : State) : (setRecRun n r s).wrrVisits = s.wrrVisits := by unfold setRecRun; rfl
@[simp] theorem setRecRun_flt (n : Nat) (r : RecordRun) (s : State) : (setRecRun n r s).flt = s.flt := by unfold setRecRun; rfl
@[simp] theorem setRecRun_jnl (n : Nat) (r : RecordRun) (s : State) : (setRecRun n r s).jnl = s.jnl := by unfold setRecRun; rfl
@[simp] theorem setRecRun_twn (n : Nat) (r : RecordRun) (s : State) : (setRecRun n r s).twn = s.twn := by unfold setRecRun; rfl
@[simp] theorem setRecRun_stp (n : Nat) (r : RecordRun) (s : State) : (setRecRun n r s).stp = s.stp := by unfold setRecRun; rfl
@[simp] theorem setRecRun_hie (n : Nat) (r : RecordRun) (s : State) : (setRecRun n r s).hie = s.hie := by unfold setRecRun; rfl
@[simp] theorem setRecRun_wpt (n : Nat) (r : RecordRun) (s : State) : (setRecRun n r s).wpt = s.wpt := by unfold setRecRun; rfl
@[simp] theorem setRecRun_img (n : Nat) (r : RecordRun) (s : State) : (setRecRun n r s).img = s.img := by unfold setRecRun; rfl
@[simp] theorem setRecRun_sys (n : Nat) (r : RecordRun) (s : State) : (setRecRun n r s).sys = s.sys := by unfold setRecRun; rfl
@[simp] theorem setRecRun_draws (n : Nat) (r : RecordRun) (s : State) : (setRecRun n r s).draws = s.draws := by unfold setRecRun; rfl
@[simp] theorem recRun_setRecRun (n : Nat) (r) (s : State) : recRun n (setRecRun n r s) = r := by
  unfold recRun setRecRun; exact sget_sset_same _ _ _ _
theorem recRun_setRecRun_other (n m : Nat) (r) (s : State) (h : m ≠ n) : recRun m (setRecRun n r s) = recRun m s := by
  unfold recRun setRecRun; exact sget_sset_other _ _ _ _ _ _ h

/-! ### setRecWord -/

@[simp] theorem setRecWord_pending (n : Nat) (r : BitVec 128) (s : State) : (setRecWord n r s).pending = s.pending := by unfold setRecWord; rfl
@[simp] theorem setRecWord_regs (n : Nat) (r : BitVec 128) (s : State) : (setRecWord n r s).regs = s.regs := by unfold setRecWord; rfl
@[simp] theorem setRecWord_mem (n : Nat) (r : BitVec 128) (s : State) : (setRecWord n r s).mem = s.mem := by unfold setRecWord; rfl
@[simp] theorem setRecWord_mp (n : Nat) (r : BitVec 128) (s : State) : (setRecWord n r s).mp = s.mp := by unfold setRecWord; rfl
@[simp] theorem setRecWord_roads (n : Nat) (r : BitVec 128) (s : State) : (setRecWord n r s).roads = s.roads := by unfold setRecWord; rfl
@[simp] theorem setRecWord_ingest (n : Nat) (r : BitVec 128) (s : State) : (setRecWord n r s).ingest = s.ingest := by unfold setRecWord; rfl
@[simp] theorem setRecWord_ingestEdge (n : Nat) (r : BitVec 128) (s : State) : (setRecWord n r s).ingestEdge = s.ingestEdge := by unfold setRecWord; rfl
@[simp] theorem setRecWord_ingested (n : Nat) (r : BitVec 128) (s : State) : (setRecWord n r s).ingested = s.ingested := by unfold setRecWord; rfl
@[simp] theorem setRecWord_arriveEdge (n : Nat) (r : BitVec 128) (s : State) : (setRecWord n r s).arriveEdge = s.arriveEdge := by unfold setRecWord; rfl
@[simp] theorem setRecWord_arriveCount (n : Nat) (r : BitVec 128) (s : State) : (setRecWord n r s).arriveCount = s.arriveCount := by unfold setRecWord; rfl
@[simp] theorem setRecWord_heldEdge (n : Nat) (r : BitVec 128) (s : State) : (setRecWord n r s).heldEdge = s.heldEdge := by unfold setRecWord; rfl
@[simp] theorem setRecWord_held (n : Nat) (r : BitVec 128) (s : State) : (setRecWord n r s).held = s.held := by unfold setRecWord; rfl
@[simp] theorem setRecWord_recRun (n : Nat) (r : BitVec 128) (s : State) : (setRecWord n r s).recRun = s.recRun := by unfold setRecWord; rfl
@[simp] theorem setRecWord_commits (n : Nat) (r : BitVec 128) (s : State) : (setRecWord n r s).commits = s.commits := by unfold setRecWord; rfl
@[simp] theorem setRecWord_rungEdge (n : Nat) (r : BitVec 128) (s : State) : (setRecWord n r s).rungEdge = s.rungEdge := by unfold setRecWord; rfl
@[simp] theorem setRecWord_rungQueues (n : Nat) (r : BitVec 128) (s : State) : (setRecWord n r s).rungQueues = s.rungQueues := by unfold setRecWord; rfl
@[simp] theorem setRecWord_lastServed (n : Nat) (r : BitVec 128) (s : State) : (setRecWord n r s).lastServed = s.lastServed := by unfold setRecWord; rfl
@[simp] theorem setRecWord_enableReturn (n : Nat) (r : BitVec 128) (s : State) : (setRecWord n r s).enableReturn = s.enableReturn := by unfold setRecWord; rfl
@[simp] theorem setRecWord_cmpEdge (n : Nat) (r : BitVec 128) (s : State) : (setRecWord n r s).cmpEdge = s.cmpEdge := by unfold setRecWord; rfl
@[simp] theorem setRecWord_fireEdge (n : Nat) (r : BitVec 128) (s : State) : (setRecWord n r s).fireEdge = s.fireEdge := by unfold setRecWord; rfl
@[simp] theorem setRecWord_firedRoads (n : Nat) (r : BitVec 128) (s : State) : (setRecWord n r s).firedRoads = s.firedRoads := by unfold setRecWord; rfl
@[simp] theorem setRecWord_frozen (n : Nat) (r : BitVec 128) (s : State) : (setRecWord n r s).frozen = s.frozen := by unfold setRecWord; rfl
@[simp] theorem setRecWord_pulses (n : Nat) (r : BitVec 128) (s : State) : (setRecWord n r s).pulses = s.pulses := by unfold setRecWord; rfl
@[simp] theorem setRecWord_snapCount (n : Nat) (r : BitVec 128) (s : State) : (setRecWord n r s).snapCount = s.snapCount := by unfold setRecWord; rfl
@[simp] theorem setRecWord_snapAt (n : Nat) (r : BitVec 128) (s : State) : (setRecWord n r s).snapAt = s.snapAt := by unfold setRecWord; rfl
@[simp] theorem setRecWord_slots (n : Nat) (r : BitVec 128) (s : State) : (setRecWord n r s).slots = s.slots := by unfold setRecWord; rfl
@[simp] theorem setRecWord_trackers (n : Nat) (r : BitVec 128) (s : State) : (setRecWord n r s).trackers = s.trackers := by unfold setRecWord; rfl
@[simp] theorem setRecWord_mfeSeq (n : Nat) (r : BitVec 128) (s : State) : (setRecWord n r s).mfeSeq = s.mfeSeq := by unfold setRecWord; rfl
@[simp] theorem setRecWord_mfeDiscard (n : Nat) (r : BitVec 128) (s : State) : (setRecWord n r s).mfeDiscard = s.mfeDiscard := by unfold setRecWord; rfl
@[simp] theorem setRecWord_mfeStuck (n : Nat) (r : BitVec 128) (s : State) : (setRecWord n r s).mfeStuck = s.mfeStuck := by unfold setRecWord; rfl
@[simp] theorem setRecWord_shafts (n : Nat) (r : BitVec 128) (s : State) : (setRecWord n r s).shafts = s.shafts := by unfold setRecWord; rfl
@[simp] theorem setRecWord_lanes (n : Nat) (r : BitVec 128) (s : State) : (setRecWord n r s).lanes = s.lanes := by unfold setRecWord; rfl
@[simp] theorem setRecWord_districts (n : Nat) (r : BitVec 128) (s : State) : (setRecWord n r s).districts = s.districts := by unfold setRecWord; rfl
@[simp] theorem setRecWord_ports (n : Nat) (r : BitVec 128) (s : State) : (setRecWord n r s).ports = s.ports := by unfold setRecWord; rfl
@[simp] theorem setRecWord_macs (n : Nat) (r : BitVec 128) (s : State) : (setRecWord n r s).macs = s.macs := by unfold setRecWord; rfl
@[simp] theorem setRecWord_jct (n : Nat) (r : BitVec 128) (s : State) : (setRecWord n r s).jct = s.jct := by unfold setRecWord; rfl
@[simp] theorem setRecWord_tpk (n : Nat) (r : BitVec 128) (s : State) : (setRecWord n r s).tpk = s.tpk := by unfold setRecWord; rfl
@[simp] theorem setRecWord_freP (n : Nat) (r : BitVec 128) (s : State) : (setRecWord n r s).freP = s.freP := by unfold setRecWord; rfl
@[simp] theorem setRecWord_freD (n : Nat) (r : BitVec 128) (s : State) : (setRecWord n r s).freD = s.freD := by unfold setRecWord; rfl
@[simp] theorem setRecWord_queues (n : Nat) (r : BitVec 128) (s : State) : (setRecWord n r s).queues = s.queues := by unfold setRecWord; rfl
@[simp] theorem setRecWord_dmaHeld (n : Nat) (r : BitVec 128) (s : State) : (setRecWord n r s).dmaHeld = s.dmaHeld := by unfold setRecWord; rfl
@[simp] theorem setRecWord_dmaEdge (n : Nat) (r : BitVec 128) (s : State) : (setRecWord n r s).dmaEdge = s.dmaEdge := by unfold setRecWord; rfl
@[simp] theorem setRecWord_wrrCur (n : Nat) (r : BitVec 128) (s : State) : (setRecWord n r s).wrrCur = s.wrrCur := by unfold setRecWord; rfl
@[simp] theorem setRecWord_wrrLeft (n : Nat) (r : BitVec 128) (s : State) : (setRecWord n r s).wrrLeft = s.wrrLeft := by unfold setRecWord; rfl
@[simp] theorem setRecWord_wrrVisits (n : Nat) (r : BitVec 128) (s : State) : (setRecWord n r s).wrrVisits = s.wrrVisits := by unfold setRecWord; rfl
@[simp] theorem setRecWord_flt (n : Nat) (r : BitVec 128) (s : State) : (setRecWord n r s).flt = s.flt := by unfold setRecWord; rfl
@[simp] theorem setRecWord_jnl (n : Nat) (r : BitVec 128) (s : State) : (setRecWord n r s).jnl = s.jnl := by unfold setRecWord; rfl
@[simp] theorem setRecWord_twn (n : Nat) (r : BitVec 128) (s : State) : (setRecWord n r s).twn = s.twn := by unfold setRecWord; rfl
@[simp] theorem setRecWord_stp (n : Nat) (r : BitVec 128) (s : State) : (setRecWord n r s).stp = s.stp := by unfold setRecWord; rfl
@[simp] theorem setRecWord_hie (n : Nat) (r : BitVec 128) (s : State) : (setRecWord n r s).hie = s.hie := by unfold setRecWord; rfl
@[simp] theorem setRecWord_wpt (n : Nat) (r : BitVec 128) (s : State) : (setRecWord n r s).wpt = s.wpt := by unfold setRecWord; rfl
@[simp] theorem setRecWord_img (n : Nat) (r : BitVec 128) (s : State) : (setRecWord n r s).img = s.img := by unfold setRecWord; rfl
@[simp] theorem setRecWord_sys (n : Nat) (r : BitVec 128) (s : State) : (setRecWord n r s).sys = s.sys := by unfold setRecWord; rfl
@[simp] theorem setRecWord_draws (n : Nat) (r : BitVec 128) (s : State) : (setRecWord n r s).draws = s.draws := by unfold setRecWord; rfl
@[simp] theorem recWord_setRecWord (n : Nat) (r) (s : State) : recWord n (setRecWord n r s) = r := by
  unfold recWord setRecWord; exact sget_sset_same _ _ _ _
theorem recWord_setRecWord_other (n m : Nat) (r) (s : State) (h : m ≠ n) : recWord m (setRecWord n r s) = recWord m s := by
  unfold recWord setRecWord; exact sget_sset_other _ _ _ _ _ _ h

/-! ### setSlotRun -/

@[simp] theorem setSlotRun_pending (n : Nat) (r : SlotRun) (s : State) : (setSlotRun n r s).pending = s.pending := by unfold setSlotRun; rfl
@[simp] theorem setSlotRun_regs (n : Nat) (r : SlotRun) (s : State) : (setSlotRun n r s).regs = s.regs := by unfold setSlotRun; rfl
@[simp] theorem setSlotRun_mem (n : Nat) (r : SlotRun) (s : State) : (setSlotRun n r s).mem = s.mem := by unfold setSlotRun; rfl
@[simp] theorem setSlotRun_mp (n : Nat) (r : SlotRun) (s : State) : (setSlotRun n r s).mp = s.mp := by unfold setSlotRun; rfl
@[simp] theorem setSlotRun_roads (n : Nat) (r : SlotRun) (s : State) : (setSlotRun n r s).roads = s.roads := by unfold setSlotRun; rfl
@[simp] theorem setSlotRun_ingest (n : Nat) (r : SlotRun) (s : State) : (setSlotRun n r s).ingest = s.ingest := by unfold setSlotRun; rfl
@[simp] theorem setSlotRun_ingestEdge (n : Nat) (r : SlotRun) (s : State) : (setSlotRun n r s).ingestEdge = s.ingestEdge := by unfold setSlotRun; rfl
@[simp] theorem setSlotRun_ingested (n : Nat) (r : SlotRun) (s : State) : (setSlotRun n r s).ingested = s.ingested := by unfold setSlotRun; rfl
@[simp] theorem setSlotRun_arriveEdge (n : Nat) (r : SlotRun) (s : State) : (setSlotRun n r s).arriveEdge = s.arriveEdge := by unfold setSlotRun; rfl
@[simp] theorem setSlotRun_arriveCount (n : Nat) (r : SlotRun) (s : State) : (setSlotRun n r s).arriveCount = s.arriveCount := by unfold setSlotRun; rfl
@[simp] theorem setSlotRun_heldEdge (n : Nat) (r : SlotRun) (s : State) : (setSlotRun n r s).heldEdge = s.heldEdge := by unfold setSlotRun; rfl
@[simp] theorem setSlotRun_held (n : Nat) (r : SlotRun) (s : State) : (setSlotRun n r s).held = s.held := by unfold setSlotRun; rfl
@[simp] theorem setSlotRun_recs (n : Nat) (r : SlotRun) (s : State) : (setSlotRun n r s).recs = s.recs := by unfold setSlotRun; rfl
@[simp] theorem setSlotRun_recRun (n : Nat) (r : SlotRun) (s : State) : (setSlotRun n r s).recRun = s.recRun := by unfold setSlotRun; rfl
@[simp] theorem setSlotRun_commits (n : Nat) (r : SlotRun) (s : State) : (setSlotRun n r s).commits = s.commits := by unfold setSlotRun; rfl
@[simp] theorem setSlotRun_rungEdge (n : Nat) (r : SlotRun) (s : State) : (setSlotRun n r s).rungEdge = s.rungEdge := by unfold setSlotRun; rfl
@[simp] theorem setSlotRun_rungQueues (n : Nat) (r : SlotRun) (s : State) : (setSlotRun n r s).rungQueues = s.rungQueues := by unfold setSlotRun; rfl
@[simp] theorem setSlotRun_lastServed (n : Nat) (r : SlotRun) (s : State) : (setSlotRun n r s).lastServed = s.lastServed := by unfold setSlotRun; rfl
@[simp] theorem setSlotRun_enableReturn (n : Nat) (r : SlotRun) (s : State) : (setSlotRun n r s).enableReturn = s.enableReturn := by unfold setSlotRun; rfl
@[simp] theorem setSlotRun_cmpEdge (n : Nat) (r : SlotRun) (s : State) : (setSlotRun n r s).cmpEdge = s.cmpEdge := by unfold setSlotRun; rfl
@[simp] theorem setSlotRun_fireEdge (n : Nat) (r : SlotRun) (s : State) : (setSlotRun n r s).fireEdge = s.fireEdge := by unfold setSlotRun; rfl
@[simp] theorem setSlotRun_firedRoads (n : Nat) (r : SlotRun) (s : State) : (setSlotRun n r s).firedRoads = s.firedRoads := by unfold setSlotRun; rfl
@[simp] theorem setSlotRun_frozen (n : Nat) (r : SlotRun) (s : State) : (setSlotRun n r s).frozen = s.frozen := by unfold setSlotRun; rfl
@[simp] theorem setSlotRun_pulses (n : Nat) (r : SlotRun) (s : State) : (setSlotRun n r s).pulses = s.pulses := by unfold setSlotRun; rfl
@[simp] theorem setSlotRun_snapCount (n : Nat) (r : SlotRun) (s : State) : (setSlotRun n r s).snapCount = s.snapCount := by unfold setSlotRun; rfl
@[simp] theorem setSlotRun_snapAt (n : Nat) (r : SlotRun) (s : State) : (setSlotRun n r s).snapAt = s.snapAt := by unfold setSlotRun; rfl
@[simp] theorem setSlotRun_trackers (n : Nat) (r : SlotRun) (s : State) : (setSlotRun n r s).trackers = s.trackers := by unfold setSlotRun; rfl
@[simp] theorem setSlotRun_mfeSeq (n : Nat) (r : SlotRun) (s : State) : (setSlotRun n r s).mfeSeq = s.mfeSeq := by unfold setSlotRun; rfl
@[simp] theorem setSlotRun_mfeDiscard (n : Nat) (r : SlotRun) (s : State) : (setSlotRun n r s).mfeDiscard = s.mfeDiscard := by unfold setSlotRun; rfl
@[simp] theorem setSlotRun_mfeStuck (n : Nat) (r : SlotRun) (s : State) : (setSlotRun n r s).mfeStuck = s.mfeStuck := by unfold setSlotRun; rfl
@[simp] theorem setSlotRun_shafts (n : Nat) (r : SlotRun) (s : State) : (setSlotRun n r s).shafts = s.shafts := by unfold setSlotRun; rfl
@[simp] theorem setSlotRun_lanes (n : Nat) (r : SlotRun) (s : State) : (setSlotRun n r s).lanes = s.lanes := by unfold setSlotRun; rfl
@[simp] theorem setSlotRun_districts (n : Nat) (r : SlotRun) (s : State) : (setSlotRun n r s).districts = s.districts := by unfold setSlotRun; rfl
@[simp] theorem setSlotRun_ports (n : Nat) (r : SlotRun) (s : State) : (setSlotRun n r s).ports = s.ports := by unfold setSlotRun; rfl
@[simp] theorem setSlotRun_macs (n : Nat) (r : SlotRun) (s : State) : (setSlotRun n r s).macs = s.macs := by unfold setSlotRun; rfl
@[simp] theorem setSlotRun_jct (n : Nat) (r : SlotRun) (s : State) : (setSlotRun n r s).jct = s.jct := by unfold setSlotRun; rfl
@[simp] theorem setSlotRun_tpk (n : Nat) (r : SlotRun) (s : State) : (setSlotRun n r s).tpk = s.tpk := by unfold setSlotRun; rfl
@[simp] theorem setSlotRun_freP (n : Nat) (r : SlotRun) (s : State) : (setSlotRun n r s).freP = s.freP := by unfold setSlotRun; rfl
@[simp] theorem setSlotRun_freD (n : Nat) (r : SlotRun) (s : State) : (setSlotRun n r s).freD = s.freD := by unfold setSlotRun; rfl
@[simp] theorem setSlotRun_queues (n : Nat) (r : SlotRun) (s : State) : (setSlotRun n r s).queues = s.queues := by unfold setSlotRun; rfl
@[simp] theorem setSlotRun_dmaHeld (n : Nat) (r : SlotRun) (s : State) : (setSlotRun n r s).dmaHeld = s.dmaHeld := by unfold setSlotRun; rfl
@[simp] theorem setSlotRun_dmaEdge (n : Nat) (r : SlotRun) (s : State) : (setSlotRun n r s).dmaEdge = s.dmaEdge := by unfold setSlotRun; rfl
@[simp] theorem setSlotRun_wrrCur (n : Nat) (r : SlotRun) (s : State) : (setSlotRun n r s).wrrCur = s.wrrCur := by unfold setSlotRun; rfl
@[simp] theorem setSlotRun_wrrLeft (n : Nat) (r : SlotRun) (s : State) : (setSlotRun n r s).wrrLeft = s.wrrLeft := by unfold setSlotRun; rfl
@[simp] theorem setSlotRun_wrrVisits (n : Nat) (r : SlotRun) (s : State) : (setSlotRun n r s).wrrVisits = s.wrrVisits := by unfold setSlotRun; rfl
@[simp] theorem setSlotRun_flt (n : Nat) (r : SlotRun) (s : State) : (setSlotRun n r s).flt = s.flt := by unfold setSlotRun; rfl
@[simp] theorem setSlotRun_jnl (n : Nat) (r : SlotRun) (s : State) : (setSlotRun n r s).jnl = s.jnl := by unfold setSlotRun; rfl
@[simp] theorem setSlotRun_twn (n : Nat) (r : SlotRun) (s : State) : (setSlotRun n r s).twn = s.twn := by unfold setSlotRun; rfl
@[simp] theorem setSlotRun_stp (n : Nat) (r : SlotRun) (s : State) : (setSlotRun n r s).stp = s.stp := by unfold setSlotRun; rfl
@[simp] theorem setSlotRun_hie (n : Nat) (r : SlotRun) (s : State) : (setSlotRun n r s).hie = s.hie := by unfold setSlotRun; rfl
@[simp] theorem setSlotRun_wpt (n : Nat) (r : SlotRun) (s : State) : (setSlotRun n r s).wpt = s.wpt := by unfold setSlotRun; rfl
@[simp] theorem setSlotRun_img (n : Nat) (r : SlotRun) (s : State) : (setSlotRun n r s).img = s.img := by unfold setSlotRun; rfl
@[simp] theorem setSlotRun_sys (n : Nat) (r : SlotRun) (s : State) : (setSlotRun n r s).sys = s.sys := by unfold setSlotRun; rfl
@[simp] theorem setSlotRun_draws (n : Nat) (r : SlotRun) (s : State) : (setSlotRun n r s).draws = s.draws := by unfold setSlotRun; rfl
@[simp] theorem slotRun_setSlotRun (n : Nat) (r) (s : State) : slotRun n (setSlotRun n r s) = r := by
  unfold slotRun setSlotRun; exact sget_sset_same _ _ _ _
theorem slotRun_setSlotRun_other (n m : Nat) (r) (s : State) (h : m ≠ n) : slotRun m (setSlotRun n r s) = slotRun m s := by
  unfold slotRun setSlotRun; exact sget_sset_other _ _ _ _ _ _ h

/-! ### setTracker -/

@[simp] theorem setTracker_pending (n : Nat) (r : Tracker) (s : State) : (setTracker n r s).pending = s.pending := by unfold setTracker; rfl
@[simp] theorem setTracker_regs (n : Nat) (r : Tracker) (s : State) : (setTracker n r s).regs = s.regs := by unfold setTracker; rfl
@[simp] theorem setTracker_mem (n : Nat) (r : Tracker) (s : State) : (setTracker n r s).mem = s.mem := by unfold setTracker; rfl
@[simp] theorem setTracker_mp (n : Nat) (r : Tracker) (s : State) : (setTracker n r s).mp = s.mp := by unfold setTracker; rfl
@[simp] theorem setTracker_roads (n : Nat) (r : Tracker) (s : State) : (setTracker n r s).roads = s.roads := by unfold setTracker; rfl
@[simp] theorem setTracker_ingest (n : Nat) (r : Tracker) (s : State) : (setTracker n r s).ingest = s.ingest := by unfold setTracker; rfl
@[simp] theorem setTracker_ingestEdge (n : Nat) (r : Tracker) (s : State) : (setTracker n r s).ingestEdge = s.ingestEdge := by unfold setTracker; rfl
@[simp] theorem setTracker_ingested (n : Nat) (r : Tracker) (s : State) : (setTracker n r s).ingested = s.ingested := by unfold setTracker; rfl
@[simp] theorem setTracker_arriveEdge (n : Nat) (r : Tracker) (s : State) : (setTracker n r s).arriveEdge = s.arriveEdge := by unfold setTracker; rfl
@[simp] theorem setTracker_arriveCount (n : Nat) (r : Tracker) (s : State) : (setTracker n r s).arriveCount = s.arriveCount := by unfold setTracker; rfl
@[simp] theorem setTracker_heldEdge (n : Nat) (r : Tracker) (s : State) : (setTracker n r s).heldEdge = s.heldEdge := by unfold setTracker; rfl
@[simp] theorem setTracker_held (n : Nat) (r : Tracker) (s : State) : (setTracker n r s).held = s.held := by unfold setTracker; rfl
@[simp] theorem setTracker_recs (n : Nat) (r : Tracker) (s : State) : (setTracker n r s).recs = s.recs := by unfold setTracker; rfl
@[simp] theorem setTracker_recRun (n : Nat) (r : Tracker) (s : State) : (setTracker n r s).recRun = s.recRun := by unfold setTracker; rfl
@[simp] theorem setTracker_commits (n : Nat) (r : Tracker) (s : State) : (setTracker n r s).commits = s.commits := by unfold setTracker; rfl
@[simp] theorem setTracker_rungEdge (n : Nat) (r : Tracker) (s : State) : (setTracker n r s).rungEdge = s.rungEdge := by unfold setTracker; rfl
@[simp] theorem setTracker_rungQueues (n : Nat) (r : Tracker) (s : State) : (setTracker n r s).rungQueues = s.rungQueues := by unfold setTracker; rfl
@[simp] theorem setTracker_lastServed (n : Nat) (r : Tracker) (s : State) : (setTracker n r s).lastServed = s.lastServed := by unfold setTracker; rfl
@[simp] theorem setTracker_enableReturn (n : Nat) (r : Tracker) (s : State) : (setTracker n r s).enableReturn = s.enableReturn := by unfold setTracker; rfl
@[simp] theorem setTracker_cmpEdge (n : Nat) (r : Tracker) (s : State) : (setTracker n r s).cmpEdge = s.cmpEdge := by unfold setTracker; rfl
@[simp] theorem setTracker_fireEdge (n : Nat) (r : Tracker) (s : State) : (setTracker n r s).fireEdge = s.fireEdge := by unfold setTracker; rfl
@[simp] theorem setTracker_firedRoads (n : Nat) (r : Tracker) (s : State) : (setTracker n r s).firedRoads = s.firedRoads := by unfold setTracker; rfl
@[simp] theorem setTracker_frozen (n : Nat) (r : Tracker) (s : State) : (setTracker n r s).frozen = s.frozen := by unfold setTracker; rfl
@[simp] theorem setTracker_pulses (n : Nat) (r : Tracker) (s : State) : (setTracker n r s).pulses = s.pulses := by unfold setTracker; rfl
@[simp] theorem setTracker_snapCount (n : Nat) (r : Tracker) (s : State) : (setTracker n r s).snapCount = s.snapCount := by unfold setTracker; rfl
@[simp] theorem setTracker_snapAt (n : Nat) (r : Tracker) (s : State) : (setTracker n r s).snapAt = s.snapAt := by unfold setTracker; rfl
@[simp] theorem setTracker_slots (n : Nat) (r : Tracker) (s : State) : (setTracker n r s).slots = s.slots := by unfold setTracker; rfl
@[simp] theorem setTracker_mfeSeq (n : Nat) (r : Tracker) (s : State) : (setTracker n r s).mfeSeq = s.mfeSeq := by unfold setTracker; rfl
@[simp] theorem setTracker_mfeDiscard (n : Nat) (r : Tracker) (s : State) : (setTracker n r s).mfeDiscard = s.mfeDiscard := by unfold setTracker; rfl
@[simp] theorem setTracker_mfeStuck (n : Nat) (r : Tracker) (s : State) : (setTracker n r s).mfeStuck = s.mfeStuck := by unfold setTracker; rfl
@[simp] theorem setTracker_shafts (n : Nat) (r : Tracker) (s : State) : (setTracker n r s).shafts = s.shafts := by unfold setTracker; rfl
@[simp] theorem setTracker_lanes (n : Nat) (r : Tracker) (s : State) : (setTracker n r s).lanes = s.lanes := by unfold setTracker; rfl
@[simp] theorem setTracker_districts (n : Nat) (r : Tracker) (s : State) : (setTracker n r s).districts = s.districts := by unfold setTracker; rfl
@[simp] theorem setTracker_ports (n : Nat) (r : Tracker) (s : State) : (setTracker n r s).ports = s.ports := by unfold setTracker; rfl
@[simp] theorem setTracker_macs (n : Nat) (r : Tracker) (s : State) : (setTracker n r s).macs = s.macs := by unfold setTracker; rfl
@[simp] theorem setTracker_jct (n : Nat) (r : Tracker) (s : State) : (setTracker n r s).jct = s.jct := by unfold setTracker; rfl
@[simp] theorem setTracker_tpk (n : Nat) (r : Tracker) (s : State) : (setTracker n r s).tpk = s.tpk := by unfold setTracker; rfl
@[simp] theorem setTracker_freP (n : Nat) (r : Tracker) (s : State) : (setTracker n r s).freP = s.freP := by unfold setTracker; rfl
@[simp] theorem setTracker_freD (n : Nat) (r : Tracker) (s : State) : (setTracker n r s).freD = s.freD := by unfold setTracker; rfl
@[simp] theorem setTracker_queues (n : Nat) (r : Tracker) (s : State) : (setTracker n r s).queues = s.queues := by unfold setTracker; rfl
@[simp] theorem setTracker_dmaHeld (n : Nat) (r : Tracker) (s : State) : (setTracker n r s).dmaHeld = s.dmaHeld := by unfold setTracker; rfl
@[simp] theorem setTracker_dmaEdge (n : Nat) (r : Tracker) (s : State) : (setTracker n r s).dmaEdge = s.dmaEdge := by unfold setTracker; rfl
@[simp] theorem setTracker_wrrCur (n : Nat) (r : Tracker) (s : State) : (setTracker n r s).wrrCur = s.wrrCur := by unfold setTracker; rfl
@[simp] theorem setTracker_wrrLeft (n : Nat) (r : Tracker) (s : State) : (setTracker n r s).wrrLeft = s.wrrLeft := by unfold setTracker; rfl
@[simp] theorem setTracker_wrrVisits (n : Nat) (r : Tracker) (s : State) : (setTracker n r s).wrrVisits = s.wrrVisits := by unfold setTracker; rfl
@[simp] theorem setTracker_flt (n : Nat) (r : Tracker) (s : State) : (setTracker n r s).flt = s.flt := by unfold setTracker; rfl
@[simp] theorem setTracker_jnl (n : Nat) (r : Tracker) (s : State) : (setTracker n r s).jnl = s.jnl := by unfold setTracker; rfl
@[simp] theorem setTracker_twn (n : Nat) (r : Tracker) (s : State) : (setTracker n r s).twn = s.twn := by unfold setTracker; rfl
@[simp] theorem setTracker_stp (n : Nat) (r : Tracker) (s : State) : (setTracker n r s).stp = s.stp := by unfold setTracker; rfl
@[simp] theorem setTracker_hie (n : Nat) (r : Tracker) (s : State) : (setTracker n r s).hie = s.hie := by unfold setTracker; rfl
@[simp] theorem setTracker_wpt (n : Nat) (r : Tracker) (s : State) : (setTracker n r s).wpt = s.wpt := by unfold setTracker; rfl
@[simp] theorem setTracker_img (n : Nat) (r : Tracker) (s : State) : (setTracker n r s).img = s.img := by unfold setTracker; rfl
@[simp] theorem setTracker_sys (n : Nat) (r : Tracker) (s : State) : (setTracker n r s).sys = s.sys := by unfold setTracker; rfl
@[simp] theorem setTracker_draws (n : Nat) (r : Tracker) (s : State) : (setTracker n r s).draws = s.draws := by unfold setTracker; rfl
@[simp] theorem tracker_setTracker (n : Nat) (r) (s : State) : tracker n (setTracker n r s) = r := by
  unfold tracker setTracker; exact sget_sset_same _ _ _ _
theorem tracker_setTracker_other (n m : Nat) (r) (s : State) (h : m ≠ n) : tracker m (setTracker n r s) = tracker m s := by
  unfold tracker setTracker; exact sget_sset_other _ _ _ _ _ _ h

/-! ### setShaft -/

@[simp] theorem setShaft_pending (n : Nat) (r : Shaft) (s : State) : (setShaft n r s).pending = s.pending := by unfold setShaft; rfl
@[simp] theorem setShaft_regs (n : Nat) (r : Shaft) (s : State) : (setShaft n r s).regs = s.regs := by unfold setShaft; rfl
@[simp] theorem setShaft_mem (n : Nat) (r : Shaft) (s : State) : (setShaft n r s).mem = s.mem := by unfold setShaft; rfl
@[simp] theorem setShaft_mp (n : Nat) (r : Shaft) (s : State) : (setShaft n r s).mp = s.mp := by unfold setShaft; rfl
@[simp] theorem setShaft_roads (n : Nat) (r : Shaft) (s : State) : (setShaft n r s).roads = s.roads := by unfold setShaft; rfl
@[simp] theorem setShaft_ingest (n : Nat) (r : Shaft) (s : State) : (setShaft n r s).ingest = s.ingest := by unfold setShaft; rfl
@[simp] theorem setShaft_ingestEdge (n : Nat) (r : Shaft) (s : State) : (setShaft n r s).ingestEdge = s.ingestEdge := by unfold setShaft; rfl
@[simp] theorem setShaft_ingested (n : Nat) (r : Shaft) (s : State) : (setShaft n r s).ingested = s.ingested := by unfold setShaft; rfl
@[simp] theorem setShaft_arriveEdge (n : Nat) (r : Shaft) (s : State) : (setShaft n r s).arriveEdge = s.arriveEdge := by unfold setShaft; rfl
@[simp] theorem setShaft_arriveCount (n : Nat) (r : Shaft) (s : State) : (setShaft n r s).arriveCount = s.arriveCount := by unfold setShaft; rfl
@[simp] theorem setShaft_heldEdge (n : Nat) (r : Shaft) (s : State) : (setShaft n r s).heldEdge = s.heldEdge := by unfold setShaft; rfl
@[simp] theorem setShaft_held (n : Nat) (r : Shaft) (s : State) : (setShaft n r s).held = s.held := by unfold setShaft; rfl
@[simp] theorem setShaft_recs (n : Nat) (r : Shaft) (s : State) : (setShaft n r s).recs = s.recs := by unfold setShaft; rfl
@[simp] theorem setShaft_recRun (n : Nat) (r : Shaft) (s : State) : (setShaft n r s).recRun = s.recRun := by unfold setShaft; rfl
@[simp] theorem setShaft_commits (n : Nat) (r : Shaft) (s : State) : (setShaft n r s).commits = s.commits := by unfold setShaft; rfl
@[simp] theorem setShaft_rungEdge (n : Nat) (r : Shaft) (s : State) : (setShaft n r s).rungEdge = s.rungEdge := by unfold setShaft; rfl
@[simp] theorem setShaft_rungQueues (n : Nat) (r : Shaft) (s : State) : (setShaft n r s).rungQueues = s.rungQueues := by unfold setShaft; rfl
@[simp] theorem setShaft_lastServed (n : Nat) (r : Shaft) (s : State) : (setShaft n r s).lastServed = s.lastServed := by unfold setShaft; rfl
@[simp] theorem setShaft_enableReturn (n : Nat) (r : Shaft) (s : State) : (setShaft n r s).enableReturn = s.enableReturn := by unfold setShaft; rfl
@[simp] theorem setShaft_cmpEdge (n : Nat) (r : Shaft) (s : State) : (setShaft n r s).cmpEdge = s.cmpEdge := by unfold setShaft; rfl
@[simp] theorem setShaft_fireEdge (n : Nat) (r : Shaft) (s : State) : (setShaft n r s).fireEdge = s.fireEdge := by unfold setShaft; rfl
@[simp] theorem setShaft_firedRoads (n : Nat) (r : Shaft) (s : State) : (setShaft n r s).firedRoads = s.firedRoads := by unfold setShaft; rfl
@[simp] theorem setShaft_frozen (n : Nat) (r : Shaft) (s : State) : (setShaft n r s).frozen = s.frozen := by unfold setShaft; rfl
@[simp] theorem setShaft_pulses (n : Nat) (r : Shaft) (s : State) : (setShaft n r s).pulses = s.pulses := by unfold setShaft; rfl
@[simp] theorem setShaft_snapCount (n : Nat) (r : Shaft) (s : State) : (setShaft n r s).snapCount = s.snapCount := by unfold setShaft; rfl
@[simp] theorem setShaft_snapAt (n : Nat) (r : Shaft) (s : State) : (setShaft n r s).snapAt = s.snapAt := by unfold setShaft; rfl
@[simp] theorem setShaft_slots (n : Nat) (r : Shaft) (s : State) : (setShaft n r s).slots = s.slots := by unfold setShaft; rfl
@[simp] theorem setShaft_trackers (n : Nat) (r : Shaft) (s : State) : (setShaft n r s).trackers = s.trackers := by unfold setShaft; rfl
@[simp] theorem setShaft_mfeSeq (n : Nat) (r : Shaft) (s : State) : (setShaft n r s).mfeSeq = s.mfeSeq := by unfold setShaft; rfl
@[simp] theorem setShaft_mfeDiscard (n : Nat) (r : Shaft) (s : State) : (setShaft n r s).mfeDiscard = s.mfeDiscard := by unfold setShaft; rfl
@[simp] theorem setShaft_mfeStuck (n : Nat) (r : Shaft) (s : State) : (setShaft n r s).mfeStuck = s.mfeStuck := by unfold setShaft; rfl
@[simp] theorem setShaft_lanes (n : Nat) (r : Shaft) (s : State) : (setShaft n r s).lanes = s.lanes := by unfold setShaft; rfl
@[simp] theorem setShaft_districts (n : Nat) (r : Shaft) (s : State) : (setShaft n r s).districts = s.districts := by unfold setShaft; rfl
@[simp] theorem setShaft_ports (n : Nat) (r : Shaft) (s : State) : (setShaft n r s).ports = s.ports := by unfold setShaft; rfl
@[simp] theorem setShaft_macs (n : Nat) (r : Shaft) (s : State) : (setShaft n r s).macs = s.macs := by unfold setShaft; rfl
@[simp] theorem setShaft_jct (n : Nat) (r : Shaft) (s : State) : (setShaft n r s).jct = s.jct := by unfold setShaft; rfl
@[simp] theorem setShaft_tpk (n : Nat) (r : Shaft) (s : State) : (setShaft n r s).tpk = s.tpk := by unfold setShaft; rfl
@[simp] theorem setShaft_freP (n : Nat) (r : Shaft) (s : State) : (setShaft n r s).freP = s.freP := by unfold setShaft; rfl
@[simp] theorem setShaft_freD (n : Nat) (r : Shaft) (s : State) : (setShaft n r s).freD = s.freD := by unfold setShaft; rfl
@[simp] theorem setShaft_queues (n : Nat) (r : Shaft) (s : State) : (setShaft n r s).queues = s.queues := by unfold setShaft; rfl
@[simp] theorem setShaft_dmaHeld (n : Nat) (r : Shaft) (s : State) : (setShaft n r s).dmaHeld = s.dmaHeld := by unfold setShaft; rfl
@[simp] theorem setShaft_dmaEdge (n : Nat) (r : Shaft) (s : State) : (setShaft n r s).dmaEdge = s.dmaEdge := by unfold setShaft; rfl
@[simp] theorem setShaft_wrrCur (n : Nat) (r : Shaft) (s : State) : (setShaft n r s).wrrCur = s.wrrCur := by unfold setShaft; rfl
@[simp] theorem setShaft_wrrLeft (n : Nat) (r : Shaft) (s : State) : (setShaft n r s).wrrLeft = s.wrrLeft := by unfold setShaft; rfl
@[simp] theorem setShaft_wrrVisits (n : Nat) (r : Shaft) (s : State) : (setShaft n r s).wrrVisits = s.wrrVisits := by unfold setShaft; rfl
@[simp] theorem setShaft_flt (n : Nat) (r : Shaft) (s : State) : (setShaft n r s).flt = s.flt := by unfold setShaft; rfl
@[simp] theorem setShaft_jnl (n : Nat) (r : Shaft) (s : State) : (setShaft n r s).jnl = s.jnl := by unfold setShaft; rfl
@[simp] theorem setShaft_twn (n : Nat) (r : Shaft) (s : State) : (setShaft n r s).twn = s.twn := by unfold setShaft; rfl
@[simp] theorem setShaft_stp (n : Nat) (r : Shaft) (s : State) : (setShaft n r s).stp = s.stp := by unfold setShaft; rfl
@[simp] theorem setShaft_hie (n : Nat) (r : Shaft) (s : State) : (setShaft n r s).hie = s.hie := by unfold setShaft; rfl
@[simp] theorem setShaft_wpt (n : Nat) (r : Shaft) (s : State) : (setShaft n r s).wpt = s.wpt := by unfold setShaft; rfl
@[simp] theorem setShaft_img (n : Nat) (r : Shaft) (s : State) : (setShaft n r s).img = s.img := by unfold setShaft; rfl
@[simp] theorem setShaft_sys (n : Nat) (r : Shaft) (s : State) : (setShaft n r s).sys = s.sys := by unfold setShaft; rfl
@[simp] theorem setShaft_draws (n : Nat) (r : Shaft) (s : State) : (setShaft n r s).draws = s.draws := by unfold setShaft; rfl
@[simp] theorem shaft_setShaft (n : Nat) (r) (s : State) : shaft n (setShaft n r s) = r := by
  unfold shaft setShaft; exact sget_sset_same _ _ _ _
theorem shaft_setShaft_other (n m : Nat) (r) (s : State) (h : m ≠ n) : shaft m (setShaft n r s) = shaft m s := by
  unfold shaft setShaft; exact sget_sset_other _ _ _ _ _ _ h

/-! ### setLane -/

@[simp] theorem setLane_pending (n : Nat) (r : LaneState) (s : State) : (setLane n r s).pending = s.pending := by unfold setLane; rfl
@[simp] theorem setLane_regs (n : Nat) (r : LaneState) (s : State) : (setLane n r s).regs = s.regs := by unfold setLane; rfl
@[simp] theorem setLane_mem (n : Nat) (r : LaneState) (s : State) : (setLane n r s).mem = s.mem := by unfold setLane; rfl
@[simp] theorem setLane_mp (n : Nat) (r : LaneState) (s : State) : (setLane n r s).mp = s.mp := by unfold setLane; rfl
@[simp] theorem setLane_roads (n : Nat) (r : LaneState) (s : State) : (setLane n r s).roads = s.roads := by unfold setLane; rfl
@[simp] theorem setLane_ingest (n : Nat) (r : LaneState) (s : State) : (setLane n r s).ingest = s.ingest := by unfold setLane; rfl
@[simp] theorem setLane_ingestEdge (n : Nat) (r : LaneState) (s : State) : (setLane n r s).ingestEdge = s.ingestEdge := by unfold setLane; rfl
@[simp] theorem setLane_ingested (n : Nat) (r : LaneState) (s : State) : (setLane n r s).ingested = s.ingested := by unfold setLane; rfl
@[simp] theorem setLane_arriveEdge (n : Nat) (r : LaneState) (s : State) : (setLane n r s).arriveEdge = s.arriveEdge := by unfold setLane; rfl
@[simp] theorem setLane_arriveCount (n : Nat) (r : LaneState) (s : State) : (setLane n r s).arriveCount = s.arriveCount := by unfold setLane; rfl
@[simp] theorem setLane_heldEdge (n : Nat) (r : LaneState) (s : State) : (setLane n r s).heldEdge = s.heldEdge := by unfold setLane; rfl
@[simp] theorem setLane_held (n : Nat) (r : LaneState) (s : State) : (setLane n r s).held = s.held := by unfold setLane; rfl
@[simp] theorem setLane_recs (n : Nat) (r : LaneState) (s : State) : (setLane n r s).recs = s.recs := by unfold setLane; rfl
@[simp] theorem setLane_recRun (n : Nat) (r : LaneState) (s : State) : (setLane n r s).recRun = s.recRun := by unfold setLane; rfl
@[simp] theorem setLane_commits (n : Nat) (r : LaneState) (s : State) : (setLane n r s).commits = s.commits := by unfold setLane; rfl
@[simp] theorem setLane_rungEdge (n : Nat) (r : LaneState) (s : State) : (setLane n r s).rungEdge = s.rungEdge := by unfold setLane; rfl
@[simp] theorem setLane_rungQueues (n : Nat) (r : LaneState) (s : State) : (setLane n r s).rungQueues = s.rungQueues := by unfold setLane; rfl
@[simp] theorem setLane_lastServed (n : Nat) (r : LaneState) (s : State) : (setLane n r s).lastServed = s.lastServed := by unfold setLane; rfl
@[simp] theorem setLane_enableReturn (n : Nat) (r : LaneState) (s : State) : (setLane n r s).enableReturn = s.enableReturn := by unfold setLane; rfl
@[simp] theorem setLane_cmpEdge (n : Nat) (r : LaneState) (s : State) : (setLane n r s).cmpEdge = s.cmpEdge := by unfold setLane; rfl
@[simp] theorem setLane_fireEdge (n : Nat) (r : LaneState) (s : State) : (setLane n r s).fireEdge = s.fireEdge := by unfold setLane; rfl
@[simp] theorem setLane_firedRoads (n : Nat) (r : LaneState) (s : State) : (setLane n r s).firedRoads = s.firedRoads := by unfold setLane; rfl
@[simp] theorem setLane_frozen (n : Nat) (r : LaneState) (s : State) : (setLane n r s).frozen = s.frozen := by unfold setLane; rfl
@[simp] theorem setLane_pulses (n : Nat) (r : LaneState) (s : State) : (setLane n r s).pulses = s.pulses := by unfold setLane; rfl
@[simp] theorem setLane_snapCount (n : Nat) (r : LaneState) (s : State) : (setLane n r s).snapCount = s.snapCount := by unfold setLane; rfl
@[simp] theorem setLane_snapAt (n : Nat) (r : LaneState) (s : State) : (setLane n r s).snapAt = s.snapAt := by unfold setLane; rfl
@[simp] theorem setLane_slots (n : Nat) (r : LaneState) (s : State) : (setLane n r s).slots = s.slots := by unfold setLane; rfl
@[simp] theorem setLane_trackers (n : Nat) (r : LaneState) (s : State) : (setLane n r s).trackers = s.trackers := by unfold setLane; rfl
@[simp] theorem setLane_mfeSeq (n : Nat) (r : LaneState) (s : State) : (setLane n r s).mfeSeq = s.mfeSeq := by unfold setLane; rfl
@[simp] theorem setLane_mfeDiscard (n : Nat) (r : LaneState) (s : State) : (setLane n r s).mfeDiscard = s.mfeDiscard := by unfold setLane; rfl
@[simp] theorem setLane_mfeStuck (n : Nat) (r : LaneState) (s : State) : (setLane n r s).mfeStuck = s.mfeStuck := by unfold setLane; rfl
@[simp] theorem setLane_shafts (n : Nat) (r : LaneState) (s : State) : (setLane n r s).shafts = s.shafts := by unfold setLane; rfl
@[simp] theorem setLane_districts (n : Nat) (r : LaneState) (s : State) : (setLane n r s).districts = s.districts := by unfold setLane; rfl
@[simp] theorem setLane_ports (n : Nat) (r : LaneState) (s : State) : (setLane n r s).ports = s.ports := by unfold setLane; rfl
@[simp] theorem setLane_macs (n : Nat) (r : LaneState) (s : State) : (setLane n r s).macs = s.macs := by unfold setLane; rfl
@[simp] theorem setLane_jct (n : Nat) (r : LaneState) (s : State) : (setLane n r s).jct = s.jct := by unfold setLane; rfl
@[simp] theorem setLane_tpk (n : Nat) (r : LaneState) (s : State) : (setLane n r s).tpk = s.tpk := by unfold setLane; rfl
@[simp] theorem setLane_freP (n : Nat) (r : LaneState) (s : State) : (setLane n r s).freP = s.freP := by unfold setLane; rfl
@[simp] theorem setLane_freD (n : Nat) (r : LaneState) (s : State) : (setLane n r s).freD = s.freD := by unfold setLane; rfl
@[simp] theorem setLane_queues (n : Nat) (r : LaneState) (s : State) : (setLane n r s).queues = s.queues := by unfold setLane; rfl
@[simp] theorem setLane_dmaHeld (n : Nat) (r : LaneState) (s : State) : (setLane n r s).dmaHeld = s.dmaHeld := by unfold setLane; rfl
@[simp] theorem setLane_dmaEdge (n : Nat) (r : LaneState) (s : State) : (setLane n r s).dmaEdge = s.dmaEdge := by unfold setLane; rfl
@[simp] theorem setLane_wrrCur (n : Nat) (r : LaneState) (s : State) : (setLane n r s).wrrCur = s.wrrCur := by unfold setLane; rfl
@[simp] theorem setLane_wrrLeft (n : Nat) (r : LaneState) (s : State) : (setLane n r s).wrrLeft = s.wrrLeft := by unfold setLane; rfl
@[simp] theorem setLane_wrrVisits (n : Nat) (r : LaneState) (s : State) : (setLane n r s).wrrVisits = s.wrrVisits := by unfold setLane; rfl
@[simp] theorem setLane_flt (n : Nat) (r : LaneState) (s : State) : (setLane n r s).flt = s.flt := by unfold setLane; rfl
@[simp] theorem setLane_jnl (n : Nat) (r : LaneState) (s : State) : (setLane n r s).jnl = s.jnl := by unfold setLane; rfl
@[simp] theorem setLane_twn (n : Nat) (r : LaneState) (s : State) : (setLane n r s).twn = s.twn := by unfold setLane; rfl
@[simp] theorem setLane_stp (n : Nat) (r : LaneState) (s : State) : (setLane n r s).stp = s.stp := by unfold setLane; rfl
@[simp] theorem setLane_hie (n : Nat) (r : LaneState) (s : State) : (setLane n r s).hie = s.hie := by unfold setLane; rfl
@[simp] theorem setLane_wpt (n : Nat) (r : LaneState) (s : State) : (setLane n r s).wpt = s.wpt := by unfold setLane; rfl
@[simp] theorem setLane_img (n : Nat) (r : LaneState) (s : State) : (setLane n r s).img = s.img := by unfold setLane; rfl
@[simp] theorem setLane_sys (n : Nat) (r : LaneState) (s : State) : (setLane n r s).sys = s.sys := by unfold setLane; rfl
@[simp] theorem setLane_draws (n : Nat) (r : LaneState) (s : State) : (setLane n r s).draws = s.draws := by unfold setLane; rfl
@[simp] theorem lane_setLane (n : Nat) (r) (s : State) : lane n (setLane n r s) = r := by
  unfold lane setLane; exact sget_sset_same _ _ _ _
theorem lane_setLane_other (n m : Nat) (r) (s : State) (h : m ≠ n) : lane m (setLane n r s) = lane m s := by
  unfold lane setLane; exact sget_sset_other _ _ _ _ _ _ h

/-! ### setDistrict -/

@[simp] theorem setDistrict_pending (n : Nat) (r : DistrictRun) (s : State) : (setDistrict n r s).pending = s.pending := by unfold setDistrict; rfl
@[simp] theorem setDistrict_regs (n : Nat) (r : DistrictRun) (s : State) : (setDistrict n r s).regs = s.regs := by unfold setDistrict; rfl
@[simp] theorem setDistrict_mem (n : Nat) (r : DistrictRun) (s : State) : (setDistrict n r s).mem = s.mem := by unfold setDistrict; rfl
@[simp] theorem setDistrict_mp (n : Nat) (r : DistrictRun) (s : State) : (setDistrict n r s).mp = s.mp := by unfold setDistrict; rfl
@[simp] theorem setDistrict_roads (n : Nat) (r : DistrictRun) (s : State) : (setDistrict n r s).roads = s.roads := by unfold setDistrict; rfl
@[simp] theorem setDistrict_ingest (n : Nat) (r : DistrictRun) (s : State) : (setDistrict n r s).ingest = s.ingest := by unfold setDistrict; rfl
@[simp] theorem setDistrict_ingestEdge (n : Nat) (r : DistrictRun) (s : State) : (setDistrict n r s).ingestEdge = s.ingestEdge := by unfold setDistrict; rfl
@[simp] theorem setDistrict_ingested (n : Nat) (r : DistrictRun) (s : State) : (setDistrict n r s).ingested = s.ingested := by unfold setDistrict; rfl
@[simp] theorem setDistrict_arriveEdge (n : Nat) (r : DistrictRun) (s : State) : (setDistrict n r s).arriveEdge = s.arriveEdge := by unfold setDistrict; rfl
@[simp] theorem setDistrict_arriveCount (n : Nat) (r : DistrictRun) (s : State) : (setDistrict n r s).arriveCount = s.arriveCount := by unfold setDistrict; rfl
@[simp] theorem setDistrict_heldEdge (n : Nat) (r : DistrictRun) (s : State) : (setDistrict n r s).heldEdge = s.heldEdge := by unfold setDistrict; rfl
@[simp] theorem setDistrict_held (n : Nat) (r : DistrictRun) (s : State) : (setDistrict n r s).held = s.held := by unfold setDistrict; rfl
@[simp] theorem setDistrict_recs (n : Nat) (r : DistrictRun) (s : State) : (setDistrict n r s).recs = s.recs := by unfold setDistrict; rfl
@[simp] theorem setDistrict_recRun (n : Nat) (r : DistrictRun) (s : State) : (setDistrict n r s).recRun = s.recRun := by unfold setDistrict; rfl
@[simp] theorem setDistrict_commits (n : Nat) (r : DistrictRun) (s : State) : (setDistrict n r s).commits = s.commits := by unfold setDistrict; rfl
@[simp] theorem setDistrict_rungEdge (n : Nat) (r : DistrictRun) (s : State) : (setDistrict n r s).rungEdge = s.rungEdge := by unfold setDistrict; rfl
@[simp] theorem setDistrict_rungQueues (n : Nat) (r : DistrictRun) (s : State) : (setDistrict n r s).rungQueues = s.rungQueues := by unfold setDistrict; rfl
@[simp] theorem setDistrict_lastServed (n : Nat) (r : DistrictRun) (s : State) : (setDistrict n r s).lastServed = s.lastServed := by unfold setDistrict; rfl
@[simp] theorem setDistrict_enableReturn (n : Nat) (r : DistrictRun) (s : State) : (setDistrict n r s).enableReturn = s.enableReturn := by unfold setDistrict; rfl
@[simp] theorem setDistrict_cmpEdge (n : Nat) (r : DistrictRun) (s : State) : (setDistrict n r s).cmpEdge = s.cmpEdge := by unfold setDistrict; rfl
@[simp] theorem setDistrict_fireEdge (n : Nat) (r : DistrictRun) (s : State) : (setDistrict n r s).fireEdge = s.fireEdge := by unfold setDistrict; rfl
@[simp] theorem setDistrict_firedRoads (n : Nat) (r : DistrictRun) (s : State) : (setDistrict n r s).firedRoads = s.firedRoads := by unfold setDistrict; rfl
@[simp] theorem setDistrict_frozen (n : Nat) (r : DistrictRun) (s : State) : (setDistrict n r s).frozen = s.frozen := by unfold setDistrict; rfl
@[simp] theorem setDistrict_pulses (n : Nat) (r : DistrictRun) (s : State) : (setDistrict n r s).pulses = s.pulses := by unfold setDistrict; rfl
@[simp] theorem setDistrict_snapCount (n : Nat) (r : DistrictRun) (s : State) : (setDistrict n r s).snapCount = s.snapCount := by unfold setDistrict; rfl
@[simp] theorem setDistrict_snapAt (n : Nat) (r : DistrictRun) (s : State) : (setDistrict n r s).snapAt = s.snapAt := by unfold setDistrict; rfl
@[simp] theorem setDistrict_slots (n : Nat) (r : DistrictRun) (s : State) : (setDistrict n r s).slots = s.slots := by unfold setDistrict; rfl
@[simp] theorem setDistrict_trackers (n : Nat) (r : DistrictRun) (s : State) : (setDistrict n r s).trackers = s.trackers := by unfold setDistrict; rfl
@[simp] theorem setDistrict_mfeSeq (n : Nat) (r : DistrictRun) (s : State) : (setDistrict n r s).mfeSeq = s.mfeSeq := by unfold setDistrict; rfl
@[simp] theorem setDistrict_mfeDiscard (n : Nat) (r : DistrictRun) (s : State) : (setDistrict n r s).mfeDiscard = s.mfeDiscard := by unfold setDistrict; rfl
@[simp] theorem setDistrict_mfeStuck (n : Nat) (r : DistrictRun) (s : State) : (setDistrict n r s).mfeStuck = s.mfeStuck := by unfold setDistrict; rfl
@[simp] theorem setDistrict_shafts (n : Nat) (r : DistrictRun) (s : State) : (setDistrict n r s).shafts = s.shafts := by unfold setDistrict; rfl
@[simp] theorem setDistrict_lanes (n : Nat) (r : DistrictRun) (s : State) : (setDistrict n r s).lanes = s.lanes := by unfold setDistrict; rfl
@[simp] theorem setDistrict_ports (n : Nat) (r : DistrictRun) (s : State) : (setDistrict n r s).ports = s.ports := by unfold setDistrict; rfl
@[simp] theorem setDistrict_macs (n : Nat) (r : DistrictRun) (s : State) : (setDistrict n r s).macs = s.macs := by unfold setDistrict; rfl
@[simp] theorem setDistrict_jct (n : Nat) (r : DistrictRun) (s : State) : (setDistrict n r s).jct = s.jct := by unfold setDistrict; rfl
@[simp] theorem setDistrict_tpk (n : Nat) (r : DistrictRun) (s : State) : (setDistrict n r s).tpk = s.tpk := by unfold setDistrict; rfl
@[simp] theorem setDistrict_freP (n : Nat) (r : DistrictRun) (s : State) : (setDistrict n r s).freP = s.freP := by unfold setDistrict; rfl
@[simp] theorem setDistrict_freD (n : Nat) (r : DistrictRun) (s : State) : (setDistrict n r s).freD = s.freD := by unfold setDistrict; rfl
@[simp] theorem setDistrict_queues (n : Nat) (r : DistrictRun) (s : State) : (setDistrict n r s).queues = s.queues := by unfold setDistrict; rfl
@[simp] theorem setDistrict_dmaHeld (n : Nat) (r : DistrictRun) (s : State) : (setDistrict n r s).dmaHeld = s.dmaHeld := by unfold setDistrict; rfl
@[simp] theorem setDistrict_dmaEdge (n : Nat) (r : DistrictRun) (s : State) : (setDistrict n r s).dmaEdge = s.dmaEdge := by unfold setDistrict; rfl
@[simp] theorem setDistrict_wrrCur (n : Nat) (r : DistrictRun) (s : State) : (setDistrict n r s).wrrCur = s.wrrCur := by unfold setDistrict; rfl
@[simp] theorem setDistrict_wrrLeft (n : Nat) (r : DistrictRun) (s : State) : (setDistrict n r s).wrrLeft = s.wrrLeft := by unfold setDistrict; rfl
@[simp] theorem setDistrict_wrrVisits (n : Nat) (r : DistrictRun) (s : State) : (setDistrict n r s).wrrVisits = s.wrrVisits := by unfold setDistrict; rfl
@[simp] theorem setDistrict_flt (n : Nat) (r : DistrictRun) (s : State) : (setDistrict n r s).flt = s.flt := by unfold setDistrict; rfl
@[simp] theorem setDistrict_jnl (n : Nat) (r : DistrictRun) (s : State) : (setDistrict n r s).jnl = s.jnl := by unfold setDistrict; rfl
@[simp] theorem setDistrict_twn (n : Nat) (r : DistrictRun) (s : State) : (setDistrict n r s).twn = s.twn := by unfold setDistrict; rfl
@[simp] theorem setDistrict_stp (n : Nat) (r : DistrictRun) (s : State) : (setDistrict n r s).stp = s.stp := by unfold setDistrict; rfl
@[simp] theorem setDistrict_hie (n : Nat) (r : DistrictRun) (s : State) : (setDistrict n r s).hie = s.hie := by unfold setDistrict; rfl
@[simp] theorem setDistrict_wpt (n : Nat) (r : DistrictRun) (s : State) : (setDistrict n r s).wpt = s.wpt := by unfold setDistrict; rfl
@[simp] theorem setDistrict_img (n : Nat) (r : DistrictRun) (s : State) : (setDistrict n r s).img = s.img := by unfold setDistrict; rfl
@[simp] theorem setDistrict_sys (n : Nat) (r : DistrictRun) (s : State) : (setDistrict n r s).sys = s.sys := by unfold setDistrict; rfl
@[simp] theorem setDistrict_draws (n : Nat) (r : DistrictRun) (s : State) : (setDistrict n r s).draws = s.draws := by unfold setDistrict; rfl
@[simp] theorem district_setDistrict (n : Nat) (r) (s : State) : district n (setDistrict n r s) = r := by
  unfold district setDistrict; exact sget_sset_same _ _ _ _
theorem district_setDistrict_other (n m : Nat) (r) (s : State) (h : m ≠ n) : district m (setDistrict n r s) = district m s := by
  unfold district setDistrict; exact sget_sset_other _ _ _ _ _ _ h

/-! ### setPortRun -/

@[simp] theorem setPortRun_pending (n : Nat) (r : PortRun) (s : State) : (setPortRun n r s).pending = s.pending := by unfold setPortRun; rfl
@[simp] theorem setPortRun_regs (n : Nat) (r : PortRun) (s : State) : (setPortRun n r s).regs = s.regs := by unfold setPortRun; rfl
@[simp] theorem setPortRun_mem (n : Nat) (r : PortRun) (s : State) : (setPortRun n r s).mem = s.mem := by unfold setPortRun; rfl
@[simp] theorem setPortRun_mp (n : Nat) (r : PortRun) (s : State) : (setPortRun n r s).mp = s.mp := by unfold setPortRun; rfl
@[simp] theorem setPortRun_roads (n : Nat) (r : PortRun) (s : State) : (setPortRun n r s).roads = s.roads := by unfold setPortRun; rfl
@[simp] theorem setPortRun_ingest (n : Nat) (r : PortRun) (s : State) : (setPortRun n r s).ingest = s.ingest := by unfold setPortRun; rfl
@[simp] theorem setPortRun_ingestEdge (n : Nat) (r : PortRun) (s : State) : (setPortRun n r s).ingestEdge = s.ingestEdge := by unfold setPortRun; rfl
@[simp] theorem setPortRun_ingested (n : Nat) (r : PortRun) (s : State) : (setPortRun n r s).ingested = s.ingested := by unfold setPortRun; rfl
@[simp] theorem setPortRun_arriveEdge (n : Nat) (r : PortRun) (s : State) : (setPortRun n r s).arriveEdge = s.arriveEdge := by unfold setPortRun; rfl
@[simp] theorem setPortRun_arriveCount (n : Nat) (r : PortRun) (s : State) : (setPortRun n r s).arriveCount = s.arriveCount := by unfold setPortRun; rfl
@[simp] theorem setPortRun_heldEdge (n : Nat) (r : PortRun) (s : State) : (setPortRun n r s).heldEdge = s.heldEdge := by unfold setPortRun; rfl
@[simp] theorem setPortRun_held (n : Nat) (r : PortRun) (s : State) : (setPortRun n r s).held = s.held := by unfold setPortRun; rfl
@[simp] theorem setPortRun_recs (n : Nat) (r : PortRun) (s : State) : (setPortRun n r s).recs = s.recs := by unfold setPortRun; rfl
@[simp] theorem setPortRun_recRun (n : Nat) (r : PortRun) (s : State) : (setPortRun n r s).recRun = s.recRun := by unfold setPortRun; rfl
@[simp] theorem setPortRun_commits (n : Nat) (r : PortRun) (s : State) : (setPortRun n r s).commits = s.commits := by unfold setPortRun; rfl
@[simp] theorem setPortRun_rungEdge (n : Nat) (r : PortRun) (s : State) : (setPortRun n r s).rungEdge = s.rungEdge := by unfold setPortRun; rfl
@[simp] theorem setPortRun_rungQueues (n : Nat) (r : PortRun) (s : State) : (setPortRun n r s).rungQueues = s.rungQueues := by unfold setPortRun; rfl
@[simp] theorem setPortRun_lastServed (n : Nat) (r : PortRun) (s : State) : (setPortRun n r s).lastServed = s.lastServed := by unfold setPortRun; rfl
@[simp] theorem setPortRun_enableReturn (n : Nat) (r : PortRun) (s : State) : (setPortRun n r s).enableReturn = s.enableReturn := by unfold setPortRun; rfl
@[simp] theorem setPortRun_cmpEdge (n : Nat) (r : PortRun) (s : State) : (setPortRun n r s).cmpEdge = s.cmpEdge := by unfold setPortRun; rfl
@[simp] theorem setPortRun_fireEdge (n : Nat) (r : PortRun) (s : State) : (setPortRun n r s).fireEdge = s.fireEdge := by unfold setPortRun; rfl
@[simp] theorem setPortRun_firedRoads (n : Nat) (r : PortRun) (s : State) : (setPortRun n r s).firedRoads = s.firedRoads := by unfold setPortRun; rfl
@[simp] theorem setPortRun_frozen (n : Nat) (r : PortRun) (s : State) : (setPortRun n r s).frozen = s.frozen := by unfold setPortRun; rfl
@[simp] theorem setPortRun_pulses (n : Nat) (r : PortRun) (s : State) : (setPortRun n r s).pulses = s.pulses := by unfold setPortRun; rfl
@[simp] theorem setPortRun_snapCount (n : Nat) (r : PortRun) (s : State) : (setPortRun n r s).snapCount = s.snapCount := by unfold setPortRun; rfl
@[simp] theorem setPortRun_snapAt (n : Nat) (r : PortRun) (s : State) : (setPortRun n r s).snapAt = s.snapAt := by unfold setPortRun; rfl
@[simp] theorem setPortRun_slots (n : Nat) (r : PortRun) (s : State) : (setPortRun n r s).slots = s.slots := by unfold setPortRun; rfl
@[simp] theorem setPortRun_trackers (n : Nat) (r : PortRun) (s : State) : (setPortRun n r s).trackers = s.trackers := by unfold setPortRun; rfl
@[simp] theorem setPortRun_mfeSeq (n : Nat) (r : PortRun) (s : State) : (setPortRun n r s).mfeSeq = s.mfeSeq := by unfold setPortRun; rfl
@[simp] theorem setPortRun_mfeDiscard (n : Nat) (r : PortRun) (s : State) : (setPortRun n r s).mfeDiscard = s.mfeDiscard := by unfold setPortRun; rfl
@[simp] theorem setPortRun_mfeStuck (n : Nat) (r : PortRun) (s : State) : (setPortRun n r s).mfeStuck = s.mfeStuck := by unfold setPortRun; rfl
@[simp] theorem setPortRun_shafts (n : Nat) (r : PortRun) (s : State) : (setPortRun n r s).shafts = s.shafts := by unfold setPortRun; rfl
@[simp] theorem setPortRun_lanes (n : Nat) (r : PortRun) (s : State) : (setPortRun n r s).lanes = s.lanes := by unfold setPortRun; rfl
@[simp] theorem setPortRun_districts (n : Nat) (r : PortRun) (s : State) : (setPortRun n r s).districts = s.districts := by unfold setPortRun; rfl
@[simp] theorem setPortRun_macs (n : Nat) (r : PortRun) (s : State) : (setPortRun n r s).macs = s.macs := by unfold setPortRun; rfl
@[simp] theorem setPortRun_jct (n : Nat) (r : PortRun) (s : State) : (setPortRun n r s).jct = s.jct := by unfold setPortRun; rfl
@[simp] theorem setPortRun_tpk (n : Nat) (r : PortRun) (s : State) : (setPortRun n r s).tpk = s.tpk := by unfold setPortRun; rfl
@[simp] theorem setPortRun_freP (n : Nat) (r : PortRun) (s : State) : (setPortRun n r s).freP = s.freP := by unfold setPortRun; rfl
@[simp] theorem setPortRun_freD (n : Nat) (r : PortRun) (s : State) : (setPortRun n r s).freD = s.freD := by unfold setPortRun; rfl
@[simp] theorem setPortRun_queues (n : Nat) (r : PortRun) (s : State) : (setPortRun n r s).queues = s.queues := by unfold setPortRun; rfl
@[simp] theorem setPortRun_dmaHeld (n : Nat) (r : PortRun) (s : State) : (setPortRun n r s).dmaHeld = s.dmaHeld := by unfold setPortRun; rfl
@[simp] theorem setPortRun_dmaEdge (n : Nat) (r : PortRun) (s : State) : (setPortRun n r s).dmaEdge = s.dmaEdge := by unfold setPortRun; rfl
@[simp] theorem setPortRun_wrrCur (n : Nat) (r : PortRun) (s : State) : (setPortRun n r s).wrrCur = s.wrrCur := by unfold setPortRun; rfl
@[simp] theorem setPortRun_wrrLeft (n : Nat) (r : PortRun) (s : State) : (setPortRun n r s).wrrLeft = s.wrrLeft := by unfold setPortRun; rfl
@[simp] theorem setPortRun_wrrVisits (n : Nat) (r : PortRun) (s : State) : (setPortRun n r s).wrrVisits = s.wrrVisits := by unfold setPortRun; rfl
@[simp] theorem setPortRun_flt (n : Nat) (r : PortRun) (s : State) : (setPortRun n r s).flt = s.flt := by unfold setPortRun; rfl
@[simp] theorem setPortRun_jnl (n : Nat) (r : PortRun) (s : State) : (setPortRun n r s).jnl = s.jnl := by unfold setPortRun; rfl
@[simp] theorem setPortRun_twn (n : Nat) (r : PortRun) (s : State) : (setPortRun n r s).twn = s.twn := by unfold setPortRun; rfl
@[simp] theorem setPortRun_stp (n : Nat) (r : PortRun) (s : State) : (setPortRun n r s).stp = s.stp := by unfold setPortRun; rfl
@[simp] theorem setPortRun_hie (n : Nat) (r : PortRun) (s : State) : (setPortRun n r s).hie = s.hie := by unfold setPortRun; rfl
@[simp] theorem setPortRun_wpt (n : Nat) (r : PortRun) (s : State) : (setPortRun n r s).wpt = s.wpt := by unfold setPortRun; rfl
@[simp] theorem setPortRun_img (n : Nat) (r : PortRun) (s : State) : (setPortRun n r s).img = s.img := by unfold setPortRun; rfl
@[simp] theorem setPortRun_sys (n : Nat) (r : PortRun) (s : State) : (setPortRun n r s).sys = s.sys := by unfold setPortRun; rfl
@[simp] theorem setPortRun_draws (n : Nat) (r : PortRun) (s : State) : (setPortRun n r s).draws = s.draws := by unfold setPortRun; rfl
@[simp] theorem portRun_setPortRun (n : Nat) (r) (s : State) : portRun n (setPortRun n r s) = r := by
  unfold portRun setPortRun; exact sget_sset_same _ _ _ _
theorem portRun_setPortRun_other (n m : Nat) (r) (s : State) (h : m ≠ n) : portRun m (setPortRun n r s) = portRun m s := by
  unfold portRun setPortRun; exact sget_sset_other _ _ _ _ _ _ h

/-! ### setMacRun -/

@[simp] theorem setMacRun_pending (n : Nat) (r : MacRun) (s : State) : (setMacRun n r s).pending = s.pending := by unfold setMacRun; rfl
@[simp] theorem setMacRun_regs (n : Nat) (r : MacRun) (s : State) : (setMacRun n r s).regs = s.regs := by unfold setMacRun; rfl
@[simp] theorem setMacRun_mem (n : Nat) (r : MacRun) (s : State) : (setMacRun n r s).mem = s.mem := by unfold setMacRun; rfl
@[simp] theorem setMacRun_mp (n : Nat) (r : MacRun) (s : State) : (setMacRun n r s).mp = s.mp := by unfold setMacRun; rfl
@[simp] theorem setMacRun_roads (n : Nat) (r : MacRun) (s : State) : (setMacRun n r s).roads = s.roads := by unfold setMacRun; rfl
@[simp] theorem setMacRun_ingest (n : Nat) (r : MacRun) (s : State) : (setMacRun n r s).ingest = s.ingest := by unfold setMacRun; rfl
@[simp] theorem setMacRun_ingestEdge (n : Nat) (r : MacRun) (s : State) : (setMacRun n r s).ingestEdge = s.ingestEdge := by unfold setMacRun; rfl
@[simp] theorem setMacRun_ingested (n : Nat) (r : MacRun) (s : State) : (setMacRun n r s).ingested = s.ingested := by unfold setMacRun; rfl
@[simp] theorem setMacRun_arriveEdge (n : Nat) (r : MacRun) (s : State) : (setMacRun n r s).arriveEdge = s.arriveEdge := by unfold setMacRun; rfl
@[simp] theorem setMacRun_arriveCount (n : Nat) (r : MacRun) (s : State) : (setMacRun n r s).arriveCount = s.arriveCount := by unfold setMacRun; rfl
@[simp] theorem setMacRun_heldEdge (n : Nat) (r : MacRun) (s : State) : (setMacRun n r s).heldEdge = s.heldEdge := by unfold setMacRun; rfl
@[simp] theorem setMacRun_held (n : Nat) (r : MacRun) (s : State) : (setMacRun n r s).held = s.held := by unfold setMacRun; rfl
@[simp] theorem setMacRun_recs (n : Nat) (r : MacRun) (s : State) : (setMacRun n r s).recs = s.recs := by unfold setMacRun; rfl
@[simp] theorem setMacRun_recRun (n : Nat) (r : MacRun) (s : State) : (setMacRun n r s).recRun = s.recRun := by unfold setMacRun; rfl
@[simp] theorem setMacRun_commits (n : Nat) (r : MacRun) (s : State) : (setMacRun n r s).commits = s.commits := by unfold setMacRun; rfl
@[simp] theorem setMacRun_rungEdge (n : Nat) (r : MacRun) (s : State) : (setMacRun n r s).rungEdge = s.rungEdge := by unfold setMacRun; rfl
@[simp] theorem setMacRun_rungQueues (n : Nat) (r : MacRun) (s : State) : (setMacRun n r s).rungQueues = s.rungQueues := by unfold setMacRun; rfl
@[simp] theorem setMacRun_lastServed (n : Nat) (r : MacRun) (s : State) : (setMacRun n r s).lastServed = s.lastServed := by unfold setMacRun; rfl
@[simp] theorem setMacRun_enableReturn (n : Nat) (r : MacRun) (s : State) : (setMacRun n r s).enableReturn = s.enableReturn := by unfold setMacRun; rfl
@[simp] theorem setMacRun_cmpEdge (n : Nat) (r : MacRun) (s : State) : (setMacRun n r s).cmpEdge = s.cmpEdge := by unfold setMacRun; rfl
@[simp] theorem setMacRun_fireEdge (n : Nat) (r : MacRun) (s : State) : (setMacRun n r s).fireEdge = s.fireEdge := by unfold setMacRun; rfl
@[simp] theorem setMacRun_firedRoads (n : Nat) (r : MacRun) (s : State) : (setMacRun n r s).firedRoads = s.firedRoads := by unfold setMacRun; rfl
@[simp] theorem setMacRun_frozen (n : Nat) (r : MacRun) (s : State) : (setMacRun n r s).frozen = s.frozen := by unfold setMacRun; rfl
@[simp] theorem setMacRun_pulses (n : Nat) (r : MacRun) (s : State) : (setMacRun n r s).pulses = s.pulses := by unfold setMacRun; rfl
@[simp] theorem setMacRun_snapCount (n : Nat) (r : MacRun) (s : State) : (setMacRun n r s).snapCount = s.snapCount := by unfold setMacRun; rfl
@[simp] theorem setMacRun_snapAt (n : Nat) (r : MacRun) (s : State) : (setMacRun n r s).snapAt = s.snapAt := by unfold setMacRun; rfl
@[simp] theorem setMacRun_slots (n : Nat) (r : MacRun) (s : State) : (setMacRun n r s).slots = s.slots := by unfold setMacRun; rfl
@[simp] theorem setMacRun_trackers (n : Nat) (r : MacRun) (s : State) : (setMacRun n r s).trackers = s.trackers := by unfold setMacRun; rfl
@[simp] theorem setMacRun_mfeSeq (n : Nat) (r : MacRun) (s : State) : (setMacRun n r s).mfeSeq = s.mfeSeq := by unfold setMacRun; rfl
@[simp] theorem setMacRun_mfeDiscard (n : Nat) (r : MacRun) (s : State) : (setMacRun n r s).mfeDiscard = s.mfeDiscard := by unfold setMacRun; rfl
@[simp] theorem setMacRun_mfeStuck (n : Nat) (r : MacRun) (s : State) : (setMacRun n r s).mfeStuck = s.mfeStuck := by unfold setMacRun; rfl
@[simp] theorem setMacRun_shafts (n : Nat) (r : MacRun) (s : State) : (setMacRun n r s).shafts = s.shafts := by unfold setMacRun; rfl
@[simp] theorem setMacRun_lanes (n : Nat) (r : MacRun) (s : State) : (setMacRun n r s).lanes = s.lanes := by unfold setMacRun; rfl
@[simp] theorem setMacRun_districts (n : Nat) (r : MacRun) (s : State) : (setMacRun n r s).districts = s.districts := by unfold setMacRun; rfl
@[simp] theorem setMacRun_ports (n : Nat) (r : MacRun) (s : State) : (setMacRun n r s).ports = s.ports := by unfold setMacRun; rfl
@[simp] theorem setMacRun_jct (n : Nat) (r : MacRun) (s : State) : (setMacRun n r s).jct = s.jct := by unfold setMacRun; rfl
@[simp] theorem setMacRun_tpk (n : Nat) (r : MacRun) (s : State) : (setMacRun n r s).tpk = s.tpk := by unfold setMacRun; rfl
@[simp] theorem setMacRun_freP (n : Nat) (r : MacRun) (s : State) : (setMacRun n r s).freP = s.freP := by unfold setMacRun; rfl
@[simp] theorem setMacRun_freD (n : Nat) (r : MacRun) (s : State) : (setMacRun n r s).freD = s.freD := by unfold setMacRun; rfl
@[simp] theorem setMacRun_queues (n : Nat) (r : MacRun) (s : State) : (setMacRun n r s).queues = s.queues := by unfold setMacRun; rfl
@[simp] theorem setMacRun_dmaHeld (n : Nat) (r : MacRun) (s : State) : (setMacRun n r s).dmaHeld = s.dmaHeld := by unfold setMacRun; rfl
@[simp] theorem setMacRun_dmaEdge (n : Nat) (r : MacRun) (s : State) : (setMacRun n r s).dmaEdge = s.dmaEdge := by unfold setMacRun; rfl
@[simp] theorem setMacRun_wrrCur (n : Nat) (r : MacRun) (s : State) : (setMacRun n r s).wrrCur = s.wrrCur := by unfold setMacRun; rfl
@[simp] theorem setMacRun_wrrLeft (n : Nat) (r : MacRun) (s : State) : (setMacRun n r s).wrrLeft = s.wrrLeft := by unfold setMacRun; rfl
@[simp] theorem setMacRun_wrrVisits (n : Nat) (r : MacRun) (s : State) : (setMacRun n r s).wrrVisits = s.wrrVisits := by unfold setMacRun; rfl
@[simp] theorem setMacRun_flt (n : Nat) (r : MacRun) (s : State) : (setMacRun n r s).flt = s.flt := by unfold setMacRun; rfl
@[simp] theorem setMacRun_jnl (n : Nat) (r : MacRun) (s : State) : (setMacRun n r s).jnl = s.jnl := by unfold setMacRun; rfl
@[simp] theorem setMacRun_twn (n : Nat) (r : MacRun) (s : State) : (setMacRun n r s).twn = s.twn := by unfold setMacRun; rfl
@[simp] theorem setMacRun_stp (n : Nat) (r : MacRun) (s : State) : (setMacRun n r s).stp = s.stp := by unfold setMacRun; rfl
@[simp] theorem setMacRun_hie (n : Nat) (r : MacRun) (s : State) : (setMacRun n r s).hie = s.hie := by unfold setMacRun; rfl
@[simp] theorem setMacRun_wpt (n : Nat) (r : MacRun) (s : State) : (setMacRun n r s).wpt = s.wpt := by unfold setMacRun; rfl
@[simp] theorem setMacRun_img (n : Nat) (r : MacRun) (s : State) : (setMacRun n r s).img = s.img := by unfold setMacRun; rfl
@[simp] theorem setMacRun_sys (n : Nat) (r : MacRun) (s : State) : (setMacRun n r s).sys = s.sys := by unfold setMacRun; rfl
@[simp] theorem setMacRun_draws (n : Nat) (r : MacRun) (s : State) : (setMacRun n r s).draws = s.draws := by unfold setMacRun; rfl
@[simp] theorem macRun_setMacRun (n : Nat) (r) (s : State) : macRun n (setMacRun n r s) = r := by
  unfold macRun setMacRun; exact sget_sset_same _ _ _ _
theorem macRun_setMacRun_other (n m : Nat) (r) (s : State) (h : m ≠ n) : macRun m (setMacRun n r s) = macRun m s := by
  unfold macRun setMacRun; exact sget_sset_other _ _ _ _ _ _ h

/-! ### setGateRun -/

@[simp] theorem setGateRun_pending (n : Nat) (r : GateRun) (s : State) : (setGateRun n r s).pending = s.pending := by unfold setGateRun; rfl
@[simp] theorem setGateRun_regs (n : Nat) (r : GateRun) (s : State) : (setGateRun n r s).regs = s.regs := by unfold setGateRun; rfl
@[simp] theorem setGateRun_mem (n : Nat) (r : GateRun) (s : State) : (setGateRun n r s).mem = s.mem := by unfold setGateRun; rfl
@[simp] theorem setGateRun_mp (n : Nat) (r : GateRun) (s : State) : (setGateRun n r s).mp = s.mp := by unfold setGateRun; rfl
@[simp] theorem setGateRun_roads (n : Nat) (r : GateRun) (s : State) : (setGateRun n r s).roads = s.roads := by unfold setGateRun; rfl
@[simp] theorem setGateRun_ingest (n : Nat) (r : GateRun) (s : State) : (setGateRun n r s).ingest = s.ingest := by unfold setGateRun; rfl
@[simp] theorem setGateRun_ingestEdge (n : Nat) (r : GateRun) (s : State) : (setGateRun n r s).ingestEdge = s.ingestEdge := by unfold setGateRun; rfl
@[simp] theorem setGateRun_ingested (n : Nat) (r : GateRun) (s : State) : (setGateRun n r s).ingested = s.ingested := by unfold setGateRun; rfl
@[simp] theorem setGateRun_arriveEdge (n : Nat) (r : GateRun) (s : State) : (setGateRun n r s).arriveEdge = s.arriveEdge := by unfold setGateRun; rfl
@[simp] theorem setGateRun_arriveCount (n : Nat) (r : GateRun) (s : State) : (setGateRun n r s).arriveCount = s.arriveCount := by unfold setGateRun; rfl
@[simp] theorem setGateRun_heldEdge (n : Nat) (r : GateRun) (s : State) : (setGateRun n r s).heldEdge = s.heldEdge := by unfold setGateRun; rfl
@[simp] theorem setGateRun_held (n : Nat) (r : GateRun) (s : State) : (setGateRun n r s).held = s.held := by unfold setGateRun; rfl
@[simp] theorem setGateRun_recs (n : Nat) (r : GateRun) (s : State) : (setGateRun n r s).recs = s.recs := by unfold setGateRun; rfl
@[simp] theorem setGateRun_recRun (n : Nat) (r : GateRun) (s : State) : (setGateRun n r s).recRun = s.recRun := by unfold setGateRun; rfl
@[simp] theorem setGateRun_commits (n : Nat) (r : GateRun) (s : State) : (setGateRun n r s).commits = s.commits := by unfold setGateRun; rfl
@[simp] theorem setGateRun_rungEdge (n : Nat) (r : GateRun) (s : State) : (setGateRun n r s).rungEdge = s.rungEdge := by unfold setGateRun; rfl
@[simp] theorem setGateRun_rungQueues (n : Nat) (r : GateRun) (s : State) : (setGateRun n r s).rungQueues = s.rungQueues := by unfold setGateRun; rfl
@[simp] theorem setGateRun_lastServed (n : Nat) (r : GateRun) (s : State) : (setGateRun n r s).lastServed = s.lastServed := by unfold setGateRun; rfl
@[simp] theorem setGateRun_enableReturn (n : Nat) (r : GateRun) (s : State) : (setGateRun n r s).enableReturn = s.enableReturn := by unfold setGateRun; rfl
@[simp] theorem setGateRun_cmpEdge (n : Nat) (r : GateRun) (s : State) : (setGateRun n r s).cmpEdge = s.cmpEdge := by unfold setGateRun; rfl
@[simp] theorem setGateRun_fireEdge (n : Nat) (r : GateRun) (s : State) : (setGateRun n r s).fireEdge = s.fireEdge := by unfold setGateRun; rfl
@[simp] theorem setGateRun_firedRoads (n : Nat) (r : GateRun) (s : State) : (setGateRun n r s).firedRoads = s.firedRoads := by unfold setGateRun; rfl
@[simp] theorem setGateRun_frozen (n : Nat) (r : GateRun) (s : State) : (setGateRun n r s).frozen = s.frozen := by unfold setGateRun; rfl
@[simp] theorem setGateRun_pulses (n : Nat) (r : GateRun) (s : State) : (setGateRun n r s).pulses = s.pulses := by unfold setGateRun; rfl
@[simp] theorem setGateRun_snapCount (n : Nat) (r : GateRun) (s : State) : (setGateRun n r s).snapCount = s.snapCount := by unfold setGateRun; rfl
@[simp] theorem setGateRun_snapAt (n : Nat) (r : GateRun) (s : State) : (setGateRun n r s).snapAt = s.snapAt := by unfold setGateRun; rfl
@[simp] theorem setGateRun_slots (n : Nat) (r : GateRun) (s : State) : (setGateRun n r s).slots = s.slots := by unfold setGateRun; rfl
@[simp] theorem setGateRun_trackers (n : Nat) (r : GateRun) (s : State) : (setGateRun n r s).trackers = s.trackers := by unfold setGateRun; rfl
@[simp] theorem setGateRun_mfeSeq (n : Nat) (r : GateRun) (s : State) : (setGateRun n r s).mfeSeq = s.mfeSeq := by unfold setGateRun; rfl
@[simp] theorem setGateRun_mfeDiscard (n : Nat) (r : GateRun) (s : State) : (setGateRun n r s).mfeDiscard = s.mfeDiscard := by unfold setGateRun; rfl
@[simp] theorem setGateRun_mfeStuck (n : Nat) (r : GateRun) (s : State) : (setGateRun n r s).mfeStuck = s.mfeStuck := by unfold setGateRun; rfl
@[simp] theorem setGateRun_shafts (n : Nat) (r : GateRun) (s : State) : (setGateRun n r s).shafts = s.shafts := by unfold setGateRun; rfl
@[simp] theorem setGateRun_lanes (n : Nat) (r : GateRun) (s : State) : (setGateRun n r s).lanes = s.lanes := by unfold setGateRun; rfl
@[simp] theorem setGateRun_districts (n : Nat) (r : GateRun) (s : State) : (setGateRun n r s).districts = s.districts := by unfold setGateRun; rfl
@[simp] theorem setGateRun_ports (n : Nat) (r : GateRun) (s : State) : (setGateRun n r s).ports = s.ports := by unfold setGateRun; rfl
@[simp] theorem setGateRun_macs (n : Nat) (r : GateRun) (s : State) : (setGateRun n r s).macs = s.macs := by unfold setGateRun; rfl
@[simp] theorem setGateRun_jct (n : Nat) (r : GateRun) (s : State) : (setGateRun n r s).jct = s.jct := by unfold setGateRun; rfl
@[simp] theorem setGateRun_freP (n : Nat) (r : GateRun) (s : State) : (setGateRun n r s).freP = s.freP := by unfold setGateRun; rfl
@[simp] theorem setGateRun_freD (n : Nat) (r : GateRun) (s : State) : (setGateRun n r s).freD = s.freD := by unfold setGateRun; rfl
@[simp] theorem setGateRun_queues (n : Nat) (r : GateRun) (s : State) : (setGateRun n r s).queues = s.queues := by unfold setGateRun; rfl
@[simp] theorem setGateRun_dmaHeld (n : Nat) (r : GateRun) (s : State) : (setGateRun n r s).dmaHeld = s.dmaHeld := by unfold setGateRun; rfl
@[simp] theorem setGateRun_dmaEdge (n : Nat) (r : GateRun) (s : State) : (setGateRun n r s).dmaEdge = s.dmaEdge := by unfold setGateRun; rfl
@[simp] theorem setGateRun_wrrCur (n : Nat) (r : GateRun) (s : State) : (setGateRun n r s).wrrCur = s.wrrCur := by unfold setGateRun; rfl
@[simp] theorem setGateRun_wrrLeft (n : Nat) (r : GateRun) (s : State) : (setGateRun n r s).wrrLeft = s.wrrLeft := by unfold setGateRun; rfl
@[simp] theorem setGateRun_wrrVisits (n : Nat) (r : GateRun) (s : State) : (setGateRun n r s).wrrVisits = s.wrrVisits := by unfold setGateRun; rfl
@[simp] theorem setGateRun_flt (n : Nat) (r : GateRun) (s : State) : (setGateRun n r s).flt = s.flt := by unfold setGateRun; rfl
@[simp] theorem setGateRun_jnl (n : Nat) (r : GateRun) (s : State) : (setGateRun n r s).jnl = s.jnl := by unfold setGateRun; rfl
@[simp] theorem setGateRun_twn (n : Nat) (r : GateRun) (s : State) : (setGateRun n r s).twn = s.twn := by unfold setGateRun; rfl
@[simp] theorem setGateRun_stp (n : Nat) (r : GateRun) (s : State) : (setGateRun n r s).stp = s.stp := by unfold setGateRun; rfl
@[simp] theorem setGateRun_hie (n : Nat) (r : GateRun) (s : State) : (setGateRun n r s).hie = s.hie := by unfold setGateRun; rfl
@[simp] theorem setGateRun_wpt (n : Nat) (r : GateRun) (s : State) : (setGateRun n r s).wpt = s.wpt := by unfold setGateRun; rfl
@[simp] theorem setGateRun_img (n : Nat) (r : GateRun) (s : State) : (setGateRun n r s).img = s.img := by unfold setGateRun; rfl
@[simp] theorem setGateRun_sys (n : Nat) (r : GateRun) (s : State) : (setGateRun n r s).sys = s.sys := by unfold setGateRun; rfl
@[simp] theorem setGateRun_draws (n : Nat) (r : GateRun) (s : State) : (setGateRun n r s).draws = s.draws := by unfold setGateRun; rfl
@[simp] theorem gateRun_setGateRun (n : Nat) (r) (s : State) : gateRun n (setGateRun n r s) = r := by
  unfold gateRun setGateRun; exact sget_sset_same _ _ _ _
theorem gateRun_setGateRun_other (n m : Nat) (r) (s : State) (h : m ≠ n) : gateRun m (setGateRun n r s) = gateRun m s := by
  unfold gateRun setGateRun; exact sget_sset_other _ _ _ _ _ _ h

/-! ### setQueueRun -/

@[simp] theorem setQueueRun_pending (n : Nat) (r : QueueRun) (s : State) : (setQueueRun n r s).pending = s.pending := by unfold setQueueRun; rfl
@[simp] theorem setQueueRun_regs (n : Nat) (r : QueueRun) (s : State) : (setQueueRun n r s).regs = s.regs := by unfold setQueueRun; rfl
@[simp] theorem setQueueRun_mem (n : Nat) (r : QueueRun) (s : State) : (setQueueRun n r s).mem = s.mem := by unfold setQueueRun; rfl
@[simp] theorem setQueueRun_mp (n : Nat) (r : QueueRun) (s : State) : (setQueueRun n r s).mp = s.mp := by unfold setQueueRun; rfl
@[simp] theorem setQueueRun_roads (n : Nat) (r : QueueRun) (s : State) : (setQueueRun n r s).roads = s.roads := by unfold setQueueRun; rfl
@[simp] theorem setQueueRun_ingest (n : Nat) (r : QueueRun) (s : State) : (setQueueRun n r s).ingest = s.ingest := by unfold setQueueRun; rfl
@[simp] theorem setQueueRun_ingestEdge (n : Nat) (r : QueueRun) (s : State) : (setQueueRun n r s).ingestEdge = s.ingestEdge := by unfold setQueueRun; rfl
@[simp] theorem setQueueRun_ingested (n : Nat) (r : QueueRun) (s : State) : (setQueueRun n r s).ingested = s.ingested := by unfold setQueueRun; rfl
@[simp] theorem setQueueRun_arriveEdge (n : Nat) (r : QueueRun) (s : State) : (setQueueRun n r s).arriveEdge = s.arriveEdge := by unfold setQueueRun; rfl
@[simp] theorem setQueueRun_arriveCount (n : Nat) (r : QueueRun) (s : State) : (setQueueRun n r s).arriveCount = s.arriveCount := by unfold setQueueRun; rfl
@[simp] theorem setQueueRun_heldEdge (n : Nat) (r : QueueRun) (s : State) : (setQueueRun n r s).heldEdge = s.heldEdge := by unfold setQueueRun; rfl
@[simp] theorem setQueueRun_held (n : Nat) (r : QueueRun) (s : State) : (setQueueRun n r s).held = s.held := by unfold setQueueRun; rfl
@[simp] theorem setQueueRun_recs (n : Nat) (r : QueueRun) (s : State) : (setQueueRun n r s).recs = s.recs := by unfold setQueueRun; rfl
@[simp] theorem setQueueRun_recRun (n : Nat) (r : QueueRun) (s : State) : (setQueueRun n r s).recRun = s.recRun := by unfold setQueueRun; rfl
@[simp] theorem setQueueRun_commits (n : Nat) (r : QueueRun) (s : State) : (setQueueRun n r s).commits = s.commits := by unfold setQueueRun; rfl
@[simp] theorem setQueueRun_rungEdge (n : Nat) (r : QueueRun) (s : State) : (setQueueRun n r s).rungEdge = s.rungEdge := by unfold setQueueRun; rfl
@[simp] theorem setQueueRun_rungQueues (n : Nat) (r : QueueRun) (s : State) : (setQueueRun n r s).rungQueues = s.rungQueues := by unfold setQueueRun; rfl
@[simp] theorem setQueueRun_lastServed (n : Nat) (r : QueueRun) (s : State) : (setQueueRun n r s).lastServed = s.lastServed := by unfold setQueueRun; rfl
@[simp] theorem setQueueRun_enableReturn (n : Nat) (r : QueueRun) (s : State) : (setQueueRun n r s).enableReturn = s.enableReturn := by unfold setQueueRun; rfl
@[simp] theorem setQueueRun_cmpEdge (n : Nat) (r : QueueRun) (s : State) : (setQueueRun n r s).cmpEdge = s.cmpEdge := by unfold setQueueRun; rfl
@[simp] theorem setQueueRun_fireEdge (n : Nat) (r : QueueRun) (s : State) : (setQueueRun n r s).fireEdge = s.fireEdge := by unfold setQueueRun; rfl
@[simp] theorem setQueueRun_firedRoads (n : Nat) (r : QueueRun) (s : State) : (setQueueRun n r s).firedRoads = s.firedRoads := by unfold setQueueRun; rfl
@[simp] theorem setQueueRun_frozen (n : Nat) (r : QueueRun) (s : State) : (setQueueRun n r s).frozen = s.frozen := by unfold setQueueRun; rfl
@[simp] theorem setQueueRun_pulses (n : Nat) (r : QueueRun) (s : State) : (setQueueRun n r s).pulses = s.pulses := by unfold setQueueRun; rfl
@[simp] theorem setQueueRun_snapCount (n : Nat) (r : QueueRun) (s : State) : (setQueueRun n r s).snapCount = s.snapCount := by unfold setQueueRun; rfl
@[simp] theorem setQueueRun_snapAt (n : Nat) (r : QueueRun) (s : State) : (setQueueRun n r s).snapAt = s.snapAt := by unfold setQueueRun; rfl
@[simp] theorem setQueueRun_slots (n : Nat) (r : QueueRun) (s : State) : (setQueueRun n r s).slots = s.slots := by unfold setQueueRun; rfl
@[simp] theorem setQueueRun_trackers (n : Nat) (r : QueueRun) (s : State) : (setQueueRun n r s).trackers = s.trackers := by unfold setQueueRun; rfl
@[simp] theorem setQueueRun_mfeSeq (n : Nat) (r : QueueRun) (s : State) : (setQueueRun n r s).mfeSeq = s.mfeSeq := by unfold setQueueRun; rfl
@[simp] theorem setQueueRun_mfeDiscard (n : Nat) (r : QueueRun) (s : State) : (setQueueRun n r s).mfeDiscard = s.mfeDiscard := by unfold setQueueRun; rfl
@[simp] theorem setQueueRun_mfeStuck (n : Nat) (r : QueueRun) (s : State) : (setQueueRun n r s).mfeStuck = s.mfeStuck := by unfold setQueueRun; rfl
@[simp] theorem setQueueRun_shafts (n : Nat) (r : QueueRun) (s : State) : (setQueueRun n r s).shafts = s.shafts := by unfold setQueueRun; rfl
@[simp] theorem setQueueRun_lanes (n : Nat) (r : QueueRun) (s : State) : (setQueueRun n r s).lanes = s.lanes := by unfold setQueueRun; rfl
@[simp] theorem setQueueRun_districts (n : Nat) (r : QueueRun) (s : State) : (setQueueRun n r s).districts = s.districts := by unfold setQueueRun; rfl
@[simp] theorem setQueueRun_ports (n : Nat) (r : QueueRun) (s : State) : (setQueueRun n r s).ports = s.ports := by unfold setQueueRun; rfl
@[simp] theorem setQueueRun_macs (n : Nat) (r : QueueRun) (s : State) : (setQueueRun n r s).macs = s.macs := by unfold setQueueRun; rfl
@[simp] theorem setQueueRun_jct (n : Nat) (r : QueueRun) (s : State) : (setQueueRun n r s).jct = s.jct := by unfold setQueueRun; rfl
@[simp] theorem setQueueRun_tpk (n : Nat) (r : QueueRun) (s : State) : (setQueueRun n r s).tpk = s.tpk := by unfold setQueueRun; rfl
@[simp] theorem setQueueRun_freP (n : Nat) (r : QueueRun) (s : State) : (setQueueRun n r s).freP = s.freP := by unfold setQueueRun; rfl
@[simp] theorem setQueueRun_freD (n : Nat) (r : QueueRun) (s : State) : (setQueueRun n r s).freD = s.freD := by unfold setQueueRun; rfl
@[simp] theorem setQueueRun_dmaHeld (n : Nat) (r : QueueRun) (s : State) : (setQueueRun n r s).dmaHeld = s.dmaHeld := by unfold setQueueRun; rfl
@[simp] theorem setQueueRun_dmaEdge (n : Nat) (r : QueueRun) (s : State) : (setQueueRun n r s).dmaEdge = s.dmaEdge := by unfold setQueueRun; rfl
@[simp] theorem setQueueRun_wrrCur (n : Nat) (r : QueueRun) (s : State) : (setQueueRun n r s).wrrCur = s.wrrCur := by unfold setQueueRun; rfl
@[simp] theorem setQueueRun_wrrLeft (n : Nat) (r : QueueRun) (s : State) : (setQueueRun n r s).wrrLeft = s.wrrLeft := by unfold setQueueRun; rfl
@[simp] theorem setQueueRun_wrrVisits (n : Nat) (r : QueueRun) (s : State) : (setQueueRun n r s).wrrVisits = s.wrrVisits := by unfold setQueueRun; rfl
@[simp] theorem setQueueRun_flt (n : Nat) (r : QueueRun) (s : State) : (setQueueRun n r s).flt = s.flt := by unfold setQueueRun; rfl
@[simp] theorem setQueueRun_jnl (n : Nat) (r : QueueRun) (s : State) : (setQueueRun n r s).jnl = s.jnl := by unfold setQueueRun; rfl
@[simp] theorem setQueueRun_twn (n : Nat) (r : QueueRun) (s : State) : (setQueueRun n r s).twn = s.twn := by unfold setQueueRun; rfl
@[simp] theorem setQueueRun_stp (n : Nat) (r : QueueRun) (s : State) : (setQueueRun n r s).stp = s.stp := by unfold setQueueRun; rfl
@[simp] theorem setQueueRun_hie (n : Nat) (r : QueueRun) (s : State) : (setQueueRun n r s).hie = s.hie := by unfold setQueueRun; rfl
@[simp] theorem setQueueRun_wpt (n : Nat) (r : QueueRun) (s : State) : (setQueueRun n r s).wpt = s.wpt := by unfold setQueueRun; rfl
@[simp] theorem setQueueRun_img (n : Nat) (r : QueueRun) (s : State) : (setQueueRun n r s).img = s.img := by unfold setQueueRun; rfl
@[simp] theorem setQueueRun_sys (n : Nat) (r : QueueRun) (s : State) : (setQueueRun n r s).sys = s.sys := by unfold setQueueRun; rfl
@[simp] theorem setQueueRun_draws (n : Nat) (r : QueueRun) (s : State) : (setQueueRun n r s).draws = s.draws := by unfold setQueueRun; rfl
@[simp] theorem queueRun_setQueueRun (n : Nat) (r) (s : State) : queueRun n (setQueueRun n r s) = r := by
  unfold queueRun setQueueRun; exact sget_sset_same _ _ _ _
theorem queueRun_setQueueRun_other (n m : Nat) (r) (s : State) (h : m ≠ n) : queueRun m (setQueueRun n r s) = queueRun m s := by
  unfold queueRun setQueueRun; exact sget_sset_other _ _ _ _ _ _ h

/-! ### setSession -/

@[simp] theorem setSession_pending (n : Nat) (r : SessionRun) (s : State) : (setSession n r s).pending = s.pending := by unfold setSession; rfl
@[simp] theorem setSession_regs (n : Nat) (r : SessionRun) (s : State) : (setSession n r s).regs = s.regs := by unfold setSession; rfl
@[simp] theorem setSession_mem (n : Nat) (r : SessionRun) (s : State) : (setSession n r s).mem = s.mem := by unfold setSession; rfl
@[simp] theorem setSession_mp (n : Nat) (r : SessionRun) (s : State) : (setSession n r s).mp = s.mp := by unfold setSession; rfl
@[simp] theorem setSession_roads (n : Nat) (r : SessionRun) (s : State) : (setSession n r s).roads = s.roads := by unfold setSession; rfl
@[simp] theorem setSession_ingest (n : Nat) (r : SessionRun) (s : State) : (setSession n r s).ingest = s.ingest := by unfold setSession; rfl
@[simp] theorem setSession_ingestEdge (n : Nat) (r : SessionRun) (s : State) : (setSession n r s).ingestEdge = s.ingestEdge := by unfold setSession; rfl
@[simp] theorem setSession_ingested (n : Nat) (r : SessionRun) (s : State) : (setSession n r s).ingested = s.ingested := by unfold setSession; rfl
@[simp] theorem setSession_arriveEdge (n : Nat) (r : SessionRun) (s : State) : (setSession n r s).arriveEdge = s.arriveEdge := by unfold setSession; rfl
@[simp] theorem setSession_arriveCount (n : Nat) (r : SessionRun) (s : State) : (setSession n r s).arriveCount = s.arriveCount := by unfold setSession; rfl
@[simp] theorem setSession_heldEdge (n : Nat) (r : SessionRun) (s : State) : (setSession n r s).heldEdge = s.heldEdge := by unfold setSession; rfl
@[simp] theorem setSession_held (n : Nat) (r : SessionRun) (s : State) : (setSession n r s).held = s.held := by unfold setSession; rfl
@[simp] theorem setSession_recs (n : Nat) (r : SessionRun) (s : State) : (setSession n r s).recs = s.recs := by unfold setSession; rfl
@[simp] theorem setSession_recRun (n : Nat) (r : SessionRun) (s : State) : (setSession n r s).recRun = s.recRun := by unfold setSession; rfl
@[simp] theorem setSession_commits (n : Nat) (r : SessionRun) (s : State) : (setSession n r s).commits = s.commits := by unfold setSession; rfl
@[simp] theorem setSession_rungEdge (n : Nat) (r : SessionRun) (s : State) : (setSession n r s).rungEdge = s.rungEdge := by unfold setSession; rfl
@[simp] theorem setSession_rungQueues (n : Nat) (r : SessionRun) (s : State) : (setSession n r s).rungQueues = s.rungQueues := by unfold setSession; rfl
@[simp] theorem setSession_lastServed (n : Nat) (r : SessionRun) (s : State) : (setSession n r s).lastServed = s.lastServed := by unfold setSession; rfl
@[simp] theorem setSession_enableReturn (n : Nat) (r : SessionRun) (s : State) : (setSession n r s).enableReturn = s.enableReturn := by unfold setSession; rfl
@[simp] theorem setSession_cmpEdge (n : Nat) (r : SessionRun) (s : State) : (setSession n r s).cmpEdge = s.cmpEdge := by unfold setSession; rfl
@[simp] theorem setSession_fireEdge (n : Nat) (r : SessionRun) (s : State) : (setSession n r s).fireEdge = s.fireEdge := by unfold setSession; rfl
@[simp] theorem setSession_firedRoads (n : Nat) (r : SessionRun) (s : State) : (setSession n r s).firedRoads = s.firedRoads := by unfold setSession; rfl
@[simp] theorem setSession_frozen (n : Nat) (r : SessionRun) (s : State) : (setSession n r s).frozen = s.frozen := by unfold setSession; rfl
@[simp] theorem setSession_pulses (n : Nat) (r : SessionRun) (s : State) : (setSession n r s).pulses = s.pulses := by unfold setSession; rfl
@[simp] theorem setSession_snapCount (n : Nat) (r : SessionRun) (s : State) : (setSession n r s).snapCount = s.snapCount := by unfold setSession; rfl
@[simp] theorem setSession_snapAt (n : Nat) (r : SessionRun) (s : State) : (setSession n r s).snapAt = s.snapAt := by unfold setSession; rfl
@[simp] theorem setSession_slots (n : Nat) (r : SessionRun) (s : State) : (setSession n r s).slots = s.slots := by unfold setSession; rfl
@[simp] theorem setSession_trackers (n : Nat) (r : SessionRun) (s : State) : (setSession n r s).trackers = s.trackers := by unfold setSession; rfl
@[simp] theorem setSession_mfeSeq (n : Nat) (r : SessionRun) (s : State) : (setSession n r s).mfeSeq = s.mfeSeq := by unfold setSession; rfl
@[simp] theorem setSession_mfeDiscard (n : Nat) (r : SessionRun) (s : State) : (setSession n r s).mfeDiscard = s.mfeDiscard := by unfold setSession; rfl
@[simp] theorem setSession_mfeStuck (n : Nat) (r : SessionRun) (s : State) : (setSession n r s).mfeStuck = s.mfeStuck := by unfold setSession; rfl
@[simp] theorem setSession_shafts (n : Nat) (r : SessionRun) (s : State) : (setSession n r s).shafts = s.shafts := by unfold setSession; rfl
@[simp] theorem setSession_lanes (n : Nat) (r : SessionRun) (s : State) : (setSession n r s).lanes = s.lanes := by unfold setSession; rfl
@[simp] theorem setSession_districts (n : Nat) (r : SessionRun) (s : State) : (setSession n r s).districts = s.districts := by unfold setSession; rfl
@[simp] theorem setSession_ports (n : Nat) (r : SessionRun) (s : State) : (setSession n r s).ports = s.ports := by unfold setSession; rfl
@[simp] theorem setSession_macs (n : Nat) (r : SessionRun) (s : State) : (setSession n r s).macs = s.macs := by unfold setSession; rfl
@[simp] theorem setSession_jct (n : Nat) (r : SessionRun) (s : State) : (setSession n r s).jct = s.jct := by unfold setSession; rfl
@[simp] theorem setSession_tpk (n : Nat) (r : SessionRun) (s : State) : (setSession n r s).tpk = s.tpk := by unfold setSession; rfl
@[simp] theorem setSession_freP (n : Nat) (r : SessionRun) (s : State) : (setSession n r s).freP = s.freP := by unfold setSession; rfl
@[simp] theorem setSession_freD (n : Nat) (r : SessionRun) (s : State) : (setSession n r s).freD = s.freD := by unfold setSession; rfl
@[simp] theorem setSession_queues (n : Nat) (r : SessionRun) (s : State) : (setSession n r s).queues = s.queues := by unfold setSession; rfl
@[simp] theorem setSession_dmaHeld (n : Nat) (r : SessionRun) (s : State) : (setSession n r s).dmaHeld = s.dmaHeld := by unfold setSession; rfl
@[simp] theorem setSession_dmaEdge (n : Nat) (r : SessionRun) (s : State) : (setSession n r s).dmaEdge = s.dmaEdge := by unfold setSession; rfl
@[simp] theorem setSession_wrrCur (n : Nat) (r : SessionRun) (s : State) : (setSession n r s).wrrCur = s.wrrCur := by unfold setSession; rfl
@[simp] theorem setSession_wrrLeft (n : Nat) (r : SessionRun) (s : State) : (setSession n r s).wrrLeft = s.wrrLeft := by unfold setSession; rfl
@[simp] theorem setSession_wrrVisits (n : Nat) (r : SessionRun) (s : State) : (setSession n r s).wrrVisits = s.wrrVisits := by unfold setSession; rfl
@[simp] theorem setSession_flt (n : Nat) (r : SessionRun) (s : State) : (setSession n r s).flt = s.flt := by unfold setSession; rfl
@[simp] theorem setSession_jnl (n : Nat) (r : SessionRun) (s : State) : (setSession n r s).jnl = s.jnl := by unfold setSession; rfl
@[simp] theorem setSession_twn (n : Nat) (r : SessionRun) (s : State) : (setSession n r s).twn = s.twn := by unfold setSession; rfl
@[simp] theorem setSession_stp (n : Nat) (r : SessionRun) (s : State) : (setSession n r s).stp = s.stp := by unfold setSession; rfl
@[simp] theorem setSession_hie (n : Nat) (r : SessionRun) (s : State) : (setSession n r s).hie = s.hie := by unfold setSession; rfl
@[simp] theorem setSession_img (n : Nat) (r : SessionRun) (s : State) : (setSession n r s).img = s.img := by unfold setSession; rfl
@[simp] theorem setSession_sys (n : Nat) (r : SessionRun) (s : State) : (setSession n r s).sys = s.sys := by unfold setSession; rfl
@[simp] theorem setSession_draws (n : Nat) (r : SessionRun) (s : State) : (setSession n r s).draws = s.draws := by unfold setSession; rfl
@[simp] theorem session_setSession (n : Nat) (r) (s : State) : session n (setSession n r s) = r := by
  unfold session setSession; exact sget_sset_same _ _ _ _
theorem session_setSession_other (n m : Nat) (r) (s : State) (h : m ≠ n) : session m (setSession n r s) = session m s := by
  unfold session setSession; exact sget_sset_other _ _ _ _ _ _ h

/-! ### setOutGroup -/

@[simp] theorem setOutGroup_pending (n : Nat) (r : OutputGroup) (s : State) : (setOutGroup n r s).pending = s.pending := by unfold setOutGroup; rfl
@[simp] theorem setOutGroup_regs (n : Nat) (r : OutputGroup) (s : State) : (setOutGroup n r s).regs = s.regs := by unfold setOutGroup; rfl
@[simp] theorem setOutGroup_mem (n : Nat) (r : OutputGroup) (s : State) : (setOutGroup n r s).mem = s.mem := by unfold setOutGroup; rfl
@[simp] theorem setOutGroup_mp (n : Nat) (r : OutputGroup) (s : State) : (setOutGroup n r s).mp = s.mp := by unfold setOutGroup; rfl
@[simp] theorem setOutGroup_roads (n : Nat) (r : OutputGroup) (s : State) : (setOutGroup n r s).roads = s.roads := by unfold setOutGroup; rfl
@[simp] theorem setOutGroup_ingest (n : Nat) (r : OutputGroup) (s : State) : (setOutGroup n r s).ingest = s.ingest := by unfold setOutGroup; rfl
@[simp] theorem setOutGroup_ingestEdge (n : Nat) (r : OutputGroup) (s : State) : (setOutGroup n r s).ingestEdge = s.ingestEdge := by unfold setOutGroup; rfl
@[simp] theorem setOutGroup_ingested (n : Nat) (r : OutputGroup) (s : State) : (setOutGroup n r s).ingested = s.ingested := by unfold setOutGroup; rfl
@[simp] theorem setOutGroup_arriveEdge (n : Nat) (r : OutputGroup) (s : State) : (setOutGroup n r s).arriveEdge = s.arriveEdge := by unfold setOutGroup; rfl
@[simp] theorem setOutGroup_arriveCount (n : Nat) (r : OutputGroup) (s : State) : (setOutGroup n r s).arriveCount = s.arriveCount := by unfold setOutGroup; rfl
@[simp] theorem setOutGroup_heldEdge (n : Nat) (r : OutputGroup) (s : State) : (setOutGroup n r s).heldEdge = s.heldEdge := by unfold setOutGroup; rfl
@[simp] theorem setOutGroup_held (n : Nat) (r : OutputGroup) (s : State) : (setOutGroup n r s).held = s.held := by unfold setOutGroup; rfl
@[simp] theorem setOutGroup_recs (n : Nat) (r : OutputGroup) (s : State) : (setOutGroup n r s).recs = s.recs := by unfold setOutGroup; rfl
@[simp] theorem setOutGroup_recRun (n : Nat) (r : OutputGroup) (s : State) : (setOutGroup n r s).recRun = s.recRun := by unfold setOutGroup; rfl
@[simp] theorem setOutGroup_commits (n : Nat) (r : OutputGroup) (s : State) : (setOutGroup n r s).commits = s.commits := by unfold setOutGroup; rfl
@[simp] theorem setOutGroup_rungEdge (n : Nat) (r : OutputGroup) (s : State) : (setOutGroup n r s).rungEdge = s.rungEdge := by unfold setOutGroup; rfl
@[simp] theorem setOutGroup_rungQueues (n : Nat) (r : OutputGroup) (s : State) : (setOutGroup n r s).rungQueues = s.rungQueues := by unfold setOutGroup; rfl
@[simp] theorem setOutGroup_lastServed (n : Nat) (r : OutputGroup) (s : State) : (setOutGroup n r s).lastServed = s.lastServed := by unfold setOutGroup; rfl
@[simp] theorem setOutGroup_enableReturn (n : Nat) (r : OutputGroup) (s : State) : (setOutGroup n r s).enableReturn = s.enableReturn := by unfold setOutGroup; rfl
@[simp] theorem setOutGroup_cmpEdge (n : Nat) (r : OutputGroup) (s : State) : (setOutGroup n r s).cmpEdge = s.cmpEdge := by unfold setOutGroup; rfl
@[simp] theorem setOutGroup_fireEdge (n : Nat) (r : OutputGroup) (s : State) : (setOutGroup n r s).fireEdge = s.fireEdge := by unfold setOutGroup; rfl
@[simp] theorem setOutGroup_firedRoads (n : Nat) (r : OutputGroup) (s : State) : (setOutGroup n r s).firedRoads = s.firedRoads := by unfold setOutGroup; rfl
@[simp] theorem setOutGroup_frozen (n : Nat) (r : OutputGroup) (s : State) : (setOutGroup n r s).frozen = s.frozen := by unfold setOutGroup; rfl
@[simp] theorem setOutGroup_pulses (n : Nat) (r : OutputGroup) (s : State) : (setOutGroup n r s).pulses = s.pulses := by unfold setOutGroup; rfl
@[simp] theorem setOutGroup_snapCount (n : Nat) (r : OutputGroup) (s : State) : (setOutGroup n r s).snapCount = s.snapCount := by unfold setOutGroup; rfl
@[simp] theorem setOutGroup_snapAt (n : Nat) (r : OutputGroup) (s : State) : (setOutGroup n r s).snapAt = s.snapAt := by unfold setOutGroup; rfl
@[simp] theorem setOutGroup_slots (n : Nat) (r : OutputGroup) (s : State) : (setOutGroup n r s).slots = s.slots := by unfold setOutGroup; rfl
@[simp] theorem setOutGroup_trackers (n : Nat) (r : OutputGroup) (s : State) : (setOutGroup n r s).trackers = s.trackers := by unfold setOutGroup; rfl
@[simp] theorem setOutGroup_mfeSeq (n : Nat) (r : OutputGroup) (s : State) : (setOutGroup n r s).mfeSeq = s.mfeSeq := by unfold setOutGroup; rfl
@[simp] theorem setOutGroup_mfeDiscard (n : Nat) (r : OutputGroup) (s : State) : (setOutGroup n r s).mfeDiscard = s.mfeDiscard := by unfold setOutGroup; rfl
@[simp] theorem setOutGroup_mfeStuck (n : Nat) (r : OutputGroup) (s : State) : (setOutGroup n r s).mfeStuck = s.mfeStuck := by unfold setOutGroup; rfl
@[simp] theorem setOutGroup_shafts (n : Nat) (r : OutputGroup) (s : State) : (setOutGroup n r s).shafts = s.shafts := by unfold setOutGroup; rfl
@[simp] theorem setOutGroup_lanes (n : Nat) (r : OutputGroup) (s : State) : (setOutGroup n r s).lanes = s.lanes := by unfold setOutGroup; rfl
@[simp] theorem setOutGroup_districts (n : Nat) (r : OutputGroup) (s : State) : (setOutGroup n r s).districts = s.districts := by unfold setOutGroup; rfl
@[simp] theorem setOutGroup_ports (n : Nat) (r : OutputGroup) (s : State) : (setOutGroup n r s).ports = s.ports := by unfold setOutGroup; rfl
@[simp] theorem setOutGroup_macs (n : Nat) (r : OutputGroup) (s : State) : (setOutGroup n r s).macs = s.macs := by unfold setOutGroup; rfl
@[simp] theorem setOutGroup_jct (n : Nat) (r : OutputGroup) (s : State) : (setOutGroup n r s).jct = s.jct := by unfold setOutGroup; rfl
@[simp] theorem setOutGroup_tpk (n : Nat) (r : OutputGroup) (s : State) : (setOutGroup n r s).tpk = s.tpk := by unfold setOutGroup; rfl
@[simp] theorem setOutGroup_freP (n : Nat) (r : OutputGroup) (s : State) : (setOutGroup n r s).freP = s.freP := by unfold setOutGroup; rfl
@[simp] theorem setOutGroup_freD (n : Nat) (r : OutputGroup) (s : State) : (setOutGroup n r s).freD = s.freD := by unfold setOutGroup; rfl
@[simp] theorem setOutGroup_queues (n : Nat) (r : OutputGroup) (s : State) : (setOutGroup n r s).queues = s.queues := by unfold setOutGroup; rfl
@[simp] theorem setOutGroup_dmaHeld (n : Nat) (r : OutputGroup) (s : State) : (setOutGroup n r s).dmaHeld = s.dmaHeld := by unfold setOutGroup; rfl
@[simp] theorem setOutGroup_dmaEdge (n : Nat) (r : OutputGroup) (s : State) : (setOutGroup n r s).dmaEdge = s.dmaEdge := by unfold setOutGroup; rfl
@[simp] theorem setOutGroup_wrrCur (n : Nat) (r : OutputGroup) (s : State) : (setOutGroup n r s).wrrCur = s.wrrCur := by unfold setOutGroup; rfl
@[simp] theorem setOutGroup_wrrLeft (n : Nat) (r : OutputGroup) (s : State) : (setOutGroup n r s).wrrLeft = s.wrrLeft := by unfold setOutGroup; rfl
@[simp] theorem setOutGroup_wrrVisits (n : Nat) (r : OutputGroup) (s : State) : (setOutGroup n r s).wrrVisits = s.wrrVisits := by unfold setOutGroup; rfl
@[simp] theorem setOutGroup_flt (n : Nat) (r : OutputGroup) (s : State) : (setOutGroup n r s).flt = s.flt := by unfold setOutGroup; rfl
@[simp] theorem setOutGroup_jnl (n : Nat) (r : OutputGroup) (s : State) : (setOutGroup n r s).jnl = s.jnl := by unfold setOutGroup; rfl
@[simp] theorem setOutGroup_stp (n : Nat) (r : OutputGroup) (s : State) : (setOutGroup n r s).stp = s.stp := by unfold setOutGroup; rfl
@[simp] theorem setOutGroup_hie (n : Nat) (r : OutputGroup) (s : State) : (setOutGroup n r s).hie = s.hie := by unfold setOutGroup; rfl
@[simp] theorem setOutGroup_wpt (n : Nat) (r : OutputGroup) (s : State) : (setOutGroup n r s).wpt = s.wpt := by unfold setOutGroup; rfl
@[simp] theorem setOutGroup_img (n : Nat) (r : OutputGroup) (s : State) : (setOutGroup n r s).img = s.img := by unfold setOutGroup; rfl
@[simp] theorem setOutGroup_sys (n : Nat) (r : OutputGroup) (s : State) : (setOutGroup n r s).sys = s.sys := by unfold setOutGroup; rfl
@[simp] theorem setOutGroup_draws (n : Nat) (r : OutputGroup) (s : State) : (setOutGroup n r s).draws = s.draws := by unfold setOutGroup; rfl
@[simp] theorem outGroup_setOutGroup (n : Nat) (r) (s : State) : outGroup n (setOutGroup n r s) = r := by
  unfold outGroup setOutGroup; exact sget_sset_same _ _ _ _
theorem outGroup_setOutGroup_other (n m : Nat) (r) (s : State) (h : m ≠ n) : outGroup m (setOutGroup n r s) = outGroup m s := by
  unfold outGroup setOutGroup; exact sget_sset_other _ _ _ _ _ _ h

/-! ### setDrainPath -/

@[simp] theorem setDrainPath_pending (n : Nat) (r : DrainPath) (s : State) : (setDrainPath n r s).pending = s.pending := by unfold setDrainPath; rfl
@[simp] theorem setDrainPath_regs (n : Nat) (r : DrainPath) (s : State) : (setDrainPath n r s).regs = s.regs := by unfold setDrainPath; rfl
@[simp] theorem setDrainPath_mem (n : Nat) (r : DrainPath) (s : State) : (setDrainPath n r s).mem = s.mem := by unfold setDrainPath; rfl
@[simp] theorem setDrainPath_mp (n : Nat) (r : DrainPath) (s : State) : (setDrainPath n r s).mp = s.mp := by unfold setDrainPath; rfl
@[simp] theorem setDrainPath_roads (n : Nat) (r : DrainPath) (s : State) : (setDrainPath n r s).roads = s.roads := by unfold setDrainPath; rfl
@[simp] theorem setDrainPath_ingest (n : Nat) (r : DrainPath) (s : State) : (setDrainPath n r s).ingest = s.ingest := by unfold setDrainPath; rfl
@[simp] theorem setDrainPath_ingestEdge (n : Nat) (r : DrainPath) (s : State) : (setDrainPath n r s).ingestEdge = s.ingestEdge := by unfold setDrainPath; rfl
@[simp] theorem setDrainPath_ingested (n : Nat) (r : DrainPath) (s : State) : (setDrainPath n r s).ingested = s.ingested := by unfold setDrainPath; rfl
@[simp] theorem setDrainPath_arriveEdge (n : Nat) (r : DrainPath) (s : State) : (setDrainPath n r s).arriveEdge = s.arriveEdge := by unfold setDrainPath; rfl
@[simp] theorem setDrainPath_arriveCount (n : Nat) (r : DrainPath) (s : State) : (setDrainPath n r s).arriveCount = s.arriveCount := by unfold setDrainPath; rfl
@[simp] theorem setDrainPath_heldEdge (n : Nat) (r : DrainPath) (s : State) : (setDrainPath n r s).heldEdge = s.heldEdge := by unfold setDrainPath; rfl
@[simp] theorem setDrainPath_held (n : Nat) (r : DrainPath) (s : State) : (setDrainPath n r s).held = s.held := by unfold setDrainPath; rfl
@[simp] theorem setDrainPath_recs (n : Nat) (r : DrainPath) (s : State) : (setDrainPath n r s).recs = s.recs := by unfold setDrainPath; rfl
@[simp] theorem setDrainPath_recRun (n : Nat) (r : DrainPath) (s : State) : (setDrainPath n r s).recRun = s.recRun := by unfold setDrainPath; rfl
@[simp] theorem setDrainPath_commits (n : Nat) (r : DrainPath) (s : State) : (setDrainPath n r s).commits = s.commits := by unfold setDrainPath; rfl
@[simp] theorem setDrainPath_rungEdge (n : Nat) (r : DrainPath) (s : State) : (setDrainPath n r s).rungEdge = s.rungEdge := by unfold setDrainPath; rfl
@[simp] theorem setDrainPath_rungQueues (n : Nat) (r : DrainPath) (s : State) : (setDrainPath n r s).rungQueues = s.rungQueues := by unfold setDrainPath; rfl
@[simp] theorem setDrainPath_lastServed (n : Nat) (r : DrainPath) (s : State) : (setDrainPath n r s).lastServed = s.lastServed := by unfold setDrainPath; rfl
@[simp] theorem setDrainPath_enableReturn (n : Nat) (r : DrainPath) (s : State) : (setDrainPath n r s).enableReturn = s.enableReturn := by unfold setDrainPath; rfl
@[simp] theorem setDrainPath_cmpEdge (n : Nat) (r : DrainPath) (s : State) : (setDrainPath n r s).cmpEdge = s.cmpEdge := by unfold setDrainPath; rfl
@[simp] theorem setDrainPath_fireEdge (n : Nat) (r : DrainPath) (s : State) : (setDrainPath n r s).fireEdge = s.fireEdge := by unfold setDrainPath; rfl
@[simp] theorem setDrainPath_firedRoads (n : Nat) (r : DrainPath) (s : State) : (setDrainPath n r s).firedRoads = s.firedRoads := by unfold setDrainPath; rfl
@[simp] theorem setDrainPath_frozen (n : Nat) (r : DrainPath) (s : State) : (setDrainPath n r s).frozen = s.frozen := by unfold setDrainPath; rfl
@[simp] theorem setDrainPath_pulses (n : Nat) (r : DrainPath) (s : State) : (setDrainPath n r s).pulses = s.pulses := by unfold setDrainPath; rfl
@[simp] theorem setDrainPath_snapCount (n : Nat) (r : DrainPath) (s : State) : (setDrainPath n r s).snapCount = s.snapCount := by unfold setDrainPath; rfl
@[simp] theorem setDrainPath_snapAt (n : Nat) (r : DrainPath) (s : State) : (setDrainPath n r s).snapAt = s.snapAt := by unfold setDrainPath; rfl
@[simp] theorem setDrainPath_slots (n : Nat) (r : DrainPath) (s : State) : (setDrainPath n r s).slots = s.slots := by unfold setDrainPath; rfl
@[simp] theorem setDrainPath_trackers (n : Nat) (r : DrainPath) (s : State) : (setDrainPath n r s).trackers = s.trackers := by unfold setDrainPath; rfl
@[simp] theorem setDrainPath_mfeSeq (n : Nat) (r : DrainPath) (s : State) : (setDrainPath n r s).mfeSeq = s.mfeSeq := by unfold setDrainPath; rfl
@[simp] theorem setDrainPath_mfeDiscard (n : Nat) (r : DrainPath) (s : State) : (setDrainPath n r s).mfeDiscard = s.mfeDiscard := by unfold setDrainPath; rfl
@[simp] theorem setDrainPath_mfeStuck (n : Nat) (r : DrainPath) (s : State) : (setDrainPath n r s).mfeStuck = s.mfeStuck := by unfold setDrainPath; rfl
@[simp] theorem setDrainPath_shafts (n : Nat) (r : DrainPath) (s : State) : (setDrainPath n r s).shafts = s.shafts := by unfold setDrainPath; rfl
@[simp] theorem setDrainPath_lanes (n : Nat) (r : DrainPath) (s : State) : (setDrainPath n r s).lanes = s.lanes := by unfold setDrainPath; rfl
@[simp] theorem setDrainPath_districts (n : Nat) (r : DrainPath) (s : State) : (setDrainPath n r s).districts = s.districts := by unfold setDrainPath; rfl
@[simp] theorem setDrainPath_ports (n : Nat) (r : DrainPath) (s : State) : (setDrainPath n r s).ports = s.ports := by unfold setDrainPath; rfl
@[simp] theorem setDrainPath_macs (n : Nat) (r : DrainPath) (s : State) : (setDrainPath n r s).macs = s.macs := by unfold setDrainPath; rfl
@[simp] theorem setDrainPath_jct (n : Nat) (r : DrainPath) (s : State) : (setDrainPath n r s).jct = s.jct := by unfold setDrainPath; rfl
@[simp] theorem setDrainPath_tpk (n : Nat) (r : DrainPath) (s : State) : (setDrainPath n r s).tpk = s.tpk := by unfold setDrainPath; rfl
@[simp] theorem setDrainPath_freP (n : Nat) (r : DrainPath) (s : State) : (setDrainPath n r s).freP = s.freP := by unfold setDrainPath; rfl
@[simp] theorem setDrainPath_freD (n : Nat) (r : DrainPath) (s : State) : (setDrainPath n r s).freD = s.freD := by unfold setDrainPath; rfl
@[simp] theorem setDrainPath_queues (n : Nat) (r : DrainPath) (s : State) : (setDrainPath n r s).queues = s.queues := by unfold setDrainPath; rfl
@[simp] theorem setDrainPath_dmaHeld (n : Nat) (r : DrainPath) (s : State) : (setDrainPath n r s).dmaHeld = s.dmaHeld := by unfold setDrainPath; rfl
@[simp] theorem setDrainPath_dmaEdge (n : Nat) (r : DrainPath) (s : State) : (setDrainPath n r s).dmaEdge = s.dmaEdge := by unfold setDrainPath; rfl
@[simp] theorem setDrainPath_wrrCur (n : Nat) (r : DrainPath) (s : State) : (setDrainPath n r s).wrrCur = s.wrrCur := by unfold setDrainPath; rfl
@[simp] theorem setDrainPath_wrrLeft (n : Nat) (r : DrainPath) (s : State) : (setDrainPath n r s).wrrLeft = s.wrrLeft := by unfold setDrainPath; rfl
@[simp] theorem setDrainPath_wrrVisits (n : Nat) (r : DrainPath) (s : State) : (setDrainPath n r s).wrrVisits = s.wrrVisits := by unfold setDrainPath; rfl
@[simp] theorem setDrainPath_flt (n : Nat) (r : DrainPath) (s : State) : (setDrainPath n r s).flt = s.flt := by unfold setDrainPath; rfl
@[simp] theorem setDrainPath_twn (n : Nat) (r : DrainPath) (s : State) : (setDrainPath n r s).twn = s.twn := by unfold setDrainPath; rfl
@[simp] theorem setDrainPath_stp (n : Nat) (r : DrainPath) (s : State) : (setDrainPath n r s).stp = s.stp := by unfold setDrainPath; rfl
@[simp] theorem setDrainPath_hie (n : Nat) (r : DrainPath) (s : State) : (setDrainPath n r s).hie = s.hie := by unfold setDrainPath; rfl
@[simp] theorem setDrainPath_wpt (n : Nat) (r : DrainPath) (s : State) : (setDrainPath n r s).wpt = s.wpt := by unfold setDrainPath; rfl
@[simp] theorem setDrainPath_img (n : Nat) (r : DrainPath) (s : State) : (setDrainPath n r s).img = s.img := by unfold setDrainPath; rfl
@[simp] theorem setDrainPath_sys (n : Nat) (r : DrainPath) (s : State) : (setDrainPath n r s).sys = s.sys := by unfold setDrainPath; rfl
@[simp] theorem setDrainPath_draws (n : Nat) (r : DrainPath) (s : State) : (setDrainPath n r s).draws = s.draws := by unfold setDrainPath; rfl
@[simp] theorem drainPath_setDrainPath (n : Nat) (r) (s : State) : drainPath n (setDrainPath n r s) = r := by
  unfold drainPath setDrainPath; exact sget_sset_same _ _ _ _
theorem drainPath_setDrainPath_other (n m : Nat) (r) (s : State) (h : m ≠ n) : drainPath m (setDrainPath n r s) = drainPath m s := by
  unfold drainPath setDrainPath; exact sget_sset_other _ _ _ _ _ _ h

/-! ### setWorker -/

@[simp] theorem setWorker_pending (n : Nat) (r : WorkerRun) (s : State) : (setWorker n r s).pending = s.pending := by unfold setWorker; rfl
@[simp] theorem setWorker_regs (n : Nat) (r : WorkerRun) (s : State) : (setWorker n r s).regs = s.regs := by unfold setWorker; rfl
@[simp] theorem setWorker_mem (n : Nat) (r : WorkerRun) (s : State) : (setWorker n r s).mem = s.mem := by unfold setWorker; rfl
@[simp] theorem setWorker_mp (n : Nat) (r : WorkerRun) (s : State) : (setWorker n r s).mp = s.mp := by unfold setWorker; rfl
@[simp] theorem setWorker_roads (n : Nat) (r : WorkerRun) (s : State) : (setWorker n r s).roads = s.roads := by unfold setWorker; rfl
@[simp] theorem setWorker_ingest (n : Nat) (r : WorkerRun) (s : State) : (setWorker n r s).ingest = s.ingest := by unfold setWorker; rfl
@[simp] theorem setWorker_ingestEdge (n : Nat) (r : WorkerRun) (s : State) : (setWorker n r s).ingestEdge = s.ingestEdge := by unfold setWorker; rfl
@[simp] theorem setWorker_ingested (n : Nat) (r : WorkerRun) (s : State) : (setWorker n r s).ingested = s.ingested := by unfold setWorker; rfl
@[simp] theorem setWorker_arriveEdge (n : Nat) (r : WorkerRun) (s : State) : (setWorker n r s).arriveEdge = s.arriveEdge := by unfold setWorker; rfl
@[simp] theorem setWorker_arriveCount (n : Nat) (r : WorkerRun) (s : State) : (setWorker n r s).arriveCount = s.arriveCount := by unfold setWorker; rfl
@[simp] theorem setWorker_heldEdge (n : Nat) (r : WorkerRun) (s : State) : (setWorker n r s).heldEdge = s.heldEdge := by unfold setWorker; rfl
@[simp] theorem setWorker_held (n : Nat) (r : WorkerRun) (s : State) : (setWorker n r s).held = s.held := by unfold setWorker; rfl
@[simp] theorem setWorker_recs (n : Nat) (r : WorkerRun) (s : State) : (setWorker n r s).recs = s.recs := by unfold setWorker; rfl
@[simp] theorem setWorker_recRun (n : Nat) (r : WorkerRun) (s : State) : (setWorker n r s).recRun = s.recRun := by unfold setWorker; rfl
@[simp] theorem setWorker_commits (n : Nat) (r : WorkerRun) (s : State) : (setWorker n r s).commits = s.commits := by unfold setWorker; rfl
@[simp] theorem setWorker_rungEdge (n : Nat) (r : WorkerRun) (s : State) : (setWorker n r s).rungEdge = s.rungEdge := by unfold setWorker; rfl
@[simp] theorem setWorker_rungQueues (n : Nat) (r : WorkerRun) (s : State) : (setWorker n r s).rungQueues = s.rungQueues := by unfold setWorker; rfl
@[simp] theorem setWorker_lastServed (n : Nat) (r : WorkerRun) (s : State) : (setWorker n r s).lastServed = s.lastServed := by unfold setWorker; rfl
@[simp] theorem setWorker_enableReturn (n : Nat) (r : WorkerRun) (s : State) : (setWorker n r s).enableReturn = s.enableReturn := by unfold setWorker; rfl
@[simp] theorem setWorker_cmpEdge (n : Nat) (r : WorkerRun) (s : State) : (setWorker n r s).cmpEdge = s.cmpEdge := by unfold setWorker; rfl
@[simp] theorem setWorker_fireEdge (n : Nat) (r : WorkerRun) (s : State) : (setWorker n r s).fireEdge = s.fireEdge := by unfold setWorker; rfl
@[simp] theorem setWorker_firedRoads (n : Nat) (r : WorkerRun) (s : State) : (setWorker n r s).firedRoads = s.firedRoads := by unfold setWorker; rfl
@[simp] theorem setWorker_frozen (n : Nat) (r : WorkerRun) (s : State) : (setWorker n r s).frozen = s.frozen := by unfold setWorker; rfl
@[simp] theorem setWorker_pulses (n : Nat) (r : WorkerRun) (s : State) : (setWorker n r s).pulses = s.pulses := by unfold setWorker; rfl
@[simp] theorem setWorker_snapCount (n : Nat) (r : WorkerRun) (s : State) : (setWorker n r s).snapCount = s.snapCount := by unfold setWorker; rfl
@[simp] theorem setWorker_snapAt (n : Nat) (r : WorkerRun) (s : State) : (setWorker n r s).snapAt = s.snapAt := by unfold setWorker; rfl
@[simp] theorem setWorker_slots (n : Nat) (r : WorkerRun) (s : State) : (setWorker n r s).slots = s.slots := by unfold setWorker; rfl
@[simp] theorem setWorker_trackers (n : Nat) (r : WorkerRun) (s : State) : (setWorker n r s).trackers = s.trackers := by unfold setWorker; rfl
@[simp] theorem setWorker_mfeSeq (n : Nat) (r : WorkerRun) (s : State) : (setWorker n r s).mfeSeq = s.mfeSeq := by unfold setWorker; rfl
@[simp] theorem setWorker_mfeDiscard (n : Nat) (r : WorkerRun) (s : State) : (setWorker n r s).mfeDiscard = s.mfeDiscard := by unfold setWorker; rfl
@[simp] theorem setWorker_mfeStuck (n : Nat) (r : WorkerRun) (s : State) : (setWorker n r s).mfeStuck = s.mfeStuck := by unfold setWorker; rfl
@[simp] theorem setWorker_shafts (n : Nat) (r : WorkerRun) (s : State) : (setWorker n r s).shafts = s.shafts := by unfold setWorker; rfl
@[simp] theorem setWorker_lanes (n : Nat) (r : WorkerRun) (s : State) : (setWorker n r s).lanes = s.lanes := by unfold setWorker; rfl
@[simp] theorem setWorker_districts (n : Nat) (r : WorkerRun) (s : State) : (setWorker n r s).districts = s.districts := by unfold setWorker; rfl
@[simp] theorem setWorker_ports (n : Nat) (r : WorkerRun) (s : State) : (setWorker n r s).ports = s.ports := by unfold setWorker; rfl
@[simp] theorem setWorker_macs (n : Nat) (r : WorkerRun) (s : State) : (setWorker n r s).macs = s.macs := by unfold setWorker; rfl
@[simp] theorem setWorker_jct (n : Nat) (r : WorkerRun) (s : State) : (setWorker n r s).jct = s.jct := by unfold setWorker; rfl
@[simp] theorem setWorker_tpk (n : Nat) (r : WorkerRun) (s : State) : (setWorker n r s).tpk = s.tpk := by unfold setWorker; rfl
@[simp] theorem setWorker_freP (n : Nat) (r : WorkerRun) (s : State) : (setWorker n r s).freP = s.freP := by unfold setWorker; rfl
@[simp] theorem setWorker_freD (n : Nat) (r : WorkerRun) (s : State) : (setWorker n r s).freD = s.freD := by unfold setWorker; rfl
@[simp] theorem setWorker_queues (n : Nat) (r : WorkerRun) (s : State) : (setWorker n r s).queues = s.queues := by unfold setWorker; rfl
@[simp] theorem setWorker_dmaHeld (n : Nat) (r : WorkerRun) (s : State) : (setWorker n r s).dmaHeld = s.dmaHeld := by unfold setWorker; rfl
@[simp] theorem setWorker_dmaEdge (n : Nat) (r : WorkerRun) (s : State) : (setWorker n r s).dmaEdge = s.dmaEdge := by unfold setWorker; rfl
@[simp] theorem setWorker_wrrCur (n : Nat) (r : WorkerRun) (s : State) : (setWorker n r s).wrrCur = s.wrrCur := by unfold setWorker; rfl
@[simp] theorem setWorker_wrrLeft (n : Nat) (r : WorkerRun) (s : State) : (setWorker n r s).wrrLeft = s.wrrLeft := by unfold setWorker; rfl
@[simp] theorem setWorker_wrrVisits (n : Nat) (r : WorkerRun) (s : State) : (setWorker n r s).wrrVisits = s.wrrVisits := by unfold setWorker; rfl
@[simp] theorem setWorker_flt (n : Nat) (r : WorkerRun) (s : State) : (setWorker n r s).flt = s.flt := by unfold setWorker; rfl
@[simp] theorem setWorker_jnl (n : Nat) (r : WorkerRun) (s : State) : (setWorker n r s).jnl = s.jnl := by unfold setWorker; rfl
@[simp] theorem setWorker_twn (n : Nat) (r : WorkerRun) (s : State) : (setWorker n r s).twn = s.twn := by unfold setWorker; rfl
@[simp] theorem setWorker_stp (n : Nat) (r : WorkerRun) (s : State) : (setWorker n r s).stp = s.stp := by unfold setWorker; rfl
@[simp] theorem setWorker_wpt (n : Nat) (r : WorkerRun) (s : State) : (setWorker n r s).wpt = s.wpt := by unfold setWorker; rfl
@[simp] theorem setWorker_img (n : Nat) (r : WorkerRun) (s : State) : (setWorker n r s).img = s.img := by unfold setWorker; rfl
@[simp] theorem setWorker_sys (n : Nat) (r : WorkerRun) (s : State) : (setWorker n r s).sys = s.sys := by unfold setWorker; rfl
@[simp] theorem setWorker_draws (n : Nat) (r : WorkerRun) (s : State) : (setWorker n r s).draws = s.draws := by unfold setWorker; rfl
@[simp] theorem worker_setWorker (n : Nat) (r) (s : State) : worker n (setWorker n r s) = r := by
  unfold worker setWorker; exact sget_sset_same _ _ _ _
theorem worker_setWorker_other (n m : Nat) (r) (s : State) (h : m ≠ n) : worker m (setWorker n r s) = worker m s := by
  unfold worker setWorker; exact sget_sset_other _ _ _ _ _ _ h

/-! ### wrByte -/

@[simp] theorem wrByte_pending (a : Nat) (b : Byte) (s : State) : (wrByte a b s).pending = s.pending := by unfold wrByte; rfl
@[simp] theorem wrByte_regs (a : Nat) (b : Byte) (s : State) : (wrByte a b s).regs = s.regs := by unfold wrByte; rfl
@[simp] theorem wrByte_mp (a : Nat) (b : Byte) (s : State) : (wrByte a b s).mp = s.mp := by unfold wrByte; rfl
@[simp] theorem wrByte_roads (a : Nat) (b : Byte) (s : State) : (wrByte a b s).roads = s.roads := by unfold wrByte; rfl
@[simp] theorem wrByte_ingest (a : Nat) (b : Byte) (s : State) : (wrByte a b s).ingest = s.ingest := by unfold wrByte; rfl
@[simp] theorem wrByte_ingestEdge (a : Nat) (b : Byte) (s : State) : (wrByte a b s).ingestEdge = s.ingestEdge := by unfold wrByte; rfl
@[simp] theorem wrByte_ingested (a : Nat) (b : Byte) (s : State) : (wrByte a b s).ingested = s.ingested := by unfold wrByte; rfl
@[simp] theorem wrByte_arriveEdge (a : Nat) (b : Byte) (s : State) : (wrByte a b s).arriveEdge = s.arriveEdge := by unfold wrByte; rfl
@[simp] theorem wrByte_arriveCount (a : Nat) (b : Byte) (s : State) : (wrByte a b s).arriveCount = s.arriveCount := by unfold wrByte; rfl
@[simp] theorem wrByte_heldEdge (a : Nat) (b : Byte) (s : State) : (wrByte a b s).heldEdge = s.heldEdge := by unfold wrByte; rfl
@[simp] theorem wrByte_held (a : Nat) (b : Byte) (s : State) : (wrByte a b s).held = s.held := by unfold wrByte; rfl
@[simp] theorem wrByte_recs (a : Nat) (b : Byte) (s : State) : (wrByte a b s).recs = s.recs := by unfold wrByte; rfl
@[simp] theorem wrByte_recRun (a : Nat) (b : Byte) (s : State) : (wrByte a b s).recRun = s.recRun := by unfold wrByte; rfl
@[simp] theorem wrByte_commits (a : Nat) (b : Byte) (s : State) : (wrByte a b s).commits = s.commits := by unfold wrByte; rfl
@[simp] theorem wrByte_rungEdge (a : Nat) (b : Byte) (s : State) : (wrByte a b s).rungEdge = s.rungEdge := by unfold wrByte; rfl
@[simp] theorem wrByte_rungQueues (a : Nat) (b : Byte) (s : State) : (wrByte a b s).rungQueues = s.rungQueues := by unfold wrByte; rfl
@[simp] theorem wrByte_lastServed (a : Nat) (b : Byte) (s : State) : (wrByte a b s).lastServed = s.lastServed := by unfold wrByte; rfl
@[simp] theorem wrByte_enableReturn (a : Nat) (b : Byte) (s : State) : (wrByte a b s).enableReturn = s.enableReturn := by unfold wrByte; rfl
@[simp] theorem wrByte_cmpEdge (a : Nat) (b : Byte) (s : State) : (wrByte a b s).cmpEdge = s.cmpEdge := by unfold wrByte; rfl
@[simp] theorem wrByte_fireEdge (a : Nat) (b : Byte) (s : State) : (wrByte a b s).fireEdge = s.fireEdge := by unfold wrByte; rfl
@[simp] theorem wrByte_firedRoads (a : Nat) (b : Byte) (s : State) : (wrByte a b s).firedRoads = s.firedRoads := by unfold wrByte; rfl
@[simp] theorem wrByte_frozen (a : Nat) (b : Byte) (s : State) : (wrByte a b s).frozen = s.frozen := by unfold wrByte; rfl
@[simp] theorem wrByte_pulses (a : Nat) (b : Byte) (s : State) : (wrByte a b s).pulses = s.pulses := by unfold wrByte; rfl
@[simp] theorem wrByte_snapCount (a : Nat) (b : Byte) (s : State) : (wrByte a b s).snapCount = s.snapCount := by unfold wrByte; rfl
@[simp] theorem wrByte_snapAt (a : Nat) (b : Byte) (s : State) : (wrByte a b s).snapAt = s.snapAt := by unfold wrByte; rfl
@[simp] theorem wrByte_slots (a : Nat) (b : Byte) (s : State) : (wrByte a b s).slots = s.slots := by unfold wrByte; rfl
@[simp] theorem wrByte_trackers (a : Nat) (b : Byte) (s : State) : (wrByte a b s).trackers = s.trackers := by unfold wrByte; rfl
@[simp] theorem wrByte_mfeSeq (a : Nat) (b : Byte) (s : State) : (wrByte a b s).mfeSeq = s.mfeSeq := by unfold wrByte; rfl
@[simp] theorem wrByte_mfeDiscard (a : Nat) (b : Byte) (s : State) : (wrByte a b s).mfeDiscard = s.mfeDiscard := by unfold wrByte; rfl
@[simp] theorem wrByte_mfeStuck (a : Nat) (b : Byte) (s : State) : (wrByte a b s).mfeStuck = s.mfeStuck := by unfold wrByte; rfl
@[simp] theorem wrByte_shafts (a : Nat) (b : Byte) (s : State) : (wrByte a b s).shafts = s.shafts := by unfold wrByte; rfl
@[simp] theorem wrByte_lanes (a : Nat) (b : Byte) (s : State) : (wrByte a b s).lanes = s.lanes := by unfold wrByte; rfl
@[simp] theorem wrByte_districts (a : Nat) (b : Byte) (s : State) : (wrByte a b s).districts = s.districts := by unfold wrByte; rfl
@[simp] theorem wrByte_ports (a : Nat) (b : Byte) (s : State) : (wrByte a b s).ports = s.ports := by unfold wrByte; rfl
@[simp] theorem wrByte_macs (a : Nat) (b : Byte) (s : State) : (wrByte a b s).macs = s.macs := by unfold wrByte; rfl
@[simp] theorem wrByte_jct (a : Nat) (b : Byte) (s : State) : (wrByte a b s).jct = s.jct := by unfold wrByte; rfl
@[simp] theorem wrByte_tpk (a : Nat) (b : Byte) (s : State) : (wrByte a b s).tpk = s.tpk := by unfold wrByte; rfl
@[simp] theorem wrByte_freP (a : Nat) (b : Byte) (s : State) : (wrByte a b s).freP = s.freP := by unfold wrByte; rfl
@[simp] theorem wrByte_freD (a : Nat) (b : Byte) (s : State) : (wrByte a b s).freD = s.freD := by unfold wrByte; rfl
@[simp] theorem wrByte_queues (a : Nat) (b : Byte) (s : State) : (wrByte a b s).queues = s.queues := by unfold wrByte; rfl
@[simp] theorem wrByte_dmaHeld (a : Nat) (b : Byte) (s : State) : (wrByte a b s).dmaHeld = s.dmaHeld := by unfold wrByte; rfl
@[simp] theorem wrByte_dmaEdge (a : Nat) (b : Byte) (s : State) : (wrByte a b s).dmaEdge = s.dmaEdge := by unfold wrByte; rfl
@[simp] theorem wrByte_wrrCur (a : Nat) (b : Byte) (s : State) : (wrByte a b s).wrrCur = s.wrrCur := by unfold wrByte; rfl
@[simp] theorem wrByte_wrrLeft (a : Nat) (b : Byte) (s : State) : (wrByte a b s).wrrLeft = s.wrrLeft := by unfold wrByte; rfl
@[simp] theorem wrByte_wrrVisits (a : Nat) (b : Byte) (s : State) : (wrByte a b s).wrrVisits = s.wrrVisits := by unfold wrByte; rfl
@[simp] theorem wrByte_flt (a : Nat) (b : Byte) (s : State) : (wrByte a b s).flt = s.flt := by unfold wrByte; rfl
@[simp] theorem wrByte_jnl (a : Nat) (b : Byte) (s : State) : (wrByte a b s).jnl = s.jnl := by unfold wrByte; rfl
@[simp] theorem wrByte_twn (a : Nat) (b : Byte) (s : State) : (wrByte a b s).twn = s.twn := by unfold wrByte; rfl
@[simp] theorem wrByte_stp (a : Nat) (b : Byte) (s : State) : (wrByte a b s).stp = s.stp := by unfold wrByte; rfl
@[simp] theorem wrByte_hie (a : Nat) (b : Byte) (s : State) : (wrByte a b s).hie = s.hie := by unfold wrByte; rfl
@[simp] theorem wrByte_wpt (a : Nat) (b : Byte) (s : State) : (wrByte a b s).wpt = s.wpt := by unfold wrByte; rfl
@[simp] theorem wrByte_img (a : Nat) (b : Byte) (s : State) : (wrByte a b s).img = s.img := by unfold wrByte; rfl
@[simp] theorem wrByte_sys (a : Nat) (b : Byte) (s : State) : (wrByte a b s).sys = s.sys := by unfold wrByte; rfl
@[simp] theorem wrByte_draws (a : Nat) (b : Byte) (s : State) : (wrByte a b s).draws = s.draws := by unfold wrByte; rfl

/-! ### setRg -/

@[simp] theorem setRg_pending (r i : Nat) (v : Word) (s : State) : (setRg r i v s).pending = s.pending := by unfold setRg; rfl
@[simp] theorem setRg_mem (r i : Nat) (v : Word) (s : State) : (setRg r i v s).mem = s.mem := by unfold setRg; rfl
@[simp] theorem setRg_mp (r i : Nat) (v : Word) (s : State) : (setRg r i v s).mp = s.mp := by unfold setRg; rfl
@[simp] theorem setRg_roads (r i : Nat) (v : Word) (s : State) : (setRg r i v s).roads = s.roads := by unfold setRg; rfl
@[simp] theorem setRg_ingest (r i : Nat) (v : Word) (s : State) : (setRg r i v s).ingest = s.ingest := by unfold setRg; rfl
@[simp] theorem setRg_ingestEdge (r i : Nat) (v : Word) (s : State) : (setRg r i v s).ingestEdge = s.ingestEdge := by unfold setRg; rfl
@[simp] theorem setRg_ingested (r i : Nat) (v : Word) (s : State) : (setRg r i v s).ingested = s.ingested := by unfold setRg; rfl
@[simp] theorem setRg_arriveEdge (r i : Nat) (v : Word) (s : State) : (setRg r i v s).arriveEdge = s.arriveEdge := by unfold setRg; rfl
@[simp] theorem setRg_arriveCount (r i : Nat) (v : Word) (s : State) : (setRg r i v s).arriveCount = s.arriveCount := by unfold setRg; rfl
@[simp] theorem setRg_heldEdge (r i : Nat) (v : Word) (s : State) : (setRg r i v s).heldEdge = s.heldEdge := by unfold setRg; rfl
@[simp] theorem setRg_held (r i : Nat) (v : Word) (s : State) : (setRg r i v s).held = s.held := by unfold setRg; rfl
@[simp] theorem setRg_recs (r i : Nat) (v : Word) (s : State) : (setRg r i v s).recs = s.recs := by unfold setRg; rfl
@[simp] theorem setRg_recRun (r i : Nat) (v : Word) (s : State) : (setRg r i v s).recRun = s.recRun := by unfold setRg; rfl
@[simp] theorem setRg_commits (r i : Nat) (v : Word) (s : State) : (setRg r i v s).commits = s.commits := by unfold setRg; rfl
@[simp] theorem setRg_rungEdge (r i : Nat) (v : Word) (s : State) : (setRg r i v s).rungEdge = s.rungEdge := by unfold setRg; rfl
@[simp] theorem setRg_rungQueues (r i : Nat) (v : Word) (s : State) : (setRg r i v s).rungQueues = s.rungQueues := by unfold setRg; rfl
@[simp] theorem setRg_lastServed (r i : Nat) (v : Word) (s : State) : (setRg r i v s).lastServed = s.lastServed := by unfold setRg; rfl
@[simp] theorem setRg_enableReturn (r i : Nat) (v : Word) (s : State) : (setRg r i v s).enableReturn = s.enableReturn := by unfold setRg; rfl
@[simp] theorem setRg_cmpEdge (r i : Nat) (v : Word) (s : State) : (setRg r i v s).cmpEdge = s.cmpEdge := by unfold setRg; rfl
@[simp] theorem setRg_fireEdge (r i : Nat) (v : Word) (s : State) : (setRg r i v s).fireEdge = s.fireEdge := by unfold setRg; rfl
@[simp] theorem setRg_firedRoads (r i : Nat) (v : Word) (s : State) : (setRg r i v s).firedRoads = s.firedRoads := by unfold setRg; rfl
@[simp] theorem setRg_frozen (r i : Nat) (v : Word) (s : State) : (setRg r i v s).frozen = s.frozen := by unfold setRg; rfl
@[simp] theorem setRg_pulses (r i : Nat) (v : Word) (s : State) : (setRg r i v s).pulses = s.pulses := by unfold setRg; rfl
@[simp] theorem setRg_snapCount (r i : Nat) (v : Word) (s : State) : (setRg r i v s).snapCount = s.snapCount := by unfold setRg; rfl
@[simp] theorem setRg_snapAt (r i : Nat) (v : Word) (s : State) : (setRg r i v s).snapAt = s.snapAt := by unfold setRg; rfl
@[simp] theorem setRg_slots (r i : Nat) (v : Word) (s : State) : (setRg r i v s).slots = s.slots := by unfold setRg; rfl
@[simp] theorem setRg_trackers (r i : Nat) (v : Word) (s : State) : (setRg r i v s).trackers = s.trackers := by unfold setRg; rfl
@[simp] theorem setRg_mfeSeq (r i : Nat) (v : Word) (s : State) : (setRg r i v s).mfeSeq = s.mfeSeq := by unfold setRg; rfl
@[simp] theorem setRg_mfeDiscard (r i : Nat) (v : Word) (s : State) : (setRg r i v s).mfeDiscard = s.mfeDiscard := by unfold setRg; rfl
@[simp] theorem setRg_mfeStuck (r i : Nat) (v : Word) (s : State) : (setRg r i v s).mfeStuck = s.mfeStuck := by unfold setRg; rfl
@[simp] theorem setRg_shafts (r i : Nat) (v : Word) (s : State) : (setRg r i v s).shafts = s.shafts := by unfold setRg; rfl
@[simp] theorem setRg_lanes (r i : Nat) (v : Word) (s : State) : (setRg r i v s).lanes = s.lanes := by unfold setRg; rfl
@[simp] theorem setRg_districts (r i : Nat) (v : Word) (s : State) : (setRg r i v s).districts = s.districts := by unfold setRg; rfl
@[simp] theorem setRg_ports (r i : Nat) (v : Word) (s : State) : (setRg r i v s).ports = s.ports := by unfold setRg; rfl
@[simp] theorem setRg_macs (r i : Nat) (v : Word) (s : State) : (setRg r i v s).macs = s.macs := by unfold setRg; rfl
@[simp] theorem setRg_jct (r i : Nat) (v : Word) (s : State) : (setRg r i v s).jct = s.jct := by unfold setRg; rfl
@[simp] theorem setRg_tpk (r i : Nat) (v : Word) (s : State) : (setRg r i v s).tpk = s.tpk := by unfold setRg; rfl
@[simp] theorem setRg_freP (r i : Nat) (v : Word) (s : State) : (setRg r i v s).freP = s.freP := by unfold setRg; rfl
@[simp] theorem setRg_freD (r i : Nat) (v : Word) (s : State) : (setRg r i v s).freD = s.freD := by unfold setRg; rfl
@[simp] theorem setRg_queues (r i : Nat) (v : Word) (s : State) : (setRg r i v s).queues = s.queues := by unfold setRg; rfl
@[simp] theorem setRg_dmaHeld (r i : Nat) (v : Word) (s : State) : (setRg r i v s).dmaHeld = s.dmaHeld := by unfold setRg; rfl
@[simp] theorem setRg_dmaEdge (r i : Nat) (v : Word) (s : State) : (setRg r i v s).dmaEdge = s.dmaEdge := by unfold setRg; rfl
@[simp] theorem setRg_wrrCur (r i : Nat) (v : Word) (s : State) : (setRg r i v s).wrrCur = s.wrrCur := by unfold setRg; rfl
@[simp] theorem setRg_wrrLeft (r i : Nat) (v : Word) (s : State) : (setRg r i v s).wrrLeft = s.wrrLeft := by unfold setRg; rfl
@[simp] theorem setRg_wrrVisits (r i : Nat) (v : Word) (s : State) : (setRg r i v s).wrrVisits = s.wrrVisits := by unfold setRg; rfl
@[simp] theorem setRg_flt (r i : Nat) (v : Word) (s : State) : (setRg r i v s).flt = s.flt := by unfold setRg; rfl
@[simp] theorem setRg_jnl (r i : Nat) (v : Word) (s : State) : (setRg r i v s).jnl = s.jnl := by unfold setRg; rfl
@[simp] theorem setRg_twn (r i : Nat) (v : Word) (s : State) : (setRg r i v s).twn = s.twn := by unfold setRg; rfl
@[simp] theorem setRg_stp (r i : Nat) (v : Word) (s : State) : (setRg r i v s).stp = s.stp := by unfold setRg; rfl
@[simp] theorem setRg_hie (r i : Nat) (v : Word) (s : State) : (setRg r i v s).hie = s.hie := by unfold setRg; rfl
@[simp] theorem setRg_wpt (r i : Nat) (v : Word) (s : State) : (setRg r i v s).wpt = s.wpt := by unfold setRg; rfl
@[simp] theorem setRg_img (r i : Nat) (v : Word) (s : State) : (setRg r i v s).img = s.img := by unfold setRg; rfl
@[simp] theorem setRg_sys (r i : Nat) (v : Word) (s : State) : (setRg r i v s).sys = s.sys := by unfold setRg; rfl
@[simp] theorem setRg_draws (r i : Nat) (v : Word) (s : State) : (setRg r i v s).draws = s.draws := by unfold setRg; rfl

/-! ### Fields of registers -/

/-- Storing a field stores its register and nothing else. -/
theorem setRgF_eq (r i hi lo v : Nat) (s : State) : setRgF r i hi lo v s = setRg r i (setFld (rg r i s) hi lo v) s := rfl

theorem bump_eq (r i hi lo : Nat) (s : State) :
    bump r i hi lo s = setRg r i (setFld (rg r i s) hi lo (fld (rg r i s) hi lo + 1)) s := rfl

/-! ### wrBytes -/

/-- Writing bytes changes memory and nothing else. -/
theorem wrBytes_frame (a : Nat) (d : Bytes) (s : State) : wrBytes a d s = { s with mem := (wrBytes a d s).mem } := by
  induction d generalizing a s with
  | nil => rfl
  | cons b t ih =>
    simp only [wrBytes]
    rw [ih (a + 1) (wrByte a b s)]
    rfl

@[simp] theorem wrBytes_pending (a : Nat) (d : Bytes) (s : State) : (wrBytes a d s).pending = s.pending := by rw [wrBytes_frame]
@[simp] theorem wrBytes_regs (a : Nat) (d : Bytes) (s : State) : (wrBytes a d s).regs = s.regs := by rw [wrBytes_frame]
@[simp] theorem wrBytes_mp (a : Nat) (d : Bytes) (s : State) : (wrBytes a d s).mp = s.mp := by rw [wrBytes_frame]
@[simp] theorem wrBytes_roads (a : Nat) (d : Bytes) (s : State) : (wrBytes a d s).roads = s.roads := by rw [wrBytes_frame]
@[simp] theorem wrBytes_ingest (a : Nat) (d : Bytes) (s : State) : (wrBytes a d s).ingest = s.ingest := by rw [wrBytes_frame]
@[simp] theorem wrBytes_ingestEdge (a : Nat) (d : Bytes) (s : State) : (wrBytes a d s).ingestEdge = s.ingestEdge := by rw [wrBytes_frame]
@[simp] theorem wrBytes_ingested (a : Nat) (d : Bytes) (s : State) : (wrBytes a d s).ingested = s.ingested := by rw [wrBytes_frame]
@[simp] theorem wrBytes_arriveEdge (a : Nat) (d : Bytes) (s : State) : (wrBytes a d s).arriveEdge = s.arriveEdge := by rw [wrBytes_frame]
@[simp] theorem wrBytes_arriveCount (a : Nat) (d : Bytes) (s : State) : (wrBytes a d s).arriveCount = s.arriveCount := by rw [wrBytes_frame]
@[simp] theorem wrBytes_heldEdge (a : Nat) (d : Bytes) (s : State) : (wrBytes a d s).heldEdge = s.heldEdge := by rw [wrBytes_frame]
@[simp] theorem wrBytes_held (a : Nat) (d : Bytes) (s : State) : (wrBytes a d s).held = s.held := by rw [wrBytes_frame]
@[simp] theorem wrBytes_recs (a : Nat) (d : Bytes) (s : State) : (wrBytes a d s).recs = s.recs := by rw [wrBytes_frame]
@[simp] theorem wrBytes_recRun (a : Nat) (d : Bytes) (s : State) : (wrBytes a d s).recRun = s.recRun := by rw [wrBytes_frame]
@[simp] theorem wrBytes_commits (a : Nat) (d : Bytes) (s : State) : (wrBytes a d s).commits = s.commits := by rw [wrBytes_frame]
@[simp] theorem wrBytes_rungEdge (a : Nat) (d : Bytes) (s : State) : (wrBytes a d s).rungEdge = s.rungEdge := by rw [wrBytes_frame]
@[simp] theorem wrBytes_rungQueues (a : Nat) (d : Bytes) (s : State) : (wrBytes a d s).rungQueues = s.rungQueues := by rw [wrBytes_frame]
@[simp] theorem wrBytes_lastServed (a : Nat) (d : Bytes) (s : State) : (wrBytes a d s).lastServed = s.lastServed := by rw [wrBytes_frame]
@[simp] theorem wrBytes_enableReturn (a : Nat) (d : Bytes) (s : State) : (wrBytes a d s).enableReturn = s.enableReturn := by rw [wrBytes_frame]
@[simp] theorem wrBytes_cmpEdge (a : Nat) (d : Bytes) (s : State) : (wrBytes a d s).cmpEdge = s.cmpEdge := by rw [wrBytes_frame]
@[simp] theorem wrBytes_fireEdge (a : Nat) (d : Bytes) (s : State) : (wrBytes a d s).fireEdge = s.fireEdge := by rw [wrBytes_frame]
@[simp] theorem wrBytes_firedRoads (a : Nat) (d : Bytes) (s : State) : (wrBytes a d s).firedRoads = s.firedRoads := by rw [wrBytes_frame]
@[simp] theorem wrBytes_frozen (a : Nat) (d : Bytes) (s : State) : (wrBytes a d s).frozen = s.frozen := by rw [wrBytes_frame]
@[simp] theorem wrBytes_pulses (a : Nat) (d : Bytes) (s : State) : (wrBytes a d s).pulses = s.pulses := by rw [wrBytes_frame]
@[simp] theorem wrBytes_snapCount (a : Nat) (d : Bytes) (s : State) : (wrBytes a d s).snapCount = s.snapCount := by rw [wrBytes_frame]
@[simp] theorem wrBytes_snapAt (a : Nat) (d : Bytes) (s : State) : (wrBytes a d s).snapAt = s.snapAt := by rw [wrBytes_frame]
@[simp] theorem wrBytes_slots (a : Nat) (d : Bytes) (s : State) : (wrBytes a d s).slots = s.slots := by rw [wrBytes_frame]
@[simp] theorem wrBytes_trackers (a : Nat) (d : Bytes) (s : State) : (wrBytes a d s).trackers = s.trackers := by rw [wrBytes_frame]
@[simp] theorem wrBytes_mfeSeq (a : Nat) (d : Bytes) (s : State) : (wrBytes a d s).mfeSeq = s.mfeSeq := by rw [wrBytes_frame]
@[simp] theorem wrBytes_mfeDiscard (a : Nat) (d : Bytes) (s : State) : (wrBytes a d s).mfeDiscard = s.mfeDiscard := by rw [wrBytes_frame]
@[simp] theorem wrBytes_mfeStuck (a : Nat) (d : Bytes) (s : State) : (wrBytes a d s).mfeStuck = s.mfeStuck := by rw [wrBytes_frame]
@[simp] theorem wrBytes_shafts (a : Nat) (d : Bytes) (s : State) : (wrBytes a d s).shafts = s.shafts := by rw [wrBytes_frame]
@[simp] theorem wrBytes_lanes (a : Nat) (d : Bytes) (s : State) : (wrBytes a d s).lanes = s.lanes := by rw [wrBytes_frame]
@[simp] theorem wrBytes_districts (a : Nat) (d : Bytes) (s : State) : (wrBytes a d s).districts = s.districts := by rw [wrBytes_frame]
@[simp] theorem wrBytes_ports (a : Nat) (d : Bytes) (s : State) : (wrBytes a d s).ports = s.ports := by rw [wrBytes_frame]
@[simp] theorem wrBytes_macs (a : Nat) (d : Bytes) (s : State) : (wrBytes a d s).macs = s.macs := by rw [wrBytes_frame]
@[simp] theorem wrBytes_jct (a : Nat) (d : Bytes) (s : State) : (wrBytes a d s).jct = s.jct := by rw [wrBytes_frame]
@[simp] theorem wrBytes_tpk (a : Nat) (d : Bytes) (s : State) : (wrBytes a d s).tpk = s.tpk := by rw [wrBytes_frame]
@[simp] theorem wrBytes_freP (a : Nat) (d : Bytes) (s : State) : (wrBytes a d s).freP = s.freP := by rw [wrBytes_frame]
@[simp] theorem wrBytes_freD (a : Nat) (d : Bytes) (s : State) : (wrBytes a d s).freD = s.freD := by rw [wrBytes_frame]
@[simp] theorem wrBytes_queues (a : Nat) (d : Bytes) (s : State) : (wrBytes a d s).queues = s.queues := by rw [wrBytes_frame]
@[simp] theorem wrBytes_dmaHeld (a : Nat) (d : Bytes) (s : State) : (wrBytes a d s).dmaHeld = s.dmaHeld := by rw [wrBytes_frame]
@[simp] theorem wrBytes_dmaEdge (a : Nat) (d : Bytes) (s : State) : (wrBytes a d s).dmaEdge = s.dmaEdge := by rw [wrBytes_frame]
@[simp] theorem wrBytes_wrrCur (a : Nat) (d : Bytes) (s : State) : (wrBytes a d s).wrrCur = s.wrrCur := by rw [wrBytes_frame]
@[simp] theorem wrBytes_wrrLeft (a : Nat) (d : Bytes) (s : State) : (wrBytes a d s).wrrLeft = s.wrrLeft := by rw [wrBytes_frame]
@[simp] theorem wrBytes_wrrVisits (a : Nat) (d : Bytes) (s : State) : (wrBytes a d s).wrrVisits = s.wrrVisits := by rw [wrBytes_frame]
@[simp] theorem wrBytes_flt (a : Nat) (d : Bytes) (s : State) : (wrBytes a d s).flt = s.flt := by rw [wrBytes_frame]
@[simp] theorem wrBytes_jnl (a : Nat) (d : Bytes) (s : State) : (wrBytes a d s).jnl = s.jnl := by rw [wrBytes_frame]
@[simp] theorem wrBytes_twn (a : Nat) (d : Bytes) (s : State) : (wrBytes a d s).twn = s.twn := by rw [wrBytes_frame]
@[simp] theorem wrBytes_stp (a : Nat) (d : Bytes) (s : State) : (wrBytes a d s).stp = s.stp := by rw [wrBytes_frame]
@[simp] theorem wrBytes_hie (a : Nat) (d : Bytes) (s : State) : (wrBytes a d s).hie = s.hie := by rw [wrBytes_frame]
@[simp] theorem wrBytes_wpt (a : Nat) (d : Bytes) (s : State) : (wrBytes a d s).wpt = s.wpt := by rw [wrBytes_frame]
@[simp] theorem wrBytes_img (a : Nat) (d : Bytes) (s : State) : (wrBytes a d s).img = s.img := by rw [wrBytes_frame]
@[simp] theorem wrBytes_sys (a : Nat) (d : Bytes) (s : State) : (wrBytes a d s).sys = s.sys := by rw [wrBytes_frame]
@[simp] theorem wrBytes_draws (a : Nat) (d : Bytes) (s : State) : (wrBytes a d s).draws = s.draws := by rw [wrBytes_frame]

end Sys2Proof.Machine
end

