-- ==== Sys2Proof/Laws/Flags.lean ====
section
/-! SUPPORT. What the shared operations over causes, faults, event lines and memory answers can do: one law each. -/

set_option Elab.async false

namespace Sys2Proof.Machine

open Sys2Proof

/-- What every element's operation keeps, the whole walk keeps. -/
theorem forEach_keeps {α : Type} (P : State → Prop) (l : List α) (f : α → State → State) (s : State)
    (hf : ∀ a ∈ l, ∀ t : State, P t → P (f a t)) (hs : P s) : P (forEach l f s) := by
  unfold forEach
  induction l generalizing s with
  | nil => exact hs
  | cons a l ih =>
    exact ih _ (fun b hb => hf b (List.mem_cons_of_mem _ hb)) (hf a List.mem_cons_self s hs)

@[simp] theorem forEach_nil {α : Type} (f : α → State → State) (s : State) : forEach [] f s = s := rfl
@[simp] theorem forEach_cons {α : Type} (a : α) (l : List α) (f : α → State → State) (s : State) :
    forEach (a :: l) f s = forEach l f (f a s) := rfl

theorem setRg_frame (r i : Nat) (v : Word) (s : State) : ∃ x, setRg r i v s = { s with regs := x } := ⟨_, rfl⟩
theorem setRgF_frame (r i hi lo v : Nat) (s : State) : ∃ x, setRgF r i hi lo v s = { s with regs := x } := ⟨_, rfl⟩
theorem bump_frame (r i hi lo : Nat) (s : State) : ∃ x, bump r i hi lo s = { s with regs := x } := ⟨_, rfl⟩
theorem addRgF_frame (r i hi lo n : Nat) (s : State) : ∃ x, addRgF r i hi lo n s = { s with regs := x } := ⟨_, rfl⟩

theorem causes_trans (s t u : State) (h : ∃ x q, t = { s with regs := x, flt := q })
    (k : ∃ x q, u = { t with regs := x, flt := q }) : ∃ x q, u = { s with regs := x, flt := q } := by
  obtain ⟨x, q, rfl⟩ := h
  obtain ⟨y, r, rfl⟩ := k
  exact ⟨y, r, rfl⟩

theorem causes_refl (s : State) : ∃ x q, s = { s with regs := x, flt := q } := ⟨s.regs, s.flt, rfl⟩

theorem causes_of_regs (s t : State) (h : ∃ x, t = { s with regs := x }) : ∃ x q, t = { s with regs := x, flt := q } := by
  obtain ⟨x, rfl⟩ := h
  exact ⟨x, s.flt, rfl⟩

theorem flt_frame (s : State) (q : FaultRun) : ∃ x q', { s with flt := q } = { s with regs := x, flt := q' } :=
  ⟨s.regs, q, rfl⟩

/-- An occurrence changes registers and the fault collector only (R323-R327). -/
theorem occurs_frame (src : Nat) (forced rise : Bool) (s : State) :
    ∃ x q, occurs src forced rise s = { s with regs := x, flt := q } := by
  unfold occurs
  extract_lets s1 n f1 s2 s3 o q f2 s4
  have h1 : ∃ x q, s1 = { s with regs := x, flt := q } :=
    causes_trans _ _ _ (flt_frame s _) (causes_of_regs _ _ (setRg_frame ..))
  split
  · exact h1
  · have h3 : ∃ x q, s3 = { s with regs := x, flt := q } :=
      causes_trans _ _ _ (causes_trans _ _ _ h1 (flt_frame s1 _)) (causes_of_regs _ _ (setRgF_frame ..))
    have h4 : ∃ x q, s4 = { s with regs := x, flt := q } := causes_trans _ _ _ h3 (flt_frame s3 _)
    split
    · exact causes_trans _ _ _ (causes_trans _ _ _ (causes_trans _ _ _ h4 (flt_frame s4 _))
        (causes_of_regs _ _ (setRgF_frame ..))) (causes_of_regs _ _ (bump_frame ..))
    · exact h4

theorem raiseSrc_frame (src : Nat) (s : State) : ∃ x q, raiseSrc src s = { s with regs := x, flt := q } := by
  unfold raiseSrc
  split
  · exact causes_of_regs _ _ (setRg_frame ..)
  · exact occurs_frame ..

/-- Setting a cause changes registers and the fault collector only (R323, R325). -/
theorem setCause_frame (r i b : Nat) (s : State) : ∃ x q, setCause r i b s = { s with regs := x, flt := q } := by
  unfold setCause
  split
  · exact causes_refl s
  · extract_lets s1
    have h1 := causes_of_regs _ _ (setRg_frame r i (setBit (rg r i s) b true) s)
    split
    · exact causes_trans _ _ _ h1 (raiseSrc_frame ..)
    · exact h1

/-- A cause that is set already changes nothing (R323). -/
theorem setCause_set (r i b : Nat) (s : State) (h : bit (rg r i s) b = true) : setCause r i b s = s := by
  simp [setCause, h]

/-- A pulse changes the line's counts and the pulses that wait only (R84). -/
theorem pulseLineAt_frame (l : Nat) (ns : Word) (s : State) :
    ∃ x p, pulseLineAt l ns s = { s with regs := x, pulses := p } := by
  unfold pulseLineAt
  split
  · exact ⟨s.regs, s.pulses, rfl⟩
  · split
    · obtain ⟨x, h⟩ := bump_frame MST_EVT_CNT l 15 8 s
      exact ⟨x, s.pulses, h⟩
    · exact ⟨_, _, rfl⟩

/-- Pulsing every line of a source changes lines' counts and the pulses that wait only (R84, R85). -/
theorem pulseSource_frame (e : EventSource) (s : State) :
    ∃ x p, pulseSource e s = { s with regs := x, pulses := p } := by
  unfold pulseSource
  refine forEach_keeps (fun t => ∃ x p, t = { s with regs := x, pulses := p }) _ _ s ?_ ⟨s.regs, s.pulses, rfl⟩
  rintro a - t ⟨x, p, rfl⟩
  obtain ⟨x', p', h⟩ := pulseLineAt_frame a.1 (now { s with regs := x, pulses := p }) { s with regs := x, pulses := p }
  exact ⟨x', p', h⟩

/-- What a memory's answer records changes registers and the fault collector only (R112, R446, R453). -/
theorem noteAnswer_frame (a : Nat) (ans : MemAnswer) (s : State) :
    ∃ x q, noteAnswer a ans s = { s with regs := x, flt := q } := by
  have key : ∀ r i hi lo r' i' b, ∃ x q, setCause r' i' b (bump r i hi lo s) = { s with regs := x, flt := q } :=
    fun r i hi lo r' i' b => causes_trans _ _ _ (causes_of_regs _ _ (bump_frame r i hi lo s)) (setCause_frame ..)
  unfold noteAnswer
  extract_lets dst ch
  have hd : ∀ d, ∃ x q, dst d = { s with regs := x, flt := q } := by
    intro d
    cases ans
    · exact causes_refl s
    · exact causes_of_regs _ _ (bump_frame ..)
    · exact key ..
    · exact causes_refl s
  have hc : ∀ c, ∃ x q, ch c = { s with regs := x, flt := q } := by
    intro c
    cases ans
    · exact causes_refl s
    · exact causes_of_regs _ _ (bump_frame ..)
    · exact key ..
    · exact setCause_frame ..
  split
  · exact hd _
  · exact hd _
  · exact hc _
  · exact hc _
  · exact hc _
  · exact causes_refl s

/-- A refused path writes nothing; a write that is taken is made at the instance that the path's window shows. -/
theorem atInst_taken (path r i : Nat) (f : Nat → State → State) (s : State) (hw : winOf path r s = some i)
    (hr : writable path r i s = true) : atInst path r f s = f i s := by simp [atInst, hw, hr]

theorem atInst_ignored (path r i : Nat) (f : Nat → State → State) (s : State) (hw : winOf path r s = some i)
    (hr : writable path r i s = false) : atInst path r f s = s := by simp [atInst, hw, hr]

theorem atInst_empty (path r : Nat) (f : Nat → State → State) (s : State) (hw : winOf path r s = none) :
    atInst path r f s = s := by simp [atInst, hw]

theorem atGlobal_taken (path r : Nat) (f : State → State) (s : State) (hr : writable path r 0 s = true) :
    atGlobal path r f s = f s := by simp [atGlobal, hr]

theorem atGlobal_ignored (path r : Nat) (f : State → State) (s : State) (hr : writable path r 0 s = false) :
    atGlobal path r f s = s := by simp [atGlobal, hr]

end Sys2Proof.Machine
end

