-- ==== Sys2Proof/Certificates/Slice0/Obligations.lean ====
section
/-! DEFINITION. The statements for the provers. Each docstring names the rules of the spec that it rests on, and the log
entries of what is the model's choice. -/

set_option Elab.async false

open Sys2Proof Sys2Proof.Machine

/-- Log entry 1 (the model's choice): the block takes its commands first in, first out. Every command at the front of the
queue is carried out on the block with the rest of the queue, and an empty queue leaves the block as it is (log entry 1).
Log entries 2 and 3 (the model's choice): no command stops the block, so every step answers a next state. -/
def Obligations.StepCarriesOutTheFrontCommand : Prop :=
  ((∀ (c : Instr) (rest : List Instr) (s : State),
      step { s with pending := c :: rest } = exec c { s with pending := rest }) ∧
  (∀ s : State, s.pending = [] → step s = .next s)) ∧
  (∀ s : State, ∃ t : State, step s = .next t)

/-- Log entry 1: a step takes the front command off the queue and no command changes the rest of it. -/
def Obligations.NoCommandChangesTheQueue : Prop :=
  ∀ s t : State, step s = .next t → t.pending = s.pending.tail

/-- Memory and the register store keep their canonical forms over every step. The model's own readings that its clauses
meet: log entry 8. -/
def Obligations.EveryStepKeepsTheCanonicalForms : Prop :=
  ∀ s t : State, State.wf s = true → step s = .next t → State.wf t = true

/-- R28, R9, R42: after reset the counter reads 0, the increment is 4.0 ns (MPT_INCR_INT 4, MPT_INCR_FRAC 0), every lane
is idle with no job queued, every road is IDLE, SAFE_n is driven low, no fault source is set, and no fault event,
observation, event-line pulse or command is waiting. The reset values that the model names itself are those of log entries
5 to 7. The state right after reset is in canonical form. -/
def Obligations.ResetLeavesTheBlockIdle : Prop :=
  (State.reset.mp.counter = 0 ∧ rg MPT_INCR_INT 0 State.reset = 4 ∧ rg MPT_INCR_FRAC 0 State.reset = 0 ∧
  (∀ l : Lane, (lane l State.reset).run = .idle ∧ (lane l State.reset).queue = []) ∧
  (∀ n : Fin 64, (road n State.reset).state = .idle) ∧
  State.reset.flt.safeLow = true ∧ (∀ src : Fin 2048, srcSticky src State.reset = false) ∧
  State.reset.flt.queue = [] ∧ State.reset.ingest = [] ∧ State.reset.pulses = [] ∧ State.reset.pending = []) ∧
  (State.wf State.reset = true)

/-- R22, R25: on a TCLK edge with no step pending the counter adds the active increment modulo 2^64 and one edge is
counted; where no gate list takes a step on it (R250), memory, roads and lanes are unchanged, and milestone records too
when no commit waits (R75). On an edge with the step pending (R26) the counter takes the step target instead, step_used
becomes 1 and the step is no longer pending. R23, R25: INCREMENT_APPLIED is the edge on which a committed increment
becomes active: after it MPT_INCR_INT and MPT_INCR_FRAC hold the committed increment and none is pending, and the edge
itself still added the old increment, or took the target of a pending step. STEP_TAKEN is the edge on which a pending
step is taken (R26): the counter takes the target and step_used is 1. With no increment, or no step, pending each of
them leaves the block as it is. The model's own readings that its clauses meet: log entries 11 and 139. Log entry 3 (the
model's choice): a command whose event does not hold leaves the block as it is. -/
def Obligations.MilepostEdgesAdvanceTheCounter : Prop :=
  ((∀ s : State, bit (rg MPT_STATUS 0 s) 1 = false → ∃ t : State, exec .milepostTick s = .next t ∧
    t.mp.counter = s.mp.counter + BitVec.ofNat 64 (activeIncr s) ∧ t.mp.tclk = s.mp.tclk + 1 ∧
    (noStepDue s → t.mem = s.mem ∧ t.roads = s.roads ∧ t.lanes = s.lanes ∧ (s.commits = [] → t.recs = s.recs))) ∧
  (∀ s : State, bit (rg MPT_STATUS 0 s) 1 = true → ∃ t : State, exec .milepostTick s = .next t ∧
    t.mp.counter = rg MPT_SET_NS 0 s ++ rg MPT_SET_FRAC 0 s ∧ t.mp.tclk = s.mp.tclk + 1 ∧
    bit (rg MPT_STATUS 0 t) 0 = true ∧ bit (rg MPT_STATUS 0 t) 1 = false)) ∧
  ((∀ s : State, bit (rg MPT_STATUS 0 s) 2 = true →
    ∃ t : State, exec .incrementApplied s = .next t ∧ activeIncr t = s.mp.stagedIncr.toNat ∧
      bit (rg MPT_STATUS 0 t) 2 = false ∧ t.mp.tclk = s.mp.tclk + 1 ∧
      t.mp.counter = (if bit (rg MPT_STATUS 0 s) 1 then rg MPT_SET_NS 0 s ++ rg MPT_SET_FRAC 0 s
        else s.mp.counter + BitVec.ofNat 64 (activeIncr s))) ∧
  (∀ s : State, bit (rg MPT_STATUS 0 s) 1 = true →
    ∃ t : State, exec .stepTaken s = .next t ∧ t.mp.counter = rg MPT_SET_NS 0 s ++ rg MPT_SET_FRAC 0 s ∧
      t.mp.tclk = s.mp.tclk + 1 ∧ bit (rg MPT_STATUS 0 t) 0 = true ∧ bit (rg MPT_STATUS 0 t) 1 = false) ∧
  (∀ s : State, bit (rg MPT_STATUS 0 s) 2 = false → exec .incrementApplied s = .next s) ∧
  (∀ s : State, bit (rg MPT_STATUS 0 s) 1 = false → exec .stepTaken s = .next s))

/-- R23, R24, R26: from the path that servo_owner names, with function 199 out of reset, a write of MPT_INCR_FRAC stages
the fraction; a write of MPT_INCR_INT that completes an increment in range commits it, pending; MPT_STEP.go makes the
step pending while step_used is 0, is refused, counted and raises cause 2 while it is 1, and a write of 0 does nothing.
From another path the three writes change nothing. R25, R39: a read of MPT_NS latches the fraction of the counter into
MPT_FRAC for its own path only and changes nothing else; a read of MPT_TS2_TIME removes the head entry of the two-step
FIFO of the trunk that the path's window shows, an empty FIFO stays empty, and a window on no trunk changes nothing.
R41, R31: with function 199 out of reset, a write of MPT_FW_SET from a supervisor core sets the causes 7, 8 and 9 that
its bits 0, 1 and 2 name; from a session it changes nothing. The firmware's publication writes the 32 bytes of the
extended-time record: an even seq past the old one, the flags with valid, the extended time of now, the TAI base, the
UTC offset and zeros; no other byte, no register and no Milepost state changes. A late one also sets cause 9. The
model's own readings that its clauses meet: log entries 11 and 12. Log entry 3 (the model's choice): a command whose
event does not hold leaves the block as it is. -/
def Obligations.MilepostCommandsStageLatchAndPublish : Prop :=
  ((∀ (p : Path) (v : Word) (s : State), servoOwner p s = true → inReset 199 s = false →
    exec (.mptIncrFracWrite p v) s = .next { s with mp := { s.mp with stagedFrac := v } } ∧
    (incrOk (v.toNat % 256 * 2 ^ 32 + s.mp.stagedFrac.toNat) = true →
      exec (.mptIncrIntWrite p v) s = .next (setRgF MPT_STATUS 0 2 2 1
        { s with mp := { s.mp with stagedIncr := BitVec.ofNat 40 (v.toNat % 256 * 2 ^ 32 + s.mp.stagedFrac.toNat) } })) ∧
    exec (.mptStepGo p v) s = .next (if bit v 0 = false then s
      else if bit (rg MPT_STATUS 0 s) 0 = true then setCause MPT_CAUSE 0 2 (bump MPT_REFUSED 0 15 0 s)
      else setRgF MPT_STATUS 0 1 1 1 s)) ∧
  (∀ (p : Path) (v : Word) (s : State), servoOwner p s = false →
    exec (.mptIncrFracWrite p v) s = .next s ∧ exec (.mptIncrIntWrite p v) s = .next s ∧
    exec (.mptStepGo p v) s = .next s)) ∧
  ((∀ (p : Path) (s : State), exec (.mptNsRead p) s = .next (setRg MPT_FRAC p (w32 s.mp.counter.toNat) s)) ∧
  (∀ (p : Path) (k : Nat) (s : State), winOf p MPT_TS2_TIME s = some (128 + k) → k < 4 →
    exec (.mptTs2TimeRead p) s = .next (setTs2 k (ts2 k s).tail s)) ∧
  (∀ (p : Path) (s : State), (∀ k : Nat, k < 4 → winOf p MPT_TS2_TIME s ≠ some (128 + k)) →
    exec (.mptTs2TimeRead p) s = .next s)) ∧
  ((∀ (p : Path) (v : Word) (s : State), inReset 199 s = false →
    exec (.mptFwSetWrite p v) s = .next (if p.val < 4 then
      forEach [0, 1, 2] (fun i s => if bit v i then setCause MPT_CAUSE 0 (7 + i) s else s) s else s)) ∧
  (∀ (base : BitVec 64) (utc : BitVec 16) (valid late : Bool) (s : State),
    ∃ t : State, exec (.extTimePublish base utc valid late) s = .next t ∧
      rdBytes supervisorBase 32 t = leBytes 4 ((rdWord supervisorBase s + 2).toNat / 2 * 2) ++
        leBytes 4 (1 + 2 * b2n valid) ++ leBytes 8 (s.mp.extWraps.toNat * 2 ^ 32 + (now s).toNat) ++
        leBytes 8 base.toNat ++ leBytes 2 utc.toNat ++ zeros 6 ∧
      (∀ a : Nat, a < supervisorBase ∨ supervisorBase + 32 ≤ a → rdByte a t = rdByte a s) ∧ t.mp = s.mp ∧
      (late = false → t.regs = s.regs) ∧
      (late = true → inReset 199 s = false → bit (rg MPT_CAUSE 0 t) 9 = true)))

/-- R22: a commit by the servo's owner of an increment from 3.984375 ns to 4.015625 ns waits for the next edge; one
outside that range leaves the active increment as it is, is counted as refused and raises source 1443 with its cause bit.
-/
def Obligations.IncrementsOutOfRangeAreRefused : Prop :=
  ∀ (p : Path) (v : Word) (s : State), servoOwner p s = true → inReset 199 s = false →
    let x := v.toNat % 256 * 2 ^ 32 + s.mp.stagedFrac.toNat
    (0x3FC000000 ≤ x ∧ x ≤ 0x404000000 → exec (.mptIncrIntWrite p v) s =
      .next (setRgF MPT_STATUS 0 2 2 1 { s with mp := { s.mp with stagedIncr := BitVec.ofNat 40 x } })) ∧
    (x < 0x3FC000000 ∨ 0x404000000 < x → ∃ t : State, exec (.mptIncrIntWrite p v) s = .next t ∧
      activeIncr t = activeIncr s ∧ t.mp = s.mp ∧
      rgF MPT_REFUSED 0 31 16 t = (rgF MPT_REFUSED 0 31 16 s + 1) % 2 ^ 16 ∧
      (bit (rg MPT_CAUSE 0 s) 3 = false → srcSticky 1443 t = true) ∧ t.mem = s.mem ∧ t.lanes = s.lanes)

/-- R57, R48, R49, R60: with function 200 out of reset, ROAD_START of an IDLE road of any kind but 1 enters ACQUIRING
with its initialisation pending, position 0 and cause 1; of a clock road it enters TRACKING with cause 1, its count
being now modulo the period and its lap 0. ROAD_STOP of a road that is not IDLE, road 0 excepted, enters IDLE with
position and rate 0 and cause 2; an observation that left the queue for it on that edge is discarded and counts as
stale, not as applied (R58). ROAD_REACQUIRE of a road of kinds 2-5 that is not IDLE, on an edge on which no observation
has left the queue for it (R58), enters ACQUIRING with its initialisation pending and cause 11. No other road and no
lane changes; of memory only the next history entry (the first one after a start), where the road was not TRACKING or no
gate list follows it. A start of a road that is not IDLE, a stop or a reacquire of an IDLE one and a reacquire of a
clock road leave the block as it is. R49: road 0 is never stopped. R57, R58: on an edge on which no observation is about
to be applied to it, a TRACKING or HELD road of observations whose timeout has run enters COASTING with cause 4; a
COASTING road whose coast limit has run or whose horizon has passed, and an ACQUIRING one to which none was applied
since its entry and whose both limits have run, enter LOST with cause 6. No other road and no lane changes. Where an
observation is about to be applied, and before the limits have run, the commands leave the block as it is. The model's
own readings that its clauses meet: log entries 13, 16, 18, 19 and 124. Log entry 3 (the model's choice): a command
whose event does not hold leaves the block as it is. -/
def Obligations.RoadCommandsMoveTheRoadsState : Prop :=
  (∀ (n : Fin 64) (s : State), inReset 200 s = false →
    ((road n s).state = .idle → roadKind n s ≠ 1 → ∃ t : State, exec (.roadStart n) s = .next t ∧
      (road n t).state = .acquiring ∧ (road n t).initPending = true ∧ (road n t).pub = 0 ∧ rgF ROA_STATE n 7 4 t = 1 ∧
      (∀ m : Fin 64, m ≠ n → road m t = road m s) ∧ t.lanes = s.lanes ∧
      (∀ a : Nat, a < histAddr n 0 ∨ histAddr n 0 + 24 ≤ a → rdByte a t = rdByte a s)) ∧
    ((road n s).state = .idle → roadKind n s = 1 → ∃ t : State, exec (.roadStart n) s = .next t ∧
      (road n t).state = .tracking ∧ (road n t).tS = now s ∧
      (road n t).n = (now s).toNat % max 1 (rg ROA_PERIOD n s).toNat ∧ (road n t).lap = 0 ∧ rgF ROA_STATE n 7 4 t = 1 ∧
      (∀ m : Fin 64, m ≠ n → road m t = road m s) ∧ t.lanes = s.lanes ∧
      (∀ a : Nat, a < histAddr n 0 ∨ histAddr n 0 + 24 ≤ a → rdByte a t = rdByte a s)) ∧
    (let u := beforeIngest n s
     n ≠ 0 → (road n u).state ≠ .idle → ∃ t : State, exec (.roadStop n) s = .next t ∧
      (road n t).state = .idle ∧ (road n t).pub = 0 ∧ (road n t).pubRate = 0 ∧ rgF ROA_STATE n 7 4 t = 2 ∧
      (∀ m : Fin 64, m ≠ n → road m t = road m s) ∧ t.lanes = s.lanes ∧
      (∀ x : Ingested, ingestedNow n s = some x → rg ROA_CNT_ACC n t = x.accepted ∧
        rgF ROA_CNT_REJ n 31 16 t = (x.rejected.toNat / 2 ^ 16 + 1) % 2 ^ 16) ∧
      ((road n u).state ≠ .tracking ∨ listsOf n s = [] →
        ∀ a : Nat, a < histAddr n (rgF ROA_HIST n 11 0 u) ∨ histAddr n (rgF ROA_HIST n 11 0 u) + 24 ≤ a →
          rdByte a t = rdByte a s)) ∧
    ((road n s).state ≠ .idle → 2 ≤ roadKind n s → ingestedNow n s = none → ∃ t : State, exec (.roadReacquire n) s = .next t ∧
      (road n t).state = .acquiring ∧ (road n t).initPending = true ∧ rgF ROA_STATE n 7 4 t = 11 ∧
      (∀ m : Fin 64, m ≠ n → road m t = road m s) ∧ t.lanes = s.lanes ∧
      ((road n s).state ≠ .tracking ∨ listsOf n s = [] →
        ∀ a : Nat, a < histAddr n (rgF ROA_HIST n 11 0 s) ∨ histAddr n (rgF ROA_HIST n 11 0 s) + 24 ≤ a →
          rdByte a t = rdByte a s)) ∧
    ((road n s).state ≠ .idle → exec (.roadStart n) s = .next s) ∧
    ((road n (beforeIngest n s)).state = .idle → exec (.roadStop n) s = .next s) ∧
    ((road n (beforeIngest n s)).state = .idle ∨ roadKind n s < 2 → exec (.roadReacquire n) s = .next s)) ∧
  (∀ s : State, exec (.roadStop 0) s = .next s) ∧
  (∀ (n : Fin 64) (s : State), roadKind n s ≠ 1 →
    (applyComes n s = true → exec (.obsTimeout n) s = .next s ∧ exec (.coastLimitExpiry n) s = .next s) ∧
    (applyComes n s = false →
      ((road n s).state = .tracking ∨ (road n s).state = .held →
        if (obsTimeoutNs n s : Int) ≤ diff32 (now s) (road n s).lastTime then
          ∃ t : State, exec (.obsTimeout n) s = .next t ∧ (road n t).state = .coasting ∧ rgF ROA_STATE n 7 4 t = 4 ∧
            (∀ m : Fin 64, m ≠ n → road m t = road m s) ∧ t.lanes = s.lanes
        else exec (.obsTimeout n) s = .next s) ∧
      ((road n s).state = .coasting →
        if (coastLimitNs n s : Int) ≤ diff32 (now s) (road n s).entered ∨
            ((road n s).horizon : Int) < diff32 (now s) (road n s).tS then
          ∃ t : State, exec (.coastLimitExpiry n) s = .next t ∧ (road n t).state = .lost ∧ rgF ROA_STATE n 7 4 t = 6 ∧
            (∀ m : Fin 64, m ≠ n → road m t = road m s) ∧ t.lanes = s.lanes
        else exec (.coastLimitExpiry n) s = .next s) ∧
      ((road n s).state = .acquiring → (road n s).appliedSince = false →
        if ((obsTimeoutNs n s + coastLimitNs n s : Nat) : Int) ≤ diff32 (now s) (road n s).entered then
          ∃ t : State, exec (.coastLimitExpiry n) s = .next t ∧ (road n t).state = .lost ∧ rgF ROA_STATE n 7 4 t = 6 ∧
            (∀ m : Fin 64, m ≠ n → road m t = road m s) ∧ t.lanes = s.lanes
        else exec (.coastLimitExpiry n) s = .next s)))

/-- R47, R50, R51: OBSERVATION_INGEST takes the oldest observation off the queue, one on each edge. One of another
source kind is stale: the road does not move, and the observation is counted and raises cause 2. The first one of a road
that is ACQUIRING with its initialisation pending sets position, rate (the hint, or ROA_RATE_INIT) and t_s from it,
acceleration 0, and counts as applied; no other road changes. An empty queue and a second one of the same edge leave the
block as it is. R48, R53, R56: each edge every road that is not IDLE publishes its position and rate of now, with the
acceleration and t_s they rest on, and keeps the position published before; a clock road also moves its count on. An
IDLE road does not change, and registers, memory and lanes are unchanged by publishing. A TRACKING clock road whose
count has reached its period begins the next lap, with the period register's value, and writes a history entry; no other
road changes; before that CLOCK_ROAD_LAP leaves the block as it is. R45, R48, R49, R53, R66: the source of an IDLE road
and a period from 1,000 to 4,000,000,000 are stored; a period out of that range, road 0's source, a select outside its
kind's range and the source of a road that is not IDLE are not. A read of ROA_POS_LAP latches the published fraction,
the published rate, and the acceleration and t_s they rest on, for its path. The model's own readings that its clauses
meet: log entries 17, 19, 124 and 177. Log entry 3 (the model's choice): a command whose event does not hold leaves the
block as it is. -/
def Obligations.RoadsTakeObservationsAndPublish : Prop :=
  ((∀ s : State, s.ingest = [] ∨ s.ingestEdge = s.mp.tclk + 1 → exec .observationIngest s = .next s) ∧
  (∀ (o : Observation) (q : List Observation) (n : Fin 64) (s : State), s.ingest = o :: q → o.road = n →
    s.ingestEdge ≠ s.mp.tclk + 1 →
    (o.srcKind ≠ roadKind n s → exec .observationIngest s = .next (setCause ROA_CAUSE n 2 (bump ROA_CNT_REJ n 31 16
      { s with
        ingest := q, ingestEdge := s.mp.tclk + 1,
        ingested := some ⟨s.mp.tclk + 1, o, road n s, rg ROA_CNT_ACC n s, rg ROA_CNT_REJ n s, rg ROA_CNT_DROP n s,
          rg ROA_STATE n s, rg ROA_HIST n s⟩ }))) ∧
    (o.srcKind = roadKind n s → o.srcKind ≠ 5 → (road n s).state = .acquiring → (road n s).initPending = true →
      o.fracOnly = false → o.reacquire = false → ¬ (1000001 ≤ sub32 o.time (now s) ∧ sub32 o.time (now s) < 2 ^ 31) →
      ∃ t : State, exec .observationIngest s = .next t ∧ t.ingest = q ∧ (road n t).state = .acquiring ∧
        (road n t).tS = o.time ∧ (road n t).p = BitVec.ofNat 64 (o.lap.toNat * 2 ^ 48 + o.frac.toNat * 2 ^ 16) ∧
        (road n t).v = BitVec.ofInt 48 (if o.hintValid then o.hint.toInt else (rg ROA_RATE_INIT n s).toInt) ∧
        (road n t).a = 0 ∧ (road n t).initPending = false ∧
        rgF ROA_CNT_ACC n 31 0 t = (rgF ROA_CNT_ACC n 31 0 s + 1) % 2 ^ 32 ∧
        (∀ m : Fin 64, m ≠ n → road m t = road m s) ∧ t.lanes = s.lanes))) ∧
  ((∀ (n : Fin 64) (s : State), ∃ t : State, exec .roadPublish s = .next t ∧
    ((road n s).state ≠ .idle →
      let r := if roadKind n s = 1 then { road n s with n := (road n s).countAt (now s), lastNs := now s } else road n s
      road n t = { r with prev := (road n s).pub, pub := (r.publishAt (roadKind n s) (now s)).1,
                          pubRate := (r.publishAt (roadKind n s) (now s)).2, pubA := r.a, pubT := r.tS }) ∧
    ((road n s).state = .idle → road n t = road n s) ∧ t.regs = s.regs ∧ t.mem = s.mem ∧ t.lanes = s.lanes) ∧
  (∀ (n : Fin 64) (s : State), roadKind n s = 1 → (road n s).state = .tracking →
    if (road n s).period ≤ (road n s).countAt (now s) then
      ∃ t : State, exec (.clockRoadLap n) s = .next t ∧
        (road n t).n = (road n s).countAt (now s) - (road n s).period ∧ (road n t).tS = now s ∧
        (road n t).period = max 1 (rg ROA_PERIOD n s).toNat ∧ t.lanes = s.lanes ∧
        (∀ m : Fin 64, m ≠ n → road m t = road m s) ∧
        (∀ a : Nat, a < histAddr n (rgF ROA_HIST n 11 0 s) ∨ histAddr n (rgF ROA_HIST n 11 0 s) + 24 ≤ a →
          rdByte a t = rdByte a s)
    else exec (.clockRoadLap n) s = .next s)) ∧
  ((∀ (p : Path) (v : Word) (n : Nat) (s : State), winOf p ROA_SRC s = some n → writable p ROA_SRC n s = true →
    exec (.roaSrcWrite p v) s = .next (if n = 0 ∨ (road n s).state ≠ .idle ∨ srcBad (fld v 2 0) (fld v 13 8) = true then s
      else setRg ROA_SRC n (v &&& 0x3F07) s)) ∧
  (∀ (p : Path) (v : Word) (n : Nat) (s : State), winOf p ROA_PERIOD s = some n → writable p ROA_PERIOD n s = true →
    exec (.roaPeriodWrite p v) s =
      .next (if 1000 ≤ v.toNat ∧ v.toNat ≤ 4000000000 then setRg ROA_PERIOD n v s else s)) ∧
  (∀ (p : Path) (n : Nat) (s : State), winOf p ROA_POS_LAP s = some n →
    ∃ t : State, exec (.roaPosLapRead p) s = .next t ∧ rg ROA_POS_FRAC p t = w32 (road n s).pub.toNat ∧
      rg ROA_LAST_OBS p t = (road n s).pubT ∧ rg ROA_ACCEL p t = (road n s).pubA ∧
      rg ROA_RATE_HI p t ++ rg ROA_RATE_LO p t = (road n s).pubRate.signExtend 64 ∧
      t.roads = s.roads ∧ t.mem = s.mem ∧ t.lanes = s.lanes))

/-- R62, R63, R64, R387: while entries are periodic, ROAD_STATE_PERIODIC queues the state of an exported road and
changes no register and no memory. ROAD_STATE_SEND leaves no entry waiting, and where a session takes road states each
entry sent takes the next seq. On a worker out of step mode, an entry from either manager address (R377) reaches R47's
queue for the one road that follows it; an entry from elsewhere is counted as stale. When it leaves the queue first
after a loss, a TRACKING follower takes its position, rate, acceleration, t_s and seq. The model's own readings that its
clauses meet: log entries 21, 22 and 92. -/
def Obligations.RoadStateEntriesAreQueuedSentAndTaken : Prop :=
  (∀ (n : Fin 64) (s : State), inReset 200 s = false → rgF ROA_RSF 0 15 0 s ≠ 0 → bit (rg ROA_CTRL n s) 4 = true →
    ∃ t : State, exec .roadStatePeriodic s = .next t ∧ (road n t).queuedEntry = (road n s).entryBytes ∧
      t.regs = s.regs ∧ t.mem = s.mem) ∧
  (∀ (n : Fin 64) (s : State), inReset 200 s = false → (road n s).queuedEntry ≠ [] →
    ∃ t : State, exec .roadStateSend s = .next t ∧ (road n t).queuedEntry = [] ∧
      (roadSessions s ≠ [] → (road n t).sendSeq = (road n s).sendSeq + 1)) ∧
  (∀ (src : BitVec 48) (n : Fin 64) (b : Bytes) (s : State), b.length = 32 → followers (beAt b 0 1) s = [n.val] →
    exec (.roadStateReceive src (([1, 0, 0, 0] : Bytes) ++ b)) s = .next (
      if rgF HIE_CFG 0 31 30 s ≠ 2 ∨ isManagerAddr src = false then staleObservation n s
      else if stepMode s = true then captureInput inputRoadState b s
      else enqueueObservation (entryObservation b n) s)) ∧
  (∀ (m n : Fin 64) (seq : BitVec 16) (p : BitVec 64) (v : BitVec 48) (a tS : Word) (q : List Observation) (s : State),
    let b : Bytes := beBytes 1 m ++ beBytes 1 2 ++ beBytes 2 seq.toNat ++ beBytes 4 tS.toNat ++ beBytes 8 p.toNat ++
      beBytes 6 v.toNat ++ beBytes 2 0 ++ beBytes 4 a.toNat ++ zeros 4
    s.ingest = entryObservation b n :: q → s.ingestEdge ≠ s.mp.tclk + 1 → roadKind n s = 5 → (road n s).lastSeq = none →
    (road n s).state = .tracking → sub32 tS (now s) < 1000001 →
    ∃ t : State, exec .observationIngest s = .next t ∧ t.ingest = q ∧
      (road n t).state = .tracking ∧ (road n t).tS = tS ∧ (road n t).p = p ∧ (road n t).v = v ∧ (road n t).a = a ∧
      (road n t).lastSeq = some seq ∧ (∀ k : Fin 64, k ≠ n → road k t = road k s))

/-- R67, R68, R75, R7: MST_COMMIT with bit 0 set takes the record that the path staged, its unnamed bits read as 0: it
waits for the next edge; a record that R68 refuses is counted and raises cause 0, and a write with bit 0 clear does
nothing. On the comparison of a later edge, a commit to a record that may not fire then changes its record (shown for
enable 0): its words are stored, its pending state ends, and an armed one is tested. A write of MST_CTRL sets the
enable, and a write of 1 over 0 is a return on the edge after it (R73). R70, R74: on the edge's comparison, with no
commit waiting, an armed record of a road that compares becomes pending, due on this edge, when the road's published
position reaches its target between the two edges; record words, registers, roads and memory are unchanged. A second
comparison of one edge, and one in a reset of function 201, do nothing. R72, R69: MILESTONE_FIRE of the record that is
next to fire, with no commit waiting, counts the firing, records its time and ends its pending state; a one-shot record
without an action is disarmed, keeps the rest of its words, and no other record, no lane, road, queue or byte of memory
changes. With no record to fire the block is unchanged. The model's own readings that its clauses meet: log entries 14,
15, 20, 26, 27 and 139. Log entry 3 (the model's choice): a command whose event does not hold leaves the block as it is.
-/
def Obligations.MilestonesAreCommittedComparedAndFired : Prop :=
  ((∀ (p : Path) (v : Word) (n : Nat) (s : State), winOf p MST_COMMIT s = some n → writable p MST_COMMIT n s = true →
    exec (.mstCommit p v) s = .next (
      if bit v 0 = false then s
      else if Rec.bad (Rec.normal (stagedRecord p s)) = true then setCause MST_CAUSE 0 0 (bump MST_CNT_REFUSED 0 15 0 s)
      else { s with commits := s.commits ++
        [{ record := n, word := Rec.normal (stagedRecord p s), edge := s.mp.tclk }] })) ∧
  (∀ (n e : Nat) (w : BitVec 128) (s : State), s.commits = [{ record := n, word := w, edge := e }] → e < s.mp.tclk →
    s.cmpEdge ≠ s.mp.tclk + 1 → inReset 201 s = false → mstEnable s = false →
    ∃ t : State, exec .milestoneCompare s = .next t ∧ recWord n t = w ∧ recRun n t = {} ∧ t.commits = [] ∧
      (∀ m : Nat, m ≠ n → recWord m t = recWord m s ∧ recRun m t = recRun m s) ∧ t.regs = s.regs ∧ t.mem = s.mem ∧
      t.roads = s.roads ∧ t.lanes = s.lanes) ∧
  (∀ (p : Path) (v : Word) (s : State), writable p MST_CTRL 0 s = true →
    ∃ t : State, exec (.mstCtrlEnableWrite p v) s = .next t ∧ mstEnable t = bit v 0 ∧
      t.enableReturn = (if bit v 0 = false then none else if mstEnable s = false then some s.mp.tclk else s.enableReturn) ∧
      t.recs = s.recs ∧ t.recRun = s.recRun ∧ t.roads = s.roads ∧ t.lanes = s.lanes ∧ t.mem = s.mem)) ∧
  ((∀ (n : Nat) (back : Bool) (s : State), s.cmpEdge ≠ s.mp.tclk + 1 → inReset 201 s = false → mstEnable s = true →
    s.commits = [] → s.enableReturn = none → Rec.armed (recWord n s) = true → (recRun n s).pending = false →
    (road (Rec.road (recWord n s)) s).state.comparing = true → stepOrdered (recWord n s) s = false →
    reached (recWord n s) (road (Rec.road (recWord n s)) s).prev (road (Rec.road (recWord n s)) s).pub = some back →
    ∃ t : State, exec .milestoneCompare s = .next t ∧ (recRun n t).pending = true ∧ (recRun n t).backward = back ∧
      (recRun n t).due = s.mp.tclk ∧ t.recs = s.recs ∧ t.regs = s.regs ∧ t.mem = s.mem ∧ t.roads = s.roads) ∧
  (∀ s : State, s.cmpEdge = s.mp.tclk + 1 ∨ inReset 201 s = true → exec .milestoneCompare s = .next s)) ∧
  ((∀ (ans : MemAnswer) (r n : Nat) (s : State), nextFiring s = some (r, n) → n < 16384 → s.commits = [] →
    Rec.action (recWord n s) = 0 → Rec.oneShot (recWord n s) = true →
    ∃ t : State, exec (.milestoneFire ans) s = .next t ∧ recWord n t = Rec.setArmed (recWord n s) false ∧
      (recRun n t).pending = false ∧ rg MST_MS_LAST n t = now s ∧
      rgF MST_CNT_FIRED 0 31 0 t = (rgF MST_CNT_FIRED 0 31 0 s + 1) % 2 ^ 32 ∧ t.lastServed = r ∧
      (∀ m : Nat, m ≠ n → recWord m t = recWord m s ∧ recRun m t = recRun m s) ∧
      t.lanes = s.lanes ∧ t.roads = s.roads ∧ t.mem = s.mem ∧ t.queues = s.queues) ∧
  (∀ (ans : MemAnswer) (s : State), nextFiring s = none → exec (.milestoneFire ans) s = .next s))

/-- R81, R82: a write of MST_PLC_CUR moves the slot at once and takes the effect from earlier markers; a drain marker
that waits for a lane enters its queue behind the jobs there when an entry is free, and is then counted as out; with no
free entry, or no marker waiting, the block is unchanged. R84, R86: with function 201 out of reset MST_SW_PULSE pulses
its line and counts the pulse; a second one of the same edge merges and is counted so. Two edges later the pulse acts at
the line's destination: none, and the pulse only leaves; a record that is not armed, is good and whose road does not
compare, and it is armed. Before that, and with no pulse waiting, EVENT_LINE_DELIVER does nothing. The model's own
readings that its clauses meet: log entries 14, 27 and 28. Log entry 3 (the model's choice): a command whose event does
not hold leaves the block as it is. -/
def Obligations.PlacementSlotsAndEventLinesAct : Prop :=
  ((∀ (p : Path) (v : Word) (n : Nat) (s : State), winOf p MST_PLC_CUR s = some n → writable p MST_PLC_CUR n s = true →
    exec (.mstPlcCurWrite p v) s = .next (setSlotRun n { slotRun n s with markerLanes := [], markersOut := 0 }
      (setRg MST_PLC_CUR n (v &&& 0xFF07FF) s))) ∧
  (∀ (slot : Fin 512) (l : Lane) (s : State), (slotRun slot s).markerLanes = [l.val] → (lane l s).queue.length < 16 →
    ∃ t : State, exec (.drainMarkerEnqueue slot) s = .next t ∧
      (lane l t).queue = (lane l s).queue ++
        [.marker (BitVec.ofNat 9 slot) (slotRun slot s).oldGen (slotRun slot s).oldSeq] ∧
      (slotRun slot t).markerLanes = [] ∧ (slotRun slot t).markersOut = (slotRun slot s).markersOut + 1 ∧
      t.regs = s.regs ∧ t.mem = s.mem ∧ t.roads = s.roads ∧ (∀ m : Lane, m ≠ l → lane m t = lane m s) ∧
      (∀ k : Fin 512, k ≠ slot → slotRun k t = slotRun k s)) ∧
  (∀ (slot : Fin 512) (s : State), (∀ l ∈ (slotRun slot s).markerLanes, 16 ≤ (lane l s).queue.length) →
    exec (.drainMarkerEnqueue slot) s = .next s)) ∧
  ((∀ (p : Path) (v : Word) (s : State), inReset 201 s = false →
    exec (.mstSwPulse p v) s = .next (
      if s.pulses.any (fun q => q.line = fld v 8 0 && q.edge = s.mp.tclk) then bump MST_EVT_CNT (fld v 8 0) 15 8 s
      else bump MST_EVT_CNT (fld v 8 0) 31 16
        { s with pulses := s.pulses ++
          [{ line := fld v 8 0, edge := s.mp.tclk, ns := now s, epoch := journalEpoch s }] })) ∧
  (∀ (l : Fin 512) (s : State), takePulse l s.pulses = none → exec (.eventLineDeliver l) s = .next s) ∧
  (∀ (l : Fin 512) (q : Pulse) (rest : List Pulse) (s : State), takePulse l s.pulses = some (q, rest) →
    (s.mp.tclk < q.edge + 2 → exec (.eventLineDeliver l) s = .next s) ∧
    (q.edge + 2 ≤ s.mp.tclk → rgF MST_EVT_DST l 26 24 s = 0 →
      exec (.eventLineDeliver l) s = .next { s with pulses := rest }) ∧
    (q.edge + 2 ≤ s.mp.tclk → rgF MST_EVT_DST l 26 24 s = 2 →
      Rec.armed (recWord (rgF MST_EVT_DST l 13 0 s) s) = false → Rec.bad (recWord (rgF MST_EVT_DST l 13 0 s) s) = false →
      roadCompares (Rec.road (recWord (rgF MST_EVT_DST l 13 0 s) s)) s = false →
      exec (.eventLineDeliver l) s = .next (setRecWord (rgF MST_EVT_DST l 13 0 s)
        (Rec.setArmed (recWord (rgF MST_EVT_DST l 13 0 s) s) true) { s with pulses := rest }))))

/-- R92, R93: out of step mode a sample set that is taken stores the calibrated sample of every enabled channel and 0 for
a disabled one, counts the set, moves the ring's write index on, and writes its time and seq to the slot of 64 bytes that
the index names, where units may write there; no other byte of memory, no lane and no shaft channel changes. A set that is
still to be discarded after a reset only counts as discarded. R96, R92, R98: with function 202 out of reset, an enabled
phase whose signal has stayed below its level for 12 ms enters dropout and raises its cause, and no other phase and no
memory changes; a stuck modulator marks its channel and raises cause 7; a write of 0 to trk_en turns the tracker off and
clears its lap and period. The model's own readings that its clauses meet: log entries 7 and 25. -/
def Obligations.MainsSamplesAreStoredAndTracked : Prop :=
  ((∀ (time : Word) (raw : List (BitVec 24)) (live : BitVec 8) (s : State), inReset 202 s = false →
    bit (rg MFE_CTRL 0 s) 0 = true → s.mfeDiscard = 0 → stepMode s = false →
    let k := rgF MFE_BUF_CFG 0 4 0 s
    let i := rgF MFE_BUF_WR 0 15 0 s % 2 ^ k
    let at' := base40 MFE_BUF_LO MFE_BUF_HI 0 s + i * 64
    ∃ t : State, exec (.mainsSampleSet time raw live) s = .next t ∧ t.mfeSeq = s.mfeSeq + 1 ∧
      (∀ c : Fin 8, rg MFE_CH_LAST c t = if bit (rg MFE_CH_CFG c s) 0 then
        w32 (wrapI 32 (calibrate (raw.getD c 0) (rg MFE_CH_OFFSET c s) (rg MFE_CH_GAIN c s)).1) else 0) ∧
      (8 ≤ k → k ≤ 16 → rg MFE_BUF_WR 0 t = w32 ((i + 1) % 2 ^ k) ∧
        (canReach .unit true at' 64 s = true → rdBytes at' 8 t = leBytes 4 time.toNat ++ leBytes 4 s.mfeSeq.toNat)) ∧
      (∀ a : Nat, a < at' ∨ at' + 64 ≤ a → rdByte a t = rdByte a s) ∧ t.lanes = s.lanes ∧ t.shafts = s.shafts) ∧
  (∀ (time : Word) (raw : List (BitVec 24)) (live : BitVec 8) (s : State), inReset 202 s = false →
    bit (rg MFE_CTRL 0 s) 0 = true → 0 < s.mfeDiscard →
    exec (.mainsSampleSet time raw live) s = .next { s with mfeDiscard := s.mfeDiscard - 1 })) ∧
  ((∀ (p : Fin 3) (b : Word) (s : State), (tracker p s).belowSince = some b → bit (rg MFE_TRK_CFG p s) 0 = true →
    (tracker p s).state ≠ .dropout → 12000000 ≤ sub32 (now s) b → inReset 202 s = false →
    ∃ t : State, exec (.mainsDropout p) s = .next t ∧ (tracker p t).state = .dropout ∧
      bit (rg MFE_CAUSE 0 t) (1 + p) = true ∧ (∀ q : Fin 3, q ≠ p → tracker q t = tracker q s) ∧ t.mem = s.mem) ∧
  (∀ (c : Fin 8) (s : State), inReset 202 s = false →
    exec (.modulatorStuck c) s =
      .next (setCause MFE_CAUSE 0 7 { s with mfeStuck := s.mfeStuck ||| BitVec.ofNat 8 (2 ^ c.val) })) ∧
  (∀ (p : Path) (v : Word) (n : Nat) (s : State), winOf p MFE_TRK_CFG s = some n → writable p MFE_TRK_CFG n s = true →
    bit v 0 = false → ∃ t : State, exec (.mfeTrkDisable p v) s = .next t ∧ (tracker n t).state = .off ∧
      rg MFE_TRK_PERIOD n t = 0 ∧ rgF MFE_TRK_STAT n 31 16 t = 0 ∧ rg MFE_TRK_CFG n t = v &&& 0xF7 ∧ t.mem = s.mem))

/-- R99, R100, R102: with no observation due on the channel, a change of one input of a quadrature channel with a good
cpr moves its count by one in the direction that the inputs give, and an observation is due when the interval has passed
since the last one; a change of both at once counts an error and raises cause 0 and moves nothing; on a channel in
another mode or in reset the levels are only taken. Nothing but that channel changes by a count. R101, R102: with no
observation due on the channel, the first accepted index of a quadrature channel references it at lap 0, count 0; a
later one at count 0 changes nothing, and at another count it is counted as an error with cause 1, and in mode 2
re-zeroes the count, into the next lap from half a revolution on. An idle observation of a referenced channel goes to
its roads with the position as it stands and restarts the idle interval. R103, R104: an SSI channel out of reset with a
good configuration starts a frame when its period has passed, and one with a bad configuration raises cause 4. A frame
that is to be discarded only ends; one with the line at a wrong level is counted with cause 2, and one in which the
encoder reports an error with cause 3, and the position stays; a good first frame of a single-turn binary encoder gives
lap 0 and the fraction of its bits, and references the channel. R99, R105, R109: a write of SHF_CFG on a channel with no
frame under way and no observation due stores the word; it keeps the position where the mode stays and clears the
channel where it changes; a configuration that R100 or R103 refuses raises cause 4. A read of SHF_POS_LAP latches the
fraction for its path. The model's own readings that its clauses meet: log entries 7, 23, 24, 136, 137 and 175. Log
entry 3 (the model's choice): a command whose event does not hold leaves the block as it is. -/
def Obligations.ShaftChannelsFollowTheirInputs : Prop :=
  (∀ (c : Fin 16) (a b : Bool) (time : Word) (s : State), (shaft c s).due = none →
    (inReset 203 s = true ∨ shfMode c s ≠ 1 → exec (.quadratureChange c a b time) s =
      .next (setShaft c { shaft c s with a := a, b := b } s)) ∧
    (inReset 203 s = false → shfMode c s = 1 → (shaft c s).a ≠ a → (shaft c s).b ≠ b →
      exec (.quadratureChange c a b time) s =
        .next (setCause SHF_CAUSE c 0 (bump SHF_CNT c 31 16 (setShaft c { shaft c s with a := a, b := b } s)))) ∧
    (inReset 203 s = false → shfMode c s = 1 → cprBad (shfCpr c s) = false →
      ((shaft c s).a ≠ a ∧ (shaft c s).b = b) ∨ ((shaft c s).a = a ∧ (shaft c s).b ≠ b) →
      let m := moveCount (shaft c s) (shfCpr c s) (if bit (rg SHF_CFG c s) 2 then -quadStep (shaft c s).a (shaft c s).b a
        else quadStep (shaft c s).a (shaft c s).b a)
      ∃ h : Shaft, exec (.quadratureChange c a b time) s = .next (setShaft c h s) ∧ h.a = a ∧ h.b = b ∧
        h.count = m.count ∧ h.lap = m.lap ∧ h.frac = m.frac ∧ h.referenced = (shaft c s).referenced ∧
        (h.due.isSome = true ↔ ∀ p : Word, (shaft c s).lastObs = some p →
          rgF SHF_OBS c 15 0 s = 0 ∨ 2 ^ 31 ≤ elapsedNs s - (shaft c s).lastObsAt ∨
          ((rgF SHF_OBS c 15 0 s * 1000 : Nat) : Int) ≤ diff32 (time - w32 ((rgF SHF_CFG c 13 8 s + 1) * 5)) p))) ∧
  (∀ (c : Fin 16) (time : Word) (s : State), inReset 203 s = false → shfMode c s = 1 → (shaft c s).due = none →
    (rgF SHF_CFG c 5 4 s ≠ 0 → (bit (rg SHF_CFG c s) 6 = true → (shaft c s).a = true ∧ (shaft c s).b = true) →
      exec (.shaftIndex c time) s = .next (
        if (shaft c s).referenced = false then
          setShaft c { shaft c s with count := 0, lap := 0, frac := 0, referenced := true } s
        else if (shaft c s).count = 0 then s
        else if rgF SHF_CFG c 5 4 s = 2 then
          setShaft c { shaft c s with lap := if shfCpr c s ≤ 2 * (shaft c s).count then (shaft c s).lap + 1
                                             else (shaft c s).lap, count := 0, frac := 0 }
            (setCause SHF_CAUSE c 1 (bump SHF_CNT c 15 0 s))
        else setCause SHF_CAUSE c 1 (bump SHF_CNT c 15 0 s))) ∧
    (rgF SHF_CFG c 5 4 s = 0 ∨
        (bit (rg SHF_CFG c s) 6 = true ∧ ((shaft c s).a = false ∨ (shaft c s).b = false)) →
      exec (.shaftIndex c time) s = .next s) ∧
    (shfReferenced c s = true → rgF SHF_OBS c 31 16 s ≠ 0 → cprBad (shfCpr c s) = false →
      exec (.shaftIdleObs c) s = .next (
        if ageOf (shaft c s).since (shaft c s).sinceAt s < rgF SHF_OBS c 31 16 s * 1000 then s
        else issueShaft c (now s) none (setShaft c
          { shaft c s with
            idleAfter := true, since := now s, sinceAt := elapsedNs s, lastObs := some (now s),
            lastObsAt := elapsedNs s } s)))) ∧
  (∀ (c : Fin 16) (s : State), inReset 203 s = false →
    (shfMode c s = 2 → (shaft c s).ssiBusy = false →
      (∀ t : Word, (shaft c s).ssiStart = some t →
        max 20 (min 10000 (rgF SHF_SSI_TIME c 15 0 s)) * 1000 ≤ sub32 (now s) t) →
      exec (.ssiFrameStart c) s = .next (if ssiBad c s = true then setCause SHF_CAUSE c 4 s
        else setShaft c { shaft c s with ssiBusy := true, ssiDiscard := false, ssiStart := some (now s) } s)) ∧
    (∀ (raw edge : Word) (ok : Bool), (shaft c s).ssiBusy = true → (shaft c s).ssiDiscard = true →
      exec (.ssiFrameDone c raw ok edge) s =
        .next (setShaft c { shaft c s with ssiBusy := false, ssiDiscard := false } s)) ∧
    (∀ (raw edge : Word), (shaft c s).ssiBusy = true → (shaft c s).ssiDiscard = false →
      exec (.ssiFrameDone c raw false edge) s = .next (setCause SHF_CAUSE c 2 (bump SHF_CNT_FRAME c 31 16
        (setShaft c { shaft c s with ssiBusy := false } s))) ∧
      (ssiErr c s = 1 → bit raw 0 = bit (rg SHF_SSI c s) 21 → exec (.ssiFrameDone c raw true edge) s =
        .next (setCause SHF_CAUSE c 3 (bump SHF_CNT_FRAME c 15 0 (setShaft c { shaft c s with ssiBusy := false } s)))) ∧
      (ssiMt c s = 0 → ssiErr c s = 0 → bit (rg SHF_SSI c s) 22 = false → (shaft c s).ssiLast = none →
        ∃ t : State, exec (.ssiFrameDone c raw true edge) s = .next t ∧ (shaft c t).lap = 0 ∧
          (shaft c t).frac = w32 (raw.toNat % 2 ^ ssiSt c s * 2 ^ (32 - ssiSt c s)) ∧ (shaft c t).ssiBusy = false ∧
          (shaft c t).referenced = true ∧ (∀ d : Fin 16, d ≠ c → shaft d t = shaft d s)))) ∧
  ((∀ (p : Path) (v : Word) (c : Nat) (s : State), winOf p SHF_CFG s = some c → writable p SHF_CFG c s = true →
    (shaft c s).ssiBusy = false → (shaft c s).due = none →
    exec (.shfCfgWrite p v) s = .next (checkShaft c (
      if shfMode c (setRg SHF_CFG c (v &&& 0x3F77) s) = shfMode c s then setRg SHF_CFG c (v &&& 0x3F77) s
      else clearShaft c (setRg SHF_CFG c (v &&& 0x3F77) s)))) ∧
  (∀ (p : Path) (c : Nat) (s : State), winOf p SHF_POS_LAP s = some c →
    exec (.shfPosLapRead p) s = .next (setRg SHF_POS_FRAC p (shaft c s).frac s)))

/-- R139, R140: a lane's instruction that the lane does not issue (it is not running a job, is halted, in reset or
stalled, or the word at its program counter is another) does not occur: the block is unchanged. The model's own readings
that its clauses meet: log entries 3, 31 and 32. -/
def Obligations.AnInstructionNotIssuedDoesNothing : Prop :=
  ∀ (c : Instr) (l : Lane) (w : Word) (s : State), laneWord c = some (l, w) → laneIssues l w s = false →
    exec c s = .next s

/-- R140, R144-R167: reading back the word that the encoding tables give a lane's instruction gives that instruction, with
every operand and the memory's answer, for every operand that makes a legal word. -/
def Obligations.LaneWordsDecodeToTheirInstruction : Prop :=
  ∀ (c : Instr) (l : Lane) (w : Word), laneWord c = some (l, w) → legalWord w = true →
    laneDecode l (laneAnswer c) w = some c

/-- R144-R146, R164, R167: what a few words written out bit by bit from the encoding tables stand for. -/
def Obligations.LaneWordsFromTheTablesDecode : Prop :=
  laneDecode 0 .ok 0b00000000001000100001100000000000#32 = some (.add 0 1 2 3) ∧
  laneDecode 5 .ok 0b00000100101000001111111111111111#32 = some (.addi 5 5 0 0xFFFF) ∧
  laneDecode 7 .ok 0b00110000110001110000000000000100#32 = some (.lw 7 6 7 4 .ok) ∧
  laneDecode 0 .ok 0b01000100001111111111111111111111#32 = some (.beqz 0 1 0x1FFFFF) ∧
  laneDecode 1 .ok 0b10000000010010001100000000000000#32 = some (.vaddH 1 1 2 3) ∧
  laneDecode 2 .ok 0b11111100000000000000000000000000#32 = some (.jend 2) ∧
  laneDecode 2 .ok 0b11111100010000000000000000001100#32 = some (.laneq 2 2) ∧
  laneDecode 0 .ok 0b00000000001000100001100000001110#32 = none ∧
  laneDecode 0 .ok 0b00000000001000100001100001000000#32 = none

/-- R144, R138: the arithmetic, logical, compare, shift and multiply instructions of format A write their result to rd,
unless rd is g0, which stays 0, and move to the next instruction; no other register and nothing outside the lane changes.
-/
def Obligations.RegisterArithmeticWritesItsResult : Prop :=
  ∀ (l : Lane) (rd rs rt : GReg) (sh : BitVec 5),
    writesG (.add l rd rs rt) rd (fun _ ln => getG rs ln + getG rt ln) ∧
    writesG (.sub l rd rs rt) rd (fun _ ln => getG rs ln - getG rt ln) ∧
    writesG (.and l rd rs rt) rd (fun _ ln => getG rs ln &&& getG rt ln) ∧
    writesG (.or l rd rs rt) rd (fun _ ln => getG rs ln ||| getG rt ln) ∧
    writesG (.xor l rd rs rt) rd (fun _ ln => getG rs ln ^^^ getG rt ln) ∧
    writesG (.nor l rd rs rt) rd (fun _ ln => ~~~(getG rs ln ||| getG rt ln)) ∧
    writesG (.slt l rd rs rt) rd (fun _ ln => if (getG rs ln).slt (getG rt ln) then 1 else 0) ∧
    writesG (.sltu l rd rs rt) rd (fun _ ln => if (getG rs ln).ult (getG rt ln) then 1 else 0) ∧
    writesG (.sll l rd rs rt) rd (fun _ ln => getG rs ln <<< ((getG rt ln).toNat % 32)) ∧
    writesG (.srl l rd rs rt) rd (fun _ ln => getG rs ln >>> ((getG rt ln).toNat % 32)) ∧
    writesG (.sra l rd rs rt) rd (fun _ ln => (getG rs ln).sshiftRight ((getG rt ln).toNat % 32)) ∧
    writesG (.slli l rd rs sh) rd (fun _ ln => getG rs ln <<< sh.toNat) ∧
    writesG (.srli l rd rs sh) rd (fun _ ln => getG rs ln >>> sh.toNat) ∧
    writesG (.srai l rd rs sh) rd (fun _ ln => (getG rs ln).sshiftRight sh.toNat) ∧
    writesG (.mul l rd rs rt) rd (fun _ ln => getG rs ln * getG rt ln) ∧
    writesG (.mulh l rd rs rt) rd (fun _ ln => BitVec.ofInt 32 ((getG rs ln).toInt * (getG rt ln).toInt / 2 ^ 32)) ∧
    writesG (.mulhu l rd rs rt) rd (fun _ ln => BitVec.ofNat 32 ((getG rs ln).toNat * (getG rt ln).toNat / 2 ^ 32)) ∧
    writesG (.min l rd rs rt) rd (fun _ ln => if (getG rt ln).slt (getG rs ln) then getG rt ln else getG rs ln) ∧
    writesG (.max l rd rs rt) rd (fun _ ln => if (getG rs ln).slt (getG rt ln) then getG rt ln else getG rs ln) ∧
    writesG (.clz l rd rs) rd (fun _ ln => (getG rs ln).clz)

/-- R145: division never faults; it gives the quotient and the remainder truncated towards zero, all ones and rs for a
division by 0, and 0x8000_0000 and 0 for the signed overflow. -/
def Obligations.DivisionGivesTheTabledResults : Prop :=
  ∀ (l : Lane) (rd rs rt : GReg),
    writesG (.div l rd rs rt) rd (fun _ ln => if getG rt ln = 0 then 0xFFFFFFFF else (getG rs ln).sdiv (getG rt ln)) ∧
    writesG (.divu l rd rs rt) rd (fun _ ln => if getG rt ln = 0 then 0xFFFFFFFF else getG rs ln / getG rt ln) ∧
    writesG (.rem l rd rs rt) rd (fun _ ln => if getG rt ln = 0 then getG rs ln else (getG rs ln).srem (getG rt ln)) ∧
    writesG (.remu l rd rs rt) rd (fun _ ln => if getG rt ln = 0 then getG rs ln else getG rs ln % getG rt ln)

/-- R146, R164, R167: the immediate forms sign-extend or zero-extend imm16 as the table says; STEPQ gives the step number
and t_b, or 0 and the current time outside step mode; LANEQ gives the lane's number. R156: moves between the register
files. -/
def Obligations.ImmediatesQueriesAndMovesWriteTheirResult : Prop :=
  (∀ (l : Lane) (rd rs : GReg) (imm : BitVec 16),
    writesG (.addi l rd rs imm) rd (fun _ ln => getG rs ln + imm.signExtend 32) ∧
    writesG (.andi l rd rs imm) rd (fun _ ln => getG rs ln &&& imm.zeroExtend 32) ∧
    writesG (.ori l rd rs imm) rd (fun _ ln => getG rs ln ||| imm.zeroExtend 32) ∧
    writesG (.xori l rd rs imm) rd (fun _ ln => getG rs ln ^^^ imm.zeroExtend 32) ∧
    writesG (.slti l rd rs imm) rd (fun _ ln => if (getG rs ln).slt (imm.signExtend 32) then 1 else 0) ∧
    writesG (.sltiu l rd rs imm) rd (fun _ ln => if (getG rs ln).ult (imm.signExtend 32) then 1 else 0) ∧
    writesG (.lui l rd imm) rd (fun _ _ => imm ++ (0 : BitVec 16)) ∧
    writesG (.stepqStep l rd) rd (fun s _ => if stepMode s then BitVec.ofNat 32 s.stp.step else 0) ∧
    writesG (.stepqTime l rd) rd (fun s _ => if stepMode s then s.stp.tb else now s) ∧
    writesG (.laneq l rd) rd (fun _ _ => BitVec.ofNat 32 l.val)) ∧
  (∀ (l : Lane) (vd vs : VReg) (gr : GReg) (k : BitVec 3),
    writesW (.vmov l vd vs) vd (fun _ ln j => vw (getV vs ln) j) ∧
    writesW (.vmovg2v l vd gr k) vd (fun _ ln j => if j = k.toNat then getG gr ln else vw (getV vd ln) j) ∧
    writesG (.vmovv2g l vs gr k) gr (fun _ ln => vw (getV vs ln) k.toNat) ∧
    writesG (.vextH l vs gr k) gr (fun _ ln => BitVec.ofInt 32 (vh (getV vs ln) k.toNat)) ∧
    writesH (.vsplatH l vd gr) vd (fun ln _ => ((getG gr ln).setWidth 16).toInt) ∧
    writesW (.vsplatW l vd gr) vd (fun _ ln _ => getG gr ln))

/-- R144, R150: jumps and branches continue at their target, with the address after them in the link register unless
that is g0; a branch not taken moves on; no other register and nothing outside the lane changes. A jump to a register's
value that is no multiple of 4 faults with cause 3. The model's own readings that its clauses meet: log entry 32. -/
def Obligations.JumpsAndBranchesContinueAtTheirTarget : Prop :=
  ∀ (l : Lane) (rd rs : GReg) (off : BitVec 21) (w : Word) (s : State), laneIssues l w s = true →
    (∀ c ∈ [(Instr.beqz l rs off, (getG rs (lane l s)).toInt = 0), (.bnez l rs off, (getG rs (lane l s)).toInt ≠ 0),
        (.bltz l rs off, (getG rs (lane l s)).toInt < 0), (.bgez l rs off, 0 ≤ (getG rs (lane l s)).toInt),
        (.blez l rs off, (getG rs (lane l s)).toInt ≤ 0), (.bgtz l rs off, 0 < (getG rs (lane l s)).toInt)],
      laneWord c.1 = some (l, w) → ∃ t : State, exec c.1 s = .next t ∧ onlyLane l s t ∧
        (c.2 → (lane l t).pc = (lane l s).pc + off.signExtend 32 * 4) ∧
        (¬ c.2 → (lane l t).pc = (lane l s).pc + 4) ∧ (lane l t).g = (lane l s).g ∧ (lane l t).v = (lane l s).v) ∧
    (laneWord (.j l rs off) = some (l, w) → ∃ t : State, exec (.j l rs off) s = .next t ∧ onlyLane l s t ∧
      (lane l t).pc = (lane l s).pc + off.signExtend 32 * 4 ∧ (lane l t).v = (lane l s).v ∧
      (∀ r : GReg, getG r (lane l t) = if r = rs ∧ r ≠ 0 then (lane l s).pc + 4 else getG r (lane l s))) ∧
    (laneWord (.jr l rs) = some (l, w) → (getG rs (lane l s)).toNat % 4 = 0 →
      ∃ t : State, exec (.jr l rs) s = .next t ∧ onlyLane l s t ∧ (lane l t).pc = getG rs (lane l s) ∧
        (lane l t).g = (lane l s).g ∧ (lane l t).v = (lane l s).v) ∧
    (laneWord (.jalr l rd rs) = some (l, w) → (getG rs (lane l s)).toNat % 4 = 0 →
      ∃ t : State, exec (.jalr l rd rs) s = .next t ∧ onlyLane l s t ∧ (lane l t).pc = getG rs (lane l s) ∧
        (lane l t).v = (lane l s).v ∧
        (∀ r : GReg, getG r (lane l t) = if r = rd ∧ r ≠ 0 then (lane l s).pc + 4 else getG r (lane l s))) ∧
    ((getG rs (lane l s)).toNat % 4 ≠ 0 → ∀ c ∈ [Instr.jr l rs, .jalr l rd rs], laneWord c = some (l, w) →
      ∃ t : State, exec c s = .next t ∧ faults l 3 (getG rs (lane l s)) 0 s t)

/-- R152, R151: the fixed-point instructions of the .H view write the tabled value to every element of vd, saturated to 16
bits where the table saturates, and change no other register. -/
def Obligations.FixedPointInstructionsWriteEveryElement : Prop :=
  ∀ (l : Lane) (vd vs vt : VReg) (gr : GReg),
    writesH (.vaddH l vd vs vt) vd (fun ln i => satS 16 (vh (getV vs ln) i + vh (getV vt ln) i)) ∧
    writesH (.vsubH l vd vs vt) vd (fun ln i => satS 16 (vh (getV vs ln) i - vh (getV vt ln) i)) ∧
    writesH (.vmulH l vd vs vt) vd
      (fun ln i => satS 16 ((vh (getV vs ln) i * vh (getV vt ln) i + 2 ^ 14) / 2 ^ 15)) ∧
    writesH (.vmacH l vd vs vt) vd
      (fun ln i => satS 16 (vh (getV vd ln) i + (vh (getV vs ln) i * vh (getV vt ln) i + 2 ^ 14) / 2 ^ 15)) ∧
    writesH (.vshrH l vd vs gr) vd (fun ln i => rnd (vh (getV vs ln) i) ((getG gr ln).toNat % 16)) ∧
    writesH (.vshlH l vd vs gr) vd (fun ln i => satS 16 (vh (getV vs ln) i * 2 ^ ((getG gr ln).toNat % 16))) ∧
    writesH (.vabsH l vd vs) vd (fun ln i => satS 16 (vh (getV vs ln) i).natAbs) ∧
    writesH (.vmaxH l vd vs vt) vd (fun ln i => max (vh (getV vs ln) i) (vh (getV vt ln) i)) ∧
    writesH (.vminH l vd vs vt) vd (fun ln i => min (vh (getV vs ln) i) (vh (getV vt ln) i)) ∧
    writesH (.vnarrowH l vd vs vt gr) vd (fun ln i => satS 16
      (rnd (if i < 4 then (vw (getV vs ln) i).toInt else (vw (getV vt ln) (i - 4)).toInt) ((getG gr ln).toNat % 32))) ∧
    writesW (.vdotH l vd vs vt) vd (fun _ ln j => BitVec.ofInt 32 (satS 32 ((vw (getV vd ln) j).toInt +
      vh (getV vs ln) (2 * j) * vh (getV vt ln) (2 * j) + vh (getV vs ln) (2 * j + 1) * vh (getV vt ln) (2 * j + 1)))) ∧
    writesW (.vaddW l vd vs vt) vd (fun _ ln j => vw (getV vs ln) j + vw (getV vt ln) j) ∧
    writesW (.vsubW l vd vs vt) vd (fun _ ln j => vw (getV vs ln) j - vw (getV vt ln) j)

/-- R153, R154: the FP32 instructions apply their operation to every .W element of vd; a compare writes all ones or 0, a
NaN operand of VFMIN or VFMAX gives the other operand, and VFABS and VFNEG pass a NaN. -/
def Obligations.FloatInstructionsWriteEveryElement : Prop :=
  ∀ (l : Lane) (vd vs vt : VReg),
    writesW (.vfadd l vd vs vt) vd (fun _ ln j => fAdd (vw (getV vs ln) j) (vw (getV vt ln) j)) ∧
    writesW (.vfsub l vd vs vt) vd (fun _ ln j => fSub (vw (getV vs ln) j) (vw (getV vt ln) j)) ∧
    writesW (.vfmul l vd vs vt) vd (fun _ ln j => fMul (vw (getV vs ln) j) (vw (getV vt ln) j)) ∧
    writesW (.vfma l vd vs vt) vd (fun _ ln j => fFma (vw (getV vs ln) j) (vw (getV vt ln) j) (vw (getV vd ln) j)) ∧
    writesW (.vfms l vd vs vt) vd (fun _ ln j => fFms (vw (getV vs ln) j) (vw (getV vt ln) j) (vw (getV vd ln) j)) ∧
    writesW (.vfmin l vd vs vt) vd (fun _ ln j => fMin (vw (getV vs ln) j) (vw (getV vt ln) j)) ∧
    writesW (.vfmax l vd vs vt) vd (fun _ ln j => fMax (vw (getV vs ln) j) (vw (getV vt ln) j)) ∧
    writesW (.vfabs l vd vs) vd
      (fun _ ln j => if isNaN (vw (getV vs ln) j) then vw (getV vs ln) j else vw (getV vs ln) j &&& 0x7FFFFFFF) ∧
    writesW (.vfneg l vd vs) vd
      (fun _ ln j => if isNaN (vw (getV vs ln) j) then vw (getV vs ln) j else vw (getV vs ln) j ^^^ 0x80000000) ∧
    writesW (.vfcvtFW l vd vs) vd (fun _ ln j => fOfInt (vw (getV vs ln) j)) ∧
    writesW (.vfcvtWF l vd vs) vd (fun _ ln j => fToInt (vw (getV vs ln) j)) ∧
    writesW (.vfsqrt l vd vs) vd (fun _ ln j => fSqrt (vw (getV vs ln) j)) ∧
    writesW (.vfcmplt l vd vs vt) vd
      (fun _ ln j => if fLess (vw (getV vs ln) j) (vw (getV vt ln) j) then 0xFFFFFFFF else 0) ∧
    (∀ x y : Word, isNaN x = true → isNaN y = false → fMin x y = y ∧ fMax x y = y ∧ fMin y x = y ∧ fMax y x = y ∧
      fLess x y = false ∧ fLess y x = false)

/-- R155: complex products and butterflies. The .H forms round by 15 bits or by the scale and saturate; VCMUL.F rounds
one product and fuses the other; each butterfly writes sums to v(d) and differences to v(d + 1); no other register
changes. The model's own readings that its clauses meet: log entry 32. -/
def Obligations.ComplexInstructionsWriteTheirPairs : Prop :=
  ∀ (l : Lane) (vd vs vt : VReg) (k : BitVec 3),
    writesH (.vcmulH l vd vs vt) vd (fun ln i => let a := getV vs ln; let b := getV vt ln; let e := i / 2 * 2
      satS 16 ((if i % 2 = 0 then vh a e * vh b e - vh a (e + 1) * vh b (e + 1) + 2 ^ 14
        else vh a e * vh b (e + 1) + vh a (e + 1) * vh b e + 2 ^ 14) / 2 ^ 15)) ∧
    writesH (.vcmuljH l vd vs vt) vd (fun ln i => let a := getV vs ln; let b := getV vt ln; let e := i / 2 * 2
      satS 16 ((if i % 2 = 0 then vh a e * vh b e + vh a (e + 1) * vh b (e + 1) + 2 ^ 14
        else vh a (e + 1) * vh b e - vh a e * vh b (e + 1) + 2 ^ 14) / 2 ^ 15)) ∧
    writesW (.vcmulF l vd vs vt) vd (fun _ ln j => let a := getV vs ln; let b := getV vt ln; let e := j / 2 * 2
      if j % 2 = 0 then fFma (vw a e) (vw b e) (fMul (vw a (e + 1)) (vw b (e + 1)) ^^^ 0x80000000)
      else fFma (vw a e) (vw b (e + 1)) (fMul (vw a (e + 1)) (vw b e))) ∧
    writesH (.vbf4H l vd vs k) vd (fun ln i => satS 16 (rnd (radix4 (· + ·) (· - ·)
      (fun m => vh (getV vs ln) (2 * m)) (fun m => vh (getV vs ln) (2 * m + 1)) (i / 2) (i % 2)) k.toNat)) ∧
    (∀ (w : Word) (s : State), laneWord (.vbf2H l vd vs vt k) = some (l, w) → laneIssues l w s = true →
      ∃ t : State, exec (.vbf2H l vd vs vt k) s = .next t ∧ onlyLane l s t ∧ (lane l t).pc = (lane l s).pc + 4 ∧
        ∀ i : Fin 8,
          vh (getV vd (lane l t)) i = satS 16 (rnd (vh (getV vs (lane l s)) i + vh (getV vt (lane l s)) i) k.toNat) ∧
          vh (getV (vd + 1) (lane l t)) i = satS 16 (rnd (vh (getV vs (lane l s)) i - vh (getV vt (lane l s)) i) k.toNat) ∧
          (∀ r : VReg, r ≠ vd → r ≠ vd + 1 → getV r (lane l t) = getV r (lane l s)) ∧ (lane l t).g = (lane l s).g) ∧
    (∀ (w : Word) (s : State), laneWord (.vbf2F l vd vs vt) = some (l, w) → laneIssues l w s = true →
      ∃ t : State, exec (.vbf2F l vd vs vt) s = .next t ∧ onlyLane l s t ∧ (lane l t).pc = (lane l s).pc + 4 ∧
        ∀ j : Fin 4, vw (getV vd (lane l t)) j = fAdd (vw (getV vs (lane l s)) j) (vw (getV vt (lane l s)) j) ∧
          vw (getV (vd + 1) (lane l t)) j = fSub (vw (getV vs (lane l s)) j) (vw (getV vt (lane l s)) j) ∧
          (∀ r : VReg, r ≠ vd → r ≠ vd + 1 → getV r (lane l t) = getV r (lane l s)) ∧ (lane l t).g = (lane l s).g) ∧
    (∀ (w : Word) (s : State), laneWord (.vbf4F l vd vs) = some (l, w) → laneIssues l w s = true →
      ∃ t : State, exec (.vbf4F l vd vs) s = .next t ∧ onlyLane l s t ∧ (lane l t).pc = (lane l s).pc + 4 ∧
        ∀ j : Fin 4, vw (getV vd (lane l t)) j = bf4F (getV vs (lane l s)) (getV (vs + 1) (lane l s)) j ∧
          vw (getV (vd + 1) (lane l t)) j = bf4F (getV vs (lane l s)) (getV (vs + 1) (lane l s)) (4 + j) ∧
          (∀ r : VReg, r ≠ vd → r ≠ vd + 1 → getV r (lane l t) = getV r (lane l s)) ∧ (lane l t).g = (lane l s).g)

/-- R147, R156, R110, R112, R148, R138: an aligned load whose address resolves and whose memory answers writes the bytes
that the lane sees at that address, extended as the table says, changes no other register and nothing outside its lane
but what a read notes; out of step mode, while no other lane's store is under way in its district, what it sees is
memory as it stands. A misaligned one faults with cause 3, and one that does not resolve or whose memory fails with that
cause, at its address. The model's own readings that its clauses meet: log entries 32 and 34. -/
def Obligations.LoadsReadTheAddressedBytes : Prop :=
  (∀ (l : Lane) (rt rs : GReg) (off : BitVec 16) (vd : VReg) (k : BitVec 3) (ans : MemAnswer) (w : Word) (s : State),
    laneIssues l w s = true →
    (∀ c ∈ [(Instr.lb l rt rs off ans, 1, fun n : Nat => (BitVec.ofNat 8 n).signExtend 32),
        (.lbu l rt rs off ans, 1, BitVec.ofNat 32), (.lh l rt rs off ans, 2, fun n => (BitVec.ofNat 16 n).signExtend 32),
        (.lhu l rt rs off ans, 2, BitVec.ofNat 32), (.lw l rt rs off ans, 4, BitVec.ofNat 32)],
      laneWord c.1 = some (l, w) →
      let r := laneRef l (effAddr l rs off s) c.2.1 false s
      let v := laneSees l r (noteRef r ans s)
      ((effAddr l rs off s).toNat % c.2.1 ≠ 0 →
        ∃ t : State, exec c.1 s = .next t ∧ faults l 3 (effAddr l rs off s) 0 s t) ∧
      ((effAddr l rs off s).toNat % c.2.1 = 0 → ∀ n : Nat, answerCause r ans s = some n →
        ∃ t : State, exec c.1 s = .next t ∧ faults l n (effAddr l rs off s) 0 s t) ∧
      ((effAddr l rs off s).toNat % c.2.1 = 0 → answerCause r ans s = none →
        ∃ t : State, exec c.1 s = .next t ∧ onlyLane l v.1 t ∧ (lane l t).pc = (lane l s).pc + 4 ∧
          (∀ q : GReg, getG q (lane l t) = if q = rt ∧ q ≠ 0 then c.2.2 (rdLe r.addr c.2.1 v.2) else getG q (lane l s)) ∧
          (lane l t).v = (lane l s).v)) ∧
    (laneWord (.vld l vd rs k ans) = some (l, w) →
      let r := laneRef l (vecAddr l rs k s) 16 false s
      let v := laneSees l r (noteRef r ans s)
      ((vecAddr l rs k s).toNat % 16 ≠ 0 →
        ∃ t : State, exec (.vld l vd rs k ans) s = .next t ∧ faults l 3 (vecAddr l rs k s) 0 s t) ∧
      ((vecAddr l rs k s).toNat % 16 = 0 → ∀ n : Nat, answerCause r ans s = some n →
        ∃ t : State, exec (.vld l vd rs k ans) s = .next t ∧ faults l n (vecAddr l rs k s) 0 s t) ∧
      ((vecAddr l rs k s).toNat % 16 = 0 → answerCause r ans s = none →
        ∃ t : State, exec (.vld l vd rs k ans) s = .next t ∧ onlyLane l v.1 t ∧ (lane l t).pc = (lane l s).pc + 4 ∧
          (∀ q : VReg, getV q (lane l t) = if q = vd then BitVec.ofNat 128 (rdLe r.addr 16 v.2) else getV q (lane l s)) ∧
          (lane l t).g = (lane l s).g))) ∧
  (∀ (l : Lane) (r : LaneRef) (s : State), stepMode s = false →
    (∀ x ∈ (district (l / 16) s).flights, x.lane = l.val) → laneSees l r s = (s, s))

/-- R147, R156, R128, R148: an aligned store that the step buffer does not hold, and whose memory answers, writes the
low bytes of its register at its address, so that they read back, and every byte outside them reads as before; one that
the step buffer holds is put there, and changes nothing but its lane, or faults with cause 11 when the buffer is full.
No register of the lane changes. A misaligned one faults with cause 3, and one whose address does not resolve with that
cause. The model's own readings that its clauses meet: log entries 31, 32 and 34. -/
def Obligations.StoresWriteOnlyTheAddressedBytes : Prop :=
  ∀ (l : Lane) (rt rs : GReg) (off : BitVec 16) (vd : VReg) (k : BitVec 3) (ans : MemAnswer) (w : Word) (s : State),
    laneIssues l w s = true →
    ∀ c ∈ [(Instr.sb l rt rs off ans, effAddr l rs off s, leBytes 1 (getG rt (lane l s)).toNat),
        (.sh l rt rs off ans, effAddr l rs off s, leBytes 2 (getG rt (lane l s)).toNat),
        (.sw l rt rs off ans, effAddr l rs off s, leBytes 4 (getG rt (lane l s)).toNat),
        (.vst l vd rs k ans, vecAddr l rs k s, leBytes 16 (getV vd (lane l s)).toNat)],
      laneWord c.1 = some (l, w) →
      let r := laneRef l c.2.1 c.2.2.length true s
      (c.2.1.toNat % c.2.2.length ≠ 0 → ∃ t : State, exec c.1 s = .next t ∧ faults l 3 c.2.1 0 s t) ∧
      (c.2.1.toNat % c.2.2.length = 0 → ∀ n : Nat, r = .fault n →
        ∃ t : State, exec c.1 s = .next t ∧ faults l n c.2.1 0 s t) ∧
      (c.2.1.toNat % c.2.2.length = 0 → isBuffered r s = true →
        if stepRoom l 1 s = true then
          exec c.1 s = .next (setLane l (retire (bufferWrite (.write r.addr c.2.2) (lane l s))) s)
        else ∃ t : State, exec c.1 s = .next t ∧ faults l 11 0 0 s t) ∧
      (c.2.1.toNat % c.2.2.length = 0 → answerCause r ans s = none → isBuffered r s = false →
        ∃ t : State, exec c.1 s = .next t ∧ (lane l t).pc = (lane l s).pc + 4 ∧ (lane l t).g = (lane l s).g ∧
          (lane l t).v = (lane l s).v ∧ t.regs = (noteRef r ans s).regs ∧ (∀ m : Lane, m ≠ l → lane m t = lane m s) ∧
          rdBytes r.addr c.2.2.length t = c.2.2 ∧
          ∀ a : Nat, a < r.addr ∨ r.addr + c.2.2.length ≤ a → rdByte a t = rdByte a s)

/-- R167: TRAP faults the lane with cause 1 and records its code, and has no other effect than a fault has under R132. -/
def Obligations.TrapFaultsTheLaneWithItsCode : Prop :=
  ∀ (l : Lane) (code : BitVec 16) (w : Word) (s : State), laneWord (.trap l code) = some (l, w) →
    laneIssues l w s = true → ∃ t : State, exec (.trap l code) s = .next t ∧ faults l 1 0 code.toNat s t

/-- R115, R116: a lane that can take work starts the job at the head of its queue: it runs at the vector's address with
the entry's eight words in g1-g8 and every other register 0, and nothing outside the lane changes. A vector that is no
code address faults with cause 10, and one that local memory answers with an uncorrectable error with cause 6; the job
leaves the queue then too. A lane that cannot take work, or whose queue's head is no job, does not change. R117, R157:
JEND ends the job: the lane becomes idle, its job count grows by one, its frame buffer returns, and its registers, the
other lanes and memory keep their contents. R132, R112, R139-R141, R167: TRAP faults with cause 1 and its code, a word
that is no instruction with cause 2, and a program counter outside local memory with cause 12; a fetch that local memory
answers with an uncorrectable error faults with cause 6, and a corrected one is only counted. The lane stops with its
registers as they stood. A lane that issues nothing takes none of these faults. The model's own readings that its
clauses meet: log entries 31, 32 and 38. Log entry 3 (the model's choice): a command whose event does not hold leaves
the block as it is. -/
def Obligations.LaneJobsStartEndAndFault : Prop :=
  ((∀ (l : Lane) (ans : MemAnswer) (s : State),
    takesNext l s = false ∨ (∀ (j : Job) (q : List QueueEntry), (lane l s).queue ≠ .job j :: q) →
    exec (.jobStart l ans) s = .next s) ∧
  ∀ (l : Lane) (j : Job) (q : List QueueEntry) (s : State), takesNext l s = true → (lane l s).queue = .job j :: q →
    (let e := localWord l (4 * (j.code.toNat % 256)) s
     (e ≠ 0 → e.toNat % 4 = 0 → e.toNat < 0x10000 →
      ∃ t : State, exec (.jobStart l .ok) s = .next t ∧ onlyLane l s t ∧ (lane l t).run = .running ∧ (lane l t).pc = e ∧
        (lane l t).queue = q ∧ (lane l t).job = some j ∧
        (∀ i : Fin 8, getG (i + 1) (lane l t) = (jobWords j).getD i 0) ∧
        (∀ r : GReg, 8 < r.val → getG r (lane l t) = 0) ∧ (∀ r : VReg, getV r (lane l t) = 0)) ∧
     (e = 0 ∨ e.toNat % 4 ≠ 0 ∨ 0x10000 ≤ e.toNat →
      ∃ t : State, exec (.jobStart l .ok) s = .next t ∧
        faults l 10 (w32 (4 * (j.code.toNat % 256))) 0 s t ∧ (lane l t).queue = q) ∧
     ∃ t : State, exec (.jobStart l .uncorrectable) s = .next t ∧
       faults l 6 (w32 (4 * (j.code.toNat % 256))) 0 s t ∧ (lane l t).queue = q)) ∧
  (∀ (l : Lane) (w : Word) (s : State), laneWord (.jend l) = some (l, w) → laneIssues l w s = true →
    ∃ t : State, exec (.jend l) s = .next t ∧ (lane l t).run = .idle ∧ (lane l t).job = none ∧
      (lane l t).g = (lane l s).g ∧ (lane l t).v = (lane l s).v ∧ (lane l t).queue = (lane l s).queue ∧
      rgF LNC_LANE_CNT_JOB l 31 0 t = (rgF LNC_LANE_CNT_JOB l 31 0 s + 1) % 2 ^ 32 ∧
      (∀ b : Nat, ((lane l s).job.bind fun j => j.buffer) = some b → b ∉ (district (l / 16) t).buffers) ∧
      (∀ m : Lane, m ≠ l → lane m t = lane m s) ∧ t.mem = s.mem) ∧
  (∀ (l : Lane) (s : State),
    (∀ (code : BitVec 16) (w : Word), laneWord (.trap l code) = some (l, w) → laneIssues l w s = true →
      ∃ t : State, exec (.trap l code) s = .next t ∧ faults l 1 0 code.toNat s t) ∧
    (laneReady l s = true → (lane l s).pc.toNat < 0x10000 → legalWord (fetchWord l s) = false →
      ∃ t : State, exec (.illegalInstruction l) s = .next t ∧ faults l 2 0 0 s t) ∧
    (laneReady l s = true → 0x10000 ≤ (lane l s).pc.toNat →
      ∀ ans : MemAnswer, ∃ t : State, exec (.instructionFetchFault ⟨l, ans⟩) s = .next t ∧ faults l 12 0 0 s t) ∧
    (laneReady l s = true → (lane l s).pc.toNat < 0x10000 →
      (∃ t : State, exec (.instructionFetchFault ⟨l, .uncorrectable⟩) s = .next t ∧ faults l 6 (lane l s).pc 0 s t) ∧
      exec (.instructionFetchFault ⟨l, .corrected⟩) s = .next (bump LNC_DST_ECC (l / 16) 31 16 s) ∧
      exec (.instructionFetchFault ⟨l, .ok⟩) s = .next s) ∧
    (laneReady l s = false → ∀ ans : MemAnswer,
      exec (.illegalInstruction l) s = .next s ∧ exec (.instructionFetchFault ⟨l, ans⟩) s = .next s))

/-- R158, R117, R168: with a message in the inbox that is no drain marker WAITM and POLLM, and a WAITM that resumes,
write its 64 bytes to local memory and nothing else of memory, take it from the inbox, clear the status register and
change no other lane; without one WAITM suspends the lane outside step mode and POLLM sets its status register to 1. An
address that is no multiple of 16 faults with cause 3 and one that leaves local memory with cause 4. A lane that does
not wait, is halted or in reset, or has no message, does not resume. The model's own readings that its clauses meet: log
entries 31 and 32. Log entry 3 (the model's choice): a command whose event does not hold leaves the block as it is. -/
def Obligations.ReceivesTakeTheFirstMessage : Prop :=
  ∀ (l : Lane) (a b : GReg) (w : Word) (s : State),
    (laneIssues l w s = true → (getG b (lane l s)).toNat % 16 ≠ 0 ∨ 0x10000 < (getG b (lane l s)).toNat + 64 →
      ∀ c ∈ [Instr.waitm l a b .ok, .pollm l a b .ok], laneWord c = some (l, w) →
      ∃ t : State, exec c s = .next t ∧
        faults l (if (getG b (lane l s)).toNat % 16 ≠ 0 then 3 else 4) (getG b (lane l s)) 0 s t) ∧
    (laneIssues l w s = true → (getG b (lane l s)).toNat % 16 = 0 → (getG b (lane l s)).toNat + 64 ≤ 0x10000 →
      (∀ m : Message, firstMessage l s = some m → bit m.flags 0 = false →
        ∀ c ∈ [Instr.waitm l a b .ok, .pollm l a b .ok], laneWord c = some (l, w) →
        ∃ t : State, exec c s = .next t ∧ getG a (lane l t) = 0 ∧ (lane l t).inbox = dropFirst (lane l s).inbox ∧
          (lane l t).run = .running ∧ (lane l t).pc = (lane l s).pc + 4 ∧
          rdBytes (localAddr l + (getG b (lane l s)).toNat) (messageBytes m).length t = messageBytes m ∧
          (∀ x : Nat, x < localAddr l + (getG b (lane l s)).toNat ∨
            localAddr l + (getG b (lane l s)).toNat + (messageBytes m).length ≤ x → rdByte x t = rdByte x s) ∧
          t.regs = s.regs ∧ (∀ k : Lane, k ≠ l → lane k t = lane k s)) ∧
      (firstMessage l s = none → laneWord (.pollm l a b .ok) = some (l, w) →
        ∃ t : State, exec (.pollm l a b .ok) s = .next t ∧ onlyLane l s t ∧
          getG a (lane l t) = (if a = 0 then 0 else 1) ∧ (lane l t).pc = (lane l s).pc + 4) ∧
      (firstMessage l s = none → stepMode s = false → laneWord (.waitm l a b .ok) = some (l, w) →
        ∃ t : State, exec (.waitm l a b .ok) s = .next t ∧ onlyLane l s t ∧ (lane l t).run = .waiting ∧
          (lane l t).waitReg = a ∧ (lane l t).waitAddr = getG b (lane l s) ∧ (lane l t).pc = (lane l s).pc)) ∧
    (∀ m : Message, (lane l s).run = .waiting → (lane l s).halted = false → laneInReset l s = false →
      firstMessage l s = some m → bit m.flags 0 = false →
      ∃ t : State, exec (.waitmResume ⟨l, .ok⟩) s = .next t ∧ (lane l t).run = .running ∧
        (lane l t).pc = (lane l s).pc + 4 ∧
        (lane l t).inbox = dropFirst (lane l s).inbox ∧ getG (lane l s).waitReg (lane l t) = 0 ∧
        rdBytes (localAddr l + (lane l s).waitAddr.toNat) (messageBytes m).length t = messageBytes m ∧
        (∀ x : Nat, x < localAddr l + (lane l s).waitAddr.toNat ∨
          localAddr l + (lane l s).waitAddr.toNat + (messageBytes m).length ≤ x → rdByte x t = rdByte x s) ∧
        t.regs = s.regs ∧ (∀ k : Lane, k ≠ l → lane k t = lane k s)) ∧
    (∀ ans : MemAnswer, (lane l s).run ≠ .waiting ∨ (lane l s).halted = true ∨ laneInReset l s = true ∨
      firstMessage l s = none → exec (.waitmResume ⟨l, ans⟩) s = .next s)

/-- R119-R121, R159: a SEND of kind 0 or 1 of 1 to 48 bytes inside its district, outside step mode, gives the district a
message with the bytes that the lane sees at its address once its own stores there have performed, and moves the lane
on; kind 0 shows the lane's message number moved on and its registers kept; memory and registers stay. A destination
that does not exist faults with cause 9. R119, R159, R163, R339: outside step mode a SEND of kind 2 stalls its lane with
the frame waiting for the district's port, and the copy's end takes the oldest one, offers it to Junction and ends the
stall, a halt of the district taking effect then (R168), or does nothing when none waits; kind 3 puts a record into the
journal's intake; kind 4 and OBS put an observation of the lane's kind into the roads' ingest queue, in R47's order of
one edge, where the unit takes them; a record that OBS refuses faults with cause 9. The model's own readings that its
clauses meet: log entries 32, 35, 85 and 178. Log entry 3 (the model's choice): a command whose event does not hold
leaves the block as it is. -/
def Obligations.SendsReachTheirDestination : Prop :=
  (∀ (l : Lane) (a b c : GReg) (w : Word) (r : LaneRef) (s : State), laneIssues l w s = true →
    0 < (getG a (lane l s)).toNat → (getG a (lane l s)).toNat ≤ 48 → (getG c (lane l s)).toNat % 4 = 0 →
    sendRef l (getG c (lane l s)) (getG a (lane l s)).toNat = some r → stepMode s = false →
    (let bytes := rdBytes r.addr (getG a (lane l s)).toNat
       (laneSees l r (settleRead l r (getG a (lane l s)).toNat s)).2
     (laneWord (.sendLane l a b c .ok) = some (l, w) → (getG b (lane l s)).toNat < 1024 →
       (getG b (lane l s)).toNat / 16 = l.val / 16 →
       ∃ t : State, exec (.sendLane l a b c .ok) s = .next t ∧ (lane l t).pc = (lane l s).pc + 4 ∧
         (lane l t).msgSeq = (lane l s).msgSeq + 1 ∧ (lane l t).g = (lane l s).g ∧
         (district (l / 16) t).direct = (district (l / 16) s).direct ++
           [(.lane (getG b (lane l s)).toNat, newMessage l bytes s)] ∧ t.mem = s.mem ∧ t.regs = s.regs) ∧
     (laneWord (.sendDistrict l a b c .ok) = some (l, w) → (getG b (lane l s)).toNat = l.val / 16 →
       ∃ t : State, exec (.sendDistrict l a b c .ok) s = .next t ∧ (lane l t).pc = (lane l s).pc + 4 ∧
         (district (l / 16) t).direct = (district (l / 16) s).direct ++
           [(.district (l.val / 16), newMessage l bytes s)] ∧ t.mem = s.mem ∧ t.regs = s.regs) ∧
     (laneWord (.sendDistrict l a b c .ok) = some (l, w) → 64 ≤ (getG b (lane l s)).toNat →
       ∃ t : State, exec (.sendDistrict l a b c .ok) s = .next t ∧ faults l 9 0 0 s t) ∧
     (laneWord (.sendLane l a b c .ok) = some (l, w) → 1024 ≤ (getG b (lane l s)).toNat →
       ∃ t : State, exec (.sendLane l a b c .ok) s = .next t ∧ faults l 9 0 0 s t))) ∧
  ((∀ (l : Lane) (a b c : GReg) (w : Word) (s : State), laneIssues l w s = true → stepMode s = false →
    (getG c (lane l s)).toNat % 4 = 0 →
    (∀ r : LaneRef, laneWord (.sendPort l a b c .ok) = some (l, w) → fld (getG b (lane l s)) 31 11 = 0 → fld (getG b (lane l s)) 7 0 < 132 →
      60 ≤ (getG a (lane l s)).toNat → (getG a (lane l s)).toNat ≤ 2032 →
      sendRef l (getG c (lane l s)) (getG a (lane l s)).toNat = some r →
      ∃ t : State, exec (.sendPort l a b c .ok) s = .next t ∧ (lane l t).sending = true ∧ (lane l t).pc = (lane l s).pc ∧
        (district (l / 16) t).sends = (district (l / 16) s).sends ++
          [{ lane := l, egress := fld (getG b (lane l s)) 7 0, cls := fld (getG b (lane l s)) 10 8,
             frame := rdBytes r.addr (getG a (lane l s)).toNat
               (laneSees l r (settleRead l r (getG a (lane l s)).toNat s)).2 }] ∧ t.mem = s.mem ∧ t.regs = s.regs) ∧
    (∀ r : LaneRef, laneWord (.sendJournal l a b c .ok) = some (l, w) → (getG b (lane l s)).toNat < 3 →
      sendRef l (getG c (lane l s)) 48 = some r → inReset 207 s = false → bit (rg JNL_CFG 0 s) 0 = true →
      s.jnl.intake.length < 256 →
      ∃ t : State, exec (.sendJournal l a b c .ok) s = .next t ∧ (lane l t).pc = (lane l s).pc + 4 ∧
        t.jnl.intake = s.jnl.intake ++ [laneRecord l (getG b (lane l s)).toNat
          (rdBytes r.addr 48 (laneSees l r (settleRead l r 48 s)).2) s] ∧
        t.mem = s.mem ∧ t.regs = s.regs) ∧
    (∀ r : LaneRef, laneWord (.sendRoad l a b c .ok) = some (l, w) → sendRef l (getG c (lane l s)) 16 = some r →
      recordBad (rdBytes r.addr 16 (laneSees l r (settleRead l r 16 s)).2) = false → inReset 200 s = false →
      s.ingest.length < 256 →
      ∃ t : State, exec (.sendRoad l a b c .ok) s = .next t ∧ (lane l t).pc = (lane l s).pc + 4 ∧
        t.ingest = withObservation (observationOf (rdBytes r.addr 16 (laneSees l r (settleRead l r 16 s)).2) 4) s ∧ t.mem = s.mem ∧ t.regs = s.regs)) ∧
  (∀ (l : Lane) (vb : VReg) (w : Word) (s : State), laneWord (.obs l vb) = some (l, w) → laneIssues l w s = true →
    stepMode s = false → inReset 200 s = false → s.ingest.length < 256 →
    if recordBad (vecBytes (getV vb (lane l s))) = true then
      ∃ t : State, exec (.obs l vb) s = .next t ∧ faults l 9 0 0 s t
    else ∃ t : State, exec (.obs l vb) s = .next t ∧ (lane l t).pc = (lane l s).pc + 4 ∧
      t.ingest = withObservation (observationOf (vecBytes (getV vb (lane l s))) 4) s ∧ t.mem = s.mem ∧ t.regs = s.regs) ∧
  (∀ (d : District) (x : PortSend) (q : List PortSend) (s : State), (district d s).sends = x :: q →
    ∃ s' : State, s' = admitSend x.lane x.egress x.cls x.frame (setDistrict d { district d s with sends := q } s) ∧
      exec (.sendFrameCopyDone d) s = .next (setLane x.lane
        (retire { lane x.lane s' with sending := false, halted := (district d s').halted }) s')) ∧
  (∀ (d : District) (s : State), (district d s).sends = [] → exec (.sendFrameCopyDone d) s = .next s))

/-- R160-R162, R129, R43: ROADP writes the published position, the state code and the rate of the road that its register
names, and in step mode, for kinds 2-5, the tracker's position and rate at t_b; ROADAT and ROADWHEN write what the
lookups of R61 and R55 give; each leaves the other registers and the rest of the block alone. R124, R148, R165, R166,
R128: outside step mode an ATOM on an aligned district word, while no store is under way there, gives its register the
old word and leaves the new one, and changes no other byte; while stores are under way it acts after the lane's own. In
step mode it waits in the step buffer. A misaligned one faults with cause 3, and one outside district memory with cause
4. FENCE performs the lane's stores and drops the words fetched ahead. The model's own readings that its clauses meet:
log entries 16, 19, 31, 32, 138, 177 and 178. -/
def Obligations.RoadQueriesAndAtomsWriteTheirRegisters : Prop :=
  (∀ (l : Lane) (vd vc : VReg) (b c : GReg),
    writesW (.roadp l vd b) vd (fun s ln j =>
      let n := (getG b ln).toNat % 64
      let x := diff32 s.stp.tb (road n s).tS
      let p := if stepQuery n s then (pub48 ((road n s).posAt x), BitVec.ofInt 48 ((road n s).velAt x))
        else ((road n s).pub, (road n s).pubRate)
      if j = 0 then p.1.setWidth 32 else if j = 1 then w32 (p.1.toNat / 2 ^ 32 + (road n s).state.code * 2 ^ 16)
      else if j = 2 then p.2.setWidth 32 else BitVec.ofInt 32 (p.2.toInt / 2 ^ 32)) ∧
    writesW (.roadat l vd b c) vd (fun s ln j =>
      let n := (getG b ln).toNat % 64
      let q := roadAt n (getG c ln) (if stepQuery n s then atTb s else s)
      if j = 0 then q.2.1.setWidth 32 else if j = 1 then w32 (q.2.1.toNat / 2 ^ 32 + q.1 * 2 ^ 16)
      else if j = 2 then q.2.2.setWidth 32 else BitVec.ofInt 32 (q.2.2.toInt / 2 ^ 32)) ∧
    writesW (.roadwhen l vd b vc) vd (fun s ln j =>
      let n := (getG b ln).toNat % 64
      let q := roadWhen n ((getV vc ln).setWidth 48) (if stepQuery n s then atTb s else s)
      if j = 0 then (if q.1 = whenOk ∨ q.1 = whenNotConverged then q.2 else 0) else if j = 1 then w32 q.1 else 0)) ∧
  ((∀ (l : Lane) (a b c : GReg) (w : Word) (s : State), laneIssues l w s = true → (getG b (lane l s)).toNat % 4 = 0 →
    ∀ o ∈ [(Instr.atomAdd l a b c .ok, 0, fun old x _ => old + x), (.atomSwap l a b c .ok, 1, fun _ x _ => x),
        (.atomCas l a b c .ok, 2, fun old x y : Word => if old = y then x else old)], laneWord o.1 = some (l, w) →
    (∀ d : Nat, laneRef l (getG b (lane l s)) 4 true s = .districtMem d → stepMode s = false →
      let q := atomDistrict l d (fun old => o.2.2 old (getG c (lane l s)) (getG a (lane l s))) s
      exec o.1 s = .next (setLane l (retire (setG a q.2 (lane l s))) q.1)) ∧
    (∀ d : Nat, laneRef l (getG b (lane l s)) 4 true s = .districtMem d → stepMode s = true → stepRoom l 1 s = true →
      exec o.1 s = .next (setLane l (bufferWrite (.atom d o.2.1 (getG c (lane l s)) (getG a (lane l s)))
        (retire (setG a (rdWord d (laneView l s)) (lane l s)))) s)) ∧
    (∀ d : Nat, laneRef l (getG b (lane l s)) 4 true s = .districtMem d → stepMode s = false →
      flightsOf (l / 16) s = [] → ∃ t : State, exec o.1 s = .next t ∧ (lane l t).pc = (lane l s).pc + 4 ∧
        (∀ r : GReg, getG r (lane l t) = if r = a ∧ r ≠ 0 then rdWord d s else getG r (lane l s)) ∧
        rdWord d t = o.2.2 (rdWord d s) (getG c (lane l s)) (getG a (lane l s)) ∧
        (∀ x : Nat, x < d ∨ d + 4 ≤ x → rdByte x t = rdByte x s) ∧ t.regs = s.regs) ∧
    ((∀ d : Nat, laneRef l (getG b (lane l s)) 4 true s ≠ .districtMem d) →
      ∃ t : State, exec o.1 s = .next t ∧ faults l 4 (getG b (lane l s)) 0 s t)) ∧
  (∀ (l : Lane) (a b c : GReg) (w : Word) (s : State), laneIssues l w s = true → (getG b (lane l s)).toNat % 4 ≠ 0 →
    ∀ o ∈ [Instr.atomAdd l a b c .ok, .atomSwap l a b c .ok, .atomCas l a b c .ok], laneWord o = some (l, w) →
      ∃ t : State, exec o s = .next t ∧ faults l 3 (getG b (lane l s)) 0 s t) ∧
  (∀ (l : Lane) (w : Word) (s : State), laneWord (.fence l) = some (l, w) → laneIssues l w s = true →
    ∃ t : State, exec (.fence l) s = .next t ∧ onlyLane l (settleFlights l s) t ∧ (lane l t).stale = [] ∧
      (lane l t).pc = (lane l s).pc + 4 ∧ (lane l t).g = (lane l s).g ∧ (lane l t).v = (lane l s).v))

/-- R121, R122, R118, R83: the oldest message of a district's own lanes, where its slot's results are not ordered at the
lane, goes to its lane's inbox, or raises the district's cause 2 when the inbox is full; the message that Junction hands
over is delivered when its district is out of reset; with none waiting nothing happens. A drain marker at the head of
the queue of a lane that takes work leaves it; one of a past switch has no other effect, and the last one of the open
switch of a slot without order ends the draining. R125, R126: a frame handed to a district that takes it is placed in a
buffer with its source port, class and timestamp; a frame beyond 2,032 bytes is counted as dropped. A written layout
waits until no buffer is in use and then is in force. The model's own readings that its clauses meet: log entries 27 to
29, 36, 37 and 169. Log entry 3 (the model's choice): a command whose event does not hold leaves the block as it is. -/
def Obligations.DistrictsDeliverMessagesAndFrames : Prop :=
  ((∀ (d : District) (l : Lane) (m : Message) (q : List (MsgDest × Message)) (s : State),
    (district d s).direct = (.lane l.val, m) :: q → (lane l s).inReset = false →
    bit m.flags 0 = true ∨ orderedAt m.slot.toNat l s = false →
    ((lane l s).inbox.length < 32 → ∃ t : State, exec (.messageDeliver d false) s = .next t ∧
      (lane l t).inbox = (lane l s).inbox ++ [{ msg := m }] ∧ (district d t).direct = q ∧ t.regs = s.regs ∧
      t.mem = s.mem ∧ (∀ x : Lane, x ≠ l → lane x t = lane x s)) ∧
    (32 ≤ (lane l s).inbox.length → ∃ t : State, exec (.messageDeliver d false) s = .next t ∧ t.lanes = s.lanes ∧
      (district d t).direct = q ∧ bit (rg LNC_DST_CAUSE (l / 16) t) 2 = true)) ∧
  (∀ (d : District) (c : Copy) (f : JFrame) (dest : MsgDest) (m : Message) (s : State),
    handed (132 + d) s = some c → jframe c.frame s = some f → f.msg = some (dest, m) → inReset (132 + d) s = false →
    exec (.messageDeliver d true) s = .next (deliverMessage dest m (endHanded (132 + d) s))) ∧
  (∀ (d : District) (s : State), ((district d s).direct = [] → exec (.messageDeliver d false) s = .next s) ∧
    (handed (132 + d) s = none → exec (.messageDeliver d true) s = .next s)) ∧
  (∀ (l : Lane) (slot : BitVec 9) (gen : BitVec 8) (seq : BitVec 16) (q : List QueueEntry) (s : State),
    takesNext l s = true → (lane l s).queue = .marker slot gen seq :: q →
    ((slotRun slot.toNat s).oldGen ≠ gen →
      exec (.drainMarkerHead l) s = .next (setLane l { lane l s with queue := q } s)) ∧
    ((slotRun slot.toNat s).oldGen = gen → (slotRun slot.toNat s).markersOut = 1 →
      (slotRun slot.toNat s).markerLanes = [] → bit (rg MST_PLC_CUR slot.toNat s) 31 = true →
      bit (rg MST_PLC_RX slot.toNat s) 16 = false →
      ∃ t : State, exec (.drainMarkerHead l) s = .next t ∧ (lane l t).queue = q ∧
        bit (rg MST_PLC_CUR slot.toNat t) 31 = false ∧ t.mem = s.mem))) ∧
  ((∀ (d : District) (c : Copy) (f : JFrame) (s : State), handed (132 + d) s = some c → jframe c.frame s = some f →
    f.msg = none → takesFrames d s = true → f.cutting = false → stepMode s = false → c.trunc = 0 →
    exec (.frameToDistrict d) s = .next (placeFrame d f.src c.cls f.ts f.ts f.bytes (endHanded (132 + d) s)) ∧
    (2032 < f.bytes.length →
      exec (.frameToDistrict d) s = .next (bump LNC_DST_CNT_FRAME d 15 0 (endHanded (132 + d) s)))) ∧
  (∀ (d : District) (port cls i : Nat) (ts time : Word) (b : Bytes) (l : Nat) (s : State), b.length ≤ 2032 →
    freeBufferOf d s = some i → leastOf (fun l => jobCount l s) ((lanesOf d).filter fun l => takesJobs l s) = some l →
    (lane l s).queue.length < 16 →
    rdBytes (districtAddr d + bufferOffset d i s) (16 + b.length) (placeFrame d port cls ts time b s) =
      bufferHeader port cls i ts ((district d s).frames + 1) b.length ++ b ∧
    ∀ a : Nat, a < districtAddr d + bufferOffset d i s ∨ districtAddr d + bufferOffset d i s + (16 + b.length) ≤ a →
      rdByte a (placeFrame d port cls ts time b s) = rdByte a s) ∧
  (∀ (p : Path) (v : Word) (d : Nat) (s : State), winOf p LNC_DST_FRX s = some d → writable p LNC_DST_FRX d s = true →
    exec (.lncDstFrxWrite p v) s = .next (setDistrict d { district d s with frxPending := true }
      (setRg LNC_DST_FRX d (v &&& 0xFF00FF) s))) ∧
  (∀ (d : District) (s : State), (district d s).frxPending = true → inReset (132 + d) s = false →
    exec (.frxLayoutApply d) s = .next (if (district d s).buffers = [] then
      setDistrict d { district d s with frx := rg LNC_DST_FRX d s, frxPending := false } s else s)))

/-- R131, R133-R135, R168: outside step mode a halt and a resume set and clear the halt of the district and its sixteen
lanes, but of one that stalls in a SEND of kind 2, and nothing else of them; a lane reset empties the lane, clears its
fault mark and counts the queued jobs it discards as refused; a district reset empties the sixteen lanes and frees the
district's buffers; no other lane and no memory changes. The end of the lane's own reset leaves it out of reset. In step
mode they wait for the next step. R127: a step whose merged stream is complete and whose jobs have ended begins the next
one: the step number and LNC_STEP grow by one and the merged inputs are spent. Before that the block does not change.
The model's own readings that its clauses meet: log entries 38, 40, 41, 86 and 87. Log entry 3 (the model's choice): a
command whose event does not hold leaves the block as it is. -/
def Obligations.LaneControlsAndStepsTakeEffect : Prop :=
  ((∀ (d : District) (s : State), inReset (132 + d) s = false → stepMode s = false →
    ∀ c ∈ [(Instr.districtHalt d, true), (.districtResume d, false)], ∃ t : State, exec c.1 s = .next t ∧
      (district d t).halted = c.2 ∧ (∀ l : Lane, l.val / 16 = d →
        lane l t = { lane l s with halted := c.2 && !(lane l s).sending }) ∧
      (∀ l : Lane, l.val / 16 ≠ d → lane l t = lane l s) ∧ t.regs = s.regs ∧ t.mem = s.mem) ∧
  (∀ (l : Lane) (s : State), laneInReset l s = false → stepMode s = false →
    ∃ t : State, exec (.laneReset l) s = .next t ∧ (lane l t).inReset = true ∧ (lane l t).run = .idle ∧
      (lane l t).queue = [] ∧ (lane l t).inbox = [] ∧ (lane l t).g = [] ∧ (lane l t).v = [] ∧
      rgF LNC_LANE_CNT_DROP l 31 22 t = (rgF LNC_LANE_CNT_DROP l 31 22 s + jobCount l s) % 2 ^ 10 ∧
      bit (rg LNC_DST_FAULTED (l / 16) t) (l % 16) = false ∧
      (∀ m : Lane, m ≠ l → lane m t = lane m s) ∧ t.mem = s.mem) ∧
  (∀ (l : Lane) (s : State), (lane l s).inReset = true → inReset (132 + l / 16) s = false →
    ∃ t : State, exec (.laneResetDone l) s = .next t ∧ (lane l t).inReset = false) ∧
  (∀ (d : District) (s : State), stepMode s = false → inReset (132 + d) s = false →
    ∃ t : State, exec (.districtReset d) s = .next t ∧ inReset (132 + d) t = true ∧ (district d t).buffers = [] ∧
      (∀ l : Lane, l.val / 16 = d → (lane l t).run = .idle ∧ (lane l t).queue = [] ∧ (lane l t).inbox = []) ∧
      (∀ l : Lane, l.val / 16 ≠ d → lane l t = lane l s) ∧ t.mem = s.mem) ∧
  (∀ (l : Lane) (d : District) (s : State), stepMode s = true → laneInReset l s = false → inReset (132 + d) s = false →
    exec (.laneReset l) s = .next (awaitStep (.resetLane l) s) ∧
    exec (.districtReset d) s = .next (awaitStep (.resetDistrict d) s) ∧
    exec (.districtHalt d) s = .next (awaitStep (.halt d) s) ∧
    exec (.districtResume d) s = .next (awaitStep (.resume d) s))) ∧
  ((∀ (tb : Word) (s : State), stepMode s = true → mergeReady s.stp.step s = true → jobsEnded s = true →
    markerTime (s.stp.step + 1) s = some tb →
    ∃ t : State, exec .stepBegin s = .next t ∧ t.stp.step = s.stp.step + 1 ∧
      rg LNC_STEP 0 t = w32 (s.stp.step + 1) ∧
      (∀ x ∈ t.twn.inputs, s.stp.step < x.step) ∧ (∀ x ∈ t.twn.markers, s.stp.step + 1 < x.1)) ∧
  (∀ s : State, stepMode s = false ∨ mergeReady s.stp.step s = false ∨ jobsEnded s = false ∨
      markerTime (s.stp.step + 1) s = none →
    exec .stepBegin s = .next s))

/-- R189, R190, R172, R173: a port reset puts the port into reset with its link down; one of a port in reset is merged
into it. On a port that is on, is no serial port and whose die is linked, LINK_CHANGE sets the link to the reported
state, on a T1L port only when the partners agree, and shows there the level and role that are forced or resolved and
LPI only with EEE in effect, which both partners advertise under auto-negotiation, and on a T1S port PLCA only where it
runs; memory, lanes and the other ports stay. On any other port it does nothing. R174, R180: when a cycle is over, the
coordinator of a T1S port opens the next one with a beacon, which is counted, and has 1 + burst_cnt frames of its own
transmit opportunity; for a verge window it withholds the beacon and counts that. On a port that is no coordinator, and
before the cycle is over, nothing happens. R188: a clamp event of more than 50 mA and at least 20 ns, more than 10 us
after the one before, is counted, in its class of peak as well, with its start, and sets the surge cause; one within 10
us of the one before merges with it and leaves the count and the start; a weaker or shorter one is none. The model's own
readings that its clauses meet: log entries 42, 44, 46 and 149. Log entry 3 (the model's choice): a command whose event
does not hold leaves the block as it is. -/
def Obligations.FieldPortsFollowLinksBeaconsAndSurges : Prop :=
  ((∀ (p : FieldPort) (s : State), (inReset p s = false →
      ∃ t : State, exec (.portReset p) s = .next t ∧ inReset p t = true ∧ bit (rg FPA_PORT_STAT p t) 0 = false ∧
        (verge p t).state = .none ∧ (portRun p t).chars = []) ∧
    (inReset p s = true → exec (.portReset p) s = .next s)) ∧
  (∀ (p : FieldPort) (up : Bool) (x : LinkPartner) (ma lt lr pl : Bool) (s : State), portOn p s = true →
    isSerial p s = false → dieUp (p / 64) s = true →
    ∃ t : State, exec (.linkChange p up x ma lt lr pl) s = .next t ∧
      (portMode p s ≠ 0 → bit (rg FPA_PORT_STAT p t) 0 = up ∧ bit (rg FPA_PORT_STAT p t) 13 = (pl && plcaRuns p s) ∧
        t.ports = s.ports) ∧
      (portMode p s = 0 → bit (rg FPA_PORT_STAT p t) 0 = (up && t1lAgrees p x.level.toNat ma s) ∧
        (rgF FPA_PORT_STAT p 7 5 t = if up && t1lAgrees p x.level.toNat ma s then
          (t1lSetting p x.level.toNat ma s).1 * 2 + b2n (t1lSetting p x.level.toNat ma s).2 else 0) ∧
        eeeInEffect p t = (up && t1lAgrees p x.level.toNat ma s && x.eee && bit (rg FPA_T1L_CFG p s) 0 &&
          bit (rg FPA_T1L_CFG p s) 1) ∧
        bit (rg FPA_PORT_STAT p t) 15 = (lr && eeeInEffect p t) ∧
        (∀ q : FieldPort, q ≠ p → portRun q t = portRun q s)) ∧
      t.lanes = s.lanes ∧ t.mem = s.mem) ∧
  (∀ (p : FieldPort) (up : Bool) (x : LinkPartner) (ma lt lr pl : Bool) (s : State),
    portOn p s = false ∨ isSerial p s = true ∨ dieUp (p / 64) s = false →
    exec (.linkChange p up x ma lt lr pl) s = .next s)) ∧
  (∀ (p : FieldPort) (s : State),
    (portOn p s = true → plcaCoordinator p s = true → cycleOver p s = true →
      exec (.t1sBeacon p) s = .next (if (verge p s).state = .none then
        bump FPA_T1S_CNT p 31 16 (setPortRun p { portRun p s with
          cycleStart := some (now s), oppLeft := 1 + rgF FPA_T1S_BURST p 7 0 s, oppEnd := none } s)
        else bump FPA_T1S_CNT p 15 0 s)) ∧
    (portOn p s = false ∨ plcaCoordinator p s = false ∨ cycleOver p s = false → exec (.t1sBeacon p) s = .next s)) ∧
  ((∀ (p : FieldPort) (peak dur gap : Nat) (start : Word) (s : State), 50 < peak → 20 ≤ dur → 10000 < gap →
    ∃ t : State, exec (.surgeClampEvent p peak dur gap start) s = .next t ∧
      rgF FPA_SURGE_CNT p 31 0 t = (rgF FPA_SURGE_CNT p 31 0 s + 1) % 2 ^ 32 ∧ rg FPA_SURGE_LAST p t = start ∧
      (let k := if peak ≤ 200 then 0 else if peak ≤ 1000 then 1 else 2
       rgF FPA_SURGE_CLASS p (10 * k + 9) (10 * k) t = (rgF FPA_SURGE_CLASS p (10 * k + 9) (10 * k) s + 1) % 1024) ∧
      bit (rg FPA_CAUSE p t) 1 = true ∧ t.mem = s.mem ∧ t.lanes = s.lanes) ∧
  (∀ (p : FieldPort) (peak dur gap old : Nat) (start : Word) (s : State), 50 < peak → 20 ≤ dur → gap ≤ 10000 →
    (portRun p s).surgeClass = some old →
    ∃ t : State, exec (.surgeClampEvent p peak dur gap start) s = .next t ∧
      rg FPA_SURGE_CNT p t = rg FPA_SURGE_CNT p s ∧ rg FPA_SURGE_LAST p t = rg FPA_SURGE_LAST p s ∧
      t.mem = s.mem ∧ t.lanes = s.lanes) ∧
  (∀ (p : FieldPort) (peak dur gap : Nat) (start : Word) (s : State), peak ≤ 50 ∨ dur < 20 →
    exec (.surgeClampEvent p peak dur gap start) s = .next s))

/-- R179-R182, R187: VERGE_GO for 100 us-10 ms on a port that is on, has no window and has a quiet condition requests a
window of that length and mask; with no quiet condition, force starts it at once; any other request is refused and
counted. A software window starts in a quiet line within the deferral, is forced after it where force is set, and is
otherwise skipped and counted. An abort leaves no window and writes no byte outside the port's record. R183, R184: a
measurement whose time has passed leaves its value, scaled as R465 says and held to the range of its kind, and no
register, memory or other port changes; before that nothing happens. R182, R186: the end of a window, software's after
its duration and a gate-list entry's with its entry, leaves no window; where memory takes the record, the record is
counted and no byte outside the port's 1,024 is written. Before its end the window goes on. The model's own readings
that its clauses meet: log entries 13, 42, 43, 150 and 176. Log entry 3 (the model's choice): a command whose event does
not hold leaves the block as it is. -/
def Obligations.VergeWindowsAndMeasurementsFollowTheirRules : Prop :=
  ((∀ (q : Path) (v : Word) (p : FieldPort) (s : State), winOf q FPA_VRG_CTRL s = some p.val →
    writable q FPA_VRG_CTRL p s = true → bit v 30 = false → bit v 31 = true →
    (100 ≤ fld v 13 0 → fld v 13 0 ≤ 10000 → portOn p s = true → (verge p s).state = .none → quietExists p s = true →
      ∃ t : State, exec (.vergeGo q v) s = .next t ∧ (verge p t).state = .deferring ∧ (verge p t).software = true ∧
        (verge p t).mask = BitVec.ofNat 6 (fld v 21 16) ∧ (verge p t).durationUs = fld v 13 0 ∧
        (verge p t).requested = now s ∧ t.mem = s.mem) ∧
    (100 ≤ fld v 13 0 → fld v 13 0 ≤ 10000 → portOn p s = true → (verge p s).state = .none → quietExists p s = false →
      vergeForce p s = true →
      ∃ t : State, exec (.vergeGo q v) s = .next t ∧ (verge p t).state = .active ∧ (verge p t).forced = true ∧
        (verge p t).start = now s ∧ t.mem = s.mem) ∧
    (fld v 13 0 < 100 ∨ 10000 < fld v 13 0 ∨ portOn p s = false ∨ (verge p s).state ≠ .none ∨
        (quietExists p s = false ∧ vergeForce p s = false) →
      exec (.vergeGo q v) s = .next (setCause FPA_CAUSE p 3 (bump FPA_VRG_SKIP p 31 22
        (setRg FPA_VRG_CTRL p (v &&& 0x3F3FFF) s))))) ∧
  (∀ (q : Path) (v : Word) (p : FieldPort) (s : State), winOf q FPA_VRG_CTRL s = some p.val →
    writable q FPA_VRG_CTRL p s = true → bit v 30 = true → bit v 31 = false →
    ∃ t : State, exec (.vergeAbort q v) s = .next t ∧ (verge p t).state = .none ∧
      ∀ a : Nat, a < vergeAddr p s ∨ vergeAddr p s + 1024 ≤ a → rdByte a t = rdByte a s) ∧
  (∀ (p : FieldPort) (s : State), (verge p s).state = .deferring → (verge p s).software = true →
    (quietExists p s = true → lineQuiet p s = true → sub32 (now s) (verge p s).requested ≤ deferNs p s →
      ∃ t : State, exec (.vergeWindowStart p true) s = .next t ∧ (verge p t).state = .active ∧
        (verge p t).forced = false ∧
        (verge p t).start = now s ∧ (verge p t).endNs = now s + w32 ((verge p s).durationUs * 1000) ∧ t.mem = s.mem) ∧
    (vergeForce p s = true → deferNs p s ≤ sub32 (now s) (verge p s).requested →
      ∃ t : State, exec (.vergeWindowStart p false) s = .next t ∧ (verge p t).state = .active ∧
        (verge p t).forced = true ∧ (verge p t).start = now s ∧ t.mem = s.mem) ∧
    (sub32 (now s) (verge p s).requested < deferNs p s →
      exec (.vergeWindowStart p false) s = .next s ∧ exec (.vergeSkipped p) s = .next s) ∧
    (vergeForce p s = false → deferNs p s ≤ sub32 (now s) (verge p s).requested →
      exec (.vergeSkipped p) s = .next (setCause FPA_CAUSE p 3 (bump FPA_VRG_SKIP p 21 11 (setVerge p {} s)))))) ∧
  ((∀ (p : FieldPort) (k : Nat) (value : Word) (ovr energy : Bool) (prof : List (BitVec 16)) (s : State),
    (verge p s).state = .active → (verge p s).current = some k →
    if (measureNs k : Int) ≤ diff32 (now s) (verge p s).nextNs then
      ∃ t : State, exec (.vergeMeasurementDone p value ovr energy prof) s = .next t ∧
        sget 0 k (verge p t).values = (clampResult k (scaledResult p k value s)).1 ∧ (verge p t).start = (verge p s).start ∧
        t.regs = s.regs ∧ t.mem = s.mem ∧ (∀ q : FieldPort, q ≠ p → portRun q t = portRun q s)
    else exec (.vergeMeasurementDone p value ovr energy prof) s = .next s) ∧
  (∀ (p : FieldPort) (s : State), (verge p s).state = .active →
    ((verge p s).software = true → 0 ≤ diff32 (now s) (verge p s).endNs) →
    ((verge p s).software = false → (gateRun p s).vergeFrom = none) →
    (verge p s).profile.length ≤ 256 → canReach .unit true (vergeAddr p s) 1024 s = true →
    answer (vergeAddr p s) .ok s = .ok →
    ∃ t : State, exec (.vergeWindowEnd p .ok) s = .next t ∧ (verge p t).state = .none ∧
      rgF FPA_VRG_CNT p 31 16 t = (rgF FPA_VRG_CNT p 31 16 s + 1) % 2 ^ 16 ∧
      (portRun p t).records = (portRun p s).records + 1 ∧
      ∀ a : Nat, a < vergeAddr p s ∨ vergeAddr p s + 1024 ≤ a → rdByte a t = rdByte a s) ∧
  (∀ (p : FieldPort) (ans : MemAnswer) (s : State), (verge p s).state ≠ .active ∨
    ((verge p s).software = true ∧ diff32 (now s) (verge p s).endNs < 0) → exec (.vergeWindowEnd p ans) s = .next s))

/-- R175, R176, R178: a character whose start bit holds joins the message in reception while it leaves the message
shorter than 1,496, and no memory, MAC or other port changes; the one that makes it that long ends it; a character of
zeros is a break and is not stored; one whose start bit does not hold is a glitch. A gap ends the message, and a break
that has come too. A response that does not come is counted and no longer awaited. R177, R178: a frame handed to a
serial port that may send, complete, with sending enabled and no one-step mark, leaves the port: a malformed one is
discarded and counted; a good one is counted, its characters are put on the line, a master then awaits the response that
resp_ms asks for, and a peer counts a mismatch read back. With no frame handed, or while the port may not send, nothing
happens. The model's own readings that its clauses meet: log entries 45, 46 and 167. Log entry 3 (the model's choice): a
command whose event does not hold leaves the block as it is. -/
def Obligations.SerialPortsReceiveAndSendMessages : Prop :=
  ((∀ (p : FieldPort) (bits : BitVec 12) (phase : Fin 16) (s : State), serialOn p s = true →
    (verge p s).state ≠ .active →
    (fld bits (dataBits p s + parityBits p s + stopBits p s) 0 = 0 →
      exec (.serialCharacterReceive p true bits phase) s = .next (setPortRun p { portRun p s with broken := true } s)) ∧
    (fld bits (dataBits p s + parityBits p s + stopBits p s) 0 ≠ 0 → (portRun p s).chars.length < 1495 →
      ∃ t : State, exec (.serialCharacterReceive p true bits phase) s = .next t ∧
        (portRun p t).chars = (portRun p s).chars ++ [BitVec.ofNat 8 (fld bits (dataBits p s) 1)] ∧
        t.mem = s.mem ∧ t.macs = s.macs ∧ (∀ q : FieldPort, q ≠ p → portRun q t = portRun q s)) ∧
    (fld bits (dataBits p s + parityBits p s + stopBits p s) 0 ≠ 0 → (portRun p s).chars.length = 1495 →
      ∃ t : State, exec (.serialCharacterReceive p true bits phase) s = .next t ∧ (portRun p t).chars = [] ∧
        t.mem = s.mem)) ∧
  (∀ (p : FieldPort) (bits : BitVec 12) (phase : Fin 16) (s : State),
    exec (.serialCharacterReceive p false bits phase) s = .next s) ∧
  (∀ (p : FieldPort) (s : State), serialOn p s = true → receiving p s = true →
    ∀ why ∈ (if (portRun p s).broken then [MessageEnd.gap, .lineBreak] else [.gap]),
      ∃ t : State, exec (.serialMessageEnd p why) s = .next t ∧ (portRun p t).chars = [] ∧
        (portRun p t).broken = false ∧ t.mem = s.mem) ∧
  (∀ (p : FieldPort) (why : MessageEnd) (s : State), receiving p s = false →
    exec (.serialMessageEnd p why) s = .next s) ∧
  (∀ (p : FieldPort) (s : State), serialOn p s = true → (portRun p s).response = true →
    ∃ t : State, exec (.serialResponseTimeout p) s = .next t ∧ (portRun p t).response = false ∧
      rgF FPA_SER_CNT2 p 31 24 t = (rgF FPA_SER_CNT2 p 31 24 s + 1) % 2 ^ 8 ∧ t.mem = s.mem) ∧
  (∀ (p : FieldPort) (s : State), (portRun p s).response = false → exec (.serialResponseTimeout p) s = .next s)) ∧
  ((∀ (p : FieldPort) (c : Copy) (f : JFrame) (mismatch : Bool) (s : State), handed p s = some c →
    jframe c.frame s = some f → maySend p true s = true → f.cutting = false → bit (rg MAC_CFG p s) 1 = true →
    f.oneStep = none →
    let b := outBytes p c f s
    let s1 := if bit (rg FPA_SER_CFG p s) 6 = false ∧ beAt b 20 2 ≠ 0 then
      setPortRun p { portRun p s with response := true } s else s
    let s2 := if bit (rg FPA_SER_CFG p s) 6 = true ∧ mismatch = true then bump FPA_SER_CNT2 p 15 8 s1 else s1
    exec (.serialTransmit p true mismatch) s = .next (
      if serialBad b s = true then bump FPA_SER_CNT2 p 7 0 (endHanded p s)
      else endHanded p (putLine p .serial (sentChars p b s2) (macGood 22 p (b.length + 4) (dstAddr b) s2)))) ∧
  (∀ (p : FieldPort) (idle mismatch : Bool) (s : State),
    handed p s = none ∨ (∃ (c : Copy) (f : JFrame), handed p s = some c ∧ jframe c.frame s = some f ∧
      maySend p idle s = false) → exec (.serialTransmit p idle mismatch) s = .next s))

/-- R13, R192, R194, R202, R356: what a MAC makes of a frame with a good FCS on a port that receives: of a length in its
limits, no MAC control and not filtered, it is counted and waits for Junction with its ingress timestamp, a backup frame
being only counted; a frame that the filter refuses counts in rx_filtered. A frame whose FCS is wrong, one longer than
max_len, one below 64 bytes, and every frame that the MAC discards is counted in its own counter and goes no further; on
a port that does not receive nothing happens. R199, R202, R223: on a trunk with its link up MAC_TRANSMIT_FRAME sends a
handed frame, all of whose bytes have arrived, that carries no PTP message and no one-step request and is not
preemptable: the frame with its FCS goes on the line, it is counted with its length, and it leaves the MAC. Where
transmission is disabled it is dropped and counted. With nothing handed, and with the link down, nothing happens. The
model's own readings that its clauses meet: log entries 47, 48 and 50. Log entry 3 (the model's choice): a command whose
event does not hold leaves the block as it is. -/
def Obligations.MacsTakeAndSendFrames : Prop :=
  ((∀ (p : ExtPort) (b : Bytes) (phase : Fin 16) (s : State), portReceives p s = true → discards p s = false →
    64 ≤ (withFcs b).length → (withFcs b).length ≤ maxLen p s → beAt b 12 2 ≠ 0x8808 →
    (filtered p none b s = false → isBackupFrame p b s = false →
      ∃ t : State, exec (.macReceiveFrame p (withFcs b) false phase) s = .next t ∧
        (macRun p t).rxq = (macRun p s).rxq ++ [{ bytes := b, ts := ingressStamp p phase s }] ∧
        rg MAC_CNT p t = rg MAC_CNT p s + 1 ∧
        (∀ q : ExtPort, q ≠ p → macRun q t = macRun q s) ∧ t.mem = s.mem ∧ t.lanes = s.lanes ∧ t.jct = s.jct) ∧
    (filtered p none b s = false → isBackupFrame p b s = true →
      exec (.macReceiveFrame p (withFcs b) false phase) s = .next (macGood 0 p (withFcs b).length (dstAddr b) s)) ∧
    (filtered p none b s = true → exec (.macReceiveFrame p (withFcs b) false phase) s = .next (macBump 16 p s))) ∧
  (∀ (p : ExtPort) (x : Bytes) (phase : Fin 16) (s : State), portReceives p s = true →
    (discards p s = true → exec (.macReceiveFrame p x false phase) s = .next (macBump 21 p s)) ∧
    (discards p s = false → x.length < 64 → exec (.macReceiveFrame p x false phase) s = .next (macBump 14 p s)) ∧
    (discards p s = false → 64 ≤ x.length → maxLen p s < x.length →
      exec (.macReceiveFrame p x false phase) s = .next (macBump 15 p s)) ∧
    (discards p s = false → 64 ≤ x.length → x.length ≤ maxLen p s →
      crcOf 2 (x.take (x.length - 4)) ≠ leVal (x.drop (x.length - 4)) →
      exec (.macReceiveFrame p x false phase) s = .next (macBump 12 p s))) ∧
  (∀ (p : ExtPort) (x : Bytes) (e : Bool) (phase : Fin 16) (s : State), portReceives p s = false →
    exec (.macReceiveFrame p x e phase) s = .next s)) ∧
  ((∀ (p : ExtPort) (c : Copy) (f : JFrame) (phase : Fin 16) (s : State), 128 ≤ p.val → handed p s = some c →
    jframe c.frame s = some f → linkUp p s = true →
    (bit (rg MAC_CFG p s) 1 = false → exec (.macTransmitFrame p phase 0 ⟨.ok, 0⟩) s = .next (macBump 43 p (endHanded p s))) ∧
    (bit (rg MAC_CFG p s) 1 = true → f.cutting = false → f.oneStep = none → ptpEvent f.bytes = none →
      preemptable p c.cls s = false → c.sent = 0 → c.te = none → ∀ b : Bytes, b = outBytes p c f s →
      ∃ t : State, exec (.macTransmitFrame p phase 0 ⟨.ok, 0⟩) s = .next t ∧ handed p t = none ∧
        (macRun p t).line = some { kind := .frame, bytes := withFcs b } ∧
        rg (MAC_CNT + 4 * 22) p t = rg (MAC_CNT + 4 * 22) p s + 1 ∧
        rg (MAC_CNT + 4 * 23) p t = rg (MAC_CNT + 4 * 23) p s + w32 (b.length + 4) ∧
        (∀ q : ExtPort, q ≠ p → macRun q t = macRun q s ∧ handed q t = handed q s) ∧
        t.mem = s.mem ∧ t.lanes = s.lanes ∧ t.jct.queues = s.jct.queues)) ∧
  (∀ (p : ExtPort) (phase : Fin 16) (k : Nat) (x : CellAnswer) (s : State), handed p s = none →
    exec (.macTransmitFrame p phase k x) s = .next s) ∧
  (∀ (p : ExtPort) (c : Copy) (f : JFrame) (phase : Fin 16) (k : Nat) (x : CellAnswer) (s : State), handed p s = some c →
    jframe c.frame s = some f → linkUp p s = false → exec (.macTransmitFrame p phase k x) s = .next s))

/-- R194, R195: a good PAUSE or PFC on a receiving trunk or T1L port is counted. With its enable set, a PAUSE starts the
link timer on the classes that no gate protects, and time 0 ends every pause in progress of those classes; a PFC does
the same per class it names. With its enable clear a PAUSE holds nothing; on a port without PAUSE either counts in
rx_filtered; a MAC that discards counts it in rx_dropped. The expiry of a timer ends its hold. R197: a write of
MAC_PAUSE_TX with go on a trunk or T1L port asks for one frame, the latest request standing; every other write asks for
none. When the line is free PAUSE_FRAME_SEND takes the request, counts it as PAUSE or PFC by bit 30 and puts the frame
on the line; without a request, on another port, and while the line is not free it does nothing. The model's own
readings that its clauses meet: log entries 47, 48, 141, 165 and 167. Log entry 3 (the model's choice): a command whose
event does not hold leaves the block as it is. -/
def Obligations.PausesHoldAndAreSent : Prop :=
  ((∀ (p : ExtPort) (q : BitVec 16) (s : State), portReceives p s = true → discards p s = false → pausePort p s = true →
    ∃ t : State, exec (.pauseReceive p q) s = .next t ∧
      (bit (rg MAC_PAUSE_CFG p s) 0 = true →
        (macRun p t).linkPause = (if q = 0 then none else some q) ∧
        (macRun p t).linkMask = (if q = 0 then 0 else ~~~(gateProt p s)) ∧
        (∀ c : Fin 8, sget 0 c (macRun p t).pfc =
          if q = 0 ∧ bit (gateProt p s) c = false then 0 else sget 0 c (macRun p s).pfc)) ∧
      (bit (rg MAC_PAUSE_CFG p s) 0 = false → t.macs = s.macs) ∧
      rg (MAC_CNT + 4 * 17) p t = rg (MAC_CNT + 4 * 17) p s + 1 ∧ t.mem = s.mem ∧ t.lanes = s.lanes) ∧
  (∀ (p : ExtPort) (cls : BitVec 8) (q : List (BitVec 16)) (s : State), portReceives p s = true → discards p s = false →
    pausePort p s = true → bit (rg MAC_PAUSE_CFG p s) 1 = true →
    ∃ t : State, exec (.pfcReceive p cls q) s = .next t ∧
      (∀ c : Fin 8, sget 0 c (macRun p t).pfc = if bit cls c = true ∧ bit (gateProt p s) c = false then q.getD c 0
        else sget 0 c (macRun p s).pfc) ∧ (macRun p t).linkPause = (macRun p s).linkPause ∧
      (∀ c : Fin 8, bit (macRun p t).linkMask c = (bit (macRun p s).linkMask c &&
        !(bit cls c && !bit (gateProt p s) c && decide (q.getD c 0 = 0)))) ∧
      rg (MAC_CNT + 4 * 18) p t = rg (MAC_CNT + 4 * 18) p s + 1 ∧ t.mem = s.mem ∧ t.lanes = s.lanes) ∧
  (∀ (p : ExtPort) (q : BitVec 16) (cls : BitVec 8) (qs : List (BitVec 16)) (s : State), portReceives p s = true →
    ∀ c ∈ [Instr.pauseReceive p q, .pfcReceive p cls qs],
      (discards p s = true → exec c s = .next (macBump 21 p s)) ∧
      (discards p s = false → pausePort p s = false → exec c s = .next (macBump 16 p s))) ∧
  (∀ (p : ExtPort) (c : Fin 8) (s : State),
    exec (.pauseTimerExpiry p c true) s = .next (setMacRun p { macRun p s with linkPause := none, linkMask := 0 } s) ∧
    exec (.pauseTimerExpiry p c false) s =
      .next (setMacRun p { macRun p s with pfc := sset 0 c 0 (macRun p s).pfc } s))) ∧
  ((∀ (q : Path) (v : Word) (p : Nat) (s : State), winOf q MAC_PAUSE_TX s = some p → writable q MAC_PAUSE_TX p s = true →
    ∀ c ∈ [Instr.macPauseTxPause q v, .macPauseTxPfc q v], exec c s = .next (
      if bit v 31 = true ∧ pausePort p s = true then setMacRun p { macRun p s with pauseReq := some v } s else s)) ∧
  (∀ (p : ExtPort) (w : Word) (s t : State), (macRun p s).pauseReq = some w → lineFree p s = true → pausePort p s = true →
    t = macBump (if bit w 30 then 35 else 34) p (setMacRun p { macRun p s with pauseReq := none } s) →
    exec (.pauseFrameSend p) s = .next (putLine p .frame (withFcs (controlFrame p w t)) t)) ∧
  (∀ (p : ExtPort) (s : State), (macRun p s).pauseReq = none ∨ lineFree p s = false ∨ pausePort p s = false →
    exec (.pauseFrameSend p) s = .next s))

/-- R199: on a port that can pre-empt, whose status is verifying and whose link is up, PREEMPT_VERIFY sends one of three
attempts and counts it, unless a verge window keeps the port silent; after three, verification has failed, with trunk
cause 5. An answer to an attempt makes the status active where en is 1 and verify_dis 0. Otherwise both do nothing.
R199, R200: with pre-emption active, fragments join in order into one frame, which is received when the last has joined;
a fragment with a wrong SMD, count or mCRC, or one that continues no frame, ends the frame in reassembly and is counted,
as are PCS errors in it. On a port that does not receive nothing happens. R205: outside a reset, a trunk that has a role
shows its link up with block lock and none of the three faults, a change of it raises trunk cause 0, a high bit error
rate or a link fault that appears raises cause 1 or 2, and errored blocks are counted; training and FEC show only on a
KR trunk that asks for them. An uncorrectable FEC block is counted and raises cause 4 where FEC runs, and nowhere else;
during a reset both do nothing. The model's own readings that its clauses meet: log entries 47, 49 and 167, and log
entry 140 for the bytes of the verify mPacket, which are the model's choice and no rule of the spec. Log entry 3 (the
model's choice): a command whose event does not hold leaves the block as it is. -/
def Obligations.PreemptionFragmentsAndTrunkLinksFollowTheirRules : Prop :=
  ((∀ (p : ExtPort) (s : State), canPreempt p s = true → rgF MAC_PRE_STAT p 1 0 s = 1 → linkUp p s = true →
    (rgF MAC_PRE_STAT p 3 2 s < 3 → (128 ≤ p.val ∨ (verge p s).state = .none) → exec (.preemptVerify p) s =
      .next (putLine p .verify verifyPacket (addRgF MAC_PRE_STAT p 3 2 1 s))) ∧
    (rgF MAC_PRE_STAT p 3 2 s < 3 → p.val < 128 → (verge p s).state ≠ .none → exec (.preemptVerify p) s = .next s) ∧
    (rgF MAC_PRE_STAT p 3 2 s = 3 → ∃ t : State, exec (.preemptVerify p) s = .next t ∧
      (macRun p t).verification = .failed ∧
      (bit (rg MAC_PRE_CFG p s) 0 = true → bit (rg MAC_PRE_CFG p s) 1 = false → rgF MAC_PRE_STAT p 1 0 t = 3) ∧
      (128 ≤ p.val → bit (rg TRK_CAUSE (p - 128) t) 5 = true) ∧ t.mem = s.mem ∧
      (∀ q : ExtPort, q ≠ p → macRun q t = macRun q s)) ∧
    (0 < rgF MAC_PRE_STAT p 3 2 s → ∃ t : State, exec (.verifyResponseReceive p) s = .next t ∧
      (macRun p t).verification = .succeeded ∧
      (bit (rg MAC_PRE_CFG p s) 0 = true → preActive p t = true) ∧ t.mem = s.mem ∧
      (∀ q : ExtPort, q ≠ p → macRun q t = macRun q s))) ∧
  (∀ (p : ExtPort) (s : State), canPreempt p s = false ∨ rgF MAC_PRE_STAT p 1 0 s ≠ 1 ∨ linkUp p s = false →
    exec (.preemptVerify p) s = .next s ∧ exec (.verifyResponseReceive p) s = .next s)) ∧
  ((∀ (p : ExtPort) (x : FragmentIn) (f l smd cnt crc : Bool) (s : State), portReceives p s = true → x.verify = false →
    (preActive p s = false ∨ (smd && cnt && crc) = false → exec (.fragmentReceive p x f l smd cnt crc) s =
      .next (macBump 20 p (onlyIf ((macRun p s).reassembly.any (fun r => r.symbolErr) || x.symbolErr) (macBump 13 p)
        (setMacRun p { macRun p s with reassembly := none } s))))) ∧
  (∀ (p : ExtPort) (x : FragmentIn) (s : State), portReceives p s = true → x.verify = false → preActive p s = true →
    ((macRun p s).reassembly = none →
      exec (.fragmentReceive p x true false true true true) s = .next (setMacRun p { macRun p s with
        reassembly := some (joinFragment p { bytes := [], count := 0, ts := ingressStamp p x.phase s } x s) } s)) ∧
    ((macRun p s).reassembly = none → ∀ l : Bool, exec (.fragmentReceive p x false l true true true) s =
      .next (macBump 20 p (onlyIf x.symbolErr (macBump 13 p) (setMacRun p { macRun p s with reassembly := none } s)))) ∧
    (∀ r : Reassembly, (macRun p s).reassembly = some r →
      exec (.fragmentReceive p x false false true true true) s =
        .next (setMacRun p { macRun p s with reassembly := some (joinFragment p r x s) } s) ∧
      exec (.fragmentReceive p x false true true true true) s = .next (
        receiveWhole p (r.bytes ++ x.bytes) (r.symbolErr || x.symbolErr) (joinFragment p r x s).pass r.ts
          (macAdd 19 (r.count + 1) p (setMacRun p { macRun p s with reassembly := none } s))))) ∧
  (∀ (p : ExtPort) (x : FragmentIn) (f l smd cnt crc : Bool) (s : State), portReceives p s = false →
    exec (.fragmentReceive p x f l smd cnt crc) s = .next s)) ∧
  ((∀ (t : Fin 4) (x : PcsReport) (ber lf rf : Bool) (s : State), inReset (128 + t) s = false → trunkRole t s ≠ roleUnused →
    ∃ u : State, exec (.trunkLinkChange t x ber lf rf) s = .next u ∧
      bit (rg TRK_STAT t u) 0 = (x.lock && !ber && !lf && !rf) ∧ bit (rg TRK_STAT t u) 1 = x.lock ∧
      bit (rg TRK_STAT t u) 2 = ber ∧ bit (rg TRK_STAT t u) 3 = lf ∧ bit (rg TRK_STAT t u) 4 = rf ∧
      bit (rg TRK_STAT t u) 5 = (x.trainDone && isKr t s && bit (rg TRK_CFG t s) 3) ∧
      bit (rg TRK_STAT t u) 6 = (x.fecAgreed && isKr t s && bit (rg TRK_CFG t s) 4) ∧
      rgF TRK_CNT_BLK t 31 16 u = (rgF TRK_CNT_BLK t 31 16 s + x.errored) % 2 ^ 16 ∧
      rgF TRK_CNT_BLK t 15 0 u = (rgF TRK_CNT_BLK t 15 0 s + x.ber) % 2 ^ 16 ∧
      (bit (rg TRK_STAT t s) 0 ≠ (x.lock && !ber && !lf && !rf) → bit (rg TRK_CAUSE t u) 0 = true) ∧
      (ber = true → bit (rg TRK_STAT t s) 2 = false → bit (rg TRK_CAUSE t u) 1 = true) ∧
      (lf = true → bit (rg TRK_STAT t s) 3 = false → bit (rg TRK_CAUSE t u) 2 = true) ∧
      u.mem = s.mem ∧ u.lanes = s.lanes) ∧
  (∀ (t : Fin 4) (s : State), inReset (128 + t) s = false →
    (bit (rg TRK_STAT t s) 6 = true →
      exec (.fecUncorrectableBlock t) s = .next (setCause TRK_CAUSE t 4 (bump TRK_CNT_FEC t 15 0 s))) ∧
    (bit (rg TRK_STAT t s) 6 = false → exec (.fecUncorrectableBlock t) s = .next s)) ∧
  (∀ (t : Fin 4) (x : PcsReport) (ber lf rf : Bool) (s : State), inReset (128 + t) s = true →
    exec (.trunkLinkChange t x ber lf rf) s = .next s ∧ exec (.fecUncorrectableBlock t) s = .next s))

/-- R214, R217, R218, R236: a table command with its go bit on a path whose writes are taken. READ puts the entry into
the path's data words; WRITE stores the defined bits of the data words in the entry and changes no other entry, and
moves a stream rule's version and banks; INSERT stores into the key's entry or the lowest free way of its set, and
answers no space where there is none; DELETE zeroes the key's entry, and answers not found where there is none. An index
beyond the table, an operation that the table lacks and an undefined rule are answered and change no table. Without go
only the word is stored; on a path whose writes are not taken nothing happens. Ageing removes a dynamic entry not
refreshed for age_s seconds and keeps every other. The model's own readings that its clauses meet: log entry 56, and log
entry 163 for the age in TCLK edges, which is the model's choice. Log entry 3 (the model's choice): a command whose
event does not hold leaves the block as it is. -/
def Obligations.JunctionTablesAnswerCommands : Prop :=
  (∀ (p : Path) (v : Word) (s : State), writable p JCT_TBL_CMD 0 s = true → bit v 31 = true →
    ∀ c ∈ [Instr.jctTblRead p v, .jctTblWrite p v, .jctTblInsert p v, .jctTblDelete p v],
    let e := tblOf fun k => rg (JCT_TBL_D + 4 * k) p s
    let word (table : Nat) := tblOf fun k => rg (JCT_TBL_D + 4 * k) p s &&& tblMask table k
    let answered (n : Nat) := setRg JCT_TBL_STAT p (w32 (2 * n)) (setRg JCT_TBL_CMD p (v &&& 0x7FFF0033) s)
    (fld v 5 4 = 0 → fld v 30 16 < tblSize (fld v 1 0) →
      ∃ t : State, exec c s = .next t ∧ rg JCT_TBL_STAT p t = 0 ∧
        (∀ k : Fin 8, rg (JCT_TBL_D + 4 * k) p t = tblWord (tblGet (fld v 1 0) (fld v 30 16) s) k) ∧
        t.jct = s.jct ∧ t.mem = s.mem) ∧
    (fld v 5 4 = 1 → (fld v 1 0 = 2 → ruleUndefined e = false) → fld v 30 16 < tblSize (fld v 1 0) →
      ∃ t : State, exec c s = .next t ∧ rg JCT_TBL_STAT p t = 0 ∧
        tblGet (fld v 1 0) (fld v 30 16) t = word (fld v 1 0) ∧
        (∀ j : Nat, j ≠ fld v 30 16 → tblGet (fld v 1 0) j t = tblGet (fld v 1 0) j s) ∧
        (∀ n j : Nat, n < 4 → n ≠ fld v 1 0 → tblGet n j t = tblGet n j s) ∧
        (fld v 1 0 = 2 → rg JCT_SID_PREV (fld v 30 16) t = rg JCT_SID_CUR (fld v 30 16) s ∧
          rg JCT_SID_CUR (fld v 30 16) t = 0 ∧
          rgF JCT_SID_VER (fld v 30 16) 3 0 t = (rgF JCT_SID_VER (fld v 30 16) 3 0 s + 1) % 16) ∧ t.mem = s.mem) ∧
    (fld v 5 4 = 1 → fld v 1 0 = 2 → ruleUndefined e = true → fld v 30 16 < 2048 → exec c s = .next (answered 5)) ∧
    (fld v 5 4 < 2 → tblSize (fld v 1 0) ≤ fld v 30 16 → exec c s = .next (answered 1)) ∧
    (2 ≤ fld v 5 4 → fld v 1 0 ≠ 1 → exec c s = .next (answered 4)) ∧
    (fld v 5 4 = 2 → fld v 1 0 = 1 →
      (∀ j : Nat, (macFind (macKeyVid e) (macKeyAddr e) s = some j ∨ macFind (macKeyVid e) (macKeyAddr e) s = none ∧
          macFree (macKeyVid e) (macKeyAddr e) s = some j) →
        ∃ t : State, exec c s = .next t ∧ rg JCT_TBL_STAT p t = 0 ∧ tblGet 1 j t = word 1 ∧
          (∀ i : Nat, i ≠ j → tblGet 1 i t = tblGet 1 i s) ∧ t.mem = s.mem) ∧
      (macFind (macKeyVid e) (macKeyAddr e) s = none → macFree (macKeyVid e) (macKeyAddr e) s = none →
        exec c s = .next (answered 2))) ∧
    (fld v 5 4 = 3 → fld v 1 0 = 1 →
      (∀ j : Nat, macFind (macKeyVid e) (macKeyAddr e) s = some j →
        ∃ t : State, exec c s = .next t ∧ rg JCT_TBL_STAT p t = 0 ∧ tblGet 1 j t = 0 ∧
          (∀ i : Nat, i ≠ j → tblGet 1 i t = tblGet 1 i s) ∧ t.mem = s.mem) ∧
      (macFind (macKeyVid e) (macKeyAddr e) s = none → exec c s = .next (answered 3)))) ∧
  (∀ (p : Path) (v : Word) (s : State), ∀ c ∈ [Instr.jctTblRead p v, .jctTblWrite p v, .jctTblInsert p v, .jctTblDelete p v],
    (writable p JCT_TBL_CMD 0 s = true → bit v 31 = false →
      exec c s = .next (setRg JCT_TBL_CMD p (v &&& 0x7FFF0033) s)) ∧
    (writable p JCT_TBL_CMD 0 s = false → exec c s = .next s)) ∧
  (∀ (i : Fin 32768) (s : State),
    (macValid (tblGet 1 i s) = true → macStatic (tblGet 1 i s) = false → rgF JCT_CTRL 0 31 16 s ≠ 0 →
      inReset 196 s = false → rgF JCT_CTRL 0 31 16 s * edgesPerSecond ≤ s.mp.tclk - sget 0 i s.jct.macSeen →
      ∃ t : State, exec (.macEntryAgeing i) s = .next t ∧ tblGet 1 i t = 0 ∧
        (∀ j : Nat, j ≠ i → tblGet 1 j t = tblGet 1 j s) ∧ t.regs = s.regs ∧ t.mem = s.mem) ∧
    (macValid (tblGet 1 i s) = false ∨ macStatic (tblGet 1 i s) = true ∨ rgF JCT_CTRL 0 31 16 s = 0 ∨
      inReset 196 s = true ∨ s.mp.tclk - sget 0 i s.jct.macSeen < rgF JCT_CTRL 0 31 16 s * edgesPerSecond →
      exec (.macEntryAgeing i) s = .next s))

/-- R209-R212, R216, R222, R232, R234: what becomes of a frame. The oldest frame that the port's MAC has passed is
looked up: in a reset of Junction it is discarded and counted; a trapped frame goes to its internal port in class 7; one
of a VLAN that drops, and one without a destination, is counted; one that no rule matches goes to the port of its
destination's entry. With no frame nothing happens. For a frame still arriving on a port that cannot cut through, the
stages up to 4 act and their result waits for its end, with the destinations that the tables give now (R217). A frame of
an internal port goes to the port that it names, with the one-step reference that firmware gives it (R38), and is
counted when there is none; a twin link carries no other frame than the twin unit's (R14). Admission of a frame to one
destination queues one copy and holds the frame once, or counts the refusal and stores nothing. The model's own readings
that its clauses meet: log entries 53 to 55, 57, 145 and 172. Log entry 3 (the model's choice): a command whose event
does not hold leaves the block as it is. -/
def Obligations.JunctionFramesReachTheirDestination : Prop :=
  (∀ (p : ExtPort) (x : RxFrame) (q : List RxFrame) (s : State), (macRun p s).rxq = x :: q →
    let s' := setMacRun p { macRun p s with rxq := q } s
    let a : Arrival := { port := p, bytes := x.bytes, ts := x.ts, cutting := false }
    let f : JFrame := { id := 0, bytes := x.bytes, src := p, cls := 7, ts := x.ts, arrived := now s, cells := 0, refs := 0,
                        length := x.bytes.length + 4 }
    let vid := frameVid p x.bytes s'
    let cls := frameClass p x.bytes s'
    (inReset 196 s = true → exec (.junctionLookup p none) s =
      .next (setCause JCT_CAUSE 0 10 (bump JCT_CNT_MISC 0 15 0 s'))) ∧
    (inReset 196 s = false → (128 ≤ p.val → trunkRole (p - 128) s ≠ roleTwin) →
      (∀ n : Nat, trapPort a s' = some n →
        exec (.junctionLookup p none) s = .next (admitFrame f [{ port := n, cls := 7 }] s').1) ∧
      (trapPort a s' = none → vlanDrops p vid s' = true → exec (.junctionLookup p none) s =
        .next (setCause JCT_CAUSE 0 7 (bump JCT_CNT_LOOKUP 0 31 16 s'))) ∧
      (trapPort a s' = none → vlanDrops p vid s' = false → firstRule p vid x.bytes s.jct.rules = none →
        bit (rg JCT_CTRL 0 s) 1 = false → namesBad a vid none s' = false → destSet a vid none none s' = [] →
        exec (.junctionLookup p none) s = .next (setCause JCT_CAUSE 0 7 (bump JCT_CNT_LOOKUP 0 15 0 s'))) ∧
      (∀ i n : Nat, trapPort a s' = none → vlanDrops p vid s' = false → firstRule p vid x.bytes s.jct.rules = none →
        bit (rg JCT_CTRL 0 s) 1 = false → ptpAt x.bytes = none → bit (rg JCT_P_CFG p s) 19 = false →
        bridgeDests p s' = none → isGroup (dstAddr x.bytes) = false → macFind vid (dstAddr x.bytes) s' = some i →
        macGroup (tblGet 1 i s) = false → macPort (tblGet 1 i s) = n → n ≠ p → badDest n = false →
        132 ≤ n ∨ linkUp n s = true ∧ vlanMember vid n s' = true ∧ bit (rg JCT_P_CFG n s) 23 = false ∧
          (128 ≤ n → trunkRole (n - 128) s ≠ roleTwin) →
        exec (.junctionLookup p none) s = .next (admitFrame { f with cls := cls, vid := vid, tagged := tagged x.bytes }
          [{ port := n, cls := cls }] s').1))) ∧
  (∀ (p : ExtPort) (s : State), (macRun p s).rxq = [] → exec (.junctionLookup p none) s = .next s) ∧
  (∀ (p : ExtPort) (x : HeadIn) (s : State),
    (mayLook p x.bytes s = false → exec (.junctionLookup p (some x)) s = .next s) ∧
    (mayLook p x.bytes s = true → inReset 196 s = false →
      let r := lookStart p x.bytes (ingressStamp p x.phase s) s
      let a : Arrival := { port := p, bytes := r.2.bytes, ts := r.2.ts, cutting := true }
      mayCut p r.1 = false →
      exec (.junctionLookup p (some x)) s = .next (setArriving p (some { looked :=
        if (r.2.trap.isSome || r.2.vlanDrop || r.2.eliminated) = true then r.2 else
          { r.2 with plan := some (destPlan a r.2.vid (r.2.rule.map fun q => q.2) r.2.generate r.1) } }) r.1))) ∧
  (∀ (src : Fin 68) (e : BitVec 8) (c : Fin 8) (x : FrameOut) (s : State),
    let f : JFrame := { newFrame x.bytes (132 + src) c s with oneStep := if src.val = 64 then x.reference else none }
    (inReset 196 s = true → exec (.internalFrame src e c x) s =
      .next (setCause JCT_CAUSE 0 10 (bump JCT_CNT_MISC 0 15 0 s))) ∧
    (inReset 196 s = false → e.toNat = 198 ∨ 199 < e.toNat → exec (.internalFrame src e c x) s =
      .next (setCause JCT_CAUSE 0 7 (bump JCT_CNT_MISC 0 23 16 s))) ∧
    (inReset 196 s = false → e.toNat ≠ 198 → e.toNat ≤ 199 → twinLinkOnly e.toNat f s = true →
      exec (.internalFrame src e c x) s = .next s) ∧
    (inReset 196 s = false → e.toNat ≠ 198 → e.toNat ≤ 199 → twinLinkOnly e.toNat f s = false →
      claimed (132 + src) e.toNat s = false → internalStream (132 + src) e.toNat c s = none →
      (e.toNat < 132 → bit (rg JCT_P_CFG e.toNat s) 23 = false) →
      exec (.internalFrame src e c x) s = .next (admitFrame f [{ port := e.toNat, cls := c }] s).1)) ∧
  (∀ (f : JFrame) (d : Dest) (s : State), f.stream = none → f.cutting = false → d.port < 200 → d.cls < 8 →
    (∀ g n : Nat, admitTest d.cls (cellsOf (chargedLen f d.trunc false)) f.yellow false (jqueue d.port d.cls s) s =
        some (g, n) →
      ∃ (c : Copy) (h : JFrame), (admitFrame f [d] s).2 = [d] ∧
        jqueue d.port d.cls (admitFrame f [d] s).1 = jqueue d.port d.cls s ++ [c] ∧ c.frame = s.jct.nextId ∧
        c.port = d.port ∧ c.cls = d.cls ∧ c.guar = g ∧ c.pool = n ∧ c.trunc = d.trunc ∧
        (∀ k : Nat, k ≠ d.port * 8 + d.cls →
          sget [] k (admitFrame f [d] s).1.jct.queues = sget [] k s.jct.queues) ∧
        (admitFrame f [d] s).1.jct.frames = s.jct.frames ++ [h] ∧ h.id = s.jct.nextId ∧ h.bytes = f.bytes ∧ h.refs = 1 ∧
        (admitFrame f [d] s).1.jct.nextId = s.jct.nextId + 1 ∧ (admitFrame f [d] s).1.mem = s.mem ∧
        (admitFrame f [d] s).1.lanes = s.lanes ∧ (admitFrame f [d] s).1.regs = s.regs) ∧
    (admitTest d.cls (cellsOf (chargedLen f d.trunc false)) f.yellow false (jqueue d.port d.cls s) s = none →
      admitFrame f [d] s = (setCause JCT_CAUSE2 0 d.cls (setCause JCT_CAUSE 0 (if d.mirror then 9 else 0)
        (bump JCT_Q_DROP (d.port * 8 + d.cls) 31 16 s)), [])))

/-- R192, R210, R223, R233: FRAME_LAST_BYTE ends the frame that was looked up while it arrived, and nothing else. A good
end of a held frame gives it its length; a bad one is counted as a bad cut-through frame and raises its cause. A frame
that waited whole goes on when it ends good, and ends counted when it does not. R224, R225: an over-age copy at the head
of its queue is dropped and counted; the copies of a frame whose residue time has run out are dropped and counted, as
aged when over age, and before that time none is. R227: the auditor counts a cell found free and held, and a cell found
lost on two visits, and moves to the next cell; disabled, or in a reset of Junction, it does nothing, as does the sweep
in a reset. The model's own readings that its clauses meet: log entries 52, 54 and 143. Log entry 3 (the model's
choice): a command whose event does not hold leaves the block as it is. -/
def Obligations.JunctionEndsAgesAndAuditsFrames : Prop :=
  (∀ (p : ExtPort) (x : FrameEnd) (n : Nat) (s : State), (macRun p s).arriving = none →
    exec (.frameLastByte p x n) s = .next s) ∧
  (∀ (p : ExtPort) (good : Bool) (n : Nat) (a : Arriving) (s : State), (macRun p s).arriving = some a → 64 ≤ n →
    n ≤ maxLen p s →
    (∀ (id : Nat) (f : JFrame), a.frame = some id → jframe id s = some f → f.check = none →
      ∃ t : State, exec (.frameLastByte p ⟨good, false⟩ n) s = .next t ∧ (macRun p t).arriving = none ∧
        t.mem = s.mem ∧ t.lanes = s.lanes ∧
        (good = true → f.refs ≠ 0 → (∀ c ∈ copiesOf id s, c.tag = false) →
          ∃ g : JFrame, jframe id t = some g ∧ g.length = (if f.stripped then n - 6 else n) ∧ g.cutting = false ∧
            g.bytes = f.bytes) ∧
        (good = false → rgF JCT_CNT_CT 0 15 0 t = (rgF JCT_CNT_CT 0 15 0 s + 1) % 2 ^ 16 ∧
          bit (rg JCT_CAUSE 0 t) 8 = true)) ∧
    (a.frame = none →
      exec (.frameLastByte p ⟨true, false⟩ n) s =
        .next (passArrived p a.looked (macGood 0 p n (dstAddr a.looked.bytes) (setArriving p none s))) ∧
      exec (.frameLastByte p ⟨false, false⟩ n) s =
        .next (revertPassed a.looked.recovered (giveBackEarly p a.looked n (macBump 12 p (setArriving p none s)))))) ∧
  (∀ (p c : Nat) (x : Copy) (s : State), p < 200 → c < 8 → s.jct.queues = [(p * 8 + c, [x])] → x.port = p → x.cls = c →
    inReset 196 s = false →
    (overAge x s = false → exec .ageSweep s = .next s) ∧
    (overAge x s = true → ∃ t : State, exec .ageSweep s = .next t ∧ jqueue p c t = [] ∧
      rgF JCT_Q_DROP (p * 8 + c) 15 0 t = (rgF JCT_Q_DROP (p * 8 + c) 15 0 s + 1) % 2 ^ 16 ∧
      bit (rg JCT_CAUSE 0 t) 1 = true ∧ t.mem = s.mem ∧ t.lanes = s.lanes)) ∧
  (∀ s : State, inReset 196 s = true → exec .ageSweep s = .next s) ∧
  (∀ (id : Nat) (s : State), jframe id s = none → exec (.residueExpiry id) s = .next s) ∧
  (∀ (id : Nat) (f : JFrame) (s : State), jframe id s = some f →
    (f.residueAt.any (fun t => decide (0 ≤ diff32 (now s) t)) = false → exec (.residueExpiry id) s = .next s) ∧
    (∀ c : Copy, f.residueAt.any (fun t => decide (0 ≤ diff32 (now s) t)) = true → copiesOf id s = [c] → c.port < 200 →
      c.cls < 8 → ∃ t : State, exec (.residueExpiry id) s = .next t ∧
        jqueue c.port c.cls t = (jqueue c.port c.cls s).filter (fun x => !decide (x.frame = id)) ∧
        (overAge c s = false →
          rgF JCT_Q_RESIDUE (c.port * 8 + c.cls) 31 16 t = (rgF JCT_Q_RESIDUE (c.port * 8 + c.cls) 31 16 s + 1) % 2 ^ 16 ∧
          bit (rg JCT_CAUSE 0 t) 2 = true) ∧
        (overAge c s = true →
          rgF JCT_Q_DROP (c.port * 8 + c.cls) 15 0 t = (rgF JCT_Q_DROP (c.port * 8 + c.cls) 15 0 s + 1) % 2 ^ 16 ∧
          bit (rg JCT_CAUSE 0 t) 1 = true) ∧
        t.mem = s.mem ∧ t.lanes = s.lanes)) ∧
  (∀ (busy : Bool) (s : State), bit (rg JCT_AUDIT 0 s) 0 = true → inReset 196 s = false → s.jct.auditCell < 65535 →
    (∃ t : State, exec (.auditVisit true true busy) s = .next t ∧ t.jct.auditCell = s.jct.auditCell + 1 ∧
      rgF JCT_CNT_AUDIT 0 15 0 t = (rgF JCT_CNT_AUDIT 0 15 0 s + 1) % 2 ^ 16 ∧ bit (rg JCT_CAUSE 0 t) 4 = true) ∧
    (∃ t : State, exec (.auditVisit false false false) s = .next t ∧ t.jct.auditCell = s.jct.auditCell + 1 ∧
      (s.jct.suspects.contains s.jct.auditCell = false → t.regs = s.regs ∧ s.jct.auditCell ∈ t.jct.suspects) ∧
      (s.jct.suspects.contains s.jct.auditCell = true → s.jct.auditCell ∉ t.jct.suspects ∧
        rgF JCT_CNT_AUDIT 0 31 16 t = (rgF JCT_CNT_AUDIT 0 31 16 s + 1) % 2 ^ 16 ∧ bit (rg JCT_CAUSE 0 t) 3 = true))) ∧
  (∀ (a b c : Bool) (s : State), bit (rg JCT_AUDIT 0 s) 0 = false ∨ inReset 196 s = true →
    exec (.auditVisit a b c) s = .next s)

/-- R238, R240, R255: an external port that is ready and idle, whose MAC has nothing of its own to send, hands the
eligible head of its highest strict class to its MAC, counted in its service; while a preemptable frame is on the line
and an express head is eligible it asks for a pre-emption. A port that is not ready, whose MAC has a PAUSE or PFC frame
to send, or whose schedule changes on this edge (R259), hands nothing. An idle internal port hands the head of the
highest class that it accepts, and one that holds a copy hands no other; a copy in which the buffer reports an
uncorrectable error is dropped (R228). R242, R243: a microsecond adds its rate to the credit of an enabled port shaper
that holds a copy, at most up to its burst, with the values from before a write of the same edge, and brings a negative
credit without one back to at most 0; in a reset of Turnpike no credit moves. R244: an accrual adds CIR to a Toll's C
bucket and the greater of PIR and CIR to its P bucket, at most up to their bursts, and nothing in that reset. R239: a
map command with go reads or writes the entry that it names; an entry for another port's subscriber, and an egress or
ingress port that does not exist, are refused; without go only the word is stored, and on a path whose writes are not
taken nothing happens. The model's own readings that its clauses meet: log entries 59 to 63, 124, 155 and 180. Log entry
3 (the model's choice): a command whose event does not hold leaves the block as it is. -/
def Obligations.TurnpikeServesAndShapes : Prop :=
  ((∀ (p : SwPort) (b : Copy) (f : JFrame) (s : State), p.val < 132 → scheduleDue p s = false → portReady p s = true →
    handed p s = none → (macRun p s).responseDue = false → (macRun p s).pauseReq = none →
    suspended p s = none → (∀ x ∈ portHeads p s, fitTest x s ≠ .oversize) → b ∈ portHeads p s → eligible b s = true →
    b.port = p → b.cls < 8 → bit (rg TPK_P_CFG p s) b.cls = true → overAge b s = false →
    (∀ x ∈ portHeads p s, eligible x s = true → x = b ∨ x.cls < b.cls ∨
      x.cls ≠ b.cls ∧ bit (rg TPK_P_CFG p s) x.cls = false) →
    jframe b.frame s = some f → chargeOf b f s ≤ 19136 →
    ∃ (t : State) (d : Copy), exec (.turnpikeSelect ⟨p, ⟨.ok, 0⟩⟩) s = .next t ∧ handed p t = some d ∧
      d.frame = b.frame ∧ d.cls = b.cls ∧ d.sub = b.sub ∧
      rgF TPK_S_TX (p * 8 + b.cls) 31 0 t = (rgF TPK_S_TX (p * 8 + b.cls) 31 0 s + 1) % 2 ^ 32 ∧
      (∀ r : SwPort, r ≠ p → handed r t = handed r s) ∧ t.mem = s.mem ∧ t.lanes = s.lanes) ∧
  (∀ (p : SwPort) (x : CellAnswer) (c : Copy) (s : State), p.val < 132 → scheduleDue p s = false →
    portReady p s = true → handed p s = some c →
    (macRun p s).responseDue = false → (∀ y ∈ portHeads p s, fitTest y s ≠ .oversize) →
    exec (.turnpikeSelect ⟨p, x⟩) s = .next (
      if preemptable p c.cls s = true ∧ (portHeads p s).any (fun x => express x s && eligible x s) = true
      then setPreempting p true s else s)) ∧
  (∀ (p : SwPort) (x : CellAnswer) (s : State), p.val < 132 → (macRun p s).responseDue = false →
    scheduleDue p s = true ∨ portReady p s = false ∨ handed p s = none ∧ (macRun p s).pauseReq ≠ none →
    exec (.turnpikeSelect ⟨p, x⟩) s = .next s) ∧
  (∀ (p : SwPort) (k : Fin 8) (c : Copy) (q : List Copy) (s : State), 132 ≤ p.val → p.val ≠ 196 → p.val ≠ 198 →
    handed p s = none → jqueue p k s = c :: q → internalAccepts p c s = true → overAge c s = false → c.te = none →
    (∀ (j : Fin 8) (x : Copy) (y : List Copy), k < j → jqueue p j s = x :: y → internalAccepts p x s = false) →
    exec (.turnpikeSelect ⟨p, ⟨.ok, 0⟩⟩) s = .next (setHanded p (some c) (takeCopy c s)) ∧
    exec (.turnpikeSelect ⟨p, ⟨.uncorrectable, 0⟩⟩) s = .next (bufferEcc p 0 c (setHanded p (some c) (takeCopy c s)))) ∧
  (∀ (p : SwPort) (x : CellAnswer) (s : State), p.val = 198 ∨ p.val = 196 ∧ x.ans = .ok ∨
    132 ≤ p.val ∧ p.val ≠ 196 ∧ handed p s ≠ none → exec (.turnpikeSelect ⟨p, x⟩) s = .next s)) ∧
  ((∀ (p : ExtPort) (s : State), State.wf s = true → inReset 197 s = false →
    ∃ t : State, exec .shaperAccrual s = .next t ∧ sget 0 p t.tpk.portCredit =
      (if bit (rg TPK_P_CFG p s) 8 = false ∨ bit (rgHeld TPK_P_CFG p s) 8 = false then sget 0 p s.tpk.portCredit
       else if portHolds p (fun _ => true) s = true then
        min (min (sget 0 p s.tpk.portCredit + (rgHeld TPK_P_RATE p s).toNat) (rgHeldF TPK_P_BURST p 23 0 s * 2 ^ 20))
          (rgF TPK_P_BURST p 23 0 s * 2 ^ 20)
       else if sget 0 p s.tpk.portCredit < 0 then min (sget 0 p s.tpk.portCredit + (rgHeld TPK_P_RATE p s).toNat) 0
       else sget 0 p s.tpk.portCredit) ∧ t.mem = s.mem ∧ t.jct = s.jct ∧ t.lanes = s.lanes) ∧
  (∀ s : State, inReset 197 s = true → ∃ t : State, exec .shaperAccrual s = .next t ∧ t.tpk = s.tpk ∧ t.mem = s.mem ∧
    t.jct = s.jct ∧ t.lanes = s.lanes) ∧
  (∀ (i : Fin 4096) (s : State), State.wf s = true → inReset 197 s = false →
    rg TPK_TOLL_CIR i s ≠ 0 ∨ rg TPK_TOLL_PIR i s ≠ 0 →
    ∃ t : State, exec .tollAccrual s = .next t ∧
      tollC i t = min (tollC i s + (rg TPK_TOLL_CIR i s).toNat) (tollCap TPK_TOLL_CBS i s) ∧
      tollP i t = min (tollP i s + max (rg TPK_TOLL_PIR i s).toNat (rg TPK_TOLL_CIR i s).toNat)
        (tollCap TPK_TOLL_PBS i s) ∧ t.regs = s.regs ∧ t.mem = s.mem ∧ t.jct = s.jct) ∧
  (∀ s : State, inReset 197 s = true → exec .tollAccrual s = .next s) ∧
  (∀ (q : Path) (v : Word) (s : State), writable q TPK_MAP_CMD 0 s = true → bit v 31 = true →
    ∀ c ∈ [Instr.tpkMapRead q v, .tpkMapWrite q v],
    (fld v 23 16 < 132 → fld v 7 0 < 200 →
      (bit v 30 = false → ∃ t : State, exec c s = .next t ∧ rg TPK_MAP_STAT q t = 0 ∧
        (let x := sget 0 (fld v 23 16 * 200 + fld v 7 0) s.tpk.map
         rg TPK_MAP_DATA q t = w32 (fld x 12 12 * 2 ^ 31 + fld x 11 0)) ∧ t.tpk = s.tpk ∧ t.mem = s.mem) ∧
      (bit v 30 = true → let d := rg TPK_MAP_DATA q s
        ∃ t : State, exec c s = .next t ∧ t.mem = s.mem ∧
          (bit d 31 = false ∨ rgF TPK_SUB_CFG (fld d 11 0) 7 0 s = fld v 23 16 → rg TPK_MAP_STAT q t = 0 ∧
            t.tpk.map = sset 0 (fld v 23 16 * 200 + fld v 7 0) (BitVec.ofNat 13 (fld d 31 31 * 4096 + fld d 11 0))
              s.tpk.map) ∧
          (bit d 31 = true → rgF TPK_SUB_CFG (fld d 11 0) 7 0 s ≠ fld v 23 16 → rg TPK_MAP_STAT q t = 4 ∧
            t.tpk = s.tpk ∧ bit (rg TPK_CAUSE 0 t) 7 = true))) ∧
    (132 ≤ fld v 23 16 ∨ 200 ≤ fld v 7 0 → exec c s =
      .next (setRg TPK_MAP_STAT q 2 (setRg TPK_MAP_CMD q (v &&& 0x40FF00FF) s)))) ∧
  (∀ (q : Path) (v : Word) (s : State), ∀ c ∈ [Instr.tpkMapRead q v, .tpkMapWrite q v],
    (writable q TPK_MAP_CMD 0 s = true → bit v 31 = false →
      exec c s = .next (setRg TPK_MAP_CMD q (v &&& 0x40FF00FF) s)) ∧
    (writable q TPK_MAP_CMD 0 s = false → exec c s = .next s)))

/-- R246-R251, R259: with no switch-over due, a clock list whose boundary has been reached starts its next entry now, as
does a road list once its road has reached the boundary and min_ns has passed; reached earlier, the entry is stretched
and counted. A step that a milestone asks of a stepped list waits for the next edge; it, a deferred step and the
automatic step of a stepped list start the next entry once their time has come, the last counted. None of them does
before or while a switch-over is due, and memory changes only in the record of a verge window that ends. A commit of a
list without form or of a good stepped list is set 2,000 ns ahead, where TPK_GCL_SWITCH shows it (R263); a bad list, and
any while a switch-over is pending, is refused and counted. A cancel clears what is pending unless it is due; a
switch-over that is due brings the admin copy into force at its entry 0, and one that is not does nothing. The model's
own readings that its clauses meet: log entries 63 and 64. Log entry 3 (the model's choice): a command whose event does
not hold leaves the block as it is. -/
def Obligations.GateListsStartEntriesAndSwitchOver : Prop :=
  (∀ (p : ExtPort) (ans : MemAnswer) (s : State), switchDue p s = true ∨ (gateRun p s).oper.form = formNone ∨
    (gateRun p s).oper.form = formStepped → exec (.gateEntryStart p ans) s = .next s) ∧
  (∀ (p : ExtPort) (ans : MemAnswer) (s : State), (gateRun p s).oper.form = formClock → switchDue p s = false →
    (diff64 (nowX s) (gateRun p s).clockEnd < 0 → exec (.gateEntryStart p ans) s = .next s) ∧
    (0 ≤ diff64 (nowX s) (gateRun p s).clockEnd →
      entryKind ((gateRun p s).oper.entry (nextEntry (gateRun p s)).1) = 0 →
      ∃ t : State, exec (.gateEntryStart p ans) s = .next t ∧ (gateRun p t).entry = (nextEntry (gateRun p s)).1 ∧
        (gateRun p t).start = nowX s ∧ (gateRun p t).oper = (gateRun p s).oper ∧ t.jct = s.jct ∧
        ((verge p s).state = .none → t.mem = s.mem) ∧ (∀ r : ExtPort, r ≠ p → gateRun r t = gateRun r s))) ∧
  (∀ (p : ExtPort) (ans : MemAnswer) (s : State), (gateRun p s).oper.form = formRoad → (gateRun p s).fallback = false →
    switchDue p s = false → (gateRun p s).stretched = false →
    let reached := dist48 (endPosition (gateRun p s)) (road (gateRun p s).oper.road s).pub
    (reached < 0 → exec (.gateEntryStart p ans) s = .next s) ∧
    (0 ≤ reached → minPassed (gateRun p s) s = false → exec (.gateEntryStart p ans) s =
      .next (setCause TPK_CAUSE 0 2 (bump TPK_P_CNT p 31 16 (setGateRun p { gateRun p s with stretched := true } s)))) ∧
    (0 ≤ reached → minPassed (gateRun p s) s = true →
      entryKind ((gateRun p s).oper.entry (nextEntry (gateRun p s)).1) = 0 →
      ∃ t : State, exec (.gateEntryStart p ans) s = .next t ∧ (gateRun p t).entry = (nextEntry (gateRun p s)).1 ∧
        (gateRun p t).start = nowX s ∧ (gateRun p t).oper = (gateRun p s).oper ∧ t.jct = s.jct ∧
        ((verge p s).state = .none → t.mem = s.mem) ∧ (∀ r : ExtPort, r ≠ p → gateRun r t = gateRun r s))) ∧
  (∀ (p : ExtPort) (ans : MemAnswer) (s : State), (gateRun p s).oper.form = formStepped →
    let n := if (gateRun p s).oper.entries.length ≤ (gateRun p s).entry + 1 then 0 else (gateRun p s).entry + 1
    entryKind ((gateRun p s).oper.entry n) = 0 → switchDue p s = false →
    (∀ x : MemAnswer, (gateRun p s).stepDue = some x → (gateRun p s).switchPos = none →
      minPassed (gateRun p s) s = true → (gateRun p (takeDueStep p s)).entry = n ∧
        (gateRun p (takeDueStep p s)).start = nowX s ∧ (gateRun p (takeDueStep p s)).stepDue = none) ∧
    ((gateRun p s).stepDeferred = true → minPassed (gateRun p s) s = true →
      ∃ t : State, exec (.gateStepDeferred p ans) s = .next t ∧ (gateRun p t).entry = n ∧ (gateRun p t).start = nowX s ∧
        (gateRun p t).stepDeferred = false ∧ ((verge p s).state = .none → t.mem = s.mem) ∧ t.jct = s.jct) ∧
    (∀ b : Word, (gateRun p s).vergeFrom = some b → entryKind ((gateRun p s).oper.entry (gateRun p s).entry) = 1 →
      10000000 ≤ sub32 (now s) b → ∃ t : State, exec (.vergeAutostep p ans) s = .next t ∧ (gateRun p t).entry = n ∧
        (gateRun p t).start = nowX s ∧ rgF TPK_P_CNT p 7 0 t = (rgF TPK_P_CNT p 7 0 s + 1) % 2 ^ 8 ∧
        bit (rg TPK_CAUSE 0 t) 5 = true ∧ t.jct = s.jct ∧
        ∀ a : Nat, a < vergeAddr p s ∨ vergeAddr p s + 1024 ≤ a → rdByte a t = rdByte a s)) ∧
  (∀ (p : ExtPort) (ans : MemAnswer) (s : State),
    ((gateRun p s).oper.form = formStepped → p.val ≤ 131 → inReset 197 s = false → (gateRun p s).stepDeferred = false →
      (gateRun p s).stepDue = none →
      gateStep p ans s = setGateRun p { gateRun p s with stepDue := some ans } s) ∧
    ((gateRun p s).oper.form ≠ formStepped ∨ (gateRun p s).stepDeferred = false ∨ minPassed (gateRun p s) s = false ∨
      switchDue p s = true → exec (.gateStepDeferred p ans) s = .next s) ∧
    ((gateRun p s).oper.form ≠ formStepped ∨ (gateRun p s).vergeFrom = none ∨ switchDue p s = true →
      exec (.vergeAutostep p ans) s = .next s) ∧
    (∀ b : Word, (gateRun p s).vergeFrom = some b → sub32 (now s) b < 10000000 →
      exec (.vergeAutostep p ans) s = .next s)) ∧
  (∀ (q : Path) (v : Word) (p : ExtPort) (s : State), winOf q TPK_GCL_COMMIT s = some p.val →
    writable q TPK_GCL_COMMIT p s = true →
    let bad := gateListBad (gclForm p s) (gclCount p s) (rg TPK_GCL_FALLBACK p s).toNat (gclMin p s) (gclCycle p s).toNat
      (decide (128 ≤ p.val)) (adminList p s).entries
    (bit v 0 = true → bit v 1 = false → gatePending p s = true ∨ bad = true → exec (.tpkGclCommitGo q v) s =
      .next (setCause TPK_CAUSE 0 4 (bump TPK_P_CNT p 15 8 s))) ∧
    (bit v 0 = true → bit v 1 = false → gatePending p s = false → bad = false →
      gclForm p s = formNone ∨ gclForm p s = formStepped →
      let t := setGateRun p { gateRun p s with switchNs := some (now s + 2000) } s
      exec (.tpkGclCommitGo q v) s = .next t ∧ switchTime p t = now s + 2000) ∧
    (bit v 0 = false → bit v 1 = true → exec (.tpkGclCommitCancel q v) s = .next (
      if switchDue p s = true then s
      else setGateRun p { gateRun p s with switchNs := none, switchPos := none } s))) ∧
  (∀ (p : ExtPort) (ans : MemAnswer) (s : State),
    (switchDue p s = false → exec (.gateSwitchOver p ans) s = .next s) ∧
    (switchDue p s = true → gclForm p s = formNone ∨ entryKind ((adminList p s).entry 0) = 0 →
      ∃ t : State, exec (.gateSwitchOver p ans) s = .next t ∧ (gateRun p t).oper = adminList p s ∧
        (gateRun p t).entry = 0 ∧ (gateRun p t).start = nowX s ∧ gatePending p t = false ∧
        rg TPK_GCL_SWITCH p t = now s ∧ ((verge p s).state = .none → t.mem = s.mem) ∧ t.jct = s.jct))

/-- R271, R272: a recovery timeout of a stream in order takes any frame next, counted with its cause; a latent period
that passed more frames than its limit and the duplicates it discarded is counted with its cause, and begins anew in
either case; in a reset, with recovery or the test off, or without a time, neither does anything. R269: a stream that
takes any frame passes one and holds its sequence number, and a duplicate of a number that its history holds is
discarded and counted. R279, R281, R282: a trigger read that cannot reach its data counts an error; one that can ends,
without an alive counter, in a verdict of its CRC, counted as a pass or as a mismatch; without a trigger read nothing
happens. The model's own readings that its clauses meet: log entries 13, 58 and 65. Log entry 3 (the model's choice): a
command whose event does not hold leaves the block as it is. -/
def Obligations.RecoveryAndCheckUnitsDecide : Prop :=
  (∀ (n : Fin 1024) (s : State),
    (inReset 198 s = false → recEn n s = true → rgF FRE_STR_REC n 31 16 s ≠ 0 →
      exec (.recoveryResetTimeout n) s = .next (if bit (rg FRE_STR_STAT n s) 16 = true then s
        else setCause FRE_CAUSE 0 2 (bump FRE_CNT_MISC n 31 16 (setRgF FRE_STR_STAT n 16 16 1 s)))) ∧
    (inReset 198 s = true ∨ recEn n s = false ∨ rgF FRE_STR_REC n 31 16 s = 0 →
      exec (.recoveryResetTimeout n) s = .next s)) ∧
  (∀ (n : Fin 1024) (s : State),
    (inReset 198 s = false → bit (rg FRE_STR_CFG n s) 26 = true → rgF FRE_STR_LAT n 31 16 s ≠ 0 →
      let s' := { s with freP := serase n s.freP, freD := serase n s.freD }
      exec (.latentPeriodEnd n) s = .next (if rgF FRE_STR_LAT n 15 0 s + sget 0 n s.freD < sget 0 n s.freP
        then setCause FRE_CAUSE 0 1 (bump FRE_CNT_MISC2 n 31 16 s') else s')) ∧
    (inReset 198 s = true ∨ bit (rg FRE_STR_CFG n s) 26 = false ∨ rgF FRE_STR_LAT n 31 16 s = 0 →
      exec (.latentPeriodEnd n) s = .next s)) ∧
  (∀ (n : Fin 1024) (q : BitVec 16) (s : State),
    (bit (rg FRE_STR_STAT n s) 16 = true → (recoverySeq n q s).2 = true ∧
      rg FRE_STR_STAT n (recoverySeq n q s).1 = w32 q.toNat ∧
      rgF FRE_CNT_PASS n 31 0 (recoverySeq n q s).1 = (rgF FRE_CNT_PASS n 31 0 s + 1) % 2 ^ 32) ∧
    (bit (rg FRE_STR_STAT n s) 16 = false → bit (rg FRE_STR_CFG n s) 26 = false →
      q.toNat = rgF FRE_STR_STAT n 15 0 s → bit (recHist n s) 0 = true →
      recoverySeq n q s = (bump FRE_CNT_DISC n 31 0 s, false))) ∧
  (∀ (c : Fin 256) (ans : MemAnswer) (s : State),
    (bit (rg CHK_CTX_STAT c s) 30 = false → exec (.checkTriggerVerdict c ans) s = .next s) ∧
    (bit (rg CHK_CTX_STAT c s) 30 = true →
      let a := base40 CHK_CTX_ADDR_LO CHK_CTX_ADDR_HI c s
      let d := rdBytes a (chkNeed c s) s
      let w := crcBytes (chkPoly c s)
      (canReach .unit true a (chkNeed c s) s = false → exec (.checkTriggerVerdict c ans) s =
        .next (setCause CHK_CTX_CAUSE c 4 (bump CHK_CTX_CNT_FAIL c 7 0 (setRgF CHK_CTX_STAT c 30 30 0 s)))) ∧
      (canReach .unit true a (chkNeed c s) s = true → answer a .ok s = .ok → chkAlive c s = false →
        ∃ t : State, exec (.checkTriggerVerdict c .ok) s = .next t ∧ bit (rg CHK_CTX_STAT c t) 30 = false ∧
          t.mem = s.mem ∧ t.lanes = s.lanes ∧ t.jct = s.jct ∧
          (if crcOf (chkPoly c s) (slice d (covOff c s) (covLen c s)) =
              (if chkConst c s then (rg CHK_CTX_CONST c s).toNat % 2 ^ (8 * w) else beAt d (chkOff c s) w) then
            rgF CHK_CTX_STAT c 17 16 t = 0 ∧
              rgF CHK_CTX_CNT_PASS c 31 0 t = (rgF CHK_CTX_CNT_PASS c 31 0 s + 1) % 2 ^ 32
          else rgF CHK_CTX_STAT c 17 16 t = 1 ∧ bit (rg CHK_CTX_CAUSE c t) 0 = true ∧
              rgF CHK_CTX_CNT_FAIL c 31 16 t = (rgF CHK_CTX_CNT_FAIL c 31 16 s + 1) % 2 ^ 16))))

/-- R290-R292, R302, R305, R306: a doorbell of a queue that is not enabled is counted, and one in a reset, or a further
one of a queue on one edge, does nothing; one of a running queue reads ccons, and prod when the queue is not processing,
or stops the queue with error 5 or 1 where the block cannot be reached or prod is impossible. Enabling reads the four
indices and runs the queue, or stops it with error 1 at an impossible prod. An invalidation discards the prefetched
entries of its range and reports the next index. A poll of a full completion ring reads ccons, and one of a ring with
room does nothing. A running queue with nothing left shuts down at once, one whose prod is impossible stops with error
1, and a disabled one stays as it is. Register writes act where the path's writes are taken. The model's own readings
that its clauses meet: log entries 66 to 68, 70, 71, 124 and 151. Log entry 3 (the model's choice): a command whose
event does not hold leaves the block as it is. -/
def Obligations.QueuesFollowTheirIndices : Prop :=
  (∀ (q : Fin 1024) (ans : MemAnswer) (s : State), inReset 205 s = false →
    let s' := { s with rungEdge := edgeNow s, rungQueues := rungOn (edgeNow s) s ++ [q.val] }
    ((rungOn (edgeNow s) s).contains q.val = true → exec (.qmgDoorbell q ans) s = .next s) ∧
    ((rungOn (edgeNow s) s).contains q.val = false → qState q s ≠ qRunning → qState q s ≠ qHolding →
      exec (.qmgDoorbell q ans) s = .next (bump QMG_CNT_DB 0 15 0 s')) ∧
    ((rungOn (edgeNow s) s).contains q.val = false → qState q s = qRunning → qProcessing q s = false →
      canReach .unit true (qIndex q s) 64 s = false →
      exec (.qmgDoorbell q ans) s = .next (ringFault q 5 (queueRun q s).next s') ∧
      qState q (ringFault q 5 (queueRun q s).next s') = qError) ∧
    ((rungOn (edgeNow s) s).contains q.val = false → qState q s = qRunning →
      canReach .unit true (qIndex q s) 64 s = true → answer (qIndex q s) .ok s = .ok →
      let p := rdWord (qIndex q s) s
      let c := rdWord (qIndex q s + 12) s
      (qProcessing q s = false → qSize q s < (p - (queueRun q s).cons).toNat →
        exec (.qmgDoorbell q .ok) s = .next (qStop q 1 p s')) ∧
      (qProcessing q s = false → (p - (queueRun q s).cons).toNat ≤ qSize q s →
        ((queueRun q s).cprod - c).toNat ≤ qCsize q s → (queueRun q s).holding = [] →
        ∃ t : State, exec (.qmgDoorbell q .ok) s = .next t ∧ (queueRun q t).prod = p ∧
          (queueRun q t).ccons = c ∧ qState q t = qRunning ∧ (queueRun q t).next = (queueRun q s).next ∧
          t.mem = s.mem ∧ t.regs = s.regs ∧ (∀ r : Fin 1024, r ≠ q → queueRun r t = queueRun r s)) ∧
      (qProcessing q s = true → ((queueRun q s).prod - (queueRun q s).cons).toNat ≤ qSize q s →
        ((queueRun q s).cprod - c).toNat ≤ qCsize q s → (queueRun q s).holding = [] →
        ∃ t : State, exec (.qmgDoorbell q .ok) s = .next t ∧ (queueRun q t).prod = (queueRun q s).prod ∧
          (queueRun q t).ccons = c ∧ (queueRun q t).ringAgain = true ∧ qState q t = qRunning ∧
          (queueRun q t).next = (queueRun q s).next ∧ t.mem = s.mem ∧ t.regs = s.regs ∧
          (∀ r : Fin 1024, r ≠ q → queueRun r t = queueRun r s)))) ∧
  (∀ (q : Fin 1024) (ans : MemAnswer) (x : QueueAnswers) (s : State), inReset 205 s = true →
    exec (.qmgDoorbell q ans) s = .next s ∧ exec (.cringPoll q x) s = .next s ∧
    exec (.queueShutdown q x) s = .next s) ∧
  (∀ (path : Path) (v : Word) (q : Fin 1024) (s : State), winOf path QMG_Q_CFG s = some q.val →
    writable path QMG_Q_CFG q s = true → bit (rg QMG_Q_CFG q s) 31 = false → bit v 31 = true → qState q s ≠ qShutting →
    canReach .unit true (qIndex q s) 64 s = true → answer (qIndex q s) .ok s = .ok →
    let n := (rdWord (qIndex q s) s - rdWord (qIndex q s + 4) s).toNat
    (n ≤ ringSize (fld v 14 10) →
      (rdWord (qIndex q s + 8) s - rdWord (qIndex q s + 12) s).toNat ≤ ringSize (fld v 19 15) →
      ∃ t : State, exec (.queueEnable path v .ok) s = .next t ∧ qState q t = qRunning ∧
        bit (rg QMG_Q_CFG q t) 31 = true ∧ (queueRun q t).prod = rdWord (qIndex q s) s ∧
        (queueRun q t).next = rdWord (qIndex q s + 4) s ∧ (queueRun q t).cprod = rdWord (qIndex q s + 8) s ∧
        (queueRun q t).ccons = rdWord (qIndex q s + 12) s ∧ t.mem = s.mem ∧
        (∀ r : Fin 1024, r ≠ q → queueRun r t = queueRun r s)) ∧
    (ringSize (fld v 14 10) < n → ∃ t : State, exec (.queueEnable path v .ok) s = .next t ∧ qState q t = qError ∧
      rgF QMG_Q_STAT q 18 16 t = 1 ∧ t.mem = s.mem)) ∧
  (∀ (path : Path) (v : Word) (ans : MemAnswer) (s : State),
    (∀ q : Nat, winOf path QMG_Q_CFG s = some q → writable path QMG_Q_CFG q s = false) →
    exec (.queueEnable path v ans) s = .next s) ∧
  (∀ (path : Path) (v : Word) (s : State),
    (writable path QMG_INVAL 0 s = true → bit v 31 = true →
      let q := fld v 9 0
      let n := if fld v 26 10 = 0 then 65536 else fld v 26 10
      ∃ t : State, exec (.qmgInvalGo path v) s = .next t ∧ rg QMG_INVAL_STAT path t = (queueRun q s).next ∧
        rg QMG_INVAL_DONE path t = 1 ∧ t.mem = s.mem ∧
        ∀ i : Word, sget [] i.toNat (queueRun q t).prefetch =
          if sub32 i (rg QMG_INVAL_FIRST path s) < n then [] else sget [] i.toNat (queueRun q s).prefetch) ∧
    (writable path QMG_INVAL 0 s = true → bit v 31 = false →
      exec (.qmgInvalGo path v) s = .next (setRg QMG_INVAL path (v &&& 0x07FFFFFF) s)) ∧
    (writable path QMG_INVAL 0 s = false → exec (.qmgInvalGo path v) s = .next s)) ∧
  (∀ (q : Fin 1024) (s : State), inReset 205 s = false →
    (cringFull q s = false → (queueRun q s).holding = [] → ∀ x : QueueAnswers, exec (.cringPoll q x) s = .next s) ∧
    (cringFull q s = true → (queueRun q s).holding = [] → qState q s = qRunning → (queueRun q s).mute = false →
      answer (qIndex q s) .ok s = .ok →
      let c := rdWord (qIndex q s + 12) s
      exec (.cringPoll q {}) s = .next (if qCsize q s < ((queueRun q s).cprod - c).toNat then qStop q 1 c s
        else setQueueRun q { queueRun q s with ccons := c } s))) ∧
  (∀ (q : Fin 1024) (s : State), inReset 205 s = false →
    (qState q s = qDisabled → ∀ x : QueueAnswers, exec (.queueShutdown q x) s = .next s) ∧
    (qState q s = qRunning → canReach .unit true (qIndex q s) 64 s = true → answer (qIndex q s) .ok s = .ok →
      let n := (rdWord (qIndex q s) s - (queueRun q s).cons).toNat
      (qSize q s < n → ∃ t : State, exec (.queueShutdown q {}) s = .next t ∧ qState q t = qError ∧
        rgF QMG_Q_STAT q 18 16 t = 1 ∧ t.mem = s.mem) ∧
      (n ≤ qSize q s → (queueRun q s).dispatch = [] → (queueRun q s).failed = none → (queueRun q s).busy = false →
        (queueRun q s).holding = [] → (queueRun q s).batch = 0 → rdWord (qIndex q s) s = (queueRun q s).next →
        ∃ t : State, exec (.queueShutdown q {}) s = .next t ∧ qState q t = qDisabled ∧
          bit (rg QMG_Q_CFG q t) 31 = false ∧ t.mem = s.mem)))

/-- R293-R304, R307: an entry is begun in its queue's turn, out of reset, with room for its completion; out of turn
nothing happens, and a full completion ring sets its cause. A good transmit entry offers its frame, with its one-step
request, to the port that it names, a good lane-job entry starts its job, or in step mode becomes an input, and a good
host-work entry reads or writes its register, and each completes with its outcome; a malformed one stops its queue with
the code of the test that it fails. A frame that waits, with none of a higher class before it, fills a posted buffer and
is gone. An outcome is one completion of 32 bytes at its ring slot. The model's own readings that its clauses meet: log
entries 67 to 71, 88, 120, 172 and 189. Log entry 3 (the model's choice): a command whose event does not hold leaves the
block as it is. -/
def Obligations.QueueEntriesAreCarriedOut : Prop :=
  (∀ (q : Fin 1024) (s : State), entryReady q 0 s = true →
    let e := qEntry q s
    let s' := wrrCharge q 1 s
    (∀ k : Nat, k < 8 → transmitPieces e [] s' = .error k → ∃ t : State, exec (.transmitEntry q {}) s = .next t ∧
      qState q t = qError ∧ rgF QMG_Q_STAT q 18 16 t = k ∧ rg QMG_QERR q t = (queueRun q s).next) ∧
    (∀ ps : List (Nat × Nat), transmitPieces e [] s' = .ok ps → (∀ p ∈ ps, answer p.1 .ok s = .ok) →
      let r := internalOffer (transmitFrame e ps s') (leAt e 10 1) s'
      exec (.transmitEntry q {}) s = .next (if r.2 = true then finishEntry q {} 0 0 e r.1
        else finishEntry q {} 5 0 e (setCause QMG_Q_CAUSE q 4 (bump QMG_Q_CNT_DROP q 15 0 r.1))))) ∧
  (∀ (q : Fin 1024) (s : State), entryReady q 2 s = true →
    let e := qEntry q s
    let s' := wrrCharge q 1 s
    let r := startEntryJob e (now s) s'
    let x := captureInput inputJob e (qAdvance q s')
    (stepMode s = false → jobEntryError e = 0 →
      exec (.laneJobEntry q {}) s = .next (if r.2.1 = true then finishEntry q {} 0 r.2.2 e r.1
        else finishEntry q {} 5 0 e (setCause QMG_Q_CAUSE q 4 (bump QMG_Q_CNT_DROP q 15 0 r.1)))) ∧
    (stepMode s = true → jobEntryError e = 0 → exec (.laneJobEntry q {}) s = .next (setQueueRun q { queueRun q x with
      dispatch := (queueRun q x).dispatch ++ [(s'.twn.inputSeq, e)] } x)) ∧
    (∀ k : Nat, jobEntryError e = k → k ≠ 0 → ∃ t : State, exec (.laneJobEntry q {}) s = .next t ∧
      qState q t = qError ∧ rgF QMG_Q_STAT q 18 16 t = k ∧ rg QMG_QERR q t = (queueRun q s).next)) ∧
  (∀ (q : Fin 1024) (s : State), entryReady q 3 s = true →
    let e := qEntry q s
    let path := 4 + rgF QMG_Q_CFG q 9 8 s
    let s' := wrrCharge q 1 s
    let u := setQueueRun q { queueRun q s' with busy := true } s'
    (hostWorkError e = 0 → leAt e 10 1 = 1 → exec (.hostWorkEntry q {}) s = .next (
      if accessError path true (leAt e 0 5) 4 s' = true then finishEntry q {} 6 0 e s'
      else afterBatch path (endHostWork q {} 0 e (regWrite path (leAt e 0 5 - regBase) (w32 (leAt e 12 4)) u)))) ∧
    (hostWorkError e = 0 → leAt e 10 1 = 0 →
      let r := regRead path (leAt e 0 5 - regBase) u
      exec (.hostWorkEntry q {}) s = .next (if accessError path false (leAt e 0 5) 4 s' = true then finishEntry q {} 6 0 e s'
        else endHostWork q {} r.2.toNat e r.1)) ∧
    (∀ k : Nat, hostWorkError e = k → k ≠ 0 → ∃ t : State, exec (.hostWorkEntry q {}) s = .next t ∧
      qState q t = qError ∧ rgF QMG_Q_STAT q 18 16 t = k ∧ rg QMG_QERR q t = (queueRun q s).next)) ∧
  (∀ (q : Fin 1024) (x : QueueAnswers) (s : State), ∀ c ∈ [(Instr.transmitEntry q x, 0), (.laneJobEntry q x, 2),
      (.hostWorkEntry q x, 3)],
    (beginEntry q c.2 s = false → cringFull q s = false → (queueRun q s).holding = [] → exec c.1 s = .next s) ∧
    (inReset 205 s = true ∨ qKind q s ≠ c.2 ∨ qState q s ≠ qRunning → exec c.1 s = .next s) ∧
    (inReset 205 s = false → qKind q s = c.2 → qState q s = qRunning → (queueRun q s).prod ≠ (queueRun q s).next →
      cringFull q s = true → exec c.1 s = .next (setCause QMG_Q_CAUSE q 2 s))) ∧
  (∀ (q : Fin 1024) (c : Fin 8) (x : Copy) (f : JFrame) (s : State), jqueue 196 c s = [x] →
    (∀ k : Fin 8, c < k → jqueue 196 k s = []) → overAge x s = false →
    x.port = 196 → x.cls = c → x.trunc = 0 → jframe x.frame s = some f → f.cutting = false → receiveQueue c s = some q.val →
    inReset 205 s = false → qState q s = qRunning → (queueRun q s).prod ≠ (queueRun q s).next → cringFull q s = false →
    (queueRun q s).holding = [] → wrrTurn s = some q.val → entryError q .ok s = 0 →
    let e := qEntry q s
    let z := qIndex q s + 4
    let y := qCslot q (queueRun q s).cprod s
    postingError q e s = 0 → answer (leAt e 0 5) .ok s = .ok → f.bytes ≠ [] → f.bytes.length ≤ leAt e 8 2 →
    ∃ t : State, exec (.receiveFrameWrite c {}) s = .next t ∧ jqueue 196 c t = [] ∧
      (queueRun q t).next = (queueRun q s).next + 1 ∧
      rgF QMG_Q_CNT q 31 0 t = (rgF QMG_Q_CNT q 31 0 s + 1) % 2 ^ 32 ∧ t.lanes = s.lanes ∧
      (∀ b : Nat, (b < leAt e 0 5 ∨ leAt e 0 5 + f.bytes.length ≤ b) → (b < y ∨ y + 32 ≤ b) → (b < z ∨ z + 8 ≤ b) →
        rdByte b t = rdByte b s)) ∧
  (∀ (q : Fin 1024) (st v : Nat) (e : Bytes) (s : State), e.length = 32 → bit (rg QMG_Q_CFG q s) 29 = false →
    (queueRun q s).batch = 0 → cringFull q s = false → (queueRun q s).holding = [] → (queueRun q s).ringAgain = false →
    (queueRun q s).mute = false →
    let z := qIndex q s + 4
    let y := qCslot q (queueRun q s).cprod s
    let t := finishEntry q {} st v e s
    ringError y 32 .ok s = 0 → ringError (qIndex q s) 64 .ok s = 0 → (y + 32 ≤ z ∨ z + 8 ≤ y) →
    rdBytes y 32 t = completionBytes (queueRun q s).next 1 st v 0 0 0 (slice e 16 8) (now s) ∧
      (queueRun q t).cprod = (queueRun q s).cprod + 1 ∧ (queueRun q t).next = (queueRun q s).next + 1 ∧
      rdWord z t = (queueRun q s).next + 1 ∧ rdWord (z + 4) t = (queueRun q s).cprod + 1 ∧
      (∀ b : Nat, (b < y ∨ y + 32 ≤ b) → (b < z ∨ z + 8 ≤ b) → rdByte b t = rdByte b s))

/-- R311-R314, R316-R318: outside a reset a DMA channel starts under its tests, in their order, a zero count completing
at once and several starts on one edge being one, and its arming is set and cleared; in a reset none of these acts. A
completed transfer leaves in memory what it moves and nothing else: without fixed addresses or reshuffle the destination
holds the bytes that the source held at the start. One that meets a memory error has written the bytes before it; each
ends the channel's work. An idle channel does neither, and one whose memory gives no answer does not complete. The
model's own readings that its clauses meet: log entries 70, 72, 152 and 183. Log entry 3 (the model's choice): a command
whose event does not hold leaves the block as it is. -/
def Obligations.DmaChannelsTestStartAndMoveBytes : Prop :=
  (∀ (c : Fin 72) (s : State), inReset 204 s = false →
    let held := if dmaSrcFixed c s = true ∨ dmaDstFixed c s = true then [] else rdBytes (dmaSrc c s) (dmaCount c s) s
    let apart := dmaDst c s + dmaCount c s ≤ dmaSrc c s ∨ dmaSrc c s + dmaCount c s ≤ dmaDst c s
    let once (b : Bool) (t : State) : State := { t with dmaEdge := sset (0, false) c (edgeNow s, b) t.dmaEdge }
    exec (.dmaArm c) s = .next (setRgF DMA_STAT c 1 1 1 s) ∧ exec (.dmaDisarm c) s = .next (setRgF DMA_STAT c 1 1 0 s) ∧
    ((sget (0, false) c s.dmaEdge).1 = edgeNow s → exec (.dmaStart c) s = .next s) ∧
    ((sget (0, false) c s.dmaEdge).1 ≠ edgeNow s → dmaBusy c s = true ∨ bit (rg DMA_MODE c s) 6 = true ∧
        dmaArmed c s = false →
      exec (.dmaStart c) s = .next (once false (setCause DMA_CAUSE c 0 (bump DMA_CNT c 15 0 s)))) ∧
    ((sget (0, false) c s.dmaEdge).1 ≠ edgeNow s → dmaBusy c s = false → bit (rg DMA_MODE c s) 6 = false ∨
        dmaArmed c s = true →
      (dmaCount c s = 0 → exec (.dmaStart c) s =
        .next (once true (pulseSource (.dma c) (bump DMA_CNT c 31 16 (setRgF DMA_STAT c 1 1 0 s))))) ∧
      (dmaCount c s ≠ 0 → dmaConfigBad c s = true →
        exec (.dmaStart c) s = .next (once false (setCause DMA_CAUSE c 1 s))) ∧
      (dmaCount c s ≠ 0 → dmaConfigBad c s = false →
        dmaRangeOk (dmaSrc c s) (dmaCount c s) s = false ∨ dmaRangeOk (dmaDst c s) (dmaCount c s) s = false →
        exec (.dmaStart c) s = .next (once false (setCause DMA_CAUSE c 2 s))) ∧
      (dmaCount c s ≠ 0 → dmaConfigBad c s = false → dmaRangeOk (dmaSrc c s) (dmaCount c s) s = true →
        dmaRangeOk (dmaDst c s) (dmaCount c s) s = true →
        (dmaShuffle c s ≠ 0 → ¬ apart → exec (.dmaStart c) s = .next (once false (setCause DMA_CAUSE c 3 s))) ∧
        (dmaShuffle c s = 0 ∨ apart → exec (.dmaStart c) s = .next (once true
          (setRg DMA_STAT c (w32 (dmaCount c s * 256 + 1)) { s with dmaHeld := sset [] c held s.dmaHeld })))))) ∧
  (∀ (c : Fin 72) (s : State), inReset 204 s = true → exec (.dmaStart c) s = .next s ∧ exec (.dmaArm c) s = .next s ∧
    exec (.dmaDisarm c) s = .next s) ∧
  (∀ (c : Fin 72) (s : State), dmaBusy c s = true →
    (dmaAnswers c s = true → ∃ t : State, exec (.dmaComplete c) s = .next t ∧ dmaBusy c t = false ∧
      t.mem = (dmaMove c (dmaCount c s) s).mem ∧
      rgF DMA_CNT c 31 16 t = (rgF DMA_CNT c 31 16 s + 1) % 2 ^ 16 ∧ t.lanes = s.lanes ∧ t.jct = s.jct ∧
      (dmaSrcFixed c s = false → dmaDstFixed c s = false → dmaShuffle c s = 0 →
        (sget [] c s.dmaHeld).length = dmaCount c s →
        rdBytes (dmaDst c s) (dmaCount c s) t = sget [] c s.dmaHeld ∧
        ∀ a : Nat, a < dmaDst c s ∨ dmaDst c s + dmaCount c s ≤ a → rdByte a t = rdByte a s)) ∧
    (dmaAnswers c s = false → exec (.dmaComplete c) s = .next s) ∧
    (∀ n : Nat, n ≤ dmaCount c s → ∃ t : State, exec (.dmaMemFault c n) s = .next t ∧ dmaBusy c t = false ∧
      t.mem = (dmaMove c n s).mem ∧ rgF DMA_STAT c 31 8 t = dmaCount c s - n ∧ bit (rg DMA_CAUSE c t) 4 = true ∧
      t.pulses = s.pulses ∧ t.lanes = s.lanes ∧
      (dmaSrcFixed c s = false → dmaDstFixed c s = false → dmaShuffle c s = 0 →
        (sget [] c s.dmaHeld).length = dmaCount c s →
        rdBytes (dmaDst c s) n t = (sget [] c s.dmaHeld).take n ∧
        ∀ a : Nat, a < dmaDst c s ∨ dmaDst c s + n ≤ a → rdByte a t = rdByte a s))) ∧
  (∀ (c : Fin 72) (n : Nat) (s : State), dmaBusy c s = false →
    exec (.dmaComplete c) s = .next s ∧ exec (.dmaMemFault c n) s = .next s)

/-- R65, R136, R285, R325: a cause bit of a road, a district or a check context that goes from 0 to 1 raises its source,
which lies in the group that the rule names; a bit that is 1 already raises nothing. -/
def Obligations.CauseBitsRaiseTheirFaultSources : Prop :=
  (∀ (n : Fin 64) (b : Fin 32) (s : State), (1344 + n.val) / 32 = (if n.val < 32 then 42 else 43) ∧
    (bit (rg ROA_CAUSE n s) b = false → bit (rg ROA_CAUSE n (setCause ROA_CAUSE n b s)) b = true ∧
      srcSticky (1344 + n) (setCause ROA_CAUSE n b s) = true) ∧
    (bit (rg ROA_CAUSE n s) b = true → setCause ROA_CAUSE n b s = s)) ∧
  (∀ (d : District) (k : Fin 4) (s : State), 18 ≤ (576 + 4 * d.val + k.val) / 32 ∧ (576 + 4 * d.val + k.val) / 32 ≤ 25 ∧
    (bit (rg LNC_DST_CAUSE d s) k = false → bit (rg LNC_DST_CAUSE d (setCause LNC_DST_CAUSE d k s)) k = true ∧
      srcSticky (576 + 4 * d + k) (setCause LNC_DST_CAUSE d k s) = true) ∧
    (bit (rg LNC_DST_CAUSE d s) k = true → setCause LNC_DST_CAUSE d k s = s)) ∧
  (∀ (c : Fin 256) (b : Fin 32) (s : State), 34 ≤ (1088 + c.val) / 32 ∧ (1088 + c.val) / 32 ≤ 41 ∧
    (bit (rg CHK_CTX_CAUSE c s) b = false → bit (rg CHK_CTX_CAUSE c (setCause CHK_CTX_CAUSE c b s)) b = true ∧
      srcSticky (1088 + c) (setCause CHK_CTX_CAUSE c b s) = true) ∧
    (bit (rg CHK_CTX_CAUSE c s) b = true → setCause CHK_CTX_CAUSE c b s = s))

/-- R326-R328, R332, R333, R335: a force bit that rises makes its source sticky and, unmasked, a forced occurrence,
which stands among those of its edge in ascending source number; with an occurrence of the source on that edge it is
one, marked forced. The occurrence at the head of the queue is served and counted in its class: without actions nothing
else happens, and with safe outputs alone, without safe frames to send, SAFE_n is low. A release of SAFE_n takes effect
once no source keeps it and the block runs, and is counted before. Bits written to FLT_ISO end their isolation, and
every 100 ms each session may receive one more event frame, up to 16. A write on a path whose writes are not taken, one
that changes no force bit, and serving an empty queue do nothing more. The model's own readings that its clauses meet:
log entries 9, 73, 74, 124 and 156. Log entry 3 (the model's choice): a command whose event does not hold leaves the
block as it is. -/
def Obligations.FaultsAreForcedServedAndReleased : Prop :=
  (∀ (p : Path) (g : Fin 64) (b : Fin 32) (s : State), winOf p FLT_G_FORCE s = some g.val →
    writable p FLT_G_FORCE g s = true → rg FLT_G_FORCE g s = 0 → s.flt.queue.length < 256 →
    let src := 32 * g.val + b.val
    let o : Occurrence := { src := src, cls := srcClass src s, time := now s, forced := true, count := s.flt.occ + 1,
                            epoch := BitVec.ofNat 16 (rgF JNL_EPOCH 0 15 0 s), edge := edgeNow s }
    ∃ t : State, exec (.fltGForceWrite p (BitVec.ofNat 32 (2 ^ b.val))) s = .next t ∧
      rg FLT_G_FORCE g t = BitVec.ofNat 32 (2 ^ b.val) ∧
      ((edgeOccurred s).contains src = false → srcSticky src t = true ∧
        t.flt.queue = if srcMasked src s = true then s.flt.queue else queueOccurrence s.flt.begun o s.flt.queue) ∧
      ((edgeOccurred s).contains src = true → t.flt.queue = s.flt.queue.map fun x =>
        if x.src = src ∧ x.edge = edgeNow s then { x with forced := true } else x) ∧
      t.mem = s.mem ∧ t.lanes = s.lanes) ∧
  (∀ (p : Path) (g : Fin 64) (v : Word) (s : State), winOf p FLT_G_FORCE s = some g.val →
    (writable p FLT_G_FORCE g s = true → v &&& ~~~(rg FLT_G_FORCE g s) = 0 →
      exec (.fltGForceWrite p v) s = .next (setRg FLT_G_FORCE g v (noteHeld FLT_G_FORCE g s))) ∧
    (writable p FLT_G_FORCE g s = false → exec (.fltGForceWrite p v) s = .next s)) ∧
  (∀ (o : Occurrence) (q : List Occurrence) (ans : MemAnswer) (s : State), s.flt.queue = o :: q → o.cls < 16 →
    s.flt.begun = false → s.flt.noted = [] →
    (rg FLT_CLS_ACT o.cls s = 0 → exec (.reactionServe ans) s =
      .next { bump FLT_CLS_CNT o.cls 31 16 s with flt := { s.flt with queue := q } }) ∧
    (rg FLT_CLS_ACT o.cls s = 1 → rgF FLT_SAFE_CTRL 0 0 0 s = 1 ∨ rgF FLT_SAFE_CFG 0 19 16 s = 0 → ∃ t : State, exec (.reactionServe ans) s = .next t ∧
      t.flt.safeLow = true ∧ t.flt.queue = q ∧ rgF FLT_SAFE_CTRL 0 0 0 t = 1 ∧
      rgF FLT_CLS_CNT o.cls 31 16 t = (rgF FLT_CLS_CNT o.cls 31 16 s + 1) % 2 ^ 16 ∧ t.mem = s.mem ∧
      t.lanes = s.lanes ∧ t.jct = s.jct)) ∧
  (∀ (ans : MemAnswer) (s : State), s.flt.queue = [] → exec (.reactionServe ans) s = .next s) ∧
  (∀ (p : Path) (v : Word) (s : State),
    (writable p FLT_SAFE_CTRL 0 s = true → bit v 31 = true → exec (.fltSafeRelease p v) s = .next (
      if safePending s = true ∨ s.sys.phase ≠ .running then bump FLT_SAFE_CTRL 0 15 8 s
      else setRgF FLT_SAFE_CTRL 0 0 0 0 { s with flt := { s.flt with safeLow := false } })) ∧
    (writable p FLT_SAFE_CTRL 0 s = false ∨ bit v 31 = false → exec (.fltSafeRelease p v) s = .next s)) ∧
  (∀ (p : Path) (i : Fin 5) (v : Word) (s : State), writable p (FLT_ISO + 4 * i) 0 s = true →
    ∃ t : State, exec (.fltIsoClear p i v) s = .next t ∧
      (∀ b : Fin 32, bit (rg (FLT_ISO + 4 * i) 0 t) b = (bit (rg (FLT_ISO + 4 * i) 0 s) b && !bit v b)) ∧
      t.mem = s.mem ∧ t.flt = s.flt ∧ t.lanes = s.lanes) ∧
  (∀ (p : Path) (i : Fin 5) (v : Word) (s : State), writable p (FLT_ISO + 4 * i) 0 s = false →
    exec (.fltIsoClear p i v) s = .next s) ∧
  (∀ s : State, ∃ t : State, exec .eventBudgetTick s = .next t ∧
    (∀ n : Fin 4, sget 16 n t.flt.budget = min 16 (sget 16 n s.flt.budget + 1)) ∧ t.regs = s.regs ∧ t.mem = s.mem ∧
    t.flt.queue = s.flt.queue)

/-- R338, R340, R342: the oldest record of the intake, an alarm where none of its origin is held and no summary waits,
is written at the next slot of its class where that is free, and nothing else of memory changes; a pending overflow
summary is written once a slot of the alarm region is free. R345, R343: a millisecond adds to the credits of a path with
nothing to drain, enabled or not, at most up to one full payload; the end of its frame frees the path, and before that
nothing happens. R347: an acknowledgement index is taken when it does not pass the write index, and counted as an error
when it does; a message of the drain receiver is such an index. In a reset of function 207 records, summaries and
credits wait, and a message is dropped. The model's own readings that its clauses meet: log entries 75 to 77, 153 and
170. Log entry 3 (the model's choice): a command whose event does not hold leaves the block as it is. -/
def Obligations.TheJournalWritesDrainsAndAcknowledges : Prop :=
  (∀ (r : JRecord) (q : List JRecord) (s : State), s.jnl.intake = r :: q → inReset 207 s = false → r.cls < 3 →
    (r.cls = 0 → s.jnl.summaries = [] ∧ sget none (originIndex r) s.jnl.newest = none) → r.body.length = 48 →
    let w := jnlWr r.cls s
    let a := jnlAddr r.cls w s
    jnlCap r.cls s ≠ 0 → canReach .unit true a 64 s = true → answer a .ok s = .ok → ringFull r.cls s = false →
    ∃ t : State, exec (.journalRecordWrite .ok) s = .next t ∧ rdBytes a 64 t = recordBytes r w ∧
      rg JNL_C_WR r.cls t = w + 1 ∧ rgF JNL_C_CNT r.cls 31 0 t = (rgF JNL_C_CNT r.cls 31 0 s + 1) % 2 ^ 32 ∧
      t.jnl.intake = q ∧ (∀ b : Nat, b < a ∨ a + 64 ≤ b → rdByte b t = rdByte b s) ∧ t.lanes = s.lanes) ∧
  (∀ (ans : MemAnswer) (s : State), (inReset 207 s = true ∨ s.jnl.intake = [] → exec (.journalRecordWrite ans) s = .next s) ∧
    (inReset 207 s = true ∨ s.jnl.summaries = [] ∨ alarmFull s = true → exec (.alarmSummaryWrite ans) s = .next s)) ∧
  (∀ s : State, inReset 207 s = true → exec .journalCreditStep s = .next s) ∧
  (∀ (o : Nat) (x : AlarmRun) (s : State), s.jnl.summaries = [(o, some x)] → inReset 207 s = false →
    ringFull 0 s = false → jnlCap 0 s ≠ 0 →
    let a := jnlAddr 0 (jnlWr 0 s) s
    canReach .unit true a 64 s = true → answer a .ok s = .ok →
    ∃ t : State, exec (.alarmSummaryWrite .ok) s = .next t ∧ t.jnl.summaries = [] ∧ rg JNL_C_WR 0 t = jnlWr 0 s + 1 ∧
      rgF JNL_CNT_ALM 0 15 8 t = (rgF JNL_CNT_ALM 0 15 8 s + 1) % 2 ^ 8 ∧
      (∀ b : Nat, b < a ∨ a + 64 ≤ b → rdByte b t = rdByte b s) ∧ t.lanes = s.lanes) ∧
  (∀ (p : Fin 4) (s : State), inReset 207 s = false →
    (∀ c : Fin 3, pathDrains p c s = false ∨ untaken p c s = 0) →
    ∃ t : State, exec .journalCreditStep s = .next t ∧
      (drainPath p t).alarmMilli = min (fullPayload p s * 1000)
        ((drainPath p s).alarmMilli + rgF JNL_P_BUDGET p 23 0 s * pathShare p s / 16) ∧
      (drainPath p t).generalMilli = min (fullPayload p s * 1000)
        ((drainPath p s).generalMilli + rgF JNL_P_BUDGET p 23 0 s * (16 - pathShare p s) / 16) ∧ t.mem = s.mem) ∧
  (∀ (p : Fin 4) (s : State),
    ((drainPath p s).sending = true → s.jct.frames.any (fun f => f.drain = some p.val) = false →
      (∀ c : Fin 3, pathDrains p c s = false ∨ untaken p c s = 0) →
      exec (.journalDrainFrameEnd p) s = .next (setDrainPath p { drainPath p s with sending := false } s)) ∧
    ((drainPath p s).sending = false ∨ s.jct.frames.any (fun f => f.drain = some p.val) = true →
      exec (.journalDrainFrameEnd p) s = .next s)) ∧
  (∀ (p : Path) (v : Word) (s : State),
    (writable p JNL_ALM_ACK 0 s = true → exec (.jnlAlmAckWrite p v) s = .next (
      if (v - rg JNL_ALM_ACK 0 s).toNat ≤ (rg JNL_C_WR 0 s - rg JNL_ALM_ACK 0 s).toNat then setRg JNL_ALM_ACK 0 v s
      else setCause JNL_CAUSE 0 4 (bump JNL_CNT_ALM 0 7 0 s))) ∧
    (writable p JNL_ALM_ACK 0 s = false → exec (.jnlAlmAckWrite p v) s = .next s)) ∧
  (∀ (c : Copy) (f : JFrame) (s : State), handed 197 s = some c → jframe c.frame s = some f → f.cutting = false →
    let off := if f.src < 128 then 24 else 14
    (inReset 207 s = false → off + 8 ≤ f.bytes.length →
      exec .journalAckFrame s = .next (if beAt f.bytes off 1 = 2
        then takeAck (w32 (beAt f.bytes (off + 4) 4)) (endHanded 197 s) else endHanded 197 s)) ∧
    (inReset 207 s = true → exec .journalAckFrame s = .next (endHanded 197 s))) ∧
  (∀ s : State, handed 197 s = none → exec .journalAckFrame s = .next s)

/-- R353, R354, R356, R363, R365-R368, R371: how a unit of a twin pair changes its state. In pairing it sends hellos,
refuses a peer of its own rank or of another image, and pairs with a peer in pairing under an epoch above both; alone it
becomes active. A heartbeat is noted on its path, and the loss of both paths makes a standby unit active. A claim echo
that names a higher claim eight times in a row isolates an active unit, unless it took over on that edge, and its own
claim ends the run. A unit that is no such state, and one without the twin function, does none of it. The model's own
readings that its clauses meet: log entries 78 to 80, 84, 92 and 187. Log entry 3 (the model's choice): a command whose
event does not hold leaves the block as it is. -/
def Obligations.TwinUnitsPairBeatTakeOverAndYield : Prop :=
  (∀ s : State, twinOn s = true →
    (s.twn.state = .pairing → exec .twinHelloTimer s = .next (twinSend 1 0 0 (beBytes 4 (rgF TWN_EPOCH 0 23 0 s)
      ++ [1, 0, 0, 0] ++ beBytes 8 (imageIdentity s).toNat) s)) ∧
    (s.twn.state = .active → exec .twinHelloTimer s = .next s) ∧
    (∀ (r : BitVec 8) (e : BitVec 24) (i : BitVec 64), s.twn.state = .pairing →
      (r.toNat = twinRank s ∨ i ≠ imageIdentity s → ∃ t : State, exec (.twinHelloReceive r e 1 i) s = .next t ∧
        t.twn.state = .refused ∧ rgF TWN_STAT 0 2 0 t = 5 ∧ bit (rg TWN_CAUSE 0 t) 0 = true ∧ t.mem = s.mem) ∧
      (r.toNat ≠ twinRank s → i = imageIdentity s → s.twn.paired = false → stepMode s = false →
        max (rgF TWN_EPOCH 0 23 0 s) e.toNat < 0xFFFFFF →
        ∃ t : State, exec (.twinHelloReceive r e 1 i) s = .next t ∧
          t.twn.state = (if twinRank s = 2 then .active else .standby) ∧
          rgF TWN_EPOCH 0 23 0 t = max (rgF TWN_EPOCH 0 23 0 s) e.toNat + 1 ∧ t.mem = s.mem ∧ t.lanes = s.lanes)) ∧
    (s.twn.state = .pairing → s.twn.paired = false → rgF TWN_EPOCH 0 23 0 s < 0xFFFFFF →
      ∃ t : State, exec .soloWaitExpiry s = .next t ∧ t.twn.state = .active ∧ t.twn.alone = true ∧
        rgF TWN_EPOCH 0 23 0 t = rgF TWN_EPOCH 0 23 0 s + 1 ∧ t.mem = s.mem ∧ t.lanes = s.lanes) ∧
    (∃ t : State, exec .heartbeatTimer s = .next t ∧ t.twn.state = s.twn.state ∧ t.twn.heardLink = false ∧
      t.twn.missLink = (if s.twn.heardLink = true then 0 else s.twn.missLink + 1) ∧ t.mem = s.mem ∧ t.lanes = s.lanes) ∧
    (∀ (b : Bool) (r : BitVec 8) (e : BitVec 24) (c n : Word), s.twn.state = .standby → linkHb s = true →
      ∃ t : State, exec (.heartbeatReceive b r e 2 c n) s = .next t ∧ t.twn.state = .standby ∧ t.twn.peerEpoch = e ∧
        t.twn.peerClaim = c ∧ t.twn.peerStep = n.toNat ∧ t.twn.heardLink = (!b || s.twn.heardLink) ∧ t.twn.heardBackup = (b || s.twn.heardBackup) ∧
        rgF TWN_STAT 0 17 15 t = 2 ∧ t.mem = s.mem ∧ t.lanes = s.lanes) ∧
    (s.twn.state = .standby → linkHb s = true → backupHb s = false → max 1 (rgF TWN_STAT 0 31 24 s) ≤ s.twn.missLink →
      max (rgF TWN_EPOCH 0 23 0 s) s.twn.peerEpoch.toNat < 0xFFFFFF →
      ∃ t : State, exec (.heartbeatLoss false) s = .next t ∧ t.twn.state = .active ∧ t.twn.alone = true ∧
        rgF TWN_EPOCH 0 23 0 t = max (rgF TWN_EPOCH 0 23 0 s) s.twn.peerEpoch.toNat + 1 ∧
        bit (rg TWN_CAUSE 0 t) 2 = true ∧ t.mem = s.mem ∧ t.lanes = s.lanes) ∧
    (linkHb s = false ∨ s.twn.missLink < max 1 (rgF TWN_STAT 0 31 24 s) → exec (.heartbeatLoss false) s = .next s) ∧
    (backupHb s = false ∨ s.twn.missBackup < max 1 (rgF TWN_STAT 0 31 24 s) → exec (.heartbeatLoss true) s = .next s) ∧
    (∀ y : Bytes, s.twn.state ≠ .active ∨ w32 (beAt y 0 4) < claimNumber s → exec (.claimEcho y) s = .next s) ∧
    (∀ y : Bytes, s.twn.state = .active →
      (w32 (beAt y 0 4) = claimNumber s → exec (.claimEcho y) s = .next (setRgF TWN_STAT 0 23 20 0 s)) ∧
      (claimNumber s < w32 (beAt y 0 4) → rgF TWN_STAT 0 23 20 s < 7 →
        exec (.claimEcho y) s = .next (setRgF TWN_STAT 0 23 20 (rgF TWN_STAT 0 23 20 s + 1) s)) ∧
      (claimNumber s < w32 (beAt y 0 4) → 7 ≤ rgF TWN_STAT 0 23 20 s → s.twn.tookOver = some s.mp.tclk →
        exec (.claimEcho y) s = .next (setRgF TWN_STAT 0 23 20 0 s)) ∧
      (claimNumber s < w32 (beAt y 0 4) → 7 ≤ rgF TWN_STAT 0 23 20 s → s.twn.tookOver ≠ some s.mp.tclk →
        ∃ t : State, exec (.claimEcho y) s = .next t ∧ t.twn.state = .isolated ∧ bit (rg TWN_CAUSE 0 t) 3 = true ∧
          t.mem = s.mem))) ∧
  (∀ s : State, twinOn s = true → s.twn.state ≠ .pairing → exec .soloWaitExpiry s = .next s) ∧
  (∀ (r k : BitVec 8) (e : BitVec 24) (i : BitVec 64) (x y n q : Word) (b : Bool) (d : Bytes) (s : State),
    twinOn s = false → ∀ c ∈ [Instr.twinHelloTimer, .soloWaitExpiry, .heartbeatTimer, .boundaryMarkerEmit,
      .closeSend, .rejoinAuto, .rejoinCopyDone, .twinHelloReceive r e k i, .heartbeatReceive b r e k x y, .heartbeatLoss b,
      .claimEcho d, .twinInputReceive k r n q d, .resendRequest x y], exec c s = .next s)

/-- R357-R359, R366, R370: an active unit in step mode emits the marker after its last one, a step after it; a new input
of the peer is held, and one already held is not held again; a close gives the number of the unit's own inputs of its
step; asked for inputs, a unit sends each that it holds again, in order, with its step, number, kind and bytes, and a
standby that does not hold what it is asked for isolates itself. A valid output group echoes to a sender of the last
window. An isolated unit that is told to rejoin, or may do so by itself, resets its lanes and roads; the copy sends its
frames one by one, and its end makes that unit standby at the step copied. Outside step mode no marker and no close
leaves, a unit that is not isolated does not rejoin, and without the claim function no group echoes. The model's own
readings that its clauses meet: log entries 57, 78, 80 to 84, 88, 99 and 187, and log entry 163 for the claim window in
TCLK edges, which is the model's choice. Log entry 3 (the model's choice): a command whose event does not hold leaves
the block as it is. -/
def Obligations.TwinUnitsMergeInputsEchoAndRejoin : Prop :=
  (∀ s : State, twinOn s = true → stepMode s = true →
    (s.twn.state = .active → s.twn.paired = false → s.twn.noBoundary = false →
      ∃ t : State, exec .boundaryMarkerEmit s = .next t ∧ t.twn.lastMarker = s.twn.lastMarker + 1 ∧
        t.twn.lastTb = s.twn.lastTb + w32 (stepNs s) ∧
        t.twn.markers = s.twn.markers ++ [(s.twn.lastMarker + 1, s.twn.lastTb + w32 (stepNs s))] ∧
        t.mem = s.mem ∧ t.lanes = s.lanes) ∧
    (∀ n : Nat, closeDue s = some n → ∃ t : State, exec .closeSend s = .next t ∧
      sget none n t.twn.ownClose = some (s.twn.inputs.filter fun x => x.step = n ∧ x.rank = twinRank s).length ∧
      t.twn.inputs = s.twn.inputs ∧ t.mem = s.mem ∧ t.lanes = s.lanes) ∧
    (closeDue s = none → exec .closeSend s = .next s)) ∧
  (∀ s : State, stepMode s = false → exec .boundaryMarkerEmit s = .next s ∧ exec .closeSend s = .next s) ∧
  (∀ (r : BitVec 8) (n q : Word) (k : Byte) (b : Bytes) (s : State), twinOn s = true →
    s.twn.inputs.any (fun y => decide (y.rank = r.toNat ∧ y.seq = q)) = false →
    ∃ t : State, exec (.twinInputReceive 4 r n q ([k, 0, 0, 0] ++ b)) s = .next t ∧
      t.twn.inputs = s.twn.inputs ++ [{ step := n.toNat, rank := r.toNat, seq := q, kind := k.toNat, body := b }] ∧
      rgF TWN_CNT_IN 0 15 0 t = (rgF TWN_CNT_IN 0 15 0 s + 1) % 2 ^ 16 ∧ t.mem = s.mem ∧ t.lanes = s.lanes) ∧
  (∀ (r : BitVec 8) (n q : Word) (b : Bytes) (s : State), twinOn s = true →
    s.twn.inputs.any (fun y => decide (y.rank = r.toNat ∧ y.seq = q)) = true →
    exec (.twinInputReceive 4 r n q b) s = .next s) ∧
  (∀ (r : BitVec 8) (n q : Word) (b : Bytes) (s : State), twinOn s = true →
    exec (.twinInputReceive 9 r n q b) s = .next (bump TWN_CNT_HB 0 7 0 s)) ∧
  (∀ (first count : Word) (s : State), twinOn s = true →
    let found := s.twn.resend.filter fun x => decide ((x.seq - first).toNat < count.toNat)
    s.twn.state ≠ .standby ∨ count.toNat ≤ found.length →
    ∃ t : State, exec (.resendRequest first count) s = .next t ∧
      t = found.foldl (fun u x => twinSend 4 x.step x.seq.toNat (beBytes 1 x.kind ++ [0, 0, 0] ++ x.body) u) s ∧
      t.twn = s.twn ∧ t.mem = s.mem ∧ t.lanes = s.lanes) ∧
  (∀ (first count : Word) (s : State), twinOn s = true → s.twn.state = .standby → count ≠ 0 →
    s.twn.resend.filter (fun x => decide ((x.seq - first).toNat < count.toNat)) = [] →
    ∃ t : State, exec (.resendRequest first count) s = .next t ∧ t.twn.state = .isolated ∧
      bit (rg TWN_CAUSE 0 t) 5 = true ∧ t.mem = s.mem ∧ t.lanes = s.lanes) ∧
  (∀ (first count : Word) (s : State), s.twn.state ≠ .standby →
    s.twn.resend.filter (fun x => decide ((x.seq - first).toNat < count.toNat)) = [] →
    exec (.resendRequest first count) s = .next s) ∧
  (∀ (g : Fin 16) (x : Sender) (s : State), bit (rg TWN_CFG 0 s) 29 = true → inReset 208 s = false →
    (∀ h : Fin 16, bit (rg TWN_OS_STAT h s) 31 = decide (h = g)) → (outGroup g s).senders = [x] →
    s.mp.tclk - x.edge ≤ claimWindowEdges s →
    exec .outputStageEchoTimer s = .next (wpSendAssocPort assocEcho wpClaimEcho x.port x.addr (echoPayload g s) s)) ∧
  (∀ s : State, bit (rg TWN_CFG 0 s) 29 = false ∨ inReset 208 s = true → exec .outputStageEchoTimer s = .next s) ∧
  (∀ (p : Path) (v : Word) (s : State), s.twn.state ≠ .isolated ∨ writable p TWN_CTRL 0 s = false →
    exec (.twnCtrlRejoin p v) s = .next s) ∧
  (∀ s : State, s.twn.state ≠ .isolated ∨ bit (rg TWN_CFG 0 s) 28 = false ∨ s.twn.linkSeen < 100 →
    exec .rejoinAuto s = .next s) ∧
  (∀ s : State, s.twn.state = .isolated →
    (∀ (p : Path) (v : Word), writable p TWN_CTRL 0 s = true → bit v 0 = true →
      ∃ t : State, exec (.twnCtrlRejoin p v) s = .next t ∧ t.twn.state = .rejoining ∧ inReset 200 t = true ∧
        (∀ d : District, inReset (132 + d) t = true) ∧ t.twn.inputs = [] ∧ t.mem = s.mem) ∧
    (twinOn s = true → bit (rg TWN_CFG 0 s) 28 = true → 100 ≤ s.twn.linkSeen → rgF TWN_CAUSE 0 5 3 s = 0 →
      ∃ t : State, exec .rejoinAuto s = .next t ∧ t.twn.state = .rejoining ∧ inReset 200 t = true ∧
        (∀ d : District, inReset (132 + d) t = true) ∧ t.mem = s.mem)) ∧
  (∀ s : State, twinOn s = true →
    (s.twn.state = .rejoining → ∃ t : State, exec .rejoinCopyDone s = .next t ∧ t.twn.state = .standby ∧
      t.stp.step = s.twn.syncStep ∧ rg LNC_STEP 0 t = w32 s.twn.syncStep ∧ bit (rg TWN_CAUSE 0 t) 8 = true ∧
      t.mem = s.mem ∧ t.lanes = s.lanes) ∧
    (s.twn.state = .active → s.twn.copying = true → atBoundary s = true → ∀ b : Bytes,
      syncBody s.twn.syncNext s = some b → exec .rejoinCopyDone s = .next (twinSend 8 s.stp.step 0 b
        { s with twn := { s.twn with syncNext := s.twn.syncNext + 1 } })) ∧
    (s.twn.state = .active → s.twn.copying = true → syncBody s.twn.syncNext s = none →
      ∃ t : State, exec .rejoinCopyDone s = .next t ∧
      t.twn.state = .active ∧ t.twn.copying = false ∧ t.twn.alone = false ∧ t.mem = s.mem ∧ t.lanes = s.lanes))

/-- R376, R377, R381-R385, R387, R388: outside a reset of function 209 the status timer numbers the statuses, and a
worker on one hierarchy trunk sends its own to its manager, or to both manager addresses while it knows none. A worker
takes a status from those two addresses and of its own number only, and at the manager's loss forgets the last seq of
its kind-5 roads; a manager passes a status of number 0 or of no worker of its table, puts a worker of the right
identifier and image into service, starts loading one of another image, refuses one of another identifier, and holds a
silent one lost with its relays ended. A host's relay to a worker in service is forwarded under a fresh tag, and refused
with code 3 at the limit; one that times out is answered with code 2 or, of a delivery, tried again later; the image of
a worker that loads is offered from its first byte. In any other case these commands do nothing. The model's own
readings that its clauses meet: log entries 89 to 92 and 99. Log entry 3 (the model's choice): a command whose event
does not hold leaves the block as it is. -/
def Obligations.ManagersAndWorkersKeepTheirStates : Prop :=
  (∀ s : State, inReset 209 s = true → exec .hieStatusTimer s = .next s ∧
    (∀ w : Fin 16, exec (.hieStatusLoss w) s = .next s ∧ exec (.imageOffer w) s = .next s) ∧
    (∀ (n : Fin 4) (a : BitVec 48) (y : Bytes), exec (.hieStatusReceive n a y) s = .next s)) ∧
  (∀ s : State, inReset 209 s = false →
    (hieRole s = 0 → exec .hieStatusTimer s = .next { s with hie := { s.hie with statusSeq := s.hie.statusSeq + 1 } }) ∧
    (∀ (a : BitVec 48) (n : Nat), hieRole s = 2 → managerAddr s = some a → trunksOf roleHierarchy s = [n] →
      ∃ t : State, exec .hieStatusTimer s = .next t ∧ t.hie.statusSeq = s.hie.statusSeq + 1 ∧ t.jct =
        (wpSendAssocPort assocHierarchy wpRelay (128 + n) a (statusPayload (ownWorker s) false s) s).jct ∧
        t.mem = s.mem ∧ t.lanes = s.lanes) ∧
    (∀ n : Nat, hieRole s = 2 → managerAddr s = none → trunksOf roleHierarchy s = [n] →
      ∃ t : State, exec .hieStatusTimer s = .next t ∧ t.hie.statusSeq = s.hie.statusSeq + 1 ∧ t.jct =
        (wpSendAssocPort assocHierarchy wpRelay (128 + n) Config.managerB (statusPayload (ownWorker s) false s)
          (wpSendAssocPort assocHierarchy wpRelay (128 + n) Config.managerA (statusPayload (ownWorker s) false s) s)).jct ∧
        t.mem = s.mem ∧ t.lanes = s.lanes)) ∧
  (∀ (n : Fin 4) (a : BitVec 48) (y : Bytes) (s : State), inReset 209 s = false → y.length = 40 → beAt y 0 1 = 3 →
    (hieRole s ≠ 2 → managerActs s = false → exec (.hieStatusReceive n a y) s = .next s) ∧
    (hieRole s = 2 → isManagerAddr a = false → exec (.hieStatusReceive n a y) s =
      .next (setCause HIE_CAUSE 0 3 (bump HIE_CNT_RX 0 15 0 s))) ∧
    (hieRole s = 2 → isManagerAddr a = true → beAt y 1 1 ≠ ownWorker s → exec (.hieStatusReceive n a y) s =
      .next (setCause HIE_CAUSE 0 1 (bump HIE_CNT_RX 0 15 0 s))) ∧
    (managerActs s = true → beAt y 1 1 = 0 → exec (.hieStatusReceive n a y) s =
      .next (setCause HIE_CAUSE 0 1 (bump HIE_CNT_RX 0 15 0 s))) ∧
    (managerActs s = true → beAt y 1 1 ≠ 0 → tableId (beAt y 1 1) s = none →
      exec (.hieStatusReceive n a y) s = .next s) ∧
    (hieRole s = 2 → isManagerAddr a = true → beAt y 1 1 = ownWorker s →
      ∃ t : State, exec (.hieStatusReceive n a y) s = .next t ∧ managerAddr t = some a ∧ t.hie.managerLost = false ∧
        rgF HIE_CNT_RX 0 31 16 t = (rgF HIE_CNT_RX 0 31 16 s + 1) % 2 ^ 16 ∧ t.mem = s.mem ∧ t.lanes = s.lanes) ∧
    (∀ id : Nat, managerActs s = true → beAt y 1 1 ≠ 0 → tableId (beAt y 1 1) s = some id →
      (beAt y 24 8 ≠ id → ∃ t : State, exec (.hieStatusReceive n a y) s = .next t ∧
        workerState (beAt y 1 1) t = workerRefused ∧ bit (rg HIE_W_CAUSE (beAt y 1 1) t) 4 = true ∧ t.mem = s.mem ∧
        t.lanes = s.lanes) ∧
      (beAt y 24 8 = id → workerState (beAt y 1 1) s ≠ workerRefused → workerState (beAt y 1 1) s ≠ workerLoading →
        beAt y 16 8 ≠ hdrIdentity (workerImage (beAt y 1 1) s) →
        ∃ t : State, exec (.hieStatusReceive n a y) s = .next t ∧ workerState (beAt y 1 1) t = workerLoading ∧
          (worker (beAt y 1 1) t).offerDue = true ∧ (worker (beAt y 1 1) t).addr = some a ∧ t.mem = s.mem ∧
          t.lanes = s.lanes) ∧
      (beAt y 24 8 = id → workerState (beAt y 1 1) s ≠ workerRefused →
        beAt y 16 8 = hdrIdentity (workerImage (beAt y 1 1) s) →
        ∃ t : State, exec (.hieStatusReceive n a y) s = .next t ∧ workerState (beAt y 1 1) t = workerInService ∧
          (worker (beAt y 1 1) t).addr = some a ∧ t.mem = s.mem ∧ t.lanes = s.lanes)) ∧
    (∀ (i : Fin 4) (ans : MemAnswer), exec (.relay n a true i y ans) s = exec (.hieStatusReceive n a y) s)) ∧
  (∀ s : State, inReset 209 s = false →
    (hieRole s = 2 → s.hie.managerLost = false → ∃ t : State, exec (.hieStatusLoss 0) s = .next t ∧
      t.hie.managerLost = true ∧ bit (rg HIE_CAUSE 0 t) 0 = true ∧
      (∀ n : Fin 64, roadKind n s = 5 → (road n t).lastSeq = none) ∧ t.mem = s.mem ∧ t.lanes = s.lanes) ∧
    (∀ w : Fin 16, (hieRole s = 2 ∧ (w ≠ 0 ∨ s.hie.managerLost = true)) ∨ (hieRole s ≠ 2 ∧ (managerActs s = false ∨
      (workerState w s ≠ workerLoading ∧ workerState w s ≠ workerInService))) →
      exec (.hieStatusLoss w) s = .next s) ∧
    (∀ w : Fin 16, managerActs s = true → workerState w s = workerInService →
      ∃ t : State, exec (.hieStatusLoss w) s = .next t ∧ workerState w t = workerLost ∧
        bit (rg HIE_W_CAUSE w t) 1 = true ∧ (∀ o ∈ t.hie.outs, o.worker ≠ w) ∧ t.mem = s.mem ∧ t.lanes = s.lanes)) ∧
  (∀ (n : Fin 4) (a : BitVec 48) (i : Fin 4) (y : Bytes) (ans : MemAnswer) (s : State),
    inReset 210 s = true ∨ turnSession s ≠ some i.val → exec (.relay n a false i y ans) s = .next s) ∧
  (∀ (n : Fin 4) (a : BitVec 48) (i : Fin 4) (y : Bytes) (ans : MemAnswer) (req : WpRequest) (q : List WpRequest)
      (s : State), hostTurn i req q s → req.kind = 9 → bit (rg WPT_S_CFG i s) 14 = true → managerActs s = true →
    8 ≤ req.payload.length → beAt req.payload 0 1 = 1 → beAt req.payload 2 1 = i → beAt req.payload 3 1 = 0 →
    1 ≤ beAt req.payload 1 1 → beAt req.payload 1 1 ≤ 15 → workerState (beAt req.payload 1 1) s = workerInService →
    (maxOut s ≤ outstanding (beAt req.payload 1 1) s → exec (.relay n a false i y ans) s = .next (answerRelay
      ⟨0, beAt req.payload 1 1, i, some (w32 (beAt req.payload 4 4), req.who)⟩ 3 [] (afterTurn i q s))) ∧
    (outstanding (beAt req.payload 1 1) s < maxOut s →
    ∃ t : State, exec (.relay n a false i y ans) s = .next t ∧ (session i t).queue = q ∧
      t.hie.nextTag = s.hie.nextTag + 1 ∧
      t.hie.outs = s.hie.outs ++
        [⟨s.hie.nextTag, beAt req.payload 1 1, i, some (w32 (beAt req.payload 4 4), req.who)⟩] ∧
      outstanding (beAt req.payload 1 1) t = outstanding (beAt req.payload 1 1) s + 1 ∧ t.mem = s.mem ∧
      t.lanes = s.lanes)) ∧
  (∀ (tag : Word) (s : State),
    (s.hie.outs.find? (fun o => decide (o.tag = tag)) = none → exec (.relayTimeout tag) s = .next s) ∧
    (∀ o : RelayOut, s.hie.outs.find? (fun o => decide (o.tag = tag)) = some o → o.worker < 16 →
      ∃ t : State, exec (.relayTimeout tag) s = .next t ∧ t.hie.outs = s.hie.outs.filter (fun x => x.tag ≠ tag) ∧
        (o.host = none → (worker o.worker t).delivery = none ∧ (worker o.worker t).retryWait = true) ∧
        (o.host ≠ none → rgF HIE_CNT 0 15 0 t = (rgF HIE_CNT 0 15 0 s + 1) % 2 ^ 16 ∧ bit (rg HIE_CAUSE 0 t) 2 = true) ∧
        t.mem = s.mem ∧ t.lanes = s.lanes)) ∧
  (∀ (w : Fin 16) (s : State), inReset 209 s = false → managerActs s = true → workerState w s = workerLoading →
    (worker w s).offerDue = true → (worker w s).delivery = none → (deliveries s).length < 2 →
    (∀ v : Fin 16, v.val < w.val → workerState v s ≠ workerLoading) →
    ∃ t : State, exec (.imageOffer w) s = .next t ∧ (worker w t).delivery = some 0 ∧ (worker w t).offerDue = false ∧
      t.hie.nextTag = s.hie.nextTag + 1 ∧ t.mem = s.mem ∧ t.lanes = s.lanes) ∧
  (∀ (w : Fin 16) (s : State), managerActs s = false ∨ workerState w s ≠ workerLoading ∨ 2 ≤ (deliveries s).length ∨
    ((worker w s).offerDue = false ∧ (worker w s).retryWait = false) → exec (.imageOffer w) s = .next s)

/-- R394-R399, R410: what becomes of a frame at the Waypost endpoint. Where none waits nothing happens; in a reset, or
without a message, it is counted as malformed. A message that its session does not admit, or that the session's key does
not verify, is counted; a verified one that the window or the epoch turns away is a replay, and a new one of the current
epoch is queued and moves the window; an opening in form draws a pending epoch, neither 0 nor the current one. A message
of the echo association that its key does not verify, or that is a replay, is dropped; one that passes moves its peer's
window. SESSION_OPEN and ASSOCIATION_MESSAGE do nothing for a frame that is not of their kind. R393: a trunk with an
address answers an ARP request or an ICMP echo request for it, and no other frame. The model's own readings that its
clauses meet: log entries 93 to 101. Log entry 3 (the model's choice): a command whose event does not hold leaves the
block as it is. -/
def Obligations.WaypostFramesAreCheckedAndQueued : Prop :=
  (∀ s : State, waypostFrame s = none → ∀ c ∈ [Instr.waypostReceive, .sessionOpen, .associationMessage],
    exec c s = .next s) ∧
  (∀ (f : JFrame) (m : WpArrival) (s : State), waypostFrame s = some f → waypostMessage f s = some m →
    (3 < m.session ∨ m.opens = false → exec .sessionOpen s = .next s) ∧
    (m.session ≠ 0x80 → m.session ≠ 0xC0 → exec .associationMessage s = .next s)) ∧
  (∀ (f : JFrame) (s : State), waypostFrame s = some f →
    (inReset 210 s = true → exec .waypostReceive s = .next (bump WPT_CNT_BAD 0 31 16 (endHanded 199 s))) ∧
    (inReset 210 s = false → chainTrunk f s = none →
      (waypostMessage f s = none → exec .waypostReceive s = .next (bump WPT_CNT_BAD 0 31 16 (endHanded 199 s))) ∧
      (∀ m : WpArrival, waypostMessage f s = some m → m.session ≤ 3 → sessionAdmits m.session m s = false →
        exec .waypostReceive s = .next (bump WPT_S_DROP m.session 31 24 (endHanded 199 s))) ∧
      (∀ (m : WpArrival) (base : Bytes), waypostMessage f s = some m → m.session ≤ 3 →
        sessionAdmits m.session m s = true → (session m.session s).key = some base →
        (m.opens = false → m.verified (epochKey base m.session m.epoch) = false → exec .waypostReceive s =
          .next (setCause WPT_CAUSE 0 0 (bump WPT_S_DROP m.session 31 24 (endHanded 199 s)))) ∧
        (m.opens = false → m.verified (epochKey base m.session m.epoch) = true → passWindow m.session m s = none →
          exec .waypostReceive s =
            .next (setCause WPT_CAUSE 0 1 (bump WPT_S_DROP m.session 23 16 (endHanded 199 s)))) ∧
        (∀ w : Word × BitVec 64, m.opens = false → m.verified (epochKey base m.session m.epoch) = true → m.seq ≠ 0 →
          m.epoch ≠ 0 → m.epoch = rg WPT_S_EPOCH m.session s →
          windowTest (rg WPT_S_HI m.session s) m.seq (session m.session s).seen = some w → m.badHeader = false →
          m.flags % 2 = 0 → m.flags / 4 % 2 = 0 → (session m.session s).queue.length < 8 →
          ∃ t : State, exec .waypostReceive s = .next t ∧ rg WPT_S_HI m.session t = w.1 ∧
            (session m.session t).seen = w.2 ∧ (session m.session t).peer = m.peer ∧
            (session m.session t).queue = (session m.session s).queue ++
              [{ kind := BitVec.ofNat 8 m.type, epoch := m.epoch, seq := m.seq, payload := m.payload,
                 who := .host m.session m.peer m.epoch m.seq }] ∧
            t.mem = s.mem ∧ t.lanes = s.lanes) ∧
        (m.opens = true → m.verified base = true → m.badHeader = false → m.flags = flagOpen → m.type = wpRegRd →
          m.epoch = 0 → m.seq = 0 → m.len = 8 → (session m.session s).queue.length < 8 →
          ∃ (t : State) (e : Word), exec .sessionOpen s = .next t ∧ (session m.session t).pending = some e ∧ e ≠ 0 ∧
            e ≠ rg WPT_S_EPOCH m.session s ∧ rg WPT_S_EPOCH m.session t = rg WPT_S_EPOCH m.session s ∧
            t.mem = s.mem ∧ t.lanes = s.lanes)) ∧
      (∀ (m : WpArrival) (key : Bytes), waypostMessage f s = some m → m.session = 0xC0 →
        sget none assocEcho s.wpt.assocKey = some key →
        (m.verified key = false → exec .associationMessage s =
          .next (bump WPT_CNT_BAD 0 15 0 (endHanded 199 s))) ∧
        (m.verified key = true → m.badHeader = false → m.type = wpClaimEcho →
          peersTake assocEcho m (endHanded 199 s) = none → exec .associationMessage s =
            .next (bump WPT_CNT_BAD 0 15 0 (endHanded 199 s))) ∧
        (∀ ps : List PeerRun, m.verified key = true → m.badHeader = false → m.type = wpClaimEcho →
          peersTake assocEcho m (endHanded 199 s) = some ps → twinOn s = false →
          ∃ t : State, exec .associationMessage s = .next t ∧ sget [] assocEcho t.wpt.peers = ps ∧
            rgF WPT_CNT_RX 0 15 0 t = (rgF WPT_CNT_RX 0 15 0 s + 1) % 2 ^ 16 ∧ t.mem = s.mem ∧ t.lanes = s.lanes)))) ∧
  (∀ (n : Fin 4) (b : Bytes) (s : State),
    let own := (rg (WPT_IPV4_T + 4 * n) 0 s).toNat
    let sent (r : Bytes) : State := internalFrame 199 (128 + n) 7 (padFrame r) { s with draws := s.draws + 5 }
    (own = 0 → exec (.arpIcmpRequest n b) s = .next s) ∧
    (etherType b ≠ 0x0806 → etherType b ≠ 0x0800 → exec (.arpIcmpRequest n b) s = .next s) ∧
    (etherType b = 0x0806 → own ≠ 0 →
      (arpReply n own b s = none → exec (.arpIcmpRequest n b) s = .next s) ∧
      (∀ r : Bytes, arpReply n own b s = some r → exec (.arpIcmpRequest n b) s = .next (sent r))) ∧
    (etherType b = 0x0800 → own ≠ 0 →
      (icmpReply n own b s = none → exec (.arpIcmpRequest n b) s = .next s) ∧
      (∀ r : Bytes, icmpReply n own b s = some r → exec (.arpIcmpRequest n b) s = .next (sent r))))

/-- R400-R402, R404-R408: the request at the head of the session whose turn it is, with its right, is carried out and
answered to whoever asked; one of a type that no host may send is answered with status 1. A batch of register reads, a
write of one register and a memory read are answered with what their accesses gave, a memory read where the host may not
reach with status 2; a memory write leaves its bytes at its address and changes no other, or, of lane memory in step
mode, goes to the merged stream; a doorbell rings its queue; a first chunk stands in the staging area and a commit of a
whole transfer starts the verification; an LM64 transaction outside step mode is answered by the mapper, or times out
and is counted as late when its answer comes, as one that waits for its boundary does. A memory read without its right
is counted and not carried out. Out of its turn, in a reset of function 210, or while the firmware restarts (R451), none
of these commands carries out a request. The model's own readings that its clauses meet: log entries 70, 86, 91, 96, 97,
102 to 105, 121, 162, 184 and 185. Log entry 3 (the model's choice): a command whose event does not hold leaves the
block as it is. -/
def Obligations.HostRequestsAreCarriedOutInTurn : Prop :=
  (∀ (i : Fin 4) (req : WpRequest) (q : List WpRequest) (s : State), hostTurn i req q s →
    let p := req.payload
    let s' := afterTurn i q s
    let may (b : Nat) : Bool := bit (rg WPT_S_CFG i s) (8 + b)
    let who : Asker := req.who
    (req.kind = 1 → may 0 = true → batchOk 4 p = true →
      let r := readBatch (4 + i) ((List.range (p.length / 4)).map fun k => beAt p (4 * k) 4) s'
      exec (.regRd i) s =
        .next (answerAsker who 1 r.2.1 (beBytes 2 r.2.2.1 ++ [0, 0] ++ r.2.2.2) r.1)) ∧
    (hostType req.kind.toNat = false → exec (.regRd i) s = .next (answerAsker who req.kind.toNat 1 [] s')) ∧
    (req.kind = 2 → may 1 = true → p.length = 8 → s.sys.phase ≠ .reset →
      accessError (4 + i) true (regBase + beAt p 0 4) 4 s' = false → bareBars (beAt p 0 4) s' = false →
      exec (.regWr i) s = .next (afterBatch (4 + i) (answerAsker who 2 0 [0, 1, 0, 0]
        (regWrite (4 + i) (beAt p 0 4) (w32 (beAt p 4 4)) s')))) ∧
    (∀ a len : Nat, req.kind = 3 → may 2 = true → memBody p false = some (a, len) →
      (canReach .hostRead false a len s = true → answer a .ok s = .ok →
        exec (.memRd i .ok) s = .next (answerAsker who 3 0 (rdBytes a len s') s')) ∧
      (canReach .hostRead false a len s = false →
        exec (.memRd i .ok) s = .next (answerAsker who 3 2 [] s'))) ∧
    (∀ a len n : Nat, req.kind = 4 → may 3 = true → memBody p true = some (a, len) →
      canReach .hostWrite true a len s = true → stepMode s = false → answer a .ok s = .ok →
      ∃ t : State, exec (.memWr i .ok n) s = .next t ∧ rdBytes a len t = p.drop 12 ∧ (session i t).queue = q ∧
        (∀ b : Nat, b < a ∨ a + len ≤ b → rdByte b t = rdByte b s) ∧ t.lanes = s.lanes) ∧
    (∀ (a len n : Nat) (ans : MemAnswer), req.kind = 4 → may 3 = true → memBody p true = some (a, len) →
      canReach .hostWrite true a len s = true → stepMode s = true → laneRange a s = true →
      exec (.memWr i ans n) s = .next (forwardHost i req s')) ∧
    (req.kind = 5 → may 4 = true → p.length = 4 → beAt p 0 2 = 1 → beAt p 2 2 < 1024 → exec (.doorbell i .ok) s =
      .next (answerAsker who 5 0 [] (doorbellOp (beAt p 2 2) (edgeNow s) .ok s').1)) ∧
    (req.kind = 7 → may 5 = true → p.length = 8 + beAt p 4 2 → 1 ≤ beAt p 4 2 → beAt p 4 2 ≤ 1024 → beAt p 6 1 ≤ 2 →
      beAt p 7 1 = 0 → abortsNow s = false → loaderBusy s = false → s.img.transfer = none → beAt p 0 4 % 16 = 0 →
      beAt p 0 4 + beAt p 4 2 ≤ imgMax →
      ∃ t : State, exec (.imgChunk i) s = .next t ∧ t.img.transfer = some (beAt p 6 1, i.val) ∧
        (∀ k : Nat, k < beAt p 4 2 → sget 0 (beAt p 0 4 + k) t.img.staging = p.getD (8 + k) 0) ∧
        t.mem = s.mem ∧ t.lanes = s.lanes) ∧
    (req.kind = 8 → may 5 = true → p.length = 8 → beAt p 4 1 = 0 → beAt p 5 3 = 0 → abortsNow s = false →
      loaderBusy s = false → s.img.transfer = some (0, i.val) → beAt p 0 4 = hdrTotal (stagedBytes 256 s) →
      receivedAll (beAt p 0 4) s = true → ∃ t : State, exec (.imgCommit i) s = .next t ∧ t.img.transfer = none ∧
        t.img.verifying = some { image := stagedBytes (beAt p 0 4) s, target := 0, who := who } ∧
        t.mem = s.mem ∧ t.lanes = s.lanes) ∧
    (∀ (op : Nat) (c : Instr), (op, c) ∈ [(1, Instr.readIn i), (2, .writeOut i), (3, .readOut i)] → req.kind = 12 →
      may 7 = true → lm64Op p = op → lm64Ok p = true → lm64Mode s = true → stepMode s = false → mapperUp s' = true →
      exec c s = .next (answerAsker who 12 0 (lm64Run p s').2
        (bump WPT_LM64_CNT 0 31 16 (lm64Run p s').1))) ∧
    (req.kind = 12 → may 7 = true → lm64Ok p = true → lm64Mode s = true → stepMode s = false → mapperUp s' = true →
      ∃ t : State, exec (.lm64Timeout i) s = .next t ∧ t.wpt.lateTxns = s.wpt.lateTxns ++ [p] ∧
        rgF WPT_LM64_CNT 0 31 16 t = (rgF WPT_LM64_CNT 0 31 16 s + 1) % 2 ^ 16 ∧ t.mem = s.mem ∧ t.lanes = s.lanes) ∧
    (req.kind = 3 → may 2 = false → exec (.memRd i .ok) s = .next (answerAsker who 3 7 []
      (setCause WPT_CAUSE 0 4 (bump WPT_S_DROP i 15 8 s'))))) ∧
  (∀ (i : Fin 4) (ans : MemAnswer) (n : Nat) (s : State),
    let late := (session i s).waiting.find? fun x => decide (x.2.kind = 12)
    (turnSession s ≠ some i.val ∨ inReset 210 s = true ∨ elapsedNs s < s.sys.restarted →
      (∀ c ∈ [Instr.regRd i, .regWr i, .memRd i ans, .memWr i ans n, .doorbell i ans, .imgChunk i, .imgCommit i,
        .readIn i, .writeOut i, .readOut i], exec c s = .next s) ∧
      (late = none → exec (.lm64Timeout i) s = .next s)) ∧
    (∀ (k : Word) (req : WpRequest), late = some (k, req) → ∃ t : State, exec (.lm64Timeout i) s = .next t ∧
      t.wpt.lateKeys = s.wpt.lateKeys ++ [k] ∧ (∀ x ∈ (session i t).waiting, x.1 ≠ k) ∧
      rgF WPT_LM64_CNT 0 31 16 t = (rgF WPT_LM64_CNT 0 31 16 s + 1) % 2 ^ 16 ∧ t.mem = s.mem ∧ t.lanes = s.lanes)) ∧
  (∀ s : State, s.wpt.lateTxns = [] → exec .lm64LateAnswer s = .next s) ∧
  (∀ (p : Bytes) (q : List Bytes) (s : State), s.wpt.lateTxns = p :: q →
    ∃ t : State, exec .lm64LateAnswer s = .next t ∧ t.wpt.lateTxns = q ∧ bit (rg WPT_CAUSE 0 t) 6 = true ∧
      rgF WPT_LM64_CNT 0 15 0 t = (rgF WPT_LM64_CNT 0 15 0 s + 1) % 2 ^ 16) ∧
  (∀ (path off r : Nat) (s : State), accessError path false (regBase + off) 4 s = false → regNumber off = some r →
    readBatch path [off] s = (readEffect path r s, 0, 1, beBytes 4 (regValue path r s).toNat))

/-- R400, R422-R428, R430: a host's verified image waits to be applied, in step mode is forwarded, or is written to its
slot, after the slot write that runs; a refused one is recorded and counted; an application ends with the image running.
The write of slot A ends with the image in the slot, or a cause, and the next one begins; a transfer that stands still
is closed. IMG_CTRL closes a transfer, writes the preferred slot and trial into the boot record, and confirms a trial
that has been attempted; the second of two equal writes of IMG_REVOKE burns the key slot that it names where it may be
revoked, and a write with another key byte forgets the first. Where nothing is verified, applied or written, the
commands that end it do nothing. The model's own readings that its clauses meet: log entries 106 to 112, 116 and 162.
Log entry 3 (the model's choice): a command whose event does not hold leaves the block as it is. -/
def Obligations.ImagesAreVerifiedAppliedAndKept : Prop :=
  (∀ (c : Commit) (i : Fin 4) (x : WpPeer) (e q : Word) (s : State), s.img.verifying = some c → c.who = .host i x e q →
    let s' := { s with img := { s.img with verifying := none } }
    (∀ r : ImgRefusal, checkImage c.image s' = some r → ∃ t : State, exec (.imageVerifyDone .ok) s = .next t ∧
      t.img.verifying = none ∧ t.img.verified = s.img.verified ∧
      rg IMG_LAST 0 t = w32 (r.code * 2 ^ 24 + r.type * 2 ^ 16 + r.index) ∧ bit (rg IMG_CAUSE 0 t) 0 = true ∧
      rgF IMG_CNT 0 15 0 t = (rgF IMG_CNT 0 15 0 s + 1) % 2 ^ 16 ∧ t.mem = s.mem ∧ t.lanes = s.lanes) ∧
    (checkImage c.image s' = none → ∃ t : State, exec (.imageVerifyDone .ok) s = .next t ∧ t.img.verifying = none ∧
      (c.target = 0 → stepMode s = false → t.img.verified = some (c.image, 2)) ∧
      (c.target = 0 → stepMode s = true → t.img.forwarded = some c) ∧
      (c.target ≠ 0 → s.img.flashWrite = none →
        t.img.flashWrite = some (c.target, c.image.take (hdrTotal c.image)) ∧ rgF IMG_STAT 0 25 25 t = 1) ∧
      (c.target ≠ 0 → s.img.flashWrite ≠ none → t.img.flashWrite = s.img.flashWrite ∧
        t.img.flashNext = s.img.flashNext ++ [(c.target, c.image.take (hdrTotal c.image))]) ∧
      t.mem = s.mem ∧ t.lanes = s.lanes)) ∧
  (∀ (b : Bytes) (n : Nat) (s : State), s.img.verified = some (b, n) → ∃ t : State, exec (.imageApply .ok) s = .next t ∧
    t.img.verified = none ∧ t.sys.phase = .running ∧ rg IMG_ID_LO 0 t = w32 (leAt b 16 4) ∧
    rg IMG_ID_HI 0 t = w32 (leAt b 20 4)) ∧
  (∀ (ans : MemAnswer) (s : State), (s.img.verifying = none → exec (.imageVerifyDone ans) s = .next s) ∧
    (s.img.verified = none → exec (.imageApply ans) s = .next s) ∧
    (∀ ok : Bool, s.img.flashWrite = none → exec (.flashWriteDone ok) s = .next s)) ∧
  (∀ (b : Bytes) (w : Nat × Bytes) (x : List (Nat × Bytes)) (s : State), s.img.flashWrite = some (1, b) →
    s.img.flashNext = w :: x → ∃ t : State, exec (.flashWriteDone true) s = .next t ∧ t.img.flashA = b ∧
      t.img.flashWrite = some w ∧ t.img.flashNext = x ∧ t.regs = s.regs ∧ t.mem = s.mem) ∧
  (∀ (b : Bytes) (s : State), s.img.flashWrite = some (1, b) → s.img.flashNext = [] → s.img.recordWait = none →
    (∃ t : State, exec (.flashWriteDone true) s = .next t ∧ t.img.flashA = b ∧ t.img.flashB = s.img.flashB ∧
      t.img.flashWrite = none ∧ rgF IMG_STAT 0 25 25 t = 0 ∧ t.mem = s.mem) ∧
    (∃ t : State, exec (.flashWriteDone false) s = .next t ∧ t.img.flashA = s.img.flashA ∧ t.img.flashWrite = none ∧
      bit (rg IMG_CAUSE 0 t) 4 = true ∧ t.mem = s.mem)) ∧
  (∀ (p : Path) (v : Word) (s : State), s.img.flashWrite = none → s.img.recordWait = none →
    exec .imageTransferTimeout s = .next (if s.img.transfer.isSome = true then
      { s with img := { s.img with transfer := none, staging := [], received := [] } } else s) ∧
    (bit v 5 = true → bit v 2 = false → bit v 0 = false → exec (.imgCtrlAbort p v) s =
      .next { s with img := { s.img with
        transfer := none, staging := [], received := [], abortEdge := some s.mp.tclk } }) ∧
    (bit v 5 = false → bit v 2 = true → bit v 0 = false → ∃ (t : State) (r : BootRecord) (a : Bool),
      exec (.imgCtrlPreferGo p v) s = .next t ∧ usedRecord t = some (r, a) ∧ r.preferred = fld v 3 3 ∧
        r.trial = fld v 4 4 ∧ t.regs = s.regs ∧ t.mem = s.mem) ∧
    (∀ (r : BootRecord) (a : Bool), bit v 5 = false → bit v 2 = false → bit v 0 = true → usedRecord s = some (r, a) →
      (r.trial = 2 → ∃ (t : State) (x : BootRecord) (b : Bool), exec (.imgCtrlConfirm p v) s = .next t ∧
        usedRecord t = some (x, b) ∧ x.preferred = r.preferred ∧ x.trial = 0 ∧ t.regs = s.regs ∧ t.mem = s.mem) ∧
      (r.trial ≠ 2 → exec (.imgCtrlConfirm p v) s = .next s)) ∧
    (bit v 5 = false → bit v 2 = false → bit v 0 = true → usedRecord s = none →
      exec (.imgCtrlConfirm p v) s = .next s)) ∧
  (∀ (p : Path) (v : Word) (w : Bool) (x : Word) (s : State), fld v 15 8 = 0xA5 →
    (s.img.revokeFirst = none → exec (.imgRevokeWrite p v w) s =
      .next { s with img := { s.img with revokeFirst := some (p.val, v &&& 0xFF03, now s) } }) ∧
    (s.img.revokeFirst = some (p.val, v &&& 0xFF03, x) → mayRevoke (fld v 1 0) s = true →
      ∃ t : State, exec (.imgRevokeWrite p v true) s = .next t ∧ (keySlot (fld v 1 0) t).revoked = true ∧
        bit (rg IMG_CAUSE 0 t) 7 = true ∧ (∀ k : Nat, k ≠ fld v 1 0 → keySlot k t = keySlot k s) ∧ t.mem = s.mem) ∧
    (s.img.revokeFirst = some (p.val, v &&& 0xFF03, x) → mayRevoke (fld v 1 0) s = false →
      exec (.imgRevokeWrite p v true) s = .next { s with img := { s.img with revokeFirst := none } })) ∧
  (∀ (p : Path) (v : Word) (w : Bool) (s : State), fld v 15 8 ≠ 0xA5 →
    exec (.imgRevokeWrite p v w) s = .next { s with img := { s.img with revokeFirst := none } })

/-- R435, R436, R439-R442, R450: a device-wide reset samples the straps and stops lanes, roads, queues and frames; each
but a power-on reset sets its cause. A pulse below 1 us, a software reset without its go, sys and key, cool sensors and
a watchdog before its second stage reset nothing. A boot with its OTP in order ends in hold at strap 3, with every
function in reset; at strap 1 in the bare state, where SRAM reads 0 and other memory is as before; at another strap
there or with an image running. With a bad OTP it ends in the bare state with its cause. A boot outside a reset, or held
by the temperature, does nothing. The model's own readings that its clauses meet: log entries 6, 114 to 116, 118, 158
and 159. Log entry 3 (the model's choice): a command whose event does not hold leaves the block as it is. -/
def Obligations.DeviceResetsAndBootFollowTheirCause : Prop :=
  (∀ (x : Straps) (s : State),
    (∃ t : State, exec (.powerOnReset x) s = .next t ∧ rg SYS_STRAP 0 t = strapWord x ∧ now t = 0 ∧ t.mem = s.mem ∧
      t.pending = s.pending ∧ t.img.flashA = s.img.flashA ∧ t.lanes = State.reset.lanes ∧
      t.roads = State.reset.roads ∧ t.jct = State.reset.jct ∧ t.queues = State.reset.queues) ∧
    (∃ t : State, exec (.brownOutReset x) s = .next t ∧ afterReset 2 x s t ∧
      t.sys.thermalHold = s.sys.thermalHold) ∧
    (∀ n : Nat, (n < 1000 → exec (.systemReset n x) s = .next s) ∧
      (1000 ≤ n → ∃ t : State, exec (.systemReset n x) s = .next t ∧ afterReset 1 x s t)) ∧
    (∀ (p : Path) (v : Word),
      (bit v 31 = true → bit v 30 = true → fld v 15 8 = 0xC3 →
        ∃ t : State, exec (.softwareReset p v x) s = .next t ∧ afterReset 4 x s t) ∧
      (bit v 31 = false ∨ bit v 30 = false ∨ fld v 15 8 ≠ 0xC3 → exec (.softwareReset p v x) s = .next s)) ∧
    (∀ a b c : BitVec 8,
      (125 ≤ a.toInt ∨ 125 ≤ b.toInt ∨ 125 ≤ c.toInt → ∃ t : State, exec (.thermalTrip a b c x) s = .next t ∧
        afterReset 5 x s t ∧ t.sys.thermalHold = true) ∧
      (a.toInt < 125 → b.toInt < 125 → c.toInt < 125 → exec (.thermalTrip a b c x) s = .next s)) ∧
    (rgF SYS_WDOG_STAT 0 17 16 s = 1 → ∃ t : State, exec (.watchdogReset x) s = .next t ∧ afterReset 3 x s t) ∧
    (rgF SYS_WDOG_STAT 0 17 16 s ≠ 1 → exec (.watchdogReset x) s = .next s)) ∧
  (∀ (ok : Bool) (fa fb : DdrFit) (aa ab : MemAnswer) (s : State), s.sys.phase = .reset → s.sys.thermalHold = false →
    ∃ t : State, exec (.boot ok fa fb aa ab) s = .next t ∧
      (ok = true → rgF SYS_STRAP 0 3 2 s = 3 → t.sys.phase = .hold ∧ rgF MEM_STAT 2 2 0 t = 3 ∧
        rgF MEM_STAT 3 2 0 t = 3 ∧ ∀ f : Fin 215, inReset f t = true) ∧
      (ok = false → t.sys.phase = .bare ∧ bit (rg SYS_CAUSE 0 t) 5 = true) ∧
      (ok = true → rgF SYS_STRAP 0 3 2 s = 1 → t.sys.phase = .bare ∧
        ∀ a : Nat, rdByte a t = if a < 2 ^ 37 then rdByte a s else 0) ∧
      (rgF SYS_STRAP 0 3 2 s ≠ 3 → t.sys.phase = .bare ∨ t.sys.phase = .running)) ∧
  (∀ (ok : Bool) (fa fb : DdrFit) (aa ab : MemAnswer) (s : State), s.sys.phase ≠ .reset ∨ s.sys.thermalHold = true →
    exec (.boot ok fa fb aa ab) s = .next s)

/-- R433, R435, R443-R455: a function reset begins, of a district in step mode at the next step, and ends where it may;
a kick in its order restarts the watchdog and any other sets kick_err; the first stage counts and raises its cause;
temperatures are shown and warn, and a rail out of range at its third reading in a row warns; the loss of the crystal
and a supply error are recorded; a die link that is up goes down, one that trains comes up or trains on, and its retries
are counted; a scrub pass over a ready channel counts what it found; the board digest in OTP is written once, in hold.
In any other case these commands do nothing. The model's own readings that its clauses meet: log entries 112, 113 and
116 to 118. Log entry 3 (the model's choice): a command whose event does not hold leaves the block as it is. -/
def Obligations.SystemEventsAreRecorded : Prop :=
  (∀ (p : Path) (v : Word) (s : State),
    (bit v 31 = false ∨ bit v 30 = true ∨ 215 ≤ fld v 7 0 → exec (.functionReset p v) s = .next s) ∧
    (inReset (fld v 7 0) s = true → stepMode s = false → exec (.functionReset p v) s = .next s) ∧
    (bit v 31 = true → bit v 30 = false → 132 ≤ fld v 7 0 → fld v 7 0 < 196 → stepMode s = true →
      exec (.functionReset p v) s = .next (awaitStep (.resetDistrict (fld v 7 0 - 132)) s)) ∧
    (bit v 31 = true → bit v 30 = false → fld v 7 0 < 215 → inReset (fld v 7 0) s = false → stepMode s = false →
      ∃ t : State, exec (.functionReset p v) s = .next t ∧ inReset (fld v 7 0) t = true)) ∧
  (∀ (f : BitVec 8) (s : State),
    (mayComplete f.toNat s = false → exec (.functionResetComplete f .ok) s = .next s) ∧
    (mayComplete f.toNat s = true → f.toNat < 215 → ∃ t : State, exec (.functionResetComplete f .ok) s = .next t ∧
      inReset f.toNat t = false)) ∧
  (∀ (p : Path) (v : Word) (s : State),
    (fld v 7 0 = 0x5A → s.sys.kickFirst = none → exec (.watchdogKick p v false) s =
      .next { s with sys := { s.sys with kickFirst := some (now s) } }) ∧
    (fld v 7 0 = 0xA5 → s.sys.kickFirst ≠ none → ∃ t : State, exec (.watchdogKick p v true) s = .next t ∧
      rgF SYS_WDOG_STAT 0 17 0 t = max 1 (rgF SYS_WDOG_CFG 0 31 16 s) ∧ t.sys.wdogStart = elapsedNs s ∧
      t.sys.kickFirst = none ∧ t.mem = s.mem) ∧
    (∀ b : Bool, ¬ (fld v 7 0 = 0x5A ∧ s.sys.kickFirst = none) → ¬ (fld v 7 0 = 0xA5 ∧ s.sys.kickFirst ≠ none ∧ b = true) →
      exec (.watchdogKick p v b) s =
        .next (setCause SYS_SUP_CAUSE 0 1 { s with sys := { s.sys with kickFirst := none } }))) ∧
  (∀ s : State, rgF SYS_WDOG_STAT 0 17 16 s ≠ 0 → exec .watchdogStage1 s = .next s) ∧
  (∀ s : State, rgF SYS_WDOG_STAT 0 17 16 s = 0 → ∃ t : State, exec .watchdogStage1 s = .next t ∧
    rgF SYS_WDOG_STAT 0 17 16 t = 1 ∧ rgF SYS_WDOG_STAT 0 31 24 t = (rgF SYS_WDOG_STAT 0 31 24 s + 1) % 2 ^ 8 ∧
    bit (rg SYS_SUP_CAUSE 0 t) 0 = true ∧ t.sys.wdogLow = some (elapsedNs s) ∧
    t.sys.restarted ≤ elapsedNs s + 50000000 ∧ t.mem = s.mem ∧ t.lanes = s.lanes) ∧
  (∀ (a b c : BitVec 8) (mv : List (BitVec 16)) (s : State),
    ∃ t : State, exec (.monitorReading a b c mv) s = .next t ∧
      rg SYS_MON_TEMP 0 t = w32 (c.toNat * 65536 + b.toNat * 256 + a.toNat) ∧
      ((∃ x ∈ [a, b, c], (rgF SYS_MON_CFG 0 7 0 s : Int) ≤ x.toInt) →
        bit (rg SYS_CAUSE 0 t) 1 = true) ∧
      ((∃ x ∈ [a, b, c], (rgF SYS_MON_CFG 0 15 8 s : Int) ≤ x.toInt) →
        bit (rg SYS_CAUSE 0 t) 2 = true) ∧
      (∀ i : Fin 11, railOut (railNominal.getD i 0) (mv.getD i 0).toNat = true → 2 ≤ sget 0 i.val s.sys.voltLow →
        bit (rg SYS_CAUSE 0 t) 0 = true) ∧
      (a.toInt < 110 → b.toInt < 110 → c.toInt < 110 → t.sys.thermalHold = false) ∧ t.mem = s.mem ∧ t.lanes = s.lanes) ∧
  (∀ s : State, exec .xoLoss s = .next (setCause SYS_CAUSE 0 4 s) ∧
    exec .supplySequenceError s = .next (setRg SYS_RST_CAUSE 0 (setBit (rg SYS_RST_CAUSE 0 s) 6 true) s)) ∧
  (∀ (d : Fin 2) (l : Bool) (s : State),
    (dieUp d s = false → exec (.dieLinkDown d l) s = .next s) ∧
    (dieUp d s = true → ∃ t : State, exec (.dieLinkDown d l) s = .next t ∧ rgF MEM_STAT (2 + d) 2 0 t = 0 ∧
      bit (rg MEM_CAUSE (2 + d) t) 0 = true ∧ t.mem = s.mem ∧ t.lanes = s.lanes) ∧
    (rgF MEM_STAT (2 + d) 2 0 s < 2 → s.sys.phase ≠ .reset →
      exec (.dieLinkRetrain d false) s = .next (setRgF MEM_STAT (2 + d) 2 0 1 s) ∧
      ∃ t : State, exec (.dieLinkRetrain d true) s = .next t ∧ dieUp d t = true ∧
        bit (rg MEM_CAUSE (2 + d) t) 1 = true ∧ t.mem = s.mem ∧ t.lanes = s.lanes) ∧
    (∀ up : Bool, 2 ≤ rgF MEM_STAT (2 + d) 2 0 s ∨ s.sys.phase = .reset → exec (.dieLinkRetrain d up) s = .next s) ∧
    (∀ n : Nat, ∃ t : State, exec (.dieLinkRetryBurst d n) s = .next t ∧
      rgF MEM_CNT (2 + d) 31 16 t = (rgF MEM_CNT (2 + d) 31 16 s + n) % 2 ^ 16 ∧
      (256 < n → bit (rg MEM_CAUSE (2 + d) t) 2 = true) ∧ t.mem = s.mem ∧ t.lanes = s.lanes)) ∧
  (∀ (c : Fin 2) (m n : Nat) (s : State), rgF MEM_SCRUB c 7 0 s ≠ 0 → rgF MEM_STAT c 2 0 s = 2 →
    ∃ t : State, exec (.memoryScrubPass c m n) s = .next t ∧
      rgF MEM_CNT c 31 16 t = (rgF MEM_CNT c 31 16 s + m) % 2 ^ 16 ∧
      rgF MEM_CNT c 15 0 t = (rgF MEM_CNT c 15 0 s + n) % 2 ^ 16 ∧ (0 < n → bit (rg MEM_CAUSE c t) 1 = true) ∧
      t.mem = s.mem ∧ t.lanes = s.lanes) ∧
  (∀ (c : Fin 2) (m n : Nat) (s : State), rgF MEM_SCRUB c 7 0 s = 0 ∨ rgF MEM_STAT c 2 0 s ≠ 2 →
    exec (.memoryScrubPass c m n) s = .next s) ∧
  (∀ (b : Bytes) (s : State), b.length = 48 →
    (s.sys.phase = .hold → s.img.boardDigest = none → exec (.jtagOtpProgram 6 b) s =
      .next { s with img := { s.img with boardDigest := some b } }) ∧
    (s.sys.phase = .hold → s.img.boardDigest ≠ none → exec (.jtagOtpProgram 6 b) s = .next s) ∧
    (s.sys.phase ≠ .hold → ∀ f : BitVec 8, exec (.jtagOtpProgram f b) s = .next s))

/-- R6-R8, R10, R444: a write by a supervisor path of a register of the Junction block, other than the table command and
JCT_DT, that its window reaches: the rw bits take the written value, the w1c bits are cleared where it is 1, the others
stay, and nothing else changes; a w1c bit that hardware sets in the same cycle stays 1, and one that hardware clears
while 0 is written is 0. A write while the function is in reset, and an access that is not of 4 aligned bytes of the
register space, have no effect. The model's own readings that its clauses meet: log entries 119 and 122. Log entry 3
(the model's choice): a command whose event does not hold leaves the block as it is. -/
def Obligations.RegisterWritesFollowTheirAccessCodes : Prop :=
  (∀ (p : Path) (addr r i : Nat) (v : Word) (s : State), p.val < 4 → regNumber (addr - regBase) = some r →
    accessError p true addr 4 s = false → r / 0x1000 = 0x09 → r ≠ JCT_TBL_CMD → r ≠ JCT_DT → reachInst p r s = some i →
    (writable p r i s = false → exec (.registerWrite p addr 4 v 0 0) s = .next s) ∧
    (writable p r i s = true →
      (∃ t : State, exec (.registerWrite p addr 4 v 0 0) s = .next t ∧
        (∀ b : Fin 32, bit (rg r i t) b = ((if bit (rwMask r i s) b = true then bit v b else bit (rg r i s) b) &&
          !(bit v b && bit (w32 (regRow r).w1c) b))) ∧
        (∀ r' i' : Nat, rkey r' i' ≠ rkey r i → rg r' i' t = rg r' i' s) ∧ { t with regs := s.regs } = s) ∧
      (∀ h : Word, ∃ t : State, exec (.registerWrite p addr 4 v h 0) s = .next t ∧
        ∀ b : Fin 32, bit h b = true → bit (w32 (regRow r).w1c) b = true → bit (rg r i t) b = true) ∧
      (∀ h : Word, ∃ t : State, exec (.registerWrite p addr 4 0 0 h) s = .next t ∧
        ∀ b : Fin 32, bit h b = true → bit (w32 (regRow r).w1c) b = true → bit (rg r i t) b = false))) ∧
  (∀ (p : Path) (addr size : Nat) (v : Word) (s : State), size ≠ 4 ∨ addr % 4 ≠ 0 ∨ addr < regBase →
    exec (.registerWrite p addr size v 0 0) s = .next s)
end

