-- ==== Sys2Proof/Laws/Lanes.lean ====
section
/-! SUPPORT. The lanes' shared operations: registers, issue, retirement, loads, stores and faults. -/

set_option Elab.async false

namespace Sys2Proof.Machine

open Sys2Proof

/-! ### Registers (R138) -/

@[simp] theorem getG_zero (ln : LaneState) : getG 0 ln = 0 := rfl
@[simp] theorem setG_zero (v : Word) (ln : LaneState) : setG 0 v ln = ln := rfl

theorem getG_setG (r rd : Nat) (v : Word) (ln : LaneState) :
    getG r (setG rd v ln) = if r = rd ∧ r ≠ 0 then v else getG r ln := by
  unfold getG setG
  by_cases h0 : r = 0
  · simp [h0]
  · by_cases hd : rd = 0
    · have : ¬ r = rd := by omega
      simp [h0, hd]
    · by_cases he : r = rd
      · subst he; simp [h0, sget_sset_same]
      · simp [h0, hd, he, sget_sset_other _ _ _ _ _ _ he]

theorem getV_setV (r vd : Nat) (v : VWord) (ln : LaneState) :
    getV r (setV vd v ln) = if r = vd then v else getV r ln := by
  unfold getV setV
  by_cases he : r = vd
  · subst he; simp [sget_sset_same]
  · simp [he, sget_sset_other _ _ _ _ _ _ he]

@[simp] theorem getV_setG (r rd : Nat) (v : Word) (ln : LaneState) : getV r (setG rd v ln) = getV r ln := by
  unfold setG; split <;> rfl
@[simp] theorem getG_setV (r vd : Nat) (v : VWord) (ln : LaneState) : getG r (setV vd v ln) = getG r ln := rfl
@[simp] theorem setG_pc (rd : Nat) (v : Word) (ln : LaneState) : (setG rd v ln).pc = ln.pc := by unfold setG; split <;> rfl
@[simp] theorem setG_v (rd : Nat) (v : Word) (ln : LaneState) : (setG rd v ln).v = ln.v := by unfold setG; split <;> rfl
@[simp] theorem setG_run (rd : Nat) (v : Word) (ln : LaneState) : (setG rd v ln).run = ln.run := by unfold setG; split <;> rfl
@[simp] theorem setG_job (rd : Nat) (v : Word) (ln : LaneState) : (setG rd v ln).job = ln.job := by unfold setG; split <;> rfl
@[simp] theorem setG_queue (rd : Nat) (v : Word) (ln : LaneState) : (setG rd v ln).queue = ln.queue := by
  unfold setG; split <;> rfl
@[simp] theorem setG_inbox (rd : Nat) (v : Word) (ln : LaneState) : (setG rd v ln).inbox = ln.inbox := by
  unfold setG; split <;> rfl
@[simp] theorem setV_pc (vd : Nat) (v : VWord) (ln : LaneState) : (setV vd v ln).pc = ln.pc := rfl
@[simp] theorem setV_g (vd : Nat) (v : VWord) (ln : LaneState) : (setV vd v ln).g = ln.g := rfl
@[simp] theorem setV_run (vd : Nat) (v : VWord) (ln : LaneState) : (setV vd v ln).run = ln.run := rfl
@[simp] theorem retire_pc (ln : LaneState) : (retire ln).pc = ln.pc + 4 := rfl
@[simp] theorem retire_g (ln : LaneState) : (retire ln).g = ln.g := rfl
@[simp] theorem retire_v (ln : LaneState) : (retire ln).v = ln.v := rfl
@[simp] theorem retire_run (ln : LaneState) : (retire ln).run = ln.run := rfl
@[simp] theorem retire_job (ln : LaneState) : (retire ln).job = ln.job := rfl
@[simp] theorem retire_queue (ln : LaneState) : (retire ln).queue = ln.queue := rfl
@[simp] theorem retire_inbox (ln : LaneState) : (retire ln).inbox = ln.inbox := rfl
@[simp] theorem getG_retire (r : Nat) (ln : LaneState) : getG r (retire ln) = getG r ln := rfl
@[simp] theorem getV_retire (r : Nat) (ln : LaneState) : getV r (retire ln) = getV r ln := rfl

/-! ### Issue (R139) -/

theorem issue_taken (l : Nat) (w : Word) (f : State → State) (s : State) (h : laneIssues l w s = true) :
    issue l w f s = f s := by simp [issue, h]

theorem issue_ignored (l : Nat) (w : Word) (f : State → State) (s : State) (h : laneIssues l w s = false) :
    issue l w f s = s := by simp [issue, h]

/-- An instruction that changes only its lane, when its lane issues it. -/
theorem laneOp_taken (l : Nat) (w : Word) (f : LaneState → LaneState) (s : State) (h : laneIssues l w s = true) :
    laneOp l w f s = setLane l (retire (f (lane l s))) s := issue_taken l w _ s h

/-- Writing the lane that is there changes nothing else. -/
theorem setLane_setLane_lane (l : Nat) (x : LaneState) (s : State) : lane l (setLane l x s) = x := lane_setLane l x s

/-! ### Loads and stores (R147) -/

/-- An aligned load whose address is served reads what the lane sees there. -/
theorem loadOp_served (l : Nat) (w addr : Word) (len : Nat) (ans : MemAnswer) (f : Bytes → LaneState → LaneState)
    (s : State) (h : laneIssues l w s = true) (ha : addr.toNat % len = 0)
    (hr : answerCause (laneRef l addr len false s) ans s = none) :
    loadOp l w addr len ans f s =
      let v := laneSees l (laneRef l addr len false s) (noteRef (laneRef l addr len false s) ans s)
      setLane l (retire (f (rdBytes (laneRef l addr len false s).addr len v.2) (lane l v.1))) v.1 := by
  unfold loadOp
  rw [issue_taken _ _ _ _ h]
  simp [ha, hr]

/-- Where no store of another lane is under way, a lane sees the committed memory and its own buffered writes (R148). -/
theorem laneSees_settled (l : Nat) (r : LaneRef) (s : State)
    (h : (flightsOf (l / 16) s).all (fun x => x.lane = l) = true) : laneSees l r s = (s, laneView l s) := by
  unfold laneSees
  cases r <;> simp_all

/-- A misaligned access faults with cause 3 at its address. -/
theorem loadOp_misaligned (l : Nat) (w addr : Word) (len : Nat) (ans : MemAnswer) (f : Bytes → LaneState → LaneState)
    (s : State) (h : laneIssues l w s = true) (ha : addr.toNat % len ≠ 0) :
    loadOp l w addr len ans f s = faultAt l 3 addr s := by
  unfold loadOp
  rw [issue_taken _ _ _ _ h]
  simp [ha]

theorem storeOp_misaligned (l : Nat) (w addr : Word) (d : Bytes) (ans : MemAnswer) (s : State)
    (h : laneIssues l w s = true) (ha : addr.toNat % d.length ≠ 0) : storeOp l w addr d ans s = faultAt l 3 addr s := by
  unfold storeOp
  rw [issue_taken _ _ _ _ h]
  simp [ha]

/-- Keeping fetched words changes the lane and the count of draws only (R149). -/
theorem keepFetched_frame (l a len : Nat) (s : State) :
    ∃ x d, keepFetched l a len s = { s with lanes := x, draws := d } := by
  unfold keepFetched
  dsimp only
  split
  · exact ⟨s.lanes, s.draws, rfl⟩
  · refine forEach_keeps (fun t => ∃ x d, t = { s with lanes := x, draws := d }) _ _ _ ?_ ⟨s.lanes, s.draws + 1, rfl⟩
    rintro k - t ⟨x, d, rfl⟩
    split
    · exact ⟨_, _, rfl⟩
    · exact ⟨x, d, rfl⟩

/-- A store to local memory leaves every byte outside it as it was. -/
theorem storeLocal_outside (l a c : Nat) (d : Bytes) (s : State)
    (h : c < localAddr l + a ∨ localAddr l + a + d.length ≤ c) : rdByte c (storeLocal l a d s) = rdByte c s := by
  unfold storeLocal
  rw [rdByte_wrBytes_outside _ _ _ _ h]
  obtain ⟨x, y, hx⟩ := keepFetched_frame l a d.length s
  rw [hx]; rfl

/-- What a memory's answer records changes registers and the fault collector only. -/
theorem noteRef_frame (r : LaneRef) (ans : MemAnswer) (s : State) :
    ∃ x q, noteRef r ans s = { s with regs := x, flt := q } := by
  cases r
  · exact noteAnswer_frame _ _ s
  · exact noteAnswer_frame _ _ s
  · exact noteAnswer_frame _ _ s
  · exact causes_refl s

/-- The bytes of a buffered write change memory only. -/
theorem applyStepWrite_frame (w : StepWrite) (s : State) : ∃ x, applyStepWrite w s = { s with mem := x } := by
  cases w
  · exact ⟨_, wrBytes_frame _ _ s⟩
  · exact ⟨_, wrBytes_frame _ _ s⟩

/-- A lane's view differs from the block in memory only (R128). -/
theorem laneView_frame (l : Nat) (s : State) : ∃ x, laneView l s = { s with mem := x } := by
  unfold laneView
  split
  · refine forEach_keeps (fun t => ∃ x, t = { s with mem := x }) _ _ s ?_ ⟨s.mem, rfl⟩
    rintro k - t ⟨x, rfl⟩
    obtain ⟨y, hy⟩ := applyStepWrite_frame k { s with mem := x }
    exact ⟨y, hy⟩
  · exact ⟨s.mem, rfl⟩

/-! ### Faults (R132) -/

/-- A job's end returns its frame buffer: districts only. -/
theorem freeBuffer_frame (l : Nat) (s : State) : ∃ x, freeBuffer l s = { s with districts := x } := by
  unfold freeBuffer
  split
  · exact ⟨s.districts, rfl⟩
  · exact ⟨_, rfl⟩

end Sys2Proof.Machine
end

