-- ==== Sys2Proof/Machine/Pins.lean ====
section
/-! DEFINITION. The balls whose level or state the block decides (R30, R332, R334, R450, R471, R472). -/

set_option Elab.async false

namespace Sys2Proof.Machine

open Sys2Proof

/-- What a ball does. -/
inductive Ball where
  | low | high | released
deriving DecidableEq, Repr

/-- The supplies that are present (R433): VDD_AO alone, or every rail. No command changes them. -/
inductive Supplies where
  | aoOnly | full
deriving DecidableEq, Repr

/-- An output that is high impedance with VDD_AO alone and in a reset of R436, and driven otherwise (R472). -/
def drivenBall (v : Supplies) (level : Bool) (s : State) : Ball :=
  if v = .aoOnly ∨ s.sys.phase = .reset then .released else if level then .high else .low

/-- An open-drain output. -/
def drainBall (low : Bool) : Ball := if low then .low else .released

/-- SAFE_n (R332): the AO domain pulls it low from power-on until a release. -/
def safeBall (v : Supplies) (s : State) : Ball := drainBall (v == .aoOnly || s.flt.safeLow)

/-- FAULT_n (R334). -/
def faultBall (v : Supplies) (s : State) : Ball := drainBall (v == .full && faultLow s)

/-- Whether a pulse of `ns` that began at an elapsed time still lasts. -/
def lasting (began : Option Nat) (ns : Nat) (s : State) : Bool := began.any fun t => decide (elapsedNs s < t + ns)

/-- WDOG: low for 1 ms from each expiry of the watchdog (R450). -/
def wdogBall (v : Supplies) (s : State) : Ball := drainBall (v == .full && lasting s.sys.wdogLow 1000000 s)

/-- GPIO05: high while IMG_STAT.state reads running (R471). -/
def gpio05 (v : Supplies) (s : State) : Ball := drivenBall v (imgState s == 1) s

/-- GPIO06: high while TWN_STAT.state reads active (R471). -/
def gpio06 (v : Supplies) (s : State) : Ball := drivenBall v (rgF TWN_STAT 0 2 0 s == 2) s

/-- GPIO07: high for 1 us from each wrap of Milepost (R30, R471). -/
def gpio07 (v : Supplies) (s : State) : Ball := drivenBall v (lasting s.mp.wrapAt 1000 s) s

/-- QSPI_RST_n: low while the device is in a reset of R436 (R471). -/
def flashResetBall (s : State) : Ball := if s.sys.phase = .reset then .low else .high

/-- What a pair of a field port or the transmitter of a trunk does: it is high impedance, idle, or carries its signal. -/
inductive LineBalls where
  | released | idle | active
deriving DecidableEq, Repr

/-- The pair of a field port: per mode while an image runs, else high impedance, where only surges are counted (R171, R472). -/
def fieldPair (v : Supplies) (p : Nat) (s : State) : LineBalls :=
  if v = .aoOnly ∨ s.sys.phase ≠ .running ∨ rgF FPA_PORT_CFG p 1 0 s = 3 ∨ ¬ bit (rg FPA_PORT_CFG p s) 8 then .released
  else .active

/-- The transmitter of a trunk: idle in a reset, T0 and T1 active in the bare state, per role while an image runs. DEDUCED: in
hold it is idle, since the trunk's function stays in reset (R442). -/
def trunkTx (v : Supplies) (t : Nat) (s : State) : LineBalls :=
  if v = .aoOnly then .released
  else if inReset (128 + t) s then .idle
  else
    match s.sys.phase with
    | .reset | .hold => .idle
    | .bare => if t < 2 then .active else .idle
    | .running => if trunkRole t s = roleUnused then .idle else .active

/-- The balls of a DDR4 channel: RESET_n and CKE low, self-refresh, or active. -/
inductive DdrBalls where
  | released | held | selfRefresh | active
deriving DecidableEq, Repr

/-- The balls of a channel (R446, R472): a trained one refreshes itself in the bare state, in hold and in its own reset. DESIGN
CHOICE: the balls of a channel that is absent or has failed stay as a reset leaves them. -/
def ddrBalls (v : Supplies) (c : Nat) (s : State) : DdrBalls :=
  let st := rgF MEM_STAT c 2 0 s
  if v = .aoOnly then .released
  else if s.sys.phase = .reset ∨ (st ≠ 2 ∧ st ≠ 3) then .held
  else if s.sys.phase = .running ∧ st = 2 then .active
  else .selfRefresh

end Sys2Proof.Machine
end

