-- ==== Sys2Proof/Tests/Slice0.lean ====
section
/-! SUPPORT. Tests on fixed values, a witness of the hypotheses of each statement, and an ill-formed command for each
check of well-formedness. Expected values are worked out from the rules that the statements name. -/

set_option Elab.async false

namespace Sys2Proof.Tests

open Sys2Proof Sys2Proof.Machine

/-- The block after a command that answers a next state; as it was otherwise. -/
def after (c : Instr) (s : State) : State :=
  match exec c s with
  | .next t => t
  | _ => s

/-- The reset state with one register written. -/
def withReg (r i : Nat) (v : Word) : State := setRg r i v State.reset

/-- Both die links are up. -/
def diesUp (s : State) : State := setRg MEM_STAT 2 2 (setRg MEM_STAT 3 2 s)

/-! ### Milepost and reset -/

/-- R22: one edge adds 4.0 ns. -/
theorem test_milepost_tick : (after .milepostTick State.reset).mp.counter = 0x400000000 := by decide +kernel

theorem witness_NoCommandChangesTheQueue :
    (step { State.reset with pending := [.milepostTick, .xoLoss] } = .next (after .milepostTick
      { State.reset with pending := [.xoLoss] })) ∧ State.wf State.reset = true := ⟨rfl, by decide +kernel⟩

theorem witness_EveryStepKeepsTheCanonicalForms :
    State.wf State.reset = true ∧ step { State.reset with pending := [.xoLoss] } = .next (after .xoLoss State.reset) ∧
    State.wf (after .xoLoss State.reset) = true := ⟨by decide +kernel, rfl, by decide +kernel⟩

theorem witness_MilepostEdgesAdvanceTheCounter :
    bit (rg MPT_STATUS 0 State.reset) 1 = false ∧
    bit (rg MPT_STATUS 0 (withReg MPT_STATUS 0 2)) 1 = true ∧
    (State.reset.tpk.gates.all fun g => g.2.stepDue.isNone) = true ∧ bit (rg MPT_STATUS 0 (withReg MPT_STATUS 0 4)) 2 = true ∧ bit (rg MPT_STATUS 0 (withReg MPT_STATUS 0 4)) 1 = false ∧
    (after .stepTaken (withReg MPT_STATUS 0 2)).mp.counter = 0 := by decide +kernel

def ts2State : State := setTs2 3 [⟨1, 2, 3, 4⟩] (withReg 0x01000 4 131)

theorem witness_MilepostCommandsStageLatchAndPublish :
    servoOwner 3 State.reset = true ∧ inReset 199 State.reset = false ∧ servoOwner 4 State.reset = false ∧
    incrOk (4 * 2 ^ 32 + 0) = true ∧ bit (1 : Word) 0 = true ∧ bit (rg MPT_STATUS 0 State.reset) 0 = false ∧
    winOf 4 MPT_TS2_TIME ts2State = some (128 + 3) ∧ ts2 3 ts2State = [⟨1, 2, 3, 4⟩] ∧
    ts2 3 (after (.mptTs2TimeRead 4) ts2State) = [] ∧
    bit (rg MPT_CAUSE 0 (after (.mptFwSetWrite 3 4) State.reset)) 9 = true ∧
    (rdWord supervisorBase (after (.extTimePublish 5 6 true false) State.reset)).toNat % 2 = 0 := by decide +kernel

theorem witness_IncrementsOutOfRangeAreRefused :
    let s := { State.reset with mp := { State.reset.mp with stagedFrac := 0x04000001 } }
    servoOwner 0 s = true ∧ inReset 199 s = false ∧ 0x404000000 < (4 : Word).toNat % 256 * 2 ^ 32 + s.mp.stagedFrac.toNat ∧
    bit (rg MPT_CAUSE 0 s) 3 = false ∧ srcSticky 1443 (after (.mptIncrIntWrite 0 4) s) = true ∧
    rgF MPT_REFUSED 0 31 16 (after (.mptIncrIntWrite 0 4) s) = 1 ∧
    (3 : Word).toNat % 256 * 2 ^ 32 + 0xFC000000 = 0x3FC000000 := by decide +kernel

/-! ### Roads -/

theorem witness_RoadCommandsMoveTheRoadsState :
    let clk := withReg ROA_SRC 5 1
    let obs := setRg ROA_TIMEOUT 63 0x00010001 (withReg ROA_SRC 63 2)
    let coast := setRoad 63 { state := .coasting } { obs with mp := { obs.mp with counter := 0x0BEBC2010000000000000000#64 } }
    inReset 200 clk = false ∧ (road 5 clk).state = .idle ∧ roadKind 5 clk = 1 ∧ roadKind 63 obs ≠ 1 ∧
    (road 5 (after (.roadStart 5) clk)).state = .tracking ∧ (road 63 (after (.roadStart 63) obs)).state = .acquiring ∧
    rgF ROA_STATE 63 7 4 (after (.roadStart 63) obs) = 1 ∧
    (road 63 (after (.roadStop 63) coast)).state = .idle ∧ rgF ROA_STATE 63 7 4 (after (.roadStop 63) coast) = 2 ∧
    2 ≤ roadKind 63 coast ∧ ingestedNow 63 coast = none ∧ (road 63 (after (.roadReacquire 63) coast)).state = .acquiring ∧
    rgF ROA_STATE 63 7 4 (after (.roadReacquire 63) coast) = 11 := by decide +kernel

/-- R57, R49, R54: at 1,000 ns a HELD road with a timeout of 1 us coasts, and a COASTING one with a limit of 1 us is lost. -/
theorem witness_RoadTimeouts :
    let s0 := setRg ROA_TIMEOUT 63 0x00010001 (withReg ROA_SRC 63 2)
    let s1 := { s0 with mp := { s0.mp with counter := 1000#32 ++ 0#32 } }
    let held := setRoad 63 { state := .held } s1
    let coast := setRoad 63 { state := .coasting } s1
    roadKind 63 s1 ≠ 1 ∧ (road 63 held).state = .held ∧ (obsTimeoutNs 63 held : Int) ≤ diff32 (now held) (road 63 held).lastTime ∧
    (road 63 (after (.obsTimeout 63) held)).state = .coasting ∧ rgF ROA_STATE 63 7 4 (after (.obsTimeout 63) held) = 4 ∧
    (road 63 (after (.coastLimitExpiry 63) coast)).state = .lost ∧
    rgF ROA_STATE 63 7 4 (after (.coastLimitExpiry 63) coast) = 6 := by decide +kernel

/-- R58: a stop on the edge of an observation discards it; a reacquire has it initialise the road again. -/
theorem test_stop_discards_the_observation_of_its_edge :
    let s := setRoad 7 { state := .acquiring, initPending := true }
      { withReg ROA_SRC 7 2 with ingest := [⟨7, 2, 0, 3, 5, false, false, false, 0, []⟩] }
    let t := after .observationIngest s
    let u := after (.roadStop 7) t
    let v := after (.roadReacquire 7) t
    rg ROA_CNT_ACC 7 t = 1 ∧ (ingestedNow 7 t).isSome = true ∧ (road 7 u).state = .idle ∧ rg ROA_CNT_ACC 7 u = 0 ∧
    rg ROA_CNT_REJ 7 u = 0x10000 ∧ rgF ROA_HIST 7 28 16 u = 1 ∧
    (road 7 v).state = .acquiring ∧ (road 7 v).initPending = false ∧ rg ROA_CNT_ACC 7 v = 1 := by decide +kernel

def anObservation (kind : Nat) : Observation := ⟨7, kind, 0, 3, 5, false, false, false, 0, []⟩

theorem witness_RoadsTakeObservationsAndPublish :
    let s0 := withReg ROA_SRC 7 2
    let wait := setRoad 7 { state := .acquiring, initPending := true } { s0 with ingest := [anObservation 2] }
    let stale := { s0 with ingest := [anObservation 3] }
    let lap := setRoad 7 { state := .tracking, period := 1000 }
      { withReg ROA_SRC 7 1 with mp := { State.reset.mp with counter := 1000#32 ++ 0#32 } }
    (anObservation 3).srcKind ≠ roadKind 7 stale ∧ bit (rg ROA_CAUSE 7 (after .observationIngest stale)) 2 = true ∧
    (anObservation 2).srcKind = roadKind 7 wait ∧ sub32 (anObservation 2).time (now wait) < 1000001 ∧
    (road 7 (after .observationIngest wait)).p = BitVec.ofNat 64 (3 * 2 ^ 48 + 5 * 2 ^ 16) ∧
    (road 7 (after .observationIngest wait)).initPending = false ∧ rgF ROA_CNT_ACC 7 31 0 (after .observationIngest wait) = 1 ∧
    roadKind 7 lap = 1 ∧ (road 7 lap).period ≤ (road 7 lap).countAt (now lap) ∧
    (road 7 (after (.clockRoadLap 7) lap)).period = max 1 (rg ROA_PERIOD 7 lap).toNat ∧
    (road 7 (after .roadPublish lap)).state ≠ .idle ∧
    winOf 0 ROA_SRC State.reset = some 0 ∧ writable 0 ROA_SRC 0 State.reset = true ∧
    winOf 4 ROA_PERIOD (withReg 0x02000 4 63) = some 63 ∧ writable 4 ROA_PERIOD 63 State.reset = true ∧
    rg ROA_PERIOD 63 (after (.roaPeriodWrite 4 4000000000) (withReg 0x02000 4 63)) = 4000000000 ∧
    rg ROA_PERIOD 63 (after (.roaPeriodWrite 4 999) (withReg 0x02000 4 63)) = rg ROA_PERIOD 63 State.reset ∧
    winOf 4 ROA_POS_LAP (withReg 0x02000 4 63) = some 63 := by decide +kernel

def roadEntry (m : Nat) (seq : Nat) : Bytes := [1, 0, 0, 0] ++ (beBytes 1 m ++ beBytes 1 2 ++ beBytes 2 seq
  ++ beBytes 4 9 ++ beBytes 8 10 ++ beBytes 6 11 ++ beBytes 2 0 ++ beBytes 4 12 ++ zeros 4)

theorem witness_RoadStateEntriesAreQueuedSentAndTaken :
    let out := setRg ROA_CTRL 9 0x10 (withReg ROA_RSF 0 1)
    let sent := setRoad 9 { queuedEntry := [1] } State.reset
    let w := setRoad 20 { state := .tracking } (setRg HIE_MGR_HI 0 0x80000000 (setRg HIE_CFG 0 0x80000000
      (withReg ROA_SRC 20 (5 + 63 * 256))))
    rgF ROA_RSF 0 15 0 out ≠ 0 ∧ bit (rg ROA_CTRL 9 out) 4 = true ∧
    (road 9 (after .roadStatePeriodic out)).queuedEntry = (road 9 out).entryBytes ∧
    (road 9 sent).queuedEntry ≠ [] ∧ (road 9 (after .roadStateSend sent)).queuedEntry = [] ∧
    rgF HIE_CFG 0 31 30 w = 2 ∧ stepMode w = false ∧ inReset 200 w = false ∧
    followers 63 w = [20] ∧ (road 20 w).lastSeq = none ∧ ((roadEntry 63 5).drop 4).length = 32 ∧
    beAt ((roadEntry 63 5).drop 4) 0 1 = 63 ∧ rgF HIE_CFG 0 31 30 (setRg HIE_CFG 0 0 w) = 0 ∧
    rgF ROA_CNT_REJ 20 31 16 (after (.roadStateReceive 1 (roadEntry 63 5)) (setRg HIE_CFG 0 0 w)) = 1 ∧
    w.ingestEdge ≠ w.mp.tclk + 1 ∧ sub32 9 (now { w with mp := { w.mp with counter := 9#32 ++ 0#32 } }) < 1000001 ∧
    (let t := after .observationIngest (enqueueObservation (entryObservation ((roadEntry 63 5).drop 4) 20)
       { w with mp := { w.mp with counter := 9#32 ++ 0#32 } })
     (road 20 t).p = 10 ∧ (road 20 t).tS = 9 ∧ (road 20 t).lastSeq = some 5 ∧ (road 20 t).state = .tracking) := by
  decide +kernel

/-- R377: an entry from the manager address A is one of the manager's. -/
theorem witness_EntriesComeFromAManagerAddress : isManagerAddr Config.managerA = true := by simp [isManagerAddr]

/-- R58: an observation that is about to be applied holds a timeout of its edge back; R47: one leaves on each edge. -/
theorem witness_RoadsGiveWayToObservations :
    let s := setRg ROA_TIMEOUT 63 0x00010001 (withReg ROA_SRC 63 2)
    let due := setRoad 63 { state := .held, tS := 3 } { s with
      mp := { s.mp with counter := 1000#32 ++ 0#32 }, ingest := [⟨63, 2, 900, 0, 1, false, false, false, 0, []⟩] }
    let young := setRoad 63 { state := .acquiring } s
    roadKind 63 due ≠ 1 ∧ applyComes 63 due = true ∧ (road 63 (after (.obsTimeout 63) due)).state = .held ∧
    applyComes 63 young = false ∧ (road 63 young).appliedSince = false ∧
    ¬ ((obsTimeoutNs 63 young + coastLimitNs 63 young : Nat) : Int) ≤ diff32 (now young) (road 63 young).entered ∧
    { s with ingestEdge := 1, ingest := [anObservation 2] }.ingestEdge = s.mp.tclk + 1 ∧
    winOf 0 ROA_SRC State.reset = some 0 ∧ srcBad 2 3 = true ∧
    rg ROA_SRC 63 (after (.roaSrcWrite 4 0x303) (withReg 0x02000 4 63)) = 0x303 := by decide +kernel

/-! ### Milestones -/

/-- A record of road 5 with target 8, armed, one-shot, without an action. -/
def oneShot : Rec := BitVec.ofNat 128 (8 + 5 * 2 ^ 48 + 2 ^ 54 + 2 ^ 64)

/-- Road 5 passes position 8 on this edge, with comparison enabled. -/
def passing : State := setRecWord 16383 oneShot (setRoad 5 { state := .tracking, prev := 7, pub := 8 } (withReg MST_CTRL 0 1))

theorem witness_MilestonesAreCommittedComparedAndFired :
    let fire := setRecRun 16383 { pending := true } passing
    winOf 7 MST_COMMIT (withReg 0x03000 7 16383) = some 16383 ∧ writable 7 MST_COMMIT 16383 State.reset = true ∧
    Rec.bad (stagedRecord 7 State.reset) = true ∧
    bit (rg MST_CAUSE 0 (after (.mstCommit 7 1) (withReg 0x03000 7 16383))) 0 = true ∧
    writable 0 MST_CTRL 0 State.reset = true ∧ mstEnable (after (.mstCtrlEnableWrite 0 1) State.reset) = true ∧
    passing.cmpEdge ≠ passing.mp.tclk + 1 ∧ mstEnable passing = true ∧ passing.enableReturn = none ∧
    Rec.armed (recWord 16383 passing) = true ∧ (road (Rec.road (recWord 16383 passing)) passing).state.comparing = true ∧
    stepOrdered (recWord 16383 passing) passing = false ∧ reached (recWord 16383 passing) 7 8 = some false ∧
    (recRun 16383 (after .milestoneCompare passing)).pending = true ∧
    (after .milestoneCompare passing).cmpEdge = (after .milestoneCompare passing).mp.tclk + 1 ∧
    nextFiring fire = some (5, 16383) ∧ Rec.action (recWord 16383 fire) = 0 ∧ Rec.oneShot (recWord 16383 fire) = true ∧
    Rec.armed (recWord 16383 (after (.milestoneFire .ok) fire)) = false ∧
    rgF MST_CNT_FIRED 0 31 0 (after (.milestoneFire .ok) fire) = 1 ∧ nextFiring passing = none := by decide +kernel

/-- R68, R75: a record staged by path 7 waits for the next edge, and changes on that edge's comparison. -/
theorem witness_MilestoneCommitsTakeEffectOnTheNextEdge :
    let staged := setRg MST_CTRL 0 0 (setRg (MST_REC + 8) 7 1 (setRg (MST_REC + 4) 7 0x450000 (setRg MST_REC 7 8
      (withReg 0x03000 7 16383))))
    let taken := after (.mstCommit 7 1) staged
    let next := { taken with mp := { taken.mp with tclk := 1 } }
    stagedRecord 7 staged = oneShot ∧ Rec.bad (Rec.normal (stagedRecord 7 staged)) = false ∧ taken.commits.length = 1 ∧
    recWord 16383 taken = 0 ∧ 0 < next.mp.tclk ∧ next.cmpEdge ≠ next.mp.tclk + 1 ∧ inReset 201 next = false ∧
    mstEnable next = false ∧ recWord 16383 (after .milestoneCompare next) = oneShot ∧
    (after .milestoneCompare next).commits = [] ∧ passing.commits = [] ∧
    (after (.mstCtrlEnableWrite 0 1) (withReg MST_CTRL 0 0)).enableReturn = some 0 ∧
    (after (.mstCtrlEnableWrite 0 0) passing).enableReturn = none := by decide +kernel

theorem witness_PlacementSlotsAndEventLinesAct :
    let p := withReg 0x03000 2 0xFF800000
    let m := setSlotRun 511 { markerLanes := [1023] } State.reset
    let due (dst : Word) (edge : Nat) := { withReg MST_EVT_DST 511 dst with
      mp := { State.reset.mp with tclk := 2 }, pulses := [⟨511, edge, 0, 0⟩] }
    let arm := setRecWord 3 (Rec.setArmed oneShot false) (due (0x02000003) 0)
    winOf 2 MST_PLC_CUR p = some 511 ∧ writable 2 MST_PLC_CUR 511 p = true ∧
    rg MST_PLC_CUR 511 (after (.mstPlcCurWrite 2 0xFFFFFFFF) p) = 0xFF07FF ∧
    (slotRun 511 m).markerLanes = [1023] ∧ (lane 1023 m).queue.length < 16 ∧
    (lane 1023 (after (.drainMarkerEnqueue 511) m)).queue = [.marker 511 0 0] ∧
    writable 0 MST_SW_PULSE 0 State.reset = true ∧ (after (.mstSwPulse 0 511) State.reset).pulses = [⟨511, 0, 0, 0⟩] ∧
    takePulse 511 (due 0 1).pulses = some (⟨511, 1, 0, 0⟩, []) ∧ (due 0 1).mp.tclk < 1 + 2 ∧
    rgF MST_EVT_DST 511 26 24 (due 0 0) = 0 ∧ (after (.eventLineDeliver 511) (due 0 0)).pulses = [] ∧
    rgF MST_EVT_DST 511 26 24 arm = 2 ∧ rgF MST_EVT_DST 511 13 0 arm = 3 ∧ Rec.armed (recWord 3 arm) = false ∧
    Rec.bad (recWord 3 arm) = false ∧ roadCompares 5 arm = false ∧
    recWord 3 (after (.eventLineDeliver 511) arm) = oneShot := by decide +kernel

/-! ### Mains and shafts -/

/-- The front end runs; channel 0 and 7 are enabled at gain 1.0. -/
def mainsOn : State := diesUp (setRg MFE_BUF_CFG 0 8 (setRg MFE_CH_CFG 7 1 (setRg MFE_CH_CFG 0 1 (withReg MFE_CTRL 0 1))))

theorem witness_MainsSamplesAreStoredAndTracked :
    let t := after (.mainsSampleSet 0 [100, 0, 0, 0, 0, 0, 0, 0x800000] 0xFF) mainsOn
    let drop := setTracker 2 { state := .running, belowSince := some 0 } { withReg MFE_TRK_CFG 2 1 with
      mp := { State.reset.mp with counter := 12000000#32 ++ 0#32 } }
    inReset 202 mainsOn = false ∧ bit (rg MFE_CTRL 0 mainsOn) 0 = true ∧ dieUp 0 mainsOn = true ∧ mainsOn.mfeDiscard = 0 ∧
    stepMode mainsOn = false ∧ 8 ≤ rgF MFE_BUF_CFG 0 4 0 mainsOn ∧ t.mfeSeq = 1 ∧ rg MFE_BUF_WR 0 t = 1 ∧
    rg MFE_CH_LAST 7 t = w32 (wrapI 32 (calibrate 0x800000 (rg MFE_CH_OFFSET 7 mainsOn) (rg MFE_CH_GAIN 7 mainsOn)).1) ∧
    rg MFE_CH_LAST 1 t = 0 ∧
    (tracker 2 drop).belowSince = some 0 ∧ bit (rg MFE_TRK_CFG 2 drop) 0 = true ∧ (tracker 2 drop).state ≠ .dropout ∧
    12000000 ≤ sub32 (now drop) 0 ∧ (tracker 2 (after (.mainsDropout 2) drop)).state = .dropout ∧
    bit (rg MFE_CAUSE 0 (after (.mainsDropout 2) drop)) 3 = true ∧
    (after (.modulatorStuck 7) (diesUp State.reset)).mfeStuck = 128 ∧
    winOf 0 MFE_TRK_CFG (withReg 0x04000 0 0x200) = some 2 ∧ writable 0 MFE_TRK_CFG 2 State.reset = true ∧
    bit (0xF6 : Word) 0 = false ∧ (tracker 2 (after (.mfeTrkDisable 0 0xF6) (withReg 0x04000 0 0x200))).state = .off ∧
    rg MFE_TRK_CFG 2 (after (.mfeTrkDisable 0 0xF6) (withReg 0x04000 0 0x200)) = 0xF6 := by decide +kernel

/-- Channel 15 in quadrature mode with 4 counts to a lap. -/
def quadrature : State := setRg SHF_CPR 15 4 (withReg SHF_CFG 15 1)

/-- Channel 15 in SSI mode: 12 single-turn bits. -/
def ssi : State := setRg SHF_SSI 15 0x3000 (withReg SHF_CFG 15 2)

theorem witness_ShaftChannelsFollowTheirInputs :
    let ix := setRg SHF_CFG 15 0x11 quadrature
    let done := setShaft 15 { referenced := true } ix
    let idle := setRg SHF_OBS 15 0x10000 (setShaft 15 { referenced := true } { quadrature with
      mp := { State.reset.mp with counter := 1000#32 ++ 0#32 } })
    let busy := setShaft 15 { ssiBusy := true } ssi
    let win := withReg 0x05000 7 15
    inReset 203 quadrature = false ∧ shfMode 15 quadrature = 1 ∧ cprBad (shfCpr 15 quadrature) = false ∧
    stepMode quadrature = false ∧ (shaft 15 quadrature).a ≠ false ∧ (shaft 15 quadrature).b = true ∧
    (shaft 15 (after (.quadratureChange 15 false true 0) quadrature)).count ≠ (shaft 15 quadrature).count ∧
    bit (rg SHF_CAUSE 15 (after (.quadratureChange 15 false false 0) quadrature)) 0 = true ∧
    rgF SHF_CFG 15 5 4 ix ≠ 0 ∧ bit (rg SHF_CFG 15 ix) 6 = false ∧ (shaft 15 ix).referenced = false ∧
    (shaft 15 (after (.shaftIndex 15 0) ix)).referenced = true ∧ (shaft 15 done).referenced = true ∧ (shaft 15 done).count = 0 ∧
    shfReferenced 15 idle = true ∧ rgF SHF_OBS 15 31 16 idle ≠ 0 ∧
    rgF SHF_OBS 15 31 16 idle * 1000 ≤ sub32 (now idle) (shaft 15 idle).since ∧
    (shaft 15 (after (.shaftIdleObs 15) idle)).idleAfter = true ∧
    shfMode 15 ssi = 2 ∧ (shaft 15 ssi).ssiBusy = false ∧ (shaft 15 ssi).ssiStart = none ∧ ssiBad 15 ssi = false ∧
    (shaft 15 (after (.ssiFrameStart 15) ssi)).ssiBusy = true ∧
    (shaft 15 busy).ssiDiscard = false ∧ ssiMt 15 busy = 0 ∧ ssiErr 15 busy = 0 ∧ bit (rg SHF_SSI 15 busy) 22 = false ∧
    (shaft 15 busy).ssiLast = none ∧ ssiSt 15 busy = 12 ∧
    (shaft 15 (after (.ssiFrameDone 15 0x801 true 0) busy)).frac = 0x80100000 ∧
    bit (rg SHF_CAUSE 15 (after (.ssiFrameDone 15 0x801 false 0) busy)) 2 = true ∧
    winOf 7 SHF_CFG win = some 15 ∧ writable 7 SHF_CFG 15 win = true ∧ winOf 7 SHF_POS_LAP win = some 15 := by
  decide +kernel

/-- R99-R104: the cases of a channel: in another mode, at a later index, and at the ends of SSI frames. -/
theorem witness_ShaftChannelsInTheirOtherCases :
    let at3 (mode : Word) := setShaft 15 { referenced := true, count := 3, lap := 7, a := false } (setRg SHF_CFG 15 mode quadrature)
    let bad := setRg SHF_SSI 15 0 ssi
    let done' (s : State) (raw : Word) := after (.ssiFrameDone 15 raw true 0) (setShaft 15 { ssiBusy := true } s)
    (shaft 15 quadrature).due = none ∧ shfMode 15 State.reset ≠ 1 ∧
    (shaft 15 (after (.quadratureChange 15 true true 0) State.reset)).a = true ∧
    shfCpr 15 (at3 0x11) ≤ 2 * (shaft 15 (at3 0x11)).count ∧
    (shaft 15 (after (.shaftIndex 15 0) (at3 0x11))).count = 3 ∧ rgF SHF_CNT 15 15 0 (after (.shaftIndex 15 0) (at3 0x11)) = 1 ∧
    (shaft 15 (after (.shaftIndex 15 0) (at3 0x21))).count = 0 ∧ (shaft 15 (after (.shaftIndex 15 0) (at3 0x21))).lap = 8 ∧
    bit (rg SHF_CFG 15 (at3 0x51)) 6 = true ∧ (shaft 15 (at3 0x51)).a = false ∧ (after (.shaftIndex 15 0) (at3 0x51)) = at3 0x51 ∧
    ssiBad 15 bad = true ∧ bit (rg SHF_CAUSE 15 (after (.ssiFrameStart 15) bad)) 4 = true ∧
    (shaft 15 (after (.ssiFrameDone 15 0 true 0) (setShaft 15 { ssiBusy := true, ssiDiscard := true } ssi))).ssiBusy = false ∧
    ssiErr 15 (setRg SHF_SSI 15 0x103000 ssi) = 1 ∧
    bit (rg SHF_CAUSE 15 (done' (setRg SHF_SSI 15 0x103000 ssi) 0)) 3 = true ∧
    shfMode 15 (setRg SHF_CFG 15 2 quadrature) ≠ shfMode 15 quadrature ∧ cprBad (shfCpr 15 quadrature) = false ∧
    (after (.mainsSampleSet 0 [] 0) { mainsOn with mfeDiscard := 2 }).mfeDiscard = 1 := by decide +kernel

/-! ### Lanes -/

/-- Lane 1023 runs at address 0x100 and finds a word there. -/
def atWord (w : Word) (ln : LaneState) : State :=
  wrBytes (localAddr 1023 + 0x100) (leBytes 4 w.toNat) (setLane 1023 { ln with run := .running, pc := 0x100 } State.reset)

/-- A lane whose registers g1 and g2 hold two values. -/
def regs2 (x y : Word) : LaneState := setG 2 y (setG 1 x {})

theorem witness_AnInstructionNotIssuedDoesNothing :
    laneWord (.add 5 1 2 3) = some (5, encA 0 1 2 3 0) ∧ laneIssues 5 (encA 0 1 2 3 0) State.reset = false := by decide +kernel

theorem witness_LaneWordsDecodeToTheirInstruction :
    laneWord (.vld 1023 15 31 7 .noAnswer) = some (1023, encV 0x22 0 15 0 0 31 7) ∧
    legalWord (encV 0x22 0 15 0 0 31 7) = true := by decide +kernel

/-- R144, R145: what a register holds after an instruction of format A on two values. -/
def aResult (c : Instr) (w : Word) (x y : Word) : Word := getG 3 (lane 1023 (after c (atWord w (regs2 x y))))

theorem test_add_wraps : aResult (.add 1023 3 1 2) (encA 0 3 1 2 0) 0xFFFFFFFF 2 = 1 := by decide +kernel
theorem test_sltu : aResult (.sltu 1023 3 1 2) (encA 7 3 1 2 0) 1 0xFFFFFFFF = 1 := by decide +kernel
theorem test_sra_takes_five_bits : aResult (.sra 1023 3 1 2) (encA 0x0A 3 1 2 0) 0x80000000 33 = 0xC0000000 := by decide +kernel
theorem test_mulh : aResult (.mulh 1023 3 1 2) (encA 0x11 3 1 2 0) 0xFFFFFFFF 2 = 0xFFFFFFFF := by decide +kernel
theorem test_div_overflow : aResult (.div 1023 3 1 2) (encA 0x13 3 1 2 0) 0x80000000 0xFFFFFFFF = 0x80000000 := by decide +kernel
theorem test_rem_by_zero : aResult (.rem 1023 3 1 2) (encA 0x15 3 1 2 0) 7 0 = 7 := by decide +kernel
theorem test_rem_sign : aResult (.rem 1023 3 1 2) (encA 0x15 3 1 2 0) 0xFFFFFFF9 3 = 0xFFFFFFFF := by decide +kernel

theorem witness_RegisterArithmeticWritesItsResult :
    laneWord (.add 1023 31 31 31) = some (1023, encA 0 31 31 31 0) ∧
    laneIssues 1023 (encA 0 31 31 31 0) (atWord (encA 0 31 31 31 0) {}) = true := by decide +kernel

theorem witness_DivisionGivesTheTabledResults :
    laneWord (.remu 1023 0 1 2) = some (1023, encA 0x16 0 1 2 0) ∧
    laneIssues 1023 (encA 0x16 0 1 2 0) (atWord (encA 0x16 0 1 2 0) {}) = true := by decide +kernel

theorem witness_ImmediatesQueriesAndMovesWriteTheirResult :
    laneIssues 1023 (encI 1 3 1 0x8000) (atWord (encI 1 3 1 0x8000) {}) = true ∧
    getG 3 (lane 1023 (after (.addi 1023 3 1 0x8000) (atWord (encI 1 3 1 0x8000) (regs2 1 0)))) = 0xFFFF8001 ∧
    getG 3 (lane 1023 (after (.laneq 1023 3) (atWord 0xFC60000C (regs2 1 0)))) = 1023 ∧
    getV 15 (lane 1023 (after (.vsplatW 1023 15 1) (atWord (encV 0x22 7 15 0 0 1 0) (regs2 9 0)))) =
      9#32 ++ 9#32 ++ 9#32 ++ 9#32 := by decide +kernel

theorem witness_JumpsAndBranchesContinueAtTheirTarget :
    let b := atWord (encB 0x11 2 0x100000) (regs2 0 0)
    let jr (x : Word) := atWord (encA 0x20 0 1 0 0) (regs2 x 0)
    laneWord (.beqz 1023 2 0x100000) = some (1023, encB 0x11 2 0x100000) ∧ laneIssues 1023 (encB 0x11 2 0x100000) b = true ∧
    (getG 2 (lane 1023 b)).toInt = 0 ∧ (lane 1023 (after (.beqz 1023 2 0x100000) b)).pc = 0x100 - 0x400000 ∧
    getG 5 (lane 1023 (after (.j 1023 5 1) (atWord (encB 0x10 5 1) {}))) = 0x104 ∧
    laneWord (.jr 1023 1) = some (1023, encA 0x20 0 1 0 0) ∧ laneIssues 1023 (encA 0x20 0 1 0 0) (jr 8) = true ∧
    (getG 1 (lane 1023 (jr 8))).toNat % 4 = 0 ∧ (lane 1023 (after (.jr 1023 1) (jr 8))).pc = 8 ∧
    (lane 1023 (after (.jalr 1023 31 1) (atWord (encA 0x21 31 1 0 0) (regs2 8 0)))).pc = 8 ∧
    (getG 1 (lane 1023 (jr 6))).toNat % 4 ≠ 0 ∧ rg LNC_LANE_FAULT 1023 (after (.jr 1023 1) (jr 6)) = 3 ∧
    rg LNC_LANE_FADDR 1023 (after (.jr 1023 1) (jr 6)) = 6 := by decide +kernel

/-- A lane whose registers v1, v2 and v4 hold three values. -/
def vecs (x y z : VWord) : LaneState := setV 4 z (setV 2 y (setV 1 x {}))

/-- v3 after an instruction on v1 and v2. -/
def vResult (c : Instr) (w : Word) (x y : VWord) : VWord := getV 3 (lane 1023 (after c (atWord w (vecs x y 0))))

/-- R152: VMUL.H of -32768 by -32768 gives 32767. -/
theorem test_vmulH_saturates :
    vh (vResult (.vmulH 1023 3 1 2) (encV 0x20 2 3 1 2 0 0) 0x8000 0x8000) 0 = 32767 := by decide +kernel

theorem witness_FixedPointInstructionsWriteEveryElement :
    laneWord (.vaddH 1023 15 15 15) = some (1023, encV 0x20 0 15 15 15 0 0) ∧
    laneIssues 1023 (encV 0x20 0 15 15 15 0 0) (atWord (encV 0x20 0 15 15 15 0 0) {}) = true ∧
    vh (vResult (.vsubH 1023 3 1 2) (encV 0x20 1 3 1 2 0 0) 0x8000 0x0001) 0 = -32768 ∧
    vw (vResult (.vdotH 1023 3 1 2) (encV 0x20 4 3 1 2 0 0) 0x00020003 0x00040005) 0 = 23 := by decide +kernel

/-- R153: 1.0 + 2.0, and the other operand of a NaN. -/
theorem witness_FloatInstructionsWriteEveryElement :
    laneWord (.vfadd 1023 15 15 15) = some (1023, encV 0x21 0 15 15 15 0 0) ∧
    laneIssues 1023 (encV 0x21 0 15 15 15 0 0) (atWord (encV 0x21 0 15 15 15 0 0) {}) = true ∧
    vw (vResult (.vfadd 1023 3 1 2) (encV 0x21 0 3 1 2 0 0) 0x3F800000 0x40000000) 0 = 0x40400000 ∧
    isNaN 0x7FC00001 = true ∧ isNaN 0x3F800000 = false ∧
    vw (vResult (.vfmin 1023 3 1 2) (encV 0x21 5 3 1 2 0 0) 0x7FC00001 0x3F800000) 0 = 0x3F800000 := by decide +kernel

/-- R155: (1 + 2j)(3 + 4j) = -5 + 10j in FP32. -/
theorem test_vcmulF : vResult (.vcmulF 1023 3 1 2) (encV 0x23 2 3 1 2 0 0) 0x400000003F800000 0x4080000040400000 =
    0x41200000C0A00000 := by decide +kernel

theorem witness_ComplexInstructionsWriteTheirPairs :
    laneWord (.vbf2H 1023 14 1 2 1) = some (1023, encV 0x23 3 14 1 2 0 1) ∧
    laneIssues 1023 (encV 0x23 3 14 1 2 0 1) (atWord (encV 0x23 3 14 1 2 0 1) {}) = true ∧
    laneIssues 1023 (encV 0x23 5 14 1 2 0 0) (atWord (encV 0x23 5 14 1 2 0 0) {}) = true ∧
    laneIssues 1023 (encV 0x23 6 14 2 0 0 0) (atWord (encV 0x23 6 14 2 0 0 0) {}) = true ∧
    laneIssues 1023 (encV 0x23 4 14 2 0 0 2) (atWord (encV 0x23 4 14 2 0 0 2) {}) = true ∧
    vh (getV 15 (lane 1023 (after (.vbf2H 1023 14 1 2 1) (atWord (encV 0x23 3 14 1 2 0 1) (vecs 7 2 0))))) 0 = 3 := by
  decide +kernel

theorem witness_LoadsReadTheAddressedBytes :
    let s := atWord (encI 0x08 3 1 0xFFFF) (regs2 0x101 0)
    let v := atWord (encV 0x22 0 15 0 0 1 7) (regs2 0x90 0)
    laneWord (.lb 1023 3 1 0xFFFF .ok) = some (1023, encI 0x08 3 1 0xFFFF) ∧ laneIssues 1023 (encI 0x08 3 1 0xFFFF) s = true ∧
    (effAddr 1023 1 0xFFFF s).toNat % 1 = 0 ∧ answerCause (laneRef 1023 (effAddr 1023 1 0xFFFF s) 1 false s) .ok s = none ∧
    getG 3 (lane 1023 (after (.lb 1023 3 1 0xFFFF .ok) s)) = 0xFFFFFFFF ∧
    rg LNC_LANE_FAULT 1023 (after (.lw 1023 3 1 0 .ok) (atWord (encI 0x0C 3 1 0) (regs2 2 0))) = 3 ∧
    (vecAddr 1023 1 7 v).toNat % 16 = 0 ∧ answerCause (laneRef 1023 (vecAddr 1023 1 7 v) 16 false v) .ok v = none ∧
    (getV 15 (lane 1023 (after (.vld 1023 15 1 7 .ok) v))).setWidth 32 = encV 0x22 0 15 0 0 1 7 := by decide +kernel

theorem witness_StoresWriteOnlyTheAddressedBytes :
    let s := atWord (encI 0x0E 2 1 2) (regs2 0xFFFC 0x12345678)
    laneWord (.sh 1023 2 1 2 .ok) = some (1023, encI 0x0E 2 1 2) ∧ laneIssues 1023 (encI 0x0E 2 1 2) s = true ∧
    (effAddr 1023 1 2 s).toNat % 2 = 0 ∧ answerCause (laneRef 1023 (effAddr 1023 1 2 s) 2 true s) .ok s = none ∧
    isBuffered (laneRef 1023 (effAddr 1023 1 2 s) 2 true s) s = false ∧
    rdBytes (localAddr 1023 + 0xFFFC) 4 (after (.sh 1023 2 1 2 .ok) s) = [0, 0, 0x78, 0x56] ∧
    rg LNC_LANE_FAULT 1023 (after (.sw 1023 2 1 0 .ok) (atWord (encI 0x0F 2 1 0) (regs2 2 0))) = 3 := by decide +kernel

theorem witness_TrapFaultsTheLaneWithItsCode :
    laneWord (.trap 1023 0xABCD) = some (1023, encCode 0x0B 0xABCD) ∧
    laneIssues 1023 (encCode 0x0B 0xABCD) (atWord (encCode 0x0B 0xABCD) {}) = true ∧
    rg LNC_LANE_FAULT 1023 (after (.trap 1023 0xABCD) (atWord (encCode 0x0B 0xABCD) {})) = 0xABCD0001 := by decide +kernel

/-- Lane 1023 idles with one job of code 255 in its queue, whose vector is `e`. -/
def jobAt (e : Word) : State :=
  wrBytes (localAddr 1023 + 1020) (leBytes 4 e.toNat) (setLane 1023 { queue := [.job { code := 255, args := [9] }] } State.reset)

theorem witness_LaneJobsStartEndAndFault :
    let bad := atWord 0x00221840 {}
    let out := setLane 1023 { run := .running, pc := 0x10000 } State.reset
    takesNext 1023 (jobAt 0xFFFC) = true ∧ localWord 1023 (4 * (255 % 256)) (jobAt 0xFFFC) = 0xFFFC ∧
    (lane 1023 (after (.jobStart 1023 .ok) (jobAt 0xFFFC))).pc = 0xFFFC ∧
    getG 5 (lane 1023 (after (.jobStart 1023 .ok) (jobAt 0xFFFC))) = 9 ∧
    rg LNC_LANE_FAULT 1023 (after (.jobStart 1023 .ok) (jobAt 0)) = 10 ∧
    rg LNC_LANE_FADDR 1023 (after (.jobStart 1023 .ok) (jobAt 0)) = 1020 ∧
    laneWord (.jend 1023) = some (1023, encS 0 0 0 0 0) ∧
    laneIssues 1023 (encS 0 0 0 0 0) (atWord (encS 0 0 0 0 0) {}) = true ∧
    (lane 1023 (after (.jend 1023) (atWord (encS 0 0 0 0 0) {}))).run = .idle ∧
    laneReady 1023 bad = true ∧ legalWord (fetchWord 1023 bad) = false ∧
    rg LNC_LANE_FAULT 1023 (after (.illegalInstruction 1023) bad) = 2 ∧
    laneReady 1023 out = true ∧ rg LNC_LANE_FAULT 1023 (after (.instructionFetchFault ⟨1023, .ok⟩) out) = 12 ∧
    laneReady 1023 State.reset = false := by decide +kernel

/-- A message of 4 bytes in the inbox. -/
def aMessage : Message := { src := 3, payload := [1, 2, 3, 4] }

theorem witness_ReceivesTakeTheFirstMessage :
    let s := atWord (encS 1 5 1 0 0) { regs2 0xFFC0 0 with inbox := [{ msg := aMessage }] }
    let wait := setLane 1023 { run := .waiting, inbox := [{ msg := aMessage }], waitReg := 7, waitAddr := 0x40 } State.reset
    laneWord (.waitm 1023 5 1 .ok) = some (1023, encS 1 5 1 0 0) ∧ laneIssues 1023 (encS 1 5 1 0 0) s = true ∧
    (getG 1 (lane 1023 s)).toNat % 16 = 0 ∧ (getG 1 (lane 1023 s)).toNat + 64 ≤ 0x10000 ∧
    firstMessage 1023 s = some aMessage ∧ bit aMessage.flags 0 = false ∧
    (lane 1023 (after (.waitm 1023 5 1 .ok) s)).inbox = [] ∧
    rdBytes (localAddr 1023 + 0xFFC0) (messageBytes aMessage).length (after (.waitm 1023 5 1 .ok) s) = messageBytes aMessage ∧
    getG 5 (lane 1023 (after (.pollm 1023 5 1 .ok) (atWord (encS 2 5 1 0 0) (regs2 0x40 0)))) = 1 ∧
    (lane 1023 (after (.waitm 1023 5 1 .ok) (atWord (encS 1 5 1 0 0) (regs2 0x40 0)))).run = .waiting ∧
    (lane 1023 wait).halted = false ∧ laneInReset 1023 wait = false ∧ firstMessage 1023 wait = some aMessage ∧
    (lane 1023 (after (.waitmResume ⟨1023, .ok⟩) wait)).run = .running := by decide +kernel

/-- Registers of a SEND: g1 length, g2 destination, g3 address. -/
def regs3 (x y z : Word) : LaneState := setG 3 z (regs2 x y)

theorem witness_SendsReachTheirDestination :
    let m (k : Nat) (n dst : Word) := atWord (encS 3 1 2 3 k) (regs3 n dst 0x17FFD0)
    let o := atWord (encS 7 0 1 0 0) (vecs 0 0 0)
    let x := withReg 0 0 0
    let q : State := setDistrict 63 { sends := [⟨1023, 199, 7, [1]⟩] } x
    laneWord (.sendLane 1023 1 2 3 .ok) = some (1023, encS 3 1 2 3 0) ∧ laneIssues 1023 (encS 3 1 2 3 0) (m 0 48 1023) = true ∧
    sendRef 1023 0x17FFD0 48 = some (.districtMem (districtAddr 63 + 0x7FFD0)) ∧ stepMode (m 0 48 1023) = false ∧
    ((district 63 (after (.sendLane 1023 1 2 3 .ok) (m 0 48 1023))).direct.map fun d => d.1) = [.lane 1023] ∧
    rg LNC_LANE_FAULT 1023 (after (.sendLane 1023 1 2 3 .ok) (m 0 48 1024)) = 9 ∧
    ((district 63 (after (.sendDistrict 1023 1 2 3 .ok) (m 1 4 63))).direct.map fun d => d.1) = [.district 63] ∧
    sendRef 1023 0x100000 2032 = some (.districtMem (districtAddr 63)) ∧ sendRef 1023 0x17FFD0 16 ≠ none ∧
    (lane 1023 (after (.sendPort 1023 1 2 3 .ok) (atWord (encS 3 1 2 3 2) (regs3 2032 131 0x100000)))).sending = true ∧
    (lane 1023 (after (.sendFrameCopyDone 63) q)).sending = false ∧ (district 63 (after (.sendFrameCopyDone 63) q)).sends = [] ∧
    (let j := setRg JNL_CFG 0 1 (m 3 0 2)
     bit (rg JNL_CFG 0 j) 0 = true ∧ (after (.sendJournal 1023 1 2 3 .ok) j).jnl.intake.length = 1) ∧
    (after (.sendRoad 1023 1 2 3 .ok) (m 4 0 0)).ingest.length = 1 ∧
    laneWord (.obs 1023 1) = some (1023, encS 7 0 1 0 0) ∧ laneIssues 1023 (encS 7 0 1 0 0) o = true ∧
    recordBad (vecBytes (getV 1 (lane 1023 o))) = false ∧ (after (.obs 1023 1) o).ingest.length = 1 ∧
    rg LNC_LANE_FAULT 1023 (after (.obs 1023 1) (atWord (encS 7 0 1 0 0) (vecs (BitVec.ofNat 128 (64 * 2 ^ 80)) 0 0))) = 9 := by
  decide +kernel

/-- R112, R116, R139, R158, R132: what the memory's answers and bad addresses do to a lane. -/
theorem witness_LanesInTheirOtherCases :
    let bad := atWord 0x00221840 {}
    let wm (x : Word) := atWord (encS 1 5 1 0 0) (regs2 x 0)
    let at' (f : Word → Word) := setRg TWN_CFG 0 (f 0xC0008000)
      (wrBytes (districtAddr 63 + 0x7FFFC) [5, 0, 0, 0] (atWord (encS 9 1 2 3 2) (regs3 5 0x17FFFC 7)))
    rg LNC_LANE_FAULT 1023 (after (.jobStart 1023 .uncorrectable) (jobAt 0xFFFC)) = 6 ∧
    (lane 1023 (jobAt 0xFFFC)).queue.length = 1 ∧
    (lane 1023 bad).pc.toNat < 0x10000 ∧ rg LNC_LANE_FAULT 1023 (after (.instructionFetchFault ⟨1023, .uncorrectable⟩) bad) = 6 ∧
    rgF LNC_DST_ECC 63 31 16 (after (.instructionFetchFault ⟨1023, .corrected⟩) bad) = 1 ∧
    (getG 1 (lane 1023 (wm 0x48))).toNat % 16 ≠ 0 ∧
    rg LNC_LANE_FAULT 1023 (after (.waitm 1023 5 1 .ok) (wm 0x48)) = 3 ∧
    rg LNC_LANE_FAULT 1023 (after (.waitm 1023 5 1 .ok) (wm 0xFFD0)) = 4 ∧
    firstMessage 1023 (wm 0x40) = none ∧ (lane 1023 State.reset).run ≠ .waiting ∧
    flightsOf 63 (at' fun _ => 0) = [] ∧ stepMode (at' id) = true ∧ stepRoom 1023 1 (at' id) = true ∧
    rdWord (districtAddr 63 + 0x7FFFC) (after (.atomCas 1023 1 2 3 .ok) (at' id)) = 5 ∧
    rg LNC_LANE_FAULT 1023 (after (.atomAdd 1023 1 2 3 .ok) (atWord (encS 9 1 2 3 0) (regs3 0 0x17FFFE 0))) = 3 := by
  decide +kernel

theorem witness_RoadQueriesAndAtomsWriteTheirRegisters :
    let q := setRoad 63 { state := .held, pub := 0x123456789ABC, pubRate := 0xFFFF00000001 }
      (atWord (encS 4 1 2 0 0) (regs2 0 63))
    let ref := 0x17FFFC
    let s := wrBytes (districtAddr 63 + 0x7FFFC) [5, 0, 0, 0] (atWord (encS 9 1 2 3 2) (regs3 5 ref 7))
    let f := atWord (encS 0x0A 0 0 0 0) { stale := [(0x104, 9)] }
    laneWord (.roadp 1023 1 2) = some (1023, encS 4 1 2 0 0) ∧ laneIssues 1023 (encS 4 1 2 0 0) q = true ∧
    getV 1 (lane 1023 (after (.roadp 1023 1 2) q)) =
      0xFFFFFFFF#32 ++ 0x00000001#32 ++ BitVec.ofNat 32 (0x1234 + (road 63 q).state.code * 65536) ++ 0x56789ABC#32 ∧
    laneIssues 1023 (encS 5 1 2 3 0) (atWord (encS 5 1 2 3 0) {}) = true ∧
    laneIssues 1023 (encS 6 1 2 3 0) (atWord (encS 6 1 2 3 0) {}) = true ∧
    laneWord (.atomCas 1023 1 2 3 .ok) = some (1023, encS 9 1 2 3 2) ∧ laneIssues 1023 (encS 9 1 2 3 2) s = true ∧
    (getG 2 (lane 1023 s)).toNat % 4 = 0 ∧ laneRef 1023 ref 4 true s = .districtMem (districtAddr 63 + 0x7FFFC) ∧
    stepMode s = false ∧ rdWord (districtAddr 63 + 0x7FFFC) (after (.atomCas 1023 1 2 3 .ok) s) = 7 ∧
    getG 1 (lane 1023 (after (.atomCas 1023 1 2 3 .ok) s)) = 5 ∧
    rg LNC_LANE_FAULT 1023 (after (.atomAdd 1023 1 2 3 .ok) (atWord (encS 9 1 2 3 0) (regs3 0 0x100 0))) = 4 ∧
    laneWord (.fence 1023) = some (1023, encS 0x0A 0 0 0 0) ∧ laneIssues 1023 (encS 0x0A 0 0 0 0) f = true ∧
    (lane 1023 (after (.fence 1023) f)).stale = [] := by decide +kernel

/-- A frame of 60 bytes held by Junction, and its one copy at the line of a port. -/
def aFrame : JFrame := { id := 1, bytes := zeros 60, src := 5, cls := 2, ts := 3, arrived := 0, cells := 1, refs := 1, length := 64 }
def aCopy (p c : Nat) : Copy := { frame := 1, port := p, cls := c, sub := 0, guar := 0, pool := 1 }
def lineAt (p c : Nat) (f : JFrame) (s : State) : State :=
  setHanded p (some (aCopy p c)) { s with jct := { s.jct with frames := [f], nextId := 2 } }

theorem witness_DistrictsDeliverMessagesAndFrames :
    let m := setDistrict 63 { direct := [(.lane 1023, aMessage)] } State.reset
    let full := setLane 1023 { inbox := List.replicate 32 { msg := aMessage } } m
    let far := lineAt 195 7 { aFrame with msg := some (.district 63, aMessage) } State.reset
    let old := setLane 1023 { queue := [.marker 511 7 9] } State.reset
    let last := setRg MST_PLC_CUR 511 0x80000000 (setSlotRun 511 { oldGen := 7, markersOut := 1 } old)
    let f := setDistrict 63 { frx := 0x00010000 } (lineAt 195 2 aFrame State.reset)
    let lay := withReg 0x06000 4 0x3F0000
    let due := setDistrict 63 { frxPending := true } (withReg LNC_DST_FRX 63 5)
    (district 63 m).direct = [(.lane 1023, aMessage)] ∧ (lane 1023 m).inReset = false ∧
    orderedAt aMessage.slot.toNat 1023 m = false ∧ (lane 1023 m).inbox.length < 32 ∧
    ((lane 1023 (after (.messageDeliver 63 false) m)).inbox.length = 1) ∧ 32 ≤ (lane 1023 full).inbox.length ∧
    bit (rg LNC_DST_CAUSE 63 (after (.messageDeliver 63 false) full)) 2 = true ∧
    handed 195 far = some (aCopy 195 7) ∧ (jframe 1 far).isSome = true ∧ inReset 195 far = false ∧
    (lane 1008 (after (.messageDeliver 63 true) far)).inbox.length = 1 ∧
    takesNext 1023 old = true ∧ (slotRun 511 old).oldGen ≠ 7 ∧ (lane 1023 (after (.drainMarkerHead 1023) old)).queue = [] ∧
    (slotRun 511 last).oldGen = 7 ∧ (slotRun 511 last).markersOut = 1 ∧ (slotRun 511 last).markerLanes = [] ∧
    bit (rg MST_PLC_CUR 511 last) 31 = true ∧ bit (rg MST_PLC_RX 511 last) 16 = false ∧
    bit (rg MST_PLC_CUR 511 (after (.drainMarkerHead 1023) last)) 31 = false ∧
    handed 195 f = some (aCopy 195 2) ∧ jframe 1 f = some aFrame ∧ takesFrames 63 f = true ∧ stepMode f = false ∧
    freeBufferOf 63 f = some 0 ∧
    leastOf (fun l => jobCount l f) ((lanesOf 63).filter fun l => takesJobs l f) = some 1008 ∧
    (lane 1008 (after (.frameToDistrict 63) f)).queue.length = 1 ∧
    2032 < (zeros 2033).length ∧ winOf 4 LNC_DST_FRX lay = some 63 ∧ writable 4 LNC_DST_FRX 63 lay = true ∧
    (district 63 (after (.lncDstFrxWrite 4 0xFFFFFFFF) lay)).frxPending = true ∧
    (district 63 due).frxPending = true ∧ inReset 195 due = false ∧
    (district 63 (after (.frxLayoutApply 63) due)).frx = 5 := by decide +kernel

/-- Step mode, with step 1 complete and its jobs ended. -/
def stepDue : State :=
  let s := setRg TWN_CFG 0 0xC0000000 State.reset
  { s with stp := { step := 1, tb := 5 },
           twn := { state := .active, alone := true, markers := [(2, 1000)], ownClose := [(1, some 0)] } }

theorem witness_LaneControlsAndStepsTakeEffect :
    let r := setLane 1023 { inReset := true } State.reset
    inReset 195 State.reset = false ∧ stepMode State.reset = false ∧
    (lane 1023 (after (.districtHalt 63) State.reset)).halted = true ∧
    laneInReset 1023 (jobAt 8) = false ∧ rgF LNC_LANE_CNT_DROP 1023 31 22 (after (.laneReset 1023) (jobAt 8)) = 1 ∧
    (lane 1023 r).inReset = true ∧ (lane 1023 (after (.laneResetDone 1023) r)).inReset = false ∧
    inReset 195 (after (.districtReset 63) State.reset) = true ∧
    stepMode stepDue = true ∧ laneInReset 1023 stepDue = false ∧ inReset 195 stepDue = false ∧
    (after (.laneReset 1023) stepDue).stp.commands = [.resetLane 1023] ∧
    mergeReady stepDue.stp.step stepDue = true ∧ jobsEnded stepDue = true ∧ markerTime 2 stepDue = some 1000 ∧
    (after .stepBegin stepDue).stp.step = 2 ∧ rg LNC_STEP 0 (after .stepBegin stepDue) = 2 ∧
    mergeReady 0 State.reset = false := by decide +kernel

/-! ### Ports -/

/-- Field port 127 is on, in mode `m`, with its die link up. -/
def portIn (m : Nat) : State := diesUp (withReg FPA_PORT_CFG 127 (w32 (256 + m)))

theorem witness_FieldPortsFollowLinksBeaconsAndSurges :
    let c := setRg FPA_T1S_PLCA 127 0x01000000 (portIn 1)
    inReset 127 State.reset = false ∧ inReset 127 (after (.portReset 127) (portIn 0)) = true ∧
    portOn 127 (portIn 0) = true ∧ isSerial 127 (portIn 0) = false ∧ dieUp (127 / 64) (portIn 0) = true ∧
    bit (rg FPA_PORT_STAT 127 (after (.linkChange 127 true ⟨1, true⟩ false false false false) (portIn 0))) 0 = true ∧
    portOn 127 c = true ∧ portMode 127 c = 1 ∧ bit (rg FPA_T1S_PLCA 127 c) 24 = true ∧ rgF FPA_T1S_PLCA 127 7 0 c = 0 ∧
    rgF FPA_T1S_CNT 127 31 16 (after (.t1sBeacon 127) c) = 1 ∧
    rgF FPA_T1S_CNT 127 15 0 (after (.t1sBeacon 127) (setVerge 127 { state := .deferring } c)) = 1 ∧
    rg FPA_SURGE_LAST 127 (after (.surgeClampEvent 127 51 20 10001 9) State.reset) = 9 ∧
    rgF FPA_SURGE_CLASS 127 9 0 (after (.surgeClampEvent 127 200 20 10001 9) State.reset) = 1 ∧
    rgF FPA_SURGE_CLASS 127 29 20 (after (.surgeClampEvent 127 1001 20 10001 9) State.reset) = 1 ∧
    rgF FPA_SURGE_CNT 127 31 0 (after (.surgeClampEvent 127 50 20 10001 9) State.reset) = 0 := by decide +kernel

/-- A quiet line, and the select at port 127 on path 3. -/
def quiet : State :=
  setPortRun 127 { eee := true } (setRg FPA_PORT_STAT 127 1 (setRg 0x07000 3 127 (setRg FPA_T1L_CFG 127 3 (portIn 0))))

theorem witness_VergeWindowsAndMeasurementsFollowTheirRules :
    let go (v : Word) := after (.vergeGo 3 v) quiet
    let d := setVerge 127 { state := .deferring, software := true, durationUs := 100, mask := 0x3F } quiet
    let late := { setRg FPA_VRG_CFG 127 0 d with mp := { State.reset.mp with counter := 10000000#32 ++ 0#32 } }
    let m := setVerge 127 { state := .active, current := some 0 } { quiet with
      mp := { State.reset.mp with counter := 100000#32 ++ 0#32 } }
    let base := setRg FPA_VRG_BASE_HI 0 0x40 (setVerge 127 { state := .active } quiet)
    winOf 3 FPA_VRG_CTRL quiet = some 127 ∧ writable 3 FPA_VRG_CTRL 127 quiet = true ∧ bit (0x803F0064 : Word) 30 = false ∧
    fld (0x803F0064 : Word) 13 0 = 100 ∧ (verge 127 quiet).state = .none ∧ quietExists 127 quiet = true ∧
    (verge 127 (go 0x803F0064)).state = .deferring ∧ (verge 127 (go 0x803F2710)).durationUs = 10000 ∧
    bit (rg FPA_CAUSE 127 (go 0x803F2711)) 3 = true ∧ rgF FPA_VRG_SKIP 127 31 22 (go 0x803F0063) = 1 ∧
    (verge 127 (after (.vergeAbort 3 0x40000000) d)).state = .none ∧
    (verge 127 d).state = .deferring ∧ (verge 127 d).software = true ∧ sub32 (now d) (verge 127 d).requested ≤ deferNs 127 d ∧
    lineQuiet 127 (setRg FPA_PORT_STAT 127 0xC001 d) = true ∧
    (verge 127 (after (.vergeWindowStart 127 true) (setRg FPA_PORT_STAT 127 0xC001 d))).endNs = 100000 ∧
    vergeForce 127 late = false ∧ deferNs 127 late ≤ sub32 (now late) (verge 127 late).requested ∧
    (verge 127 (after (.vergeSkipped 127) late)).state = .none ∧
    (verge 127 m).current = some 0 ∧ (measureNs 0 : Int) ≤ diff32 (now m) (verge 127 m).nextNs ∧
    sget 0 0 (verge 127 (after (.vergeMeasurementDone 127 0xFFFFFFFF false false []) m)).values = (clampResult 0 0xFFFFFFFF).1 ∧
    0 ≤ diff32 (now base) (verge 127 base).endNs ∧ canReach .unit true (vergeAddr 127 base) 1024 base = true ∧
    answer (vergeAddr 127 base) .ok base = .ok ∧ (verge 127 base).profile.length ≤ 256 ∧
    (verge 127 (after (.vergeWindowEnd 127 .ok) base)).state = .none ∧
    rgF FPA_VRG_CNT 127 31 16 (after (.vergeWindowEnd 127 .ok) base) = 1 := by decide +kernel

/-- Port 127 is a serial port of 115,200 bit/s, 8N1. -/
def serialPort : State := setRg FPA_SER_BIT 127 (w32 (1736 * 1024)) (portIn 2)

theorem witness_SerialPortsReceiveAndSendMessages :
    let s := serialPort
    let got := setPortRun 127 { chars := [1, 2] } s
    let wait := setPortRun 127 { response := true } s
    let out (b : Bytes) := setRg FPA_SER_CFG 127 0x40 (setRg MAC_CFG 127 (rg MAC_CFG 127 s ||| 2) (lineAt 127 2 { aFrame with bytes := b, vid := 1 } s))
    let good := zeros 12 ++ beBytes 2 (rgF FPA_SER_ETYPE 0 15 0 s) ++ [0, 1] ++ zeros 44
    serialOn 127 s = true ∧ (verge 127 s).state ≠ .active ∧ (portRun 127 s).chars.length < 1496 ∧
    fld (0x2AA : BitVec 12) (dataBits 127 s + parityBits 127 s + stopBits 127 s) 0 ≠ 0 ∧
    (portRun 127 (after (.serialCharacterReceive 127 true 0x2AA 0) s)).chars = [0x55] ∧
    receiving 127 got = true ∧ (portRun 127 (after (.serialMessageEnd 127 .gap) got)).chars = [] ∧
    (portRun 127 wait).response = true ∧ rgF FPA_SER_CNT2 127 31 24 (after (.serialResponseTimeout 127) wait) = 1 ∧
    handed 127 (out good) = some (aCopy 127 2) ∧ (jframe 1 (out good)).isSome = true ∧ maySend 127 true (out good) = true ∧
    bit (rg MAC_CFG 127 (out good)) 1 = true ∧ bit (rg FPA_SER_CFG 127 (out good)) 6 = true ∧
    handed 127 (after (.serialTransmit 127 true false) (out good)) = none ∧
    rgF FPA_SER_CNT2 127 7 0 (after (.serialTransmit 127 true false) (out good)) = 0 ∧
    rgF FPA_SER_CNT2 127 7 0 (after (.serialTransmit 127 true false) (out (zeros 60))) = 1 := by decide +kernel

/-- R172-R174, R180-R182, R188: field ports in their other cases. -/
theorem witness_FieldPortsInTheirOtherCases :
    let t1s (cfg : Word) := setRg FPA_T1S_PLCA 127 cfg (portIn 1)
    let d (v : Verge) := setVerge 127 v (setRg FPA_VRG_CFG 127 0 quiet)
    let late (s : State) : State := { s with mp := { s.mp with counter := 10000000#32 ++ 0#32 } }
    let forced := after (.surgeClampEvent 127 300 20 10001 9) State.reset
    inReset 127 (setInReset 127 true (portIn 0)) = true ∧ isSerial 127 (portIn 2) = true ∧ portOn 127 State.reset = false ∧
    bit (rg FPA_PORT_STAT 127 (after (.linkChange 127 true ⟨0, false⟩ false false false true) (t1s 0x01000000))) 13 = true ∧
    plcaRuns 127 (t1s 0x01000000) = true ∧ plcaCoordinator 127 (t1s 0x01000000) = true ∧ cycleOver 127 (t1s 0x01000000) = true ∧
    plcaCoordinator 127 (t1s 0x01000001) = false ∧
    cycleOver 127 (after (.t1sBeacon 127) (t1s 0x01200800)) = false ∧
    (verge 127 (after (.vergeGo 3 0x803F0064) (setVerge 127 { state := .active } quiet))).state = .active ∧
    0 < deferNs 127 (setVerge 127 { state := .deferring, software := true } quiet) ∧
    (verge 127 (after (.vergeSkipped 127) (setVerge 127 { state := .deferring, software := true } quiet))).state = .deferring ∧
    vergeForce 127 (late (setRg FPA_VRG_CFG 127 0xFFFFFFFF (d { state := .deferring, software := true }))) = true ∧
    diff32 (now quiet) 1 < 0 ∧ diff32 (now quiet) (verge 127 (d { state := .active, current := some 0 })).nextNs < measureNs 0 ∧
    (gateRun 127 (d { state := .active })).vergeFrom = none ∧
    (portRun 127 forced).surgeClass = some 1 ∧
    rgF FPA_SURGE_CNT 127 31 0 (after (.surgeClampEvent 127 300 20 10000 9) forced) = 1 := by decide +kernel

/-- R175-R178: serial ports at the ends of a message. -/
theorem witness_SerialPortsInTheirOtherCases :
    let full := setPortRun 127 { chars := List.replicate 1495 1 } serialPort
    let brk := after (.serialCharacterReceive 127 true 0 0) serialPort
    fld (0 : BitVec 12) (dataBits 127 serialPort + parityBits 127 serialPort + stopBits 127 serialPort) 0 = 0 ∧
    (portRun 127 brk).broken = true ∧ receiving 127 brk = true ∧
    (portRun 127 (after (.serialMessageEnd 127 .lineBreak) brk)).broken = false ∧
    (portRun 127 full).chars.length = 1495 ∧
    (portRun 127 (after (.serialCharacterReceive 127 true 0x2AA 0) full)).chars = [] ∧
    receiving 127 serialPort = false ∧ (portRun 127 serialPort).response = false ∧
    handed 127 serialPort = none ∧ aFrame.cutting = false ∧ aFrame.oneStep = none ∧
    maySend 127 false (lineAt 127 2 aFrame serialPort) = false := by decide +kernel

/-! ### MACs -/

/-- Trunk 0 is up and receives every frame. -/
def trunkUp : State := setRg TRK_STAT 0 3 (setRg MAC_CFG 128 (rg MAC_CFG 128 State.reset ||| 7) State.reset)

/-- An untagged frame of 60 bytes. -/
def plain : Bytes := [2, 0, 0, 0, 0, 1] ++ zeros 6 ++ [0x12, 0x34] ++ zeros 46

theorem witness_MacsTakeAndSendFrames :
    let s := trunkUp
    let off := setRg MAC_CFG 128 (rg MAC_CFG 128 s &&& 0xFFFFFFFD) s
    let deaf := setRg MAC_CFG 128 (rg MAC_CFG 128 s &&& 0xFFFFFFFE) s
    let wp := plain.take 12 ++ [0x88, 0xB5] ++ plain.drop 14
    let own := setRg MAC_CFG 128 (rg MAC_CFG 128 s &&& 0xFFFFFFFB) s
    portReceives 128 s = true ∧ discards 128 s = false ∧ 64 ≤ (withFcs plain).length ∧ (withFcs plain).length ≤ maxLen 128 s ∧
    beAt plain 12 2 ≠ 0x8808 ∧ filtered 128 none plain s = false ∧ isBackupFrame 128 plain s = false ∧
    filtered 128 none plain own = true ∧
    rg (MAC_CNT + 4 * 16) 128 (after (.macReceiveFrame 128 (withFcs plain) false 3) own) = 1 ∧
    filtered 5 none wp (setRg MAC_CFG 5 7 (setRg FPA_PORT_STAT 5 1 s)) = true ∧
    ((macRun 128 (after (.macReceiveFrame 128 (withFcs plain) false 3) s)).rxq.map fun x => x.bytes) = [plain] ∧
    rg MAC_CNT 128 (after (.macReceiveFrame 128 (withFcs plain) false 3) s) = 1 ∧
    discards 128 deaf = true ∧ rg (MAC_CNT + 4 * 21) 128 (after (.macReceiveFrame 128 (withFcs plain) false 3) deaf) = 1 ∧
    rg (MAC_CNT + 4 * 14) 128 (after (.macReceiveFrame 128 (zeros 63) false 3) s) = 1 ∧
    maxLen 128 (setRg MAC_CFG 128 (rg MAC_CFG 128 s &&& 0xC000FFFF ||| 64 * 65536) s) = 64 ∧
    rg (MAC_CNT + 4 * 15) 128 (after (.macReceiveFrame 128 (zeros 65) false 3)
      (setRg MAC_CFG 128 (rg MAC_CFG 128 s &&& 0xC000FFFF ||| 64 * 65536) s)) = 1 ∧
    rg (MAC_CNT + 4 * 12) 128 (after (.macReceiveFrame 128 (plain ++ [0, 0, 0, 0]) false 3) s) = 1 ∧
    portReceives 128 State.reset = false ∧
    handed 128 (lineAt 128 2 aFrame s) = some (aCopy 128 2) ∧ linkUp 128 s = true ∧ aFrame.cutting = false ∧
    bit (rg MAC_CFG 128 off) 1 = false ∧ bit (rg MAC_CFG 128 s) 1 = true ∧ ptpEvent aFrame.bytes = none ∧
    aFrame.oneStep = none ∧ (aCopy 128 2).sent = 0 ∧ (aCopy 128 2).te = none ∧
    preemptable 128 2 s = false ∧ linkUp 128 State.reset = false ∧ handed 128 s = none ∧
    rg (MAC_CNT + 4 * 43) 128 (after (.macTransmitFrame 128 0 0 ⟨.ok, 0⟩) (lineAt 128 2 aFrame off)) = 1 ∧
    rg (MAC_CNT + 4 * 22) 128 (after (.macTransmitFrame 128 0 0 ⟨.ok, 0⟩) (lineAt 128 2 aFrame s)) = 1 ∧
    ((macRun 128 (after (.macTransmitFrame 128 0 0 ⟨.ok, 0⟩) (lineAt 128 2 aFrame s))).line.map fun x => x.bytes) =
      some (withFcs (outBytes 128 (aCopy 128 2) aFrame (lineAt 128 2 aFrame s))) ∧
    handed 128 (after (.macTransmitFrame 128 0 0 ⟨.ok, 0⟩) (lineAt 128 2 aFrame s)) = none := by decide +kernel

theorem witness_PausesHoldAndAreSent :
    let s := setRg MAC_PAUSE_CFG 128 0x8003 trunkUp
    let held := after (.pauseReceive 128 9) s
    let pfc := after (.pfcReceive 128 0x81 [7, 0, 0, 0, 0, 0, 0, 9]) s
    let ask := after (.macPauseTxPfc 4 0xC0010001) (setRg MAC_SEL 4 128 trunkUp)
    let ser := setRg FPA_PORT_STAT 127 1 (setRg MAC_CFG 127 7 (diesUp (withReg FPA_PORT_CFG 127 0x101)))
    portReceives 128 s = true ∧ discards 128 s = false ∧ pausePort 128 s = true ∧
    bit (rg MAC_PAUSE_CFG 128 s) 0 = true ∧ bit (rg MAC_PAUSE_CFG 128 s) 1 = true ∧
    classHeld 128 6 held = true ∧ classHeld 128 7 held = false ∧
    rg (MAC_CNT + 4 * 17) 128 held = 1 ∧ bit (rg MAC_PAUSE_CFG 128 trunkUp) 0 = false ∧
    (after (.pauseReceive 128 9) trunkUp).macs = trunkUp.macs ∧
    classHeld 128 6 (after (.pauseReceive 128 0) held) = false ∧
    classHeld 128 6 (after (.pauseTimerExpiry 128 6 true) held) = false ∧
    classHeld 128 0 pfc = true ∧ classHeld 128 7 pfc = false ∧ sget 0 0 (macRun 128 (after (.pauseReceive 128 0) pfc)).pfc = 0 ∧
    bit (macRun 128 (after (.pfcReceive 128 1 [0]) held)).linkMask 0 = false ∧
    bit (macRun 128 (after (.pfcReceive 128 1 [0]) held)).linkMask 1 = true ∧
    classHeld 128 0 (after (.pauseTimerExpiry 128 0 false) pfc) = false ∧
    portReceives 127 ser = true ∧ discards 127 ser = false ∧ pausePort 127 ser = false ∧
    rg (MAC_CNT + 4 * 16) 127 (after (.pauseReceive 127 9) ser) = 1 ∧
    winOf 4 MAC_PAUSE_TX (setRg MAC_SEL 4 128 trunkUp) = some 128 ∧
    writable 4 MAC_PAUSE_TX 128 (setRg MAC_SEL 4 128 trunkUp) = true ∧ (macRun 128 ask).pauseReq = some 0xC0010001 ∧
    lineFree 128 ask = true ∧ lineFree 128 (lineAt 128 2 aFrame ask) = false ∧
    rg (MAC_CNT + 4 * 35) 128 (after (.pauseFrameSend 128) ask) = 1 ∧
    rg (MAC_CNT + 4 * 34) 128 (after (.pauseFrameSend 128) (setMacRun 128 { pauseReq := some 0x80010001 } ask)) = 1 := by
  decide +kernel

theorem witness_PreemptionFragmentsAndTrunkLinksFollowTheirRules :
    let v (n : Word) := setRg MAC_PRE_STAT 128 n trunkUp
    let act := setRg MAC_PRE_CFG 128 1 (setMacRun 128 { verification := .succeeded } (v 2))
    let some1 := after (.fragmentReceive 128 { bytes := plain } true false true true true) act
    let done' : FragmentIn := { bytes := leBytes 4 (crcOf 2 plain) }
    let fec := setRg TRK_STAT 0 0x43 trunkUp
    canPreempt 128 (v 1) = true ∧ rgF MAC_PRE_STAT 128 1 0 (v 1) = 1 ∧ linkUp 128 (v 1) = true ∧
    rgF MAC_PRE_STAT 128 3 2 (v 13) = 3 ∧ rg MAC_PRE_STAT 128 (after (.preemptVerify 128) (v 1)) = 5 ∧
    (macRun 128 (after (.preemptVerify 128) (v 1))).line.isSome = true ∧
    bit (rg TRK_CAUSE 0 (after (.preemptVerify 128) (v 13))) 5 = true ∧
    (macRun 128 (after (.preemptVerify 128) (v 13))).verification = .failed ∧
    0 < rgF MAC_PRE_STAT 128 3 2 (v 5) ∧ bit (rg MAC_PRE_CFG 128 (setRg MAC_PRE_CFG 128 1 (v 5))) 0 = true ∧
    preActive 128 (after (.verifyResponseReceive 128) (setRg MAC_PRE_CFG 128 1 (v 5))) = true ∧
    linkUp 128 (setRg TRK_STAT 0 0 (v 1)) = false ∧
    portReceives 128 act = true ∧ preActive 128 act = true ∧ (macRun 128 act).reassembly = none ∧
    (macRun 128 some1).reassembly.isSome = true ∧
    rg (MAC_CNT + 4 * 19) 128 (after (.fragmentReceive 128 done' false true true true true) some1) = 2 ∧
    (macRun 128 (after (.fragmentReceive 128 done' false true true true true) some1)).rxq.length = 1 ∧
    rg (MAC_CNT + 4 * 20) 128 (after (.fragmentReceive 128 { bytes := plain } true false true true false) act) = 1 ∧
    inReset 128 State.reset = false ∧ trunkRole 0 State.reset ≠ roleUnused ∧
    linkUp 128 (after (.trunkLinkChange 0 { lock := true } false false false) State.reset) = true ∧
    rg TRK_CAUSE 0 (after (.trunkLinkChange 0 { lock := true } false true false) trunkUp) = 5 ∧
    rg TRK_CAUSE 0 (after (.trunkLinkChange 0 { lock := true } true false false) trunkUp) = 3 ∧
    rg TRK_CNT_BLK 0 (after (.trunkLinkChange 0 { lock := true, errored := 5, ber := 6 } false false false) trunkUp) = 0x50006 ∧
    bit (rg TRK_STAT 0 fec) 6 = true ∧ rg TRK_CAUSE 0 (after (.fecUncorrectableBlock 0) fec) = 16 ∧
    bit (rg TRK_STAT 0 trunkUp) 6 = false ∧ inReset 128 (setInReset 128 true trunkUp) = true := by
  decide +kernel

/-- R194-R205: MACs and trunks in their other cases. -/
theorem witness_MacsInTheirOtherCases :
    let s := setRg MAC_PAUSE_CFG 128 0x8003 trunkUp
    let v (n : Word) := setRg MAC_PRE_STAT 128 n trunkUp
    let act := setRg MAC_PRE_CFG 128 1 (setMacRun 128 { verification := .succeeded } (v 2))
    let some1 := after (.fragmentReceive 128 { bytes := plain } true false true true true) act
    let deaf := setRg MAC_CFG 128 (rg MAC_CFG 128 s &&& 0xFFFFFFFE) s
    discards 128 deaf = true ∧ rg (MAC_CNT + 4 * 21) 128 (after (.pfcReceive 128 1 [9]) deaf) = 1 ∧
    bit (0x40010001 : Word) 31 = false ∧
    (macRun 128 (after (.macPauseTxPause 4 0x40010001) (setRg MAC_SEL 4 128 trunkUp))).pauseReq = none ∧
    canPreempt 5 trunkUp = false ∧ rgF MAC_PRE_STAT 128 1 0 (v 2) ≠ 1 ∧
    (v 1).lanes = (after (.preemptVerify 128) (v 1)).lanes ∧
    rg MAC_PRE_STAT 5 (setVerge 5 { state := .deferring } State.reset) = rg MAC_PRE_STAT 5 State.reset ∧
    rg (MAC_CNT + 4 * 20) 128 (after (.fragmentReceive 128 { bytes := plain } false false true true true) act) = 1 ∧
    (macRun 128 (after (.fragmentReceive 128 { bytes := plain } false false true true true) some1)).reassembly.isSome = true ∧
    portReceives 128 State.reset = false ∧ preActive 128 (v 1) = false := by decide +kernel

/-- R199: a T1L port verifies too, but not while a verge window keeps it silent. -/
theorem witness_FieldPortsVerifyPreemption :
    let p := setRg MAC_PRE_STAT 127 1 (setRg FPA_PORT_STAT 127 1 (portIn 0))
    let q := setVerge 127 { state := .deferring } p
    canPreempt 127 p = true ∧ rgF MAC_PRE_STAT 127 1 0 p = 1 ∧ linkUp 127 p = true ∧ (verge 127 q).state ≠ .none ∧
    rg MAC_PRE_STAT 127 (after (.preemptVerify 127) p) = 5 ∧ rg MAC_PRE_STAT 127 (after (.preemptVerify 127) q) = 1 := by
  decide +kernel

/-! ### Junction -/

/-- Path 4 with a table data word 0, and the go bit for an operation on a table. -/
def tblGo (table op i : Nat) : Word := w32 (2 ^ 31 + i * 65536 + op * 16 + table)

/-- A MAC entry's data words in the path: VID 1, the address of `plain`, port 129, valid (R217). -/
def macWords (w0 w1 w2 : Word) : State :=
  setRg JCT_TBL_D 4 w0 (setRg (JCT_TBL_D + 4) 4 w1 (setRg (JCT_TBL_D + 8) 4 w2 State.reset))

/-- A trunk with a received frame waiting. -/
def waiting (b : Bytes) (s : State) : State := setMacRun 128 { rxq := [{ bytes := b, ts := 5 }] } s

/-- VLAN 1 is valid with every port as a member. -/
def vlanOne (s : State) : State := { s with jct := { s.jct with vlan := [(1, BitVec.ofNat 256 (2 ^ 159 + 2 ^ 132 - 1))] } }

theorem witness_JunctionTablesAnswerCommands :
    let w := macWords 1 0x00010200 0x281
    let i := macSet 1 0x020000000001 * 8
    let ins := after (.jctTblInsert 4 (tblGo 1 2 0)) w
    let full := { w with jct := { w.jct with macs := (List.range 8).map fun k => (i + k, (BitVec.ofNat 256 (2 ^ 73 + k + 7))) } }
    writable 4 JCT_TBL_CMD 0 w = true ∧ bit (tblGo 1 2 0) 31 = true ∧ fld (tblGo 1 2 0) 5 4 = 2 ∧ fld (tblGo 1 2 0) 1 0 = 1 ∧
    macFind 1 0x020000000001 w = none ∧ macFree 1 0x020000000001 w = some i ∧
    tblGet 1 i ins = BitVec.ofNat 256 (1 + 0x00010200 * 2 ^ 32 + 0x281 * 2 ^ 64) ∧ rg JCT_TBL_STAT 4 ins = 0 ∧
    macFind 1 0x020000000001 ins = some i ∧
    tblGet 1 i (after (.jctTblDelete 4 (tblGo 1 3 0)) ins) = 0 ∧
    rg JCT_TBL_STAT 4 (after (.jctTblDelete 4 (tblGo 1 3 0)) w) = 6 ∧
    macFree 1 0x020000000001 full = none ∧ rg JCT_TBL_STAT 4 (after (.jctTblInsert 4 (tblGo 1 2 0)) full) = 4 ∧
    fld (tblGo 0 1 4095) 30 16 = 4095 ∧ tblGet 0 4095 (after (.jctTblWrite 4 (tblGo 0 1 4095)) w) =
      BitVec.ofNat 256 (1 + 0x00010200 * 2 ^ 32 + 0x281 * 2 ^ 64) ∧
    rg JCT_TBL_D 4 (after (.jctTblRead 4 (tblGo 0 0 4095)) (after (.jctTblWrite 4 (tblGo 0 1 4095)) w)) = 1 ∧
    rg JCT_TBL_STAT 4 (after (.jctTblWrite 4 (tblGo 0 1 4096)) w) = 2 ∧
    macValid (tblGet 1 i ins) = true ∧ rgF JCT_CTRL 0 31 16 ins ≠ 0 ∧ inReset 196 ins = false ∧ i < 32768 ∧
    macStatic (tblGet 1 i ins) = false ∧
    rgF JCT_CTRL 0 31 16 ins * edgesPerSecond ≤ 2 ^ 45 - sget 0 i ins.jct.macSeen ∧
    (after (.macEntryAgeing ⟨i % 32768, by omega⟩) { ins with mp := { ins.mp with tclk := 2 ^ 45 } }).jct.macs = [] ∧
    after (.macEntryAgeing ⟨i % 32768, by omega⟩) ins = ins ∧
    tblSize 0 = 4096 ∧ fld (tblGo 2 1 9) 1 0 = 2 ∧ ruleUndefined (BitVec.ofNat 256 (3 * 2 ^ 64)) = true ∧
    rg JCT_TBL_STAT 4 (after (.jctTblWrite 4 (tblGo 2 1 9)) (setRg (JCT_TBL_D + 8) 4 3 w)) = 10 ∧
    rgF JCT_SID_VER 9 3 0 (after (.jctTblWrite 4 (tblGo 2 1 9)) (macWords 1 2 0)) = 1 ∧
    rg JCT_TBL_STAT 4 (after (.jctTblInsert 4 (tblGo 0 2 0)) w) = 8 ∧
    rg JCT_TBL_CMD 4 (after (.jctTblRead 4 0x30) w) = 0x30 ∧
    writable 4 JCT_TBL_CMD 0 (setInReset 196 true w) = false := by decide +kernel

theorem witness_JunctionFramesReachTheirDestination :
    let s := vlanOne (diesUp trunkUp)
    let known := setRg TRK_STAT 1 3 { s with jct := { s.jct with
      macs := [(macSet 1 0x020000000001 * 8, macDynamic 1 0x020000000001 129)] } }
    let noLearn := setRg JCT_CTRL 0 (rg JCT_CTRL 0 s &&& 0xFFFFFFFD) known
    let ptp : Bytes := [1, 0x80, 0xC2, 0, 0, 0x0E] ++ zeros 6 ++ [0x88, 0xF7] ++ zeros 46
    let trap := setRg MPT_PORT_CTRL 128 1 s
    (macRun 128 (waiting plain s)).rxq = [⟨plain, 5⟩] ∧ inReset 196 s = false ∧ trunkRole 0 s ≠ roleTwin ∧
    trapPort { port := 128, bytes := plain, ts := 5, cutting := false } s = none ∧ vlanDrops 128 1 s = false ∧
    trapPort { port := 128, bytes := ptp, ts := 5, cutting := false } trap = some 196 ∧
    (jqueue 196 7 (after (.junctionLookup 128 none) (waiting ptp trap))).length = 1 ∧
    vlanDrops 128 1 trunkUp = true ∧
    rgF JCT_CNT_LOOKUP 0 31 16 (after (.junctionLookup 128 none) (waiting plain trunkUp)) = 1 ∧
    firstRule 128 1 plain s.jct.rules = none ∧ bit (rg JCT_CTRL 0 noLearn) 1 = false ∧ ptpAt plain = none ∧
    bit (rg JCT_P_CFG 128 s) 19 = false ∧ isGroup (dstAddr plain) = false ∧ (macFind 1 (dstAddr plain) noLearn).isSome = true ∧
    linkUp 129 noLearn = true ∧ vlanMember 1 129 noLearn = true ∧ bit (rg JCT_P_CFG 129 noLearn) 23 = false ∧
    (jqueue 129 0 (after (.junctionLookup 128 none) (waiting plain noLearn))).length = 1 ∧
    (jqueue 129 0 (after (.junctionLookup 128 none) (waiting plain known))).length = 1 ∧
    (after (.junctionLookup 128 none) (waiting plain known)).jct.macs.length = 2 ∧
    (macRun 128 s).rxq = [] ∧
    claimed 132 128 s = false ∧ internalStream 132 128 7 s = none ∧
    (jqueue 128 7 (after (.internalFrame 0 128 7 ⟨plain, none⟩) s)).length = 1 ∧
    rgF JCT_CNT_MISC 0 23 16 (after (.internalFrame 0 198 7 ⟨plain, none⟩) s) = 1 ∧
    twinLinkOnly 128 (newFrame plain 132 7 s) s = false ∧
    twinLinkOnly 130 (newFrame plain 132 7 s) (setRg TWN_CFG 0 0x80000000 s) = true ∧
    (admitTest 5 (cellsOf (chargedLen aFrame 0 false)) false false [] s).isSome = true ∧
    admitTest 5 65537 false false [] s = none ∧ bridgeDests 128 noLearn = none ∧
    namesBad { port := 128, bytes := plain, ts := 5, cutting := false } 1 none noLearn = false ∧
    destSet { port := 128, bytes := plain, ts := 5, cutting := false } 1 none none noLearn ≠ [] ∧
    destSet { port := 128, bytes := plain, ts := 5, cutting := false } 1 none none
      (setRg JCT_CTRL 0 (rg JCT_CTRL 0 s &&& 0xFFFFFFFD) s) = [] ∧
    mayLook 128 plain s = true ∧ mayLook 128 plain State.reset = false ∧
    mayCut 128 (lookStart 128 plain (ingressStamp 128 0 s) s).1 = false ∧
    ((macRun 128 (after (.junctionLookup 128 (some { bytes := plain, phase := 0 })) s)).arriving.isSome) = true ∧
    inReset 196 (setInReset 196 true s) = true := by decide +kernel

/-- Trunk 0 receives a frame whose first stages were looked up: `f` is held for copies that are cut through. -/
def comingIn (f : Option Nat) (s : State) : State :=
  setArriving 128 (some { looked := { bytes := plain, ts := 5, body := plain }, frame := f }) s

theorem witness_JunctionEndsAgesAndAuditsFrames :
    let cutting := comingIn (some 1) (lineAt 129 2 { aFrame with src := 128, cutting := true } trunkUp)
    let plainIn := comingIn none (vlanOne trunkUp)
    let old := { State.reset with
      mp := { State.reset.mp with counter := BitVec.ofNat 64 (2000000000 * 2 ^ 32) },
      jct := { State.reset.jct with frames := [aFrame], queues := [(199 * 8 + 7, [aCopy 199 7])] } }
    let res := { old with jct := { old.jct with frames := [{ aFrame with residueAt := some 1999999999 }] } }
    let aged := setRg (JCT_AGE + 28) 0 1000 old
    let aud := setRg JCT_AUDIT 0 1 { State.reset with jct := { State.reset.jct with suspects := [0] } }
    (macRun 128 cutting).arriving.isSome = true ∧ 64 ≤ maxLen 128 cutting ∧ (jframe 1 cutting).isSome = true ∧
    aFrame.check = none ∧ aFrame.refs ≠ 0 ∧ (copiesOf 1 cutting).all (fun c => !c.tag) = true ∧
    (jframe 1 (after (.frameLastByte 128 ⟨true, false⟩ 64) cutting)).map (fun g => (g.length, g.cutting)) = some (64, false) ∧
    rgF JCT_CNT_CT 0 15 0 (after (.frameLastByte 128 ⟨false, false⟩ 64) cutting) = 1 ∧
    bit (rg JCT_CAUSE 0 (after (.frameLastByte 128 ⟨false, false⟩ 64) cutting)) 8 = true ∧
    (macRun 128 State.reset).arriving = none ∧ (macRun 128 plainIn).arriving.isSome = true ∧ 64 ≤ maxLen 128 plainIn ∧
    rg MAC_CNT 128 (after (.frameLastByte 128 ⟨true, false⟩ 64) plainIn) = 1 ∧
    rg (MAC_CNT + 4 * 12) 128 (after (.frameLastByte 128 ⟨false, false⟩ 64) plainIn) = 1 ∧
    overAge (aCopy 199 7) aged = true ∧ inReset 196 aged = false ∧
    overAge (aCopy 199 7) (setRg (JCT_AGE + 28) 0 0 old) = false ∧
    jqueue 199 7 (after .ageSweep aged) = [] ∧ rgF JCT_Q_DROP (199 * 8 + 7) 15 0 (after .ageSweep aged) = 1 ∧
    jframe 2 old = none ∧ (copiesOf 1 res).length = 1 ∧
    overAge (aCopy 199 7) (setRg (JCT_AGE + 28) 0 0 res) = false ∧ overAge (aCopy 199 7) (setRg (JCT_AGE + 28) 0 1 res) = true ∧
    rgF JCT_Q_RESIDUE (199 * 8 + 7) 31 16 (after (.residueExpiry 1) (setRg (JCT_AGE + 28) 0 0 res)) = 1 ∧
    rgF JCT_Q_DROP (199 * 8 + 7) 15 0 (after (.residueExpiry 1) (setRg (JCT_AGE + 28) 0 1 res)) = 1 ∧
    jqueue 199 7 (after (.residueExpiry 1) old) ≠ [] ∧ aFrame.residueAt = none ∧
    bit (rg JCT_AUDIT 0 aud) 0 = true ∧ inReset 196 aud = false ∧ aud.jct.auditCell < 65535 ∧
    (after (.auditVisit false false false) aud).jct.auditCell = 1 ∧ aud.jct.suspects.contains aud.jct.auditCell = true ∧
    rgF JCT_CNT_AUDIT 0 31 16 (after (.auditVisit false false false) aud) = 1 ∧
    rgF JCT_CNT_AUDIT 0 15 0 (after (.auditVisit true true false) aud) = 1 ∧
    bit (rg JCT_AUDIT 0 (setRg JCT_AUDIT 0 0 aud)) 0 = false := by decide +kernel

/-! ### Turnpike and gates -/

/-- A frame queued for a port in a class. -/
def queued (p c : Nat) (s : State) : State :=
  { s with jct := { s.jct with frames := [aFrame], nextId := 2,
                               queues := [(p * 8 + c, [{ aCopy p c with sub := 4096 }])] } }

theorem witness_TurnpikeServesAndShapes :
    let s := queued 128 7 (setRg TPK_P_CFG 128 0x180 (setRg TPK_P_RATE 128 1000 (setRg TPK_P_BURST 128 100 trunkUp)))
    let b := { aCopy 128 7 with sub := 4096 }
    let toll := setRg TPK_TOLL_CIR 4095 100 (setRg TPK_TOLL_CBS 4095 1 State.reset)
    let q := queued 199 7 State.reset
    let map (d : Word) := setRg TPK_MAP_DATA 4 d State.reset
    scheduleDue 128 s = false ∧ portReady 128 s = true ∧ handed 128 s = none ∧ suspended 128 s = none ∧ portHeads 128 s = [b] ∧
    fitTest b s ≠ .oversize ∧ eligible b s = true ∧ bit (rg TPK_P_CFG 128 s) 7 = true ∧ overAge b s = false ∧
    chargeOf b aFrame s ≤ 19136 ∧ (handed 128 (after (.turnpikeSelect ⟨128, ⟨.ok, 0⟩⟩) s)).isSome = true ∧
    portReady 128 State.reset = false ∧ (macRun 128 s).responseDue = false ∧ (macRun 128 s).pauseReq = none ∧
    after (.turnpikeSelect ⟨128, ⟨.ok, 0⟩⟩) (setMacRun 128 { pauseReq := some 0x80010001 } s) =
      setMacRun 128 { pauseReq := some 0x80010001 } s ∧
    (portHeads 128 (lineAt 128 2 aFrame trunkUp)).all (fun x => fitTest x (lineAt 128 2 aFrame trunkUp) != .oversize) = true ∧
    portReady 128 (lineAt 128 2 aFrame trunkUp) = true ∧ handed 128 (lineAt 128 2 aFrame trunkUp) = some (aCopy 128 2) ∧
    overAge { aCopy 199 7 with sub := 4096 } q = false ∧ jqueue 199 6 q = [] ∧
    inReset 197 (setInReset 197 true s) = true ∧
    handed 199 q = none ∧ jqueue 199 7 q = [{ aCopy 199 7 with sub := 4096 }] ∧
    internalAccepts 199 { aCopy 199 7 with sub := 4096 } q = true ∧
    (handed 199 (after (.turnpikeSelect ⟨199, ⟨.ok, 0⟩⟩) q)).isSome = true ∧
    handed 199 (after (.turnpikeSelect ⟨199, ⟨.uncorrectable, 0⟩⟩) q) = none ∧
    State.wf s = true ∧ inReset 197 s = false ∧ bit (rg TPK_P_CFG 128 s) 8 = true ∧
    sget 0 128 (after .shaperAccrual s).tpk.portCredit = 1000 ∧
    State.wf toll = true ∧ rg TPK_TOLL_CIR 4095 toll ≠ 0 ∧ tollC 4095 (after .tollAccrual toll) = tollC 4095 toll + 100 ∧
    writable 4 TPK_MAP_CMD 0 State.reset = true ∧
    rg TPK_MAP_STAT 4 (after (.tpkMapWrite 4 0xC08300C7) (map 5)) = 0 ∧
    (after (.tpkMapWrite 4 0xC08300C7) (map 5)).tpk.map = [(131 * 200 + 199, 5)] ∧
    rg TPK_MAP_STAT 4 (after (.tpkMapWrite 4 0xC08300C7) (map 0x80000005)) = 4 ∧
    rg TPK_MAP_STAT 4 (after (.tpkMapRead 4 0x808400C7) (map 5)) = 2 ∧
    rg TPK_MAP_DATA 4 (after (.tpkMapRead 4 0x808300C7) (after (.tpkMapWrite 4 0xC08300C7) (map 5))) = 5 ∧
    rg TPK_MAP_CMD 4 (after (.tpkMapRead 4 0x300C7) (map 5)) = 0x300C7 ∧
    writable 4 TPK_MAP_CMD 0 (setInReset 197 true State.reset) = false := by decide +kernel

theorem witness_GateListsStartEntriesAndSwitchOver :
    let list (f : Nat) : GateList := { form := f, cycle := 6000, minNs := 8, entries := [0x0000000100000BB8, 0x0000000200000BB8] }
    let at' (f : Nat) (g : GateRun → GateRun) := setGateRun 129 (g { oper := list f, clockEnd := 0 }) State.reset
    let late (s : State) : State := { s with mp := { s.mp with counter := BitVec.ofNat 64 (20000000 * 2 ^ 32) } }
    let vrg := at' formStepped fun g => { g with vergeFrom := some 0, oper := { g.oper with entries := [0x10000000000, 5] } }
    let sel := setRg TPK_SEL 4 129 State.reset
    (gateRun 129 (at' formClock id)).oper.form = formClock ∧
    0 ≤ diff64 (nowX State.reset) (gateRun 129 (at' formClock id)).clockEnd ∧ switchDue 129 (at' formClock id) = false ∧
    entryKind ((gateRun 129 (at' formClock id)).oper.entry 1) = 0 ∧ (verge 129 (at' formClock id)).state = .none ∧
    (gateRun 129 (after (.gateEntryStart 129 .ok) (at' formClock id))).entry = 1 ∧
    diff64 (nowX State.reset) 1 < 0 ∧
    (gateRun 129 State.reset).oper.form = formNone ∧
    0 ≤ dist48 (endPosition (gateRun 129 (at' formRoad fun g => { g with oper := { g.oper with entries := [0x100000000, 5] } })))
      (road 0 (at' formRoad id)).pub ∧
    minPassed (gateRun 129 (at' formRoad id)) (at' formRoad id) = false ∧
    (gateRun 129 (after (.gateEntryStart 129 .ok)
      (at' formRoad fun g => { g with oper := { g.oper with entries := [0x100000000, 5] } }))).stretched = true ∧
    (gateRun 129 (after (.gateEntryStart 129 .ok)
      (at' formRoad fun g => { g with oper := { g.oper with entries := [0x100000000, 5], minNs := 0 } }))).entry = 1 ∧
    dist48 (endPosition (gateRun 129 (at' formRoad id))) (road 0 (at' formRoad id)).pub < 0 ∧
    after (.gateStepDeferred 129 .ok) (at' formStepped id) = at' formStepped id ∧
    after (.vergeAutostep 129 .ok) vrg = vrg ∧ sub32 (now vrg) 0 < 10000000 ∧
    minPassed { oper := list formStepped, stepDeferred := true } (late State.reset) = true ∧
    (gateRun 129 (after (.gateStepDeferred 129 .ok) (late (at' formStepped fun g => { g with stepDeferred := true })))).entry
      = 1 ∧
    (gateRun 129 (gateStep 129 .ok (at' formStepped id))).stepDue = some .ok ∧
    (gateRun 129 (takeDueStep 129 (gateStep 129 .ok (late (at' formStepped id))))).entry = 1 ∧
    entryKind ((gateRun 129 vrg).oper.entry 0) = 1 ∧ 10000000 ≤ sub32 (now (late vrg)) 0 ∧
    (gateRun 129 (after (.vergeAutostep 129 .ok) (late vrg))).entry = 1 ∧
    winOf 4 TPK_GCL_COMMIT sel = some 129 ∧ writable 4 TPK_GCL_COMMIT 129 sel = true ∧ gatePending 129 sel = false ∧
    gclForm 129 sel = formNone ∧
    (gateRun 129 (after (.tpkGclCommitGo 4 1) sel)).switchNs = some 2000 ∧
    switchTime 129 (after (.tpkGclCommitGo 4 1) sel) = 2000 ∧
    switchTime 129 (after (.tpkGclCommitCancel 4 2) (after (.tpkGclCommitGo 4 1) sel)) = 0 ∧
    rgF TPK_P_CNT 129 15 8 (after (.tpkGclCommitGo 4 1) (after (.tpkGclCommitGo 4 1) sel)) = 1 ∧
    (gateRun 129 (after (.tpkGclCommitCancel 4 2) (after (.tpkGclCommitGo 4 1) sel))).switchNs = none ∧
    switchDue 129 sel = false ∧ switchDue 129 (late (after (.tpkGclCommitGo 4 1) sel)) = true ∧
    rg TPK_GCL_SWITCH 129 (after (.gateSwitchOver 129 .ok) (late (after (.tpkGclCommitGo 4 1) sel))) = 20000000 := by
  decide +kernel

/-! ### Recovery and check units -/

theorem witness_RecoveryAndCheckUnitsDecide :
    let r := setRg FRE_STR_REC 1023 0x00010008 (setRg FRE_STR_CFG 1023 0x44000000 State.reset)
    let held := setRg FRE_STR_STAT 1023 7 (setRg FRE_STR_HIST 1023 1 (setRg FRE_STR_CFG 1023 0x40000000 State.reset))
    let lat := { setRg FRE_STR_LAT 1023 0x00010000 r with freP := [(1023, 1)] }
    let chk := setRg CHK_CTX_STAT 255 0x40000000 (setRg CHK_CTX_ADDR_HI 255 0x40 (setRg CHK_CTX_FLD 255 4
      (setRg CHK_CTX_COV 255 0x00040000 State.reset)))
    let good := wrBytes 0x4000000004 (beBytes 2 (crcOf (chkPoly 255 chk) (zeros 4))) chk
    inReset 198 r = false ∧ recEn 1023 r = true ∧ rgF FRE_STR_REC 1023 31 16 r ≠ 0 ∧
    bit (rg FRE_STR_STAT 1023 (after (.recoveryResetTimeout 1023) (setRg FRE_STR_STAT 1023 0 r))) 16 = true ∧
    bit (rg FRE_STR_CFG 1023 lat) 26 = true ∧ rgF FRE_STR_LAT 1023 31 16 lat ≠ 0 ∧
    rgF FRE_CNT_MISC2 1023 31 16 (after (.latentPeriodEnd 1023) lat) = 1 ∧
    rgF FRE_CNT_MISC2 1023 31 16 (after (.latentPeriodEnd 1023) { lat with freD := [(1023, 1)] }) = 0 ∧
    bit (rg FRE_STR_STAT 1023 held) 16 = false ∧ (7 : BitVec 16).toNat = rgF FRE_STR_STAT 1023 15 0 held ∧
    bit (recHist 1023 held) 0 = true ∧ (recoverySeq 1023 7 held).2 = false ∧
    (recoverySeq 1023 9 (setRg FRE_STR_STAT 1023 0x10000 held)).2 = true ∧
    bit (rg CHK_CTX_STAT 255 chk) 30 = true ∧ canReach .unit true (base40 CHK_CTX_ADDR_LO CHK_CTX_ADDR_HI 255 chk) (chkNeed 255 chk) chk = true ∧
    answer (base40 CHK_CTX_ADDR_LO CHK_CTX_ADDR_HI 255 chk) .ok chk = .ok ∧ chkAlive 255 chk = false ∧
    rgF CHK_CTX_CNT_PASS 255 31 0 (after (.checkTriggerVerdict 255 .ok) good) = 1 ∧
    rgF CHK_CTX_CNT_FAIL 255 31 16 (after (.checkTriggerVerdict 255 .ok) (wrByte 0x4000000001 1 good)) = 1 ∧
    canReach .unit true 0 8 chk = false ∧
    bit (rg CHK_CTX_CAUSE 255 (after (.checkTriggerVerdict 255 .ok) (setRg CHK_CTX_ADDR_HI 255 0 chk))) 4 = true ∧
    bit (rg CHK_CTX_STAT 255 State.reset) 30 = false := by decide +kernel

/-! ### Work queues -/

/-- Queue 1023 of a kind, running with rings of 16 and its areas in lane-local memory. -/
def queueOn (kind : Nat) (r : QueueRun) : State :=
  setQueueRun 1023 r (setRg QMG_Q_STAT 1023 1 (setRg QMG_Q_CFG 1023 (w32 (2 ^ 31 + kind * 2 ^ 20 + 0x21000))
    (setRg QMG_Q_IDX_HI 1023 0x40 (setRg QMG_Q_RING_HI 1023 0x40 (setRg QMG_Q_RING_LO 1023 0x100
      (setRg QMG_Q_CRING_HI 1023 0x40 (setRg QMG_Q_CRING_LO 1023 0x1000 State.reset)))))))

theorem witness_QueuesFollowTheirIndices :
    let run := queueOn 0 {}
    let off := setRg QMG_SEL 4 1023 (setRg QMG_Q_STAT 1023 0 (setRg QMG_Q_CFG 1023 0x21000 run))
    let full := setQueueRun 1023 { cprod := 16 } run
    let inv := setQueueRun 1023 { prefetch := [(0, [1]), (1, [2])], prod := 2, fetched := 2 } run
    inReset 205 run = false ∧ qState 1023 run = qRunning ∧ qState 1023 off ≠ qRunning ∧ qState 1023 off ≠ qHolding ∧
    rgF QMG_CNT_DB 0 15 0 (after (.qmgDoorbell 1023 .ok) off) = 1 ∧
    rgF QMG_CNT_DB 0 15 0 (after (.qmgDoorbell 1023 .ok) (after (.qmgDoorbell 1023 .ok) off)) = 1 ∧
    (rungOn (edgeNow run) run).contains 1023 = false ∧
    canReach .unit true (qIndex 1023 run) 64 run = true ∧ answer (qIndex 1023 run) .ok run = .ok ∧
    qState 1023 (after (.qmgDoorbell 1023 .ok) (wrLe 0x4000000000 4 17 run)) = qError ∧
    (queueRun 1023 (after (.qmgDoorbell 1023 .ok) (wrLe 0x4000000000 4 16 run))).prod = 16 ∧
    winOf 4 QMG_Q_CFG off = some 1023 ∧ writable 4 QMG_Q_CFG 1023 off = true ∧ bit (rg QMG_Q_CFG 1023 off) 31 = false ∧
    qState 1023 off ≠ qShutting ∧
    qState 1023 (after (.queueEnable 4 0x80021000 .ok) (wrLe 0x4000000000 4 16 off)) = qRunning ∧
    writable 4 QMG_INVAL 0 inv = true ∧
    (queueRun 1023 (after (.qmgInvalGo 4 0x800007FF) inv)).prefetch = [(1, [2])] ∧
    rg QMG_INVAL_DONE 4 (after (.qmgInvalGo 4 0x800007FF) inv) = 1 ∧
    cringFull 1023 run = false ∧ cringFull 1023 full = true ∧
    (queueRun 1023 (after (.cringPoll 1023 {}) (wrLe 0x400000000C 4 3 full))).ccons = 3 ∧
    qState 1023 (setRg QMG_Q_STAT 1023 0 run) = qDisabled ∧ rdWord (qIndex 1023 run) run = (queueRun 1023 run).next ∧
    qState 1023 (after (.queueShutdown 1023 {}) (wrLe 0x4000000000 4 17 run)) = qError ∧
    qState 1023 (after (.queueShutdown 1023 {}) run) = qDisabled ∧
    bit (rg QMG_Q_CFG 1023 (after (.queueShutdown 1023 {}) run)) 31 = false := by decide +kernel

theorem witness_QueuesInTheirOtherCases :
    let run := queueOn 0 {}
    let lost := setRg QMG_Q_IDX_HI 1023 0 run
    let busy := queueOn 0 { prod := 1 }
    let off := setRg QMG_SEL 4 1023 (setRg QMG_Q_STAT 1023 0 (setRg QMG_Q_CFG 1023 0x21000 run))
    let full := setQueueRun 1023 { cprod := 16 } run
    qProcessing 1023 run = false ∧ canReach .unit true (qIndex 1023 lost) 64 lost = false ∧
    qState 1023 (after (.qmgDoorbell 1023 .ok) lost) = qError ∧ rgF QMG_Q_STAT 1023 18 16 (after (.qmgDoorbell 1023 .ok) lost) = 5 ∧
    qProcessing 1023 busy = true ∧ (queueRun 1023 (after (.qmgDoorbell 1023 .ok) busy)).ringAgain = true ∧
    inReset 205 (setInReset 205 true run) = true ∧ writable 4 QMG_Q_CFG 1023 (setInReset 205 true off) = false ∧
    qState 1023 (after (.queueEnable 4 0x80021000 .ok) (wrLe 0x4000000000 4 17 off)) = qError ∧
    rg QMG_INVAL 4 (after (.qmgInvalGo 4 0x7FF) run) = 0x7FF ∧ writable 4 QMG_INVAL 0 (setInReset 205 true run) = false ∧
    qState 1023 (after (.cringPoll 1023 {}) (wrLe 0x400000000C 4 17 full)) = qError ∧
    (queueRun 1023 run).dispatch = [] ∧ (queueRun 1023 run).failed = none ∧ (queueRun 1023 run).busy = false ∧
    (queueRun 1023 run).batch = 0 := by decide +kernel

/-- Queue 1023 with one prefetched entry. -/
def queueWith (kind : Nat) (e : Bytes) : State := queueOn kind { prod := 1, fetched := 1, prefetch := [(0, e)] }

theorem witness_QueueEntriesAreCarriedOut :
    let tx (len : Nat) := leBytes 5 0x4000002000 ++ zeros 3 ++ leBytes 2 len ++ [128, 5] ++ zeros 20
    let job (code : Nat) := [0, 0] ++ leBytes 2 code ++ zeros 28
    let hw (kind : Byte) := leBytes 5 0xF00000101C ++ zeros 5 ++ [kind, 0] ++ leBytes 4 5 ++ zeros 16
    let rx := leBytes 5 0x4000002000 ++ zeros 3 ++ leBytes 2 64 ++ zeros 22
    let got := { setRg QMG_Q_BUF 1023 64 (queueWith 1 rx) with jct := { frames := [aFrame], nextId := 2, queues := [(196 * 8 + 0, [aCopy 196 0])] } }
    entryReady 1023 0 (queueWith 0 (tx 60)) = true ∧ qEntry 1023 (queueWith 0 (tx 60)) = tx 60 ∧
    transmitPieces (tx 60) [] (wrrCharge 1023 1 (queueWith 0 (tx 60))) = .ok [(0x4000002000, 60)] ∧
    answer 0x4000002000 .ok (queueWith 0 (tx 60)) = .ok ∧
    (jqueue 128 5 (after (.transmitEntry 1023 {}) (queueWith 0 (tx 60)))).length = 1 ∧
    rdBytes 0x4000001000 8 (after (.transmitEntry 1023 {}) (queueWith 0 (tx 60))) = [0, 0, 0, 0, 1, 0, 0, 0] ∧
    rdBytes 0x4000000004 8 (after (.transmitEntry 1023 {}) (queueWith 0 (tx 60))) = [1, 0, 0, 0, 1, 0, 0, 0] ∧
    transmitPieces (tx 59) [] (wrrCharge 1023 1 (queueWith 0 (tx 59))) = .error 3 ∧
    rgF QMG_Q_STAT 1023 18 16 (after (.transmitEntry 1023 {}) (queueWith 0 (tx 59))) = 3 ∧
    entryReady 1023 2 (queueWith 2 (job 32767)) = true ∧ stepMode (queueWith 2 (job 32767)) = false ∧
    jobEntryError (job 32767) = 0 ∧ jobEntryError (job 32768) = 6 ∧
    rgF QMG_Q_CNT 1023 31 0 (after (.laneJobEntry 1023 {}) (queueWith 2 (job 32767))) = 1 ∧
    rgF QMG_Q_STAT 1023 18 16 (after (.laneJobEntry 1023 {}) (queueWith 2 (job 32768))) = 6 ∧
    entryReady 1023 3 (queueWith 3 (hw 1)) = true ∧ hostWorkError (hw 1) = 0 ∧ hostWorkError (hw 2) = 6 ∧
    rdByte 0x4000001006 (after (.hostWorkEntry 1023 {}) (queueWith 3 (hw 1))) = 0 ∧
    rgF QMG_Q_STAT 1023 18 16 (after (.hostWorkEntry 1023 {}) (queueWith 3 (hw 2))) = 6 ∧
    beginEntry 1023 0 (queueOn 0 {}) = false ∧
    jqueue 196 0 got = [aCopy 196 0] ∧ overAge (aCopy 196 0) got = false ∧
    receiveQueue 0 got = some 1023 ∧ postingError 1023 rx got = 0 ∧ qEntry 1023 got = rx ∧
    jqueue 196 0 (after (.receiveFrameWrite 0 {}) got) = [] ∧
    rgF QMG_Q_CNT 1023 31 0 (after (.receiveFrameWrite 0 {}) got) = 1 ∧ (tx 60).length = 32 ∧
    (qCslot 1023 0 got + 32 ≤ qIndex 1023 got + 4 ∨ qIndex 1023 got + 12 ≤ qCslot 1023 0 got) := by decide +kernel

theorem witness_QueueEntriesInTheirOtherCases :
    let job := queueWith 2 ([0, 0] ++ leBytes 2 32767 ++ zeros 28)
    let step := setRg TWN_CFG 0 0xC0008000 job
    let rd := queueWith 3 (leBytes 5 0xF00000101C ++ zeros 5 ++ [0, 0] ++ zeros 20)
    let rx := leBytes 5 0x4000002000 ++ zeros 3 ++ leBytes 2 64 ++ zeros 22
    let got := { setRg QMG_Q_BUF 1023 64 (queueWith 1 rx) with
      jct := { frames := [aFrame], nextId := 2, queues := [(196 * 8 + 0, [aCopy 196 0])] } }
    let run := queueOn 0 {}
    stepMode step = true ∧ entryReady 1023 2 step = true ∧
    (queueRun 1023 (after (.laneJobEntry 1023 {}) step)).dispatch.length = 1 ∧
    hostWorkError (qEntry 1023 rd) = 0 ∧ leAt (qEntry 1023 rd) 10 1 = 0 ∧ entryReady 1023 3 rd = true ∧
    rgF QMG_Q_CNT 1023 31 0 (after (.hostWorkEntry 1023 {}) rd) = 1 ∧
    accessError 7 false 0xF00000101C 4 (wrrCharge 1023 1 rd) = false ∧ accessError 7 false 0xF000170000 4 (wrrCharge 1023 1 rd) = true ∧
    beginEntry 1023 2 (queueOn 2 {}) = false ∧ beginEntry 1023 3 (queueOn 3 {}) = false ∧
    (List.range 8).all (fun k => k == 0 || jqueue 196 k got == []) = true ∧ (aCopy 196 0).trunc = 0 ∧
    jframe 1 got = some aFrame ∧ aFrame.cutting = false ∧ inReset 205 got = false ∧ qState 1023 got = qRunning ∧
    (queueRun 1023 got).prod ≠ (queueRun 1023 got).next ∧ cringFull 1023 got = false ∧ (queueRun 1023 got).holding = [] ∧
    wrrTurn got = some 1023 ∧ entryError 1023 .ok got = 0 ∧ (queueRun 1023 run).mute = false ∧
    rg QMG_Q_CAUSE 1023 (after (.transmitEntry 1023 {}) (queueOn 0 { prod := 1, cprod := 16 })) = 4 ∧
    answer (leAt rx 0 5) .ok got = .ok ∧ aFrame.bytes.length ≤ leAt rx 8 2 ∧
    bit (rg QMG_Q_CFG 1023 run) 29 = false ∧ (queueRun 1023 run).batch = 0 ∧ (queueRun 1023 run).ringAgain = false ∧
    ringError (qCslot 1023 0 run) 32 .ok run = 0 ∧ ringError (qIndex 1023 run) 64 .ok run = 0 ∧
    rdWord (qIndex 1023 run + 8) (finishEntry 1023 {} 5 9 (zeros 32) run) = 1 := by decide +kernel

/-! ### DMA -/

theorem witness_DmaChannelsTestStartAndMoveBytes :
    let s := setRg DMA_SRC_HI 71 0x40 (setRg DMA_DST_HI 71 0x40 (setRg DMA_DST_LO 71 0x102 (setRg DMA_COUNT 71 4
      (wrBytes 0x4000000000 [1, 2, 3, 4] State.reset))))
    let busy := after (.dmaStart 71) s
    inReset 204 s = false ∧ dmaBusy 71 s = false ∧ bit (rg DMA_MODE 71 s) 6 = false ∧ dmaCount 71 s = 4 ∧
    dmaConfigBad 71 s = false ∧ dmaRangeOk (dmaSrc 71 s) 4 s = true ∧ dmaRangeOk (dmaDst 71 s) 4 s = true ∧
    dmaShuffle 71 s = 0 ∧ dmaBusy 71 busy = true ∧ rg DMA_STAT 71 busy = 0x401 ∧
    rdBytes 0x4000000102 4 (after (.dmaComplete 71) busy) = [1, 2, 3, 4] ∧
    rdBytes 0x4000000102 4 (after (.dmaMemFault 71 2) busy) = [1, 2, 0, 0] ∧
    rgF DMA_STAT 71 31 8 (after (.dmaMemFault 71 2) busy) = 2 ∧
    after (.dmaStart 71) busy = busy ∧ rg DMA_CAUSE 71 (after (.dmaStart 71) { busy with mp := { busy.mp with tclk := 1 } }) = 1 ∧ rg DMA_CAUSE 71 (after (.dmaStart 71) (setRg DMA_MODE 71 5 s)) = 2 ∧
    dmaRangeOk (dmaSrc 71 (setRg DMA_SRC_HI 71 0 s)) 4 s = false ∧
    rg DMA_CAUSE 71 (after (.dmaStart 71) (setRg DMA_SRC_HI 71 0 s)) = 4 ∧
    rg DMA_STAT 71 (after (.dmaDisarm 71) (after (.dmaArm 71) s)) = 0 ∧ rg DMA_STAT 71 (after (.dmaArm 71) s) = 2 ∧
    inReset 204 (setInReset 204 true s) = true ∧
    dmaArmed 71 s = false ∧ rg DMA_CAUSE 71 (after (.dmaStart 71) (setRg DMA_MODE 71 0x40 s)) = 1 ∧
    rgF DMA_CNT 71 31 16 (after (.dmaStart 71) (setRg DMA_COUNT 71 0 s)) = 1 ∧
    rg DMA_CAUSE 71 (after (.dmaStart 71) (setRg DMA_DST_LO 71 2 (setRg DMA_COUNT 71 8 (setRg DMA_MODE 71 3 s)))) = 8 ∧
    dmaAnswers 71 busy = true ∧ dmaSrcFixed 71 busy = false ∧ dmaDstFixed 71 busy = false ∧
    (sget [] 71 busy.dmaHeld).length = 4 ∧ dmaAnswers 71 (setInReset 211 true (setRg DMA_SRC_HI 71 0 (setRg MEM_STAT 0 2 busy))) = false ∧
    dmaConfigBad 71 (setRg DMA_DST_LO 71 2 (setRg DMA_COUNT 71 8 (setRg DMA_MODE 71 3 s))) = false := by decide +kernel

/-! ### Faults and journal -/

theorem witness_CauseBitsRaiseTheirFaultSources :
    bit (rg ROA_CAUSE 63 State.reset) 31 = false ∧ srcSticky 1407 (setCause ROA_CAUSE 63 31 State.reset) = true ∧
    srcSticky 831 (setCause LNC_DST_CAUSE 63 3 State.reset) = true ∧
    srcSticky 1343 (setCause CHK_CTX_CAUSE 255 0 State.reset) = true := by decide +kernel

theorem witness_FaultsAreForcedServedAndReleased :
    let s := setRg FLT_SEL 4 63 State.reset
    let o : Occurrence := { src := 3, cls := 15, time := 0, forced := false, count := 1 }
    let q (a : Word) := setRg (FLT_CLS_ACT) 15 a { State.reset with flt := { State.reset.flt with queue := [o] } }
    let low := setRg FLT_SAFE_CTRL 0 1 { State.reset with
      flt := { State.reset.flt with safeLow := true }, sys := { State.reset.sys with phase := .running } }
    winOf 4 FLT_G_FORCE s = some 63 ∧ writable 4 FLT_G_FORCE 63 s = true ∧ rg FLT_G_FORCE 63 s = 0 ∧
    (edgeOccurred s).contains 2047 = false ∧ (edgeOccurred (after (.fltGForceWrite 4 0x80000000) s)).contains 2047 = true ∧
    s.flt.queue.length < 256 ∧ srcSticky 2047 (after (.fltGForceWrite 4 0x80000000) s) = true ∧
    (q 0).flt.queue = [o] ∧ (q 0).flt.begun = false ∧ (q 0).flt.noted = [] ∧ rg FLT_CLS_ACT 15 (q 0) = 0 ∧
    rgF FLT_CLS_CNT 15 31 16 (after (.reactionServe .ok) (q 0)) = 1 ∧
    rgF FLT_SAFE_CTRL 0 0 0 (setRg FLT_SAFE_CTRL 0 1 (q 1)) = 1 ∧
    (after (.reactionServe .ok) (setRg FLT_SAFE_CTRL 0 1 (q 1))).flt.safeLow = true ∧
    State.reset.flt.queue = [] ∧ writable 4 FLT_SAFE_CTRL 0 low = true ∧ safePending low = false ∧
    (after (.fltSafeRelease 4 0x80000000) low).flt.safeLow = false ∧
    writable 4 (FLT_ISO + 16) 0 State.reset = true ∧
    rg (FLT_ISO + 16) 0 (after (.fltIsoClear 4 4 8) (setRg (FLT_ISO + 16) 0 12 State.reset)) = 4 ∧
    writable 4 FLT_G_FORCE 63 (setInReset 206 true s) = true ∧ o.cls < 16 ∧ rg FLT_CLS_ACT 15 (q 1) = 1 ∧
    rgF FLT_SAFE_CTRL 0 15 8 (after (.fltSafeRelease 4 0x80000000) { low with sys := State.reset.sys }) = 1 ∧
    State.reset.sys.phase ≠ .running ∧ after (.fltSafeRelease 4 0) low = low ∧
    sget 16 3 (after .eventBudgetTick { State.reset with flt := { State.reset.flt with budget := [(3, 2)] } }).flt.budget = 3 := by
  decide +kernel


theorem witness_TheJournalWritesDrainsAndAcknowledges :
    let s := setRg JNL_BASE_HI 0 0x40 (setRg (JNL_C_LAYOUT) 1 1 (setRg (JNL_C_LAYOUT) 2 1 (setRg (JNL_C_LAYOUT) 0 1 State.reset)))
    let r : JRecord := { cls := 2, kind := 3, flags := 0, origin := 7, time := 9, epoch := 1, body := zeros 48 }
    let x : AlarmRun := { firstTime := 1, firstEpoch := 0, lastTime := 2, lastEpoch := 0, count := 3, head := zeros 16, flags := 0 }
    let inq := { s with jnl := { s.jnl with intake := [r] } }
    let sum := { s with jnl := { s.jnl with summaries := [(2047, some x)] } }
    let on := setRg JNL_P_CFG 3 0x80070080 (setRg JNL_P_BUDGET 3 1000 s)
    let fin := setDrainPath 3 { sending := true } s
    let ack := setRg (JNL_C_WR) 0 5 s
    let m := zeros 14 ++ [2, 0, 0, 0, 0, 0, 0, 4] ++ zeros 38
    let got := setHanded 197 (some (aCopy 197 7)) { ack with jct := { ack.jct with frames := [{ aFrame with bytes := m, src := 131 }] } }
    inq.jnl.intake = [r] ∧ inReset 207 s = false ∧ jnlCap 2 s ≠ 0 ∧ canReach .unit true (jnlAddr 2 (jnlWr 2 s) s) 64 s = true ∧
    answer (jnlAddr 2 (jnlWr 2 s) s) .ok s = .ok ∧ ringFull 2 s = false ∧
    jnlWr 2 (after (.journalRecordWrite .ok) inq) = 1 ∧ rdBytes 0x4000000000 4 (after (.journalRecordWrite .ok) inq) = [9, 0, 0, 0] ∧
    s.jnl.intake = [] ∧ s.jnl.summaries = [] ∧ ringFull 0 s = false ∧ jnlCap 0 s ≠ 0 ∧
    jnlWr 0 (after (.alarmSummaryWrite .ok) sum) = 1 ∧
    pathOn 3 on = true ∧ (List.range 3).all (fun c => !pathDrains 3 c on || untaken 3 c on == 0) = true ∧
    (drainPath 3 (after .journalCreditStep on)).alarmMilli = min (fullPayload 3 on * 1000) (1000 * pathShare 3 on / 16) ∧
    pathOn 3 fin = false ∧ (drainPath 3 fin).sending = true ∧
    (drainPath 3 (after (.journalDrainFrameEnd 3) fin)).sending = false ∧
    writable 4 JNL_ALM_ACK 0 ack = true ∧ rg JNL_ALM_ACK 0 (after (.jnlAlmAckWrite 4 5) ack) = 5 ∧
    rgF JNL_CNT_ALM 0 7 0 (after (.jnlAlmAckWrite 4 6) ack) = 1 ∧
    handed 197 got = some (aCopy 197 7) ∧ rg JNL_ALM_ACK 0 (after .journalAckFrame got) = 4 ∧ handed 197 s = none ∧
    r.cls < 3 ∧ r.body.length = 48 ∧ inReset 207 (setInReset 207 true got) = true ∧
    handed 197 (after .journalAckFrame (setInReset 207 true got)) = none ∧
    writable 4 JNL_ALM_ACK 0 (setInReset 207 true ack) = false ∧
    fin.jct.frames.any (fun f => f.drain = some 3) = false ∧
    after (.journalDrainFrameEnd 3) { fin with jct := { fin.jct with frames := [{ aFrame with drain := some 3 }] } } =
      { fin with jct := { fin.jct with frames := [{ aFrame with drain := some 3 }] } } := by
  decide +kernel

/-! ### Twin -/

/-- A twin unit of rank 2 in a state; step mode when asked. -/
def twinIn (x : TwinState) (step : Bool) : State :=
  let s := setRg TWN_STAT 0 0x200 (setRg TWN_CFG 0 (if step then 0xC0008000 else 0x80008000) State.reset)
  { s with twn := { s.twn with state := x } }

theorem witness_TwinUnitsPairBeatTakeOverAndYield :
    let p := twinIn .pairing false
    let a := twinIn .active false
    let st := setRgF TWN_STAT 0 18 18 1 (twinIn .standby false)
    let lost := { st with twn := { st.twn with missLink := 255 } }
    let higher := beBytes 4 0xFFFFFFFF ++ zeros 12
    let same := beBytes 4 (claimNumber a).toNat ++ zeros 12
    twinOn p = true ∧ p.twn.state = .pairing ∧ p.twn.paired = false ∧ stepMode p = false ∧ twinRank p = 2 ∧
    rgF TWN_EPOCH 0 23 0 p < 0xFFFFFF ∧ max (rgF TWN_EPOCH 0 23 0 p) (0xFFFFFE : BitVec 24).toNat < 0xFFFFFF ∧
    (after (.twinHelloReceive 1 0xFFFFFE 1 (imageIdentity p)) p).twn.state = .active ∧
    rgF TWN_EPOCH 0 23 0 (after (.twinHelloReceive 1 0xFFFFFE 1 (imageIdentity p)) p) = 0xFFFFFF ∧
    (after (.twinHelloReceive 2 0 1 (imageIdentity p)) p).twn.state = .refused ∧
    (after .soloWaitExpiry p).twn.alone = true ∧ (after .twinHelloTimer a).twn.state = .active ∧
    (after .heartbeatTimer a).twn.missLink = 1 ∧ twinOn st = true ∧ linkHb st = true ∧ backupHb st = false ∧
    (after (.heartbeatReceive false 1 5 2 6 7) st).twn.peerClaim = 6 ∧
    max 1 (rgF TWN_STAT 0 31 24 lost) ≤ lost.twn.missLink ∧ (after (.heartbeatLoss false) lost).twn.state = .active ∧
    w32 (beAt same 0 4) = claimNumber a ∧ claimNumber a < w32 (beAt higher 0 4) ∧
    rgF TWN_STAT 0 23 20 (after (.claimEcho higher) a) = 1 ∧
    (after (.claimEcho higher) (setRgF TWN_STAT 0 23 20 7 a)).twn.state = .isolated ∧
    rgF TWN_STAT 0 23 20 (after (.claimEcho same) (setRgF TWN_STAT 0 23 20 7 a)) = 0 ∧ twinOn State.reset = false ∧
    a.twn.tookOver = none ∧
    rgF TWN_STAT 0 23 20 (after (.claimEcho higher) (setRgF TWN_STAT 0 23 20 7 { a with twn := { a.twn with tookOver := some 0 } })) = 0 ∧
    st.twn.missLink < max 1 (rgF TWN_STAT 0 31 24 st) ∧ twinOn a = true ∧ a.twn.state ≠ .pairing ∧
    w32 (beAt (zeros 16) 0 4) < claimNumber (setRg TWN_EPOCH 0 1 a) := by
  decide +kernel

theorem witness_TwinUnitsMergeInputsEchoAndRejoin :
    let a := { twinIn .active true with twn := { (twinIn .active true).twn with lastMarker := 1, noBoundary := false, markers := [(1, 5)] } }
    twinOn a = true ∧ stepMode a = true ∧ a.twn.paired = false ∧ 0 < a.twn.lastMarker ∧
    a.twn.noBoundary = false ∧ (after .boundaryMarkerEmit a).twn.lastMarker = 2 ∧ closeDue a = some 0 ∧
    sget none 0 (after .closeSend a).twn.ownClose = some 0 ∧
    a.twn.inputs.any (fun y => decide (y.rank = (1 : BitVec 8).toNat ∧ y.seq = 5)) = false ∧
    (after (.twinInputReceive 4 1 3 5 [2, 0, 0, 0, 8]) a).twn.inputs = [{ step := 3, rank := 1, seq := 5, kind := 2, body := [8] }] ∧
    rgF TWN_CNT_HB 0 7 0 (after (.twinInputReceive 9 1 3 5 []) a) = 1 ∧
    closeDue (after .closeSend a) = none ∧ stepMode State.reset = false ∧
    (after (.twinInputReceive 4 1 3 5 [2, 0, 0, 0, 8]) (after (.twinInputReceive 4 1 3 5 [2, 0, 0, 0, 8]) a)).twn.inputs.length = 1 ∧
    a.twn.state ≠ .standby ∧ bit (rg TWN_CFG 0 a) 29 = false ∧ a.twn.state ≠ .isolated := by decide +kernel

/-- A road state and a placement slot copied to a rejoining peer arrive as they were (R370). -/
theorem test_rejoin_copy_round_trip :
    let r : Road := { state := .held, tS := 7, p := 0x123456789, v := 0xFFFFFFFFFFF0, a := 3, pub := 5, prev := 4,
                      entered := 9, lastTime := 8, horizon := 77, lastSeq := some 300, initPending := true }
    let q : SlotRun := { seq := 513, oldSeq := 512, oldGen := 4, rxHi := some 9, rxSeen := 0x8000000000000001 }
    let s := setSlotRun 511 q (setRoad 63 r (setRg ROA_STATE 63 0x250 (setRg MST_PLC_CUR 511 0x80050401 State.reset)))
    let d := twinIn .rejoining true
    let t := takeSync 9 (beBytes 8 (syncRoads + 63) ++ roadSync 63 s) d
    let u := takeSync 9 (beBytes 8 (syncSlots + 511) ++ slotSync 511 s) d
    road 63 t = r ∧ rg ROA_STATE 63 t = 0x250 ∧ slotRun 511 u = q ∧ rg MST_PLC_CUR 511 u = 0x80050401 ∧ u.twn.syncStep = 9 := by decide +kernel

theorem witness_TwinUnitsEchoAndRejoin :
    let sb := twinIn .standby true
    let is' := { twinIn .isolated false with twn := { (twinIn .isolated false).twn with linkSeen := 100 } }
    let auto := setRg TWN_CFG 0 0x90008000 is'
    let rj := { twinIn .rejoining true with twn := { (twinIn .rejoining true).twn with syncStep := 9 } }
    let cp := { twinIn .active false with twn := { (twinIn .active false).twn with copying := true, syncNext := 200000 } }
    let cq := { twinIn .active false with twn := { (twinIn .active false).twn with copying := true, markers := [(1, 5)] } }
    let os := setOutGroup 15 { senders := [⟨7, 131, 0⟩] } (setRg TWN_OS_STAT 15 0x80000000 (setRg TWN_CFG 0 0x20000000 State.reset))
    let has := { twinIn .active true with twn := { (twinIn .active true).twn with
      resend := [{ step := 3, rank := 2, seq := 5, kind := 2, body := [8] }] } }
    twinOn has = true ∧ has.twn.state ≠ .standby ∧
    (after (.resendRequest 5 1) has).jct.frames.length = 1 ∧ (after (.resendRequest 5 1) has).twn = has.twn ∧
    sb.twn.state = .standby ∧ (after (.resendRequest 3 1) sb).twn.state = .isolated ∧
    bit (rg TWN_CFG 0 os) 29 = true ∧ inReset 208 os = false ∧
    (List.range 16).all (fun h => bit (rg TWN_OS_STAT h os) 31 == (h == 15)) = true ∧ (outGroup 15 os).senders = [⟨7, 131, 0⟩] ∧
    os.mp.tclk - 0 ≤ claimWindowEdges os ∧
    writable 4 TWN_CTRL 0 is' = true ∧ bit (1 : Word) 0 = true ∧ is'.twn.state = .isolated ∧
    bit (rg TWN_CFG 0 auto) 28 = true ∧ 100 ≤ auto.twn.linkSeen ∧ rgF TWN_CAUSE 0 5 3 auto = 0 ∧
    rj.twn.state = .rejoining ∧ (after .rejoinCopyDone rj).stp.step = 9 ∧
    cq.twn.copying = true ∧ atBoundary cq = true ∧ (syncBody cq.twn.syncNext cq).isSome = true ∧
    cp.twn.copying = true ∧ (syncBody cp.twn.syncNext cp).isNone = true ∧ (after .rejoinCopyDone cp).twn.copying = false := by decide +kernel

/-! ### Hierarchy -/

/-- A full image with a device section and a section of port 5, built and signed under ECDSA P-384 outside the model, and
the hash of its key. -/
def signedImage : Bytes :=
  beBytes 48 0x534356490100000128810000030000020728F9E8446E8076000000000000000040020000600100000200000000010000 ++
  beBytes 48 0x7E9CA9CC12DB65AC1583871A21D23C15615B93A7E4CC7E4C0EE71DEB910634235856AD5F44B9FE5B7B2CD6455B4B71C8 ++
  beBytes 8 0x0000000000000000 ++
  zeros 152 ++
  beBytes 48 0x0100000020010000140000000000000002000500400100002000000000000000020000000A0000000000000000000000 ++
  beBytes 48 0xFFFF0000000000000000000000000000030000000400000001000000010000000C00000000010800050000000300DE05 ++
  beBytes 48 0x044F34672E6D3E780477313F51B2D13CF319B5639A7B3B80CBA79FB80643145A36ECC13B74BC1A9687B8441E3F8AB3C0 ++
  beBytes 48 0x1F03DBF70049A3ABDF8A52120CDCB2E770469D409FF5D74552E9264C7F3637ECCB9CE30BDB47BD3E3FC319649040085D ++
  beBytes 48 0x27000000000000000000000000000000FF2C64ABA2DECCE965C4139EC93AFA2B0B9C70A196539AA464BD7C67E3839118 ++
  beBytes 48 0xE60F33E5E45CF993E1CB570E7413D9D0FF2C64ABA2DECCE965C4139EC93AFA2B0B9C70A196539AA464BD7C67E3839118 ++
  beBytes 32 0xE60F33E5E45CF993E1CB570E7413D9D000000000000000000000000000000000

def signedKey : Bytes := beBytes 48 0xCCB2A60C9D688D896D1454D7C9B11613DEECC6DC4129F7EFE088AED35262CEA873C79943C746D8BA0848DEC9D9F3A2E2

/-- A manager with workers 1 and 15 in its table, their images in the bundle, and hierarchy trunks. -/
def manager : State :=
  let s := setRg HIE_CFG 0 0x40000000 State.reset
  let w (n : Byte) : Bytes := [n] ++ zeros 7 ++ leBytes 8 77
  { s with img := { s.img with resident :=
    [{ type := 17, instNo := 0, records := [(16, w 1 ++ w 15)] }, { type := 23, instNo := 1, records := [], raw := signedImage },
     { type := 23, instNo := 15, records := [], raw := signedImage }] } }

/-- A worker's status: its number, the identity of its image, its device identifier. -/
def statusOf (w : Byte) (id : Nat) : Bytes := [3, w] ++ zeros 14 ++ beBytes 8 (hdrIdentity signedImage) ++ beBytes 8 id ++ zeros 8

/-- Some address is not a manager's. -/
theorem not_every_address_is_a_managers : ∃ a : BitVec 48, isManagerAddr a = false := by
  by_cases h0 : isManagerAddr 0 = false
  · exact ⟨0, h0⟩
  by_cases h1 : isManagerAddr 1 = false
  · exact ⟨1, h1⟩
  refine ⟨2, ?_⟩
  simp only [isManagerAddr, Bool.or_eq_false_iff, not_and, beq_eq_false_iff_ne, ne_eq] at *
  bv_omega

theorem witness_ManagersAndWorkersKeepTheirStates :
    let st (w x : Nat) (s : State) := setWorkerState w x s
    let wk := setRg HIE_MGR_HI 0 0x80000000 (setRg HIE_CFG 0 0x81000000 State.reset)
    let heard := { wk with hie := { wk.hie with managerLost := false } }
    let inq (p : Bytes) := setSession 3 { queue := [{ kind := 9, epoch := 4, seq := 6, payload := p }] }
      (setRg WPT_S_CFG 3 0x80004000 (st 15 3 manager))
    let out (h : Option (Word × Asker)) := { st 15 3 manager with hie := { manager.hie with outs := [⟨4, 15, 3, h⟩] } }
    let ld := setWorker 15 { offerDue := true } (st 15 2 manager)
    inReset 209 State.reset = false ∧ hieRole State.reset = 0 ∧ hieRole wk = 2 ∧ managerAddr wk = some 0 ∧
    trunksOf roleHierarchy wk = [3] ∧
    (after .hieStatusTimer State.reset).hie.statusSeq = 1 ∧
    (statusOf 1 77).length = 40 ∧ beAt (statusOf 1 77) 0 1 = 3 ∧ beAt (statusOf 1 77) 1 1 = ownWorker wk ∧
    managerActs manager = true ∧ tableId 15 manager = some 77 ∧ workerState 15 manager ≠ workerRefused ∧
    workerState 15 (after (.hieStatusReceive 3 5 (statusOf 15 78)) manager) = workerRefused ∧
    beAt (statusOf 15 77) 16 8 = hdrIdentity (workerImage 15 manager) ∧
    workerState 15 (after (.hieStatusReceive 3 5 (statusOf 15 77)) manager) = workerInService ∧
    heard.hie.managerLost = false ∧ (after (.hieStatusLoss 0) heard).hie.managerLost = true ∧
    workerState 15 (after (.hieStatusLoss 15) (st 15 3 manager)) = workerLost ∧
    (session 3 (inq [1, 15, 3, 0, 0, 0, 0, 9])).queue.length = 1 ∧ inReset 210 (inq []) = false ∧ turnSession (inq []) = some 3 ∧
    bit (rg WPT_S_CFG 3 (inq [])) 14 = true ∧ outstanding 15 (inq []) < maxOut (inq []) ∧
    (after (.relay 0 0 false 3 [] .ok) (inq [1, 15, 3, 0, 0, 0, 0, 9])).hie.outs.length = 1 ∧
    (after (.relayTimeout 4) (out none)).hie.outs = [] ∧ (worker 15 (after (.relayTimeout 4) (out none))).retryWait = true ∧
    rgF HIE_CNT 0 15 0 (after (.relayTimeout 4) (out (some (1, .host 3 {} 2 3)))) = 1 ∧
    (State.reset.hie.outs.find? fun o => decide (o.tag = 4)).isNone = true ∧
    workerState 15 ld = workerLoading ∧ (worker 15 ld).offerDue = true ∧ (worker 15 ld).delivery = none ∧
    (deliveries ld).length < 2 ∧ (List.range 15).all (fun v => workerState v ld != workerLoading) = true ∧
    (worker 15 (after (.imageOffer 15) ld)).delivery = some 0 := by decide +kernel

theorem witness_ManagersAndWorkersInTheirOtherCases :
    let st (w x : Nat) (s : State) := setWorkerState w x s
    let wk := setRg HIE_CFG 0 0x81000000 State.reset
    let inq (p : Bytes) := setSession 3 { queue := [{ kind := 9, epoch := 4, seq := 6, payload := p }] }
      (setRg WPT_S_CFG 3 0x80004000 (st 15 3 manager))
    let full := setRgF HIE_W_STAT 15 20 16 31 (inq [1, 15, 3, 0, 0, 0, 0, 9])
    inReset 209 (setInReset 209 true manager) = true ∧ managerAddr wk = none ∧ hieRole wk = 2 ∧ trunksOf roleHierarchy wk = [3] ∧
    beAt (statusOf 2 77) 1 1 ≠ ownWorker wk ∧
    (beAt (statusOf 0 77) 1 1 = 0 ∧ bit (rg HIE_CAUSE 0 (after (.hieStatusReceive 3 5 (statusOf 0 77)) manager)) 1 = true) ∧
    tableId 14 manager = none ∧ after (.hieStatusReceive 3 5 (statusOf 14 77)) manager = manager ∧
    managerActs wk = false ∧ managerActs State.reset = false ∧ hieRole State.reset ≠ 2 ∧
    beAt ((statusOf 15 77).take 16 ++ zeros 8 ++ (statusOf 15 77).drop 24) 16 8 ≠ hdrIdentity (workerImage 15 manager) ∧
    workerState 15 manager ≠ workerLoading ∧
    workerState 15 (after (.hieStatusReceive 3 5 ((statusOf 15 77).take 16 ++ zeros 8 ++ (statusOf 15 77).drop 24)) manager) =
      workerLoading ∧
    workerState 15 (st 15 3 manager) = workerInService ∧
    turnSession manager = none ∧ maxOut full ≤ outstanding 15 full ∧ turnSession full = some 3 ∧
    (after (.relay 0 0 false 3 [] .ok) full).hie.outs = [] ∧ (session 3 (after (.relay 0 0 false 3 [] .ok) full)).queue = [] ∧
    (worker 15 (st 15 2 manager)).offerDue = false ∧ (worker 15 (st 15 2 manager)).retryWait = false := by decide +kernel

/-- A status of its own number for a worker; which addresses are a manager's stands in the witness below. -/
theorem witness_WorkersTakeStatusesOfManagers :
    let wk := setRg HIE_CFG 0 0x81000000 State.reset
    beAt (statusOf 1 77) 1 1 = ownWorker wk ∧ (statusOf 1 77).length = 40 ∧ inReset 209 wk = false := by decide +kernel

theorem witness_ManagersAreKnownByTwoAddresses :
    isManagerAddr Config.managerA = true ∧ ∃ a : BitVec 48, isManagerAddr a = false :=
  ⟨by simp [isManagerAddr], not_every_address_is_a_managers⟩

/-! ### Waypost -/

def theKey : Bytes := beBytes 32 0x000102030405060708090A0B0C0D0E0F101112131415161718191A1B1C1D1E1F

/-- A Waypost frame of trunk 0 at the endpoint, whose station address is 2. Sessions and the echo association have one key. -/
def atEndpoint (m : Bytes) : State :=
  let s := setRg (MAC_FILT_LO + 4) 128 0x80000000 (setRg MAC_FILT_LO 128 2 State.reset)
  let s := setRg WPT_S_CFG 0 0x80000FFF (setRg WPT_CFG 0 0x00031F90 s)
  let s := setSession 0 { key := some theKey } s
  let s := { s with wpt := { s.wpt with assocKey := [(1, some theKey)] } }
  let b : Bytes := beBytes 6 2 ++ beBytes 6 9 ++ [0x88, 0xB5] ++ m ++ zeros (46 - m.length)
  setHanded 199 (some (aCopy 199 7)) { s with jct := { s.jct with frames := [{ aFrame with bytes := b, src := 128 }] } }

/-- Messages whose trailers were computed outside the model: an opening, a request of epoch 7, a claim echo. -/
def opening : Bytes := beBytes 40 0x010100020000000000000000000800000102030405060708506B606E443D59E88BDD74C24CD56198
def request7 : Bytes := beBytes 36 0x0101000000000007000000010004000000000000741D1E261F9F19731C383BF8B35553B5
def echoMsg : Bytes :=
  beBytes 24 0x010BC0000000000900000001001000000000000000000000 ++ beBytes 24 0x00000000000000006D2CCF0FA12CA351408025ED17A1D101

theorem witness_WaypostFramesAreCheckedAndQueued :
    let op := atEndpoint opening
    let rq := setRg WPT_S_EPOCH 0 7 (atEndpoint request7)
    let m : WpArrival := { trunk := 0, peer := ⟨9, none⟩, msg := opening ++ zeros 6, padded := true }
    waypostFrame State.reset = none ∧ (waypostFrame op).isSome = true ∧ inReset 210 op = false ∧
    ((waypostFrame op).bind fun f => chainTrunk f op) = none ∧
    ((waypostFrame op).bind fun f => waypostMessage f op).map (fun x => (x.trunk, x.peer, x.msg, x.padded)) =
      some (m.trunk, m.peer, m.msg, m.padded) ∧
    m.session = 0 ∧ sessionAdmits 0 m op = true ∧ m.opens = true ∧ m.verified theKey = true ∧ m.badHeader = false ∧
    m.flags = flagOpen ∧ m.type = wpRegRd ∧ m.epoch = 0 ∧ m.seq = 0 ∧ m.len = 8 ∧
    ((waypostFrame rq).bind fun f => waypostMessage f rq).map
      (fun x => (x.verified (epochKey theKey 0 7), x.opens, x.seq, x.epoch)) = some (true, false, 1, 7) ∧
    ((waypostFrame rq).bind fun f => waypostMessage f rq).map (fun x => (x.badHeader, x.flags, hostType x.type)) =
      some (false, 0, true) := by decide +kernel

theorem witness_WaypostMessagesMoveTheirState :
    let op := atEndpoint opening
    let rq := setRg WPT_S_EPOCH 0 7 (atEndpoint request7)
    let ec := atEndpoint echoMsg
    let bad := atEndpoint (zeros 40)
    let arp (ip : Nat) : Bytes := beBytes 6 0xFFFFFFFFFFFF ++ beBytes 6 9 ++ [8, 6, 0, 1, 8, 0, 6, 4, 0, 1] ++ beBytes 6 9 ++ beBytes 4 5 ++ zeros 6
      ++ beBytes 4 ip
    let own := setRg (WPT_IPV4_T + 12) 0 0x0A000001 State.reset
    windowTest (rg WPT_S_HI 0 rq) 1 (session 0 rq).seen = some (1, 1) ∧
    (session 0 (after .waypostReceive rq)).queue = [{ kind := 1, epoch := 7, seq := 1, payload := zeros 4, who := .host 0 ⟨9, none⟩ 7 1 }] ∧
    rg WPT_S_HI 0 (after .waypostReceive rq) = 1 ∧
    ((waypostFrame ec).bind fun f => waypostMessage f ec).map (fun x => (x.session, x.verified theKey, x.badHeader, x.type)) =
      some (0xC0, true, false, wpClaimEcho) ∧ twinOn ec = false ∧
    (sget [] assocEcho (after .associationMessage ec).wpt.peers).length = 1 ∧
    (waypostFrame bad).isSome = true ∧ ((waypostFrame bad).bind fun f => waypostMessage f bad).map (fun x => x.verified theKey) = some false ∧
    ((waypostFrame (setRg WPT_CFG 0 0 op)).bind fun f => waypostMessage f (setRg WPT_CFG 0 0 op)).isNone = true ∧
    rgF WPT_CNT_BAD 0 31 16 (after .waypostReceive (setRg WPT_CFG 0 0 op)) = 1 ∧
    etherType (arp 0x0A000001) = 0x0806 ∧ (arpReply 3 0x0A000001 (arp 0x0A000001) own).isSome = true ∧
    (jqueue 131 7 (after (.arpIcmpRequest 3 (arp 0x0A000001)) own)).length = 1 := by decide +kernel

/-- An ICMP echo request for 10.0.0.1 from 5, and the same with a wrong checksum. -/
def echoRequest (sum : Nat) : Bytes :=
  let ip (c : Nat) := [0x45, 0, 0, 28, 0, 0, 0, 0, 64, 1] ++ beBytes 2 c ++ beBytes 4 5 ++ beBytes 4 0x0A000001
  beBytes 6 2 ++ beBytes 6 9 ++ [8, 0] ++ ip (inetSum (ip 0)) ++ [8, 0] ++ beBytes 2 sum ++ zeros 4 ++ zeros 18

theorem witness_WaypostFramesInTheirOtherCases :
    let op := atEndpoint opening
    let rq := setRg WPT_S_EPOCH 0 7 (atEndpoint request7)
    let forged := setRg WPT_S_EPOCH 0 7 (atEndpoint (request7.take 35 ++ [0]))
    let old := setRg WPT_S_EPOCH 0 8 (atEndpoint request7)
    let shut := setRg WPT_S_CFG 0 0 rq
    let echo2 := after .associationMessage (atEndpoint echoMsg)
    let replay := setHanded 199 (some (aCopy 199 7)) { echo2 with jct := (atEndpoint echoMsg).jct }
    let own := setRg (WPT_IPV4_T + 12) 0 0x0A000001 State.reset
    inReset 210 (setInReset 210 true op) = true ∧ rgF WPT_CNT_BAD 0 31 16 (after .waypostReceive (setInReset 210 true op)) = 1 ∧
    rgF WPT_S_DROP 0 31 24 (after .waypostReceive shut) = 1 ∧ rgF WPT_S_DROP 0 31 24 (after .waypostReceive forged) = 1 ∧
    bit (rg WPT_CAUSE 0 (after .waypostReceive forged)) 0 = true ∧
    rgF WPT_S_DROP 0 23 16 (after .waypostReceive old) = 1 ∧ bit (rg WPT_CAUSE 0 (after .waypostReceive old)) 1 = true ∧
    rgF WPT_CNT_BAD 0 15 0 (after .associationMessage (atEndpoint (echoMsg.take 47 ++ [0]))) = 1 ∧
    rgF WPT_CNT_BAD 0 15 0 (after .associationMessage replay) = 1 ∧
    after .sessionOpen rq = rq ∧ after .associationMessage op = op ∧
    (((session 0 (after .sessionOpen op)).pending).isSome) = true ∧
    (rg (WPT_IPV4_T + 12) 0 State.reset).toNat = 0 ∧ etherType plain ≠ 0x0806 ∧ etherType plain ≠ 0x0800 ∧
    arpReply 3 0x0A000001 (echoRequest 0) own = none ∧
    etherType (echoRequest 0) = 0x0800 ∧ (icmpReply 3 0x0A000001 (echoRequest 0xF7FF) own).isSome = true ∧
    icmpReply 3 0x0A000001 (echoRequest 0) own = none ∧
    (jqueue 131 7 (after (.arpIcmpRequest 3 (echoRequest 0xF7FF)) own)).length = 1 := by decide +kernel

/-- Session 3 has the turn with one request; every right. -/
def asked (kind : BitVec 8) (p : Bytes) (s : State) : State :=
  setSession 3 { queue := [{ kind := kind, epoch := 4, seq := 6, payload := p, who := .host 3 {} 4 6 }] }
    { setRg WPT_S_CFG 3 0x8000FF00 s with sys := { s.sys with phase := .running } }

/-- LM64 mode with a lane of district 63 that can take a transaction. -/
def lm64Up : State := setRg IMG_STAT 0 0x01000000 (setRg LNC_DST_CTRL 63 0 State.reset)

theorem witness_HostRequestsAreCarriedOutInTurn :
    let rd := asked 1 (zeros 4) State.reset
    let wr := asked 2 (beBytes 4 0x10004 ++ beBytes 4 5) State.reset
    let body (len : Nat) := beBytes 8 0x4000000000 ++ beBytes 2 len ++ zeros 2
    let mr := asked 3 (body 1024) State.reset
    let mw := asked 4 (body 4 ++ [1, 2, 3, 4]) State.reset
    let db := asked 5 [0, 1, 3, 0xFF] State.reset
    let ch := asked 7 (beBytes 4 16 ++ [0, 1, 0, 0, 9]) State.reset
    let staged := { State.reset.img with staging := stageBytes 0 (signedImage.take 48) [], transfer := some (0, 3), received := [(0, 576)] }
    let cm := asked 8 (beBytes 4 576 ++ zeros 4) { State.reset with img := staged }
    let lm := asked 12 [0, 9, 1, 1, 0, 5] lm64Up
    (session 3 rd).queue = [{ kind := 1, epoch := 4, seq := 6, payload := zeros 4, who := .host 3 {} 4 6 }] ∧
    rd.sys.restarted ≤ elapsedNs rd ∧ inReset 210 rd = false ∧
    turnSession rd = some 3 ∧ bit (rg WPT_S_CFG 3 rd) 8 = true ∧ bit (rg WPT_S_CFG 3 rd) 15 = true ∧ batchOk 4 (zeros 4) = true ∧
    (session 3 (after (.regRd 3) rd)).queue = [] ∧ rgF WPT_S_CNT 3 15 0 (after (.regRd 3) rd) = 1 ∧
    accessError 7 true (regBase + 0x10004) 4 wr = false ∧ bareBars 0x10004 wr = false ∧
    rg MPT_CTRL 0 (after (.regWr 3) wr) = 5 ∧
    memBody (body 1024) false = some (0x4000000000, 1024) ∧ canReach .hostRead false 0x4000000000 1024 mr = true ∧
    answer 0x4000000000 .ok mr = .ok ∧ (session 3 (after (.memRd 3 .ok) mr)).queue = [] ∧
    canReach .hostRead false 0 4 mr = false ∧
    memBody (body 4 ++ [1, 2, 3, 4]) true = some (0x4000000000, 4) ∧ canReach .hostWrite true 0x4000000000 4 mw = true ∧
    stepMode mw = false ∧ rdBytes 0x4000000000 4 (after (.memWr 3 .ok 0) mw) = [1, 2, 3, 4] ∧
    rgF QMG_CNT_DB 0 15 0 (after (.doorbell 3 .ok) db) = 1 ∧
    loaderBusy ch = false ∧ ch.img.transfer = none ∧ (after (.imgChunk 3) ch).img.transfer = some (0, 3) ∧
    sget 0 16 (after (.imgChunk 3) ch).img.staging = 9 ∧
    hdrTotal (stagedBytes 256 cm) = 576 ∧ receivedAll 576 cm = true ∧ (after (.imgCommit 3) cm).img.verifying.isSome = true ∧
    lm64Op [0, 9, 1, 1, 0, 5] = 1 ∧ lm64Ok [0, 9, 1, 1, 0, 5] = true ∧ lm64Mode lm = true ∧ stepMode lm = false ∧
    mapperUp (afterTurn 3 [] lm) = true ∧ rgF WPT_LM64_CNT 0 31 16 (after (.readIn 3) lm) = 1 ∧
    (after (.lm64Timeout 3) lm).wpt.lateTxns.length = 1 ∧
    rgF WPT_LM64_CNT 0 15 0 (after .lm64LateAnswer (after (.lm64Timeout 3) lm)) = 1 ∧
    bit (rg WPT_S_CFG 3 (setRg WPT_S_CFG 3 0x80000000 mr)) 10 = false ∧
    rgF WPT_S_DROP 3 15 8 (after (.memRd 3 .ok) (setRg WPT_S_CFG 3 0x80000000 mr)) = 1 ∧
    regNumber 0x10004 = some MPT_CTRL := by decide +kernel

theorem witness_HostRequestsInTheirOtherCases :
    let body (len : Nat) := beBytes 8 0x4000000000 ++ beBytes 2 len ++ zeros 2
    let mw := setRg TWN_CFG 0 0xC0008000 (asked 4 (body 4 ++ [1, 2, 3, 4]) State.reset)
    let lm (op : Byte) (b : Bytes) := asked 12 ([0, 9, op, 1] ++ b) lm64Up
    stepMode mw = true ∧ laneRange 0x4000000000 mw = true ∧ canReach .hostWrite true 0x4000000000 4 mw = true ∧
    rdByte 0x4000000000 (after (.memWr 3 .ok 0) mw) = 0 ∧ (after (.memWr 3 .ok 0) mw).twn.inputs.length = 1 ∧
    turnSession State.reset = none ∧ inReset 210 (setInReset 210 true mw) = true ∧ State.reset.wpt.lateTxns = [] ∧
    abortsNow (asked 7 [] State.reset) = false ∧
    lm64Ok [0, 9, 2, 1, 0, 5, 0, 0, 0, 0, 0, 1] = true ∧ lm64Ok [0, 9, 3, 1, 0, 5] = true ∧
    hostType 0x63 = false ∧ (session 3 (after (.regRd 3) (asked 0x63 [] State.reset))).queue = [] ∧
    (let w := setSession 3 { waiting := [(7, { kind := 12, epoch := 4, seq := 6, payload := [] })] } State.reset
     (session 3 (after (.lm64Timeout 3) w)).waiting = [] ∧ (after (.lm64Timeout 3) w).wpt.lateKeys = [7] ∧
       rgF WPT_LM64_CNT 0 31 16 (after (.lm64Timeout 3) w) = 1) ∧
    (let r := { asked 1 (zeros 4) State.reset with sys := { State.reset.sys with phase := .running, restarted := 1 } }
     elapsedNs r < r.sys.restarted ∧ after (.regRd 3) r = r) ∧
    rgF WPT_LM64_CNT 0 31 16 (after (.writeOut 3) (lm 2 [0, 5, 0, 0, 0, 0, 0, 1])) = 1 ∧
    rgF WPT_LM64_CNT 0 31 16 (after (.readOut 3) (lm 3 [0, 5])) = 1 ∧
    (readBatch 7 [0x10004] State.reset).2.2.2 = beBytes 4 (regValue 7 MPT_CTRL State.reset).toNat := by decide +kernel

/-! ### Images -/

/-- The signing key is in slot 2; the signed image is committed for a target. -/
def committed (b : Bytes) (n : Nat) : State :=
  { State.reset with img := { State.reset.img with
      keySlots := [(2, { hash := some signedKey }), (3, { hash := some [] })],
      verifying := some { image := b, target := n, who := .host 0 {} 5 6 } } }

/-- R425: the checks pass an image that was built and signed outside the model. -/
theorem test_image_checks : (checkImage signedImage (committed [] 0)).isNone = true := by decide +kernel

theorem witness_ImagesAreVerifiedAppliedAndKept :
    let bad := committed (zeros 576) 0
    let fl := { State.reset with img := { State.reset.img with flashWrite := some (1, signedImage) } }
    let tr := { State.reset with img := { State.reset.img with transfer := some (0, 3), recordA := recordImage 1 2 5 } }
    let two := { committed [] 0 with img := { (committed [] 0).img with verifying := none } }
    bad.img.verifying.isSome = true ∧ (checkImage (zeros 576) { bad with img := { bad.img with verifying := none } }).isSome = true ∧
    rg IMG_LAST 0 (after (.imageVerifyDone .ok) bad) = 0x01000000 ∧ rgF IMG_CNT 0 15 0 (after (.imageVerifyDone .ok) bad) = 1 ∧
    State.reset.img.verifying = none ∧ State.reset.img.verified = none ∧
    fl.img.recordWait = none ∧ fl.img.flashNext = [] ∧
    (after (.flashWriteDone true) (writeSlot 2 [7] fl)).img.flashWrite = some (2, [7]) ∧ (after (.flashWriteDone true) fl).img.flashA = signedImage ∧
    (after (.flashWriteDone false) fl).img.flashA = [] ∧ bit (rg IMG_CAUSE 0 (after (.flashWriteDone false) fl)) 4 = true ∧
    tr.img.flashWrite = none ∧ (after .imageTransferTimeout tr).img.transfer = none ∧
    (after (.imgCtrlAbort 4 0x20) tr).img.transfer = none ∧ usedRecord tr = some (⟨1, 2, 5⟩, true) ∧
    (after (.imgCtrlPreferGo 4 0x1C) tr).img.recordB = recordImage 1 1 6 ∧
    ((usedRecord (after (.imgCtrlConfirm 4 1) tr)).map fun x => x.1.trial) = some 0 ∧
    mayRevoke 2 two = true ∧ fld (0xA502 : Word) 15 8 = 0xA5 ∧ two.img.revokeFirst = none ∧
    (after (.imgRevokeWrite 4 0xA502 false) two).img.revokeFirst = some (4, 0xA502, 0) ∧
    (keySlot 2 (after (.imgRevokeWrite 4 0xA502 true) (after (.imgRevokeWrite 4 0xA502 false) two))).revoked = true := by decide +kernel

theorem witness_ImagesAreVerified :
    let ok (n : Nat) := after (.imageVerifyDone .ok) (committed signedImage n)
    (ok 0).img.verified.map (fun x => x.2) = some 2 ∧ (ok 1).img.flashWrite.map (fun x => x.1) = some 1 ∧
    rgF IMG_STAT 0 25 25 (ok 1) = 1 ∧ stepMode (committed signedImage 0) = false ∧
    stepMode (setRg TWN_CFG 0 0xC0008000 (committed signedImage 0)) = true ∧
    (after (.imageVerifyDone .ok) (setRg TWN_CFG 0 0xC0008000 (committed signedImage 0))).img.forwarded.isSome = true := by
  decide +kernel

theorem witness_ImagesInTheirOtherCases :
    let rec' (t : Nat) := { State.reset with img := { State.reset.img with recordA := recordImage 1 t 5 } }
    let one := { State.reset with img := { State.reset.img with
      keySlots := [(2, { hash := some signedKey })], revokeFirst := some (4, 0xA502, 0) } }
    usedRecord (rec' 1) = some (⟨1, 1, 5⟩, true) ∧ after (.imgCtrlConfirm 4 1) (rec' 1) = rec' 1 ∧
    usedRecord State.reset = none ∧ mayRevoke 2 one = false ∧ (after (.imgRevokeWrite 4 0xA502 true) one).img.revokeFirst = none ∧
    fld (0x5A02 : Word) 15 8 ≠ 0xA5 ∧ (after (.imgRevokeWrite 4 0x5A02 true) one).img.revokeFirst = none ∧
    State.reset.img.transfer = none := by decide +kernel

/-! ### System -/

theorem witness_DeviceResetsAndBootFollowTheirCause :
    let x : Straps := { rank := 2, boot := 1, barePmd := true }
    let wd := setRg SYS_WDOG_STAT 0 0x10000 State.reset
    let noFit : DdrFit := { source := 0, rankSize := 0, ranks := 0, trains := false }
    let strap (b : BitVec 2) := after (.powerOnReset { rank := 0, boot := b, barePmd := false }) State.reset
    rg SYS_STRAP 0 (after (.powerOnReset x) State.reset) = strapWord x ∧
    bit (rg SYS_RST_CAUSE 0 (after (.systemReset 1000 x) State.reset)) 1 = true ∧
    bit (1 : Word) 0 = true ∧ fld (0xC000C300 : Word) 15 8 = 0xC3 ∧
    bit (rg SYS_RST_CAUSE 0 (after (.softwareReset 4 0xC000C300 x) State.reset)) 4 = true ∧
    (125 : BitVec 8).toInt = 125 ∧ (after (.thermalTrip 0 0 125 x) State.reset).sys.thermalHold = true ∧
    (124 : BitVec 8).toInt < 125 ∧ rgF SYS_WDOG_STAT 0 17 16 wd = 1 ∧
    bit (rg SYS_RST_CAUSE 0 (after (.watchdogReset x) wd)) 3 = true ∧ rgF SYS_WDOG_STAT 0 17 16 State.reset ≠ 1 ∧
    (strap 3).sys.phase = .reset ∧ (strap 3).sys.thermalHold = false ∧ rgF SYS_STRAP 0 3 2 (strap 3) = 3 ∧
    (after (.boot true noFit noFit .ok .ok) (strap 3)).sys.phase = .hold ∧
    (after (.boot true noFit noFit .ok .ok) (strap 1)).sys.phase = .bare ∧
    (asked 1 [] State.reset).sys.phase ≠ .reset ∧
    (after (.boot false noFit noFit .ok .ok) (strap 1)).sys.phase = .bare ∧
    bit (rg SYS_CAUSE 0 (after (.boot false noFit noFit .ok .ok) (strap 1))) 5 = true ∧
    (strap 0).sys.phase = .reset ∧ rgF SYS_STRAP 0 3 2 (strap 0) = 0 ∧
    (after (.boot true noFit noFit .ok .ok) (strap 0)).sys.phase = .bare ∧
    inReset 214 (after (.boot true noFit noFit .ok .ok) (strap 3)) = true ∧
    rgF MEM_STAT 3 2 0 (after (.boot true noFit noFit .ok .ok) (strap 3)) = 3 ∧
    (after (.brownOutReset x) (after (.thermalTrip 0 0 125 x) State.reset)).sys.thermalHold = true ∧
    rgF TWN_STAT 0 9 8 (after (.brownOutReset x) State.reset) = 2 ∧
    after (.systemReset 999 x) State.reset = State.reset ∧ bit (0x4000C300 : Word) 31 = false := by decide +kernel

theorem witness_SystemEventsAreRecorded :
    let run := { diesUp State.reset with sys := { State.reset.sys with phase := .running } }
    let rst := setInReset 214 true (asked 1 [] (diesUp State.reset))
    let kick := { State.reset with sys := { State.reset.sys with kickFirst := some 5 } }
    let hold := { State.reset with sys := { State.reset.sys with phase := .hold } }
    let scrub := setRg MEM_SCRUB 1 1 (setRg MEM_STAT 1 2 State.reset)
    bit (0x800000D6 : Word) 31 = true ∧ bit (0x800000D6 : Word) 30 = false ∧ fld (0x800000D6 : Word) 7 0 = 214 ∧
    inReset 214 run = false ∧ stepMode run = false ∧ inReset 214 (after (.functionReset 4 0x800000D6) run) = true ∧
    mayComplete 214 rst = true ∧ inReset 214 (after (.functionResetComplete 214 .ok) rst) = false ∧ mayComplete 214 run = false ∧
    (after (.watchdogKick 4 0x5A false) run).sys.kickFirst = some 0 ∧
    rgF SYS_WDOG_STAT 0 17 0 (after (.watchdogKick 4 0xA5 true) kick) = max 1 (rgF SYS_WDOG_CFG 0 31 16 kick) ∧
    bit (rg SYS_SUP_CAUSE 0 (after (.watchdogKick 4 0 true) kick)) 1 = true ∧
    rgF SYS_WDOG_STAT 0 17 16 run = 0 ∧ rgF SYS_WDOG_STAT 0 31 24 (after .watchdogStage1 run) = 1 ∧
    bit (rg SYS_CAUSE 0 (after (.monitorReading 127 0 0 (List.replicate 11 0)) run)) 1 = true ∧
    rg SYS_MON_TEMP 0 (after (.monitorReading 127 1 2 (List.replicate 11 0)) run) = 0x0002017F ∧
    dieUp 1 run = true ∧ rgF MEM_STAT 3 2 0 (after (.dieLinkDown 1 true) run) = 0 ∧ dieUp 1 State.reset = false ∧
    rgF MEM_STAT 3 2 0 State.reset < 2 ∧ run.sys.phase ≠ .reset ∧
    dieUp 1 (after (.dieLinkRetrain 1 true) { State.reset with sys := run.sys }) = true ∧
    bit (rg MEM_CAUSE 3 (after (.dieLinkRetryBurst 1 257) run)) 2 = true ∧
    rgF MEM_SCRUB 1 7 0 scrub ≠ 0 ∧ rgF MEM_STAT 1 2 0 scrub = 2 ∧
    rg MEM_CNT 1 (after (.memoryScrubPass 1 65535 1) scrub) = 0xFFFF0001 ∧
    (zeros 48).length = 48 ∧ hold.img.boardDigest = none ∧
    (after (.jtagOtpProgram 6 (zeros 48)) hold).img.boardDigest = some (zeros 48) ∧
    (after (.jtagOtpProgram 6 [1]) (after (.jtagOtpProgram 6 (zeros 48)) hold)).img.boardDigest = some (zeros 48) ∧
    (after (.jtagOtpProgram 6 (zeros 48)) run).img.boardDigest = none := by decide +kernel

theorem witness_SystemEventsInTheirOtherCases :
    let step := setRg TWN_CFG 0 0xC0008000 State.reset
    let low := { State.reset with sys := { State.reset.sys with voltLow := [(10, 2)] } }
    let run := { State.reset with sys := { State.reset.sys with phase := .running } }
    fld (0x80000084 : Word) 7 0 = 132 ∧ stepMode step = true ∧
    (after (.functionReset 4 0x80000084) step).stp.commands = [.resetDistrict 0] ∧ 215 ≤ fld (0x800000D7 : Word) 7 0 ∧
    inReset 214 (setInReset 214 true run) = true ∧
    (10 : Fin 11).val < railNominal.length ∧ railOut (railNominal.getD 10 0) 0 = true ∧ 2 ≤ sget 0 10 low.sys.voltLow ∧
    bit (rg SYS_CAUSE 0 (after (.monitorReading 0 0 0 []) low)) 0 = true ∧
    bit (rg SYS_CAUSE 0 (after (.monitorReading 0 0 0 []) State.reset)) 0 = false ∧
    rg MEM_STAT 2 (after (.dieLinkRetrain 0 false) run) % 8 = 1 ∧ 2 ≤ rgF MEM_STAT 2 2 0 (diesUp State.reset) ∧
    rgF MEM_SCRUB 1 7 0 (setRg MEM_SCRUB 1 0 State.reset) = 0 ∧ rgF MEM_STAT 1 2 0 State.reset ≠ 2 ∧
    bit (rg SYS_CAUSE 0 (after .xoLoss State.reset)) 4 = true ∧
    bit (rg SYS_RST_CAUSE 0 (after .supplySequenceError State.reset)) 6 = true ∧
    rgF SYS_WDOG_STAT 0 17 16 (setRg SYS_WDOG_STAT 0 0x10000 run) ≠ 0 := by decide +kernel

theorem witness_RegisterWritesFollowTheirAccessCodes :
    let a := regBase + 0x90100
    let s := setRg JCT_SEL 3 0x830000 State.reset
    regNumber (a - regBase) = some JCT_P_CFG ∧ accessError 3 true a 4 s = false ∧ JCT_P_CFG / 0x1000 = 0x09 ∧
    reachInst 3 JCT_P_CFG s = some 131 ∧ writable 3 JCT_P_CFG 131 s = true ∧
    rg JCT_P_CFG 131 (after (.registerWrite 3 a 4 0xFFFFFFFF 0 0) s) = 0x07FFFFFF ∧
    writable 3 JCT_P_CFG 131 (setInReset 196 true s) = false ∧
    rg JCT_CAUSE 0 (after (.registerWrite 3 (regBase + 0x90000 + JCT_CAUSE % 0x1000) 4 1 1 0) (setRg JCT_CAUSE 0 3 s)) = 3 ∧
    rg JCT_CAUSE 0 (after (.registerWrite 3 (regBase + 0x90000 + JCT_CAUSE % 0x1000) 4 0 0 1) (setRg JCT_CAUSE 0 3 s)) = 2 ∧
    after (.registerWrite 3 a 2 1 0 0) s = s ∧
    rg JCT_CAUSE 0 (after (.registerWrite 3 (regBase + 0x90000 + JCT_CAUSE % 0x1000) 4 1 0 0) (setRg JCT_CAUSE 0 3 s)) = 2 := by
  decide +kernel

/-! ### Well-formed commands: each check refuses a term -/

/-- A list of n words. -/
def filled {k : Nat} (n : Nat) : List (BitVec k) := List.replicate n 0

theorem filled_length {k : Nat} (n : Nat) : (filled n : List (BitVec k)).length = n := List.length_replicate

theorem smoke_mainsSampleSet : (Instr.mainsSampleSet 0 [1, 2, 3, 4, 5, 6, 7] 0).wf = false := by decide
theorem smoke_vergeMeasurementDone :
    (Instr.vergeMeasurementDone 127 0 0 0 (filled 2049)).wf = false := by simp [Instr.wf, filled_length]
theorem smoke_pfcReceive : (Instr.pfcReceive 131 0 [1, 2, 3, 4, 5, 6, 7]).wf = false := by decide
theorem smoke_macReceiveFrame : (Instr.macReceiveFrame 131 (filled 16385) false 0).wf = false := by simp [Instr.wf, filled_length]
theorem smoke_fragmentReceive :
    (Instr.fragmentReceive 131 { bytes := filled 16385 } true true true true true).wf = false := by
  simp [Instr.wf, filled_length]
theorem smoke_internalFrame : (Instr.internalFrame 67 199 7 ⟨filled 16385, none⟩).wf = false := by simp [Instr.wf, filled_length]
theorem smoke_roadStateReceive : (Instr.roadStateReceive 0 (filled 1401)).wf = false := by simp [Instr.wf, filled_length]
theorem smoke_hieStatusReceive : (Instr.hieStatusReceive 3 0 (filled 1401)).wf = false := by simp [Instr.wf, filled_length]
theorem smoke_relay : (Instr.relay 3 0 true 0 (filled 1401) .ok).wf = false := by simp [Instr.wf, filled_length]
theorem smoke_twinHelloReceive : (Instr.twinHelloReceive 1 0 7 0).wf = false := by decide
theorem smoke_heartbeatReceive : (Instr.heartbeatReceive false 1 0 7 0 0).wf = false := by decide
theorem smoke_twinInputReceive : (Instr.twinInputReceive 4 1 0 0 (filled 65536)).wf = false := by simp [Instr.wf, filled_length]
theorem smoke_claimEcho : (Instr.claimEcho [1]).wf = false := by decide
theorem smoke_boot : (Instr.boot true ⟨3, 0, 0, true⟩ ⟨0, 0, 0, true⟩ .ok .ok).wf = false := by decide
theorem smoke_boot_b : (Instr.boot true ⟨2, 2, 3, true⟩ ⟨0, 3, 0, true⟩ .ok .ok).wf = false := by decide
theorem smoke_functionResetComplete : (Instr.functionResetComplete 215 .ok).wf = false := by decide
theorem smoke_monitorReading : (Instr.monitorReading 0 0 0 (List.replicate 10 1)).wf = false := by decide
theorem smoke_jtagOtpProgram : (Instr.jtagOtpProgram 9 []).wf = false := by decide
theorem smoke_arpIcmpRequest : (Instr.arpIcmpRequest 3 (filled 16385)).wf = false := by simp [Instr.wf, filled_length]
theorem smoke_wellFormed : (Instr.boot true ⟨2, 2, 3, true⟩ ⟨0, 0, 0, false⟩ .ok .ok).wf = true := by decide

/-- The state after reset is safe. -/
theorem test_reset_is_safe : State.reset.safe = true := by decide +kernel

/-- The output balls after power-on (R332, R334, R472), and with an image running on the active unit (R471). -/
theorem test_output_balls :
    let run := setRgF TWN_STAT 0 2 0 2 { State.reset with sys := { State.reset.sys with phase := .running } }
    let bare := { State.reset with sys := { State.reset.sys with phase := .bare } }
    safeBall .full State.reset = .low ∧ faultBall .full State.reset = .released ∧ gpio05 .full State.reset = .released ∧
    flashResetBall State.reset = .low ∧ gpio05 .full run = .high ∧ gpio06 .full run = .high ∧ flashResetBall run = .high ∧
    trunkTx .full 1 bare = .active ∧ trunkTx .full 2 bare = .idle ∧ fieldPair .full 5 bare = .released := by decide +kernel

/-- R450, R30: WDOG is low for 1 ms from an expiry, and GPIO07 high for 1 us from a wrap. -/
theorem test_timed_balls :
    let run := { State.reset with sys := { State.reset.sys with phase := .running } }
    let past (n : Nat) (s : State) : State := { s with mp := { s.mp with elapsed := n * 2 ^ 32 } }
    let wrap := after .milepostTick { run with mp := { run.mp with counter := 0xFFFFFFFFFFFFFFFF } }
    wdogBall .full run = .released ∧ wdogBall .full (after .watchdogStage1 run) = .low ∧
    wdogBall .full (past 1000000 (after .watchdogStage1 run)) = .released ∧
    gpio07 .full run = .low ∧ gpio07 .full wrap = .high ∧ gpio07 .full (past 2000 wrap) = .low := by decide +kernel

end Sys2Proof.Tests
end

section
/-! PROOF. An increment outside the range of R22 is refused, with the laws it rests on: fields of words, the fault
collector's registers, and writes of the servo owner. -/

namespace Sys2Proof.Machine

open Sys2Proof

/-! ### Fields of words (R3) -/

/-- The bits of a replaced field are those of the new value, every other bit is the old one's. -/
theorem setFld_getLsbD (w : Word) (hi lo v j : Nat) (hj : j < 32) :
    (setFld w hi lo v).getLsbD j =
      if lo ≤ j ∧ j < lo + (hi - lo + 1) then v.testBit (j - lo) else w.getLsbD j := by
  have hmask : ((2 ^ (hi - lo + 1) - 1) * 2 ^ lo).testBit j = decide (lo ≤ j ∧ j < lo + (hi - lo + 1)) := by
    rw [Nat.testBit_mul_two_pow, Nat.testBit_two_pow_sub_one, Bool.decide_and]
    by_cases h : lo ≤ j
    · simp only [h, decide_true, Bool.true_and, decide_eq_decide]; omega
    · simp [h]
  simp only [setFld, BitVec.getLsbD_or, BitVec.getLsbD_and, BitVec.getLsbD_not, BitVec.getLsbD_ofNat, hmask, hj,
    Nat.testBit_mul_two_pow]
  by_cases h : lo ≤ j ∧ j < lo + (hi - lo + 1)
  · simp [h]
  · simp [h]

/-- A replaced field reads as the new value, modulo the field's size. -/
theorem fld_setFld_same (w : Word) (hi lo v : Nat) (hlo : lo ≤ hi) (hhi : hi < 32) :
    fld (setFld w hi lo v) hi lo = v % 2 ^ (hi - lo + 1) := by
  refine Nat.eq_of_testBit_eq fun k => ?_
  rw [fld, Nat.testBit_mod_two_pow, Nat.testBit_mod_two_pow, Nat.testBit_div_two_pow]
  by_cases hk : k < hi - lo + 1
  · have hbit := setFld_getLsbD w hi lo v (k + lo) (by omega)
    rw [if_pos (by omega), Nat.add_sub_cancel] at hbit
    rw [BitVec.testBit_toNat, hbit]
  · simp [hk]

theorem bit_setBit_same (w : Word) (i : Nat) (b : Bool) (hi : i < 32) : bit (setBit w i b) i = b := by
  rw [bit, setBit, setFld_getLsbD w i i _ i hi, if_pos (by omega)]
  cases b <;> simp

/-- A counter field that is bumped counts on by one, modulo the field's size. -/
theorem rgF_bump_same (r i hi lo : Nat) (s : State) (hlo : lo ≤ hi) (hhi : hi < 32) :
    rgF r i hi lo (bump r i hi lo s) = (rgF r i hi lo s + 1) % 2 ^ (hi - lo + 1) := by
  rw [bump_eq, rgF, rg_setRg_same, fld_setFld_same _ _ _ _ hlo hhi, rgF]

theorem rg_bump_other {r i hi lo r' i' : Nat} {s : State} (h : rkey r' i' ≠ rkey r i) :
    rg r' i' (bump r i hi lo s) = rg r' i' s := rg_setRg_other r i r' i' _ s h

theorem rg_setRgF_other {r i hi lo v r' i' : Nat} {s : State} (h : rkey r' i' ≠ rkey r i) :
    rg r' i' (setRgF r i hi lo v s) = rg r' i' s := rg_setRg_other r i r' i' _ s h

/-! ### The fault collector's registers (R323-R327) -/

theorem srcSticky_setSticky (src : Nat) (s : State) : srcSticky src (setSticky src s) = true := by
  rw [srcSticky, setSticky, rg_setRg_same, bit_setBit_same _ _ _ (Nat.mod_lt _ (by decide))]

/-- Among the registers below the classes' counts, an occurrence writes its source's sticky bit and FLT_CNT only. -/
theorem rg_occurs (src r i : Nat) (forced rise : Bool) (s : State) (hcnt : rkey r i ≠ rkey FLT_CNT 0)
    (hcls : rkey r i < rkey FLT_CLS_CNT 0) : rg r i (occurs src forced rise s) = rg r i (setSticky src s) := by
  have hother : ∀ c, rkey r i ≠ rkey FLT_CLS_CNT c := fun c => by
    simp only [rkey, FLT_CLS_CNT] at hcls ⊢
    omega
  unfold occurs
  extract_lets s1 n f1 s2 s3 o q f2 s4
  have h1 : rg r i s1 = rg r i (setSticky src s) := rfl
  split
  · exact h1
  · have h3 : rg r i s4 = rg r i s1 := rg_setRgF_other hcnt
    split
    · rw [rg_bump_other hcnt, rg_setRgF_other (hother _), ← h1]
      exact h3
    · exact h3.trans h1

/-- Among those registers a unit's raise of a source writes no others (R323-R326). -/
theorem rg_raiseSrc (src r i : Nat) (s : State) (hcnt : rkey r i ≠ rkey FLT_CNT 0)
    (hcls : rkey r i < rkey FLT_CLS_CNT 0) : rg r i (raiseSrc src s) = rg r i (setSticky src s) := by
  unfold raiseSrc
  split
  · rfl
  · exact rg_occurs src r i _ _ s hcnt hcls

/-- A raised source is sticky. -/
theorem srcSticky_raiseSrc (src : Nat) (s : State) (hsrc : src < 2048) : srcSticky src (raiseSrc src s) = true := by
  rw [← srcSticky_setSticky src s, srcSticky, srcSticky, rg_raiseSrc]
  · simp only [rkey, FLT_G_STICKY, FLT_CNT]; omega
  · simp only [rkey, FLT_G_STICKY, FLT_CLS_CNT]; omega

/-- A cause that was clear raises its source. -/
theorem srcSticky_setCause (r i b src : Nat) (s : State) (hclear : bit (rg r i s) b = false)
    (hsrc : causeSource r i b = some src) (hlt : src < 2048) : srcSticky src (setCause r i b s) = true := by
  simp only [setCause, hclear, hsrc]
  exact srcSticky_raiseSrc src _ hlt

/-- A register before the fault collector's is none of those that an occurrence writes. -/
theorem rkey_before_collector {r i : Nat} (g : Nat) (h : rkey r i < rkey FLT_SEL 0) :
    rkey r i ≠ rkey FLT_G_STICKY g ∧ rkey r i ≠ rkey FLT_CNT 0 ∧ rkey r i < rkey FLT_CLS_CNT 0 := by
  simp only [rkey, FLT_SEL, FLT_G_STICKY, FLT_CNT, FLT_CLS_CNT] at h ⊢
  omega

/-- Of the registers before the fault collector's, setting a cause writes the cause's own only. -/
theorem rg_setCause_other {r i b r' i' : Nat} {s : State} (hne : rkey r' i' ≠ rkey r i)
    (hflt : rkey r' i' < rkey FLT_SEL 0) : rg r' i' (setCause r i b s) = rg r' i' s := by
  have hset := rg_setRg_other r i r' i' (setBit (rg r i s) b true) s hne
  unfold setCause
  split
  · rfl
  · extract_lets s1
    split
    · next src _ =>
      obtain ⟨hsticky, hcnt, hcls⟩ := rkey_before_collector (src / 32) hflt
      rw [rg_raiseSrc src r' i' s1 hcnt hcls, setSticky, rg_setRg_other _ _ _ _ _ _ hsticky]
      exact hset
    · exact hset

/-! ### Writes of the servo owner (R22-R24) -/

/-- A write of the servo owner is made while function 199 is out of reset. -/
theorem ownerWrite_taken {path : Nat} {f : State → State} {s : State} (howner : servoOwner path s = true)
    (hrst : inReset 199 s = false) : ownerWrite path f s = f s := by
  have hw : writable path MPT_INCR_INT 0 s = true := by
    have : ownerOf MPT_INCR_INT 0 = 199 := rfl
    simp [writable, this, hrst]
  simp [ownerWrite, howner, hw]

theorem commitIncr_inRange (x : Nat) (s : State) (h : incrOk x = true) :
    commitIncr x s =
      setRgF MPT_STATUS 0 2 2 1 { s with mp := { s.mp with stagedIncr := BitVec.ofNat 40 x } } := by
  simp [commitIncr, h]

theorem commitIncr_refused (x : Nat) (s : State) (h : incrOk x = false) :
    commitIncr x s = setCause MPT_CAUSE 0 3 (bump MPT_REFUSED 0 31 16 s) := by simp [commitIncr, h]

/-- The servo owner's write of MPT_INCR_INT commits the increment that it completes. -/
theorem exec_mptIncrIntWrite_owner (p : Path) (v : Word) (s : State) (howner : servoOwner p s = true)
    (hrst : inReset 199 s = false) : exec (.mptIncrIntWrite p v) s =
      .next (commitIncr (v.toNat % 256 * 2 ^ 32 + s.mp.stagedFrac.toNat) s) := by
  change Host.Outcome.next (mptIncrIntWrite p v s) = _
  rw [mptIncrIntWrite, ownerWrite_taken howner hrst]

/-- A refused commit writes MPT_REFUSED, MPT_CAUSE and the fault collector only. -/
theorem commitIncr_refused_frame (x : Nat) (s : State) (h : incrOk x = false) :
    ∃ g q, commitIncr x s = { s with regs := g, flt := q } := by
  rw [commitIncr_refused x s h]
  exact causes_trans _ _ _ (causes_of_regs _ _ (bump_frame ..)) (setCause_frame ..)

theorem activeIncr_commitIncr_refused (x : Nat) (s : State) (h : incrOk x = false) :
    activeIncr (commitIncr x s) = activeIncr s := by
  have hkeep : ∀ r, r = MPT_INCR_INT ∨ r = MPT_INCR_FRAC → rg r 0 (commitIncr x s) = rg r 0 s := by
    intro r hr
    have hkeys : rkey r 0 ≠ rkey MPT_CAUSE 0 ∧ rkey r 0 < rkey FLT_SEL 0 ∧ rkey r 0 ≠ rkey MPT_REFUSED 0 := by
      rcases hr with rfl | rfl <;> decide
    obtain ⟨hcause, hflt, hrefused⟩ := hkeys
    rw [commitIncr_refused x s h, rg_setCause_other hcause hflt, rg_bump_other hrefused]
  rw [activeIncr, activeIncr, rgF, rgF, hkeep _ (.inl rfl), hkeep _ (.inr rfl)]

theorem rgF_refused_commitIncr_refused (x : Nat) (s : State) (h : incrOk x = false) :
    rgF MPT_REFUSED 0 31 16 (commitIncr x s) = (rgF MPT_REFUSED 0 31 16 s + 1) % 2 ^ 16 := by
  rw [commitIncr_refused x s h, rgF, rg_setCause_other (by decide) (by decide)]
  exact rgF_bump_same MPT_REFUSED 0 31 16 s (by decide) (by decide)

theorem srcSticky_commitIncr_refused (x : Nat) (s : State) (h : incrOk x = false)
    (hclear : bit (rg MPT_CAUSE 0 s) 3 = false) : srcSticky 1443 (commitIncr x s) = true := by
  rw [commitIncr_refused x s h]
  refine srcSticky_setCause MPT_CAUSE 0 3 1443 _ ?_ rfl (by decide)
  rwa [rg_bump_other (by decide)]

/-- Settles O7: the two cases are the two branches of a commit, in the range of R22 and outside it. -/
theorem incrementsOutOfRangeAreRefused : Obligations.IncrementsOutOfRangeAreRefused := by
  intro p v s howner hrst x
  have hexec := exec_mptIncrIntWrite_owner p v s howner hrst
  constructor
  · intro hin
    rw [hexec, commitIncr_inRange x s (by simpa [incrOk] using hin)]
  · intro hout
    have hbad : incrOk x = false := by simp only [incrOk, decide_eq_false_iff_not]; omega
    have hframe : (commitIncr x s).mp = s.mp ∧ (commitIncr x s).mem = s.mem ∧ (commitIncr x s).lanes = s.lanes := by
      obtain ⟨g, q, hg⟩ := commitIncr_refused_frame x s hbad
      rw [hg]
      exact ⟨rfl, rfl, rfl⟩
    obtain ⟨hmp, hmem, hlanes⟩ := hframe
    exact ⟨commitIncr x s, hexec, activeIncr_commitIncr_refused x s hbad, hmp,
      rgF_refused_commitIncr_refused x s hbad, srcSticky_commitIncr_refused x s hbad, hmem, hlanes⟩

end Sys2Proof.Machine
end

section
/-! PROOF. Cause bits of roads, districts and check contexts raise their sources (R65, R136, R285): what setting a cause
leaves in its own register, and the sources that the three registers raise. -/

namespace Sys2Proof.Machine

open Sys2Proof

/-- Setting a cause that was clear sets its bit: the occurrence that it raises writes none of the cause registers, which
all stand before the fault collector's. -/
theorem bit_setCause_same {r i b : Nat} {s : State} (hb : b < 32) (hflt : rkey r i < rkey FLT_SEL 0) :
    bit (rg r i (setCause r i b s)) b = true := by
  unfold setCause
  split
  · next hset => exact hset
  · extract_lets s1
    have hs1 : bit (rg r i s1) b = true := by rw [rg_setRg_same, bit_setBit_same _ _ _ hb]
    split
    · next src _ =>
      obtain ⟨hsticky, hcnt, hcls⟩ := rkey_before_collector (src / 32) hflt
      rwa [rg_raiseSrc src r i s1 hcnt hcls, setSticky, rg_setRg_other _ _ _ _ _ _ hsticky]
    · exact hs1

/-- A cause before the fault collector's registers: its edge from 0 to 1 leaves it set and its source sticky, and a cause
that is set already changes nothing (R323, R325). -/
theorem setCause_raises_on_edge {r i b src : Nat} (s : State) (hb : b < 32) (hflt : rkey r i < rkey FLT_SEL 0)
    (hsrc : causeSource r i b = some src) (hlt : src < 2048) :
    (bit (rg r i s) b = false →
      bit (rg r i (setCause r i b s)) b = true ∧ srcSticky src (setCause r i b s) = true) ∧
    (bit (rg r i s) b = true → setCause r i b s = s) :=
  ⟨fun hclear => ⟨bit_setCause_same hb hflt, srcSticky_setCause r i b src s hclear hsrc hlt⟩, setCause_set r i b s⟩

theorem causeSource_road (n b : Nat) : causeSource ROA_CAUSE n b = some (1344 + n) := rfl
theorem causeSource_district (d k : Nat) : causeSource LNC_DST_CAUSE d k = some (576 + 4 * d + k) := rfl
theorem causeSource_check (c b : Nat) : causeSource CHK_CTX_CAUSE c b = some (1088 + c) := rfl

/-- A register of an earlier block stands before the fault collector's, whatever it is indexed by. -/
theorem rkey_lt_collector {r i : Nat} (hr : r < FLT_SEL) (hi : i < 2 ^ 24) : rkey r i < rkey FLT_SEL 0 := by
  simp only [rkey]
  omega

/-- Settles O49: each of the three registers stands before the fault collector's, and its source has the number, and so
the group of 32, that its rule names. -/
theorem causeBitsRaiseTheirFaultSources : Obligations.CauseBitsRaiseTheirFaultSources := by
  refine ⟨fun n b s => ?road, fun d k s => ?district, fun c b s => ?check⟩
  case road =>
    have hn := n.isLt
    refine ⟨?_, setCause_raises_on_edge s b.isLt (rkey_lt_collector (by decide) (by omega))
      (causeSource_road n b) (by omega)⟩
    split <;> omega
  case district =>
    have hd := d.isLt
    have hk := k.isLt
    exact ⟨by omega, by omega, setCause_raises_on_edge s (by omega) (rkey_lt_collector (by decide) (by omega))
      (causeSource_district d k) (by omega)⟩
  case check =>
    have hc := c.isLt
    exact ⟨by omega, by omega, setCause_raises_on_edge s b.isLt (rkey_lt_collector (by decide) (by omega))
      (causeSource_check c b) (by omega)⟩

end Sys2Proof.Machine
end

section
/-! PROOF. An instruction that writes one general register does nothing else (R138, R139), and division is one whose
results are those of R145. -/

namespace Sys2Proof.Machine

open Sys2Proof

/-! ### Instructions that write a general register (R138, R139) -/

/-- A lane operation that sets rd and retires is an instruction that writes rd. -/
theorem writesG_of_laneOp {c : Instr} {l : Lane} {v : Word} {rd : GReg} {g : State → LaneState → Word}
    (hword : laneWord c = some (l, v))
    (hexec : ∀ s, exec c s = .next (laneOp l v (fun ln => setG rd (g s ln) ln) s)) : writesG c rd g := by
  intro m w s hw hissue
  obtain ⟨rfl, rfl⟩ : l = m ∧ v = w := by simpa [hword] using hw
  have hop := laneOp_taken l v (fun ln => setG rd (g s ln) ln) s hissue
  refine ⟨_, hexec s, ?_⟩
  rw [hop]
  refine ⟨?only, ?pc, ?regs, ?_⟩
  case only => rw [onlyLane, lane_setLane]
  case pc => simp
  case regs =>
    intro r
    rw [lane_setLane, getG_retire, getG_setG]
    simp only [Fin.ext_iff, ne_eq, Fin.val_zero]
  · simp

/-- An instruction of format A that gives rd a function of rs and rt (R144) writes that function's value. -/
theorem writesG_of_regOp {c : Instr} {l : Lane} {rd rs rt : GReg} {fn : Nat} {f : Word → Word → Word}
    (hword : laneWord c = some (l, encA fn rd rs rt 0))
    (hexec : ∀ s, exec c s = .next (regOp fn l rd rs rt f s)) :
    writesG c rd (fun _ ln => f (getG rs ln) (getG rt ln)) :=
  writesG_of_laneOp hword hexec

/-! ### Division (R145) -/

/-- A number wrapped to 32 bits and stored in a word is that number as a word. -/
theorem w32_wrapI (i : Int) : w32 (wrapI 32 i) = BitVec.ofInt 32 i :=
  BitVec.eq_of_toNat_eq (by simp [w32, wrapI, BitVec.toNat_ofInt]; omega)

/-- The truncated quotient wraps in the signed overflow, and there only, as the word's signed division does. -/
theorem divS_eq_sdiv (x y : Word) : divS x y = if y = 0 then 0xFFFFFFFF else x.sdiv y := by
  have hquot : BitVec.ofInt 32 (x.toInt.tdiv y.toInt) = x.sdiv y :=
    BitVec.eq_of_toInt_eq (by rw [BitVec.toInt_ofInt, BitVec.toInt_sdiv])
  rw [divS, w32_wrapI, si, si, hquot]

theorem divU_eq_udiv (x y : Word) : divU x y = if y = 0 then 0xFFFFFFFF else x / y := by
  have hquot : w32 (x.toNat / y.toNat) = x / y := (BitVec.udiv_def).symm
  rw [divU, hquot]

theorem remS_eq_srem (x y : Word) : remS x y = if y = 0 then x else x.srem y := by
  have hrem : BitVec.ofInt 32 (x.toInt.tmod y.toInt) = x.srem y := by
    rw [← BitVec.toInt_srem, BitVec.ofInt_toInt]
  rw [remS, w32_wrapI, si, si, hrem]

theorem remU_eq_umod (x y : Word) : remU x y = if y = 0 then x else x % y := by
  have hrem : w32 (x.toNat % y.toNat) = x % y := (BitVec.umod_def).symm
  rw [remU, hrem]

/-- Settles O19: each of the four is an instruction of format A, and the model's quotients and remainders are those of
words, with the results of a division by 0 put before them. -/
theorem divisionGivesTheTabledResults : Obligations.DivisionGivesTheTabledResults := by
  intro l rd rs rt
  simp only [← divS_eq_sdiv, ← divU_eq_udiv, ← remS_eq_srem, ← remU_eq_umod]
  exact ⟨writesG_of_regOp rfl fun _ => rfl, writesG_of_regOp rfl fun _ => rfl, writesG_of_regOp rfl fun _ => rfl,
    writesG_of_regOp rfl fun _ => rfl⟩

end Sys2Proof.Machine
end

section
/-! PROOF. What a lane fault records and what it leaves as it was (R132), and TRAP (R167). -/

namespace Sys2Proof.Machine

open Sys2Proof

/-- The lane's part of a fault: it stops with its job ended and its frame buffer returned. -/
def stopFaulted (l : Nat) (pc : Word) (s : State) : State :=
  let s := freeBuffer l s
  let ln := lane l s
  setLane l { ln with run := .faulted, job := none, faultPc := pc, sending := false,
                      stepWrites := ln.stepWrites.take ln.keepWrites,
                      stepSends := ln.stepSends.take ln.keepSends, stepEntries := ln.keepEntries } s

/-- The registers' part of a fault, before the district's cause is set. -/
def noteFault (l cause : Nat) (faddr : Word) (trapCode : Nat) (s : State) : State :=
  setRgF LNC_DST_FAULTED (l / 16) (l % 16) (l % 16) 1 (bump LNC_LANE_CNT_FAULT l 31 0
    (setRg LNC_LANE_FADDR l faddr (setRg LNC_LANE_FAULT l (w32 (trapCode * 65536 + cause)) s)))

theorem laneFault_eq (l cause : Nat) (faddr : Word) (trapCode : Nat) (pc : Word) (s : State) :
    laneFault l cause faddr trapCode pc s =
      setCause LNC_DST_CAUSE (l / 16) 0 (noteFault l cause faddr trapCode (stopFaulted l pc s)) := rfl

/-! ### The lane that stops -/

theorem lane_freeBuffer (l m : Nat) (s : State) : lane m (freeBuffer l s) = lane m s := by
  obtain ⟨x, hx⟩ := freeBuffer_frame l s
  rw [hx]; rfl

theorem lane_stopFaulted_other {l m : Nat} (pc : Word) (s : State) (h : m ≠ l) :
    lane m (stopFaulted l pc s) = lane m s := by
  rw [stopFaulted, lane_setLane_other _ _ _ _ h, lane_freeBuffer]

/-- The lane that stops keeps its registers and its program counter. -/
theorem lane_stopFaulted_same (l : Nat) (pc : Word) (s : State) :
    (lane l (stopFaulted l pc s)).run = .faulted ∧ (lane l (stopFaulted l pc s)).job = none ∧
      (lane l (stopFaulted l pc s)).g = (lane l s).g ∧ (lane l (stopFaulted l pc s)).v = (lane l s).v ∧
      (lane l (stopFaulted l pc s)).pc = (lane l s).pc := by
  simp [stopFaulted, lane_freeBuffer]

/-- Stopping a lane changes lanes and districts only. -/
theorem stopFaulted_frame (l : Nat) (pc : Word) (s : State) :
    ∃ x d, stopFaulted l pc s = { s with lanes := x, districts := d } := by
  obtain ⟨d, hd⟩ := freeBuffer_frame l s
  rw [stopFaulted, hd]
  exact ⟨_, d, rfl⟩

/-! ### The registers that record a fault -/

theorem noteFault_frame (l cause : Nat) (faddr : Word) (trapCode : Nat) (s : State) :
    ∃ x, noteFault l cause faddr trapCode s = { s with regs := x } := ⟨_, rfl⟩

/-- Keys of different registers differ, whatever numbers below 2^24 index them. -/
theorem rkey_ne_of_lt {r r' i i' : Nat} (h : r ≠ r') (hi : i < 2 ^ 24) (hi' : i' < 2 ^ 24) : rkey r i ≠ rkey r' i' := by
  simp only [rkey]
  omega

section
variable {l : Nat} (hl : l < 2 ^ 24) (cause : Nat) (faddr : Word) (trapCode : Nat) (s : State)
include hl

theorem rg_fault_noteFault :
    rg LNC_LANE_FAULT l (noteFault l cause faddr trapCode s) = w32 (trapCode * 65536 + cause) := by
  rw [noteFault, rg_setRgF_other (rkey_ne_of_lt (by decide) hl (by omega)),
    rg_bump_other (rkey_ne_of_lt (by decide) hl hl), rg_setRg_other _ _ _ _ _ _ (rkey_ne_of_lt (by decide) hl hl),
    rg_setRg_same]

theorem rg_faddr_noteFault : rg LNC_LANE_FADDR l (noteFault l cause faddr trapCode s) = faddr := by
  rw [noteFault, rg_setRgF_other (rkey_ne_of_lt (by decide) hl (by omega)),
    rg_bump_other (rkey_ne_of_lt (by decide) hl hl), rg_setRg_same]

theorem rgF_count_noteFault : rgF LNC_LANE_CNT_FAULT l 31 0 (noteFault l cause faddr trapCode s) =
    (rgF LNC_LANE_CNT_FAULT l 31 0 s + 1) % 2 ^ 32 := by
  rw [noteFault, rgF, rg_setRgF_other (rkey_ne_of_lt (by decide) hl (by omega)), ← rgF,
    rgF_bump_same _ _ _ _ _ (by decide) (by decide), rgF,
    rg_setRg_other _ _ _ _ _ _ (rkey_ne_of_lt (by decide) hl hl),
    rg_setRg_other _ _ _ _ _ _ (rkey_ne_of_lt (by decide) hl hl), ← rgF]

end

theorem bit_faulted_noteFault (l cause : Nat) (faddr : Word) (trapCode : Nat) (s : State) :
    bit (rg LNC_DST_FAULTED (l / 16) (noteFault l cause faddr trapCode s)) (l % 16) = true := by
  rw [noteFault, setRgF, rg_setRg_same]
  exact bit_setBit_same _ _ true (by omega)

/-! ### A lane fault -/

/-- Setting a district's cause leaves the lanes' fault registers and the district's mask of faulted lanes as they were. -/
theorem rg_setCause_district {r i d b : Nat} (s : State) (hr : r < FLT_SEL) (hi : i < 2 ^ 24) (hd : d < 2 ^ 24)
    (hne : r ≠ LNC_DST_CAUSE) : rg r i (setCause LNC_DST_CAUSE d b s) = rg r i s :=
  rg_setCause_other (rkey_ne_of_lt hne hi hd) (rkey_lt_collector hr hi)

/-- A lane fault does what R132 says, whatever its cause, address, trap code and recorded program counter. -/
theorem faults_laneFault (l : Lane) (cause : Nat) (faddr : Word) (trapCode : Nat) (pc : Word) (s : State) :
    faults l cause faddr trapCode s (laneFault l cause faddr trapCode pc s) := by
  have hl : l.val < 2 ^ 24 := by omega
  have hd : l.val / 16 < 2 ^ 24 := by omega
  obtain ⟨lanes, districts, hstop⟩ := stopFaulted_frame l pc s
  obtain ⟨x, hnote⟩ := noteFault_frame l cause faddr trapCode (stopFaulted l pc s)
  obtain ⟨y, q, hcause⟩ := setCause_frame LNC_DST_CAUSE (l / 16) 0 (noteFault l cause faddr trapCode (stopFaulted l pc s))
  have hlane (m : Nat) : lane m (laneFault l cause faddr trapCode pc s) = lane m (stopFaulted l pc s) := by
    rw [laneFault_eq, hcause, hnote]; rfl
  have hrest : (laneFault l cause faddr trapCode pc s).mem = s.mem ∧
      (laneFault l cause faddr trapCode pc s).roads = s.roads := by
    rw [laneFault_eq, hcause, hnote, hstop]; exact ⟨rfl, rfl⟩
  have hcount : rgF LNC_LANE_CNT_FAULT l 31 0 (stopFaulted l pc s) = rgF LNC_LANE_CNT_FAULT l 31 0 s := by
    rw [hstop]; rfl
  obtain ⟨hrun, hjob, hg, hv, hpc⟩ := lane_stopFaulted_same l pc s
  rw [← hlane] at hrun hjob hg hv hpc
  refine ⟨hrun, hjob, hg, hv, hpc, ?recorded, ?address, ?counted, ?marked, ?raised,
    fun m hm => ?others, hrest⟩
  case recorded =>
    rw [laneFault_eq, rg_setCause_district _ (by decide) hl hd (by decide), rg_fault_noteFault hl]
  case address =>
    rw [laneFault_eq, rg_setCause_district _ (by decide) hl hd (by decide), rg_faddr_noteFault hl]
  case counted =>
    rw [laneFault_eq, rgF, rg_setCause_district _ (by decide) hl hd (by decide), ← rgF, rgF_count_noteFault hl, hcount]
  case marked =>
    rw [laneFault_eq, rg_setCause_district _ (by decide) hd hd (by decide), bit_faulted_noteFault]
  case raised =>
    rw [laneFault_eq, bit_setCause_same (by decide) (rkey_lt_collector (by decide) hd)]
  case others =>
    rw [hlane, lane_stopFaulted_other pc s (Fin.val_ne_of_ne hm)]

/-! ### TRAP (R167) -/

/-- TRAP that its lane issues is a fault with cause 1, no address and its code. -/
theorem exec_trap_issued (l : Lane) (code : BitVec 16) (s : State)
    (hissue : laneIssues l (encCode 0x0B code.toNat) s = true) :
    exec (.trap l code) s = .next (laneFault l 1 0 code.toNat (lane l s).pc s) := by
  change Host.Outcome.next (issue l (encCode 0x0B code.toNat) _ s) = _
  rw [issue_taken _ _ _ _ hissue]

/-- Settles O27: TRAP is a lane fault with cause 1 and its code, and a lane fault does what R132 says. -/
theorem trapFaultsTheLaneWithItsCode : Obligations.TrapFaultsTheLaneWithItsCode := by
  intro l code w s hword hissue
  obtain rfl : encCode 0x0B code.toNat = w := by simpa [laneWord] using hword
  exact ⟨_, exec_trap_issued l code s hissue, faults_laneFault l 1 0 code.toNat (lane l s).pc s⟩

end Sys2Proof.Machine
end

section
/-! PROOF. Every operation of the model keeps the waiting commands and the canonical forms of memory and registers: one
lemma per operation, in the order of the model, assembled from those of the operations it calls. A step then takes the
front command and nothing else from the queue, and leaves canonical contents canonical. -/

set_option Elab.async false

namespace Sys2Proof.Machine

open Sys2Proof

/-- Between two states of one step: the same commands wait, and memory and registers in canonical form stay so. -/
structure Kept (s₀ s : State) : Prop where
  pending : s.pending = s₀.pending
  mem : Memory.wf s₀.mem = true → Memory.wf s.mem = true
  regs : Registers.wf s₀.regs = true → Registers.wf s.regs = true

/-- What a write through an access path keeps, said of the function: unfolded as a function alone, its address
arithmetic is never evaluated. -/
structure KeepsWrite (f : Nat → Nat → Nat → Word → Word → Word → State → State) : Prop where
  keeps : ∀ s₀ s : State, Kept s₀ s → ∀ path addr size value hwSet hwClr, Kept s₀ (f path addr size value hwSet hwClr s)

/-- The same of a function that sends from the slots of a journal path. -/
structure KeepsDrain (f : Nat → Nat → Nat → State → State) : Prop where
  keeps : ∀ s₀ s : State, Kept s₀ s → ∀ p c k, Kept s₀ (f p c k s)

namespace Kept

variable {s₀ s t : State}

theorem refl (s : State) : Kept s s := ⟨rfl, id, id⟩

/-- A change of other fields than the queue, memory and registers. -/
theorem frame
    {mp roads ingest ingestEdge ingested arriveEdge arriveCount heldEdge held recs recRun commits rungEdge
    rungQueues lastServed enableReturn cmpEdge fireEdge firedRoads frozen pulses snapCount snapAt slots trackers
    mfeSeq mfeDiscard mfeStuck shafts lanes districts ports macs jct tpk freP freD queues dmaHeld dmaEdge wrrCur
    wrrLeft wrrVisits flt jnl twn stp hie wpt img sys draws}
    (h : Kept s₀ s) : Kept s₀ (.mk s.pending s.regs s.mem
      mp roads ingest ingestEdge ingested arriveEdge arriveCount heldEdge held recs recRun commits rungEdge
      rungQueues lastServed enableReturn cmpEdge fireEdge firedRoads frozen pulses snapCount snapAt slots
      trackers mfeSeq mfeDiscard mfeStuck shafts lanes districts ports macs jct tpk freP freD queues dmaHeld
      dmaEdge wrrCur wrrLeft wrrVisits flt jnl twn stp hie wpt img sys draws) :=
  ⟨h.pending, h.mem, h.regs⟩

theorem ite {c : Prop} [Decidable c] (h : Kept s₀ s) (k : Kept s₀ t) : Kept s₀ (if c then s else t) := by
  split
  · exact h
  · exact k

theorem ite_fst {α : Type} {c : Prop} [Decidable c] {x y : State × α} (h : Kept s₀ x.1) (k : Kept s₀ y.1) :
    Kept s₀ (if c then x else y).1 := by
  split
  · exact h
  · exact k

theorem ite_snd {α : Type} {c : Prop} [Decidable c] {x y : α × State} (h : Kept s₀ x.2) (k : Kept s₀ y.2) :
    Kept s₀ (if c then x else y).2 := by
  split
  · exact h
  · exact k

/-! ### The operations that write registers and memory -/

theorem setRg {r i v} (h : Kept s₀ s) : Kept s₀ (setRg r i v s) :=
  ⟨(setRg_pending r i v s).trans h.pending, fun hw => (setRg_mem r i v s).symm ▸ h.mem hw,
    fun hw => setRg_wf r i v s (h.regs hw)⟩

theorem wrByte {a b} (h : Kept s₀ s) : Kept s₀ (wrByte a b s) :=
  ⟨(wrByte_pending a b s).trans h.pending, fun hw => wrByte_wf a b s (h.mem hw),
    fun hw => (wrByte_regs a b s).symm ▸ h.regs hw⟩

theorem wrBytes {a d} (h : Kept s₀ s) : Kept s₀ (wrBytes a d s) :=
  ⟨(wrBytes_pending a d s).trans h.pending, fun hw => wrBytes_wf a d s (h.mem hw),
    fun hw => (wrBytes_regs a d s).symm ▸ h.regs hw⟩

theorem sfilter_regs {p : Nat → Bool} (h : Kept s₀ s) : Kept s₀ { s with regs := sfilter p s.regs } :=
  ⟨h.pending, h.mem, fun hw => sfilter_wf regReset p s.regs (h.regs hw)⟩

theorem sfilter_mem {p : Nat → Bool} (h : Kept s₀ s) : Kept s₀ { s with mem := sfilter p s.mem } :=
  ⟨h.pending, fun hw => sfilter_mem_wf p s (h.mem hw), h.regs⟩

/-- What each element's operation keeps, the whole walk keeps. -/
theorem forEach {α : Type} {l : List α} {f : α → State → State} (h : Kept s₀ s)
    (hf : ∀ a t, Kept s₀ t → Kept s₀ (f a t)) : Kept s₀ (forEach l f s) :=
  forEach_keeps (Kept s₀) l f s (fun a _ => hf a) h

/-! ### Machine/Regs -/

theorem setRgF {r i hi lo v} (h : Kept s₀ s) : Kept s₀ (setRgF r i hi lo v s) :=
  h.setRg

theorem addRgF {r i hi lo n} (h : Kept s₀ s) : Kept s₀ (addRgF r i hi lo n s) :=
  h.setRgF

theorem bump {r i hi lo} (h : Kept s₀ s) : Kept s₀ (bump r i hi lo s) :=
  h.addRgF

theorem addRgSat {r i hi lo n} (h : Kept s₀ s) : Kept s₀ (addRgSat r i hi lo n s) :=
  h.setRgF

/-! ### Machine/Ops -/

theorem noteHeld {r i} (h : Kept s₀ s) : Kept s₀ (noteHeld r i s) :=
  h.ite h.frame

theorem setInReset {f b} (h : Kept s₀ s) : Kept s₀ (setInReset f b s) :=
  h.setRg.ite h

theorem onlyIf {b f} (h : Kept s₀ s) (hf : ∀ t, Kept s₀ t → Kept s₀ (f t)) : Kept s₀ (onlyIf b f s) :=
  (hf _ h).ite h

theorem setRoad {n r} (h : Kept s₀ s) : Kept s₀ (setRoad n r s) :=
  h.frame

theorem setRecRun {n r} (h : Kept s₀ s) : Kept s₀ (setRecRun n r s) :=
  h.frame

theorem setRecWord {n r} (h : Kept s₀ s) : Kept s₀ (setRecWord n r s) :=
  h.frame

theorem setSlotRun {n r} (h : Kept s₀ s) : Kept s₀ (setSlotRun n r s) :=
  h.frame

theorem setTracker {n r} (h : Kept s₀ s) : Kept s₀ (setTracker n r s) :=
  h.frame

theorem setShaft {n r} (h : Kept s₀ s) : Kept s₀ (setShaft n r s) :=
  h.frame

theorem setLane {n l} (h : Kept s₀ s) : Kept s₀ (setLane n l s) :=
  h.frame

theorem setDistrict {n d} (h : Kept s₀ s) : Kept s₀ (setDistrict n d s) :=
  h.frame

theorem setPortRun {n p} (h : Kept s₀ s) : Kept s₀ (setPortRun n p s) :=
  h.frame

theorem setMacRun {n m} (h : Kept s₀ s) : Kept s₀ (setMacRun n m s) :=
  h.frame

theorem setGateRun {n g} (h : Kept s₀ s) : Kept s₀ (setGateRun n g s) :=
  h.frame

theorem setQueueRun {n q} (h : Kept s₀ s) : Kept s₀ (setQueueRun n q s) :=
  h.frame

theorem setSession {n r} (h : Kept s₀ s) : Kept s₀ (setSession n r s) :=
  h.frame

theorem setOutGroup {n g} (h : Kept s₀ s) : Kept s₀ (setOutGroup n g s) :=
  h.frame

theorem setDrainPath {n d} (h : Kept s₀ s) : Kept s₀ (setDrainPath n d s) :=
  h.frame

theorem setWorker {n w} (h : Kept s₀ s) : Kept s₀ (setWorker n w s) :=
  h.frame

theorem wrLe {a len v} (h : Kept s₀ s) : Kept s₀ (wrLe a len v s) :=
  h.wrBytes

/-! ### Machine/Flags -/

theorem setSticky {src} (h : Kept s₀ s) : Kept s₀ (setSticky src s) :=
  h.setRg

theorem noteOccurred {src rise} (h : Kept s₀ s) : Kept s₀ (noteOccurred src rise s) :=
  h.frame

theorem occurs {src forced rise} (h : Kept s₀ s) : Kept s₀ (occurs src forced rise s) := by
  unfold Machine.occurs
  dsimp only
  split
  · exact h.noteOccurred.setSticky
  · split
    · exact h.noteOccurred.setSticky.frame.setRgF.frame.frame.setRgF.bump
    · exact h.noteOccurred.setSticky.frame.setRgF.frame

theorem markForced {src} (h : Kept s₀ s) : Kept s₀ (markForced src s) :=
  h.frame

theorem forceRise {src} (h : Kept s₀ s) : Kept s₀ (forceRise src s) :=
  h.noteOccurred.markForced.ite h.occurs

theorem forceRises {g old} (h : Kept s₀ s) : Kept s₀ (forceRises g old s) :=
  h.forEach (fun _ _ h1 => h1.forceRise)

theorem raiseSrc {src} (h : Kept s₀ s) : Kept s₀ (raiseSrc src s) :=
  h.setSticky.ite h.occurs

theorem setCause {r i b} (h : Kept s₀ s) : Kept s₀ (setCause r i b s) := by
  unfold Machine.setCause
  split
  · exact h
  · dsimp only
    split
    · exact h.setRg.raiseSrc
    · exact h.setRg

theorem refuseAction (h : Kept s₀ s) : Kept s₀ (refuseAction s) :=
  h.bump.setCause

theorem pulseLineAt {l ns} (h : Kept s₀ s) : Kept s₀ (pulseLineAt l ns s) :=
  h.ite (h.bump.ite h.frame.bump)

theorem pulseLine {l} (h : Kept s₀ s) : Kept s₀ (pulseLine l s) :=
  h.pulseLineAt

theorem pulseSource {e} (h : Kept s₀ s) : Kept s₀ (pulseSource e s) :=
  h.forEach (fun _ _ h1 => h1.pulseLine)

theorem noteAnswer {a ans} (h : Kept s₀ s) : Kept s₀ (noteAnswer a ans s) := by
  unfold Machine.noteAnswer
  dsimp only
  split
  · split
    · exact h.bump
    · exact h.bump.setCause
    · exact h
  · split
    · exact h.bump
    · exact h.bump.setCause
    · exact h
  · split
    · exact h.bump
    · exact h.bump.setCause
    · exact h.setCause
    · exact h
  · split
    · exact h.bump
    · exact h.bump.setCause
    · exact h.setCause
    · exact h
  · split
    · exact h.bump
    · exact h.bump.setCause
    · exact h.setCause
    · exact h
  · exact h

/-! ### Machine/Check -/

theorem chkResult {c k} (h : Kept s₀ s) : Kept s₀ (chkResult c k s) :=
  h.setRgF.pulseSource

theorem chkHold {c a} (h : Kept s₀ s) : Kept s₀ (chkHold c a s) :=
  h.setRgF.setRgF

theorem chkVerdict {c data} (h : Kept s₀ s) : Kept s₀ (chkVerdict c data s).1 :=
  h.bump.setCause.chkResult.ite_fst (h.bump.setCause.chkResult.ite_fst
    (h.bump.chkResult.ite_fst (h.bump.chkHold.chkResult.ite_fst
    (h.bump.setCause.chkResult.ite_fst (h.bump.addRgF.chkHold.chkResult.ite_fst h.bump.setCause.chkHold.chkResult)))))

theorem chkReady {c} (h : Kept s₀ s) : Kept s₀ (chkReady c s).1 :=
  h.bump.ite_fst (h.bump.setCause.ite_fst h)

theorem chkFrame {c b} (h : Kept s₀ s) : Kept s₀ (chkFrame c b s).1 :=
  h.chkReady.chkVerdict.ite_fst h.chkReady

theorem chkStart {c} (h : Kept s₀ s) : Kept s₀ (chkStart c s).1 :=
  h.ite_fst (h.setCause.ite_fst h.setRgF)

theorem checkTriggerVerdict {c ans} (h : Kept s₀ s) : Kept s₀ (checkTriggerVerdict c ans s) :=
  h.ite (h.setRgF.bump.setCause.ite (h.setRgF.noteAnswer.bump.setCause.ite h.setRgF.noteAnswer.chkVerdict))

/-! ### Machine/Buffer -/

theorem settleDeficits {p c was} (h : Kept s₀ s) : Kept s₀ (settleDeficits p c was s) :=
  h.frame

theorem settleCredits {p c was} (h : Kept s₀ s) : Kept s₀ (settleCredits p c was s) :=
  h.ite h.frame

theorem setJqueue {p c q} (h : Kept s₀ s) : Kept s₀ (setJqueue p c q s) :=
  h.frame.settleCredits.settleDeficits

theorem setJframe {f} (h : Kept s₀ s) : Kept s₀ (setJframe f s) :=
  h.frame

theorem updJframe {id g} (h : Kept s₀ s) : Kept s₀ (updJframe id g s) := by
  unfold Machine.updJframe
  split
  · exact h.setJframe
  · exact h

theorem countRefused {d} (h : Kept s₀ s) : Kept s₀ (countRefused d s) :=
  h.bump.setCause.setCause

theorem countOversize {f} (h : Kept s₀ s) : Kept s₀ (countOversize f s) :=
  h.bump.setCause

theorem admitOne {f id multi s0 acc d} (h : Kept s₀ acc.1) : Kept s₀ (admitOne f id multi s0 acc d).1 := by
  unfold Machine.admitOne
  dsimp only
  split
  · exact h.countOversize
  · split
    · exact h.countRefused
    · exact h.setJqueue.onlyIf fun _ h => h.bump

theorem admitAll {f id multi s0} {ds : List Dest} {as : List Admitted} (h : Kept s₀ s) :
    Kept s₀ (ds.foldl (Machine.admitOne f id multi s0) (s, as)).1 := by
  suffices key : ∀ acc : State × List Admitted, Kept s₀ acc.1 →
      Kept s₀ (ds.foldl (Machine.admitOne f id multi s0) acc).1 from key _ h
  induction ds with
  | nil => exact fun _ h => h
  | cons d ds ih => exact fun acc h => ih _ h.admitOne

theorem admitFrame {f ds s0} (h : Kept s₀ s0) : Kept s₀ (admitFrame f ds s0).1 := by
  unfold Machine.admitFrame
  dsimp only
  split
  · exact h.admitAll
  · exact h.admitAll.frame

theorem addMirrors {id ms s0} (h : Kept s₀ s) : Kept s₀ (addMirrors id ms s0 s) := by
  unfold Machine.addMirrors
  split
  · exact h
  · exact h.admitAll.ite h.admitAll.setJframe

theorem releaseRef {id} (h : Kept s₀ s) : Kept s₀ (releaseRef id s) := by
  unfold Machine.releaseRef
  split
  · exact h
  · exact h.frame.ite h.setJframe

theorem dropQueued {port cls p} (h : Kept s₀ s) : Kept s₀ (dropQueued port cls p s) :=
  h.setJqueue.forEach (fun _ _ h1 => h1.releaseRef)

theorem dropUnstarted {id count} (h : Kept s₀ s) (hf : ∀ x0 t, Kept s₀ t → Kept s₀ (count x0 t)) :
    Kept s₀ (dropUnstarted id count s) :=
  h.forEach (fun _ _ h1 => hf _ _ h1.dropQueued)

theorem takeSeq {n} (h : Kept s₀ s) : Kept s₀ (takeSeq n s) :=
  h.addRgF.addRgF

theorem admitSequenced {st f ds} (h : Kept s₀ s) : Kept s₀ (admitSequenced st f ds s).1 := by
  unfold Machine.admitSequenced
  split
  · exact h.admitFrame
  · exact h.admitFrame.takeSeq.ite_fst h.admitFrame.updJframe

theorem admitStream {st f ds} (h : Kept s₀ s) : Kept s₀ (admitStream st f ds s).1 :=
  h.admitSequenced.ite_fst h.admitSequenced.addMirrors

theorem internalOffer {f egress} (h : Kept s₀ s) : Kept s₀ (internalOffer f egress s).1 := by
  unfold Machine.internalOffer
  split
  · exact h.bump.setCause
  · split
    · exact h.bump.setCause
    · split
      · exact h
      · dsimp only
        split
        · dsimp only
          split
          · exact h.bump.onlyIf fun _ h1 => h1.takeSeq
          · exact h.bump
        · refine admitStream ?_
          split
          · split
            · exact h
            · exact h.bump
          · exact h

theorem internalFrame {src egress cls b} (h : Kept s₀ s) : Kept s₀ (internalFrame src egress cls b s) :=
  h.internalOffer

/-! ### Machine/TwinBase -/

theorem awaitStep {c} (h : Kept s₀ s) : Kept s₀ (awaitStep c s) :=
  h.frame

theorem twinSend {kind step seq body} (h : Kept s₀ s) : Kept s₀ (twinSend kind step seq body s) := by
  unfold Machine.twinSend
  split
  · exact h.internalFrame
  · exact h

theorem twinSendBackup {kind body} (h : Kept s₀ s) : Kept s₀ (twinSendBackup kind body s) := by
  unfold Machine.twinSendBackup
  split
  · exact h.internalFrame
  · exact h

theorem captureInput {kind body} (h : Kept s₀ s) : Kept s₀ (captureInput kind body s) :=
  h.frame.bump.twinSend

/-! ### Machine/JournalBase -/

theorem foldSummary {r} (h : Kept s₀ s) : Kept s₀ (foldSummary r s) :=
  h.frame.bump.onlyIf fun _ h1 => h1.setCause

theorem journalIntake {r} (h : Kept s₀ s) : Kept s₀ (journalIntake r s).1 :=
  h.ite_fst (h.frame.ite_fst (h.foldSummary.ite_fst h.bump.setCause))

/-! ### Machine/Points -/

theorem setPointRun {n p} (h : Kept s₀ s) : Kept s₀ (setPointRun n p s) :=
  h.frame

theorem notePoints {i ctx ok b} (h : Kept s₀ s) : Kept s₀ (notePoints i ctx ok b s) :=
  h.ite (h.forEach (fun _ _ h1 => (h1.setPointRun.ite h1).ite (h1.ite h1.setPointRun)))

theorem failPoints {ctx} (h : Kept s₀ s) : Kept s₀ (failPoints ctx s) :=
  h.ite (h.forEach (fun _ _ h1 => h1.setPointRun))

/-! ### Machine/LaneBase -/

theorem enqueueJob {l j} (h : Kept s₀ s) : Kept s₀ (enqueueJob l j s).1 :=
  h.ite_fst (h.setLane.ite_fst h.bump.setCause)

theorem offerJob {slot j} (h : Kept s₀ s) : Kept s₀ (offerJob slot j s).1 := by
  unfold Machine.offerJob
  dsimp only
  split
  · exact h
  · exact h.ite_fst (h.enqueueJob.setSlotRun.ite_fst h.enqueueJob)

theorem startJob {slot j} (h : Kept s₀ s) : Kept s₀ (startJob slot j s).1 :=
  h.offerJob.ite_fst h.offerJob.refuseAction

theorem undeliverable {src} (h : Kept s₀ s) : Kept s₀ (undeliverable src s) :=
  h.bump

theorem inboxPut {l e} (h : Kept s₀ s) : Kept s₀ (inboxPut l e s).1 :=
  h.setLane.ite_fst h.bump.setCause

theorem takeMarker {l slot} (h : Kept s₀ s) : Kept s₀ (takeMarker l slot s) :=
  h.setRgF.setLane.forEach (fun _ _ h1 => h1.bump.ite h1.inboxPut.setSlotRun)

theorem deliverTo {l m} (h : Kept s₀ s) : Kept s₀ (deliverTo l m s) :=
  h.undeliverable.ite (h.inboxPut.ite ((h.bump.ite ((h.inboxPut.onlyIf (fun _ h1 => h1.setSlotRun)).ite
    (h.inboxPut.ite ((h.inboxPut.onlyIf (fun _ h1 => h1.setSlotRun)).ite h.bump)))).ite h.inboxPut))

theorem deliverMessage {dest m} (h : Kept s₀ s) : Kept s₀ (deliverMessage dest m s) := by
  unfold Machine.deliverMessage
  split
  · exact h.deliverTo
  · split
    · exact h.deliverTo
    · exact h.undeliverable

theorem sendMessage {dest m} (h : Kept s₀ s) : Kept s₀ (sendMessage dest m s) :=
  h.undeliverable.ite (h.setDistrict.ite (h.internalOffer.ite h.internalOffer.undeliverable))

theorem freeBuffer {l} (h : Kept s₀ s) : Kept s₀ (freeBuffer l s) := by
  unfold Machine.freeBuffer
  split
  · exact h
  · exact h.setDistrict

theorem laneFault {l cause faddr trapCode pc} (h : Kept s₀ s) : Kept s₀ (laneFault l cause faddr trapCode pc s) :=
  h.freeBuffer.setLane.setRg.setRg.bump.setRgF.setCause

/-! ### Machine/Dma -/

theorem dmaPulse {c} (h : Kept s₀ s) : Kept s₀ (dmaPulse c s) :=
  h.pulseSource

theorem dmaTest {c} (h : Kept s₀ s) : Kept s₀ (dmaTest c s).1 :=
  h.bump.setCause.ite_fst (h.setRgF.bump.dmaPulse.ite_fst (h.setCause.ite_fst
    (h.setCause.ite_fst (h.setCause.ite_fst h.frame.setRg))))

theorem dmaStartOp {c} (h : Kept s₀ s) : Kept s₀ (dmaStartOp c s).1 :=
  h.ite_fst (h.ite_fst h.dmaTest.frame)

theorem dmaArmOp {c} (h : Kept s₀ s) : Kept s₀ (dmaArmOp c s) :=
  h.ite h.setRgF

theorem moveUnits {src dst u srcFixed dstFixed k i} (h : Kept s₀ s) :
    Kept s₀ (moveUnits src dst u srcFixed dstFixed k i s) := by
  induction k generalizing i s with
  | zero => exact h
  | succ k ih => exact ih h.wrBytes

theorem dmaMove {c done} (h : Kept s₀ s) : Kept s₀ (dmaMove c done s) :=
  h.moveUnits.ite h.wrBytes

theorem dmaStart {c} (h : Kept s₀ s) : Kept s₀ (dmaStart c s) :=
  h.dmaStartOp

theorem dmaDisarm {c} (h : Kept s₀ s) : Kept s₀ (dmaDisarm c s) :=
  h.ite h.setRgF

theorem dmaStop {c left} (h : Kept s₀ s) : Kept s₀ (dmaStop c left s) :=
  h.frame.setRgF.setRgF

theorem dmaComplete {c} (h : Kept s₀ s) : Kept s₀ (dmaComplete c s) :=
  h.dmaMove.dmaStop.bump.dmaPulse.ite h

theorem dmaMemFault {c done} (h : Kept s₀ s) : Kept s₀ (dmaMemFault c done s) :=
  h.dmaMove.dmaStop.setCause.ite h

/-! ### Machine/Access -/

theorem atInst {path r f} (h : Kept s₀ s) (hf : ∀ x0 t, Kept s₀ t → Kept s₀ (f x0 t)) :
    Kept s₀ (atInst path r f s) := by
  unfold Machine.atInst
  split
  · exact (hf _ _ h).ite h
  · exact h

theorem atGlobal {path r f} (h : Kept s₀ s) (hf : ∀ t, Kept s₀ t → Kept s₀ (f t)) : Kept s₀ (atGlobal path r f s) :=
  (hf _ h).ite h

/-! ### Machine/MacBase -/

theorem setHalf {p i} (h : Kept s₀ s) : Kept s₀ (setHalf p i s) :=
  h.ite (h.setRgF.raiseSrc.ite h.setRgF.setCause)

theorem macAdd {i n p} (h : Kept s₀ s) : Kept s₀ (macAdd i n p s) :=
  h.setRg.setHalf.ite h.setRg

theorem macBump {i p} (h : Kept s₀ s) : Kept s₀ (macBump i p s) :=
  h.macAdd

theorem macGood {base p l dst} (h : Kept s₀ s) : Kept s₀ (macGood base p l dst s) :=
  h.macBump.macAdd.macBump.macBump

theorem showVerify {p} (h : Kept s₀ s) : Kept s₀ (showVerify p s) :=
  h.setRgF

theorem setVerification {p v} (h : Kept s₀ s) : Kept s₀ (setVerification p v s) :=
  h.setMacRun.showVerify

theorem restartVerify {p} (h : Kept s₀ s) : Kept s₀ (restartVerify p s) :=
  h.setRg.setVerification

theorem linkFailed {p} (h : Kept s₀ s) : Kept s₀ (linkFailed p s) :=
  h.onlyIf fun _ h1 => h1.restartVerify

theorem putLine {p kind b} (h : Kept s₀ s) : Kept s₀ (putLine p kind b s) :=
  h.setMacRun.onlyIf fun _ h1 => h1.setRgF

theorem setHanded {p c} (h : Kept s₀ s) : Kept s₀ (setHanded p c s) :=
  h.frame

theorem setSuspended {p c} (h : Kept s₀ s) : Kept s₀ (setSuspended p c s) :=
  h.frame

theorem setPreempting {p b} (h : Kept s₀ s) : Kept s₀ (setPreempting p b s) :=
  h.frame

theorem endHanded {p} (h : Kept s₀ s) : Kept s₀ (endHanded p s) := by
  unfold Machine.endHanded
  split
  · exact h.setHanded.releaseRef.setPreempting
  · exact h

theorem endSuspended {p} (h : Kept s₀ s) : Kept s₀ (endSuspended p s) := by
  unfold Machine.endSuspended
  split
  · exact h.setSuspended.releaseRef
  · exact h

theorem lineLost {p} (h : Kept s₀ s) : Kept s₀ (lineLost p s) :=
  (h.onlyIf (fun _ h1 => h1.endHanded.macBump)).onlyIf (fun _ h1 => h1.endSuspended.macBump)

/-! ### Machine/Verge -/

theorem clearLinkStatus {p} (h : Kept s₀ s) : Kept s₀ (clearLinkStatus p s) :=
  h.setRgF.setRgF

theorem setLink {p up} (h : Kept s₀ s) : Kept s₀ (setLink p up s) :=
  h.ite (h.setRgF.onlyIf (fun _ h1 => h1.clearLinkStatus.lineLost.linkFailed)).setCause.pulseSource

theorem setVerge {p v} (h : Kept s₀ s) : Kept s₀ (setVerge p v s) :=
  h.setPortRun

theorem refuseVerge {p} (h : Kept s₀ s) : Kept s₀ (refuseVerge p s) :=
  h.bump.setCause

theorem skipVerge {p} (h : Kept s₀ s) : Kept s₀ (skipVerge p s) :=
  h.setVerge.bump.setCause

theorem startVerge {p forced} (h : Kept s₀ s) : Kept s₀ (startVerge p forced s) :=
  ((h.setVerge.onlyIf (fun _ h1 => h1.setGateRun)).pulseSource.onlyIf (fun _ h1 => h1.bump)).onlyIf
    fun _ h1 => h1.setLink

theorem requestVerge {p ns endNs expected mask software} (h : Kept s₀ s) :
    Kept s₀ (requestVerge p ns endNs expected mask software s).1 :=
  h.refuseVerge.ite_fst ((h.setVerge.onlyIf (fun _ h1 => h1.setRgF)).onlyIf (fun _ h1 => h1.startVerge))

theorem closeVerge {p v ans} (h : Kept s₀ s) : Kept s₀ (closeVerge p v ans s) :=
  ((h.setVerge.onlyIf (fun _ h1 => h1.bump.setCause)).ite ((h.setVerge.onlyIf
    (fun _ h1 => h1.bump.setCause)).noteAnswer.ite (h.setVerge.onlyIf
    (fun _ h1 => h1.bump.setCause)).noteAnswer.setPortRun.bump.wrBytes)).pulseSource

theorem abortVerge {p ans} (h : Kept s₀ s) : Kept s₀ (abortVerge p ans s) := by
  unfold Machine.abortVerge
  dsimp only
  split
  · exact h
  · exact h.setVerge
  · exact h.closeVerge

theorem endVerge {p ans} (h : Kept s₀ s) : Kept s₀ (endVerge p ans s) :=
  h.closeVerge

theorem entryEndsVerge {p ans} (h : Kept s₀ s) : Kept s₀ (entryEndsVerge p ans s) := by
  unfold Machine.entryEndsVerge
  dsimp only
  split
  · exact h
  · split
    · exact h
    · exact h.skipVerge
    · exact h.endVerge

theorem vergeCtrlWrite {path value} (h : Kept s₀ s) : Kept s₀ (vergeCtrlWrite path value s) :=
  h.atInst (fun _ _ h1 => (h1.setRg.onlyIf (fun _ h2 => h2.abortVerge)).onlyIf (fun _ h2 => h2.requestVerge))

theorem vergeWindowStart {p quiet} (h : Kept s₀ s) : Kept s₀ (vergeWindowStart p quiet s) :=
  h.ite (h.startVerge.ite (h.startVerge.ite h))

theorem vergeSkipped {p} (h : Kept s₀ s) : Kept s₀ (vergeSkipped p s) :=
  h.skipVerge.ite h

theorem vergeMeasurementDone {p value overrange energy profile} (h : Kept s₀ s) :
    Kept s₀ (vergeMeasurementDone p value overrange energy profile s) := by
  unfold Machine.vergeMeasurementDone
  dsimp only
  split
  · exact h
  · exact h.ite h.setVerge

theorem vergeWindowEnd {p ans} (h : Kept s₀ s) : Kept s₀ (vergeWindowEnd p ans s) :=
  h.endVerge.ite h

/-! ### Machine/Gates -/

theorem triggerFrame {slot ans} (h : Kept s₀ s) : Kept s₀ (triggerFrame slot ans s) :=
  h.refuseAction.ite (h.noteAnswer.refuseAction.ite (h.noteAnswer.refuseAction.ite
    (h.noteAnswer.internalOffer.ite h.noteAnswer.internalOffer.refuseAction)))

theorem closeWindows {p before after switch} (h : Kept s₀ s) : Kept s₀ (closeWindows p before after switch s) :=
  h.forEach (fun _ _ h1 => h1.bump.setCause.ite h1)

theorem startEntry {p before switch partWay ans} (h : Kept s₀ s) :
    Kept s₀ (startEntry p before switch partWay ans s) :=
  h.entryEndsVerge.setGateRun.closeWindows.ite (h.entryEndsVerge.setGateRun.closeWindows.requestVerge.ite
    (h.entryEndsVerge.setGateRun.closeWindows.triggerFrame.ite h.entryEndsVerge.setGateRun.closeWindows))

theorem gateFallback {late p} (h : Kept s₀ s) : Kept s₀ (gateFallback late p s) :=
  h.ite h.setGateRun.setCause

theorem roadLeavesTracking {new n} (h : Kept s₀ s) : Kept s₀ (roadLeavesTracking new n s) :=
  h.forEach (fun _ _ h1 => h1.gateFallback)

theorem refreshEndTimes {n} (h : Kept s₀ s) : Kept s₀ (refreshEndTimes n s) :=
  h.forEach (fun _ _ h1 => h1.ite h1.setGateRun)

theorem roadBoundary {p ans} (h : Kept s₀ s) : Kept s₀ (roadBoundary p ans s) :=
  h.ite ((h.ite h.setGateRun.bump.setCause).ite h.setGateRun.startEntry)

theorem fallbackBoundary {p ans} (h : Kept s₀ s) : Kept s₀ (fallbackBoundary p ans s) :=
  h.setGateRun.startEntry.ite ((h.setGateRun.startEntry.setCause.ite h.setGateRun).ite
    (h.ite h.setGateRun.startEntry))

theorem clockBoundary {p ans} (h : Kept s₀ s) : Kept s₀ (clockBoundary p ans s) :=
  h.ite h.setGateRun.startEntry

theorem advanceStep {p t' ans} (h : Kept s₀ s) : Kept s₀ (advanceStep p t' ans s) :=
  h.setGateRun.startEntry

theorem gateStep {p ans} (h : Kept s₀ s) : Kept s₀ (gateStep p ans s) :=
  h.refuseAction.ite (h.setGateRun.ite (h.setGateRun.ite h.refuseAction))

theorem takeDueStep {p} (h : Kept s₀ s) : Kept s₀ (takeDueStep p s) := by
  unfold Machine.takeDueStep
  dsimp only
  split
  · exact h
  · exact h.setGateRun.advanceStep.setGateRun.ite h.setGateRun.setGateRun

theorem takeDueSteps (h : Kept s₀ s) : Kept s₀ (takeDueSteps s) :=
  h.forEach (fun _ _ h1 => h1.takeDueStep)

theorem gateStepDeferred {p ans} (h : Kept s₀ s) : Kept s₀ (gateStepDeferred p ans s) :=
  h.advanceStep.ite h

theorem vergeAutostep {p ans} (h : Kept s₀ s) : Kept s₀ (vergeAutostep p ans s) :=
  h.advanceStep.bump.setCause.ite h

theorem commitGates {p} (h : Kept s₀ s) : Kept s₀ (commitGates p s) :=
  h.bump.setCause.ite ((h.setGateRun.ite h.setGateRun).ite (h.setGateRun.ite h.setGateRun))

theorem carryStep {p} (h : Kept s₀ s) : Kept s₀ (carryStep p s) :=
  h.setGateRun.ite h.refuseAction

theorem switchGates {p ans} (h : Kept s₀ s) : Kept s₀ (switchGates p ans s) :=
  (h.setRg.onlyIf (fun _ h1 => h1.setCause)).setGateRun.startEntry.ite
    (h.setRg.onlyIf (fun _ h1 => h1.setCause)).setGateRun.startEntry.carryStep

theorem gateSwitchOver {p ans} (h : Kept s₀ s) : Kept s₀ (gateSwitchOver p ans s) :=
  h.switchGates.ite h

theorem gclCommitWrite {path value} (h : Kept s₀ s) : Kept s₀ (gclCommitWrite path value s) :=
  h.atInst (fun _ _ h1 => (h1.onlyIf (fun _ h2 => h2.setGateRun)).onlyIf (fun _ h2 => h2.commitGates))

theorem gateEntryStart {p ans} (h : Kept s₀ s) : Kept s₀ (gateEntryStart p ans s) :=
  h.ite (h.clockBoundary.ite ((h.fallbackBoundary.ite h.roadBoundary).ite h))

theorem gateMilepostStep {delta p} (h : Kept s₀ s) : Kept s₀ (gateMilepostStep delta p s) :=
  h.setGateRun.startEntry.ite (h.setGateRun.ite h)

theorem gatesLoseRoads (h : Kept s₀ s) : Kept s₀ (gatesLoseRoads s) :=
  h.forEach (fun _ _ h1 => h1.roadLeavesTracking)

theorem gatesMilepostStep {delta} (h : Kept s₀ s) : Kept s₀ (gatesMilepostStep delta s) :=
  h.forEach (fun _ _ h1 => h1.gateMilepostStep)

theorem loadOper {p} (h : Kept s₀ s) : Kept s₀ (loadOper p s) :=
  h.setGateRun

/-! ### Machine/QueueBase -/

theorem setQState {q v} (h : Kept s₀ s) : Kept s₀ (setQState q v s) :=
  h.setRgF

theorem qStop {q code idx} (h : Kept s₀ s) : Kept s₀ (qStop q code idx s) :=
  h.setQState.setRgF.setRg.setCause

theorem ringFault {q code idx} (h : Kept s₀ s) : Kept s₀ (ringFault q code idx s) :=
  h.setQueueRun.qStop.onlyIf (fun _ h1 => h1.setQState.setRgF)

theorem noteAccess {a ans} (h : Kept s₀ s) : Kept s₀ (noteAccess a ans s) :=
  h.noteAnswer

theorem writeCompletion {q x c} (h : Kept s₀ s) : Kept s₀ (writeCompletion q x c s) :=
  h.noteAccess.noteAccess.ringFault.ite h.noteAccess.noteAccess.wrBytes.setQueueRun.wrBytes

theorem drainHolding {q x n} (h : Kept s₀ s) : Kept s₀ (drainHolding q x n s) := by
  induction n generalizing s with
  | zero => exact h
  | succ n ih =>
    unfold Machine.drainHolding
    dsimp only
    split
    · exact h.setQState.ite h
    · split
      · exact h
      · exact ih (h.setQueueRun.writeCompletion.setQState.ite h.setQueueRun.writeCompletion)

theorem postCompletion {q x c} (h : Kept s₀ s) : Kept s₀ (postCompletion q x c s) :=
  h.ite (h.writeCompletion.ite (h.setQueueRun.setCause.setQState.frame.ite h.setQueueRun.setCause))

theorem closeBatchAt {q x upto status} (h : Kept s₀ s) : Kept s₀ (closeBatchAt q x upto status s) :=
  h.ite h.setQueueRun.postCompletion.addRgF

theorem qPrefetch {q n} (h : Kept s₀ s) : Kept s₀ (qPrefetch q n s) := by
  induction n generalizing s with
  | zero => exact h
  | succ n ih => exact (ih h.setQueueRun).ite h

theorem drawCookie (h : Kept s₀ s) : Kept s₀ (drawCookie s) :=
  h.frame

theorem readIndices {q all ans} (h : Kept s₀ s) : Kept s₀ (readIndices q all ans s).1 := by
  unfold Machine.readIndices
  extract_lets a r t p c
  have ht : Kept s₀ t := h.noteAnswer
  split
  · exact h.ringFault
  · split
    · exact h.noteAnswer.ringFault
    · split
      · exact ht.qStop
      · split
        · exact ht.qStop
        · exact ht.setQueueRun

theorem qAdvance {q} (h : Kept s₀ s) : Kept s₀ (qAdvance q s) :=
  (h.setQueueRun.onlyIf (fun _ h1 => h1.readIndices)).qPrefetch.frame.ite
    (h.setQueueRun.onlyIf (fun _ h1 => h1.readIndices)).qPrefetch

theorem completeEntry {q x upto status value e time} (h : Kept s₀ s) :
    Kept s₀ (completeEntry q x upto status value e time s) :=
  h.setQueueRun.closeBatchAt.ite h.setQueueRun

theorem finishEntry {q x status value e} (h : Kept s₀ s) : Kept s₀ (finishEntry q x status value e s) :=
  h.qAdvance.completeEntry

theorem failEntry {q x code e} (h : Kept s₀ s) : Kept s₀ (failEntry q x code e s) :=
  h.finishEntry.qStop.ite h.qAdvance.setQueueRun.qStop

theorem doorbellOp {q edge ans} (h : Kept s₀ s) : Kept s₀ (doorbellOp q edge ans s).1 :=
  h.ite_fst (h.ite_fst (((h.frame.onlyIf (fun _ h1 => h1.setQueueRun)).readIndices.drainHolding.qPrefetch.ite
    (h.frame.onlyIf (fun _ h1 => h1.setQueueRun)).readIndices).ite_fst h.frame.bump))

theorem startQueue {q ans} (h : Kept s₀ s) : Kept s₀ (startQueue q ans s) :=
  h.setQState.setRgF.setQueueRun.ringFault.ite (h.setQState.setRgF.setQueueRun.noteAnswer.ringFault.ite
    (h.setQState.setRgF.setQueueRun.noteAnswer.setQueueRun.qStop.ite
    (h.setQState.setRgF.setQueueRun.noteAnswer.setQueueRun.qStop.ite
    h.setQState.setRgF.setQueueRun.noteAnswer.setQueueRun.qPrefetch)))

theorem abortRest {q x} (h : Kept s₀ s) : Kept s₀ (abortRest q x s) :=
  h.ite (h.closeBatchAt.ite (h.closeBatchAt.noteAccess.onlyIf
    (fun _ h1 => h1.drawCookie)).setQueueRun.postCompletion.addRgF)

theorem settleQueue {q x} (h : Kept s₀ s) : Kept s₀ (settleQueue q x s) :=
  h.drainHolding.ite (h.drainHolding.abortRest.drainHolding.setQState.setRgF.ite
    h.drainHolding.abortRest.drainHolding)

theorem shutdownOp {q x} (h : Kept s₀ s) : Kept s₀ (shutdownOp q x s) :=
  h.ite (h.setQState.ringFault.ite (h.setQState.noteAccess.ringFault.ite
    (h.setQState.noteAccess.qStop.ite h.setQState.noteAccess.setQueueRun.settleQueue)))

/-! ### Machine/Milestones -/

theorem testAgainst {n pub edge} (h : Kept s₀ s) : Kept s₀ (testAgainst n pub edge s) :=
  h.ite (h.setRecWord.bump.ite (h.setRecWord.ite h.setRecRun))

theorem passedTest {n} (h : Kept s₀ s) : Kept s₀ (passedTest n s) :=
  h.setRecRun.ite h.testAgainst

theorem armTest {n} (h : Kept s₀ s) : Kept s₀ (armTest n s) :=
  h.passedTest.ite h

theorem roadReturns {n} (h : Kept s₀ s) : Kept s₀ (roadReturns n s) :=
  (h.forEach (fun _ _ h1 => h1.passedTest)).ite h

theorem forgetDue {n} (h : Kept s₀ s) : Kept s₀ (forgetDue n s) :=
  h.forEach (fun _ _ h1 => h1.setRecRun)

theorem roadStrands {n} (h : Kept s₀ s) : Kept s₀ (roadStrands n s) :=
  h.ite (h.setCause.forEach (fun _ _ h1 => h1.setRecRun))

theorem commitRecord {n w} (h : Kept s₀ s) : Kept s₀ (commitRecord n w s) :=
  h.setRecWord.setRecRun.onlyIf fun _ h1 => h1.armTest

theorem applyCommits {p} (h : Kept s₀ s) : Kept s₀ (applyCommits p s) :=
  h.frame.forEach (fun _ _ h1 => h1.commitRecord)

theorem offerCommit {n w} (h : Kept s₀ s) : Kept s₀ (offerCommit n w s) :=
  h.bump.setCause.ite h.frame

theorem mstCommit {path value} (h : Kept s₀ s) : Kept s₀ (mstCommit path value s) :=
  h.atInst (fun _ _ h1 => h1.onlyIf (fun _ h2 => h2.offerCommit))

theorem mstCtrlEnableWrite {path value} (h : Kept s₀ s) : Kept s₀ (mstCtrlEnableWrite path value s) :=
  h.atGlobal (fun _ h1 => h1.setRgF.frame.ite (h1.setRgF.ite h1.setRgF.frame))

theorem mstPlcCurWrite {path value} (h : Kept s₀ s) : Kept s₀ (mstPlcCurWrite path value s) :=
  h.atInst (fun _ _ h1 => h1.setRg.setSlotRun)

theorem drainMarkerEnqueue {slot} (h : Kept s₀ s) : Kept s₀ (drainMarkerEnqueue slot s) :=
  h.forEach (fun _ _ h1 => h1.setLane.setSlotRun.ite h1)

theorem reissueJob {slot j} (h : Kept s₀ s) : Kept s₀ (reissueJob slot j s) := by
  unfold Machine.reissueJob
  dsimp only
  split
  · exact h.refuseAction
  · exact h.refuseAction.ite (h.enqueueJob.ite h.enqueueJob.refuseAction)

theorem placementSwitch {slot} (h : Kept s₀ s) : Kept s₀ (placementSwitch slot s) :=
  h.bump.ite (h.bump.setCause.ite ((h.setRg.setRgF.setSlotRun.drainMarkerEnqueue.forEach
    (fun _ _ h1 => h1.reissueJob)).ite h.setRg.setRgF.setSlotRun.drainMarkerEnqueue))

theorem snapshot {n kind port slot flags t' ans} (h : Kept s₀ s) :
    Kept s₀ (snapshot n kind port slot flags t' ans s) :=
  h.refuseAction.ite (h.noteAnswer.wrBytes.frame.refuseAction.ite h.noteAnswer.frame.wrBytes.wrBytes)

theorem dmaAction {c} (h : Kept s₀ s) : Kept s₀ (dmaAction c s).1 :=
  h.dmaStartOp.ite_fst h.dmaStartOp.refuseAction

theorem doAction {w f ans} (h : Kept s₀ s) : Kept s₀ (doAction w f ans s) := by
  unfold Machine.doAction
  dsimp only
  split
  · exact h.startJob
  · exact h.triggerFrame
  · exact h.dmaAction.ite (h.refuseAction.ite h.dmaArmOp)
  · exact h.snapshot
  · exact h.gateStep
  · exact h.forEach (fun _ _ h1 => h1.pulseLineAt)
  · exact h.placementSwitch
  · exact h

theorem rearm {n backward edge pub} (h : Kept s₀ s) : Kept s₀ (rearm n backward edge pub s) := by
  unfold Machine.rearm
  dsimp only
  split
  · exact h.setRecWord
  · split
    · exact h.setRecWord
    · exact h.setRecWord.ite (h.setRecWord.setRecRun.ite h.setRecWord.addRgF)

theorem pulseRecord {n t' ordered} (h : Kept s₀ s) : Kept s₀ (pulseRecord n t' ordered s) :=
  h.forEach (fun _ _ h1 => (h1.bump.startJob.ite h1.bump.startJob.bump).ite h1.pulseLineAt)

theorem fireRecord {n edge t' pub ordered ans} (h : Kept s₀ s) : Kept s₀ (fireRecord n edge t' pub ordered ans s) :=
  (h.setRecRun.bump.onlyIf (fun _ h1 => h1.bump)).setRg.bump.setRgF.setRgF.pulseRecord.doAction.rearm

theorem milestoneFire {ans} (h : Kept s₀ s) : Kept s₀ (milestoneFire ans s) := by
  unfold Machine.milestoneFire
  split
  · exact h
  · exact h.frame.fireRecord.applyCommits

theorem milestoneCompare (h : Kept s₀ s) : Kept s₀ (milestoneCompare s) := by
  unfold Machine.milestoneCompare
  split
  · exact h
  · dsimp only
    split
    · exact h.frame.applyCommits
    · split
      · exact (h.frame.applyCommits.frame.forEach (fun _ _ h1 => h1.roadReturns)).ite h.frame.applyCommits
      · exact h.frame.applyCommits.forEach (fun _ _ h1 => h1.ite (by split; exacts [h1.setRecRun, h1]))

theorem countDeferrals (h : Kept s₀ s) : Kept s₀ (countDeferrals s) :=
  h.ite h.addRgF.setCause

theorem stepRecord {tb ans n} (h : Kept s₀ s) : Kept s₀ (stepRecord tb ans n s) := by
  unfold Machine.stepRecord
  extract_lets w r cur run s1 q
  have h1 : Kept s₀ s1 := by
    unfold s1
    split
    · exact h
    · split
      · exact h.setRecRun.testAgainst
      · split
        · exact h
        · split
          · exact h.setRecRun
          · exact h
  split
  · exact h
  · split
    · exact h1.fireRecord
    · exact h1

theorem stepMilestones {tb ans} (h : Kept s₀ s) : Kept s₀ (stepMilestones tb ans s) :=
  (h.ite (h.forEach (fun _ _ h1 => h1.stepRecord))).forEach (fun _ _ h1 => h1.setRoad)

theorem mstSwPulse {path value} (h : Kept s₀ s) : Kept s₀ (mstSwPulse path value s) :=
  h.atGlobal fun _ h1 => h1.pulseLine

theorem refusePulse {l} (h : Kept s₀ s) : Kept s₀ (refusePulse l s) :=
  h.refuseAction.bump

theorem armByLine {l n} (h : Kept s₀ s) : Kept s₀ (armByLine l n s) :=
  h.bump.ite (h.refusePulse.ite h.setRecWord.armTest)

theorem lineDoorbell {l q edge} (h : Kept s₀ s) : Kept s₀ (lineDoorbell l q edge s) :=
  h.refusePulse.ite h.doorbellOp

theorem deliverPulse {p} (h : Kept s₀ s) : Kept s₀ (deliverPulse p s) := by
  unfold Machine.deliverPulse
  dsimp only
  split
  · exact h.refusePulse.ite (h.dmaAction.ite h.dmaAction.bump)
  · exact h.armByLine
  · exact h.bump.setCause.ite (h.startJob.ite h.startJob.bump)
  · exact h.chkStart.ite h.chkStart.refusePulse
  · exact h.lineDoorbell
  · exact h.journalIntake.ite h.journalIntake.refusePulse
  · exact h

theorem eventLineDeliver {l} (h : Kept s₀ s) : Kept s₀ (eventLineDeliver l s) := by
  unfold Machine.eventLineDeliver
  split
  · exact h
  · exact h.frame.deliverPulse.ite h

/-! ### Machine/Roads -/

theorem writeHistory {n trans fracOnly} (h : Kept s₀ s) : Kept s₀ (writeHistory n trans fracOnly s) :=
  h.wrBytes.frame.setRgF.setRgF

theorem clearHistory {n} (h : Kept s₀ s) : Kept s₀ (clearHistory n s) :=
  h.setRgF.setRgF

theorem queueEntry {n} (h : Kept s₀ s) : Kept s₀ (queueEntry n s) :=
  h.setRoad

theorem transition {n new cause} (h : Kept s₀ s) : Kept s₀ (transition n new cause s) :=
  (((h.setRoad.onlyIf (fun _ h1 => h1.setRgF)).setRgF.bump.setCause.writeHistory.queueEntry.pulseSource.onlyIf
    (fun _ h1 => h1.forgetDue)).onlyIf (fun _ h1 => h1.roadStrands)).onlyIf fun _ h1 => h1.roadLeavesTracking

theorem settleReturn {n before} (h : Kept s₀ s) : Kept s₀ (settleReturn n before s) :=
  h.ite h.setRoad.roadReturns

theorem enqueueObservation {o} (h : Kept s₀ s) : Kept s₀ (enqueueObservation o s) := by
  unfold Machine.enqueueObservation
  split
  · exact h.bump
  · dsimp only
    split
    · exact h.frame.bump.bump.setCause
    · exact h.frame

theorem staleObservation {n} (h : Kept s₀ s) : Kept s₀ (staleObservation n s) :=
  h.bump.setCause

theorem localObservation {o} (h : Kept s₀ s) : Kept s₀ (localObservation o s) :=
  h.enqueueObservation.ite (h.staleObservation.ite h.captureInput)

theorem bookApplied {n fracOnly} (h : Kept s₀ s) : Kept s₀ (bookApplied n fracOnly s) :=
  h.setRoad.setRgF.bump.writeHistory.refreshEndTimes

theorem initialise {n o} (h : Kept s₀ s) : Kept s₀ (initialise n o s) :=
  h.setRoad.setRgF.bookApplied

theorem trackerUpdate {n o} (h : Kept s₀ s) : Kept s₀ (trackerUpdate n o s) := by
  unfold Machine.trackerUpdate
  dsimp only
  split
  · exact h.transition.initialise
  · split
    · exact h.transition.initialise
    · split
      · exact h.initialise
      · split
        · exact (h.setRoad.setRgF.ite (h.setRoad.setRgF.transition.onlyIf
            (fun _ h1 => h1.transition))).bookApplied.ite h.initialise
        · split
          · exact h.bump.setRgF.ite h.bump.transition.setCause.initialise
          · refine bookApplied ?_
            split
            · exact h.setRoad.transition.onlyIf fun _ h1 => h1.transition
            · exact h.setRoad.onlyIf fun _ h1 => h1.transition
            · exact h.setRoad.onlyIf fun _ h1 => h1.transition
            · exact h.setRoad

theorem takeEntry {b n} (h : Kept s₀ s) : Kept s₀ (takeEntry b n s) := by
  unfold Machine.takeEntry
  dsimp only
  split
  · exact h.staleObservation
  · refine refreshEndTimes ?_
    refine writeHistory ?_
    refine settleReturn ?_
    split
    · exact h.setRoad.ite h.setRoad.transition
    · exact h.setRoad

theorem roadEntry {b} (h : Kept s₀ s) : Kept s₀ (roadEntry b s) :=
  h.forEach (fun _ _ h1 => h1.enqueueObservation)

theorem roadStateReceive {src payload} (h : Kept s₀ s) : Kept s₀ (roadStateReceive src payload s) :=
  h.forEach (fun _ _ h1 => (h1.forEach (fun _ _ h2 => h2.staleObservation)).ite (h1.captureInput.ite h1.roadEntry))

theorem checkObservation {o} (h : Kept s₀ s) : Kept s₀ (checkObservation o s) := by
  unfold Machine.checkObservation
  dsimp only
  split
  · exact h.staleObservation
  · exact h.bump
  · exact h.takeEntry.ite h.trackerUpdate.settleReturn

theorem observationIngest (h : Kept s₀ s) : Kept s₀ (observationIngest s) := by
  unfold Machine.observationIngest
  split
  · exact h
  · exact h.ite h.frame.checkObservation

theorem startRoad {n} (h : Kept s₀ s) : Kept s₀ (startRoad n s) :=
  h.ite (h.clearHistory.setRgF.setRoad.transition.settleReturn.ite h.clearHistory.setRgF.setRoad.transition)

theorem beforeIngest {n} (h : Kept s₀ s) : Kept s₀ (beforeIngest n s) := by
  unfold Machine.beforeIngest
  split
  · exact h
  · exact h.setRg.setRg.setRg.setRg.setRg.frame.setRoad

theorem stopRoad {n} (h : Kept s₀ s) : Kept s₀ (stopRoad n s) :=
  h.ite (h.beforeIngest.onlyIf (fun _ h1 => h1.bump)).setRoad.transition

theorem reacquireRoad {n} (h : Kept s₀ s) : Kept s₀ (reacquireRoad n s) := by
  unfold Machine.reacquireRoad
  dsimp only
  split
  · exact h
  · split
    · exact h.beforeIngest.setRoad.transition.checkObservation
    · exact h.beforeIngest.setRoad.transition

theorem roaSrcWrite {path value} (h : Kept s₀ s) : Kept s₀ (roaSrcWrite path value s) :=
  h.atInst (fun _ _ h1 => h1.ite h1.setRg)

theorem roaPeriodWrite {path value} (h : Kept s₀ s) : Kept s₀ (roaPeriodWrite path value s) :=
  h.atInst (fun _ _ h1 => h1.ite h1.setRg)

theorem roaCtrlWrite {path value} (h : Kept s₀ s) : Kept s₀ (roaCtrlWrite path value s) :=
  h.atInst (fun _ _ h1 => h1.setRgF.stopRoad.ite ((h1.setRgF.onlyIf (fun _ h2 => h2.startRoad)).onlyIf
    (fun _ h2 => h2.reacquireRoad)))

theorem roaPosLapRead {path} (h : Kept s₀ s) : Kept s₀ (roaPosLapRead path s) := by
  unfold Machine.roaPosLapRead
  split
  · exact h
  · exact h.setRg.setRg.setRg.setRg.setRg

theorem publishRoad {n} (h : Kept s₀ s) : Kept s₀ (publishRoad n s) :=
  h.ite h.setRoad

theorem roadPublish (h : Kept s₀ s) : Kept s₀ (roadPublish s) :=
  h.forEach (fun _ _ h1 => h1.publishRoad)

theorem clockRoadLap {n} (h : Kept s₀ s) : Kept s₀ (clockRoadLap n s) :=
  h.ite h.setRoad.writeHistory

theorem obsTimeout {n} (h : Kept s₀ s) : Kept s₀ (obsTimeout n s) :=
  h.ite (h.transition.ite h)

theorem coastLimitExpiry {n} (h : Kept s₀ s) : Kept s₀ (coastLimitExpiry n s) := by
  unfold Machine.coastLimitExpiry
  dsimp only
  split
  · exact h
  · split
    · exact h.transition.ite h
    · exact h.transition.ite h
    · exact h

theorem roadMilepostStep {delta n} (h : Kept s₀ s) : Kept s₀ (roadMilepostStep delta n s) :=
  h.ite (h.clearHistory.setRoad.ite (h.ite h.clearHistory.setRoad.transition))

theorem roadsMilepostStep {delta} (h : Kept s₀ s) : Kept s₀ (roadsMilepostStep delta s) :=
  h.forEach (fun _ _ h1 => h1.roadMilepostStep)

/-! ### Machine/Mains -/

theorem feedRoads {kind i time lap frac hint} (h : Kept s₀ s) : Kept s₀ (feedRoads kind i time lap frac hint s) :=
  h.forEach (fun _ _ h1 => h1.localObservation)

theorem storeSample {c q} (h : Kept s₀ s) : Kept s₀ (storeSample c q s) :=
  h.setRg.bump.setCause.ite h.setRg

theorem issueMains {p t' frac} (h : Kept s₀ s) : Kept s₀ (issueMains p t' frac s) :=
  h.bump.onlyIf fun _ h1 => h1.feedRoads

theorem excursion {p} (h : Kept s₀ s) : Kept s₀ (excursion p s) :=
  h.bump.setCause

theorem positiveCrossing {p t'} (h : Kept s₀ s) : Kept s₀ (positiveCrossing p t' s) := by
  unfold Machine.positiveCrossing
  dsimp only
  split
  · exact h.setRg.setRgF.setTracker
  · exact (h.setRg.addRgF.setTracker.onlyIf (fun _ h1 => h1.issueMains)).ite
      ((h.addRgF.setTracker.onlyIf (fun _ h1 => h1.issueMains)).ite
      (h.addRgF.setTracker.excursion.ite h.setTracker.excursion))

theorem negativeCrossing {p t'} (h : Kept s₀ s) : Kept s₀ (negativeCrossing p t' s) :=
  h.issueMains.ite h

theorem declareDropout {p} (h : Kept s₀ s) : Kept s₀ (declareDropout p s) :=
  h.setTracker.setCause

theorem trackerSet {p t' sig} (h : Kept s₀ s) : Kept s₀ (trackerSet p t' sig s) :=
  h.ite (((h.setTracker.onlyIf (fun _ h1 => h1.declareDropout)).setTracker.onlyIf
    (fun _ h1 => h1.positiveCrossing)).onlyIf (fun _ h1 => h1.negativeCrossing))

theorem writeSet {time xs ovr} (h : Kept s₀ s) : Kept s₀ (writeSet time xs ovr s) :=
  h.frame.ite (h.frame.setRg.wrBytes.ite h.frame.setRg)

theorem mainsSampleSet {time raw live} (h : Kept s₀ s) : Kept s₀ (mainsSampleSet time raw live s) :=
  h.ite (h.frame.ite ((h.frame.forEach (fun _ _ h1 => h1.storeSample)).forEach
    (fun _ _ h1 => h1.trackerSet)).writeSet)

theorem mainsDropout {p} (h : Kept s₀ s) : Kept s₀ (mainsDropout p s) := by
  unfold Machine.mainsDropout
  dsimp only
  split
  · exact h.declareDropout.ite h
  · exact h

theorem modulatorStuck {c} (h : Kept s₀ s) : Kept s₀ (modulatorStuck c s) :=
  h.ite h.frame.setCause

theorem mfeTrkCfgWrite {path value} (h : Kept s₀ s) : Kept s₀ (mfeTrkCfgWrite path value s) :=
  h.atInst (fun _ _ h1 => h1.setRg.setRg.setRgF.setTracker.ite (h1.setRg.ite h1.setRg.setTracker))

/-! ### Machine/Shafts -/

theorem issueShaft {c t' hint} (h : Kept s₀ s) : Kept s₀ (issueShaft c t' hint s) :=
  h.feedRoads.ite h

theorem issueDue {c} (h : Kept s₀ s) : Kept s₀ (issueDue c s) := by
  unfold Machine.issueDue
  dsimp only
  split
  · exact h
  · exact h.setShaft.issueShaft.ite h.setShaft

theorem issueEarlier {c time} (h : Kept s₀ s) : Kept s₀ (issueEarlier c time s) :=
  h.onlyIf fun _ h1 => h1.issueDue

theorem quadratureChange {c a b time} (h : Kept s₀ s) : Kept s₀ (quadratureChange c a b time s) :=
  h.issueEarlier.setShaft.ite (h.issueEarlier.setShaft.bump.setCause.ite
    (h.issueEarlier.setShaft.ite h.issueEarlier.setShaft))

theorem shaftIndex {c time} (h : Kept s₀ s) : Kept s₀ (shaftIndex c time s) :=
  h.issueEarlier.ite (h.issueEarlier.setShaft.ite (h.issueEarlier.ite
    (h.issueEarlier.bump.setCause.setShaft.ite h.issueEarlier.bump.setCause)))

theorem shaftIdleObs {c} (h : Kept s₀ s) : Kept s₀ (shaftIdleObs c s) :=
  h.issueDue.ite h.issueDue.setShaft.issueShaft

theorem ssiFrameStart {c} (h : Kept s₀ s) : Kept s₀ (ssiFrameStart c s) :=
  h.ite (h.setCause.ite h.setShaft)

theorem ssiFrameDone {c raw lineOk edgeTime} (h : Kept s₀ s) : Kept s₀ (ssiFrameDone c raw lineOk edgeTime s) :=
  h.ite (h.setShaft.ite (h.setShaft.bump.setCause.ite (h.setShaft.bump.setCause.ite h.setShaft.setShaft.issueShaft)))

theorem clearShaft {c} (h : Kept s₀ s) : Kept s₀ (clearShaft c s) :=
  h.setShaft

theorem checkShaft {c} (h : Kept s₀ s) : Kept s₀ (checkShaft c s) :=
  h.setCause.ite h

theorem shfCfgWrite {path value} (h : Kept s₀ s) : Kept s₀ (shfCfgWrite path value s) :=
  h.atInst (fun _ _ h1 => ((h1.issueDue.setRg.onlyIf (fun _ h2 => h2.setShaft)).ite
    (h1.issueDue.setRg.onlyIf (fun _ h2 => h2.setShaft)).clearShaft).checkShaft)

theorem shfCprWrite {path value} (h : Kept s₀ s) : Kept s₀ (shfCprWrite path value s) :=
  h.atInst (fun _ _ h1 => (h1.onlyIf (fun _ h2 => h2.setShaft)).ite
    ((h1.onlyIf (fun _ h2 => h2.setShaft)).setRg.onlyIf (fun _ h2 => h2.setCause)))

theorem shfSsiWrite {path value} (h : Kept s₀ s) : Kept s₀ (shfSsiWrite path value s) :=
  h.atInst (fun _ _ h1 => h1.setRg.checkShaft)

theorem shfPosLapRead {path} (h : Kept s₀ s) : Kept s₀ (shfPosLapRead path s) := by
  unfold Machine.shfPosLapRead
  split
  · exact h.setRg
  · exact h

/-! ### Machine/Milepost -/

theorem ownerWrite {path f} (h : Kept s₀ s) (hf : ∀ t, Kept s₀ t → Kept s₀ (f t)) : Kept s₀ (ownerWrite path f s) :=
  (hf _ h).ite h

theorem setIncr {x} (h : Kept s₀ s) : Kept s₀ (setIncr x s) :=
  h.setRg.setRg

theorem mptIncrFracWrite {path value} (h : Kept s₀ s) : Kept s₀ (mptIncrFracWrite path value s) :=
  h.ownerWrite fun _ h1 => h1.frame

theorem commitIncr {x} (h : Kept s₀ s) : Kept s₀ (commitIncr x s) :=
  h.frame.setRgF.ite h.bump.setCause

theorem mptIncrIntWrite {path value} (h : Kept s₀ s) : Kept s₀ (mptIncrIntWrite path value s) :=
  h.ownerWrite fun _ h1 => h1.commitIncr

theorem mptStepGo {path value} (h : Kept s₀ s) : Kept s₀ (mptStepGo path value s) :=
  h.ownerWrite (fun _ h1 => h1.ite (h1.bump.setCause.ite h1.setRgF))

theorem mptSetWrite {path r value} (h : Kept s₀ s) : Kept s₀ (mptSetWrite path r value s) :=
  h.ownerWrite fun _ h1 => h1.setRg

theorem takeStep (h : Kept s₀ s) : Kept s₀ (takeStep s) :=
  h.gatesLoseRoads.frame.setRgF.setCause.roadsMilepostStep.gatesMilepostStep

theorem addIncr (h : Kept s₀ s) : Kept s₀ (addIncr s) :=
  h.frame.ite h.frame.frame.bump.pulseSource.setCause

theorem tclkEdge (h : Kept s₀ s) : Kept s₀ (tclkEdge s) :=
  (((h.forEach (fun _ _ h1 => h1.issueDue)).applyCommits.countDeferrals.frame.takeStep.ite
    (h.forEach (fun _ _ h1 => h1.issueDue)).applyCommits.countDeferrals.frame.addIncr).setIncr.setRgF.ite
    ((h.forEach (fun _ _ h1 => h1.issueDue)).applyCommits.countDeferrals.frame.takeStep.ite
    (h.forEach (fun _ _ h1 => h1.issueDue)).applyCommits.countDeferrals.frame.addIncr)).takeDueSteps

theorem incrementApplied (h : Kept s₀ s) : Kept s₀ (incrementApplied s) :=
  h.tclkEdge.ite h

theorem stepTaken (h : Kept s₀ s) : Kept s₀ (stepTaken s) :=
  h.tclkEdge.ite h

theorem mptNsRead {path} (h : Kept s₀ s) : Kept s₀ (mptNsRead path s) :=
  h.setRg

theorem setTs2 {t' q} (h : Kept s₀ s) : Kept s₀ (setTs2 t' q s) :=
  h.frame

theorem pushTs2 {t' e} (h : Kept s₀ s) : Kept s₀ (pushTs2 t' e s) :=
  h.setTs2.ite h.bump.setCause

theorem mptTs2TimeRead {path} (h : Kept s₀ s) : Kept s₀ (mptTs2TimeRead path s) := by
  unfold Machine.mptTs2TimeRead
  split
  · exact h.setTs2
  · exact h

theorem mptFwSetWrite {path value} (h : Kept s₀ s) : Kept s₀ (mptFwSetWrite path value s) :=
  (h.atGlobal (fun _ h1 => h1.forEach (fun _ _ h2 => h2.onlyIf (fun _ h3 => h3.setCause)))).ite h

theorem extTimePublish {taiBase utc taiValid late} (h : Kept s₀ s) :
    Kept s₀ (extTimePublish taiBase utc taiValid late s) :=
  h.wrBytes.onlyIf fun _ h1 => h1.mptFwSetWrite

/-! ### Machine/Macs -/

theorem passFrame {p l ts b} (h : Kept s₀ s) : Kept s₀ (passFrame p l ts b s) :=
  h.macGood.ite h.macGood.setMacRun

theorem takePause {p quanta} (h : Kept s₀ s) : Kept s₀ (takePause p quanta s) :=
  h.macBump.ite ((h.macBump.onlyIf (fun _ h1 => h1.macBump)).ite
    (h.macBump.onlyIf (fun _ h1 => h1.macBump)).setMacRun)

theorem takePfc {p classes quanta} (h : Kept s₀ s) : Kept s₀ (takePfc p classes quanta s) :=
  h.macBump.ite ((h.macBump.onlyIf (fun _ h1 => h1.macBump)).ite
    (h.macBump.onlyIf (fun _ h1 => h1.macBump)).setMacRun)

theorem controlArrives {p f} (h : Kept s₀ s) (hf : ∀ t, Kept s₀ t → Kept s₀ (f t)) : Kept s₀ (controlArrives p f s) :=
  h.ite (h.macBump.ite (hf _ h))

theorem takeControl {p b} (h : Kept s₀ s) : Kept s₀ (takeControl p b s) := by
  unfold Machine.takeControl
  split
  · exact h.takePause
  · exact h.takePfc
  · exact h.macBump

theorem pauseTimerExpiry {p c link} (h : Kept s₀ s) : Kept s₀ (pauseTimerExpiry p c link s) :=
  h.setMacRun.ite h.setMacRun

theorem macPauseCfgWrite {path value} (h : Kept s₀ s) : Kept s₀ (macPauseCfgWrite path value s) :=
  h.atInst (fun _ _ h1 => h1.setRg.setMacRun)

theorem macPauseTxWrite {path value} (h : Kept s₀ s) : Kept s₀ (macPauseTxWrite path value s) :=
  h.atInst (fun _ _ h1 => h1.setMacRun.ite h1)

theorem pauseFrameSend {p} (h : Kept s₀ s) : Kept s₀ (pauseFrameSend p s) := by
  unfold Machine.pauseFrameSend
  split
  · exact h.setMacRun.macBump.putLine.ite h
  · exact h

theorem receiveWhole {p frame symbolErr pass ts} (h : Kept s₀ s) :
    Kept s₀ (receiveWhole p frame symbolErr pass ts s) :=
  h.macBump.ite ((h.onlyIf (fun _ h1 => h1.macBump)).macBump.ite
    ((h.onlyIf (fun _ h1 => h1.macBump)).macBump.ite ((h.onlyIf (fun _ h1 => h1.macBump)).macBump.ite
    ((h.onlyIf (fun _ h1 => h1.macBump)).takeControl.ite ((h.onlyIf (fun _ h1 => h1.macBump)).macBump.ite
    (h.onlyIf (fun _ h1 => h1.macBump)).passFrame)))))

theorem macReceiveFrame {p frame symbolErr phase} (h : Kept s₀ s) :
    Kept s₀ (macReceiveFrame p frame symbolErr phase s) :=
  h.receiveWhole.ite h

theorem sendResponse {p} (h : Kept s₀ s) : Kept s₀ (sendResponse p s) :=
  h.setMacRun.putLine.ite h

theorem verifyRequest {p} (h : Kept s₀ s) : Kept s₀ (verifyRequest p s) :=
  h.setMacRun.sendResponse.ite h

theorem fragmentReceive {p x first last ok} (h : Kept s₀ s) : Kept s₀ (fragmentReceive p x first last ok s) := by
  unfold Machine.fragmentReceive
  split
  · exact h
  · split
    · exact h.verifyRequest
    · dsimp only
      split
      · exact (h.setMacRun.onlyIf (fun _ h1 => h1.macBump)).macBump
      · split
        · exact (((h.setMacRun.onlyIf (fun _ h1 => h1.macBump)).macBump.ite h).setMacRun.onlyIf
            (fun _ h1 => h1.macBump)).macBump
        · exact ((h.setMacRun.onlyIf (fun _ h1 => h1.macBump)).macBump.ite h).setMacRun.macAdd.receiveWhole.ite
            ((h.setMacRun.onlyIf (fun _ h1 => h1.macBump)).macBump.ite h).setMacRun

theorem macPreCfgWrite {path value} (h : Kept s₀ s) : Kept s₀ (macPreCfgWrite path value s) :=
  h.atInst (fun _ _ h1 => h1.ite (h1.setRg.showVerify.ite h1.setRg.restartVerify))

theorem preemptVerify {p} (h : Kept s₀ s) : Kept s₀ (preemptVerify p s) :=
  h.ite ((h.onlyIf (fun _ h1 => h1.addRgF.putLine)).ite (h.setVerification.onlyIf (fun _ h1 => h1.setCause)))

theorem verifyResponseReceive {p} (h : Kept s₀ s) : Kept s₀ (verifyResponseReceive p s) :=
  h.setVerification.ite h

theorem transparentClock {c f te} (h : Kept s₀ s) : Kept s₀ (transparentClock c f te s) := by
  unfold Machine.transparentClock
  split
  · exact (h.onlyIf (fun _ h1 => h1.bump.setCause)).bump
  · exact h

theorem dropOneStep {p} (h : Kept s₀ s) : Kept s₀ (dropOneStep p s) :=
  h.endHanded.bump.setCause

theorem stompLine {p n c} (h : Kept s₀ s) : Kept s₀ (stompLine p n c s) :=
  (h.putLine.ite h.putLine).macBump

theorem bufferEcc {p cell c} (h : Kept s₀ s) : Kept s₀ (bufferEcc p cell c s) :=
  (((h.bump.dropUnstarted (fun _ _ h1 => h1.bump.setCause)).forEach
    (fun _ _ h1 => h1.bump.setCause.endHanded)).onlyIf (fun _ h1 => h1.stompLine)).bump.setCause.endHanded

theorem startCopy {p phase c f r} (h : Kept s₀ s) (hr : startCopy p phase c f s = some r) : Kept s₀ r.2 := by
  unfold Machine.startCopy at hr
  split at hr
  · cases hr; exact h
  · extract_lets te m s' at hr
    have h1 : Kept s₀ s' := h.onlyIf fun _ h => h.setMacRun
    split at hr
    · cases hr; exact h1.pushTs2
    · split at hr
      · cases hr
      · cases hr; exact h1.transparentClock

theorem useOpportunity {p n} (h : Kept s₀ s) : Kept s₀ (useOpportunity p n s) :=
  h.setPortRun.ite h

theorem finishCopy {p c f} (h : Kept s₀ s) : Kept s₀ (finishCopy p c f s) := by
  unfold Machine.finishCopy
  dsimp only
  split
  · exact (h.onlyIf (fun _ h1 => h1.macBump)).macBump.setMacRun.putLine.setHanded.setSuspended.setPreempting
  · exact (h.onlyIf (fun _ h1 => h1.macBump)).useOpportunity.putLine.macGood.endHanded

theorem macTransmit {p phase collisions x} (h : Kept s₀ s) : Kept s₀ (macTransmit p phase collisions x s) := by
  unfold Machine.macTransmit
  split
  · exact h
  · split
    · exact h.endHanded
    · extract_lets s1 s2
      have h1 : Kept s₀ s1 := h.onlyIf fun _ h => h.bump
      have h2 : Kept s₀ s2 := h1.onlyIf fun _ h => h.macAdd
      split
      · exact h
      · split
        · exact h.endHanded.macBump
        · split
          · exact h1.bufferEcc
          · split
            · exact h2.endHanded.macBump
            · split
              · exact h2.dropOneStep
              · next c s3 hr =>
                have h3 : Kept s₀ s3 := h2.startCopy hr
                exact h3.setHanded.ite h3.setHanded.finishCopy

theorem pcsCounts {t' x} (h : Kept s₀ s) : Kept s₀ (pcsCounts t' x s) :=
  h.addRgF.addRgF.onlyIf fun _ h1 => h1.addRgF

theorem trunkLinkChange {t' x hiBer localFault remoteFault} (h : Kept s₀ s) :
    Kept s₀ (trunkLinkChange t' x hiBer localFault remoteFault s) :=
  h.ite ((((h.setRgF.onlyIf (fun _ h1 => h1.pcsCounts)).onlyIf (fun _ h1 => h1.setCause)).onlyIf
    (fun _ h1 => h1.setCause)).ite ((((h.setRgF.onlyIf (fun _ h1 => h1.pcsCounts)).onlyIf
    (fun _ h1 => h1.setCause)).onlyIf (fun _ h1 => h1.setCause)).onlyIf
    (fun _ h1 => h1.lineLost.linkFailed)).setCause.pulseSource)

theorem fecUncorrectable {t'} (h : Kept s₀ s) : Kept s₀ (fecUncorrectable t' s) :=
  h.ite h.bump.setCause

/-! ### Machine/Replication -/

theorem setRecHist {n x} (h : Kept s₀ s) : Kept s₀ (setRecHist n x s) :=
  h.setRg.setRg.setRg.setRg

theorem countLatent {n passed} (h : Kept s₀ s) : Kept s₀ (countLatent n passed s) :=
  h.ite (h.frame.ite h.frame)

theorem recPass {n} (h : Kept s₀ s) : Kept s₀ (recPass n s).1 :=
  h.bump.countLatent

theorem recoverySeq {n q} (h : Kept s₀ s) : Kept s₀ (recoverySeq n q s).1 :=
  h.setRg.setRecHist.recPass.ite_fst (h.bump.setCause.ite_fst
    (h.addRgF.setRgF.setRecHist.recPass.ite_fst (h.bump.countLatent.ite_fst h.setRecHist.recPass)))

theorem revertSeq {n q} (h : Kept s₀ s) : Kept s₀ (revertSeq n q s) :=
  h.setRecHist.bump.setCause.ite h

theorem stage4 {n p b} (h : Kept s₀ s) : Kept s₀ (stage4 n p b s).1 := by
  unfold Machine.stage4
  dsimp only
  split
  · exact h.bump
  · split
    · split
      · exact h
      · split
        · split <;> exact h.recoverySeq
        · exact h.bump.setCause
    · split <;> exact h

theorem recoveryResetTimeout {n} (h : Kept s₀ s) : Kept s₀ (recoveryResetTimeout n s) :=
  h.ite h.setRgF.bump.setCause

theorem startPeriod {n} (h : Kept s₀ s) : Kept s₀ (startPeriod n s) :=
  h.frame

theorem latentPeriodEnd {n} (h : Kept s₀ s) : Kept s₀ (latentPeriodEnd n s) :=
  h.ite (h.startPeriod.bump.setCause.ite h.startPeriod)

theorem freCfgWrite {n value} (h : Kept s₀ s) : Kept s₀ (freCfgWrite n value s) :=
  (h.onlyIf (fun _ h1 => h1.startPeriod)).setRg.setRgF.ite (h.onlyIf (fun _ h1 => h1.startPeriod)).setRg

theorem freLatWrite {n value} (h : Kept s₀ s) : Kept s₀ (freLatWrite n value s) :=
  (h.onlyIf (fun _ h1 => h1.startPeriod)).setRg

theorem freRecWrite {n value} (h : Kept s₀ s) : Kept s₀ (freRecWrite n value s) :=
  h.setRg.setRecHist.setRgF

theorem freSeqWrite {n value} (h : Kept s₀ s) : Kept s₀ (freSeqWrite n value s) :=
  h.ite h.setRgF

/-! ### Machine/Tolls -/

theorem setTollC {i v} (h : Kept s₀ s) : Kept s₀ (setTollC i v s) :=
  h.frame

theorem setTollP {i v} (h : Kept s₀ s) : Kept s₀ (setTollP i v s) :=
  h.frame

theorem tollMeter {i b dei} (h : Kept s₀ s) : Kept s₀ (tollMeter i b dei s).1 := by
  unfold Machine.tollMeter
  dsimp only
  split
  · exact h
  · split
    · exact h.bump
    · split
      · exact h.setTollP.bump
      · exact h.setTollP.setTollC.bump

theorem tollGiveBack {i b c} (h : Kept s₀ s) : Kept s₀ (tollGiveBack i b c s) := by
  unfold Machine.tollGiveBack
  split
  · exact h
  · split
    · exact h
    · exact h.setTollP
    · exact h.setTollP.setTollC

theorem tollAccrual (h : Kept s₀ s) : Kept s₀ (tollAccrual s) :=
  h.ite (h.forEach (fun _ _ h1 => h1.setTollP.setTollC))

/-! ### Machine/WaypostBase -/

theorem wpSendOn {t' peer msg} (h : Kept s₀ s) : Kept s₀ (wpSendOn t' peer msg s) := by
  unfold Machine.wpSendOn
  split
  · exact h.internalFrame
  · exact h.frame.internalFrame

theorem wpSendSession {i peer type flags epoch seq status payload} (h : Kept s₀ s) :
    Kept s₀ (wpSendSession i peer type flags epoch seq status payload s) := by
  unfold Machine.wpSendSession
  split
  · exact h
  · exact h.wpSendOn

theorem wpUnsolicited {i type payload} (h : Kept s₀ s) : Kept s₀ (wpUnsolicited i type payload s).1 :=
  h.ite_fst h.setRg.wpSendSession

theorem lostAtMac {t' f} (h : Kept s₀ s) (hf : ∀ t, Kept s₀ t → Kept s₀ (f t)) : Kept s₀ (lostAtMac t' f s) :=
  (hf _ h).ite h.macBump

theorem wpRespond {i peer type epoch seq status payload} (h : Kept s₀ s) :
    Kept s₀ (wpRespond i peer type epoch seq status payload s) :=
  h.bump.lostAtMac fun _ h1 => h1.wpSendSession

theorem wpSendAssocPort {a type port dst payload} (h : Kept s₀ s) :
    Kept s₀ (wpSendAssocPort a type port dst payload s) := by
  unfold Machine.wpSendAssocPort
  split
  · exact h
  · exact h.ite h.frame.internalFrame

theorem answerAsker {who type status payload} (h : Kept s₀ s) : Kept s₀ (answerAsker who type status payload s) := by
  unfold Machine.answerAsker
  split
  · exact h.wpRespond
  · exact h.wpSendAssocPort
  · exact h

theorem answerRelay {o code body} (h : Kept s₀ s) : Kept s₀ (answerRelay o code body s) := by
  unfold Machine.answerRelay
  split
  · exact h
  · exact (h.bump.setCause.ite h).answerAsker

theorem endRelay {o} (h : Kept s₀ s) : Kept s₀ (endRelay o s) :=
  h.frame.setRgF

theorem failRelays {p code} (h : Kept s₀ s) : Kept s₀ (failRelays p code s) :=
  h.forEach (fun _ _ h1 => h1.endRelay.answerRelay)

theorem sendEchoes {g} (h : Kept s₀ s) : Kept s₀ (sendEchoes g s) :=
  h.forEach (fun _ _ h1 => h1.wpSendAssocPort)

/-! ### Machine/Junction -/

theorem tblPut {table i e} (h : Kept s₀ s) : Kept s₀ (tblPut table i e s) := by
  unfold Machine.tblPut
  dsimp only
  split
  · exact h.frame
  · exact h.frame
  · exact h.frame.setRg.setRg.bump
  · exact h.frame

theorem refreshMac {i} (h : Kept s₀ s) : Kept s₀ (refreshMac i s) :=
  h.frame

theorem learn {p vid a} (h : Kept s₀ s) : Kept s₀ (learn p vid a s) := by
  unfold Machine.learn
  split
  · split
    · exact h.tblPut
    · exact h.bump.setCause
  · exact (h.onlyIf (fun _ h1 => h1.refreshMac)).ite (h.bump.ite h.tblPut.bump)

theorem obeyClaim {g p c src} (h : Kept s₀ s) : Kept s₀ (obeyClaim g p c src s).1 :=
  (((h.setRg.setRgF.ite h).onlyIf (fun _ h1 => h1.setRg)).setOutGroup.bump.setRgF.ite
    ((h.setRg.setRgF.ite h).onlyIf (fun _ h1 => h1.setRg)).setOutGroup.bump.setCause).onlyIf
    fun _ h1 => h1.sendEchoes

theorem outputStage {e p b} (h : Kept s₀ s) : Kept s₀ (outputStage e p b s).1 := by
  unfold Machine.outputStage
  split
  · exact h
  · split
    · exact h.obeyClaim
    · exact h

theorem forwardFrame {a f d st} (h : Kept s₀ s) : Kept s₀ (forwardFrame a f d st s).1 :=
  ((h.onlyIf (fun _ h1 => h1.learn)).onlyIf (fun _ h1 => h1.bump.setCause)).bump.setCause.ite_fst
    ((h.onlyIf (fun _ h1 => h1.learn)).onlyIf (fun _ h1 => h1.bump.setCause)).admitStream

theorem tollStage {a e k b} (h : Kept s₀ s) : Kept s₀ (tollStage a e k b s).1 := by
  unfold Machine.tollStage
  dsimp only
  split
  · exact h
  · split
    · exact h.onlyIf fun _ h1 => h1.tollGiveBack
    · exact (h.tollMeter.ite_fst h.tollMeter.tollGiveBack).ite_fst h.tollMeter

theorem checkStage {a e b} (h : Kept s₀ s) : Kept s₀ (checkStage a e b s).1 :=
  h.ite_fst (h.chkReady.ite_fst h.chkFrame)

theorem checkStages {i a e b} (h : Kept s₀ s) : Kept s₀ (checkStages i a e b s).1 :=
  h.checkStage.notePoints.outputStage.ite_fst h.checkStage.notePoints

theorem ruleStages {i a e k} (h : Kept s₀ s) : Kept s₀ (ruleStages i a e k s).1 := by
  unfold Machine.ruleStages
  dsimp only
  split
  · exact h.checkStages
  · split
    · exact h.checkStages.tollStage
    · exact h.checkStages.tollStage.forwardFrame

theorem countRule {i v} (h : Kept s₀ s) : Kept s₀ (countRule i v s) := by
  unfold Machine.countRule
  split <;> exact h.bump

theorem lookStart {p b ts} (h : Kept s₀ s) : Kept s₀ (lookStart p b ts s).1 := by
  unfold Machine.lookStart
  dsimp only
  split
  · exact h
  · next e _ =>
    have h4 : Kept s₀ (Machine.stage4 (fld e 169 160) p b s).1 := h.stage4
    split
    · exact h
    · split
      · next hr => rw [hr] at h4; exact h4
      · next hr => rw [hr] at h4; exact h4

theorem lookFinish {p cutting k} (h : Kept s₀ s) : Kept s₀ (lookFinish p cutting k s).1 := by
  unfold Machine.lookFinish
  dsimp only
  split
  · exact h.admitFrame
  · split
    · exact h.bump.setCause
    · split
      · exact h.ite_fst h.forwardFrame
      · exact (h.onlyIf (fun _ h1 => h1.countRule)).ite_fst (h.onlyIf (fun _ h1 => h1.countRule)).ruleStages

theorem lookupFrame {p b ts} (h : Kept s₀ s) : Kept s₀ (lookupFrame p b ts s) :=
  h.lookStart.lookFinish

theorem resetDrop (h : Kept s₀ s) : Kept s₀ (resetDrop s) :=
  h.bump.setCause

theorem setArriving {p a} (h : Kept s₀ s) : Kept s₀ (setArriving p a s) :=
  h.setMacRun

theorem meterEarly {a k} (h : Kept s₀ s) : Kept s₀ (meterEarly a k s).1 := by
  unfold Machine.meterEarly
  split
  · exact h
  · split
    · exact h.tollMeter
    · exact h

theorem giveBackEarly {p k length} (h : Kept s₀ s) : Kept s₀ (giveBackEarly p k length s) := by
  unfold Machine.giveBackEarly
  split
  · exact h.tollGiveBack
  · exact h

theorem lookArriving {p x} (h : Kept s₀ s) : Kept s₀ (lookArriving p x s) :=
  h.lookStart.setArriving.ite (h.lookStart.lookFinish.setArriving.ite h.lookStart.meterEarly.setArriving)

theorem junctionLookup {p arriving} (h : Kept s₀ s) : Kept s₀ (junctionLookup p arriving s) := by
  unfold Machine.junctionLookup
  split
  · split
    · exact h
    · exact h.setMacRun.resetDrop.ite h.setMacRun.lookupFrame
  · exact h.ite (h.resetDrop.setArriving.ite h.lookArriving)

theorem tblCommand {path op table i} (h : Kept s₀ s) : Kept s₀ (tblCommand path op table i s).1 := by
  unfold Machine.tblCommand
  extract_lets e v
  split
  · exact h
  · split
    · split
      · dsimp only; exact h.tblPut
      · split
        · dsimp only; exact h.tblPut
        · exact h
    · split
      · split
        · dsimp only; exact h.tblPut
        · exact h
      · split
        · exact h
        · split
          · exact h.forEach (fun _ _ h1 => h1.setRg)
          · split
            · exact h
            · dsimp only; exact h.tblPut

theorem tblCmdWrite {path value} (h : Kept s₀ s) : Kept s₀ (tblCmdWrite path value s) :=
  h.ite (h.setRg.tblCommand.setRg.ite h.setRg)

theorem macEntryAgeing {i} (h : Kept s₀ s) : Kept s₀ (macEntryAgeing i s) :=
  h.tblPut.ite h

theorem countAged {c} (h : Kept s₀ s) : Kept s₀ (countAged c s) :=
  h.bump.setCause

theorem sweepQueue {p c n} (h : Kept s₀ s) : Kept s₀ (sweepQueue p c n s) := by
  induction n generalizing s with
  | zero => exact h
  | succ n ih =>
    unfold Machine.sweepQueue
    split
    · exact h
    · exact (ih h.setJqueue.releaseRef.countAged).ite h

theorem ageSweep (h : Kept s₀ s) : Kept s₀ (ageSweep s) :=
  h.ite (h.forEach (fun _ _ h1 => h1.sweepQueue))

theorem residueExpiry {id} (h : Kept s₀ s) : Kept s₀ (residueExpiry id s) := by
  unfold Machine.residueExpiry
  split
  · exact (h.updJframe.dropUnstarted (fun _ _ h1 => h1.countAged.ite h1.bump.setCause)).ite h
  · exact h

theorem auditVisit {free held busy} (h : Kept s₀ s) : Kept s₀ (auditVisit free held busy s) :=
  h.ite (((h.onlyIf (fun _ h1 => h1.bump.setCause)).onlyIf (fun _ h1 => h1.bump.setCause)).frame.onlyIf
    (fun _ h1 => h1.bump))

/-! ### Machine/LaneExec -/

theorem issue {l w f} (h : Kept s₀ s) (hf : ∀ t, Kept s₀ t → Kept s₀ (f t)) : Kept s₀ (issue l w f s) :=
  (hf _ h).ite h

theorem laneOp {l w f} (h : Kept s₀ s) : Kept s₀ (laneOp l w f s) :=
  h.issue fun _ h1 => h1.setLane

theorem faultAt {l cause faddr} (h : Kept s₀ s) : Kept s₀ (faultAt l cause faddr s) :=
  h.laneFault

theorem noteRef {r ans} (h : Kept s₀ s) : Kept s₀ (noteRef r ans s) := by
  unfold Machine.noteRef
  split
  · exact h
  · exact h.noteAnswer

theorem applyStepWrite {w} (h : Kept s₀ s) : Kept s₀ (applyStepWrite w s) := by
  unfold Machine.applyStepWrite
  split
  · exact h.wrBytes
  · exact h.wrLe

theorem laneView {l} (h : Kept s₀ s) : Kept s₀ (laneView l s) :=
  (h.forEach (fun _ _ h1 => h1.applyStepWrite)).ite h

theorem addFlight {x} (h : Kept s₀ s) : Kept s₀ (addFlight x s) :=
  h.setDistrict.wrBytes

theorem putFlight {l edge a d} (h : Kept s₀ s) : Kept s₀ (putFlight l edge a d s) :=
  h.addFlight

theorem undoFlight {x} (h : Kept s₀ s) : Kept s₀ (undoFlight x s) :=
  h.wrBytes.ite h

theorem performSome {d} (h : Kept s₀ s) : Kept s₀ (performSome d s) :=
  h.ite h.frame.setDistrict

theorem seenMemory {l} (h : Kept s₀ s) : Kept s₀ (seenMemory l s) :=
  (h.forEach (fun _ _ h1 => h1.undoFlight)).forEach (fun _ _ h1 => h1.wrBytes)

theorem laneSees {l r} (h : Kept s₀ s) : Kept s₀ (laneSees l r s).1 := by
  unfold Machine.laneSees
  split
  · exact h.ite_fst h.performSome
  · exact h

theorem settleThrough {d p} (h : Kept s₀ s) : Kept s₀ (settleThrough d p s) :=
  h.setDistrict

theorem settleFlights {l} (h : Kept s₀ s) : Kept s₀ (settleFlights l s) :=
  h.settleThrough

theorem settleRead {l r n} (h : Kept s₀ s) : Kept s₀ (settleRead l r n s) := by
  unfold Machine.settleRead
  split
  · exact h.settleThrough
  · exact h

theorem atomDistrict {l a f} (h : Kept s₀ s) : Kept s₀ (atomDistrict l a f s).1 := by
  unfold Machine.atomDistrict
  dsimp only
  refine forEach ?_ fun _ _ h => h.addFlight
  exact h.settleFlights.performSome.settleThrough.setDistrict.forEach fun _ _ h => h.undoFlight

theorem loadOp {l w addr len ans f} (h : Kept s₀ s) : Kept s₀ (loadOp l w addr len ans f s) := by
  unfold Machine.loadOp
  refine h.issue fun s h => ?_
  dsimp only
  split
  · exact h.faultAt
  · split
    · exact h.noteRef.faultAt
    · exact h.noteRef.laneSees.setLane

theorem keepFetched {l a len} (h : Kept s₀ s) : Kept s₀ (keepFetched l a len s) :=
  h.ite (h.frame.forEach (fun _ _ h1 => h1.setLane.ite h1))

theorem storeLocal {l a d} (h : Kept s₀ s) : Kept s₀ (storeLocal l a d s) :=
  h.keepFetched.wrBytes

theorem landed {a d} (h : Kept s₀ s) : Kept s₀ (landed a d s) :=
  h.frame.wrBytes.ite h.frame

theorem storeOp {l w addr d ans} (h : Kept s₀ s) : Kept s₀ (storeOp l w addr d ans s) := by
  unfold Machine.storeOp
  refine h.issue fun s h => ?_
  dsimp only
  split
  · exact h.faultAt
  · split
    · exact h.faultAt
    · split
      · split
        · exact h.setLane
        · exact h.faultAt
      · split
        · exact h.noteRef.landed.faultAt
        · exact h.noteRef.faultAt
        · split
          · exact h.noteRef.storeLocal.setLane
          · exact h.noteRef.putFlight.setLane
          · exact h.noteRef.wrBytes.setLane

/-! ### Machine/Lanes -/

theorem jobStart {l ans} (h : Kept s₀ s) : Kept s₀ (jobStart l ans s) := by
  unfold Machine.jobStart
  split
  · exact h
  · split
    · exact h.setLane.noteRef.laneFault.ite (h.setLane.noteRef.laneFault.ite h.setLane.noteRef.setLane)
    · exact h

theorem markerLeaves {l slot gen seq} (h : Kept s₀ s) : Kept s₀ (markerLeaves l slot gen seq s) :=
  (h.setLane.ite h.sendMessage).ite h.setRgF

theorem drainMarkerHead {l} (h : Kept s₀ s) : Kept s₀ (drainMarkerHead l s) := by
  unfold Machine.drainMarkerHead
  split
  · exact h
  · split
    · exact h.setLane.ite (h.setLane.setSlotRun.markerLeaves.ite h.setLane.setSlotRun)
    · exact h

theorem messageDeliver {d viaJunction} (h : Kept s₀ s) : Kept s₀ (messageDeliver d viaJunction s) := by
  unfold Machine.messageDeliver
  split
  · split
    · split
      · exact h.ite h.endHanded.deliverMessage
      · exact h
    · exact h
  · split
    · exact h.setDistrict.deliverMessage
    · exact h

theorem dropDistrictFrame {d} (h : Kept s₀ s) : Kept s₀ (dropDistrictFrame d s) :=
  h.bump

theorem placeFrame {d port cls ts time b} (h : Kept s₀ s) : Kept s₀ (placeFrame d port cls ts time b s) := by
  unfold Machine.placeFrame
  split
  · exact h.dropDistrictFrame
  · split
    · exact h.dropDistrictFrame
    · dsimp only
      split
      · exact h.dropDistrictFrame.refuseAction
      · exact h.enqueueJob.dropDistrictFrame.refuseAction.ite h.enqueueJob.setDistrict.bump.wrBytes

theorem frameToDistrict {d} (h : Kept s₀ s) : Kept s₀ (frameToDistrict d s) := by
  unfold Machine.frameToDistrict
  split
  · exact h
  · split
    · exact h.endHanded
    · exact h.ite (h.endHanded.captureInput.ite h.endHanded.placeFrame)

theorem lncDstFrxWrite {path value} (h : Kept s₀ s) : Kept s₀ (lncDstFrxWrite path value s) :=
  h.atInst (fun _ _ h1 => h1.setRg.setDistrict)

theorem frxLayoutApply {d} (h : Kept s₀ s) : Kept s₀ (frxLayoutApply d s) :=
  h.setDistrict.ite h

theorem setHalt {d x} (h : Kept s₀ s) : Kept s₀ (setHalt d x s) :=
  h.setDistrict.forEach (fun _ _ h1 => h1.setLane)

theorem districtHalt {d} (h : Kept s₀ s) : Kept s₀ (districtHalt d s) :=
  h.ite (h.awaitStep.ite h.setHalt)

theorem districtResume {d} (h : Kept s₀ s) : Kept s₀ (districtResume d s) :=
  h.ite (h.awaitStep.ite h.setHalt)

/-! ### Machine/Ports -/

theorem serialBitCheck {r p} (h : Kept s₀ s) : Kept s₀ (serialBitCheck r p s) :=
  h.onlyIf fun _ h1 => h1.setCause

theorem serialRelink {p} (h : Kept s₀ s) : Kept s₀ (serialRelink p s) :=
  h.onlyIf fun _ h1 => h1.setLink

theorem t1lStatus {p up level isMaster lpiTx lpiRx} (h : Kept s₀ s) :
    Kept s₀ (t1lStatus p up level isMaster lpiTx lpiRx s) :=
  h.setRgF.setRgF

theorem t1lLink {p up x isMaster lpiTx lpiRx} (h : Kept s₀ s) : Kept s₀ (t1lLink p up x isMaster lpiTx lpiRx s) :=
  h.setPortRun.setLink.t1lStatus

theorem linkChange {p up level isMaster lpiTx lpiRx plca} (h : Kept s₀ s) :
    Kept s₀ (linkChange p up level isMaster lpiTx lpiRx plca s) :=
  h.ite (h.t1lLink.ite h.setLink.setRgF)

theorem t1sBeacon {p} (h : Kept s₀ s) : Kept s₀ (t1sBeacon p s) :=
  h.ite (h.setPortRun.bump.ite h.bump)

theorem clearReception {p} (h : Kept s₀ s) : Kept s₀ (clearReception p s) :=
  h.setPortRun

theorem deliverSerial {p b ts} (h : Kept s₀ s) : Kept s₀ (deliverSerial p b ts s) :=
  h.macBump.ite (h.macBump.ite h.passFrame)

theorem endMessage {p brk truncated} (h : Kept s₀ s) : Kept s₀ (endMessage p brk truncated s) :=
  h.clearReception.ite (h.onlyIf (fun _ h1 => h1.bump)).setPortRun.clearReception.deliverSerial

theorem endFull {p} (h : Kept s₀ s) : Kept s₀ (endFull p s) :=
  h.onlyIf fun _ h1 => h1.endMessage

theorem takeCharacter {p bits phase} (h : Kept s₀ s) : Kept s₀ (takeCharacter p bits phase s) :=
  h.setPortRun.ite ((h.onlyIf (fun _ h1 => h1.bump)).onlyIf (fun _ h1 => h1.bump)).setPortRun.endFull

theorem serialCharacterReceive {p startHeld bits phase} (h : Kept s₀ s) :
    Kept s₀ (serialCharacterReceive p startHeld bits phase s) :=
  h.takeCharacter.ite h

theorem serialMessageEnd {p why} (h : Kept s₀ s) : Kept s₀ (serialMessageEnd p why s) := by
  unfold Machine.serialMessageEnd
  split
  · exact h
  · split
    · exact h.endMessage
    · exact h.endMessage.ite h
    · exact h.endFull

theorem serialResponseTimeout {p} (h : Kept s₀ s) : Kept s₀ (serialResponseTimeout p s) :=
  h.setPortRun.bump.deliverSerial.ite h

theorem serialTransmit {p lineIdle mismatch} (h : Kept s₀ s) : Kept s₀ (serialTransmit p lineIdle mismatch s) := by
  unfold Machine.serialTransmit
  split
  · exact h
  · split
    · exact h.endHanded
    · exact h.ite (h.endHanded.macBump.ite (h.dropOneStep.ite
        (h.endHanded.bump.ite ((h.onlyIf (fun _ h1 => h1.setPortRun)).onlyIf
        (fun _ h1 => h1.bump)).macGood.putLine.endHanded)))

theorem addSurgeClass {p c n} (h : Kept s₀ s) : Kept s₀ (addSurgeClass p c n s) :=
  h.addRgF

theorem surgeClampEvent {p peakMa durationNs gapNs start} (h : Kept s₀ s) :
    Kept s₀ (surgeClampEvent p peakMa durationNs gapNs start s) := by
  unfold Machine.surgeClampEvent
  split
  · exact h
  · dsimp only
    split
    · exact (h.onlyIf (fun _ h1 => h1.setVerge)).setPortRun.addSurgeClass.addSurgeClass.ite
        (h.onlyIf (fun _ h1 => h1.setVerge))
    · exact (h.onlyIf (fun _ h1 => h1.setVerge)).setPortRun.bump.addSurgeClass.setRg.pulseSource.setCause

/-! ### Machine/Turnpike -/

theorem shaperSetCredit {b v} (h : Kept s₀ s) : Kept s₀ (Shaper.setCredit b v s) := by
  unfold Machine.Shaper.setCredit
  split
  · exact h.frame
  · exact h.frame
  · exact h.frame

theorem chargePath {c n} (h : Kept s₀ s) : Kept s₀ (chargePath c n s) :=
  h.forEach (fun _ _ h1 => h1.shaperSetCredit.ite h1)

theorem shaperAccrue {b} (h : Kept s₀ s) : Kept s₀ (Shaper.accrue b s) :=
  h.ite (h.shaperSetCredit.ite (h.shaperSetCredit.ite h))

theorem shaperAccrual (h : Kept s₀ s) : Kept s₀ (shaperAccrual s) :=
  (h.forEach (fun _ _ h1 => h1.macBump)).ite ((((h.forEach (fun _ _ h1 => h1.macBump)).forEach
    (fun _ _ h1 => h1.shaperAccrue)).forEach (fun _ _ h1 => h1.shaperAccrue)).forEach (fun _ _ h1 => h1.shaperAccrue))

theorem putService {p c d} (h : Kept s₀ s) : Kept s₀ (putService p c d s) :=
  h.frame

theorem putPort {p d} (h : Kept s₀ s) : Kept s₀ (putPort p d s) :=
  h.frame

theorem chooseCopy {p heads r} (h : Kept s₀ s) (hr : chooseCopy p heads s = some r) : Kept s₀ r.2 := by
  unfold Machine.chooseCopy at hr
  extract_lets strict classes pick need d at hr
  split at hr
  · obtain ⟨x, -, rfl⟩ := Option.map_eq_some_iff.mp hr
    exact h.putService
  · split at hr
    · obtain ⟨x, -, rfl⟩ := Option.map_eq_some_iff.mp hr
      exact h.putPort.putService
    · cases hr

theorem takeCopy {c} (h : Kept s₀ s) : Kept s₀ (takeCopy c s) :=
  h.setJqueue.updJframe

theorem handCopy {c} (h : Kept s₀ s) : Kept s₀ (handCopy c s) := by
  unfold Machine.handCopy
  split
  · exact h
  · exact (h.chargePath.takeCopy.bump.onlyIf (fun _ h1 => h1.bump)).setHanded

theorem dropOversize {p n} (h : Kept s₀ s) : Kept s₀ (dropOversize p n s) := by
  induction n generalizing s with
  | zero => exact h
  | succ n ih =>
    unfold Machine.dropOversize
    split
    · exact ih h.setJqueue.releaseRef.bump.setCause
    · exact h

theorem serve {p f n} (h : Kept s₀ s) : Kept s₀ (serve p f n s) := by
  induction n generalizing s with
  | zero => exact h
  | succ n ih =>
    unfold Machine.serve
    split
    · exact h
    · next hr => exact (ih h.setJqueue.releaseRef.countAged).ite (h.chooseCopy hr).handCopy

theorem selectExternal {p} (h : Kept s₀ s) : Kept s₀ (selectExternal p s) := by
  unfold Machine.selectExternal
  dsimp only
  split
  · exact h.sendResponse
  · split
    · exact h.sendResponse.dropOversize.setPreempting.ite h.sendResponse.dropOversize
    · split
      · exact h.sendResponse.dropOversize.serve.ite (h.sendResponse.dropOversize.serve.setSuspended.setHanded.ite
          h.sendResponse.dropOversize.serve)
      · exact h.sendResponse.dropOversize.serve

theorem selectInternal {p n} (h : Kept s₀ s) : Kept s₀ (selectInternal p n s) := by
  induction n generalizing s with
  | zero => exact h
  | succ n ih =>
    unfold Machine.selectInternal
    split
    · exact h
    · split
      · exact h
      · exact (ih h.setJqueue.releaseRef.countAged).ite h.takeCopy.setHanded

theorem handedAnswer {p x} (h : Kept s₀ s) : Kept s₀ (handedAnswer p x s) := by
  unfold Machine.handedAnswer
  split
  · exact h
  · exact h.bufferEcc.ite (h.onlyIf (fun _ h1 => h1.bump))

theorem queuedAnswer {x} (h : Kept s₀ s) : Kept s₀ (queuedAnswer x s) := by
  unfold Machine.queuedAnswer
  split
  · exact h
  · exact h.takeCopy.setHanded.bufferEcc.ite (h.onlyIf (fun _ h1 => h1.bump))

theorem turnpikeSelect {p x} (h : Kept s₀ s) : Kept s₀ (turnpikeSelect p x s) :=
  (h.ite (h.selectExternal.handedAnswer.ite h.selectExternal)).ite
    (h.queuedAnswer.ite (h.ite (h.selectInternal.handedAnswer.ite h.selectInternal)))

theorem endOnLine {c} (h : Kept s₀ s) : Kept s₀ (endOnLine c s) :=
  (h.onlyIf (fun _ h1 => h1.stompLine)).endHanded

theorem endRemainder {c} (h : Kept s₀ s) : Kept s₀ (endRemainder c s) :=
  h.stompLine.endSuspended

theorem killCopies {id} (h : Kept s₀ s) : Kept s₀ (killCopies id s) :=
  ((h.forEach (fun _ _ h1 => h1.endOnLine)).forEach (fun _ _ h1 => h1.endRemainder)).dropUnstarted (fun _ _ h1 => h1)

theorem giveBack {f c} (h : Kept s₀ s) : Kept s₀ (giveBack f c s) :=
  (h.forEach (fun _ _ h1 => h1.shaperSetCredit)).frame

theorem giveBackPort {f p} (h : Kept s₀ s) : Kept s₀ (giveBackPort f p s) := by
  unfold Machine.giveBackPort
  dsimp only
  split
  · refine setSuspended ?_
    refine giveBack ?_
    split
    · exact h.giveBack.setHanded
    · exact h
  · split
    · exact h.giveBack.setHanded
    · exact h

theorem completeFrame {f length received} (h : Kept s₀ s) : Kept s₀ (completeFrame f length received s) := by
  unfold Machine.completeFrame
  refine forEach ?_ (fun _ _ h1 => h1.giveBackPort)
  refine forEach ?_ (fun _ _ h1 => h1.setJqueue)
  split
  · exact h.setJframe.tollGiveBack
  · exact h.setJframe

theorem cutVerdict {f} (h : Kept s₀ s) : Kept s₀ (cutVerdict f s).1 := by
  unfold Machine.cutVerdict
  split
  · exact h
  · exact (h.bump.ite_fst h.chkVerdict).onlyIf fun _ h1 => h1.failPoints

theorem dropOversizeTags {f} (h : Kept s₀ s) : Kept s₀ (dropOversizeTags f s) :=
  h.forEach (fun _ _ h1 => h1.dropQueued.countOversize)

theorem revertPassed {r} (h : Kept s₀ s) : Kept s₀ (revertPassed r s) := by
  unfold Machine.revertPassed
  split
  · exact h.revertSeq
  · exact h

theorem reapFrame {id} (h : Kept s₀ s) : Kept s₀ (reapFrame id s) := by
  unfold Machine.reapFrame
  split
  · exact h.releaseRef.ite h
  · exact h

theorem settleCut {f good} (h : Kept s₀ s) : Kept s₀ (settleCut f good s) :=
  h.cutVerdict.killCopies.ite (h.cutVerdict.dropOversizeTags.ite h.cutVerdict.bump.setCause.killCopies)

theorem endCut {id length good} (h : Kept s₀ s) : Kept s₀ (endCut id length good s) := by
  unfold Machine.endCut
  split
  · exact h
  · refine reapFrame ?_
    refine onlyIf ?_ fun _ h1 => h1.revertPassed
    refine settleCut ?_
    split
    · exact h.completeFrame.countRule
    · exact h.completeFrame

theorem passArrived {p k} (h : Kept s₀ s) : Kept s₀ (passArrived p k s) :=
  h.resetDrop.ite h.lookFinish

theorem frameLastByte {p x length} (h : Kept s₀ s) : Kept s₀ (frameLastByte p x length s) := by
  unfold Machine.frameLastByte
  split
  · exact h
  · dsimp only
    split
    · refine endCut ?_
      split
      · exact (h.setArriving.onlyIf (fun _ h1 => h1.macBump)).macBump
      · exact (h.setArriving.onlyIf (fun _ h1 => h1.macBump)).macGood
    · split
      · refine passArrived ?_
        split
        · exact (h.setArriving.onlyIf (fun _ h1 => h1.macBump)).macBump
        · exact (h.setArriving.onlyIf (fun _ h1 => h1.macBump)).macGood
      · refine revertPassed ?_
        refine giveBackEarly ?_
        split
        · exact (h.setArriving.onlyIf (fun _ h1 => h1.macBump)).macBump
        · exact (h.setArriving.onlyIf (fun _ h1 => h1.macBump)).macGood

theorem arrivalLost {p} (h : Kept s₀ s) : Kept s₀ (arrivalLost p s) := by
  unfold Machine.arrivalLost
  split
  · exact h
  · dsimp only
    split
    · exact h.setArriving.endCut
    · exact h.setArriving.giveBackEarly.revertPassed

theorem mapCmdWrite {path value} (h : Kept s₀ s) : Kept s₀ (mapCmdWrite path value s) :=
  h.ite (h.setRg.ite (h.setRg.setRg.ite (h.setRg.setRg.setRg.ite (h.setRg.setRg.setCause.ite h.setRg.frame.setRg))))

/-! ### Machine/Queues -/

theorem qcfgWrite {q value ans} (h : Kept s₀ s) : Kept s₀ (qcfgWrite q value ans s) :=
  (h.setRg.shutdownOp.ite h.setRg).ite (h.setRg.setRgF.startQueue.ite h.setRg)

theorem queueEnable {path value ans} (h : Kept s₀ s) : Kept s₀ (queueEnable path value ans s) :=
  h.atInst (fun _ _ h1 => h1.qcfgWrite)

theorem queueShutdown {q x} (h : Kept s₀ s) : Kept s₀ (queueShutdown q x s) :=
  h.ite h.shutdownOp

theorem invalWrite {path value} (h : Kept s₀ s) : Kept s₀ (invalWrite path value s) :=
  h.ite (h.setRg.ite h.setRg.setQueueRun.setRg.setRg)

theorem cringPoll {q x} (h : Kept s₀ s) : Kept s₀ (cringPoll q x s) :=
  h.ite (h.noteAccess.ringFault.ite ((h.noteAccess.qStop.ite h.noteAccess).ite h.noteAccess.setQueueRun.settleQueue))

theorem wrrCharge {q n} (h : Kept s₀ s) : Kept s₀ (wrrCharge q n s) :=
  h.frame.ite (h.frame.ite h.frame)

theorem readEntry {q x f} (h : Kept s₀ s) (hf : ∀ x0 t, Kept s₀ t → Kept s₀ (f x0 t)) :
    Kept s₀ (readEntry q x f s) := by
  unfold Machine.readEntry
  dsimp only
  split
  · exact hf _ _ (h.ite h.noteAccess)
  · exact h.qStop
  · exact h.noteAccess.drawCookie.failEntry

theorem withEntry {q kind x f} (h : Kept s₀ s) (hf : ∀ x0 t, Kept s₀ t → Kept s₀ (f x0 t)) :
    Kept s₀ (withEntry q kind x f s) :=
  h.ite (h.setCause.ite ((h.wrrCharge.readEntry hf).ite h))

theorem refuseEntry {q x e} (h : Kept s₀ s) : Kept s₀ (refuseEntry q x e s) :=
  h.bump.setCause.finishEntry

theorem noteAll {as xs} (h : Kept s₀ s) : Kept s₀ (noteAll as xs s) := by
  induction as generalizing xs s with
  | nil => exact h
  | cons a as ih => exact (ih h.noteAccess).ite h.noteAccess

theorem transmitEntry {q x} (h : Kept s₀ s) : Kept s₀ (transmitEntry q x s) := by
  unfold Machine.transmitEntry
  refine h.withEntry fun e s h => ?_
  dsimp only
  split
  · exact h.noteAll.failEntry
  · refine ite h.noteAll.noteAll.failEntry (ite ?_ ?_)
    · exact h.noteAll.noteAll.internalOffer.finishEntry
    · exact h.noteAll.noteAll.internalOffer.refuseEntry

theorem receiveCompletion {q x n status written f cls e} (h : Kept s₀ s) :
    Kept s₀ (receiveCompletion q x n status written f cls e s) :=
  h.postCompletion.addRgF

theorem fillBuffers {q n x b k l} (h : Kept s₀ s) : Kept s₀ (fillBuffers q n x b k l s).st := by
  induction n generalizing x b k l s with
  | zero => exact h
  | succ n ih =>
    unfold Machine.fillBuffers
    extract_lets r a y e1 s1 e2 e3 s2 len
    have h1 : Kept s₀ s1 := h.ite h.noteAccess
    have h2 : Kept s₀ s2 := h1.noteAccess.ite h1
    split
    · exact h
    · split
      · exact h1
      · split
        · exact h1.drawCookie
        · split
          · exact h2
          · split
            · exact h2
            · exact ih h2.wrBytes.qAdvance

theorem receiveOutcome {q x f cls total w} (h : Kept s₀ w.st) : Kept s₀ (receiveOutcome q x f cls total w) := by
  unfold Machine.receiveOutcome
  extract_lets old s1 s2
  have h1 : Kept s₀ s1 := h.frame
  have h2 : Kept s₀ s2 := h1.ite h1.bump.setCause.receiveCompletion
  split
  · exact h1.receiveCompletion
  · split
    · exact h2
    · split
      · exact h2.failEntry
      · exact h2.qStop

theorem receiveFrameWrite {c x} (h : Kept s₀ s) : Kept s₀ (receiveFrameWrite c x s) := by
  unfold Machine.receiveFrameWrite
  extract_lets s1
  have h1 : Kept s₀ s1 := h.forEach (fun _ _ h1 => h1.sweepQueue)
  split
  · exact h1.withEntry fun _ _ h => h.failEntry.ite h.setQueueRun.takeCopy.releaseRef.fillBuffers.receiveOutcome
  · exact h1

theorem dropCopies (h : Kept s₀ s) : Kept s₀ (dropCopies s) := by
  unfold Machine.dropCopies
  dsimp only
  split
  · exact h
  · split
    · exact h.frame.onlyIf fun _ h => h.bump
    · split
      · split
        · exact h.frame
        · split
          · split
            · exact h.frame
            · exact h.frame.takeCopy.releaseRef.fillBuffers.bump
          · exact h.frame
      · exact h.frame

theorem clearQueues (h : Kept s₀ s) : Kept s₀ (clearQueues s) :=
  h.dropCopies.frame

theorem startEntryJob {e time} (h : Kept s₀ s) : Kept s₀ (startEntryJob e time s).1 :=
  h.startJob

theorem laneJobEntry {q x} (h : Kept s₀ s) : Kept s₀ (laneJobEntry q x s) :=
  h.withEntry (fun _ _ h1 => h1.failEntry.ite (h1.qAdvance.captureInput.setQueueRun.ite
    (h1.startEntryJob.finishEntry.ite h1.startEntryJob.refuseEntry)))

theorem completeFailed {q} (h : Kept s₀ s) : Kept s₀ (completeFailed q s) := by
  unfold Machine.completeFailed
  dsimp only
  split
  · exact h.setQueueRun.completeEntry.ite h
  · exact h

theorem dispatchEntry {own seq e} (h : Kept s₀ s) : Kept s₀ (dispatchEntry own seq e s) := by
  unfold Machine.dispatchEntry
  dsimp only
  split
  · exact h.startEntryJob
  · exact
      (h.startEntryJob.setQueueRun.completeEntry.ite
      h.startEntryJob.setQueueRun.bump.setCause.completeEntry).completeFailed.settleQueue

/-! ### Machine/Resets -/

theorem dropRegs {p} (h : Kept s₀ s) : Kept s₀ (dropRegs p s) := h.sfilter_regs

theorem zeroCounts {f} (h : Kept s₀ s) : Kept s₀ (zeroCounts f s) :=
  h.dropRegs

theorem clearLane {l} (h : Kept s₀ s) : Kept s₀ (clearLane l s) :=
  h.freeBuffer.addRgF.setRgF.setDistrict.setLane

theorem clearDistrict {d} (h : Kept s₀ s) : Kept s₀ (clearDistrict d s) :=
  ((h.forEach (fun _ _ h1 => h1.clearLane)).forEach (fun _ _ h1 => h1.setLane)).setDistrict

theorem clearMac {p} (h : Kept s₀ s) : Kept s₀ (clearMac p s) :=
  ((h.onlyIf (fun _ h1 => h1.macBump)).arrivalLost.macBump.ite
    (h.onlyIf (fun _ h1 => h1.macBump))).lineLost.setMacRun.restartVerify

theorem clearPort {p} (h : Kept s₀ s) : Kept s₀ (clearPort p s) :=
  (h.abortVerge.macBump.ite h.abortVerge).clearReception.setPortRun.clearMac.setLink

theorem clearTrunk {t'} (h : Kept s₀ s) : Kept s₀ (clearTrunk t' s) :=
  h.clearMac.setTs2.setRgF.setCause.pulseSource.ite h.clearMac.setTs2

theorem clearJunction (h : Kept s₀ s) : Kept s₀ (clearJunction s) := by
  unfold Machine.clearJunction
  extract_lets held stomp s1 s2 forget s3 waiting s4 jct s5 s6
  have hstomp : ∀ p t, Kept s₀ t → Kept s₀ (stomp p t) := by
    intro p t h
    unfold stomp
    extract_lets u
    have hu : Kept s₀ u := by
      unfold u
      split
      · exact h.endRemainder
      · exact h
    split
    · exact hu.endOnLine
    · exact hu
  have hforget : ∀ p t, Kept s₀ t → Kept s₀ (forget p t) := by
    intro p t h
    unfold forget
    split
    · exact h.setArriving.ite h
    · exact h
  have h2 : Kept s₀ s2 := (h.forEach hstomp).forEach fun _ _ h => h.setJqueue
  have h4 : Kept s₀ s4 := (h2.forEach hforget).forEach fun _ _ h => h.setMacRun
  have h6 : Kept s₀ s6 := h4.frame.setRgF
  split
  · exact h6
  · exact h6.addRgF.setCause

theorem clearTurnpike (h : Kept s₀ s) : Kept s₀ (clearTurnpike s) := by
  unfold Machine.clearTurnpike
  extract_lets count abort s1
  have hcount : ∀ c t, Kept s₀ t → Kept s₀ (count c t) := fun _ _ h => h.bump.setCause
  have habort : ∀ p t, Kept s₀ t → Kept s₀ (abort p t) := by
    intro p t h
    unfold abort
    extract_lets u
    have hu : Kept s₀ u := by
      unfold u
      split
      · exact (hcount _ _ h).endRemainder
      · exact h
    split
    · exact (hcount _ _ hu).endOnLine.ite hu
    · exact hu
  exact (h.forEach habort).frame

theorem clearRoads (h : Kept s₀ s) : Kept s₀ (clearRoads s) :=
  (h.forEach (fun _ _ h1 => h1.setRoad)).frame.forEach (fun _ _ h1 => h1.roadLeavesTracking)

theorem clearMilestones (h : Kept s₀ s) : Kept s₀ (clearMilestones s) :=
  h.frame

theorem clearMains (h : Kept s₀ s) : Kept s₀ (clearMains s) :=
  h.frame

theorem clearDma (h : Kept s₀ s) : Kept s₀ (clearDma s) :=
  (h.forEach (fun _ _ h1 => h1.frame.dmaMove)).frame

theorem clearJournal (h : Kept s₀ s) : Kept s₀ (clearJournal s) :=
  h.frame.addRgF.setRg

theorem clearTwin (h : Kept s₀ s) : Kept s₀ (clearTwin s) :=
  (h.frame.forEach (fun _ _ h1 => h1.setSession)).setRgF

theorem clearHierarchy (h : Kept s₀ s) : Kept s₀ (clearHierarchy s) :=
  (h.failRelays.forEach (fun _ _ h1 => h1.setRoad)).frame

theorem drawWord {cur} (h : Kept s₀ s) : Kept s₀ (drawWord cur s).1 :=
  h.frame

theorem clearWaypost (h : Kept s₀ s) : Kept s₀ (clearWaypost s) := by
  unfold Machine.clearWaypost
  extract_lets d keep old oldWpt s1
  have h1 : Kept s₀ s1 := frame h.drawWord
  exact h1.dropRegs

theorem loseDie {d} (h : Kept s₀ s) : Kept s₀ (loseDie d s) :=
  h.forEach (fun _ _ h1 => h1.setPortRun.clearReception.setLink)

theorem clearFunction {f} (h : Kept s₀ s) : Kept s₀ (clearFunction f s) :=
  h.clearPort.ite (h.clearTrunk.ite (h.clearDistrict.ite (h.clearJunction.ite
    (h.clearTurnpike.ite (h.frame.setRgF.ite (h.clearRoads.ite
    (h.clearMilestones.ite (h.clearMains.ite ((h.forEach (fun _ _ h1 => h1.clearShaft)).ite
    (h.clearDma.ite (h.clearQueues.ite (h.clearJournal.ite (h.clearTwin.ite
    (h.clearHierarchy.ite (h.clearWaypost.ite ((h.setRgF.ite h).ite (h.setRgF.loseDie.ite h)))))))))))))))))

theorem startReset {f} (h : Kept s₀ s) : Kept s₀ (startReset f s) :=
  h.ite (((h.clearFunction.ite h).onlyIf (fun _ h1 => h1.zeroCounts)).ite
    ((h.clearFunction.ite h).onlyIf (fun _ h1 => h1.zeroCounts)).clearFunction).setInReset

theorem laneReset {l} (h : Kept s₀ s) : Kept s₀ (laneReset l s) :=
  h.ite (h.awaitStep.ite h.clearLane)

theorem districtReset {d} (h : Kept s₀ s) : Kept s₀ (districtReset d s) :=
  h.ite (h.awaitStep.ite h.startReset)

theorem functionReset {value} (h : Kept s₀ s) : Kept s₀ (functionReset value s) :=
  (h.districtReset.ite h.startReset).ite h

/-! ### Machine/Image -/

theorem setAdminHalf {high key value} (h : Kept s₀ s) : Kept s₀ (setAdminHalf high key value s) :=
  h.frame

theorem presetRaises {r i old} (h : Kept s₀ s) : Kept s₀ (presetRaises r i old s) :=
  (h.serialBitCheck.onlyIf (fun _ h1 => h1.setCause)).onlyIf fun _ h1 => h1.forceRises

theorem applyPreset {off sel value} (h : Kept s₀ s) : Kept s₀ (applyPreset off sel value s) := by
  unfold Machine.applyPreset
  split
  · exact h
  · dsimp only
    split
    · exact h.setRg.frame
    · split
      · exact h.setRg.setIncr
      · split
        · exact h.setRg
        · exact h.setRg.setAdminHalf.ite (h.setRg.ite h.setRg.setRg.presetRaises)

theorem applyGcl {v} (h : Kept s₀ s) : Kept s₀ (applyGcl v s) :=
  h.setRg.setRg.setRg.setRg.setRg.setRg.setRg.forEach (fun _ _ h1 => h1.frame)

theorem applyRecord {i tag v} (h : Kept s₀ s) : Kept s₀ (applyRecord i tag v s) :=
  (h.forEach (fun _ _ h1 => h1.applyPreset)).ite (h.setRgF.ite
    ((h.forEach (fun _ _ h1 => h1.tblPut)).ite (h.applyGcl.ite
    ((h.forEach (fun _ _ h1 => h1.frame)).ite ((h.forEach (fun _ _ h1 => h1.setRecWord)).ite
    ((h.forEach (fun _ _ h1 => h1.setRg.setRg)).ite ((h.forEach (fun _ _ h1 => h1.setRg.setRg)).ite
    (h.wrBytes.ite (h.wrBytes.ite (h.wrBytes.ite ((h.setSession.ite h.frame).ite h)))))))))))

theorem applySection {x} (h : Kept s₀ s) : Kept s₀ (applySection x s) :=
  h.forEach (fun _ _ h1 => h1.applyRecord)

theorem applyDevice {xs} (h : Kept s₀ s) : Kept s₀ (applyDevice xs s) :=
  h.frame.setRgF.setRgF.setRgF.setRgF

/-! ### Machine/Twin -/

theorem setTwinState {x} (h : Kept s₀ s) : Kept s₀ (setTwinState x s) :=
  h.frame.setRgF

theorem twinStart (h : Kept s₀ s) : Kept s₀ (twinStart s) :=
  h.setRgF.setTwinState.ite (h.setRgF.setTwinState.ite h.setRgF.setTwinState.setCause)

theorem raiseEpoch {e} (h : Kept s₀ s) : Kept s₀ (raiseEpoch e s) :=
  h.setRgF.setCause.ite h.setRgF

theorem startPaths (h : Kept s₀ s) : Kept s₀ (startPaths s) :=
  h.frame.setRgF

theorem noteStall (h : Kept s₀ s) : Kept s₀ (noteStall s) :=
  h.ite h.frame

theorem takeover (h : Kept s₀ s) : Kept s₀ (takeover s) :=
  h.raiseEpoch.setRgF.frame.setTwinState.setCause.noteStall

theorem isolate (h : Kept s₀ s) : Kept s₀ (isolate s) :=
  h.frame.setTwinState

theorem demote (h : Kept s₀ s) : Kept s₀ (demote s) :=
  h.isolate.setCause

theorem demotionAction (h : Kept s₀ s) : Kept s₀ (demotionAction s) :=
  h.demote.ite h

theorem evaluatePaths {what} (h : Kept s₀ s) : Kept s₀ (evaluatePaths what s) :=
  (h.setCause.takeover.ite (h.isolate.ite h)).ite (h.isolate.setCause.ite
    (h.frame.setCause.noteStall.ite (h.takeover.ite (h.demote.ite h))))

theorem sendHello (h : Kept s₀ s) : Kept s₀ (sendHello s) :=
  h.twinSend

theorem twinHelloTimer (h : Kept s₀ s) : Kept s₀ (twinHelloTimer s) :=
  h.sendHello.ite h

theorem refusePair (h : Kept s₀ s) : Kept s₀ (refusePair s) :=
  h.setTwinState.setCause

theorem startRejoin (h : Kept s₀ s) : Kept s₀ (startRejoin s) :=
  (h.frame.setTwinState.frame.forEach (fun _ _ h1 => h1.startReset)).startReset

theorem agreePair {peerEpoch} (h : Kept s₀ s) : Kept s₀ (agreePair peerEpoch s) :=
  h.raiseEpoch.startPaths.frame.frame.ite h.raiseEpoch.startPaths.frame.setTwinState

theorem twinHelloReceive {rank epoch state identity} (h : Kept s₀ s) :
    Kept s₀ (twinHelloReceive rank epoch state identity s) :=
  h.ite (h.frame.setRgF.sendHello.ite (h.frame.setRgF.ite (h.frame.setRgF.refusePair.ite
    (h.frame.setRgF.ite (h.frame.setRgF.agreePair.ite (h.frame.setRgF.startPaths.startRejoin.ite h.frame.setRgF))))))

theorem soloWaitExpiry (h : Kept s₀ s) : Kept s₀ (soloWaitExpiry s) :=
  h.frame.raiseEpoch.setTwinState.ite h

theorem countPeriods (h : Kept s₀ s) : Kept s₀ (countPeriods s) :=
  h.frame.addRgF

theorem heartbeatTimer (h : Kept s₀ s) : Kept s₀ (heartbeatTimer s) :=
  h.ite h.countPeriods.twinSend.twinSendBackup

theorem heartbeatReceive {backup epoch state claim lastStep} (h : Kept s₀ s) :
    Kept s₀ (heartbeatReceive backup epoch state claim lastStep s) :=
  h.ite ((h.frame.setRgF.setRgF.ite h.frame.setRgF.setRgF).evaluatePaths.frame.ite
    (h.frame.setRgF.setRgF.ite h.frame.setRgF.setRgF).evaluatePaths)

theorem losePaths (h : Kept s₀ s) : Kept s₀ (losePaths s) :=
  (h.onlyIf (fun _ h1 => h1.setRgF)).onlyIf fun _ h1 => h1.setRgF

theorem heartbeatLoss {backup} (h : Kept s₀ s) : Kept s₀ (heartbeatLoss backup s) :=
  h.losePaths.frame.evaluatePaths.ite h

theorem takeBoundary {n tb} (h : Kept s₀ s) : Kept s₀ (takeBoundary n tb s) :=
  h.frame.noteStall

theorem setStep {n} (h : Kept s₀ s) : Kept s₀ (setStep n s) :=
  h.frame.setRg

theorem boundaryMarkerEmit (h : Kept s₀ s) : Kept s₀ (boundaryMarkerEmit s) :=
  h.ite ((h.frame.setTwinState.ite h).takeBoundary.twinSend.ite h)

theorem takeInput {x} (h : Kept s₀ s) : Kept s₀ (takeInput x s) :=
  h.ite h.frame.bump.noteStall

theorem takeClose {n count} (h : Kept s₀ s) : Kept s₀ (takeClose n count s) :=
  (h.frame.onlyIf (fun _ h1 => h1.isolate.setCause)).bump.twinSend.ite h.frame.noteStall

theorem compareDigest {n} (h : Kept s₀ s) : Kept s₀ (compareDigest n s) := by
  unfold Machine.compareDigest
  split
  · exact h.frame.bump.ite (h.frame.bump.ite h.frame.bump.setRg).bump.setCause
  · exact h

theorem resendRequest {first count} (h : Kept s₀ s) : Kept s₀ (resendRequest first count s) :=
  h.ite ((h.forEach (fun _ _ h1 => h1.twinSend)).isolate.setCause.ite (h.forEach (fun _ _ h1 => h1.twinSend)))

theorem takeRoadSync {n b} (h : Kept s₀ s) : Kept s₀ (takeRoadSync n b s) :=
  h.setRoad.setRg.setRg

theorem takeSlotSync {n b} (h : Kept s₀ s) : Kept s₀ (takeSlotSync n b s) :=
  h.setSlotRun.setRg.setRg.setRg

theorem takeSync {step body} (h : Kept s₀ s) : Kept s₀ (takeSync step body s) :=
  h.frame.ite (h.frame.frame.ite ((h.frame.onlyIf (fun _ h1 => h1.takeSlotSync)).ite
    (h.frame.takeRoadSync.ite (h.frame.wrBytes.ite h.frame))))

theorem twinInputReceive {kind rank step seq body} (h : Kept s₀ s) :
    Kept s₀ (twinInputReceive kind rank step seq body s) := by
  unfold Machine.twinInputReceive
  split
  · exact h
  · split
    · exact ((h.frame.setTwinState.setStep.ite h).takeBoundary.ite (h.frame.setTwinState.setStep.ite h)).ite h
    · exact h.takeInput
    · exact h.takeClose
    · exact h.resendRequest
    · exact h.frame.compareDigest
    · exact h.takeSync
    · exact h
    · exact h
    · exact h.bump

theorem closeSend (h : Kept s₀ s) : Kept s₀ (closeSend s) := by
  unfold Machine.closeSend
  split
  · exact h
  · split
    · exact h
    · exact h.frame.twinSend.noteStall

theorem claimEcho {payload} (h : Kept s₀ s) : Kept s₀ (claimEcho payload s) :=
  h.ite (h.setRgF.ite ((h.setRgF.ite (h.setRgF.ite h.setRgF.frame.demote)).ite h))

theorem outputStageEchoTimer (h : Kept s₀ s) : Kept s₀ (outputStageEchoTimer s) :=
  (h.forEach (fun _ _ h1 => h1.sendEchoes)).ite h

theorem twnCtrlRejoin {path value} (h : Kept s₀ s) : Kept s₀ (twnCtrlRejoin path value s) :=
  h.atGlobal (fun _ h1 => h1.startRejoin.ite h1)

theorem rejoinAuto (h : Kept s₀ s) : Kept s₀ (rejoinAuto s) :=
  h.startRejoin.ite h

theorem rejoinCopyDone (h : Kept s₀ s) : Kept s₀ (rejoinCopyDone s) := by
  unfold Machine.rejoinCopyDone
  split
  · exact h
  · split
    · split
      · exact h.frame.twinSend.ite h
      · exact h.frame.noteStall
    · exact h.frame.noteStall.ite (h.frame.frame.setRg.setTwinState.setCause.ite h)

/-! ### Machine/Faults -/

theorem fltGForceWrite {path value} (h : Kept s₀ s) : Kept s₀ (fltGForceWrite path value s) :=
  h.atInst (fun _ _ h1 => h1.noteHeld.setRg.forceRises)

theorem stickyClear {g value} (h : Kept s₀ s) : Kept s₀ (stickyClear g value s) :=
  h.setRg

theorem assertSafe {ans} (h : Kept s₀ s) : Kept s₀ (assertSafe ans s) :=
  h.frame.setRgF.ite (h.frame.setRgF.forEach (fun _ _ h1 => h1.refuseAction.ite h1.triggerFrame))

theorem loadSafe (h : Kept s₀ s) : Kept s₀ (loadSafe s) :=
  h.frame.setRgF

theorem fltSafeRelease {path value} (h : Kept s₀ s) : Kept s₀ (fltSafeRelease path value s) :=
  h.atGlobal (fun _ h1 => h1.ite (h1.bump.ite h1.frame.setRgF))

theorem isolatePort {p} (h : Kept s₀ s) : Kept s₀ (isolatePort p s) :=
  h.setRg

theorem fltIsoClear {path index value} (h : Kept s₀ s) : Kept s₀ (fltIsoClear path index value s) :=
  h.atGlobal fun _ h1 => h1.setRg

theorem eventFrame {n o suppressed} (h : Kept s₀ s) : Kept s₀ (eventFrame n o suppressed s) :=
  (h.ite_fst h.wpUnsolicited).frame.bump.ite (h.ite_fst h.wpUnsolicited).frame.bump

theorem eventBudgetTick (h : Kept s₀ s) : Kept s₀ (eventBudgetTick s) :=
  h.forEach (fun _ _ h1 => h1.frame)

theorem externalActions {o ans} (h : Kept s₀ s) : Kept s₀ (externalActions o ans s) := by
  unfold Machine.externalActions
  extract_lets a s1 s2 s3 f s4
  have h3 : Kept s₀ s3 := ((h.onlyIf fun _ h => h.assertSafe).onlyIf fun _ h => h.isolatePort).onlyIf
    fun _ h => h.forEach fun _ _ h => h.districtHalt
  have h4 : Kept s₀ s4 := h3.onlyIf fun _ h => by
    split
    · exact h.districtReset
    · exact h.startReset
  exact h4.onlyIf fun _ h => h.demotionAction

theorem reportingActions {o suppressed} (h : Kept s₀ s) : Kept s₀ (reportingActions o suppressed s) :=
  ((h.onlyIf (fun _ h1 => h1.journalIntake)).onlyIf (fun _ h1 => h1.frame)).onlyIf
    (fun _ h1 => h1.forEach (fun _ _ h2 => h2.eventFrame))

theorem refillQueue (h : Kept s₀ s) : Kept s₀ (refillQueue s) := by
  unfold Machine.refillQueue
  exact h.forEach (fun _ _ h1 => by split; exacts [h1.frame.setRgF.ite h1, h1])

theorem beginReaction {o ans} (h : Kept s₀ s) : Kept s₀ (beginReaction o ans s) :=
  (h.bump.bump.ite h.bump.externalActions).frame

theorem reactionServe {ans} (h : Kept s₀ s) : Kept s₀ (reactionServe ans s) := by
  unfold Machine.reactionServe
  split
  · exact h
  · exact (h.ite h.beginReaction).ite (h.ite h.beginReaction).frame.reportingActions.refillQueue

/-! ### Machine/RoadFrames -/

theorem setWorkerState {w x} (h : Kept s₀ s) : Kept s₀ (setWorkerState w x s) :=
  h.setRgF

theorem sendWorker {w type payload} (h : Kept s₀ s) : Kept s₀ (sendWorker w type payload s) :=
  h.forEach (fun _ _ h1 => h1.wpSendAssocPort)

theorem roadToSession {i payload} (h : Kept s₀ s) : Kept s₀ (roadToSession i payload s) :=
  h.wpUnsolicited.ite h.wpUnsolicited.bump

theorem entrySent {n} (h : Kept s₀ s) : Kept s₀ (entrySent n s) :=
  h.setRoad

theorem roadStateSend (h : Kept s₀ s) : Kept s₀ (roadStateSend s) :=
  h.ite (((h.forEach (fun _ _ h1 => h1.entrySent)).forEach (fun _ _ h1 => h1.forEach
    (fun _ _ h2 => h2.roadToSession))).forEach (fun _ _ h1 => h1.forEach (fun _ _ h2 => h2.sendWorker)))

theorem roadStatePeriodic (h : Kept s₀ s) : Kept s₀ (roadStatePeriodic s) :=
  h.ite (h.forEach (fun _ _ h1 => h1.queueEntry))

/-! ### Machine/Journal -/

theorem setPathSend {p c v} (h : Kept s₀ s) : Kept s₀ (setPathSend p c v s) :=
  h.setRg

theorem loseRecord {p c seq} (h : Kept s₀ s) : Kept s₀ (loseRecord p c seq s) :=
  h.setDrainPath.setPathSend.bump.setCause.ite h.setDrainPath.setPathSend.bump.setCause

theorem writeRecord {r ans} (h : Kept s₀ s) : Kept s₀ (writeRecord r ans s) :=
  h.noteAnswer.setCause.ite ((h.noteAnswer.forEach (fun _ _ h1 => h1.loseRecord.ite h1.setPathSend)).setRg.ite
    h.noteAnswer).wrBytes.setRg.bump

theorem rewriteRun {a r ans} (h : Kept s₀ s) : Kept s₀ (rewriteRun a r ans s) :=
  h.noteAnswer.setCause.ite h.noteAnswer.bump.wrBytes

theorem writeAlarm {r ans} (h : Kept s₀ s) : Kept s₀ (writeAlarm r ans s) := by
  unfold Machine.writeAlarm
  split
  · exact h.foldSummary
  · dsimp only
    split
    · exact h.frame.rewriteRun.ite (h.writeRecord.ite h.writeRecord.frame)
    · exact h.writeRecord.ite h.writeRecord.frame

theorem journalRecordWrite {ans} (h : Kept s₀ s) : Kept s₀ (journalRecordWrite ans s) := by
  unfold Machine.journalRecordWrite
  split
  · exact h
  · split
    · exact h
    · exact h.frame.writeAlarm.ite h.frame.writeRecord

theorem alarmSummaryWrite {ans} (h : Kept s₀ s) : Kept s₀ (alarmSummaryWrite ans s) := by
  unfold Machine.alarmSummaryWrite
  split
  · exact h
  · split
    · exact h.frame.writeRecord.bump
    · exact h

theorem takeCredit {p c size t} (h : Kept s₀ s) (hr : takeCredit p c size s = some t) : Kept s₀ t := by
  unfold Machine.takeCredit at hr
  extract_lets d need at hr
  split at hr
  · split at hr
    · cases hr; exact h.setDrainPath
    · cases hr
  · split at hr
    · cases hr; exact h.setDrainPath
    · cases hr

theorem sendDrain {p c k} (h : Kept s₀ s) : Kept s₀ (sendDrain p c k s) := by
  refine KeepsDrain.keeps ?_ s₀ s h p c k
  delta Machine.sendDrain
  refine ⟨fun s₀ s h p c k => ?_⟩
  extract_lets seq d gap lead recs n payload old f s1 s2 s3
  have h2 : Kept s₀ s2 := h.setDrainPath.onlyIf fun _ h => h.bump
  have h3 : Kept s₀ s3 := h2.setPathSend.bump.bump
  exact h3.internalOffer

theorem formFrame {p} (h : Kept s₀ s) : Kept s₀ (formFrame p s) := by
  unfold Machine.formFrame
  split
  · exact h
  · extract_lets offer
    have hoffer : ∀ c t, offer c = some (some t) → Kept s₀ t := by
      intro c t ht
      unfold offer at ht
      extract_lets k size at ht
      split at ht
      · cases ht
      · split at ht
        · next hr => cases ht; exact (h.takeCredit hr).sendDrain
        · split at ht <;> cases ht
    have hget : ∀ c r, offer c = some r → Kept s₀ (r.getD s) := by
      rintro c (_ | t) hr
      · exact h
      · exact hoffer c t hr
    split
    · next hr => exact hget _ _ hr
    · split
      · next hr => exact hget _ _ hr
      · cases hr : offer 2 with
        | none => exact h
        | some r => exact hget _ _ hr

theorem journalCreditStep (h : Kept s₀ s) : Kept s₀ (journalCreditStep s) :=
  h.ite (h.forEach (fun _ _ h1 => h1.setDrainPath.formFrame))

theorem journalDrainFrameEnd {p} (h : Kept s₀ s) : Kept s₀ (journalDrainFrameEnd p s) :=
  h.ite h.setDrainPath.formFrame

theorem takeAck {a} (h : Kept s₀ s) : Kept s₀ (takeAck a s) :=
  h.setRg.ite h.bump.setCause

theorem jnlAlmAckWrite {path value} (h : Kept s₀ s) : Kept s₀ (jnlAlmAckWrite path value s) :=
  h.atGlobal fun _ h1 => h1.takeAck

theorem journalAckFrame (h : Kept s₀ s) : Kept s₀ (journalAckFrame s) := by
  unfold Machine.journalAckFrame
  split
  · exact h
  · split
    · exact h.endHanded
    · exact h.ite (h.endHanded.ite h.endHanded.takeAck)

theorem checkPath {p} (h : Kept s₀ s) : Kept s₀ (checkPath p s) :=
  h.ite h.setRgF.setCause

theorem jnlPortWrite {path value} (h : Kept s₀ s) : Kept s₀ (jnlPortWrite path value s) :=
  h.atInst (fun _ _ h1 => h1.setRg.checkPath)

/-! ### Machine/Loader -/

theorem setImg {f} (h : Kept s₀ s) : Kept s₀ (setImg f s) :=
  h.frame

theorem imgRefuse {r} (h : Kept s₀ s) : Kept s₀ (imgRefuse r s) :=
  h.setRg.bump.setCause

theorem closeTransfer (h : Kept s₀ s) : Kept s₀ (closeTransfer s) :=
  h.setImg

theorem imageTransferTimeout (h : Kept s₀ s) : Kept s₀ (imageTransferTimeout s) :=
  h.closeTransfer.ite h

theorem writeBootRecord {preferred trial} (h : Kept s₀ s) : Kept s₀ (writeBootRecord preferred trial s) := by
  unfold Machine.writeBootRecord
  split <;> exact h.setImg

theorem requestBootRecord {preferred trial} (h : Kept s₀ s) : Kept s₀ (requestBootRecord preferred trial s) :=
  h.setImg.ite h.writeBootRecord

theorem imgCtrlWrite {value} (h : Kept s₀ s) : Kept s₀ (imgCtrlWrite value s) := by
  unfold Machine.imgCtrlWrite
  dsimp only
  split
  · split
    · exact ((h.onlyIf (fun _ h1 => h1.closeTransfer.setImg)).onlyIf
        (fun _ h1 => h1.requestBootRecord)).requestBootRecord
    · exact (h.onlyIf (fun _ h1 => h1.closeTransfer.setImg)).onlyIf fun _ h1 => h1.requestBootRecord
  · exact (h.onlyIf (fun _ h1 => h1.closeTransfer.setImg)).onlyIf fun _ h1 => h1.requestBootRecord

theorem endSlotWrite {ok slot b} (h : Kept s₀ s) : Kept s₀ (endSlotWrite ok slot b s) :=
  h.setImg.ite h.setCause

theorem flashWriteDone {ok} (h : Kept s₀ s) : Kept s₀ (flashWriteDone ok s) := by
  unfold Machine.flashWriteDone
  split
  · exact h
  · dsimp only
    split
    · exact h.endSlotWrite.setImg
    · split
      · exact h.endSlotWrite.setImg.setRgF.setImg.writeBootRecord
      · exact h.endSlotWrite.setImg.setRgF

theorem writeSlot {target b} (h : Kept s₀ s) : Kept s₀ (writeSlot target b s) :=
  h.setImg.ite h.setImg.setRgF

theorem imgRevokeWrite {path value within1ms} (h : Kept s₀ s) : Kept s₀ (imgRevokeWrite path value within1ms s) :=
  h.setImg.ite ((h.setImg.setImg.setCause.ite h.setImg).ite h.setImg)

theorem wipe {a n} (h : Kept s₀ s) : Kept s₀ (wipe a n s) := h.sfilter_mem

theorem emptyFunction {f} (h : Kept s₀ s) : Kept s₀ (emptyFunction f s) :=
  h.wipe.wipe.ite (h.frame.ite (h.frame.ite (h.frame.ite (h.frame.ite
    (h.frame.ite (h.frame.ite ((h.forEach (fun _ _ h1 => h1.setSession)).ite h)))))))

theorem bareSettings (h : Kept s₀ s) : Kept s₀ (bareSettings s) := by
  unfold Machine.bareSettings
  dsimp only
  split
  · exact (h.forEach (fun _ _ h1 => h1.setRgF.setRg.setRg)).setSession.setRg
  · exact h.forEach (fun _ _ h1 => h1.setRgF.setRg.setRg)

theorem hierarchyPtp {f} (h : Kept s₀ s) : Kept s₀ (hierarchyPtp f s) :=
  h.ite (h.setRgF.setRgF.ite (h.setRgF.ite h))

theorem reloadFunction {f} (h : Kept s₀ s) : Kept s₀ (reloadFunction f s) :=
  ((h.emptyFunction.dropRegs.onlyIf (fun _ h1 => h1.applyDevice)).forEach
    (fun _ _ h1 => h1.applySection)).hierarchyPtp.onlyIf fun _ h1 => h1.bareSettings

theorem startFunction {f} (h : Kept s₀ s) : Kept s₀ (startFunction f s) :=
  h.serialRelink.restartVerify.ite (h.restartVerify.ite ((h.forEach (fun _ _ h1 => h1.setLane)).setDistrict.ite
    ((((h.forEach (fun _ _ h1 => h1.setTollC)).forEach (fun _ _ h1 => h1.setTollP)).forEach
    (fun _ _ h1 => h1.loadOper.commitGates)).ite ((h.forEach (fun _ _ h1 => h1.startRoad)).ite
    (h.frame.ite ((h.forEach (fun _ _ h1 => h1.checkShaft)).ite
    ((h.forEach (fun _ _ h1 => h1.startQueue)).ite (h.twinStart.ite
    ((h.onlyIf (fun _ h1 => h1.setRgF)).ite (h.setRgF.ite h))))))))))

theorem releaseFunction {f} (h : Kept s₀ s) : Kept s₀ (releaseFunction f s) :=
  h.setInReset.startFunction

theorem failReload {f} (h : Kept s₀ s) : Kept s₀ (failReload f s) :=
  h.setImg.setRgF.setCause

theorem noteResident {ans} (h : Kept s₀ s) : Kept s₀ (noteResident ans s) := by
  unfold Machine.noteResident
  split
  · exact h.noteAnswer
  · exact h

theorem functionResetComplete {f ans} (h : Kept s₀ s) : Kept s₀ (functionResetComplete f ans s) :=
  h.ite (h.reloadFunction.releaseFunction.ite (h.noteResident.reloadFunction.releaseFunction.ite
    h.noteResident.failReload))

theorem laneResetDone {l} (h : Kept s₀ s) : Kept s₀ (laneResetDone l s) :=
  h.ite (h.wipe.dropRegs.forEach (fun _ _ h1 => h1.applySection)).setLane

theorem setRunning {b source} (h : Kept s₀ s) : Kept s₀ (setRunning b source s) :=
  h.setRg.setRg.setRgF.setRgF.frame.bump.setRg.onlyIf fun _ h1 => h1.setCause

theorem reloadAll {fs ans} (h : Kept s₀ s) : Kept s₀ (reloadAll fs ans s) := by
  unfold Machine.reloadAll
  dsimp only
  split
  · exact (h.noteResident.forEach (fun _ _ h1 => h1.reloadFunction)).onlyIf fun _ h1 => h1.failReload
  · exact h.noteResident.forEach (fun _ _ h1 => h1.reloadFunction)

theorem releaseAll {fs} (h : Kept s₀ s) : Kept s₀ (releaseAll fs s) :=
  h.forEach (fun _ _ h1 => h1.releaseFunction)

theorem applyUnbound {xs} (h : Kept s₀ s) : Kept s₀ (applyUnbound xs s) :=
  h.forEach (fun _ _ h1 => h1.applySection)

theorem applyFull {b source ans} (h : Kept s₀ s) : Kept s₀ (applyFull b source ans s) := by
  refine setRunning (setRgF (setRgF (releaseAll (applyUnbound (reloadAll (setRgF (setRgF ?_)))))))
  exact (h.forEach fun _ _ h => h.startReset).loadSafe.frame.setRg.setImg.applyDevice

theorem applyPartial {b source ans} (h : Kept s₀ s) : Kept s₀ (applyPartial b source ans s) :=
  ((h.forEach (fun _ _ h1 => h1.startReset)).setImg.frame.ite
    (h.forEach (fun _ _ h1 => h1.startReset)).setImg).applyUnbound.reloadAll.releaseAll.setRunning

theorem imageApply {ans} (h : Kept s₀ s) : Kept s₀ (imageApply ans s) := by
  unfold Machine.imageApply
  split
  · exact h
  · exact h.setImg.applyPartial.ite h.setImg.applyFull

theorem answerCommit {c code} (h : Kept s₀ s) : Kept s₀ (answerCommit c code s) := by
  unfold Machine.answerCommit
  refine answerAsker ?_
  split
  · exact h.frame
  · exact h

theorem acceptImage {c} (h : Kept s₀ s) : Kept s₀ (acceptImage c s) :=
  (h.setImg.captureInput.ite h.answerCommit.setImg).ite h.answerCommit.writeSlot

theorem imageVerifyDone {ans} (h : Kept s₀ s) : Kept s₀ (imageVerifyDone ans s) := by
  unfold Machine.imageVerifyDone
  split
  · exact h
  · dsimp only
    split
    · exact h.setImg.noteResident.imgRefuse.answerCommit
    · exact h.setImg.noteResident.acceptImage

theorem stepImage {identity} (h : Kept s₀ s) : Kept s₀ (stepImage identity s) := by
  unfold Machine.stepImage
  split
  · exact h.setImg.answerCommit.setImg.ite h.setImg.imgRefuse.answerCommit.setCause.demotionAction
  · exact h.closeTransfer.setImg.ite h.imgRefuse.setCause.demotionAction

/-! ### Machine/System -/

theorem deviceReset {cause straps} (h : Kept s₀ s) : Kept s₀ (deviceReset cause straps s) := by
  unfold Machine.deviceReset
  extract_lets keep blank n1 sys n2 merging n3 n4
  have hkeep : Registers.wf s₀.regs = true → Registers.wf keep = true := by
    intro hw
    unfold keep
    split
    · rfl
    · exact sfilter_wf regReset _ s.regs (h.regs hw)
  have h1 : Kept s₀ n1 := ⟨h.pending, h.mem, hkeep⟩
  have h2 : Kept s₀ n2 := h1.ite h1.frame
  have h3 : Kept s₀ n3 := h2.ite h2.frame
  have h4 : Kept s₀ n4 := h3.setRg.setRgF
  exact h4.ite h4.setRg.setCause

theorem systemReset {lowNs straps} (h : Kept s₀ s) : Kept s₀ (systemReset lowNs straps s) :=
  h.ite h.deviceReset

theorem softwareReset {value straps} (h : Kept s₀ s) : Kept s₀ (softwareReset value straps s) :=
  h.deviceReset.ite h

theorem thermalTrip {logic fd0 fd1 straps} (h : Kept s₀ s) : Kept s₀ (thermalTrip logic fd0 fd1 straps s) :=
  h.deviceReset.frame.ite h

theorem restartWatchdog {stage} (h : Kept s₀ s) : Kept s₀ (restartWatchdog stage s) :=
  h.frame.setRgF

theorem watchdogKick {value within1ms} (h : Kept s₀ s) : Kept s₀ (watchdogKick value within1ms s) :=
  h.frame.ite (h.frame.restartWatchdog.ite h.frame.setCause)

theorem expireWatchdog (h : Kept s₀ s) : Kept s₀ (expireWatchdog s) :=
  h.frame

theorem restartSupervisor (h : Kept s₀ s) : Kept s₀ (restartSupervisor s) :=
  h.frame

theorem watchdogStage1 (h : Kept s₀ s) : Kept s₀ (watchdogStage1 s) :=
  h.ite h.bump.restartWatchdog.setCause.expireWatchdog.restartSupervisor

theorem watchdogReset {straps} (h : Kept s₀ s) : Kept s₀ (watchdogReset straps s) :=
  h.ite h.deviceReset.expireWatchdog

theorem monitorReading {logic fd0 fd1 mv} (h : Kept s₀ s) : Kept s₀ (monitorReading logic fd0 fd1 mv s) :=
  ((((h.setRg.forEach (fun _ _ h1 => h1.setRg)).setRg.forEach
    (fun _ _ h1 => h1.frame.onlyIf (fun _ h2 => h2.setCause))).onlyIf (fun _ h1 => h1.setCause)).onlyIf
    (fun _ h1 => h1.setCause)).ite ((((h.setRg.forEach (fun _ _ h1 => h1.setRg)).setRg.forEach
    (fun _ _ h1 => h1.frame.onlyIf (fun _ h2 => h2.setCause))).onlyIf (fun _ h1 => h1.setCause)).onlyIf
    (fun _ h1 => h1.setCause)).frame

theorem dieLinkDown {d lossOfLock} (h : Kept s₀ s) : Kept s₀ (dieLinkDown d lossOfLock s) :=
  h.ite (h.ite h.addRgF).setRgF.loseDie.setCause

theorem dieLinkRetrain {d up} (h : Kept s₀ s) : Kept s₀ (dieLinkRetrain d up s) :=
  h.ite (h.setRgF.ite (h.setRgF.bump.setCause.forEach (fun _ _ h1 => (h1.bump.setPortRun.ite h1).serialRelink)))

theorem dieLinkRetryBurst {d retries} (h : Kept s₀ s) : Kept s₀ (dieLinkRetryBurst d retries s) :=
  h.addRgF.onlyIf fun _ h1 => h1.setCause

theorem memoryScrubPass {c corrected uncorrectable} (h : Kept s₀ s) :
    Kept s₀ (memoryScrubPass c corrected uncorrectable s) :=
  h.ite (h.addRgF.addRgF.onlyIf (fun _ h1 => h1.setCause))

theorem jtagOtpProgram {field data} (h : Kept s₀ s) : Kept s₀ (jtagOtpProgram field data s) :=
  h.ite ((h.setImg.ite h).ite ((h.setImg.ite h).ite ((h.setImg.ite h).ite
    ((h.setImg.ite h).ite ((h.setImg.ite h).ite h)))))

theorem bootChannel {c x} (h : Kept s₀ s) : Kept s₀ (bootChannel c x s) :=
  h.setRg.ite (h.setRg.setRgF.ite h.setRg.setRgF.setCause)

theorem holdFunctions {p} (h : Kept s₀ s) : Kept s₀ (holdFunctions p s) :=
  h.forEach (fun _ _ h1 => h1.setInReset)

theorem enterHold (h : Kept s₀ s) : Kept s₀ (enterHold s) :=
  h.frame.holdFunctions.forEach (fun _ _ h1 => h1.onlyIf (fun _ h2 => h2.setRgF))

theorem enterBare (h : Kept s₀ s) : Kept s₀ (enterBare s) :=
  h.frame.holdFunctions.bareSettings

theorem slotPlan (h : Kept s₀ s) : Kept s₀ (slotPlan s).2 := by
  unfold Machine.slotPlan
  split
  · exact h
  · exact h.ite_snd (h.ite_snd (h.writeBootRecord.ite_snd (h.ite_snd h)))

theorem bootFromFlash {ansA ansB} (h : Kept s₀ s) : Kept s₀ (bootFromFlash ansA ansB s) := by
  unfold Machine.bootFromFlash
  dsimp only
  split
  · exact ((h.slotPlan.onlyIf (fun _ h1 => h1.setCause)).onlyIf (fun _ h1 => h1.writeBootRecord)).applyFull
  · split
    · exact ((h.slotPlan.onlyIf (fun _ h1 => h1.setCause)).imgRefuse.onlyIf
        (fun _ h1 => h1.writeBootRecord)).setCause.applyFull
    · exact (h.slotPlan.onlyIf (fun _ h1 => h1.setCause)).imgRefuse.imgRefuse.enterBare

theorem boot {otpOk fitA fitB ansA ansB} (h : Kept s₀ s) : Kept s₀ (boot otpOk fitA fitB ansA ansB s) := by
  unfold Machine.boot
  split
  · exact h
  · extract_lets d old wpt s1 s2 s3 s4 s5 s6 strap
    have h1 : Kept s₀ s1 := frame h.drawWord
    have h2 : Kept s₀ s2 := h1.setImg.onlyIf fun _ h => h.setCause
    have h3 : Kept s₀ s3 := h2.sfilter_mem
    have h6 : Kept s₀ s6 := h3.bootChannel.bootChannel.setRgF.setRgF.restartWatchdog
    exact h6.enterBare.ite (h6.enterHold.ite (h6.enterBare.ite h6.bootFromFlash))

/-! ### Machine/RegAccess -/

theorem readEffect {path r} (h : Kept s₀ s) : Kept s₀ (readEffect path r s) :=
  h.mptNsRead.ite (h.mptTs2TimeRead.ite (h.roaPosLapRead.ite (h.shfPosLapRead.ite (h.frame.setRgF.ite h))))

theorem regRead {path off} (h : Kept s₀ s) : Kept s₀ (regRead path off s).1 := by
  unfold Machine.regRead
  split
  · exact h.readEffect
  · exact h

theorem storeReg {r i v} (h : Kept s₀ s) : Kept s₀ (storeReg r i v s) :=
  h.noteHeld.setRg

theorem atReg {path r f} (h : Kept s₀ s) (hf : ∀ i t, Kept s₀ t → Kept s₀ (f i t)) : Kept s₀ (atReg path r f s) := by
  unfold Machine.atReg
  split
  · exact (hf _ _ h).ite h
  · exact h

theorem fpaWrite {r p v} (h : Kept s₀ s) : Kept s₀ (fpaWrite r p v s) :=
  ((h.storeReg.serialRelink.serialBitCheck.onlyIf (fun _ h1 => h1.setRgF)).onlyIf
    (fun _ h1 => h1.setLink.clearLinkStatus)).onlyIf fun _ h1 => h1.startReset

theorem dstCtrlWrite {d v} (h : Kept s₀ s) : Kept s₀ (dstCtrlWrite d v s) :=
  ((h.storeReg.onlyIf (fun _ h1 => h1.districtReset)).onlyIf (fun _ h1 => h1.districtHalt)).onlyIf
    fun _ h1 => h1.districtResume

theorem shaperWrite {b r i v} (h : Kept s₀ s) : Kept s₀ (shaperWrite b r i v s) :=
  h.storeReg.shaperSetCredit.ite (h.storeReg.shaperSetCredit.ite h.storeReg)

theorem subCfgWrite {n v} (h : Kept s₀ s) : Kept s₀ (subCfgWrite n v s) :=
  h.shaperWrite

theorem gateCfgWrite {p f} (h : Kept s₀ s) (hf : ∀ t, Kept s₀ t → Kept s₀ (f t)) : Kept s₀ (gateCfgWrite p f s) :=
  h.bump.ite (hf _ h)

theorem tollWrite {r i v} (h : Kept s₀ s) : Kept s₀ (tollWrite r i v s) :=
  h.storeReg.setTollC.setTollP

theorem tpkWrite {path r v} (h : Kept s₀ s) : Kept s₀ (tpkWrite path r v s) :=
  h.mapCmdWrite.ite (h.gclCommitWrite.ite ((h.atReg (fun _ _ h1 => h1.gateCfgWrite (fun _ h2 => h2.storeReg))).ite
    ((h.atReg (fun _ _ h1 => h1.gateCfgWrite (fun _ h2 => h2.setAdminHalf))).ite
    ((h.atReg (fun _ _ h1 => h1.shaperWrite)).ite ((h.atReg (fun _ _ h1 => h1.shaperWrite)).ite
    ((h.atReg (fun _ _ h1 => h1.subCfgWrite)).ite ((h.atReg (fun _ _ h1 => h1.shaperWrite)).ite
    ((h.atReg (fun _ _ h1 => h1.tollWrite)).ite (h.atReg (fun _ _ h1 => h1.storeReg))))))))))

theorem chkWrite {r c v} (h : Kept s₀ s) : Kept s₀ (chkWrite r c v s) :=
  (h.storeReg.onlyIf (fun _ h1 => h1.setRgF)).onlyIf fun _ h1 => h1.setCause

theorem qmgWrite {path r v} (h : Kept s₀ s) : Kept s₀ (qmgWrite path r v s) :=
  (h.atReg (fun _ _ h1 => h1.doorbellOp)).ite (h.invalWrite.ite
    (h.queueEnable.ite ((h.atReg (fun _ _ h1 => h1.ite h1.storeReg)).ite (h.atReg (fun _ _ h1 => h1.storeReg)))))

theorem dmaWrite {r c v} (h : Kept s₀ s) : Kept s₀ (dmaWrite r c v s) :=
  (((h.onlyIf (fun _ h1 => h1.dmaDisarm)).onlyIf (fun _ h1 => h1.dmaArmOp)).onlyIf (fun _ h1 => h1.dmaStart)).ite
    (h.ite h.storeReg)

theorem dmaOrSelectWrite {r c v} (h : Kept s₀ s) :
    Kept s₀ ((if r = DMA_SEL then Machine.storeReg r c v else Machine.dmaWrite r c v) s) := by
  split
  · exact h.storeReg
  · exact h.dmaWrite

theorem twnWrite {path r v} (h : Kept s₀ s) : Kept s₀ (twnWrite path r v s) :=
  h.twnCtrlRejoin.ite (h.ite (h.atReg (fun _ _ h1 => h1.storeReg)))

theorem closeSession {i} (h : Kept s₀ s) : Kept s₀ (closeSession i s) :=
  h.setSession.setRg.setRg

theorem sessionCfgWrite {path i v} (h : Kept s₀ s) : Kept s₀ (sessionCfgWrite path i v s) :=
  h.storeReg.onlyIf fun _ h1 => h1.closeSession

theorem afterBatch {path} (h : Kept s₀ s) : Kept s₀ (afterBatch path s) :=
  h.ite ((h.onlyIf (fun _ h1 => h1.closeSession)).frame.startReset.ite (h.onlyIf (fun _ h1 => h1.closeSession)))

theorem sysWrite {path r v} (h : Kept s₀ s) : Kept s₀ (sysWrite path r v s) :=
  (h.frame.softwareReset.ite (h.frame.ite h.functionReset)).ite
    (h.watchdogKick.ite (h.atReg (fun _ _ h1 => h1.storeReg)))

theorem unitWrite {path r v} (h : Kept s₀ s) : Kept s₀ (unitWrite path r v s) :=
  h.roaSrcWrite.ite (h.roaPeriodWrite.ite (h.roaCtrlWrite.ite
    (h.mstCommit.ite (h.mstCtrlEnableWrite.ite (h.mstPlcCurWrite.ite
    (h.mstSwPulse.ite (h.mfeTrkCfgWrite.ite (h.shfCfgWrite.ite
    (h.shfCprWrite.ite (h.shfSsiWrite.ite ((h.atReg (fun _ _ h1 => h1.onlyIf (fun _ h2 => h2.laneReset))).ite
    ((h.atReg (fun _ _ h1 => h1.dstCtrlWrite)).ite (h.lncDstFrxWrite.ite
    ((h.atReg (fun _ _ h1 => h1.fpaWrite)).ite (h.vergeCtrlWrite.ite
    (h.macPauseCfgWrite.ite (h.macPauseTxWrite.ite (h.macPreCfgWrite.ite
    (h.tblCmdWrite.ite ((h.atReg (fun _ _ h1 => h1.freCfgWrite)).ite
    ((h.atReg (fun _ _ h1 => h1.freRecWrite)).ite ((h.atReg (fun _ _ h1 => h1.freLatWrite)).ite
    ((h.atReg (fun _ _ h1 => h1.freSeqWrite)).ite (h.atReg (fun _ _ h1 => h1.storeReg)))))))))))))))))))))))))

theorem writeReg {path r v} (h : Kept s₀ s) : Kept s₀ (writeReg path r v s) := by
  have plain : Kept s₀ (Machine.atReg path r (fun i => Machine.storeReg r i v) s) := h.atReg fun _ _ h => h.storeReg
  unfold Machine.writeReg
  split
  · exact h.sysWrite
  · exact h.mptIncrFracWrite.ite (h.mptIncrIntWrite.ite (h.mptSetWrite.ite
      (h.mptStepGo.ite (h.mptFwSetWrite.ite plain))))
  · exact h.tpkWrite
  · exact h.atReg fun _ _ h => h.chkWrite
  · exact h.qmgWrite
  · exact h.atReg fun _ _ h => h.dmaOrSelectWrite
  · refine h.jnlPortWrite.ite (ite ?_ (h.jnlAlmAckWrite.ite plain))
    exact h.atReg fun _ _ h => h.storeReg.onlyIf fun _ h => h.checkPath
  · refine ite ?_ (h.fltGForceWrite.ite (h.fltSafeRelease.ite (h.fltIsoClear.ite plain)))
    exact h.atReg fun _ _ h => h.stickyClear
  · exact h.twnWrite
  · exact ite (h.atReg fun _ _ h => h.sessionCfgWrite) plain
  · exact h.imgCtrlWrite.ite (h.imgRevokeWrite.ite plain)
  · exact h.unitWrite

theorem regWrite {path off v} (h : Kept s₀ s) : Kept s₀ (regWrite path off v s) := by
  unfold Machine.regWrite
  split
  · exact h.writeReg
  · exact h

theorem hardwareRaise {r i b} (h : Kept s₀ s) : Kept s₀ (hardwareRaise r i b s) :=
  h.raiseSrc.ite (h.setHalf.ite (h.setCause.ite h.setRg))

theorem hardwareActs {r i set clr} (h : Kept s₀ s) : Kept s₀ (hardwareActs r i set clr s) :=
  ((h.onlyIf (fun _ h1 => h1.setRg)).onlyIf (fun _ h1 => h1.setHalf)).forEach (fun _ _ h1 => h1.hardwareRaise)

theorem registerWrite {path addr size value hwSet hwClr} (h : Kept s₀ s) :
    Kept s₀ (registerWrite path addr size value hwSet hwClr s) := by
  refine KeepsWrite.keeps ?_ s₀ s h path addr size value hwSet hwClr
  delta Machine.registerWrite
  refine ⟨fun s₀ s h path addr size value hwSet hwClr => ?_⟩
  generalize regNumber _ = o
  cases o with
  | none => exact h
  | some r =>
    refine ite (ite h ?_) (afterBatch (writeReg (ite h ?_)))
    · exact h.atReg fun _ _ h => h.hardwareActs
    · exact h.atReg fun _ _ h => h.hardwareActs

theorem endHostWork {q x value e} (h : Kept s₀ s) : Kept s₀ (endHostWork q x value e s) :=
  h.setQueueRun.finishEntry.settleQueue.ite h

theorem hostWorkEntry {q x} (h : Kept s₀ s) : Kept s₀ (hostWorkEntry q x s) :=
  h.withEntry (fun _ _ h1 => h1.failEntry.ite (h1.finishEntry.ite
    (h1.setQueueRun.regWrite.endHostWork.afterBatch.ite h1.setQueueRun.regRead.endHostWork)))

/-! ### Machine/WaypostExec -/

theorem readBatch {path x1 x2} (h : Kept s₀ x2) : Kept s₀ (readBatch path x1 x2).1 := by
  induction x1 generalizing x2 with
  | nil => exact h
  | cons off t ih =>
    unfold Machine.readBatch
    dsimp only
    split
    · exact h
    · exact ih h.regRead

theorem writeBatch {path x1 x2} (h : Kept s₀ x2) : Kept s₀ (writeBatch path x1 x2).1 := by
  induction x1 generalizing x2 with
  | nil => exact h
  | cons off t ih =>
    unfold Machine.writeBatch
    dsimp only
    split
    · exact h
    · split
      · exact h
      · exact ih h.regWrite

theorem regRdReq {i p} (h : Kept s₀ s) : Kept s₀ (regRdReq i p s).1 :=
  h.ite_fst h.readBatch

theorem regWrReq {i p} (h : Kept s₀ s) : Kept s₀ (regWrReq i p s).1 :=
  h.ite_fst h.writeBatch

theorem memRdReq {p ans} (h : Kept s₀ s) : Kept s₀ (memRdReq p ans s).1 := by
  unfold Machine.memRdReq
  split
  · exact h
  · exact h.ite_fst (h.noteAnswer.ite_fst h.noteAnswer)

theorem memWrite {a d ans units} (h : Kept s₀ s) : Kept s₀ (memWrite a d ans units s).1 :=
  h.noteAnswer.wrBytes.ite_fst h.noteAnswer.wrBytes

theorem forwardHost {i req} (h : Kept s₀ s) : Kept s₀ (forwardHost i req s) :=
  h.setSession.captureInput

theorem memWrReq {i req ans units} (h : Kept s₀ s) : Kept s₀ (memWrReq i req ans units s).1 := by
  unfold Machine.memWrReq
  split
  · exact h
  · exact h.ite_fst (h.forwardHost.ite_fst h.memWrite)

theorem doorbellReq {p ans} (h : Kept s₀ s) : Kept s₀ (doorbellReq p ans s).1 :=
  h.ite_fst (h.forEach (fun _ _ h1 => h1.doorbellOp))

theorem imgChunkReq {i p} (h : Kept s₀ s) : Kept s₀ (imgChunkReq i p s).1 := by
  unfold Machine.imgChunkReq
  extract_lets off len target
  split
  · exact h
  · split
    · exact h
    · split
      · exact h
      · split
        · exact h.closeTransfer
        · dsimp only
          exact h.setImg

theorem commitRefused {status code who} (h : Kept s₀ s) : Kept s₀ (commitRefused status code who s).1 := by
  unfold Machine.commitRefused
  refine imgRefuse ?_
  split
  · exact h.frame
  · exact h

theorem imgCommitReq {i p who} (h : Kept s₀ s) : Kept s₀ (imgCommitReq i p who s).1 :=
  h.ite_fst (h.commitRefused.ite_fst (h.ite_fst (h.closeTransfer.commitRefused.ite_fst h.setImg.closeTransfer)))

theorem readItem {out n} (h : Kept s₀ s) : Kept s₀ (readItem out n s).1 := by
  unfold Machine.readItem
  dsimp only
  split
  · exact h.frame
  · exact h.frame.ite_fst (h.frame.ite_fst h)

theorem writeItem {n x} (h : Kept s₀ s) : Kept s₀ (writeItem n x s).1 := by
  unfold Machine.writeItem
  dsimp only
  split
  · exact h
  · exact h.ite_fst (h.ite_fst (h.onlyIf (fun _ h1 => h1.wrBytes)).setPointRun)

theorem readItems {out x1 x2} (h : Kept s₀ x2) : Kept s₀ (readItems out x1 x2).1 := by
  induction x1 generalizing x2 with
  | nil => exact h
  | cons n t ih => exact ih h.readItem

theorem writeItems {x0 x1} (h : Kept s₀ x1) : Kept s₀ (writeItems x0 x1).1 := by
  induction x0 generalizing x1 with
  | nil => exact h
  | cons n t ih => exact ih h.writeItem

theorem lm64Run {p} (h : Kept s₀ s) : Kept s₀ (lm64Run p s).1 :=
  (h.writeItems.forEach (fun _ _ h1 => h1.triggerFrame)).ite_fst h.readItems

theorem lm64Answer {status payload} (h : Kept s₀ s) : Kept s₀ (lm64Answer status payload s).1 :=
  h.bump

theorem lm64Serve {p} (h : Kept s₀ s) : Kept s₀ (lm64Serve p s).1 :=
  h.ite_fst h.lm64Run

theorem lm64Req {i req} (h : Kept s₀ s) : Kept s₀ (lm64Req i req s).1 :=
  h.ite_fst (h.lm64Answer.ite_fst (h.forwardHost.ite_fst h.lm64Serve.lm64Answer))

theorem perform {i req ans units} (h : Kept s₀ s) : Kept s₀ (perform i req ans units s).1 := by
  unfold Machine.perform
  split
  · exact h.regRdReq
  · exact h.regWrReq
  · exact h.memRdReq
  · exact h.memWrReq
  · exact h.doorbellReq
  · exact h.imgChunkReq
  · exact h.imgCommitReq
  · exact h.lm64Req
  · exact h

theorem noRight {i} (h : Kept s₀ s) : Kept s₀ (noRight i s).1 :=
  h.bump.setCause

theorem carryOut {i req ans units} (h : Kept s₀ s) : Kept s₀ (carryOut i req ans units s) := by
  unfold Machine.carryOut
  refine onlyIf ?_ fun _ h1 => h1.afterBatch
  split
  · exact (h.perform.ite_fst h.noRight).answerAsker
  · exact h.perform.ite_fst h.noRight

theorem queueRequest {i req} (h : Kept s₀ s) : Kept s₀ (queueRequest i req s) :=
  h.setSession

theorem countLate (h : Kept s₀ s) : Kept s₀ (countLate s) :=
  h.bump.setCause

theorem answerForwarded {i key status payload} (h : Kept s₀ s) :
    Kept s₀ (answerForwarded i key status payload s) := by
  unfold Machine.answerForwarded
  split
  · exact (h.setSession.onlyIf fun _ h => h.bump).answerAsker
  · exact h.frame.countLate.ite h

theorem stepHost {own key body} (h : Kept s₀ s) : Kept s₀ (stepHost own key body s) :=
  h.stepImage.ite ((h.frame.memWrite.onlyIf (fun _ h1 => h1.answerForwarded)).ite
    (h.lm64Serve.onlyIf (fun _ h1 => h1.answerForwarded)))

theorem withRequest {i kind f} (h : Kept s₀ s) (hf : ∀ x0 t, Kept s₀ t → Kept s₀ (f x0 t)) :
    Kept s₀ (withRequest i kind f s) := by
  unfold Machine.withRequest
  split
  · exact h
  · exact h.ite (hf _ _ h.frame.setSession)

theorem hostRequest {i kind ans units} (h : Kept s₀ s) : Kept s₀ (hostRequest i kind ans units s) :=
  h.withRequest (fun _ _ h1 => h1.carryOut)

theorem answerLate {req} (h : Kept s₀ s) : Kept s₀ (answerLate req s) :=
  h.lm64Answer.answerAsker

theorem lm64Late {i} (h : Kept s₀ s) : Kept s₀ (lm64Late i s) := by
  unfold Machine.lm64Late
  split
  · exact h.frame.setSession.answerLate
  · exact h.withRequest (fun _ _ h1 => h1.frame.answerLate)

theorem lm64LateAnswer (h : Kept s₀ s) : Kept s₀ (lm64LateAnswer s) := by
  unfold Machine.lm64LateAnswer
  split
  · exact h
  · exact h.frame.lm64Run.countLate

/-! ### Machine/Hierarchy -/

theorem hieStatusTimer (h : Kept s₀ s) : Kept s₀ (hieStatusTimer s) :=
  h.ite ((h.forEach (fun _ _ h1 => h1.forEach (fun _ _ h2 => h2.wpSendAssocPort))).ite
    ((h.forEach (fun _ _ h1 => h1.sendWorker)).ite h)).frame

theorem discardRelay {cause} (h : Kept s₀ s) : Kept s₀ (discardRelay cause s) :=
  h.bump.setCause

theorem takeManagerStatus {src} (h : Kept s₀ s) : Kept s₀ (takeManagerStatus src s) :=
  (h.setRg.setRg.onlyIf (fun _ h1 => h1.setCause)).frame.bump

theorem enterLoading {w} (h : Kept s₀ s) : Kept s₀ (enterLoading w s) :=
  h.setWorkerState.setWorker

theorem leaveLoading {w} (h : Kept s₀ s) : Kept s₀ (leaveLoading w s) :=
  h.setWorker

theorem workerStatus {w matching refusedImage} (h : Kept s₀ s) : Kept s₀ (workerStatus w matching refusedImage s) :=
  (h.onlyIf (fun _ h1 => h1.setCause)).ite (((h.onlyIf (fun _ h1 => h1.setCause)).ite
    (h.onlyIf (fun _ h1 => h1.setCause)).leaveLoading.setWorkerState).ite
    ((h.onlyIf (fun _ h1 => h1.setCause)).enterLoading.ite (((h.onlyIf (fun _ h1 => h1.setCause)).setWorker.ite
    (h.onlyIf (fun _ h1 => h1.setCause))).setCause.ite (h.onlyIf (fun _ h1 => h1.setCause)))))

theorem takeSummary {w payload} (h : Kept s₀ s) : Kept s₀ (takeSummary w payload s) :=
  h.setRg.setRg.onlyIf fun _ h1 => h1.setCause

theorem takeWorkerStatus {trunk w src payload} (h : Kept s₀ s) :
    Kept s₀ (takeWorkerStatus trunk w src payload s) := by
  unfold Machine.takeWorkerStatus
  split
  · exact h
  · exact h.leaveLoading.setWorkerState.setCause.ite h.bump.bump.setWorker.setRgF.takeSummary.workerStatus

theorem hieStatusReceive {trunk src payload} (h : Kept s₀ s) : Kept s₀ (hieStatusReceive trunk src payload s) :=
  h.ite ((h.discardRelay.ite (h.discardRelay.ite (h.onlyIf (fun _ h1 => h1.takeManagerStatus)))).ite
    ((h.discardRelay.ite (h.onlyIf (fun _ h1 => h1.takeWorkerStatus))).ite h))

theorem hieStatusLoss {w} (h : Kept s₀ s) : Kept s₀ (hieStatusLoss w s) :=
  h.ite ((h.ite (h.frame.setCause.forEach (fun _ _ h1 => h1.setRoad))).ite
    (h.leaveLoading.setWorkerState.setCause.failRelays.ite h))

theorem forwardRelay {w i host body} (h : Kept s₀ s) : Kept s₀ (forwardRelay w i host body s) :=
  h.frame.setRgF.sendWorker

theorem hostRelay {i req} (h : Kept s₀ s) : Kept s₀ (hostRelay i req s) :=
  h.noRight.answerAsker.ite (h.answerAsker.ite (h.answerAsker.ite
    (h.answerRelay.ite (h.answerRelay.ite h.bump.bump.forwardRelay))))

theorem workerRelay {trunk src p} (h : Kept s₀ s) : Kept s₀ (workerRelay trunk src p s) := by
  unfold Machine.workerRelay
  dsimp only
  split
  · exact h.answerAsker
  · exact h.queueRequest

theorem sendDelivery {w off} (h : Kept s₀ s) : Kept s₀ (sendDelivery w off s) :=
  h.setWorker.forwardRelay

theorem imageOffer {w} (h : Kept s₀ s) : Kept s₀ (imageOffer w s) :=
  h.ite h.setWorker.sendDelivery

theorem deliveryFailed {w} (h : Kept s₀ s) : Kept s₀ (deliveryFailed w s) :=
  h.setWorker

theorem deliveryAnswered {w code body} (h : Kept s₀ s) : Kept s₀ (deliveryAnswered w code body s) := by
  unfold Machine.deliveryAnswered
  split
  · exact h
  · exact h.deliveryFailed.ite (h.setWorker.ite h.sendDelivery)

theorem relayResponse {p} (h : Kept s₀ s) : Kept s₀ (relayResponse p s) := by
  unfold Machine.relayResponse
  split
  · exact h
  · exact h.endRelay.answerRelay.ite h.endRelay.deliveryAnswered

theorem relayArrives {trunk src p} (h : Kept s₀ s) : Kept s₀ (relayArrives trunk src p s) :=
  h.hieStatusReceive.ite (h.ite ((h.discardRelay.ite (h.discardRelay.ite h.workerRelay)).ite
    ((h.discardRelay.ite h.relayResponse).ite h)))

theorem relay {trunk src onHierarchy i payload} (h : Kept s₀ s) : Kept s₀ (relay trunk src onHierarchy i payload s) :=
  h.relayArrives.ite (h.withRequest (fun _ _ h1 => h1.hostRelay))

theorem relayTimeout {tag} (h : Kept s₀ s) : Kept s₀ (relayTimeout tag s) := by
  unfold Machine.relayTimeout
  split
  · exact h
  · exact h.endRelay.answerRelay.ite h.endRelay.deliveryFailed

/-! ### Machine/LaneInt -/

theorem regOp {fn l rd rs rt f} (h : Kept s₀ s) : Kept s₀ (regOp fn l rd rs rt f s) :=
  h.laneOp

theorem shiftOp {fn l rd rs sh f} (h : Kept s₀ s) : Kept s₀ (shiftOp fn l rd rs sh f s) :=
  h.laneOp

theorem immOp {op l rd rs imm f} (h : Kept s₀ s) : Kept s₀ (immOp op l rd rs imm f s) :=
  h.laneOp

theorem jumpReg {l w rs f} (h : Kept s₀ s) : Kept s₀ (jumpReg l w rs f s) :=
  h.issue (fun _ h1 => h1.faultAt.ite h1.setLane)

theorem loadG {op l rt rs off len ext ans} (h : Kept s₀ s) : Kept s₀ (loadG op l rt rs off len ext ans s) :=
  h.loadOp

theorem storeG {op l rt rs off len ans} (h : Kept s₀ s) : Kept s₀ (storeG op l rt rs off len ans s) :=
  h.storeOp

theorem branchOp {op l rs off taken} (h : Kept s₀ s) : Kept s₀ (branchOp op l rs off taken s) :=
  h.issue fun _ h1 => h1.setLane

/-! ### Machine/LaneVec -/

theorem vecOp {op fn l vd vs vt f} (h : Kept s₀ s) : Kept s₀ (vecOp op fn l vd vs vt f s) :=
  h.laneOp

theorem vecShift {fn l vd vs gr f} (h : Kept s₀ s) : Kept s₀ (vecShift fn l vd vs gr f s) :=
  h.laneOp

/-! ### Machine/LaneSys -/

theorem jend {l} (h : Kept s₀ s) : Kept s₀ (jend l s) :=
  h.issue (fun _ h1 => h1.freeBuffer.settleFlights.setLane.bump)

theorem takeMessage {l m reg addr} (h : Kept s₀ s) : Kept s₀ (takeMessage l m reg addr s) :=
  h.storeLocal.setLane.takeMarker.ite h.storeLocal.setLane

theorem receiveOp {l w a b suspend ans} (h : Kept s₀ s) : Kept s₀ (receiveOp l w a b suspend ans s) := by
  unfold Machine.receiveOp
  refine h.issue fun s h => ?_
  dsimp only
  split
  · exact h.faultAt
  · split
    · exact h.faultAt
    · split
      · split
        · exact h.noteRef.faultAt
        · exact h.noteRef.takeMessage
      · split
        · exact h.setLane
        · exact h.setLane

theorem waitmResume {l ans} (h : Kept s₀ s) : Kept s₀ (waitmResume l ans s) := by
  unfold Machine.waitmResume
  dsimp only
  split
  · split
    · split
      · exact h.noteRef.faultAt
      · exact h.noteRef.takeMessage
    · exact h
  · exact h

theorem sendOp {l w n addr ok bad ans go} (h : Kept s₀ s) (hf : ∀ b t, Kept s₀ t → Kept s₀ (go b t)) :
    Kept s₀ (sendOp l w n addr ok bad ans go s) := by
  unfold Machine.sendOp
  refine h.issue fun s h => ?_
  split
  · exact h.faultAt
  · split
    · exact h.faultAt
    · split
      · exact h.faultAt
      · extract_lets v s1 b s'
        have h1 : Kept s₀ s1 := h.settleRead.laneSees
        have h2 : Kept s₀ s' := h1.ite h1.noteRef
        split
        · exact h1.faultAt
        · split
          · exact h1.faultAt
          · split
            · exact h2.faultAt
            · exact hf _ _ h2

theorem sendMsg {l dest b} (h : Kept s₀ s) : Kept s₀ (sendMsg l dest b s) :=
  h.setLane.ite h.setLane.sendMessage

theorem sendKind01 {kind l a b c ans} (h : Kept s₀ s) : Kept s₀ (sendKind01 kind l a b c ans s) := by
  unfold Machine.sendKind01
  exact h.sendOp fun _ _ h => h.sendMsg

theorem sendFrame {l egress cls b} (h : Kept s₀ s) : Kept s₀ (sendFrame l egress cls b s) :=
  h.setLane.ite h.setLane.setDistrict

theorem sendPort {l a b c ans} (h : Kept s₀ s) : Kept s₀ (sendPort l a b c ans s) := by
  unfold Machine.sendPort
  exact h.sendOp fun _ _ h => h.sendFrame

theorem admitSend {l egress cls b} (h : Kept s₀ s) : Kept s₀ (admitSend l egress cls b s) :=
  h.internalOffer.ite h.internalOffer.undeliverable

theorem sendFrameCopyDone {d} (h : Kept s₀ s) : Kept s₀ (sendFrameCopyDone d s) := by
  unfold Machine.sendFrameCopyDone
  split
  · exact h
  · exact h.setDistrict.admitSend.setLane

theorem recordOffer {l cls b} (h : Kept s₀ s) : Kept s₀ (recordOffer l cls b s) :=
  h.journalIntake.onlyIf fun _ h1 => h1.undeliverable

theorem sendRecord {l cls b} (h : Kept s₀ s) : Kept s₀ (sendRecord l cls b s) :=
  h.setLane.ite h.setLane.recordOffer

theorem sendJournal {l a b c ans} (h : Kept s₀ s) : Kept s₀ (sendJournal l a b c ans s) := by
  unfold Machine.sendJournal
  exact h.sendOp fun _ _ h => h.sendRecord

theorem laneObservation {l entries b} (h : Kept s₀ s) : Kept s₀ (laneObservation l entries b s) :=
  h.setLane.ite h.setLane.enqueueObservation

theorem sendRoad {l a b c ans} (h : Kept s₀ s) : Kept s₀ (sendRoad l a b c ans s) :=
  h.sendOp (fun _ _ h1 => h1.laneObservation)

theorem obs {l vb} (h : Kept s₀ s) : Kept s₀ (obs l vb s) :=
  h.issue (fun _ h1 => h1.faultAt.ite (h1.faultAt.ite h1.laneObservation))

theorem atTb (h : Kept s₀ s) : Kept s₀ (atTb s) :=
  h.frame

theorem atomOp {op l a b c ans} (h : Kept s₀ s) : Kept s₀ (atomOp op l a b c ans s) := by
  unfold Machine.atomOp
  refine h.issue fun s h => ?_
  dsimp only
  split
  · exact h.faultAt
  · split
    · split
      · exact h.faultAt
      · split
        · exact h.noteRef.faultAt
        · split
          · exact h.noteRef.setLane
          · exact h.noteRef.atomDistrict.setLane
    · exact h.faultAt

theorem fence {l} (h : Kept s₀ s) : Kept s₀ (fence l s) :=
  h.issue (fun _ h1 => h1.settleFlights.setLane)

theorem illegalInstruction {l} (h : Kept s₀ s) : Kept s₀ (illegalInstruction l s) :=
  h.faultAt.ite h

/-! ### Machine/Waypost -/

theorem wpMalformed (h : Kept s₀ s) : Kept s₀ (wpMalformed s) :=
  h.bump

theorem wpReplay {i} (h : Kept s₀ s) : Kept s₀ (wpReplay i s) :=
  h.bump.setCause

theorem drawEpoch {i} (h : Kept s₀ s) : Kept s₀ (drawEpoch i s).1 :=
  h.drawWord

theorem answerOpening {i base m epoch status payload} (h : Kept s₀ s) :
    Kept s₀ (answerOpening i base m epoch status payload s) :=
  h.bump.lostAtMac fun _ h1 => h1.wpSendOn

theorem openSession {i base m} (h : Kept s₀ s) : Kept s₀ (openSession i base m s) :=
  h.wpReplay.ite (h.wpMalformed.setCause.answerOpening.ite (h.bump.setCause.answerOpening.ite
    (h.wpMalformed.ite h.drawEpoch.setSession.answerOpening)))

theorem adoptEpoch {i m} (h : Kept s₀ s) : Kept s₀ (adoptEpoch i m s) :=
  h.setSession.setRg.setRg.setRg.dropRegs.setCause

theorem passWindow {i m t} (h : Kept s₀ s) (hr : passWindow i m s = some t) : Kept s₀ t := by
  unfold Machine.passWindow at hr
  extract_lets cur at hr
  split at hr
  · cases hr
  · split at hr
    · obtain ⟨w, -, rfl⟩ := Option.map_eq_some_iff.mp hr
      exact h.setSession.setRg
    · split at hr
      · cases hr; exact h.adoptEpoch
      · cases hr

theorem acceptMessage {i m} (h : Kept s₀ s) : Kept s₀ (acceptMessage i m s) :=
  h.setRgF.setSession.wpMalformed.setCause.wpRespond.ite (h.setRgF.setSession.bump.setCause.wpRespond.ite
    h.setRgF.setSession.bump.bump.queueRequest)

theorem hostMessage {i m} (h : Kept s₀ s) : Kept s₀ (hostMessage i m s) := by
  unfold Machine.hostMessage
  split
  · exact h.bump
  · dsimp only
    split
    · exact h.bump.setCause
    · split
      · exact h.openSession
      · split
        · exact h.wpReplay
        · next hr => exact (h.passWindow hr).acceptMessage

theorem assocDrop (h : Kept s₀ s) : Kept s₀ (assocDrop s) :=
  h.bump

theorem assocContent {m} (h : Kept s₀ s) : Kept s₀ (assocContent m s) :=
  h.relayArrives.ite (h.roadStateReceive.ite h.claimEcho)

theorem assocMessage {a m} (h : Kept s₀ s) : Kept s₀ (assocMessage a m s) := by
  unfold Machine.assocMessage
  dsimp only
  split
  · exact h.assocDrop
  · split
    · exact h.assocDrop
    · exact h.frame.bump.assocContent

theorem takeWaypost {f} (h : Kept s₀ s) : Kept s₀ (takeWaypost f s) := by
  unfold Machine.takeWaypost
  split
  · exact h.wpMalformed
  · split
    · exact h.internalFrame
    · split
      · exact h.wpMalformed
      · exact h.hostMessage.ite (h.assocMessage.ite (h.assocMessage.ite h.wpMalformed.setCause))

theorem receiveWaypost {kind} (h : Kept s₀ s) : Kept s₀ (receiveWaypost kind s) := by
  unfold Machine.receiveWaypost
  split
  · exact h
  · exact h.endHanded.takeWaypost

theorem arpIcmpRequest {t' b} (h : Kept s₀ s) : Kept s₀ (arpIcmpRequest t' b s) := by
  unfold Machine.arpIcmpRequest
  dsimp only
  split
  · exact h
  · exact h.frame.internalFrame

/-! ### Machine/Steps -/

theorem commitWrites (h : Kept s₀ s) : Kept s₀ (commitWrites s) :=
  (h.forEach (fun _ _ h1 => h1.forEach (fun _ _ h2 => h2.applyStepWrite))).forEach
    (fun _ _ h1 => h1.forEach (fun _ _ h2 => h2.applyStepWrite))

theorem releaseSend {l x} (h : Kept s₀ s) : Kept s₀ (releaseSend l x s) := by
  unfold Machine.releaseSend
  split
  · exact h
  · exact h.admitSend
  · exact h.recordOffer
  · exact h.enqueueObservation

theorem releaseMessage {x} (h : Kept s₀ s) : Kept s₀ (releaseMessage x s) := by
  unfold Machine.releaseMessage
  split
  · exact h.undeliverable.ite (h.deliverMessage.ite (h.undeliverable.ite h.frame))
  · exact h

theorem sendDigest {n parts} (h : Kept s₀ s) : Kept s₀ (sendDigest n parts s) :=
  h.frame.twinSend.compareDigest

theorem emptyBuffers (h : Kept s₀ s) : Kept s₀ (emptyBuffers s) :=
  h.forEach (fun _ _ h1 => h1.setLane)

theorem applyRoadInput {x} (h : Kept s₀ s) : Kept s₀ (applyRoadInput x s) :=
  h.enqueueObservation.ite (h.roadEntry.ite h)

theorem applyHostInput {x} (h : Kept s₀ s) : Kept s₀ (applyHostInput x s) :=
  h.stepHost.ite h

theorem applyStepCommand {c} (h : Kept s₀ s) : Kept s₀ (applyStepCommand c s) := by
  unfold Machine.applyStepCommand
  split
  · exact h.ite h.clearLane
  · exact h.startReset
  · exact h.ite h.setHalt
  · exact h.ite h.setHalt

theorem dispatchInput {x} (h : Kept s₀ s) : Kept s₀ (dispatchInput x s) :=
  (h.placeFrame.ite h.frame).ite (h.dispatchEntry.ite h)

theorem countStall {n} (h : Kept s₀ s) : Kept s₀ (countStall n s) := by
  unfold Machine.countStall
  dsimp only
  split
  · exact h.frame
  · exact h.frame.ite h.frame.addRgF.setRg

theorem endMerge {n} (h : Kept s₀ s) : Kept s₀ (endMerge n s) :=
  h.frame

theorem beginStep {n tb} (h : Kept s₀ s) : Kept s₀ (beginStep n tb s) :=
  ((((((h.frame.commitWrites.countStall.emptyBuffers.frame.forEach (fun _ _ h1 => h1.releaseMessage)).frame.forEach
    (fun _ _ h1 => h1.releaseSend)).sendDigest.forEach (fun _ _ h1 => h1.applyRoadInput)).frame.forEach
    (fun _ _ h1 => h1.applyStepCommand)).forEach (fun _ _ h1 => h1.applyHostInput)).frame.forEach
    (fun _ _ h1 => h1.dispatchInput)).stepMilestones.frame.setRg.endMerge.noteStall

theorem stepBegin (h : Kept s₀ s) : Kept s₀ (stepBegin s) := by
  unfold Machine.stepBegin
  split
  · exact h
  · split
    · exact h.beginStep
    · exact h

theorem afterTurn {i rest} (h : Kept s₀ s) : Kept s₀ (afterTurn i rest s) :=
  h.frame.setSession

/-! ### Machine/Pins -/

theorem stopFaulted {l pc} (h : Kept s₀ s) : Kept s₀ (stopFaulted l pc s) :=
  h.freeBuffer.setLane

theorem noteFault {l cause faddr trapCode} (h : Kept s₀ s) : Kept s₀ (noteFault l cause faddr trapCode s) :=
  h.setRg.setRg.bump.setRgF

end Kept

theorem Kept.instructionFetchFault {s₀ s l ans} (h : Kept s₀ s) : Kept s₀ (instructionFetchFault l ans s) := by
  unfold Machine.instructionFetchFault
  dsimp only
  split
  · exact h
  · split
    · exact h.faultAt
    · split
      · exact h.noteRef.faultAt
      · exact h.noteRef

/-- Every command answers a next state, with the same commands waiting and canonical contents still canonical. -/
theorem exec_next_kept (c : Instr) (s : State) : ∃ t, exec c s = .next t ∧ Kept s t := by
  have h := Kept.refl s
  cases c with
  | registerWrite => exact ⟨_, rfl, h.registerWrite⟩
  | milepostTick => exact ⟨_, rfl, h.tclkEdge⟩
  | mptIncrFracWrite => exact ⟨_, rfl, h.mptIncrFracWrite⟩
  | mptIncrIntWrite => exact ⟨_, rfl, h.mptIncrIntWrite⟩
  | incrementApplied => exact ⟨_, rfl, h.incrementApplied⟩
  | mptStepGo => exact ⟨_, rfl, h.mptStepGo⟩
  | stepTaken => exact ⟨_, rfl, h.stepTaken⟩
  | mptNsRead => exact ⟨_, rfl, h.mptNsRead⟩
  | mptTs2TimeRead => exact ⟨_, rfl, h.mptTs2TimeRead⟩
  | mptFwSetWrite => exact ⟨_, rfl, h.mptFwSetWrite⟩
  | extTimePublish => exact ⟨_, rfl, h.extTimePublish⟩
  | roadStart => exact ⟨_, rfl, h.startRoad⟩
  | roadStop => exact ⟨_, rfl, h.stopRoad⟩
  | roadReacquire => exact ⟨_, rfl, h.reacquireRoad⟩
  | roaSrcWrite => exact ⟨_, rfl, h.roaSrcWrite⟩
  | roaPeriodWrite => exact ⟨_, rfl, h.roaPeriodWrite⟩
  | roaPosLapRead => exact ⟨_, rfl, h.roaPosLapRead⟩
  | observationIngest => exact ⟨_, rfl, h.observationIngest⟩
  | roadPublish => exact ⟨_, rfl, h.roadPublish⟩
  | clockRoadLap => exact ⟨_, rfl, h.clockRoadLap⟩
  | obsTimeout => exact ⟨_, rfl, h.obsTimeout⟩
  | coastLimitExpiry => exact ⟨_, rfl, h.coastLimitExpiry⟩
  | roadStateReceive => exact ⟨_, rfl, h.roadStateReceive⟩
  | roadStatePeriodic => exact ⟨_, rfl, h.roadStatePeriodic⟩
  | roadStateSend => exact ⟨_, rfl, h.roadStateSend⟩
  | mstCommit => exact ⟨_, rfl, h.mstCommit⟩
  | mstCtrlEnableWrite => exact ⟨_, rfl, h.mstCtrlEnableWrite⟩
  | milestoneCompare => exact ⟨_, rfl, h.milestoneCompare⟩
  | milestoneFire => exact ⟨_, rfl, h.milestoneFire⟩
  | drainMarkerEnqueue => exact ⟨_, rfl, h.drainMarkerEnqueue⟩
  | mstPlcCurWrite => exact ⟨_, rfl, h.mstPlcCurWrite⟩
  | mstSwPulse => exact ⟨_, rfl, h.mstSwPulse⟩
  | eventLineDeliver => exact ⟨_, rfl, h.eventLineDeliver⟩
  | mainsSampleSet => exact ⟨_, rfl, h.mainsSampleSet⟩
  | mainsDropout => exact ⟨_, rfl, h.mainsDropout⟩
  | modulatorStuck => exact ⟨_, rfl, h.modulatorStuck⟩
  | mfeTrkDisable => exact ⟨_, rfl, h.mfeTrkCfgWrite⟩
  | quadratureChange => exact ⟨_, rfl, h.quadratureChange⟩
  | shaftIndex => exact ⟨_, rfl, h.shaftIndex⟩
  | shaftIdleObs => exact ⟨_, rfl, h.shaftIdleObs⟩
  | ssiFrameStart => exact ⟨_, rfl, h.ssiFrameStart⟩
  | ssiFrameDone => exact ⟨_, rfl, h.ssiFrameDone⟩
  | shfCfgWrite => exact ⟨_, rfl, h.shfCfgWrite⟩
  | shfPosLapRead => exact ⟨_, rfl, h.shfPosLapRead⟩
  | jobStart => exact ⟨_, rfl, h.jobStart⟩
  | drainMarkerHead => exact ⟨_, rfl, h.drainMarkerHead⟩
  | messageDeliver => exact ⟨_, rfl, h.messageDeliver⟩
  | waitmResume => exact ⟨_, rfl, h.waitmResume⟩
  | sendFrameCopyDone => exact ⟨_, rfl, h.sendFrameCopyDone⟩
  | frameToDistrict => exact ⟨_, rfl, h.frameToDistrict⟩
  | lncDstFrxWrite => exact ⟨_, rfl, h.lncDstFrxWrite⟩
  | frxLayoutApply => exact ⟨_, rfl, h.frxLayoutApply⟩
  | stepBegin => exact ⟨_, rfl, h.stepBegin⟩
  | laneReset => exact ⟨_, rfl, h.laneReset⟩
  | laneResetDone => exact ⟨_, rfl, h.laneResetDone⟩
  | districtHalt => exact ⟨_, rfl, h.districtHalt⟩
  | districtResume => exact ⟨_, rfl, h.districtResume⟩
  | districtReset => exact ⟨_, rfl, h.districtReset⟩
  | add | sub | and | or | xor | nor | slt | sltu | sll | srl | sra | mul | mulh | mulhu | div | divu | rem | remu |
    min | max => exact ⟨_, rfl, h.regOp⟩
  | slli | srli | srai => exact ⟨_, rfl, h.shiftOp⟩
  | clz | lui | vnarrowH | vbf2H | vbf4H | vbf2F | vbf4F | vmov | vmovg2v | vmovv2g | vextH | vsplatH | vsplatW |
    roadp | roadat | roadwhen | stepqStep | stepqTime | laneq => exact ⟨_, rfl, h.laneOp⟩
  | jr | jalr => exact ⟨_, rfl, h.jumpReg⟩
  | addi | andi | ori | xori | slti | sltiu => exact ⟨_, rfl, h.immOp⟩
  | lb | lbu | lh | lhu | lw => exact ⟨_, rfl, h.loadG⟩
  | sb | sh | sw => exact ⟨_, rfl, h.storeG⟩
  | j => exact ⟨_, rfl, h.issue (fun _ h1 => h1.setLane)⟩
  | beqz | bnez | bltz | bgez | blez | bgtz => exact ⟨_, rfl, h.branchOp⟩
  | vaddH | vsubH | vmulH | vmacH | vdotH | vabsH | vmaxH | vminH | vaddW | vsubW | vfadd | vfsub | vfmul | vfma |
    vfms | vfmin | vfmax | vfabs | vfneg | vfcvtFW | vfcvtWF | vfsqrt | vfcmplt | vcmulH | vcmuljH | vcmulF => exact
    ⟨_, rfl, h.vecOp⟩
  | vshrH | vshlH => exact ⟨_, rfl, h.vecShift⟩
  | vld => exact ⟨_, rfl, h.loadOp⟩
  | vst => exact ⟨_, rfl, h.storeOp⟩
  | jend => exact ⟨_, rfl, h.jend⟩
  | waitm | pollm => exact ⟨_, rfl, h.receiveOp⟩
  | sendLane | sendDistrict => exact ⟨_, rfl, h.sendKind01⟩
  | sendPort => exact ⟨_, rfl, h.sendPort⟩
  | sendJournal => exact ⟨_, rfl, h.sendJournal⟩
  | sendRoad => exact ⟨_, rfl, h.sendRoad⟩
  | obs => exact ⟨_, rfl, h.obs⟩
  | atomAdd | atomSwap | atomCas => exact ⟨_, rfl, h.atomOp⟩
  | fence => exact ⟨_, rfl, h.fence⟩
  | trap => exact ⟨_, rfl, h.issue (fun _ h1 => h1.laneFault)⟩
  | portReset => exact ⟨_, rfl, h.startReset⟩
  | vergeGo | vergeAbort => exact ⟨_, rfl, h.vergeCtrlWrite⟩
  | vergeWindowStart => exact ⟨_, rfl, h.vergeWindowStart⟩
  | vergeSkipped => exact ⟨_, rfl, h.vergeSkipped⟩
  | vergeMeasurementDone => exact ⟨_, rfl, h.vergeMeasurementDone⟩
  | vergeWindowEnd => exact ⟨_, rfl, h.vergeWindowEnd⟩
  | surgeClampEvent => exact ⟨_, rfl, h.surgeClampEvent⟩
  | serialCharacterReceive => exact ⟨_, rfl, h.serialCharacterReceive⟩
  | serialMessageEnd => exact ⟨_, rfl, h.serialMessageEnd⟩
  | serialTransmit => exact ⟨_, rfl, h.serialTransmit⟩
  | serialResponseTimeout => exact ⟨_, rfl, h.serialResponseTimeout⟩
  | t1sBeacon => exact ⟨_, rfl, h.t1sBeacon⟩
  | linkChange => exact ⟨_, rfl, h.linkChange⟩
  | macReceiveFrame => exact ⟨_, rfl, h.macReceiveFrame⟩
  | pauseReceive => exact ⟨_, rfl, h.controlArrives (fun _ h1 => h1.takePause)⟩
  | pfcReceive => exact ⟨_, rfl, h.controlArrives (fun _ h1 => h1.takePfc)⟩
  | pauseTimerExpiry => exact ⟨_, rfl, h.pauseTimerExpiry⟩
  | macPauseTxPause | macPauseTxPfc => exact ⟨_, rfl, h.macPauseTxWrite⟩
  | pauseFrameSend => exact ⟨_, rfl, h.pauseFrameSend⟩
  | preemptVerify => exact ⟨_, rfl, h.preemptVerify⟩
  | fragmentReceive => exact ⟨_, rfl, h.fragmentReceive⟩
  | macTransmitFrame => exact ⟨_, rfl, h.macTransmit⟩
  | trunkLinkChange => exact ⟨_, rfl, h.trunkLinkChange⟩
  | junctionLookup => exact ⟨_, rfl, h.junctionLookup⟩
  | internalFrame => exact ⟨_, rfl, h.internalOffer⟩
  | frameLastByte => exact ⟨_, rfl, h.frameLastByte⟩
  | jctTblRead | jctTblWrite | jctTblInsert | jctTblDelete => exact ⟨_, rfl, h.tblCmdWrite⟩
  | macEntryAgeing => exact ⟨_, rfl, h.macEntryAgeing⟩
  | ageSweep => exact ⟨_, rfl, h.ageSweep⟩
  | residueExpiry => exact ⟨_, rfl, h.residueExpiry⟩
  | auditVisit => exact ⟨_, rfl, h.auditVisit⟩
  | turnpikeSelect => exact ⟨_, rfl, h.turnpikeSelect⟩
  | shaperAccrual => exact ⟨_, rfl, h.shaperAccrual⟩
  | tollAccrual => exact ⟨_, rfl, h.tollAccrual⟩
  | gateEntryStart => exact ⟨_, rfl, h.gateEntryStart⟩
  | gateStepDeferred => exact ⟨_, rfl, h.gateStepDeferred⟩
  | vergeAutostep => exact ⟨_, rfl, h.vergeAutostep⟩
  | tpkGclCommitGo | tpkGclCommitCancel => exact ⟨_, rfl, h.gclCommitWrite⟩
  | gateSwitchOver => exact ⟨_, rfl, h.gateSwitchOver⟩
  | tpkMapRead | tpkMapWrite => exact ⟨_, rfl, h.mapCmdWrite⟩
  | recoveryResetTimeout => exact ⟨_, rfl, h.recoveryResetTimeout⟩
  | latentPeriodEnd => exact ⟨_, rfl, h.latentPeriodEnd⟩
  | checkTriggerVerdict => exact ⟨_, rfl, h.checkTriggerVerdict⟩
  | qmgDoorbell => exact ⟨_, rfl, h.doorbellOp⟩
  | queueEnable => exact ⟨_, rfl, h.queueEnable⟩
  | queueShutdown => exact ⟨_, rfl, h.queueShutdown⟩
  | qmgInvalGo => exact ⟨_, rfl, h.invalWrite⟩
  | transmitEntry => exact ⟨_, rfl, h.transmitEntry⟩
  | receiveFrameWrite => exact ⟨_, rfl, h.receiveFrameWrite⟩
  | laneJobEntry => exact ⟨_, rfl, h.laneJobEntry⟩
  | hostWorkEntry => exact ⟨_, rfl, h.hostWorkEntry⟩
  | cringPoll => exact ⟨_, rfl, h.cringPoll⟩
  | dmaStart => exact ⟨_, rfl, h.dmaStart⟩
  | dmaArm => exact ⟨_, rfl, h.dmaArmOp⟩
  | dmaDisarm => exact ⟨_, rfl, h.dmaDisarm⟩
  | dmaComplete => exact ⟨_, rfl, h.dmaComplete⟩
  | dmaMemFault => exact ⟨_, rfl, h.dmaMemFault⟩
  | fltGForceWrite => exact ⟨_, rfl, h.fltGForceWrite⟩
  | reactionServe => exact ⟨_, rfl, h.reactionServe⟩
  | fltSafeRelease => exact ⟨_, rfl, h.fltSafeRelease⟩
  | fltIsoClear => exact ⟨_, rfl, h.fltIsoClear⟩
  | eventBudgetTick => exact ⟨_, rfl, h.eventBudgetTick⟩
  | journalRecordWrite => exact ⟨_, rfl, h.journalRecordWrite⟩
  | alarmSummaryWrite => exact ⟨_, rfl, h.alarmSummaryWrite⟩
  | journalCreditStep => exact ⟨_, rfl, h.journalCreditStep⟩
  | journalDrainFrameEnd => exact ⟨_, rfl, h.journalDrainFrameEnd⟩
  | journalAckFrame => exact ⟨_, rfl, h.journalAckFrame⟩
  | jnlAlmAckWrite => exact ⟨_, rfl, h.jnlAlmAckWrite⟩
  | twinHelloTimer => exact ⟨_, rfl, h.twinHelloTimer⟩
  | twinHelloReceive => exact ⟨_, rfl, h.twinHelloReceive⟩
  | soloWaitExpiry => exact ⟨_, rfl, h.soloWaitExpiry⟩
  | heartbeatTimer => exact ⟨_, rfl, h.heartbeatTimer⟩
  | heartbeatReceive => exact ⟨_, rfl, h.heartbeatReceive⟩
  | heartbeatLoss => exact ⟨_, rfl, h.heartbeatLoss⟩
  | boundaryMarkerEmit => exact ⟨_, rfl, h.boundaryMarkerEmit⟩
  | twinInputReceive => exact ⟨_, rfl, h.twinInputReceive⟩
  | closeSend => exact ⟨_, rfl, h.closeSend⟩
  | resendRequest => exact ⟨_, rfl, h.resendRequest⟩
  | claimEcho => exact ⟨_, rfl, h.claimEcho⟩
  | outputStageEchoTimer => exact ⟨_, rfl, h.outputStageEchoTimer⟩
  | twnCtrlRejoin => exact ⟨_, rfl, h.twnCtrlRejoin⟩
  | rejoinAuto => exact ⟨_, rfl, h.rejoinAuto⟩
  | hieStatusTimer => exact ⟨_, rfl, h.hieStatusTimer⟩
  | hieStatusReceive => exact ⟨_, rfl, h.hieStatusReceive⟩
  | hieStatusLoss => exact ⟨_, rfl, h.hieStatusLoss⟩
  | relay => exact ⟨_, rfl, h.relay⟩
  | relayTimeout => exact ⟨_, rfl, h.relayTimeout⟩
  | imageOffer => exact ⟨_, rfl, h.imageOffer⟩
  | waypostReceive | sessionOpen | associationMessage => exact ⟨_, rfl, h.receiveWaypost⟩
  | regRd | regWr | memRd | memWr | doorbell | imgChunk | imgCommit | readIn | writeOut | readOut => exact ⟨_, rfl,
    h.hostRequest⟩
  | imageTransferTimeout => exact ⟨_, rfl, h.imageTransferTimeout⟩
  | lm64Timeout => exact ⟨_, rfl, h.lm64Late⟩
  | lm64LateAnswer => exact ⟨_, rfl, h.lm64LateAnswer⟩
  | imageVerifyDone => exact ⟨_, rfl, h.imageVerifyDone⟩
  | imageApply => exact ⟨_, rfl, h.imageApply⟩
  | flashWriteDone => exact ⟨_, rfl, h.flashWriteDone⟩
  | imgCtrlAbort | imgCtrlPreferGo | imgCtrlConfirm => exact ⟨_, rfl, h.imgCtrlWrite⟩
  | imgRevokeWrite => exact ⟨_, rfl, h.imgRevokeWrite⟩
  | powerOnReset | brownOutReset => exact ⟨_, rfl, h.deviceReset⟩
  | systemReset => exact ⟨_, rfl, h.systemReset⟩
  | softwareReset => exact ⟨_, rfl, h.softwareReset⟩
  | thermalTrip => exact ⟨_, rfl, h.thermalTrip⟩
  | boot => exact ⟨_, rfl, h.boot⟩
  | functionReset => exact ⟨_, rfl, h.functionReset⟩
  | functionResetComplete => exact ⟨_, rfl, h.functionResetComplete⟩
  | watchdogKick => exact ⟨_, rfl, h.watchdogKick⟩
  | watchdogStage1 => exact ⟨_, rfl, h.watchdogStage1⟩
  | watchdogReset => exact ⟨_, rfl, h.watchdogReset⟩
  | monitorReading => exact ⟨_, rfl, h.monitorReading⟩
  | xoLoss => exact ⟨_, rfl, h.setCause⟩
  | dieLinkDown => exact ⟨_, rfl, h.dieLinkDown⟩
  | dieLinkRetrain => exact ⟨_, rfl, h.dieLinkRetrain⟩
  | illegalInstruction => exact ⟨_, rfl, h.illegalInstruction⟩
  | instructionFetchFault => exact ⟨_, rfl, h.instructionFetchFault⟩
  | verifyResponseReceive => exact ⟨_, rfl, h.verifyResponseReceive⟩
  | jtagOtpProgram => exact ⟨_, rfl, h.jtagOtpProgram⟩
  | supplySequenceError => exact ⟨_, rfl, h.setRg⟩
  | fecUncorrectableBlock => exact ⟨_, rfl, h.fecUncorrectable⟩
  | dieLinkRetryBurst => exact ⟨_, rfl, h.dieLinkRetryBurst⟩
  | memoryScrubPass => exact ⟨_, rfl, h.memoryScrubPass⟩
  | rejoinCopyDone => exact ⟨_, rfl, h.rejoinCopyDone⟩
  | arpIcmpRequest => exact ⟨_, rfl, h.arpIcmpRequest⟩

/-- Settles O1: a step is the meaning of the front command, and every meaning answers a next state. -/
theorem stepCarriesOutTheFrontCommand : Obligations.StepCarriesOutTheFrontCommand := by
  refine ⟨⟨fun c rest s => rfl, fun s hs => by rw [step, hs]⟩, fun s => ?_⟩
  unfold step
  split
  · exact ⟨s, rfl⟩
  · next c rest _ =>
    obtain ⟨t, ht, -⟩ := exec_next_kept c { s with pending := rest }
    exact ⟨t, ht⟩

/-- What a step leaves: nothing new where no command waits, and otherwise what the front command keeps. -/
theorem step_next_kept {s t : State} (h : step s = .next t) : Kept { s with pending := s.pending.tail } t := by
  unfold step at h
  split at h
  · next hnone =>
    cases h
    exact ⟨by rw [hnone]; rfl, id, id⟩
  · next c rest hsome =>
    obtain ⟨u, hu, hkept⟩ := exec_next_kept c { s with pending := rest }
    rw [hu] at h
    cases h
    rwa [hsome]

/-- Settles O2. -/
theorem noCommandChangesTheQueue : Obligations.NoCommandChangesTheQueue :=
  fun _ _ h => (step_next_kept h).pending

/-- Settles O3: the canonical forms are kept by every operation, so by every command, so by a step. -/
theorem everyStepKeepsTheCanonicalForms : Obligations.EveryStepKeepsTheCanonicalForms := by
  intro s t hwf h
  have hkept := step_next_kept h
  simp only [State.wf, Bool.and_eq_true] at hwf ⊢
  exact ⟨hkept.mem hwf.1, hkept.regs hwf.2⟩

end Sys2Proof.Machine
end

section
/-! PROOF. Reading back the word of a lane's instruction (R140, R144-R167): the fields of each format, then the
instructions of each format. -/

set_option Elab.async false

namespace Sys2Proof.Machine

open Sys2Proof

/-! ### The fields of each format -/

theorem fld_w32 (n hi lo : Nat) : fld (w32 n) hi lo = n % 2 ^ 32 / 2 ^ lo % 2 ^ (hi - lo + 1) := by
  simp [fld, w32, BitVec.toNat_ofNat]

/-- Format A: op 0. -/
theorem fields_encA {fn rd rs rt sh : Nat} (hfn : fn < 64) (hrd : rd < 32) (hrs : rs < 32) (hrt : rt < 32)
    (hsh : sh < 32) :
    fld (encA fn rd rs rt sh) 31 26 = 0 ∧ fld (encA fn rd rs rt sh) 25 21 = rd ∧
      fld (encA fn rd rs rt sh) 20 16 = rs ∧ fld (encA fn rd rs rt sh) 15 11 = rt ∧
      fld (encA fn rd rs rt sh) 10 6 = sh ∧ fld (encA fn rd rs rt sh) 5 0 = fn := by
  simp only [encA, fld_w32]
  omega

theorem fields_encI {op rd rs imm : Nat} (hop : op < 64) (hrd : rd < 32) (hrs : rs < 32) (himm : imm < 2 ^ 16) :
    fld (encI op rd rs imm) 31 26 = op ∧ fld (encI op rd rs imm) 25 21 = rd ∧ fld (encI op rd rs imm) 20 16 = rs ∧
      fld (encI op rd rs imm) 15 0 = imm := by
  simp only [encI, fld_w32]
  omega

theorem fields_encB {op rs off : Nat} (hop : op < 64) (hrs : rs < 32) (hoff : off < 2 ^ 21) :
    fld (encB op rs off) 31 26 = op ∧ fld (encB op rs off) 25 21 = rs ∧ fld (encB op rs off) 20 0 = off := by
  simp only [encB, fld_w32]
  omega

theorem fields_encV {op fn vd vs vt gr imm : Nat} (hop : op < 64) (hfn : fn < 64) (hvd : vd < 16) (hvs : vs < 16)
    (hvt : vt < 16) (hgr : gr < 32) (himm : imm < 8) :
    fld (encV op fn vd vs vt gr imm) 31 26 = op ∧ fld (encV op fn vd vs vt gr imm) 25 22 = vd ∧
      fld (encV op fn vd vs vt gr imm) 21 18 = vs ∧ fld (encV op fn vd vs vt gr imm) 17 14 = vt ∧
      fld (encV op fn vd vs vt gr imm) 13 9 = gr ∧ fld (encV op fn vd vs vt gr imm) 8 6 = imm ∧
      fld (encV op fn vd vs vt gr imm) 5 0 = fn := by
  simp only [encV, fld_w32]
  omega

theorem fields_encS {sub a b c d : Nat} (hsub : sub < 64) (ha : a < 32) (hb : b < 32) (hc : c < 32) (hd : d < 32) :
    fld (encS sub a b c d) 31 26 = 0x3F ∧ fld (encS sub a b c d) 25 21 = a ∧ fld (encS sub a b c d) 20 16 = b ∧
      fld (encS sub a b c d) 15 11 = c ∧ fld (encS sub a b c d) 10 6 = d ∧ fld (encS sub a b c d) 5 0 = sub := by
  simp only [encS, fld_w32]
  omega

/-- A vector register of format S stands in the low four bits of its field. -/
theorem vecFields_encS {sub a b c d : Nat} (hsub : sub < 64) (hb : b < 32) (hc : c < 32) (hd : d < 32) :
    (a < 16 → fld (encS sub a b c d) 24 21 = a) ∧ (b < 16 → fld (encS sub a b c d) 19 16 = b) ∧
      (c < 16 → fld (encS sub a b c d) 14 11 = c) := by
  simp only [encS, fld_w32]
  omega

theorem fields_encCode {sub code : Nat} (hsub : sub < 64) (hcode : code < 2 ^ 16) :
    fld (encCode sub code) 31 26 = 0x3F ∧ fld (encCode sub code) 25 10 = code ∧ fld (encCode sub code) 5 0 = sub := by
  simp only [encCode, fld_w32]
  omega

/-! ### Each format's table -/

section
variable {l : Lane} {ans : MemAnswer}

theorem laneDecode_encA {fn rd rs rt sh : Nat} (hlegal : legalWord (encA fn rd rs rt sh) = true) (hfn : fn < 64)
    (hrd : rd < 32) (hrs : rs < 32) (hrt : rt < 32) (hsh : sh < 32) :
    laneDecode l ans (encA fn rd rs rt sh) = laneDecodeA l ans (encA fn rd rs rt sh) := by
  simp [laneDecode, hlegal, (fields_encA hfn hrd hrs hrt hsh).1]

/-- The table that op gives a word of format V. -/
def vecTable (op : Nat) (l : Lane) (ans : MemAnswer) (w : Word) : Option Instr :=
  match op with
  | 0x20 => laneDecode20 l ans w
  | 0x21 => laneDecode21 l ans w
  | 0x22 => laneDecode22 l ans w
  | 0x23 => laneDecode23 l ans w
  | _ => none

theorem laneDecode_encV {op fn vd vs vt gr imm : Nat} (hlegal : legalWord (encV op fn vd vs vt gr imm) = true)
    (hlo : 0x20 ≤ op) (hhi : op ≤ 0x23) (hfn : fn < 64) (hvd : vd < 16) (hvs : vs < 16) (hvt : vt < 16) (hgr : gr < 32)
    (himm : imm < 8) :
    laneDecode l ans (encV op fn vd vs vt gr imm) = vecTable op l ans (encV op fn vd vs vt gr imm) := by
  have hop := (fields_encV (op := op) (by omega) hfn hvd hvs hvt hgr himm).1
  obtain rfl | rfl | rfl | rfl : op = 0x20 ∨ op = 0x21 ∨ op = 0x22 ∨ op = 0x23 := by omega
  all_goals simp [laneDecode, hlegal, hop, vecTable]

theorem laneDecode_encS {sub a b c d : Nat} (hlegal : legalWord (encS sub a b c d) = true) (hsub : sub < 64)
    (ha : a < 32) (hb : b < 32) (hc : c < 32) (hd : d < 32) :
    laneDecode l ans (encS sub a b c d) = laneDecodeS l ans (encS sub a b c d) := by
  simp [laneDecode, hlegal, (fields_encS hsub ha hb hc hd).1]

theorem laneDecode_encCode {sub code : Nat} (hlegal : legalWord (encCode sub code) = true) (hsub : sub < 64)
    (hcode : code < 2 ^ 16) : laneDecode l ans (encCode sub code) = laneDecodeS l ans (encCode sub code) := by
  simp [laneDecode, hlegal, (fields_encCode hsub hcode).1]

end

/-- Settles O16: in each format the fields are the operands, so the format's table gives the instruction back. -/
theorem laneWordsDecodeToTheirInstruction : Obligations.LaneWordsDecodeToTheirInstruction := by
  intro c l w hword hlegal
  cases c with
  | add | sub | and | or | xor | nor | slt | sltu | sll | srl | sra | mul | mulh | mulhu | div | divu | rem | remu | min
  | max | slli | srli | srai | clz | jr | jalr =>
    cases hword
    simp (disch := omega) [laneDecode_encA hlegal, fields_encA, laneDecodeA, regField]
  | addi | andi | ori | xori | slti | sltiu | lui | lb | lbu | lh | lhu | lw | sb | sh | sw =>
    cases hword
    simp (disch := omega) [laneDecode, hlegal, fields_encI, regField, imm16, laneAnswer]
  | j | beqz | bnez | bltz | bgez | blez | bgtz =>
    cases hword
    simp (disch := omega) [laneDecode, hlegal, fields_encB, regField]
  | vaddH | vsubH | vmulH | vmacH | vdotH | vmaxH | vminH | vaddW | vsubW | vabsH | vshrH | vshlH | vnarrowH =>
    cases hword
    simp (disch := omega) [laneDecode_encV hlegal, vecTable, fields_encV, laneDecode20, regField, vecField]
  | vfadd | vfsub | vfmul | vfma | vfms | vfmin | vfmax | vfcmplt | vfabs | vfneg | vfcvtFW | vfcvtWF | vfsqrt =>
    cases hword
    simp (disch := omega) [laneDecode_encV hlegal, vecTable, fields_encV, laneDecode21, vecField]
  | vmov | vld | vst | vmovg2v | vmovv2g | vextH | vsplatH | vsplatW =>
    cases hword
    simp (disch := omega) [laneDecode_encV hlegal, vecTable, fields_encV, laneDecode22, regField, vecField, imm3,
      laneAnswer]
  | vcmulH | vcmuljH | vcmulF | vbf2F | vbf4F | vbf2H | vbf4H =>
    cases hword
    simp (disch := omega) [laneDecode_encV hlegal, vecTable, fields_encV, laneDecode23, vecField, imm3]
  | jend | waitm | pollm | sendLane | sendDistrict | sendPort | sendJournal | sendRoad | stepqStep | stepqTime
  | atomAdd | atomSwap | atomCas | fence | laneq =>
    cases hword
    simp (disch := omega) [laneDecode_encS hlegal, fields_encS, laneDecodeS, regField, laneAnswer]
  | roadp | roadat | roadwhen | obs =>
    cases hword
    simp (disch := omega) [laneDecode_encS hlegal, fields_encS, vecFields_encS, laneDecodeS, regField, vecField]
  | trap =>
    cases hword
    simp (disch := omega) [laneDecode_encCode hlegal, fields_encCode, laneDecodeS]
  | _ => cases hword

/-- Settles O17: closed words. -/
theorem laneWordsFromTheTablesDecode : Obligations.LaneWordsFromTheTablesDecode := by
  unfold Obligations.LaneWordsFromTheTablesDecode
  decide +kernel

end Sys2Proof.Machine
end

section
/-! PROOF. An instruction that its lane does not issue does nothing (R139, R140). -/

set_option Elab.async false

namespace Sys2Proof.Machine

open Sys2Proof

/-! ### Operations that are not issued -/

section
variable {l : Lane} {w : Word} {ans : MemAnswer} {s : State}

theorem regOp_ignored {fn : Nat} {rd rs rt : GReg} {f : Word → Word → Word}
    (h : laneIssues l (encA fn rd rs rt 0) s = false) : regOp fn l rd rs rt f s = s := issue_ignored _ _ _ _ h

theorem shiftOp_ignored {fn : Nat} {rd rs : GReg} {sh : BitVec 5} {f : Word → Nat → Word}
    (h : laneIssues l (encA fn rd rs 0 sh.toNat) s = false) : shiftOp fn l rd rs sh f s = s := issue_ignored _ _ _ _ h

theorem immOp_ignored {op : Nat} {rd rs : GReg} {imm : BitVec 16} {f : Word → Word}
    (h : laneIssues l (encI op rd rs imm.toNat) s = false) : immOp op l rd rs imm f s = s := issue_ignored _ _ _ _ h

theorem loadOp_ignored {addr : Word} {len : Nat} {f : Bytes → LaneState → LaneState} (h : laneIssues l w s = false) :
    loadOp l w addr len ans f s = s := issue_ignored _ _ _ _ h

theorem storeOp_ignored {addr : Word} {d : Bytes} (h : laneIssues l w s = false) :
    storeOp l w addr d ans s = s := issue_ignored _ _ _ _ h

theorem sendOp_ignored {n : Nat} {addr : Word} {ok : Bool} {bad : Bytes → Bool} {go : Bytes → State → State}
    (h : laneIssues l w s = false) : sendOp l w n addr ok bad ans go s = s := issue_ignored _ _ _ _ h

theorem sendKind01_ignored {kind : Nat} {a b c : GReg} (h : laneIssues l (encS 0x03 a b c kind) s = false) :
    sendKind01 kind l a b c ans s = s := by
  unfold sendKind01
  exact sendOp_ignored h

theorem sendPort_ignored {a b c : GReg} (h : laneIssues l (encS 0x03 a b c 2) s = false) :
    sendPort l a b c ans s = s := by
  unfold sendPort
  exact sendOp_ignored h

theorem sendJournal_ignored {a b c : GReg} (h : laneIssues l (encS 0x03 a b c 3) s = false) :
    sendJournal l a b c ans s = s := by
  unfold sendJournal
  exact sendOp_ignored h

end

/-- Settles O15: whatever an instruction does, it does at its issue. -/
theorem anInstructionNotIssuedDoesNothing : Obligations.AnInstructionNotIssuedDoesNothing := by
  intro c l w s hword hidle
  have next_eq {t : State} (h : t = s) : Host.Outcome.next t = (.next s : Out) := congrArg _ h
  have idle {f : State → State} : Host.Outcome.next (issue l w f s) = (.next s : Out) :=
    next_eq (issue_ignored l w f s hidle)
  cases c with
  | add | sub | and | or | xor | nor | slt | sltu | sll | srl | sra | mul | mulh | mulhu | div | divu | rem | remu
  | min | max => cases hword; exact next_eq (regOp_ignored hidle)
  | slli | srli | srai => cases hword; exact next_eq (shiftOp_ignored hidle)
  | addi | andi | ori | xori | slti | sltiu => cases hword; exact next_eq (immOp_ignored hidle)
  | clz | lui | stepqStep | stepqTime | laneq => cases hword; exact idle
  | jr | jalr | j | beqz | bnez | bltz | bgez | blez | bgtz => cases hword; exact idle
  | lb | lbu | lh | lhu | lw | vld => cases hword; exact next_eq (loadOp_ignored hidle)
  | sb | sh | sw | vst => cases hword; exact next_eq (storeOp_ignored hidle)
  | vaddH | vsubH | vmulH | vmacH | vdotH | vmaxH | vminH | vaddW | vsubW | vabsH | vshrH | vshlH | vnarrowH =>
    cases hword; exact idle
  | vfadd | vfsub | vfmul | vfma | vfms | vfmin | vfmax | vfcmplt | vfabs | vfneg | vfcvtFW | vfcvtWF | vfsqrt =>
    cases hword; exact idle
  | vcmulH | vcmuljH | vcmulF | vbf2F | vbf4F | vbf2H | vbf4H => cases hword; exact idle
  | vmov | vmovg2v | vmovv2g | vextH | vsplatH | vsplatW => cases hword; exact idle
  | jend | fence | trap | waitm | pollm => cases hword; exact idle
  | sendLane | sendDistrict => cases hword; exact next_eq (sendKind01_ignored hidle)
  | sendPort => cases hword; exact next_eq (sendPort_ignored hidle)
  | sendJournal => cases hword; exact next_eq (sendJournal_ignored hidle)
  | sendRoad => cases hword; exact next_eq (sendOp_ignored hidle)
  | obs | roadp | roadat | roadwhen | atomAdd | atomSwap | atomCas => cases hword; exact idle
  | _ => cases hword

end Sys2Proof.Machine
end

section
/-! PROOF. Register arithmetic, immediates, queries and moves (R144, R146, R156, R164, R167). -/

set_option Elab.async false

namespace Sys2Proof.Machine

open Sys2Proof

theorem writesG.congr {c : Instr} {rd : GReg} {g g' : State → LaneState → Word} (h : writesG c rd g)
    (heq : ∀ s ln, g s ln = g' s ln) : writesG c rd g' := by
  rwa [show g = g' from funext fun s => funext (heq s)] at h

/-- An instruction of format A whose operation is `f'` on every pair of words writes that. -/
theorem writesG_of_regOp_eq {c : Instr} {l : Lane} {rd rs rt : GReg} {fn : Nat} {f f' : Word → Word → Word}
    (hf : ∀ x y, f x y = f' x y) (hword : laneWord c = some (l, encA fn rd rs rt 0))
    (hexec : ∀ s, exec c s = .next (regOp fn l rd rs rt f s)) :
    writesG c rd (fun _ ln => f' (getG rs ln) (getG rt ln)) :=
  (writesG_of_regOp hword hexec).congr fun _ _ => hf _ _

/-! ### The operations on words -/

theorem boolWord_lt_eq_slt (x y : Word) : boolWord (decide (si x < si y)) = if x.slt y then 1 else 0 := rfl

theorem boolWord_lt_eq_ult (x y : Word) : boolWord (decide (x.toNat < y.toNat)) = if x.ult y then 1 else 0 := rfl

theorem shiftOf_eq_mod (y : Word) : shiftOf y = y.toNat % 32 := by simp [shiftOf, fld]

theorem zext16_shiftLeft (imm : BitVec 16) : zext16 imm <<< 16 = imm ++ (0 : BitVec 16) := by
  apply BitVec.eq_of_toNat_eq
  rw [BitVec.toNat_append]
  simp [zext16, Nat.shiftLeft_eq]
  omega

/-- The high word of the 64-bit product of signed words. -/
theorem mulh_eq_ofInt (x y : Word) :
    w32 (wrapI 64 (si x * si y) / 2 ^ 32) = BitVec.ofInt 32 (x.toInt * y.toInt / 2 ^ 32) := by
  apply BitVec.eq_of_toNat_eq
  simp only [w32, wrapI, si, BitVec.toNat_ofNat, BitVec.toNat_ofInt]
  generalize x.toInt * y.toInt = z
  omega

theorem min_eq_slt (x y : Word) : (if si x ≤ si y then x else y) = if y.slt x then y else x := by
  simp only [BitVec.slt_iff_toInt_lt]
  by_cases h : x.toInt ≤ y.toInt
  · rw [if_pos (c := si x ≤ si y) h, if_neg (not_lt.2 h)]
  · rw [if_neg (c := si x ≤ si y) h, if_pos (not_le.1 h)]

theorem max_eq_slt (x y : Word) : (if si x ≤ si y then y else x) = if x.slt y then y else x := by
  simp only [BitVec.slt_iff_toInt_lt]
  rcases lt_trichotomy x.toInt y.toInt with h | h | h
  · rw [if_pos (c := si x ≤ si y) h.le, if_pos h]
  · rw [BitVec.eq_of_toInt_eq h, ite_self, ite_self]
  · rw [if_neg (c := si x ≤ si y) (not_le.2 h), if_neg (not_lt.2 h.le)]

/-- The count of leading zeros below bit k, started at the zeros above it. -/
theorem clzAuxRec_eq_leadingZeros (x : Word) (k : Nat) (hk : k < 32) :
    x.clzAuxRec k = w32 (leadingZeros x (k + 1) + (31 - k)) := by
  induction k with
  | zero => rw [BitVec.clzAuxRec_zero, leadingZeros, bit]; split <;> rfl
  | succ k ih =>
    rw [BitVec.clzAuxRec_succ, leadingZeros, bit]
    split
    · rw [w32, Nat.zero_add]
    · rw [ih (by omega), show leadingZeros x (k + 1) + 1 + (31 - (k + 1)) = leadingZeros x (k + 1) + (31 - k) by omega]

theorem leadingZeros_eq_clz (x : Word) : w32 (leadingZeros x 32) = x.clz :=
  (clzAuxRec_eq_leadingZeros x 31 (by omega)).symm

/-! ### The obligations on general registers -/

/-- Settles O18: each writes one register, and its operation on words is the table's. -/
theorem registerArithmeticWritesItsResult : Obligations.RegisterArithmeticWritesItsResult := by
  intro l rd rs rt sh
  refine ⟨?add, ?sub, ?and, ?or, ?xor, ?nor, ?slt, ?sltu, ?sll, ?srl, ?sra, ?slli, ?srli, ?srai, ?mul, ?mulh, ?mulhu,
    ?min, ?max, ?clz⟩
  case add => exact writesG_of_regOp rfl fun _ => rfl
  case sub => exact writesG_of_regOp rfl fun _ => rfl
  case and => exact writesG_of_regOp rfl fun _ => rfl
  case or => exact writesG_of_regOp rfl fun _ => rfl
  case xor => exact writesG_of_regOp rfl fun _ => rfl
  case nor => exact writesG_of_regOp (f := fun x y => ~~~(x ||| y)) rfl fun _ => rfl
  case slt => exact writesG_of_regOp_eq boolWord_lt_eq_slt rfl fun _ => rfl
  case sltu => exact writesG_of_regOp_eq boolWord_lt_eq_ult rfl fun _ => rfl
  case sll => exact writesG_of_regOp_eq (fun x y => congrArg (x <<< ·) (shiftOf_eq_mod y)) rfl fun _ => rfl
  case srl => exact writesG_of_regOp_eq (fun x y => congrArg (x >>> ·) (shiftOf_eq_mod y)) rfl fun _ => rfl
  case sra => exact writesG_of_regOp_eq (fun x y => congrArg x.sshiftRight (shiftOf_eq_mod y)) rfl fun _ => rfl
  case slli => exact writesG_of_laneOp rfl fun _ => rfl
  case srli => exact writesG_of_laneOp rfl fun _ => rfl
  case srai => exact writesG_of_laneOp rfl fun _ => rfl
  case mul => exact writesG_of_regOp rfl fun _ => rfl
  case mulh => exact writesG_of_regOp_eq mulh_eq_ofInt rfl fun _ => rfl
  case mulhu => exact writesG_of_regOp (f := fun x y => w32 (x.toNat * y.toNat / 2 ^ 32)) rfl fun _ => rfl
  case min => exact writesG_of_regOp_eq min_eq_slt rfl fun _ => rfl
  case max => exact writesG_of_regOp_eq max_eq_slt rfl fun _ => rfl
  case clz => exact (writesG_of_laneOp rfl fun _ => rfl).congr fun _ ln => leadingZeros_eq_clz (getG rs ln)

end Sys2Proof.Machine
end

section
/-! PROOF. Vector registers: what the .H and .W views show of a vector built from elements (R151), and the instructions
that write one (R138, R151). -/

set_option Elab.async false

namespace Sys2Proof.Machine

open Sys2Proof

/-! ### Elements packed side by side -/

/-- `n` elements of `k` bits, the first one lowest. -/
def packed (k : Nat) (f : Nat → Nat) (n : Nat) : Nat := (List.range n).foldl (fun x i => x + f i * 2 ^ (k * i)) 0

theorem packed_succ (k : Nat) (f : Nat → Nat) (n : Nat) : packed k f (n + 1) = packed k f n + f n * 2 ^ (k * n) := by
  rw [packed, List.range_succ, List.foldl_append]
  rfl

theorem packed_lt {k : Nat} {f : Nat → Nat} (hf : ∀ i, f i < 2 ^ k) (n : Nat) : packed k f n < 2 ^ (k * n) := by
  induction n with
  | zero => exact Nat.two_pow_pos _
  | succ n ih =>
    calc packed k f (n + 1) = packed k f n + f n * 2 ^ (k * n) := packed_succ k f n
      _ < (f n + 1) * 2 ^ (k * n) := by rw [Nat.add_mul, one_mul, Nat.add_comm]; exact Nat.add_lt_add_left ih _
      _ ≤ 2 ^ k * 2 ^ (k * n) := Nat.mul_le_mul_right _ (hf n)
      _ = 2 ^ (k * (n + 1)) := by rw [← Nat.pow_add, Nat.mul_succ, Nat.add_comm]

/-- Each element reads back. -/
theorem packed_elem {k : Nat} {f : Nat → Nat} (hf : ∀ i, f i < 2 ^ k) {n i : Nat} (hi : i < n) :
    packed k f n / 2 ^ (k * i) % 2 ^ k = f i := by
  induction n with
  | zero => exact absurd hi (Nat.not_lt_zero i)
  | succ n ih =>
    rw [packed_succ]
    rcases Nat.lt_succ_iff_lt_or_eq.1 hi with hlt | rfl
    · obtain ⟨m, rfl⟩ : ∃ m, n = i + 1 + m := ⟨n - (i + 1), by omega⟩
      have hhigh : f (i + 1 + m) * 2 ^ (k * (i + 1 + m)) = 2 ^ (k * i) * (2 ^ k * (f (i + 1 + m) * 2 ^ (k * m))) := by
          ring
      rw [hhigh, Nat.add_mul_div_left _ _ (Nat.two_pow_pos _), Nat.add_mul_mod_self_left, ih hlt]
    · rw [Nat.add_mul_div_right _ _ (Nat.two_pow_pos _), Nat.div_eq_of_lt (packed_lt hf i), Nat.zero_add,
        Nat.mod_eq_of_lt (hf i)]

/-! ### The views of a vector built from elements -/

theorem vw_ofW (f : Nat → Word) {j : Nat} (hj : j < 4) : vw (ofW f) j = f j := by
  have hbound (i : Nat) : (f i).toNat < 2 ^ 32 := (f i).isLt
  have hsize : packed 32 (fun i => (f i).toNat) 4 < 2 ^ 128 := packed_lt hbound 4
  have hvec : (ofW f).toNat = packed 32 (fun i => (f i).toNat) 4 := (BitVec.toNat_ofNat _ _).trans (Nat.mod_eq_of_lt
      hsize)
  apply BitVec.eq_of_toNat_eq
  rw [vw, w32, hvec, BitVec.toNat_ofNat, packed_elem hbound hj]

theorem wrapI_lt (k : Nat) (x : Int) : wrapI k x < 2 ^ k := by
  have hpos : (0 : Int) < 2 ^ k := by positivity
  have hlt := Int.emod_lt_of_pos x hpos
  have hnn := Int.emod_nonneg x hpos.ne'
  rw [wrapI, Int.toNat_lt hnn]
  exact_mod_cast hlt

theorem sgn_wrapI {x : Int} (h : -2 ^ 15 ≤ x ∧ x < 2 ^ 15) : sgn 16 (wrapI 16 x) = x := by
  simp only [sgn, wrapI]
  omega

theorem sgn_mod (n : Nat) : sgn 16 (n % 2 ^ 16) = sgn 16 n := by
  rw [sgn, sgn, Nat.mod_mod]

theorem vh_ofH_wrapped (f : Nat → Int) {i : Nat} (hi : i < 8) : vh (ofH f) i = sgn 16 (wrapI 16 (f i)) := by
  have hbound (i : Nat) : wrapI 16 (f i) < 2 ^ 16 := wrapI_lt 16 (f i)
  have hsize : packed 16 (fun i => wrapI 16 (f i)) 8 < 2 ^ 128 := packed_lt hbound 8
  have hvec : (ofH f).toNat = packed 16 (fun i => wrapI 16 (f i)) 8 :=
    (BitVec.toNat_ofNat _ _).trans (Nat.mod_eq_of_lt hsize)
  rw [vh, ← sgn_mod, hvec, packed_elem hbound hi]

theorem vh_ofH (f : Nat → Int) {i : Nat} (hi : i < 8) (hf : -2 ^ 15 ≤ f i ∧ f i < 2 ^ 15) : vh (ofH f) i = f i := by
  rw [vh_ofH_wrapped f hi, sgn_wrapI hf]

/-! ### Elements in the range of .H -/

theorem fld_low4 (x : Word) : fld x 3 0 = x.toNat % 16 := by simp [fld]

theorem fld_low5 (x : Word) : fld x 4 0 = x.toNat % 32 := by simp [fld]

theorem vh_range (v : VWord) (i : Nat) : -2 ^ 15 ≤ vh v i ∧ vh v i < 2 ^ 15 := by
  simp only [vh, sgn]
  generalize v.toNat / 2 ^ (16 * i) = n
  split <;> omega

theorem satS_range (x : Int) : -2 ^ 15 ≤ satS 16 x ∧ satS 16 x < 2 ^ 15 := by
  simp only [satS]
  omega

/-- Rounding down by a shift moves an element towards 0, so it stays in range. -/
theorem rnd_range {x : Int} (h : -2 ^ 15 ≤ x ∧ x < 2 ^ 15) (n : Nat) : -2 ^ 15 ≤ rnd x n ∧ rnd x n < 2 ^ 15 := by
  rw [rnd]
  split
  · exact h
  · next hn =>
    obtain ⟨m, rfl⟩ := Nat.exists_eq_succ_of_ne_zero hn
    have hpos : (0 : Int) < 2 ^ m := by positivity
    rw [Nat.succ_sub_one, show (2 : Int) ^ m.succ = 2 ^ m * 2 from pow_succ 2 m]
    generalize (2 : Int) ^ m = p at hpos
    obtain ⟨hlo, hhi⟩ := h
    constructor
    · rw [Int.le_ediv_iff_mul_le (by omega)]; nlinarith
    · rw [Int.ediv_lt_iff_lt_mul (by omega)]; nlinarith

/-! ### Instructions that write a vector register -/

/-- A lane operation that sets vd and retires writes vd, and leaves everything else. -/
theorem writesV_of_laneOp {c : Instr} {l m : Lane} {v w : Word} {vd : VReg} {x : LaneState → VWord} {s : State}
    (hword : laneWord c = some (l, v)) (hw : laneWord c = some (m, w)) (hissue : laneIssues m w s = true)
    (hexec : exec c s = .next (laneOp l v (fun ln => setV vd (x ln) ln) s)) :
    ∃ t : State, exec c s = .next t ∧ onlyLane m s t ∧ (lane m t).pc = (lane m s).pc + 4 ∧
      getV vd (lane m t) = x (lane m s) ∧
      (∀ r : VReg, r ≠ vd → getV r (lane m t) = getV r (lane m s)) ∧ (lane m t).g = (lane m s).g := by
  obtain ⟨rfl, rfl⟩ : l = m ∧ v = w := by simpa [hword] using hw
  refine ⟨_, hexec, ?_⟩
  rw [laneOp_taken _ _ _ _ hissue, onlyLane, lane_setLane]
  refine ⟨rfl, by simp, by simp [getV_setV], fun r hr => ?_, by simp⟩
  rw [getV_retire, getV_setV, if_neg (Fin.val_ne_of_ne hr)]

theorem writesW_of_laneOp {c : Instr} {l : Lane} {v : Word} {vd : VReg} {x : State → LaneState → VWord}
    {g : State → LaneState → Nat → Word} (hx : ∀ s ln, ∀ j < 4, vw (x s ln) j = g s ln j)
    (hword : laneWord c = some (l, v))
    (hexec : ∀ s, exec c s = .next (laneOp l v (fun ln => setV vd (x s ln) ln) s)) : writesW c vd g := by
  intro m w s hw hissue
  obtain ⟨t, ht, honly, hpc, hvd, hrest⟩ := writesV_of_laneOp hword hw hissue (hexec s)
  exact ⟨t, ht, honly, hpc, fun j => by rw [hvd, hx s _ j j.isLt], hrest⟩

theorem writesH_of_laneOp {c : Instr} {l : Lane} {v : Word} {vd : VReg} {x : LaneState → VWord}
    {g : LaneState → Nat → Int} (hx : ∀ ln, ∀ i < 8, vh (x ln) i = g ln i)
    (hword : laneWord c = some (l, v))
    (hexec : ∀ s, exec c s = .next (laneOp l v (fun ln => setV vd (x ln) ln) s)) : writesH c vd g := by
  intro m w s hw hissue
  obtain ⟨t, ht, honly, hpc, hvd, hrest⟩ := writesV_of_laneOp hword hw hissue (hexec s)
  exact ⟨t, ht, honly, hpc, fun i => by rw [hvd, hx _ i i.isLt], hrest⟩

/-- An instruction that maps words to words writes the mapped words. -/
theorem writesW_of_mapW {c : Instr} {l : Lane} {op fn : Nat} {vd vs vt : VReg} {f : Word → Word → Word → Word}
    {g : State → LaneState → Nat → Word} (hword : laneWord c = some (l, encV op fn vd vs vt 0 0))
    (hexec : ∀ s, exec c s = .next (vecOp op fn l vd vs vt (mapW f) s))
    (hg : ∀ s ln j, f (vw (getV vd ln) j) (vw (getV vs ln) j) (vw (getV vt ln) j) = g s ln j) : writesW c vd g :=
  writesW_of_laneOp (x := fun _ ln => mapW f (getV vd ln) (getV vs ln) (getV vt ln))
    (fun s ln j hj => (vw_ofW _ hj).trans (hg s ln j)) hword hexec

/-- An instruction that maps .H elements to .H elements in their range writes the mapped elements. -/
theorem writesH_of_mapH {c : Instr} {l : Lane} {op fn : Nat} {vd vs vt : VReg} {f : Int → Int → Int → Int}
    {g : LaneState → Nat → Int} (hword : laneWord c = some (l, encV op fn vd vs vt 0 0))
    (hexec : ∀ s, exec c s = .next (vecOp op fn l vd vs vt (mapH f) s))
    (hg : ∀ ln i, f (vh (getV vd ln) i) (vh (getV vs ln) i) (vh (getV vt ln) i) = g ln i)
    (hf : ∀ d a b : Int, -2 ^ 15 ≤ a ∧ a < 2 ^ 15 → -2 ^ 15 ≤ b ∧ b < 2 ^ 15 → -2 ^ 15 ≤ f d a b ∧ f d a b < 2 ^ 15) :
    writesH c vd g :=
  writesH_of_laneOp (fun ln i hi => (vh_ofH _ hi (hf _ _ _ (vh_range _ _) (vh_range _ _))).trans (hg ln i)) hword hexec

end Sys2Proof.Machine
end

section
/-! PROOF. Immediates, queries and moves (R146, R156, R164, R167), the fixed-point and FP32 vector instructions
(R151-R154) and the complex ones (R155). -/

set_option Elab.async false

namespace Sys2Proof.Machine

open Sys2Proof

/-- The low half of a word, as a signed number. -/
theorem sgn_low16 (x : Word) : sgn 16 (wrapI 16 (fld x 15 0)) = (x.setWidth 16).toInt := by
  have hlow : wrapI 16 (fld x 15 0) % 2 ^ 16 = x.toNat % 2 ^ 16 := by simp only [wrapI, fld]; omega
  rw [sgn, BitVec.toInt, BitVec.toNat_setWidth, hlow]
  by_cases h : x.toNat % 2 ^ 16 < 2 ^ 15
  · exact (if_pos h).trans (if_pos (by omega)).symm
  · exact (if_neg h).trans (if_neg (by omega)).symm

/-- Settles O20: the immediates and queries write one general register, and the moves one register of either file. -/
theorem immediatesQueriesAndMovesWriteTheirResult : Obligations.ImmediatesQueriesAndMovesWriteTheirResult := by
  refine ⟨fun l rd rs imm => ?immediates, fun l vd vs gr k => ?moves⟩
  case immediates =>
    refine ⟨?addi, ?andi, ?ori, ?xori, ?slti, ?sltiu, ?lui, ?step, ?time, ?laneq⟩
    case addi => exact writesG_of_laneOp rfl fun _ => rfl
    case andi => exact writesG_of_laneOp rfl fun _ => rfl
    case ori => exact writesG_of_laneOp rfl fun _ => rfl
    case xori => exact writesG_of_laneOp rfl fun _ => rfl
    case slti =>
      exact (writesG_of_laneOp rfl fun _ => rfl).congr fun _ ln => boolWord_lt_eq_slt (getG rs ln) (sext16 imm)
    case sltiu =>
      exact (writesG_of_laneOp rfl fun _ => rfl).congr fun _ ln => boolWord_lt_eq_ult (getG rs ln) (sext16 imm)
    case lui => exact (writesG_of_laneOp rfl fun _ => rfl).congr fun _ _ => zext16_shiftLeft imm
    case step => exact writesG_of_laneOp rfl fun _ => rfl
    case time => exact writesG_of_laneOp rfl fun _ => rfl
    case laneq => exact writesG_of_laneOp rfl fun _ => rfl
  case moves =>
    refine ⟨?vmov, ?toVector, ?toGeneral, ?extract, ?splatH, ?splatW⟩
    case vmov => exact writesW_of_laneOp (fun _ _ _ _ => rfl) rfl fun _ => rfl
    case toVector => exact writesW_of_laneOp (fun _ _ _ hj => vw_ofW _ hj) rfl fun _ => rfl
    case toGeneral => exact writesG_of_laneOp rfl fun _ => rfl
    case extract => exact (writesG_of_laneOp rfl fun _ => rfl).congr fun _ ln => w32_wrapI (vh (getV vs ln) k.toNat)
    case splatH =>
      exact writesH_of_laneOp (fun ln i hi => (vh_ofH_wrapped _ hi).trans (sgn_low16 (getG gr ln))) rfl fun _ => rfl
    case splatW => exact writesW_of_laneOp (fun _ _ _ hj => vw_ofW _ hj) rfl fun _ => rfl

/-- Settles O22: each maps elements to elements, and what it gives an element lies in that element's range. -/
theorem fixedPointInstructionsWriteEveryElement : Obligations.FixedPointInstructionsWriteEveryElement := by
  intro l vd vs vt gr
  refine ⟨?add, ?sub, ?mul, ?mac, ?shr, ?shl, ?abs, ?max, ?min, ?narrow, ?dot, ?addW, ?subW⟩
  case add => exact writesH_of_mapH rfl (fun _ => rfl) (fun _ _ => rfl) fun _ _ _ _ _ => satS_range _
  case sub => exact writesH_of_mapH rfl (fun _ => rfl) (fun _ _ => rfl) fun _ _ _ _ _ => satS_range _
  case mul => exact writesH_of_mapH rfl (fun _ => rfl) (fun _ _ => rfl) fun _ _ _ _ _ => satS_range _
  case mac => exact writesH_of_mapH rfl (fun _ => rfl) (fun _ _ => rfl) fun _ _ _ _ _ => satS_range _
  case shr =>
    refine writesH_of_laneOp (x := fun ln => ofH fun i => rnd (vh (getV vs ln) i) (fld (getG gr ln) 3 0))
      (fun ln i hi => ?_) rfl fun _ => rfl
    rw [vh_ofH _ hi, fld_low4]
    exact rnd_range (vh_range _ _) _
  case shl =>
    refine writesH_of_laneOp (fun ln i hi => ?_) rfl fun _ => rfl
    rw [vh_ofH _ hi (satS_range _), fld_low4, sat16]
  case abs =>
    exact writesH_of_mapH (vt := 0) (f := fun _ a _ => sat16 a.natAbs) rfl (fun _ => rfl) (fun _ _ => rfl)
      fun _ _ _ _ _ => satS_range _
  case max => exact writesH_of_mapH rfl (fun _ => rfl) (fun _ _ => rfl) fun _ _ _ ha hb => by omega
  case min => exact writesH_of_mapH rfl (fun _ => rfl) (fun _ _ => rfl) fun _ _ _ ha hb => by omega
  case narrow =>
    refine writesH_of_laneOp (fun ln i hi => ?_) rfl fun _ => rfl
    rw [narrowH, vh_ofH _ hi (satS_range _), fld_low5, sat16, apply_ite si]
    rfl
  case dot =>
    refine writesW_of_laneOp (fun _ ln j hj => ?_) rfl fun _ => rfl
    rw [dotH, vw_ofW _ hj, w32_wrapI]
    rfl
  case addW => exact writesW_of_mapW rfl (fun _ => rfl) fun _ _ _ => rfl
  case subW => exact writesW_of_mapW rfl (fun _ => rfl) fun _ _ _ => rfl

/-- Settles O23: each maps words to words. -/
theorem floatInstructionsWriteEveryElement : Obligations.FloatInstructionsWriteEveryElement := by
  intro l vd vs vt
  refine ⟨?add, ?sub, ?mul, ?fma, ?fms, ?min, ?max, ?abs, ?neg, ?ofInt, ?toInt, ?sqrt, ?less, fun x y hx hy => ?nan⟩
  case add => exact writesW_of_mapW rfl (fun _ => rfl) fun _ _ _ => rfl
  case sub => exact writesW_of_mapW rfl (fun _ => rfl) fun _ _ _ => rfl
  case mul => exact writesW_of_mapW rfl (fun _ => rfl) fun _ _ _ => rfl
  case fma => exact writesW_of_mapW rfl (fun _ => rfl) fun _ _ _ => rfl
  case fms => exact writesW_of_mapW rfl (fun _ => rfl) fun _ _ _ => rfl
  case min => exact writesW_of_mapW rfl (fun _ => rfl) fun _ _ _ => rfl
  case max => exact writesW_of_mapW rfl (fun _ => rfl) fun _ _ _ => rfl
  case abs => exact writesW_of_mapW (vt := 0) rfl (fun _ => rfl) fun _ _ _ => rfl
  case neg => exact writesW_of_mapW (vt := 0) rfl (fun _ => rfl) fun _ _ _ => rfl
  case ofInt => exact writesW_of_mapW (vt := 0) rfl (fun _ => rfl) fun _ _ _ => rfl
  case toInt => exact writesW_of_mapW (vt := 0) rfl (fun _ => rfl) fun _ _ _ => rfl
  case sqrt => exact writesW_of_mapW (vt := 0) rfl (fun _ => rfl) fun _ _ _ => rfl
  case less => exact writesW_of_mapW rfl (fun _ => rfl) fun _ _ _ => rfl
  case nan => simp [fMin, fMax, fMinMax, fLess, hx, hy]

/-! ### Complex products and butterflies (R155) -/

/-- The word of an issued instruction is legal. -/
theorem legalWord_of_issues {l : Nat} {w : Word} {s : State} (h : laneIssues l w s = true) : legalWord w = true := by
  simp only [laneIssues, Bool.and_eq_true] at h
  exact h.2

/-- A legal word of a butterfly that writes a pair names an even register first. -/
theorem pair_even_of_legal {fn vd vs vt imm : Nat} (hfn : fn = 3 ∨ fn = 5 ∨ fn = 6) (hvd : vd < 16) (hvs : vs < 16)
    (hvt : vt < 16) (himm : imm < 8) (h : legalWord (encV 0x23 fn vd vs vt 0 imm) = true) : vd % 2 = 0 := by
  obtain ⟨fop, fvd, fvs, -, -, -, ffn⟩ :=
    fields_encV (op := 0x23) (fn := fn) (gr := 0) (by decide) (by omega) hvd hvs hvt (by decide) himm
  rcases hfn with rfl | rfl | rfl
  all_goals simp_all [legalWord, legalV]

theorem getV_setPair (r vd : Nat) (x y : VWord) (ln : LaneState) :
    getV r (setPair vd x y ln) = if r = vd + 1 then y else if r = vd then x else getV r ln := by
  rw [setPair, getV_setV, getV_setV]

/-- A butterfly writes its pair of registers, the first of which is even, and leaves everything else. -/
theorem writesPair_of_laneOp {c : Instr} {l : Lane} {w : Word} {vd : VReg} {x y : LaneState → VWord} {s : State}
    (hissue : laneIssues l w s = true) (heven : vd.val % 2 = 0)
    (hexec : exec c s = .next (laneOp l w (fun ln => setPair vd (x ln) (y ln) ln) s)) :
    ∃ t : State, exec c s = .next t ∧ onlyLane l s t ∧ (lane l t).pc = (lane l s).pc + 4 ∧
      getV vd (lane l t) = x (lane l s) ∧ getV (vd + 1) (lane l t) = y (lane l s) ∧
      (∀ r : VReg, r ≠ vd → r ≠ vd + 1 → getV r (lane l t) = getV r (lane l s)) ∧ (lane l t).g = (lane l s).g := by
  have hnext : (vd + 1).val = vd.val + 1 := by omega
  refine ⟨_, hexec, ?_⟩
  rw [laneOp_taken _ _ _ _ hissue, onlyLane, lane_setLane]
  refine ⟨rfl, rfl, by simp [getV_setPair], by simp [getV_setPair], fun r hr hr' => ?_, rfl⟩
  rw [getV_retire, getV_setPair, if_neg (hnext ▸ Fin.val_ne_of_ne hr'), if_neg (Fin.val_ne_of_ne hr)]

theorem vh_cmulH (d a b : VWord) {i : Nat} (hi : i < 8) :
    vh (cmulH false d a b) i = let e := i / 2 * 2
      satS 16 ((if i % 2 = 0 then vh a e * vh b e - vh a (e + 1) * vh b (e + 1) + 2 ^ 14
        else vh a e * vh b (e + 1) + vh a (e + 1) * vh b e + 2 ^ 14) / 2 ^ 15) := by
  rw [cmulH, vh_ofH _ hi (satS_range _)]
  simp only [Nat.mul_comm 2, sat16, q15, rnd, Bool.false_eq_true, if_false, ite_add]
  rfl

/-- Conjugating t changes the sign of its imaginary part. -/
theorem vh_cmulH_conj (d a b : VWord) {i : Nat} (hi : i < 8) :
    vh (cmulH true d a b) i = let e := i / 2 * 2
      satS 16 ((if i % 2 = 0 then vh a e * vh b e + vh a (e + 1) * vh b (e + 1) + 2 ^ 14
        else vh a (e + 1) * vh b e - vh a e * vh b (e + 1) + 2 ^ 14) / 2 ^ 15) := by
  rw [cmulH, vh_ofH _ hi (satS_range _)]
  simp only [Nat.mul_comm 2, sat16, q15, rnd, if_true, ite_add, mul_neg, sub_neg_eq_add, neg_add_eq_sub]
  rfl

theorem vw_cmulF (d a b : VWord) {j : Nat} (hj : j < 4) :
    vw (cmulF d a b) j = let e := j / 2 * 2
      if j % 2 = 0 then fFma (vw a e) (vw b e) (fMul (vw a (e + 1)) (vw b (e + 1)) ^^^ 0x80000000)
      else fFma (vw a e) (vw b (e + 1)) (fMul (vw a (e + 1)) (vw b e)) := by
  rw [cmulF, vw_ofW _ hj]
  simp only [Nat.mul_comm 2]

/-- Settles O24: each product maps pairs of elements to pairs, and each butterfly writes a pair of registers, of which a
legal word names the even one. -/
theorem complexInstructionsWriteTheirPairs : Obligations.ComplexInstructionsWriteTheirPairs := by
  intro l vd vs vt k
  refine ⟨?cmul, ?cmulj, ?cmulF, ?bf4H, fun w s hword hissue => ?bf2H, fun w s hword hissue => ?bf2F,
    fun w s hword hissue => ?bf4F⟩
  case cmul => exact writesH_of_laneOp (fun _ _ hi => vh_cmulH _ _ _ hi) rfl fun _ => rfl
  case cmulj => exact writesH_of_laneOp (fun _ _ hi => vh_cmulH_conj _ _ _ hi) rfl fun _ => rfl
  case cmulF => exact writesW_of_laneOp (fun _ _ _ hj => vw_cmulF _ _ _ hj) rfl fun _ => rfl
  case bf4H => exact writesH_of_laneOp (fun _ _ hi => vh_ofH _ hi (satS_range _)) rfl fun _ => rfl
  case bf2H =>
    cases hword
    have heven := pair_even_of_legal (.inl rfl) vd.isLt vs.isLt vt.isLt k.isLt (legalWord_of_issues hissue)
    obtain ⟨t, ht, honly, hpc, hx, hy, hrest⟩ := writesPair_of_laneOp (c := .vbf2H l vd vs vt k) hissue heven rfl
    exact ⟨t, ht, honly, hpc, fun i => ⟨by rw [hx, vh_ofH _ i.isLt (satS_range _)]; rfl,
      by rw [hy, vh_ofH _ i.isLt (satS_range _)]; rfl, hrest⟩⟩
  case bf2F =>
    cases hword
    have heven := pair_even_of_legal (imm := 0) (.inr (.inl rfl)) vd.isLt vs.isLt vt.isLt (by decide)
      (legalWord_of_issues hissue)
    obtain ⟨t, ht, honly, hpc, hx, hy, hrest⟩ := writesPair_of_laneOp (c := .vbf2F l vd vs vt) hissue heven rfl
    exact ⟨t, ht, honly, hpc, fun j => ⟨by rw [hx, vw_ofW _ j.isLt], by rw [hy, vw_ofW _ j.isLt], hrest⟩⟩
  case bf4F =>
    cases hword
    have heven := pair_even_of_legal (vt := 0) (imm := 0) (.inr (.inr rfl)) vd.isLt vs.isLt (by decide) (by decide)
      (legalWord_of_issues hissue)
    obtain ⟨t, ht, honly, hpc, hx, hy, hrest⟩ := writesPair_of_laneOp (c := .vbf4F l vd vs) hissue heven rfl
    exact ⟨t, ht, honly, hpc, fun j => ⟨by rw [hx, vw_ofW _ j.isLt], by rw [hy, vw_ofW _ j.isLt], hrest⟩⟩

end Sys2Proof.Machine
end

section
/-! PROOF. Jumps and branches (R144, R150). -/

set_option Elab.async false

namespace Sys2Proof.Machine

open Sys2Proof

@[simp] theorem jumpTo_pc (target : Word) (ln : LaneState) : (jumpTo target ln).pc = target := rfl
@[simp] theorem jumpTo_g (target : Word) (ln : LaneState) : (jumpTo target ln).g = ln.g := rfl
@[simp] theorem jumpTo_v (target : Word) (ln : LaneState) : (jumpTo target ln).v = ln.v := rfl
@[simp] theorem getG_jumpTo (r : Nat) (target : Word) (ln : LaneState) : getG r (jumpTo target ln) = getG r ln := rfl

/-- The register file after a link register is written. -/
theorem getG_link (r rd : GReg) (v target : Word) (ln : LaneState) :
    getG r (jumpTo target (setG rd v ln)) = if r = rd ∧ r ≠ 0 then v else getG r ln := by
  rw [getG_jumpTo, getG_setG]
  simp only [Fin.ext_iff, ne_eq, Fin.val_zero]

/-- A conditional branch that issues continues at its target or at the next instruction, and changes nothing else. -/
theorem branchOp_taken {op : Nat} {l : Lane} {rs : GReg} {off : BitVec 21} {taken : Word → Bool} {p : Prop} {s : State}
    (hissue : laneIssues l (encB op rs off.toNat) s = true) (hp : taken (getG rs (lane l s)) = true ↔ p) :
    ∃ t : State, Host.Outcome.next (branchOp op l rs off taken s) = (.next t : Out) ∧ onlyLane l s t ∧
      (p → (lane l t).pc = (lane l s).pc + off.signExtend 32 * 4) ∧ (¬ p → (lane l t).pc = (lane l s).pc + 4) ∧
      (lane l t).g = (lane l s).g ∧ (lane l t).v = (lane l s).v := by
  refine ⟨_, rfl, ?_⟩
  rw [branchOp, issue_taken _ _ _ _ hissue, onlyLane, lane_setLane]
  by_cases h : p
  · simp [h, hp.2 h, branchTarget]
  · simp [h, mt hp.1 h]

/-- A jump through a register that holds a multiple of 4. -/
theorem jumpReg_aligned {l : Lane} {w : Word} {rs : GReg} {f : LaneState → LaneState} {s : State}
    (hissue : laneIssues l w s = true) (h : (getG rs (lane l s)).toNat % 4 = 0) :
    jumpReg l w rs f s = setLane l (jumpTo (getG rs (lane l s)) (f (lane l s))) s := by
  rw [jumpReg, issue_taken _ _ _ _ hissue]
  simp [h]

/-- A jump through a register that holds no multiple of 4 faults at that address. -/
theorem jumpReg_misaligned {l : Lane} {w : Word} {rs : GReg} {f : LaneState → LaneState} {s : State}
    (hissue : laneIssues l w s = true) (h : (getG rs (lane l s)).toNat % 4 ≠ 0) :
    jumpReg l w rs f s = faultAt l 3 (getG rs (lane l s)) s := by
  rw [jumpReg, issue_taken _ _ _ _ hissue]
  simp [h]

/-- A fault of the instruction that issues does what R132 says. -/
theorem faults_faultAt (l : Lane) (cause : Nat) (faddr : Word) (s : State) :
    faults l cause faddr 0 s (faultAt l cause faddr s) := faults_laneFault l cause faddr 0 _ s

/-- Settles O21: a branch and a jump write the program counter of their lane, and the link register with it. -/
theorem jumpsAndBranchesContinueAtTheirTarget : Obligations.JumpsAndBranchesContinueAtTheirTarget := by
  intro l rd rs off w s hissue
  refine ⟨?branch, fun hword => ?j, fun hword hal => ?jr, fun hword hal => ?jalr, fun hmis => ?misaligned⟩
  case branch =>
    simp only [List.forall_mem_cons, List.not_mem_nil, false_implies, implies_true, and_true]
    refine ⟨fun hword => ?_, fun hword => ?_, fun hword => ?_, fun hword => ?_, fun hword => ?_, fun hword => ?_⟩ <;>
      cases hword
    · exact branchOp_taken hissue (by simp [← BitVec.toInt_inj])
    · exact branchOp_taken hissue (by simp [← BitVec.toInt_inj])
    · exact branchOp_taken hissue decide_eq_true_iff
    · exact branchOp_taken hissue decide_eq_true_iff
    · exact branchOp_taken hissue decide_eq_true_iff
    · exact branchOp_taken hissue decide_eq_true_iff
  case j =>
    cases hword
    refine ⟨_, congrArg Host.Outcome.next (issue_taken _ _ _ _ hissue), ?_⟩
    rw [onlyLane, lane_setLane]
    exact ⟨rfl, rfl, by simp, fun r => getG_link r rs _ _ _⟩
  case jr =>
    cases hword
    refine ⟨_, congrArg Host.Outcome.next (jumpReg_aligned hissue hal), ?_⟩
    rw [onlyLane, lane_setLane]
    exact ⟨rfl, rfl, rfl, rfl⟩
  case jalr =>
    cases hword
    refine ⟨_, congrArg Host.Outcome.next (jumpReg_aligned hissue hal), ?_⟩
    rw [onlyLane, lane_setLane]
    exact ⟨rfl, rfl, by simp, fun r => getG_link r rd _ _ _⟩
  case misaligned =>
    simp only [List.forall_mem_cons, List.not_mem_nil, false_implies, implies_true, and_true]
    constructor <;> intro hword <;> cases hword
    · exact ⟨_, congrArg Host.Outcome.next (jumpReg_misaligned hissue hmis), faults_faultAt ..⟩
    · exact ⟨_, congrArg Host.Outcome.next (jumpReg_misaligned hissue hmis), faults_faultAt ..⟩

end Sys2Proof.Machine
end

section
/-! PROOF. Loads and stores of a lane (R110-R112, R128, R147, R148, R156). -/

set_option Elab.async false

namespace Sys2Proof.Machine

open Sys2Proof

/-! ### What a memory's answer leaves in the registers (R112, R453) -/

theorem district_of_local {a : Nat} {s : State} (h : regionOf a s = .laneLocal) :
    (a - laneBase) / 0x10000 / 16 < 2 ^ 24 := by
  unfold regionOf at h
  split_ifs at h
  omega

theorem district_of_shared {a : Nat} {s : State} (h : regionOf a s = .districtMem) :
    (a - districtBase) / 0x80000 < 2 ^ 24 := by
  unfold regionOf at h
  split_ifs at h
  omega

/-- A register that counts no memory error and holds no memory cause is as it was. -/
theorem rg_noteAnswer_other {r i : Nat} (a : Nat) (ans : MemAnswer) (s : State) (hr : r < FLT_SEL) (hi : i < 2 ^ 24)
    (hecc : r ≠ LNC_DST_ECC) (hdst : r ≠ LNC_DST_CAUSE) (hcnt : r ≠ MEM_CNT) (hmem : r ≠ MEM_CAUSE) :
    rg r i (noteAnswer a ans s) = rg r i s := by
  have bumped {r' j hi' lo : Nat} (hne : r ≠ r') (hj : j < 2 ^ 24) : rg r i (bump r' j hi' lo s) = rg r i s :=
    rg_bump_other (rkey_ne_of_lt hne hi hj)
  have caused {r' j b : Nat} (t : State) (hne : r ≠ r') (hj : j < 2 ^ 24) : rg r i (setCause r' j b t) = rg r i t :=
    rg_setCause_other (rkey_ne_of_lt hne hi hj) (rkey_lt_collector hr hi)
  unfold noteAnswer
  extract_lets dst ch
  have hdstEq (d : Nat) (hd : d < 2 ^ 24) : rg r i (dst d) = rg r i s := by
    cases ans
    · rfl
    · exact bumped hecc hd
    · exact (caused _ hdst hd).trans (bumped hecc hd)
    · rfl
  have hchEq (c : Nat) (hc : c < 2 ^ 24) : rg r i (ch c) = rg r i s := by
    cases ans
    · rfl
    · exact bumped hcnt hc
    · exact (caused _ hmem hc).trans (bumped hcnt hc)
    · exact caused _ hmem hc
  split
  · next h => exact hdstEq _ (district_of_local h)
  · next h => exact hdstEq _ (district_of_shared h)
  · exact hchEq 0 (by decide)
  · exact hchEq 1 (by decide)
  · exact hchEq _ (by split <;> decide)
  · rfl

theorem rg_noteRef_other {r i : Nat} (x : LaneRef) (ans : MemAnswer) (s : State) (hr : r < FLT_SEL) (hi : i < 2 ^ 24)
    (hecc : r ≠ LNC_DST_ECC) (hdst : r ≠ LNC_DST_CAUSE) (hcnt : r ≠ MEM_CNT) (hmem : r ≠ MEM_CAUSE) :
    rg r i (noteRef x ans s) = rg r i s := by
  cases x with
  | localMem | districtMem | aperture => exact rg_noteAnswer_other _ _ s hr hi hecc hdst hcnt hmem
  | fault => rfl

/-- A fault after what the memory reported is a fault of the state before it. -/
theorem faults_faultAt_noteRef (l : Lane) (cause : Nat) (faddr : Word) (r : LaneRef) (ans : MemAnswer) (s : State) :
    faults l cause faddr 0 s (faultAt l cause faddr (noteRef r ans s)) := by
  have hl : l.val < 2 ^ 24 := by omega
  have h := faults_faultAt l cause faddr (noteRef r ans s)
  have hcnt : rgF LNC_LANE_CNT_FAULT l 31 0 (noteRef r ans s) = rgF LNC_LANE_CNT_FAULT l 31 0 s := by
    rw [rgF, rg_noteRef_other r ans s (by decide) hl (by decide) (by decide) (by decide) (by decide), ← rgF]
  unfold faults at h
  rw [hcnt] at h
  obtain ⟨x, q, hx⟩ := noteRef_frame r ans s
  rw [hx] at h ⊢
  exact h

/-! ### Loads (R147, R156) -/

/-- What a read finds is found without a change of any lane. -/
theorem lane_laneSees (l : Nat) (r : LaneRef) (m : Nat) (s : State) : lane m (laneSees l r s).1 = lane m s := by
  unfold laneSees
  cases r with
  | districtMem a =>
    dsimp only
    split
    · rfl
    · dsimp only [performSome]
      split <;> rfl
  | _ => rfl

theorem lane_noteRef (r : LaneRef) (ans : MemAnswer) (m : Nat) (s : State) : lane m (noteRef r ans s) = lane m s := by
  obtain ⟨x, q, hx⟩ := noteRef_frame r ans s
  rw [hx]; rfl

/-- An aligned load that its address or its memory refuses faults with that cause. -/
theorem loadOp_refused {l : Nat} {w addr : Word} {len c : Nat} {ans : MemAnswer} {f : Bytes → LaneState → LaneState}
    {s : State} (h : laneIssues l w s = true) (ha : addr.toNat % len = 0)
    (hr : answerCause (laneRef l addr len false s) ans s = some c) :
    loadOp l w addr len ans f s = faultAt l c addr (noteRef (laneRef l addr len false s) ans s) := by
  unfold loadOp
  rw [issue_taken _ _ _ _ h]
  simp [ha, hr]

/-- A load that is not served faults, and nothing else of it happens. -/
theorem loadOp_faults {c : Instr} {l : Lane} {w addr : Word} {len : Nat} {ans : MemAnswer}
    {f : Bytes → LaneState → LaneState} {s : State} (hexec : exec c s = .next (loadOp l w addr len ans f s))
    (h : laneIssues l w s = true) :
    (addr.toNat % len ≠ 0 → ∃ t : State, exec c s = .next t ∧ faults l 3 addr 0 s t) ∧
      (addr.toNat % len = 0 → ∀ n : Nat, answerCause (laneRef l addr len false s) ans s = some n →
        ∃ t : State, exec c s = .next t ∧ faults l n addr 0 s t) := by
  constructor
  · intro ha
    rw [loadOp_misaligned _ _ _ _ _ _ _ h ha] at hexec
    exact ⟨_, hexec, faults_faultAt ..⟩
  · intro ha n hn
    rw [loadOp_refused h ha hn] at hexec
    exact ⟨_, hexec, faults_faultAt_noteRef ..⟩

/-- A load that is served changes its lane only, in which it writes what `f` makes of the bytes and moves on. -/
theorem loadOp_loads {c : Instr} {l : Lane} {w addr : Word} {len : Nat} {ans : MemAnswer}
    {f : Bytes → LaneState → LaneState} {s : State} (hexec : exec c s = .next (loadOp l w addr len ans f s))
    (h : laneIssues l w s = true) (ha : addr.toNat % len = 0)
    (hr : answerCause (laneRef l addr len false s) ans s = none) :
    let r := laneRef l addr len false s
    let v := laneSees l r (noteRef r ans s)
    ∃ t : State, exec c s = .next t ∧ onlyLane l v.1 t ∧
      lane l t = retire (f (rdBytes r.addr len v.2) (lane l s)) := by
  intro r v
  have hlane : lane l v.1 = lane l s := (lane_laneSees ..).trans (lane_noteRef ..)
  refine ⟨setLane l (retire (f (rdBytes r.addr len v.2) (lane l v.1))) v.1, ?_, ?_⟩
  · rw [hexec, loadOp_served _ _ _ _ _ _ _ h ha hr]
  rw [onlyLane, lane_setLane, hlane]
  exact ⟨rfl, rfl⟩

/-- The loads of a general register (R147). -/
theorem loads_general {c : Instr} {l : Lane} {rt rs : GReg} {off : BitVec 16} {op len : Nat} {ext : Nat → Word}
    {ans : MemAnswer} {w : Word} {s : State} (hexec : exec c s = .next (loadG op l rt rs off len ext ans s))
    (hw : encI op rt rs off.toNat = w) (h : laneIssues l w s = true) :
    let r := laneRef l (effAddr l rs off s) len false s
    let v := laneSees l r (noteRef r ans s)
    ((effAddr l rs off s).toNat % len ≠ 0 →
      ∃ t : State, exec c s = .next t ∧ faults l 3 (effAddr l rs off s) 0 s t) ∧
    ((effAddr l rs off s).toNat % len = 0 → ∀ n : Nat, answerCause r ans s = some n →
      ∃ t : State, exec c s = .next t ∧ faults l n (effAddr l rs off s) 0 s t) ∧
    ((effAddr l rs off s).toNat % len = 0 → answerCause r ans s = none →
      ∃ t : State, exec c s = .next t ∧ onlyLane l v.1 t ∧ (lane l t).pc = (lane l s).pc + 4 ∧
        (∀ q : GReg, getG q (lane l t) = if q = rt ∧ q ≠ 0 then ext (rdLe r.addr len v.2) else getG q (lane l s)) ∧
        (lane l t).v = (lane l s).v) := by
  intro r v
  subst hw
  obtain ⟨hmis, hrefused⟩ := loadOp_faults hexec h
  refine ⟨hmis, hrefused, fun ha hr => ?_⟩
  obtain ⟨t, ht, honly, hlane⟩ := loadOp_loads hexec h ha hr
  refine ⟨t, ht, honly, ?_⟩
  rw [hlane]
  refine ⟨by simp, fun q => ?_, by simp⟩
  rw [getG_retire, getG_setG]
  simp only [Fin.ext_iff, ne_eq, Fin.val_zero]
  rfl

/-- Settles O25: each load is a load operation with its length and extension, and outside step mode a lane that is alone
with its stores sees memory as it stands. -/
theorem loadsReadTheAddressedBytes : Obligations.LoadsReadTheAddressedBytes := by
  refine ⟨fun l rt rs off vd k ans w s h => ⟨?general, fun hword => ?vector⟩, fun l r s hstep hown => ?sees⟩
  case general =>
    simp only [List.forall_mem_cons, List.not_mem_nil, false_implies, implies_true, and_true]
    refine ⟨fun hword => ?_, fun hword => ?_, fun hword => ?_, fun hword => ?_, fun hword => ?_⟩
    · exact loads_general (c := .lb l rt rs off ans) (ext := fun n => (BitVec.ofNat 8 n).signExtend 32) rfl
        (by simpa [laneWord] using hword) h
    · exact loads_general (c := .lbu l rt rs off ans) (ext := BitVec.ofNat 32) rfl (by simpa [laneWord] using hword) h
    · exact loads_general (c := .lh l rt rs off ans) (ext := fun n => (BitVec.ofNat 16 n).signExtend 32) rfl
        (by simpa [laneWord] using hword) h
    · exact loads_general (c := .lhu l rt rs off ans) (ext := BitVec.ofNat 32) rfl (by simpa [laneWord] using hword) h
    · exact loads_general (c := .lw l rt rs off ans) (ext := BitVec.ofNat 32) rfl (by simpa [laneWord] using hword) h
  case vector =>
    cases hword
    have hexec : exec (.vld l vd rs k ans) s = .next (loadOp l _ (vecAddr l rs k s) 16 ans
      (fun b ln => setV vd (BitVec.ofNat 128 (leVal b)) ln) s) := rfl
    obtain ⟨hmis, hrefused⟩ := loadOp_faults hexec h
    refine ⟨hmis, hrefused, fun ha hr => ?_⟩
    obtain ⟨t, ht, honly, hlane⟩ := loadOp_loads hexec h ha hr
    refine ⟨t, ht, honly, ?_⟩
    rw [hlane]
    refine ⟨by simp, fun q => ?_, by simp⟩
    rw [getV_retire, getV_setV]
    simp only [Fin.ext_iff]
    rfl
  case sees =>
    have hall : (flightsOf (l / 16) s).all (fun x => x.lane = l) = true := by
      rw [List.all_eq_true]
      intro x hx
      exact decide_eq_true (hown x (List.mem_of_mem_filter hx))
    rw [laneSees_settled l r s hall, laneView, if_neg (by simp [hstep])]

/-! ### Stores (R147, R156) -/

/-- What is read depends on memory only. -/
theorem rdByte_congr {s t : State} (h : s.mem = t.mem) (a : Nat) : rdByte a s = rdByte a t := by
  rw [rdByte, h, ← rdByte]

theorem rdBytes_congr {s t : State} (h : s.mem = t.mem) (a n : Nat) : rdBytes a n s = rdBytes a n t := by
  induction n generalizing a with
  | zero => rfl
  | succ n ih => rw [rdBytes, rdBytes, ih, rdByte_congr h]

/-- Where the bytes of a store that is not held in a step buffer go. -/
def storeAt (l : Nat) (r : LaneRef) (addr : Word) (d : Bytes) (edge : Nat) (s : State) : State :=
  match r with
  | .localMem _ => storeLocal l addr.toNat d s
  | .districtMem a => putFlight l edge a d s
  | r => wrBytes r.addr d s

/-- The store's bytes stand at its address, every other byte is as before, and of the lanes only the words that its own
has fetched ahead may change. -/
structure Stored (l a : Nat) (d : Bytes) (s t : State) : Prop where
  regs : t.regs = s.regs
  lanes : ∀ m, m ≠ l → lane m t = lane m s
  own : ∃ x, lane l t = { lane l s with stale := x }
  inside : rdBytes a d.length t = d
  outside : ∀ c, c < a ∨ a + d.length ≤ c → rdByte c t = rdByte c s

/-- Keeping fetched words changes what the lane has fetched ahead, and no other lane. -/
theorem lane_keepFetched (l a len : Nat) (s : State) :
    (∀ m, m ≠ l → lane m (keepFetched l a len s) = lane m s) ∧
      ∃ x, lane l (keepFetched l a len s) = { lane l s with stale := x } := by
  unfold keepFetched
  dsimp only
  split
  · exact ⟨fun _ _ => rfl, _, rfl⟩
  · refine forEach_keeps (fun t => (∀ m, m ≠ l → lane m t = lane m s) ∧ ∃ x, lane l t = { lane l s with stale := x })
      _ _ _ ?_ ⟨fun _ _ => rfl, _, rfl⟩
    rintro k - t ⟨hothers, x, hx⟩
    split
    · refine ⟨fun m hm => (lane_setLane_other _ _ _ _ hm).trans (hothers m hm), ?_⟩
      rw [lane_setLane, hx]
      exact ⟨_, rfl⟩
    · exact ⟨hothers, x, hx⟩

theorem stored_wrBytes (l a : Nat) (d : Bytes) (s : State) : Stored l a d s (wrBytes a d s) where
  regs := wrBytes_regs a d s
  lanes m _ := by rw [lane, wrBytes_lanes, ← lane]
  own := ⟨(lane l s).stale, by rw [lane, wrBytes_lanes, ← lane]⟩
  inside := rdBytes_wrBytes a d s
  outside c hc := rdByte_wrBytes_outside a c d s hc

/-- Bytes written over a state that differs from another in its lane's fetched words, districts and draws only. -/
theorem Stored.of_before {l a : Nat} {d : Bytes} {s s' t : State} (h : Stored l a d s' t) (hregs : s'.regs = s.regs)
    (hmem : s'.mem = s.mem) (hlanes : ∀ m, m ≠ l → lane m s' = lane m s)
    (hown : ∃ x, lane l s' = { lane l s with stale := x }) : Stored l a d s t where
  regs := h.regs.trans hregs
  lanes m hm := (h.lanes m hm).trans (hlanes m hm)
  own := by
    obtain ⟨x, hx⟩ := h.own
    obtain ⟨y, hy⟩ := hown
    exact ⟨x, by rw [hx, hy]⟩
  inside := h.inside
  outside c hc := (h.outside c hc).trans (rdByte_congr hmem c)

theorem addr_of_laneRef_local {l a len : Nat} {addr : Word} {write : Bool} {s : State}
    (h : laneRef l addr len write s = .localMem a) : a = localAddr l + addr.toNat := by
  simp only [laneRef, apertureRef] at h
  split_ifs at h
  exact (LaneRef.localMem.inj h).symm

theorem stored_storeLocal (l a : Nat) (d : Bytes) (s : State) :
    Stored l (localAddr l + a) d s (storeLocal l a d s) := by
  obtain ⟨hlanes, hown⟩ := lane_keepFetched l a d.length s
  obtain ⟨x, y, hk⟩ := keepFetched_frame l a d.length s
  exact (stored_wrBytes ..).of_before (by rw [hk]) (by rw [hk]) hlanes hown

theorem stored_storeAt {l edge : Nat} {addr : Word} {d : Bytes} {s u : State}
    (hr : ∀ c, laneRef l addr d.length true u ≠ .fault c) :
    Stored l (laneRef l addr d.length true u).addr d s (storeAt l (laneRef l addr d.length true u) addr d edge s) := by
  cases h : laneRef l addr d.length true u with
  | localMem a =>
    rw [LaneRef.addr, addr_of_laneRef_local h]
    exact stored_storeLocal ..
  | districtMem a => exact (stored_wrBytes ..).of_before rfl rfl (fun _ _ => rfl) ⟨_, rfl⟩
  | aperture a => exact stored_wrBytes ..
  | fault c => exact absurd h (hr c)

section
variable {l : Lane} {w addr : Word} {d : Bytes} {ans : MemAnswer} {s : State} (h : laneIssues l w s = true)
  (ha : addr.toNat % d.length = 0)
include h ha

theorem storeOp_unresolved {n : Nat} (hr : laneRef l addr d.length true s = .fault n) :
    storeOp l w addr d ans s = faultAt l n addr s := by
  unfold storeOp
  rw [issue_taken _ _ _ _ h]
  simp [ha, hr]

theorem storeOp_buffered (hb : isBuffered (laneRef l addr d.length true s) s = true) :
    storeOp l w addr d ans s = if stepRoom l 1 s = true then
      setLane l (retire (bufferWrite (.write (laneRef l addr d.length true s).addr d) (lane l s))) s
      else faultAt l 11 0 s := by
  unfold storeOp
  rw [issue_taken _ _ _ _ h]
  cases hr : laneRef l addr d.length true s <;> simp_all [isBuffered]

/-- A store that is not held is written at once, where its memory answers. -/
theorem storeOp_served (hr : answerCause (laneRef l addr d.length true s) ans s = none)
    (hb : isBuffered (laneRef l addr d.length true s) s = false) :
    storeOp l w addr d ans s =
      let r := laneRef l addr d.length true s
      let t := storeAt l r addr d s.mp.tclk (noteRef r ans s)
      setLane l (retire (lane l t)) t := by
  unfold storeOp
  rw [issue_taken _ _ _ _ h]
  cases href : laneRef l addr d.length true s with
  | localMem a => simp_all [storeAt]
  | districtMem a => simp_all [storeAt]
  | aperture a => simp_all [storeAt]
  | fault c => simp_all [answerCause]

end

/-- What R128, R147 and R148 say of a store of the bytes `d` at `addr` by the instruction `c`. -/
theorem stores {c : Instr} {l : Lane} {w w' addr : Word} {d : Bytes} {ans : MemAnswer} {s : State}
    (hexec : exec c s = .next (storeOp l w' addr d ans s)) (hw : w' = w) (h : laneIssues l w s = true) :
    let r := laneRef l addr d.length true s
    (addr.toNat % d.length ≠ 0 → ∃ t : State, exec c s = .next t ∧ faults l 3 addr 0 s t) ∧
    (addr.toNat % d.length = 0 → ∀ n : Nat, r = .fault n → ∃ t : State, exec c s = .next t ∧ faults l n addr 0 s t) ∧
    (addr.toNat % d.length = 0 → isBuffered r s = true →
      if stepRoom l 1 s = true then
        exec c s = .next (setLane l (retire (bufferWrite (.write r.addr d) (lane l s))) s)
      else ∃ t : State, exec c s = .next t ∧ faults l 11 0 0 s t) ∧
    (addr.toNat % d.length = 0 → answerCause r ans s = none → isBuffered r s = false →
      ∃ t : State, exec c s = .next t ∧ (lane l t).pc = (lane l s).pc + 4 ∧ (lane l t).g = (lane l s).g ∧
        (lane l t).v = (lane l s).v ∧ t.regs = (noteRef r ans s).regs ∧ (∀ m : Lane, m ≠ l → lane m t = lane m s) ∧
        rdBytes r.addr d.length t = d ∧ ∀ a : Nat, a < r.addr ∨ r.addr + d.length ≤ a → rdByte a t = rdByte a s) := by
  intro r
  subst hw
  refine ⟨fun ha => ?misaligned, fun ha n hn => ?unresolved, fun ha hb => ?buffered, fun ha hr hb => ?served⟩
  case misaligned =>
    rw [storeOp_misaligned _ _ _ _ _ _ h ha] at hexec
    exact ⟨_, hexec, faults_faultAt ..⟩
  case unresolved =>
    rw [storeOp_unresolved h ha hn] at hexec
    exact ⟨_, hexec, faults_faultAt ..⟩
  case buffered =>
    rw [storeOp_buffered h ha hb] at hexec
    split
    · next hroom => rw [hexec, if_pos hroom]
    · next hroom => exact ⟨_, by rw [hexec, if_neg hroom], faults_faultAt ..⟩
  case served =>
    have hres (c : Nat) : r ≠ .fault c := fun hc => by simp [hc, answerCause] at hr
    obtain ⟨hregs, hlanes, ⟨x, hown⟩, hin, hout⟩ :=
      stored_storeAt (l := l) (addr := addr) (d := d) (edge := s.mp.tclk) (s := noteRef r ans s) (u := s) hres
    rw [storeOp_served h ha hr hb] at hexec
    refine ⟨_, hexec, ?_⟩
    rw [lane_noteRef] at hown
    obtain ⟨y, q, hnote⟩ := noteRef_frame r ans s
    rw [lane_setLane, hown]
    refine ⟨rfl, rfl, rfl, hregs, fun m hm => ?_, ?_, fun a hout' => ?_⟩
    · rw [lane_setLane_other _ _ _ _ (Fin.val_ne_of_ne hm), hlanes m (Fin.val_ne_of_ne hm), lane_noteRef]
    · exact (rdBytes_congr (setLane_mem ..) _ _).trans hin
    · rw [rdByte_congr (setLane_mem ..), hout a hout', hnote]
      rfl

/-- Settles O26: each store is a store operation with the bytes of its register. -/
theorem storesWriteOnlyTheAddressedBytes : Obligations.StoresWriteOnlyTheAddressedBytes := by
  intro l rt rs off vd k ans w s h
  simp only [List.forall_mem_cons, List.not_mem_nil, false_implies, implies_true, and_true]
  refine ⟨fun hword => ?_, fun hword => ?_, fun hword => ?_, fun hword => ?_⟩
  · exact stores (c := .sb l rt rs off ans) rfl (by simpa [laneWord] using hword) h
  · exact stores (c := .sh l rt rs off ans) rfl (by simpa [laneWord] using hword) h
  · exact stores (c := .sw l rt rs off ans) rfl (by simpa [laneWord] using hword) h
  · exact stores (c := .vst l vd rs k ans) rfl (by simpa [laneWord] using hword) h

end Sys2Proof.Machine
end

section
/-! PROOF. Jobs of a lane: their start, their end and the faults that stop them (R115-R117, R132, R139-R141, R157,
R167). -/

set_option Elab.async false

namespace Sys2Proof.Machine

open Sys2Proof

/-! ### Writing an entry twice -/

theorem serase_serase {α : Type} (k : Nat) (l : Sparse α) : serase k (serase k l) = serase k l := by
  induction l with
  | nil => rfl
  | cons e t ih =>
    obtain ⟨k', v⟩ := e
    by_cases h : k' = k
    · simp [serase, h, ih]
    · simp [serase, h, ih]

theorem serase_sinsert {α : Type} (k : Nat) (v : α) (l : Sparse α) : serase k (sinsert k v l) = serase k l := by
  induction l with
  | nil => simp [sinsert, serase]
  | cons e t ih =>
    obtain ⟨k', v'⟩ := e
    by_cases h : k < k'
    · simp [sinsert, serase, h]
    · by_cases hk : k' = k
      · simp [sinsert, serase, hk, ih]
      · simp [sinsert, serase, h, hk, ih]

theorem sset_sset_same {α : Type} [DecidableEq α] (d : α) (k : Nat) (v w : α) (l : Sparse α) :
    sset d k v (sset d k w l) = sset d k v l := by
  have herase : serase k (sset d k w l) = serase k l := by
    unfold sset
    split
    · exact serase_serase k l
    · rw [serase_sinsert, serase_serase]
  rw [sset.eq_1 d k v (sset d k w l), herase, ← sset.eq_1]

theorem setLane_setLane (l : Nat) (x y : LaneState) (s : State) : setLane l x (setLane l y s) = setLane l x s := by
  simp only [setLane, sset_sset_same]

/-! ### The memory that a lane reads for itself -/

theorem regionOf_localAddr (l : Lane) {n : Nat} (hn : n < 0x10000) (s : State) :
    regionOf (localAddr l + n) s = .laneLocal := by
  have hl := l.isLt
  have h1 : ¬ localAddr l + n < 2 ^ 37 := by simp only [localAddr, laneBase]; omega
  have h2 : ¬ localAddr l + n < 0x4000000000 := by simp only [localAddr, laneBase]; omega
  have h3 : localAddr l + n < 0x4004000000 := by simp only [localAddr, laneBase]; omega
  simp only [regionOf, if_neg h1, if_neg h2, if_pos h3]

/-- Local memory that answers well records nothing. -/
theorem noteRef_local_ok (l : Lane) {n : Nat} (hn : n < 0x10000) (s : State) :
    noteRef (.localMem (localAddr l + n)) .ok s = s := by
  simp only [noteRef, LaneRef.addr, answer, noteAnswer, regionOf_localAddr l hn]

/-- A corrected error of local memory is counted in its district. -/
theorem noteRef_local_corrected (l : Lane) {n : Nat} (hn : n < 0x10000) (s : State) :
    noteRef (.localMem (localAddr l + n)) .corrected s = bump LNC_DST_ECC (l / 16) 31 16 s := by
  have hdst : (localAddr l + n - laneBase) / 0x10000 / 16 = l.val / 16 := by simp only [localAddr, laneBase]; omega
  simp only [noteRef, LaneRef.addr, answer, noteAnswer, regionOf_localAddr l hn, hdst]

/-! ### Faults -/

/-- A fault is a fault of every state that agrees with its own on what R132 speaks of. -/
theorem faults_of_start {l : Lane} {cause trapCode : Nat} {faddr : Word} {s s' t : State}
    (h : faults l cause faddr trapCode s' t) (hown : (lane l s').g = (lane l s).g ∧ (lane l s').v = (lane l s).v ∧
      (lane l s').pc = (lane l s).pc) (hothers : ∀ m : Lane, m ≠ l → lane m s' = lane m s)
    (hcnt : rgF LNC_LANE_CNT_FAULT l 31 0 s' = rgF LNC_LANE_CNT_FAULT l 31 0 s) (hmem : s'.mem = s.mem)
    (hroads : s'.roads = s.roads) : faults l cause faddr trapCode s t := by
  obtain ⟨hrun, hjob, hg, hv, hpc, hcause, haddr, hcount, hmark, hraise, hrest, hm, hr⟩ := h
  obtain ⟨og, ov, opc⟩ := hown
  exact ⟨hrun, hjob, hg.trans og, hv.trans ov, hpc.trans opc, hcause, haddr, hcnt ▸ hcount, hmark, hraise,
    fun m hne => (hrest m hne).trans (hothers m hne), hm.trans hmem, hr.trans hroads⟩

/-- A fault leaves the lane's queue. -/
theorem queue_laneFault (l : Nat) (cause : Nat) (faddr : Word) (trapCode : Nat) (pc : Word) (s : State) :
    (lane l (laneFault l cause faddr trapCode pc s)).queue = (lane l s).queue := by
  obtain ⟨y, q, hcause⟩ := setCause_frame LNC_DST_CAUSE (l / 16) 0 (noteFault l cause faddr trapCode (stopFaulted l pc
      s))
  obtain ⟨x, hnote⟩ := noteFault_frame l cause faddr trapCode (stopFaulted l pc s)
  have hlane : lane l (laneFault l cause faddr trapCode pc s) = lane l (stopFaulted l pc s) := by
    rw [laneFault_eq, hcause, hnote]; rfl
  rw [hlane, stopFaulted, lane_setLane, lane_freeBuffer]

/-! ### The start of a job (R115, R116) -/

/-- The lane when it takes the job at the head of its queue, with what its step buffer holds then. -/
def tookJob (j : Job) (q : List QueueEntry) (ln : LaneState) : LaneState :=
  { ln with queue := q, job := some j, keepWrites := ln.stepWrites.length, keepSends := ln.stepSends.length,
            keepEntries := ln.stepEntries }

/-- The lane with its registers cleared for a job at the address `e`. -/
def clearedFor (l : Nat) (e : Word) (s : State) (ln : LaneState) : LaneState :=
  { ln with g := [], v := [], pc := e, run := .running, stale := [], sending := false,
            apb0 := apertureBase LNC_APB0_LO LNC_APB0_HI l s, apb1 := apertureBase LNC_APB1_LO LNC_APB1_HI l s }

/-- The lane when the job begins. -/
def beganJob (l : Nat) (j : Job) (e : Word) (s : State) (ln : LaneState) : LaneState :=
  loadWords (jobWords j) 1 (clearedFor l e s ln)

theorem localWord_setLane (l a m : Nat) (x : LaneState) (s : State) : localWord l a (setLane m x s) = localWord l a s
    := rfl

theorem jobStart_idle {l : Nat} {ans : MemAnswer} {s : State}
    (h : takesNext l s = false ∨ ∀ (j : Job) (q : List QueueEntry), (lane l s).queue ≠ .job j :: q) :
    jobStart l ans s = s := by
  unfold jobStart
  rcases h with h | h
  · simp [h]
  · split
    · rfl
    · split
      · next j q hq => exact absurd hq (h j q)
      · rfl

section
variable {l : Lane} {j : Job} {q : List QueueEntry} {s : State} (htakes : takesNext l s = true)
  (hqueue : (lane l s).queue = .job j :: q)
include htakes hqueue

theorem jobStart_taken (ans : MemAnswer) :
    jobStart l ans s =
      let a := 4 * (j.code.toNat % 256)
      let t := noteRef (.localMem (localAddr l + a)) ans (setLane l (tookJob j q (lane l s)) s)
      let e := localWord l a t
      if ans = .uncorrectable then laneFault l 6 (w32 a) 0 (w32 a) t
      else if e = 0 ∨ e.toNat % 4 ≠ 0 ∨ 0x10000 ≤ e.toNat then laneFault l 10 (w32 a) 0 e t
      else setLane l (beganJob l j e t (lane l t)) t := by
  unfold jobStart
  rw [if_neg (not_not.2 htakes), hqueue]
  rfl

end

/-- Loading words writes general registers only. -/
theorem loadWords_frame (ws : List Word) (i : Nat) (ln : LaneState) : ∃ x, loadWords ws i ln = { ln with g := x } := by
  induction ws generalizing i ln with
  | nil => exact ⟨ln.g, rfl⟩
  | cons w ws ih =>
    obtain ⟨x, hx⟩ := ih (i + 1) (setG i w ln)
    rw [loadWords, hx, setG]
    split <;> exact ⟨x, rfl⟩

/-- The loaded registers hold the words, and the others what they held. -/
theorem getG_loadWords (ws : List Word) (i r : Nat) (ln : LaneState) (hi : 0 < i) :
    getG r (loadWords ws i ln) = if i ≤ r ∧ r < i + ws.length then ws.getD (r - i) 0 else getG r ln := by
  induction ws generalizing i ln with
  | nil => simp [loadWords, show ¬(i ≤ r ∧ r < i) by omega]
  | cons w ws ih =>
    rw [loadWords, ih (i + 1) _ (by omega), getG_setG, List.length_cons]
    by_cases hr : r = i
    · subst hr
      simp [show r ≠ 0 by omega]
    · by_cases hin : i + 1 ≤ r ∧ r < i + 1 + ws.length
      · have hsub : r - i = (r - (i + 1)) + 1 := by omega
        rw [if_pos hin, if_pos (by omega), hsub, List.getD_cons_succ]
      · rw [if_neg hin, if_neg (by omega), if_neg (by omega)]

/-- The state in which a job starts agrees with the one before it on what a fault speaks of. -/
theorem faults_of_tookJob {l : Lane} {j : Job} {q : List QueueEntry} {cause : Nat} {faddr : Word} {r : LaneRef}
    {ans : MemAnswer} {s t : State}
    (h : faults l cause faddr 0 (noteRef r ans (setLane l (tookJob j q (lane l s)) s)) t) : faults l cause faddr 0 s t
        := by
  have hl : l.val < 2 ^ 24 := by omega
  refine faults_of_start h ?own (fun m hm => ?others) ?count ?mem ?roads
  case own => rw [lane_noteRef, lane_setLane]; exact ⟨rfl, rfl, rfl⟩
  case others => rw [lane_noteRef, lane_setLane_other _ _ _ _ (Fin.val_ne_of_ne hm)]
  case count =>
    rw [rgF, rg_noteRef_other _ _ _ (by decide) hl (by decide) (by decide) (by decide) (by decide)]
    rfl
  case mem =>
    obtain ⟨x, y, hn⟩ := noteRef_frame r ans (setLane l (tookJob j q (lane l s)) s)
    rw [hn]; rfl
  case roads =>
    obtain ⟨x, y, hn⟩ := noteRef_frame r ans (setLane l (tookJob j q (lane l s)) s)
    rw [hn]; rfl

/-! ### The end of a job (R117, R157) -/

@[simp] theorem bump_lanes (r i hi lo : Nat) (s : State) : (bump r i hi lo s).lanes = s.lanes := by
  rw [bump_eq, setRg_lanes]

@[simp] theorem lane_bump (m r i hi lo : Nat) (s : State) : lane m (bump r i hi lo s) = lane m s := by
  rw [lane, bump_lanes, ← lane]

@[simp] theorem bump_mem (r i hi lo : Nat) (s : State) : (bump r i hi lo s).mem = s.mem := by
  rw [bump_eq, setRg_mem]

@[simp] theorem bump_districts (r i hi lo : Nat) (s : State) : (bump r i hi lo s).districts = s.districts := by
  rw [bump_eq, setRg_districts]

theorem settleThrough_frame (d : Nat) (p : Flight → Bool) (s : State) :
    ∃ x, settleThrough d p s = setDistrict d { district d s with flights := x } s := ⟨_, rfl⟩
@[simp] theorem rg_setLane (r i l : Nat) (x : LaneState) (s : State) : rg r i (setLane l x s) = rg r i s := rfl
@[simp] theorem mem_settleFlights (l : Nat) (s : State) : (settleFlights l s).mem = s.mem := by
  obtain ⟨x, hx⟩ := settleThrough_frame (l / 16) (fun x => x.lane = l) s
  rw [settleFlights, hx, setDistrict_mem]

@[simp] theorem rg_settleFlights (r i l : Nat) (s : State) : rg r i (settleFlights l s) = rg r i s := by
  obtain ⟨x, hx⟩ := settleThrough_frame (l / 16) (fun x => x.lane = l) s
  rw [rg, settleFlights, hx, setDistrict_regs, ← rg]

@[simp] theorem rg_freeBuffer (r i l : Nat) (s : State) : rg r i (freeBuffer l s) = rg r i s := by
  obtain ⟨x, hx⟩ := freeBuffer_frame l s
  rw [hx]; rfl

@[simp] theorem mem_freeBuffer (l : Nat) (s : State) : (freeBuffer l s).mem = s.mem := by
  obtain ⟨x, hx⟩ := freeBuffer_frame l s
  rw [hx]

theorem lane_settleThrough (d m : Nat) (p : Flight → Bool) (s : State) : lane m (settleThrough d p s) = lane m s := by
  obtain ⟨x, hx⟩ := settleThrough_frame d p s
  rw [hx]; rfl

/-- The lane when its job has ended. -/
def endedJob (ln : LaneState) : LaneState := { ln with run := .idle, job := none, stale := [] }

/-- JEND that its lane issues. -/
theorem exec_jend_issued {l : Lane} {s : State} (h : laneIssues l (encS 0x00 0 0 0 0) s = true) :
    exec (.jend l) s = .next (bump LNC_LANE_CNT_JOB l 31 0
      (setLane l (endedJob (lane l s)) (settleFlights l (freeBuffer l s)))) := by
  have hlane : lane l (settleFlights l (freeBuffer l s)) = lane l s := by
    rw [settleFlights, lane_settleThrough, lane_freeBuffer]
  change Host.Outcome.next (jend l s) = _
  rw [jend, issue_taken _ _ _ _ h, ← hlane]
  rfl

/-- A frame buffer that a job held is free after the job. -/
theorem buffer_freed {l b : Nat} {s : State} (h : ((lane l s).job.bind fun j => j.buffer) = some b) :
    b ∉ (district (l / 16) (settleFlights l (freeBuffer l s))).buffers := by
  rw [settleFlights, settleThrough, district_setDistrict, freeBuffer, h]
  simp

/-! ### Faults without an instruction (R139-R141) -/

theorem answerCause_local (a : Nat) (ans : MemAnswer) (s : State) :
    answerCause (.localMem a) ans s = if ans = .uncorrectable then some 6 else none := rfl

/-- Settles O28: a job's start and end as the lane's state after them, and each fault as a lane fault with its cause. -/
theorem laneJobsStartEndAndFault : Obligations.LaneJobsStartEndAndFault := by
  refine ⟨⟨fun l ans s h => congrArg Host.Outcome.next (jobStart_idle h), fun l j q s htakes hqueue =>
    ⟨fun h0 h4 hlt => ?starts, fun hbad => ?vector, ?ecc⟩⟩, fun l w s hword hissue => ?ends,
    fun l s => ⟨fun code w hword hissue => ?trap, fun hready hpc hillegal => ?illegal, fun hready hpc ans => ?beyond,
      fun hready hpc => ?fetch, fun hready ans => ?none⟩⟩
  case starts =>
    have hstart := jobStart_taken htakes hqueue .ok
    dsimp only at hstart
    rw [noteRef_local_ok l (by omega), if_neg (by decide), localWord_setLane,
      if_neg (not_or.2 ⟨h0, not_or.2 ⟨not_not.2 h4, not_le.2 hlt⟩⟩), lane_setLane,
      setLane_setLane] at hstart
    refine ⟨_, congrArg Host.Outcome.next hstart, ?_⟩
    rw [onlyLane, lane_setLane]
    obtain ⟨x, hx⟩ := loadWords_frame (jobWords j) 1 (clearedFor l (localWord l (4 * (j.code.toNat % 256)) s)
      (setLane l (tookJob j q (lane l s)) s) (tookJob j q (lane l s)))
    have hget (r : Nat) := getG_loadWords (jobWords j) 1 r (clearedFor l (localWord l (4 * (j.code.toNat % 256)) s)
      (setLane l (tookJob j q (lane l s)) s) (tookJob j q (lane l s))) (by decide)
    refine ⟨rfl, ?_, ?_, ?_, ?_, fun i => ?_, fun r hr => ?_, fun r => ?_⟩
    · rw [beganJob, hx]; rfl
    · rw [beganJob, hx]; rfl
    · rw [beganJob, hx]; rfl
    · rw [beganJob, hx]; rfl
    · have hi : 1 ≤ i.val + 1 ∧ i.val + 1 < 1 + (jobWords j).length := by
        simp only [jobWords, List.length_cons, List.length_nil]
        omega
      rw [beganJob, hget, if_pos hi, Nat.add_sub_cancel]
    · have hr' : ¬ (1 ≤ r.val ∧ r.val < 1 + (jobWords j).length) := by
        simp only [jobWords, List.length_cons, List.length_nil]
        omega
      rw [beganJob, hget, if_neg hr', getG, if_neg (by omega)]
      rfl
    · rw [beganJob, hx]; rfl
  case vector =>
    have hstart := jobStart_taken htakes hqueue .ok
    dsimp only at hstart
    rw [noteRef_local_ok l (by omega), if_neg (by decide), localWord_setLane, if_pos hbad] at hstart
    refine ⟨_, congrArg Host.Outcome.next hstart, faults_of_tookJob (r := .fault 0) (ans := .ok) (faults_laneFault
        ..), ?_⟩
    rw [queue_laneFault, lane_setLane]
    rfl
  case ecc =>
    have hstart := jobStart_taken htakes hqueue .uncorrectable
    rw [if_pos rfl] at hstart
    refine ⟨_, congrArg Host.Outcome.next hstart, faults_of_tookJob (faults_laneFault ..), ?_⟩
    rw [queue_laneFault, lane_noteRef, lane_setLane]
    rfl
  case ends =>
    cases hword
    refine ⟨_, exec_jend_issued hissue, ?run, ?job, ?g, ?v, ?queue, ?count, fun b hb => ?buffers, fun m hm => ?others,
        ?mem⟩
    case run => rw [lane_bump, lane_setLane]; rfl
    case job => rw [lane_bump, lane_setLane]; rfl
    case g => rw [lane_bump, lane_setLane]; rfl
    case v => rw [lane_bump, lane_setLane]; rfl
    case queue => rw [lane_bump, lane_setLane]; rfl
    case count =>
      rw [rgF_bump_same _ _ _ _ _ (by decide) (by decide), rgF, rg_setLane, rg_settleFlights, rg_freeBuffer, ← rgF]
    case buffers =>
      rw [district, bump_districts, setLane_districts, ← district]
      exact buffer_freed hb
    case others =>
      rw [lane_bump, lane_setLane_other _ _ _ _ (Fin.val_ne_of_ne hm), settleFlights, lane_settleThrough,
          lane_freeBuffer]
    case mem => rw [bump_mem, setLane_mem, mem_settleFlights, mem_freeBuffer]
  case trap =>
    cases hword
    exact ⟨_, exec_trap_issued l code s hissue, faults_laneFault ..⟩
  case illegal =>
    have hstop : illegalInstruction l s = faultAt l 2 0 s := by simp [illegalInstruction, hready, hpc, hillegal]
    exact ⟨_, congrArg Host.Outcome.next hstop, faults_faultAt ..⟩
  case beyond =>
    have hstop : instructionFetchFault l ans s = faultAt l 12 0 s := by simp [instructionFetchFault, hready, hpc]
    exact ⟨_, congrArg Host.Outcome.next hstop, faults_faultAt ..⟩
  case fetch =>
    have hread (ans : MemAnswer) : instructionFetchFault l ans s =
        if ans = .uncorrectable then faultAt l 6 (lane l s).pc (noteRef (.localMem (localAddr l + (lane l
            s).pc.toNat)) ans s)
        else noteRef (.localMem (localAddr l + (lane l s).pc.toNat)) ans s := by
      simp only [instructionFetchFault, hready, not_true_eq_false, if_false, if_neg (not_le.2 hpc), answerCause_local]
      by_cases h : ans = .uncorrectable
      · simp only [h, if_true]
      · simp only [h, if_false]
    refine ⟨⟨_, congrArg Host.Outcome.next (hread .uncorrectable), ?_⟩, ?_, ?_⟩
    · exact faults_faultAt_noteRef ..
    · exact congrArg Host.Outcome.next ((hread .corrected).trans (noteRef_local_corrected l hpc s))
    · exact congrArg Host.Outcome.next ((hread .ok).trans (noteRef_local_ok l hpc s))
  case none =>
    exact ⟨congrArg Host.Outcome.next (by simp [illegalInstruction, hready]),
      congrArg Host.Outcome.next (by simp [instructionFetchFault, hready])⟩

end Sys2Proof.Machine
end

section
/-! PROOF. WAITM and POLLM (R117, R158, R168). -/

set_option Elab.async false

namespace Sys2Proof.Machine

open Sys2Proof

/-! ### A memory that answers well -/

theorem noteAnswer_ok (a : Nat) (s : State) : noteAnswer a .ok s = s := by
  unfold noteAnswer
  dsimp only
  cases regionOf a s <;> rfl

/-- Beyond DRAM a memory answers as the command says (R112). -/
theorem answer_beyond_dram {a : Nat} (h : 2 ^ 37 ≤ a) (ans : MemAnswer) (s : State) : answer a ans s = ans := by
  unfold answer regionOf
  rw [if_neg (by omega)]
  split_ifs <;> rfl

theorem noteRef_local_good (l n : Nat) (s : State) : noteRef (.localMem (localAddr l + n)) .ok s = s := by
  have h : 2 ^ 37 ≤ localAddr l + n := by simp only [localAddr, laneBase]; omega
  simp only [noteRef, LaneRef.addr, answer_beyond_dram h, noteAnswer_ok]

/-! ### A message that is taken -/

/-- The lane when it has taken the first message of its inbox. -/
def tookMessage (reg : Nat) (ln : LaneState) : LaneState :=
  retire (setG reg 0 { ln with inbox := dropFirst ln.inbox, run := .running })

/-- A message that is no drain marker only enters local memory and leaves the inbox. -/
theorem takeMessage_plain {l reg : Nat} {m : Message} {addr : Word} {s : State} (h : bit m.flags 0 = false) :
    takeMessage l m reg addr s =
      let t := storeLocal l addr.toNat (messageBytes m) s
      setLane l (tookMessage reg (lane l t)) t := by
  rw [takeMessage, h]
  simp only [Bool.false_eq_true, false_and, if_false]
  rfl

/-- What taking a message leaves: its bytes at the address, the inbox without it, 0 in the status register, and nothing
else changed. -/
theorem takeMessage_taken (l reg : Nat) {m : Message} (addr : Word) (s : State) (h : bit m.flags 0 = false) :
    ∃ t, takeMessage l m reg addr s = t ∧ getG reg (lane l t) = 0 ∧ (lane l t).inbox = dropFirst (lane l s).inbox ∧
      (lane l t).run = .running ∧ (lane l t).pc = (lane l s).pc + 4 ∧
      rdBytes (localAddr l + addr.toNat) (messageBytes m).length t = messageBytes m ∧
      (∀ x : Nat, x < localAddr l + addr.toNat ∨ localAddr l + addr.toNat + (messageBytes m).length ≤ x →
        rdByte x t = rdByte x s) ∧ t.regs = s.regs ∧ ∀ k : Nat, k ≠ l → lane k t = lane k s := by
  obtain ⟨hregs, hlanes, ⟨y, hown⟩, hin, hout⟩ := stored_storeLocal l addr.toNat (messageBytes m) s
  refine ⟨_, rfl, ?_⟩
  rw [takeMessage_plain h]
  dsimp only
  rw [lane_setLane, hown, setLane_regs]
  refine ⟨?_, by simp [tookMessage], by simp [tookMessage], by simp [tookMessage], ?_, fun x hx => ?_, hregs,
    fun k hk => ?_⟩
  · rw [tookMessage, getG_retire, getG_setG]
    split
    · rfl
    · next hreg =>
      obtain rfl : reg = 0 := by simpa using hreg
      rfl
  · rw [rdBytes_congr (setLane_mem ..), hin]
  · rw [rdByte_congr (setLane_mem ..), hout x hx]
  · rw [lane_setLane_other _ _ _ _ hk, hlanes k hk]

/-! ### The instructions -/

section
variable {l : Lane} {w : Word} {a b : GReg} {suspend : Bool} {s : State} (h : laneIssues l w s = true)
include h

theorem receiveOp_misplaced (hbad : (getG b (lane l s)).toNat % 16 ≠ 0 ∨ 0x10000 < (getG b (lane l s)).toNat + 64) :
    receiveOp l w a b suspend .ok s =
      faultAt l (if (getG b (lane l s)).toNat % 16 ≠ 0 then 3 else 4) (getG b (lane l s)) s := by
  rw [receiveOp, issue_taken _ _ _ _ h]
  by_cases h16 : (getG b (lane l s)).toNat % 16 ≠ 0
  · simp only [if_pos h16]
  · simp only [if_neg h16, if_pos (hbad.resolve_left h16)]

variable (h16 : (getG b (lane l s)).toNat % 16 = 0) (hfit : (getG b (lane l s)).toNat + 64 ≤ 0x10000)
include h16 hfit

theorem receiveOp_takes {m : Message} (hm : firstMessage l s = some m) :
    receiveOp l w a b suspend .ok s = takeMessage l m a (getG b (lane l s)) s := by
  rw [receiveOp, issue_taken _ _ _ _ h]
  simp only [h16, ne_eq, not_true_eq_false, if_false, if_neg (not_lt.2 hfit), hm, noteRef_local_good, answerCause_local,
    reduceCtorEq]

theorem receiveOp_empty (hm : firstMessage l s = none) :
    receiveOp l w a b suspend .ok s =
      if suspend then setLane l { lane l s with run := .waiting, waitReg := a, waitAddr := getG b (lane l s) } s
      else setLane l (retire (setG a 1 (lane l s))) s := by
  rw [receiveOp, issue_taken _ _ _ _ h]
  simp only [h16, ne_eq, not_true_eq_false, if_false, if_neg (not_lt.2 hfit), hm]

end

theorem waitmResume_takes {l : Lane} {m : Message} {s : State} (hrun : (lane l s).run = .waiting)
    (hhalt : (lane l s).halted = false) (hrst : laneInReset l s = false) (hm : firstMessage l s = some m) :
    waitmResume l .ok s = takeMessage l m (lane l s).waitReg (lane l s).waitAddr s := by
  simp only [waitmResume, hrun, hhalt, hrst, Bool.false_eq_true, not_false_eq_true, and_self, if_true, hm,
    noteRef_local_good, answerCause_local, reduceCtorEq, if_false]

theorem waitmResume_idle {l : Lane} {ans : MemAnswer} {s : State} (h : (lane l s).run ≠ .waiting ∨
    (lane l s).halted = true ∨ laneInReset l s = true ∨ firstMessage l s = none) : waitmResume l ans s = s := by
  unfold waitmResume
  rcases h with h | h | h | h <;> simp [h]

/-- Settles O29: each takes the first message, or suspends, or answers that there is none. -/
theorem receivesTakeTheFirstMessage : Obligations.ReceivesTakeTheFirstMessage := by
  intro l a b w s
  refine ⟨fun hissue hbad => ?misplaced, fun hissue h16 hfit => ⟨fun m hm hplain => ?takes, fun hm hword => ?polls,
    fun hm hstep hword => ?suspends⟩, fun m hrun hhalt hrst hm hplain => ?resumes, fun ans h => ?idle⟩
  case misplaced =>
    simp only [List.forall_mem_cons, List.not_mem_nil, false_implies, implies_true, and_true]
    constructor <;> intro hword <;> cases hword
    · exact ⟨_, congrArg Host.Outcome.next (receiveOp_misplaced hissue hbad), faults_faultAt ..⟩
    · exact ⟨_, congrArg Host.Outcome.next (receiveOp_misplaced hissue hbad), faults_faultAt ..⟩
  case takes =>
    obtain ⟨t, ht, hreg, hinbox, hrun, hpc, hin, hout, hregs, hothers⟩ :=
      takeMessage_taken l a (getG b (lane l s)) s hplain
    have hlanes (k : Lane) (hk : k ≠ l) : lane k t = lane k s := hothers k (Fin.val_ne_of_ne hk)
    simp only [List.forall_mem_cons, List.not_mem_nil, false_implies, implies_true, and_true]
    constructor <;> intro hword <;> cases hword
    · exact ⟨t, congrArg Host.Outcome.next ((receiveOp_takes hissue h16 hfit hm).trans ht),
        hreg, hinbox, hrun, hpc, hin, hout, hregs, hlanes⟩
    · exact ⟨t, congrArg Host.Outcome.next ((receiveOp_takes hissue h16 hfit hm).trans ht),
        hreg, hinbox, hrun, hpc, hin, hout, hregs, hlanes⟩
  case polls =>
    cases hword
    refine ⟨_, congrArg Host.Outcome.next (receiveOp_empty hissue h16 hfit hm), ?_⟩
    rw [if_neg (by decide), onlyLane, lane_setLane]
    refine ⟨rfl, ?_, by simp⟩
    rw [getG_retire, getG_setG]
    by_cases ha : a = 0
    · subst ha; rfl
    · rw [if_pos ⟨rfl, Fin.val_ne_of_ne ha⟩, if_neg ha]
  case suspends =>
    cases hword
    refine ⟨_, congrArg Host.Outcome.next (receiveOp_empty hissue h16 hfit hm), ?_⟩
    rw [if_pos (by simp [hstep]), onlyLane, lane_setLane]
    exact ⟨rfl, rfl, rfl, rfl, rfl⟩
  case resumes =>
    obtain ⟨t, ht, hreg, hinbox, hrun', hpc, hin, hout, hregs, hothers⟩ :=
      takeMessage_taken l (lane l s).waitReg (lane l s).waitAddr s hplain
    exact ⟨t, congrArg Host.Outcome.next ((waitmResume_takes hrun hhalt hrst hm).trans ht), hrun', hpc, hinbox, hreg,
      hin, hout, hregs, fun k hk => hothers k (Fin.val_ne_of_ne hk)⟩
  case idle => exact congrArg Host.Outcome.next (waitmResume_idle h)

end Sys2Proof.Machine
end

section
/-! PROOF. Road queries, ATOM instructions and FENCE (R124, R128, R129, R160-R162, R165, R166). -/

set_option Elab.async false

namespace Sys2Proof.Machine

open Sys2Proof

/-! ### Road queries -/

theorem ofNat_wrapI (n : Nat) (i : Int) : BitVec.ofNat n (wrapI n i) = BitVec.ofInt n i := by
  apply BitVec.eq_of_toNat_eq
  rw [BitVec.toNat_ofNat, BitVec.toNat_ofInt, wrapI]
  have hlt := wrapI_lt n i
  rw [wrapI] at hlt
  exact_mod_cast Nat.mod_eq_of_lt hlt

theorem fld_low6 (x : Word) : fld x 5 0 = x.toNat % 64 := by simp [fld]

/-- The four words of the layout of R160. -/
theorem vw_roadVec (pos : BitVec 48) (code : Nat) (rate : BitVec 48) {j : Nat} (hj : j < 4) :
    vw (roadVec pos code rate) j =
      if j = 0 then pos.setWidth 32 else if j = 1 then w32 (pos.toNat / 2 ^ 32 + code * 2 ^ 16)
      else if j = 2 then rate.setWidth 32 else BitVec.ofInt 32 (rate.toInt / 2 ^ 32) := by
  rw [roadVec, vw_ofW _ hj]
  obtain rfl | rfl | rfl | rfl : j = 0 ∨ j = 1 ∨ j = 2 ∨ j = 3 := by omega
  · exact BitVec.ofNat_toNat 32 pos
  · rfl
  · exact BitVec.ofNat_toNat 32 rate
  · exact w32_wrapI _

/-- The position of R162 in its two words. -/
theorem roadWhen_position (x : VWord) :
    BitVec.ofNat 48 (fld (vw x 1) 15 0 * 2 ^ 32 + (vw x 0).toNat) = x.setWidth 48 := by
  apply BitVec.eq_of_toNat_eq
  simp only [fld, vw, w32, BitVec.toNat_ofNat, BitVec.toNat_setWidth]
  omega

/-! ### ATOM -/

theorem leVal_leBytes (k n : Nat) : leVal (leBytes k n) = n % 256 ^ k := by
  induction k generalizing n with
  | zero => simp [leBytes, leVal, Nat.mod_one]
  | succ k ih =>
    rw [leBytes, leVal, ih, BitVec.toNat_ofNat]
    exact (Nat.pow_succ' (m := 256) (n := k) ▸ Nat.mod_mul).symm

/-- The word that four bytes in memory order leave. -/
theorem rdWord_of_bytes {a : Nat} {v : Word} {t : State} (h : rdBytes a 4 t = leBytes 4 v.toNat) : rdWord a t = v := by
  have hv := v.isLt
  rw [rdWord, rdLe, h, leVal_leBytes]
  exact BitVec.eq_of_toNat_eq (by rw [w32, BitVec.toNat_ofNat]; omega)

theorem noteRef_district_good (d n : Nat) (s : State) : noteRef (.districtMem (districtAddr d + n)) .ok s = s := by
  have h : 2 ^ 37 ≤ districtAddr d + n := by simp only [districtAddr, districtBase]; omega
  simp only [noteRef, LaneRef.addr, answer_beyond_dram h, noteAnswer_ok]

theorem addr_of_laneRef_district {l a len : Nat} {addr : Word} {write : Bool} {s : State}
    (h : laneRef l addr len write s = .districtMem a) : a = districtAddr (l / 16) + (addr.toNat - 0x100000) := by
  simp only [laneRef, apertureRef] at h
  split_ifs at h
  exact (LaneRef.districtMem.inj h).symm

section
variable {l : Lane} {a b c : GReg} {op d : Nat} {s : State} (h : laneIssues l (encS 0x09 a b c op) s = true)
  (hal : (getG b (lane l s)).toNat % 4 = 0)
include h hal

theorem atomOp_district (hr : laneRef l (getG b (lane l s)) 4 true s = .districtMem d) (hstep : stepMode s = false) :
    atomOp op l a b c .ok s =
      let q := atomDistrict l d (fun old => atomWord op old (getG c (lane l s)) (getG a (lane l s))) s
      setLane l (retire (setG a q.2 (lane l s))) q.1 := by
  have hnote : noteRef (.districtMem d) .ok s = s := by
    rw [addr_of_laneRef_district hr, noteRef_district_good]
  simp only [atomOp, issue_taken _ _ _ _ h, hal, hr, hstep, hnote, ne_eq, not_true_eq_false, if_false,
    Bool.false_eq_true, false_and, answerCause, reduceCtorEq]

theorem atomOp_buffered (hr : laneRef l (getG b (lane l s)) 4 true s = .districtMem d) (hstep : stepMode s = true)
    (hroom : stepRoom l 1 s = true) :
    atomOp op l a b c .ok s = setLane l (bufferWrite (.atom d op (getG c (lane l s)) (getG a (lane l s)))
      (retire (setG a (rdWord d (laneView l s)) (lane l s)))) s := by
  have hnote : noteRef (.districtMem d) .ok s = s := by
    rw [addr_of_laneRef_district hr, noteRef_district_good]
  simp only [atomOp, issue_taken _ _ _ _ h, hal, hr, hstep, hroom, hnote, ne_eq, not_true_eq_false, if_false, if_true,
    and_false, answerCause, reduceCtorEq]

theorem atomOp_elsewhere (hr : ∀ d, laneRef l (getG b (lane l s)) 4 true s ≠ .districtMem d) :
    atomOp op l a b c .ok s = faultAt l 4 (getG b (lane l s)) s := by
  rw [atomOp, issue_taken _ _ _ _ h]
  dsimp only
  rw [if_neg (not_not.2 hal)]
  split
  · next d hd => exact absurd hd (hr d)
  · rfl

end

theorem atomOp_misaligned {l : Lane} {a b c : GReg} {op : Nat} {s : State}
    (h : laneIssues l (encS 0x09 a b c op) s = true) (hal : (getG b (lane l s)).toNat % 4 ≠ 0) :
    atomOp op l a b c .ok s = faultAt l 3 (getG b (lane l s)) s := by
  simp only [atomOp, issue_taken _ _ _ _ h, hal, ne_eq, not_false_eq_true, if_true]

/-- Without stores under way there is nothing to settle: districts change only, and none is under way after it. -/
theorem settleThrough_settled {d : Nat} (p : Flight → Bool) {s : State} (h : flightsOf d s = []) :
    flightsOf d (settleThrough d p s) = [] ∧ (settleThrough d p s).mem = s.mem ∧
      (settleThrough d p s).regs = s.regs := by
  rw [settleThrough, h]
  dsimp only
  rw [flightsOf, district_setDistrict, setDistrict_mem, setDistrict_regs]
  exact ⟨rfl, rfl, rfl⟩

theorem performSome_settled {d : Nat} {s : State} (h : flightsOf d s = []) : performSome d s = s := by
  simp only [performSome, h, List.isEmpty_nil, if_true]

/-- The state in which an ATOM acts when no store is under way. -/
def atomReady (l : Nat) (s : State) : State :=
  let s := settleThrough (l / 16) (fun x => x.atomic) (settleFlights l s)
  setDistrict (l / 16) { district (l / 16) s with flights := [] } s

theorem rdWord_congr {s t : State} (h : s.mem = t.mem) (a : Nat) : rdWord a s = rdWord a t := by
  rw [rdWord, rdLe, rdBytes_congr h, ← rdLe, ← rdWord]

/-- The store of an ATOM. -/
def atomFlight (l a : Nat) (v : Word) (s : State) : Flight :=
  { lane := l, edge := s.mp.tclk, addr := a, old := [], new := leBytes 4 v.toNat, atomic := true }

theorem atomDistrict_ready {l : Nat} (a : Nat) (f : Word → Word) {s : State} (h : flightsOf (l / 16) s = []) :
    atomDistrict l a f s =
      let t := atomReady l s
      (addFlight (atomFlight l a (f (rdWord a t)) t) t, rdWord a t) := by
  have h1 := (settleThrough_settled (fun x => x.lane = l) h).1
  have h2 := (settleThrough_settled (fun x => x.atomic) h1).1
  rw [← settleFlights] at h1 h2
  rw [atomDistrict]
  dsimp only
  rw [performSome_settled h1, h2]
  rfl

theorem atomReady_keeps {l : Nat} {s : State} (h : flightsOf (l / 16) s = []) :
    (atomReady l s).mem = s.mem ∧ (atomReady l s).regs = s.regs := by
  obtain ⟨h1, hm1, hr1⟩ := settleThrough_settled (fun x => x.lane = l) h
  obtain ⟨-, hm2, hr2⟩ := settleThrough_settled (fun x => x.atomic) h1
  rw [atomReady, settleFlights, setDistrict_mem, setDistrict_regs]
  exact ⟨hm2.trans hm1, hr2.trans hr1⟩

/-- Without stores under way an ATOM finds the word as it stands, leaves the new one, and writes no other byte. -/
theorem atomDistrict_settled {l : Nat} (a : Nat) (f : Word → Word) {s : State} (h : flightsOf (l / 16) s = []) :
    (atomDistrict l a f s).2 = rdWord a s ∧ rdBytes a 4 (atomDistrict l a f s).1 = leBytes 4 (f (rdWord a s)).toNat ∧
      (∀ x, x < a ∨ a + 4 ≤ x → rdByte x (atomDistrict l a f s).1 = rdByte x s) ∧
      (atomDistrict l a f s).1.regs = s.regs := by
  obtain ⟨hmem, hregs⟩ := atomReady_keeps h
  rw [atomDistrict_ready a f h]
  dsimp only
  rw [rdWord_congr hmem]
  refine ⟨rfl, rdBytes_wrBytes a (leBytes 4 (f (rdWord a s)).toNat) _, fun x hx => ?_, ?_⟩
  · rw [addFlight, rdByte_wrBytes_outside _ _ _ _ hx, rdByte_congr (setDistrict_mem ..), rdByte_congr hmem]
  · rw [addFlight, wrBytes_regs, setDistrict_regs, hregs]

/-- What R124, R128 and R165 say of an aligned ATOM whose operation is `f`. -/
theorem atoms {i : Instr} {l : Lane} {a b c : GReg} {op : Nat} {f : Word → Word → Word → Word} {s : State}
    (hexec : exec i s = .next (atomOp op l a b c .ok s)) (hf : ∀ old x y, atomWord op old x y = f old x y)
    (h : laneIssues l (encS 0x09 a b c op) s = true) (hal : (getG b (lane l s)).toNat % 4 = 0) :
    (∀ d : Nat, laneRef l (getG b (lane l s)) 4 true s = .districtMem d → stepMode s = false →
      let q := atomDistrict l d (fun old => f old (getG c (lane l s)) (getG a (lane l s))) s
      exec i s = .next (setLane l (retire (setG a q.2 (lane l s))) q.1)) ∧
    (∀ d : Nat, laneRef l (getG b (lane l s)) 4 true s = .districtMem d → stepMode s = true → stepRoom l 1 s = true →
      exec i s = .next (setLane l (bufferWrite (.atom d op (getG c (lane l s)) (getG a (lane l s)))
        (retire (setG a (rdWord d (laneView l s)) (lane l s)))) s)) ∧
    (∀ d : Nat, laneRef l (getG b (lane l s)) 4 true s = .districtMem d → stepMode s = false →
      flightsOf (l / 16) s = [] → ∃ t : State, exec i s = .next t ∧ (lane l t).pc = (lane l s).pc + 4 ∧
        (∀ r : GReg, getG r (lane l t) = if r = a ∧ r ≠ 0 then rdWord d s else getG r (lane l s)) ∧
        rdWord d t = f (rdWord d s) (getG c (lane l s)) (getG a (lane l s)) ∧
        (∀ x : Nat, x < d ∨ d + 4 ≤ x → rdByte x t = rdByte x s) ∧ t.regs = s.regs) ∧
    ((∀ d : Nat, laneRef l (getG b (lane l s)) 4 true s ≠ .districtMem d) →
      ∃ t : State, exec i s = .next t ∧ faults l 4 (getG b (lane l s)) 0 s t) := by
  have hnow {d : Nat} (hr : laneRef l (getG b (lane l s)) 4 true s = .districtMem d) (hstep : stepMode s = false) :
      let q := atomDistrict l d (fun old => f old (getG c (lane l s)) (getG a (lane l s))) s
      exec i s = .next (setLane l (retire (setG a q.2 (lane l s))) q.1) := by
    rw [hexec, atomOp_district h hal hr hstep]
    simp only [hf]
  refine ⟨fun d hr hstep => hnow hr hstep, fun d hr hstep hroom => ?held, fun d hr hstep hsettled => ?acts,
    fun hr => ?elsewhere⟩
  case held => rw [hexec, atomOp_buffered h hal hr hstep hroom]
  case acts =>
    obtain ⟨hold, hnew, hout, hregs⟩ :=
      atomDistrict_settled d (fun old => f old (getG c (lane l s)) (getG a (lane l s))) hsettled
    refine ⟨_, hnow hr hstep, ?_⟩
    rw [lane_setLane, hold, rdWord_of_bytes ((rdBytes_congr (setLane_mem ..) _ _).trans hnew), setLane_regs]
    refine ⟨by simp, fun r => ?_, rfl, fun x hx => ?_, hregs⟩
    · rw [getG_retire, getG_setG]
      simp only [Fin.ext_iff, ne_eq, Fin.val_zero]
    · rw [rdByte_congr (setLane_mem ..), hout x hx]
  case elsewhere => exact ⟨_, hexec.trans (congrArg _ (atomOp_elsewhere h hal hr)), faults_faultAt ..⟩

/-- Settles O31: the queries write a vector in their layout, and an ATOM acts on its word where R124 says. -/
theorem roadQueriesAndAtomsWriteTheirRegisters : Obligations.RoadQueriesAndAtomsWriteTheirRegisters := by
  refine ⟨fun l vd vc b c => ⟨?roadp, ?roadat, ?roadwhen⟩, ⟨fun l a b c w s hissue hal => ?atoms,
    fun l a b c w s hissue hal => ?misaligned, fun l w s hword hissue => ?fence⟩⟩
  case roadp =>
    refine writesW_of_laneOp (fun s ln j hj => ?_) rfl fun _ => rfl
    rw [roadNow, fld_low6]
    dsimp only
    split
    · rw [vw_roadVec _ _ _ hj, ofNat_wrapI]
    · rw [vw_roadVec _ _ _ hj]
  case roadat =>
    refine writesW_of_laneOp (fun s ln j hj => ?_) rfl fun _ => rfl
    rw [roadAtVec, fld_low6, vw_roadVec _ _ _ hj]
  case roadwhen =>
    refine writesW_of_laneOp (fun s ln j hj => ?_) rfl fun _ => rfl
    rw [roadWhenVec, fld_low6, roadWhen_position, vw_ofW _ hj]
    simp only [Bool.or_eq_true, decide_eq_true_eq]
  case atoms =>
    simp only [List.forall_mem_cons, List.not_mem_nil, false_implies, implies_true, and_true]
    refine ⟨fun hword => ?_, fun hword => ?_, fun hword => ?_⟩ <;> cases hword
    · exact atoms (i := .atomAdd l a b c .ok) (f := fun old x _ => old + x) rfl (fun _ _ _ => rfl) hissue hal
    · exact atoms (i := .atomSwap l a b c .ok) (f := fun _ x _ => x) rfl (fun _ _ _ => rfl) hissue hal
    · exact atoms (i := .atomCas l a b c .ok) (f := fun old x y => if old = y then x else old) rfl (fun _ _ _ => rfl)
        hissue hal
  case misaligned =>
    simp only [List.forall_mem_cons, List.not_mem_nil, false_implies, implies_true, and_true]
    refine ⟨fun hword => ?_, fun hword => ?_, fun hword => ?_⟩ <;> cases hword
    all_goals exact ⟨_, congrArg Host.Outcome.next (atomOp_misaligned hissue hal), faults_faultAt ..⟩
  case fence =>
    cases hword
    refine ⟨_, congrArg Host.Outcome.next (issue_taken _ _ _ _ hissue), ?_⟩
    rw [onlyLane, lane_setLane]
    exact ⟨rfl, rfl, rfl, rfl, rfl⟩

end Sys2Proof.Machine
end

section
/-! PROOF. SEND and OBS (R119-R121, R159, R163, R339). -/

set_option Elab.async false

namespace Sys2Proof.Machine

open Sys2Proof

@[simp] theorem lane_setDistrict (m d : Nat) (x : DistrictRun) (s : State) : lane m (setDistrict d x s) = lane m s := by
  rw [lane, setDistrict_lanes, ← lane]

@[simp] theorem district_setLane (d l : Nat) (x : LaneState) (s : State) :
    district d (setLane l x s) = district d s := by
  rw [district, setLane_districts, ← district]

/-! ### What the read of a send leaves -/

/-- A state that differs from another in stores under way and draws only. -/
structure SameButFlights (s t : State) : Prop where
  frame : ∃ x y, t = { s with districts := x, draws := y }
  district : ∀ d, ∃ x, district d t = { district d s with flights := x }

theorem SameButFlights.refl (s : State) : SameButFlights s s :=
  ⟨⟨s.districts, s.draws, rfl⟩, fun d => ⟨(Machine.district d s).flights, rfl⟩⟩

theorem SameButFlights.trans {s t u : State} (h : SameButFlights s t) (h' : SameButFlights t u) :
    SameButFlights s u := by
  obtain ⟨⟨x, y, rfl⟩, hd⟩ := h
  obtain ⟨⟨x', y', rfl⟩, hd'⟩ := h'
  refine ⟨⟨x', y', rfl⟩, fun d => ?_⟩
  obtain ⟨f, hf⟩ := hd d
  obtain ⟨f', hf'⟩ := hd' d
  exact ⟨f', by rw [hf', hf]⟩

section
variable {s t : State} (h : SameButFlights s t)
include h

theorem SameButFlights.regs : t.regs = s.regs := by obtain ⟨⟨x, y, rfl⟩, -⟩ := h; rfl
theorem SameButFlights.mem : t.mem = s.mem := by obtain ⟨⟨x, y, rfl⟩, -⟩ := h; rfl
theorem SameButFlights.jnl : t.jnl = s.jnl := by obtain ⟨⟨x, y, rfl⟩, -⟩ := h; rfl
theorem SameButFlights.ingest : t.ingest = s.ingest := by obtain ⟨⟨x, y, rfl⟩, -⟩ := h; rfl
theorem SameButFlights.lane (l : Nat) : lane l t = Machine.lane l s := by obtain ⟨⟨x, y, rfl⟩, -⟩ := h; rfl
theorem SameButFlights.stepMode : stepMode t = Machine.stepMode s := by obtain ⟨⟨x, y, rfl⟩, -⟩ := h; rfl
theorem SameButFlights.inReset (f : Nat) : inReset f t = Machine.inReset f s := by obtain ⟨⟨x, y, rfl⟩, -⟩ := h; rfl
theorem SameButFlights.withObservation (o : Observation) : withObservation o t = Machine.withObservation o s := by
  obtain ⟨⟨x, y, rfl⟩, -⟩ := h; rfl
theorem SameButFlights.journalTakes : journalTakes t = Machine.journalTakes s := by
  obtain ⟨⟨x, y, rfl⟩, -⟩ := h; rfl
theorem SameButFlights.laneRecord (l cls : Nat) (b : Bytes) : laneRecord l cls b t = Machine.laneRecord l cls b s := by
  obtain ⟨⟨x, y, rfl⟩, -⟩ := h; rfl
theorem SameButFlights.newMessage (l : Nat) (b : Bytes) : newMessage l b t = Machine.newMessage l b s := by
  obtain ⟨⟨x, y, rfl⟩, -⟩ := h; rfl

end

/-- The stores under way of one district are set. -/
theorem sameButFlights_set (d n : Nat) (x : List Flight) (s : State) :
    SameButFlights s (setDistrict d { district d s with flights := x } { s with draws := n }) := by
  refine ⟨⟨_, n, rfl⟩, fun e => ?_⟩
  by_cases h : e = d
  · subst h
    rw [district_setDistrict]
    exact ⟨x, rfl⟩
  · rw [district_setDistrict_other _ _ _ _ h]
    exact ⟨(district e s).flights, rfl⟩

theorem sameButFlights_settleRead (l : Nat) (r : LaneRef) (n : Nat) (s : State) :
    SameButFlights s (settleRead l r n s) := by
  cases r with
  | districtMem a => exact sameButFlights_set _ s.draws _ s
  | _ => exact .refl s

theorem sameButFlights_performSome (d : Nat) (s : State) : SameButFlights s (performSome d s) := by
  rw [performSome]
  dsimp only
  split
  · exact .refl s
  · exact sameButFlights_set d (s.draws + 1) _ s

theorem sameButFlights_laneSees (l : Nat) (r : LaneRef) (s : State) : SameButFlights s (laneSees l r s).1 := by
  cases r with
  | districtMem a =>
    rw [laneSees]
    split
    · exact .refl s
    · exact sameButFlights_performSome _ s
  | _ => exact .refl s

/-- The state in which a send is performed. -/
def sendSees (l : Nat) (r : LaneRef) (n : Nat) (s : State) : State := (laneSees l r (settleRead l r n s)).1

theorem sameButFlights_sendSees (l : Nat) (r : LaneRef) (n : Nat) (s : State) :
    SameButFlights s (sendSees l r n s) := (sameButFlights_settleRead l r n s).trans (sameButFlights_laneSees l r _)

/-- The memory that a send reads answers as the command says. -/
theorem noteRef_sendRef {l n : Nat} {addr : Word} {r : LaneRef} (h : sendRef l addr n = some r) (s : State) :
    noteRef r .ok s = s ∧ answerCause r .ok s = none := by
  simp only [sendRef] at h
  split_ifs at h <;> cases h
  · exact ⟨noteRef_local_good .., rfl⟩
  · exact ⟨noteRef_district_good .., rfl⟩

/-! ### A send that is performed, or refused -/

section
variable {l : Lane} {w addr : Word} {n : Nat} {ok : Bool} {bad : Bytes → Bool} {go : Bytes → State → State} {s : State}
  (h : laneIssues l w s = true) (hal : addr.toNat % 4 = 0)
include h hal

/-- A send outside the table faults with cause 9. -/
theorem sendOp_refused (hok : ok = false) : sendOp l w n addr ok bad .ok go s = faultAt l 9 0 s := by
  rw [sendOp, issue_taken _ _ _ _ h, if_neg (fun hc => hc.2 hal), hok, if_pos Bool.false_ne_true]

variable {r : LaneRef} (hn : n ≠ 0) (hok : ok = true) (hr : sendRef l addr n = some r)
include hn hok hr

theorem sendOp_read :
    sendOp l w n addr ok bad .ok go s =
      let b := rdBytes r.addr n (laneSees l r (settleRead l r n s)).2
      let t := sendSees l r n s
      if bad b then faultAt l 9 0 t
      else if stepMode t ∧ ¬ stepRoom l (sendEntries n) t then faultAt l 11 0 t
      else go b t := by
  rw [sendOp, issue_taken _ _ _ _ h, if_neg (fun hc => hc.2 hal), hok, if_neg (not_not.2 rfl), if_neg hn, hr]
  dsimp only
  simp only [if_neg hn, (noteRef_sendRef hr _).1, (noteRef_sendRef hr _).2]
  rfl

/-- A good send outside step mode is performed with the bytes that the lane sees. -/
theorem sendOp_sent (hstep : stepMode s = false)
    (hbad : bad (rdBytes r.addr n (laneSees l r (settleRead l r n s)).2) = false) :
    sendOp l w n addr ok bad .ok go s =
      go (rdBytes r.addr n (laneSees l r (settleRead l r n s)).2) (sendSees l r n s) := by
  have hstep' : stepMode (sendSees l r n s) = false := (sameButFlights_sendSees l r n s).stepMode.trans hstep
  rw [sendOp_read h hal hn hok hr]
  simp only [hbad, hstep', Bool.false_eq_true, if_false, false_and]

end

/-! ### Messages to the lane's own district -/

/-- Outside step mode a message to the lane's own district waits there, and the lane moves on with its next number. -/
theorem sendMsg_direct {l : Nat} {dest : MsgDest} {b : Bytes} {t : State} (hstep : stepMode t = false)
    (hdest : dest.districtOf = l / 16) :
    sendMsg l dest b t =
      setDistrict (l / 16)
        { district (l / 16) t with direct := (district (l / 16) t).direct ++ [(dest, newMessage l b t)] }
        (setLane l (retire { lane l t with msgSeq := (lane l t).msgSeq + 1 }) t) := by
  have hsrc : (newMessage l b t).src = l := rfl
  simp only [sendMsg, hstep, Bool.false_eq_true, if_false, sendMessage, hdest, hsrc, if_true]
  rw [if_neg (by omega)]
  rfl

theorem sendMsg_sends {l : Nat} {dest : MsgDest} {b : Bytes} {s t : State} (h : SameButFlights s t)
    (hstep : stepMode s = false) (hdest : dest.districtOf = l / 16) :
    ∃ u, sendMsg l dest b t = u ∧ (lane l u).pc = (lane l s).pc + 4 ∧ (lane l u).msgSeq = (lane l s).msgSeq + 1 ∧
      (lane l u).g = (lane l s).g ∧
      (district (l / 16) u).direct = (district (l / 16) s).direct ++ [(dest, newMessage l b s)] ∧ u.mem = s.mem ∧
      u.regs = s.regs := by
  obtain ⟨f, hf⟩ := h.district (l / 16)
  refine ⟨_, sendMsg_direct (h.stepMode.trans hstep) hdest, ?_⟩
  rw [lane_setDistrict, lane_setLane, district_setDistrict, h.newMessage, hf, h.lane, setDistrict_mem, setDistrict_regs,
    setLane_mem, setLane_regs, h.mem, h.regs]
  exact ⟨rfl, rfl, rfl, rfl, rfl, rfl⟩

/-! ### Frames, journal records and observations -/

/-- Outside step mode a frame waits for the district's port, and its lane stalls. -/
theorem sendFrame_waits {l egress cls : Nat} {b : Bytes} {s t : State} (h : SameButFlights s t)
    (hstep : stepMode s = false) :
    ∃ u, sendFrame l egress cls b t = u ∧ (lane l u).sending = true ∧ (lane l u).pc = (lane l s).pc ∧
      (district (l / 16) u).sends = (district (l / 16) s).sends ++
        [{ lane := l, egress := egress, cls := cls, frame := b }] ∧ u.mem = s.mem ∧ u.regs = s.regs := by
  obtain ⟨f, hf⟩ := h.district (l / 16)
  have hwaits : sendFrame l egress cls b t =
      setDistrict (l / 16) { district (l / 16) t with sends := (district (l / 16) t).sends ++
        [{ lane := l, egress := egress, cls := cls, frame := b }] }
        (setLane l { lane l t with sending := true } t) := by
    rw [sendFrame, h.stepMode, hstep]
    rfl
  refine ⟨_, hwaits, ?_⟩
  rw [lane_setDistrict, lane_setLane, district_setDistrict, hf, h.lane, setDistrict_mem, setDistrict_regs,
    setLane_mem, setLane_regs, h.mem, h.regs]
  exact ⟨rfl, rfl, rfl, rfl, rfl⟩

/-- A record that the journal's intake takes. -/
theorem recordOffer_takes {l cls : Nat} {b : Bytes} {s : State} (htakes : journalTakes s = true)
    (hroom : s.jnl.intake.length < 256) :
    recordOffer l cls b s = { s with jnl := { s.jnl with intake := s.jnl.intake ++ [laneRecord l cls b s] } } := by
  rw [recordOffer, journalIntake, htakes, if_neg (not_not.2 rfl), if_pos hroom]
  simp only [Bool.not_true, Bool.and_false, onlyIf, Bool.false_eq_true, if_false]

/-- Outside step mode a record enters the journal's intake when that takes records and is not full. -/
theorem sendRecord_enters {l cls : Nat} {b : Bytes} {s t : State} (h : SameButFlights s t) (hstep : stepMode s = false)
    (htakes : journalTakes s = true) (hroom : s.jnl.intake.length < 256) :
    ∃ u, sendRecord l cls b t = u ∧ (lane l u).pc = (lane l s).pc + 4 ∧
      u.jnl.intake = s.jnl.intake ++ [laneRecord l cls b s] ∧ u.mem = s.mem ∧ u.regs = s.regs := by
  have hrecord : sendRecord l cls b t = recordOffer l cls b (setLane l (retire (lane l t)) t) := by
    rw [sendRecord, h.stepMode, hstep]
    rfl
  refine ⟨_, hrecord.trans (recordOffer_takes (h.journalTakes.trans htakes) (h.jnl ▸ hroom)), ?_⟩
  refine ⟨(congrArg LaneState.pc (lane_setLane l _ t)).trans (by rw [retire_pc, h.lane]), ?_,
    (setLane_mem l (retire (lane l t)) t).trans h.mem, (setLane_regs l (retire (lane l t)) t).trans h.regs⟩
  change (setLane l (retire (lane l t)) t).jnl.intake ++ [laneRecord l cls b t] = _
  rw [setLane_jnl, h.jnl, h.laneRecord]

theorem length_withObservation (o : Observation) (s : State) :
    (withObservation o s).length = s.ingest.length + 1 := by
  have hsplit := List.length_eq_length_filter_add (l := s.ingest.drop (s.ingest.length - newEntries s))
    (entersBefore · o)
  simp only [withObservation, List.length_append, List.length_take, List.length_singleton]
  rw [List.length_drop] at hsplit
  omega

/-- An observation that the ingest queue takes: beside the queue only the note of what arrived on this edge changes. -/
theorem enqueueObservation_takes (o : Observation) {s : State} (hrst : inReset 200 s = false)
    (hroom : s.ingest.length < 256) :
    ∃ e k, enqueueObservation o s = { s with ingest := withObservation o s, arriveEdge := e, arriveCount := k } := by
  have hlen : (withObservation o s).length ≤ 256 := by rw [length_withObservation]; omega
  refine ⟨edgeNow s, newEntries s + 1, ?_⟩
  rw [enqueueObservation, hrst]
  simp only [Bool.false_eq_true, if_false, List.take_of_length_le hlen, List.drop_of_length_le hlen, if_pos hlen]

/-- An observation enters the queue of R47 where the unit takes observations and the queue is not full. -/
theorem laneObservation_enters {l entries : Nat} {b : Bytes} {s t : State} (h : SameButFlights s t)
    (hstep : stepMode s = false) (hrst : inReset 200 s = false) (hroom : s.ingest.length < 256) :
    ∃ u, laneObservation l entries b t = u ∧ (lane l u).pc = (lane l s).pc + 4 ∧
      u.ingest = withObservation (observationOf b 4) s ∧ u.mem = s.mem ∧ u.regs = s.regs := by
  have henqueue : laneObservation l entries b t =
      enqueueObservation (observationOf b 4) (setLane l (retire (lane l t)) t) := by
    rw [laneObservation, h.stepMode, hstep]
    rfl
  obtain ⟨e, k, htaken⟩ := enqueueObservation_takes (observationOf b 4) (s := setLane l (retire (lane l t)) t)
    ((h.inReset 200).trans hrst) (by rw [setLane_ingest, h.ingest]; exact hroom)
  refine ⟨_, henqueue.trans htaken, ?_⟩
  exact ⟨(congrArg LaneState.pc (lane_setLane l _ t)).trans (by rw [retire_pc, h.lane]),
    h.withObservation (observationOf b 4), (setLane_mem l (retire (lane l t)) t).trans h.mem,
    (setLane_regs l (retire (lane l t)) t).trans h.regs⟩

/-! ### The instructions -/

section
variable {l : Lane} {a b c : GReg} {kind : Nat} {s : State} (h : laneIssues l (encS 0x03 a b c kind) s = true)
  (hal : (getG c (lane l s)).toNat % 4 = 0)
include h hal

/-- SEND of kind 0 or 1 to a destination that does not exist. -/
theorem sendKind01_refused (hd : (if kind = 0 then 1024 else 64) ≤ (getG b (lane l s)).toNat) :
    sendKind01 kind l a b c .ok s = faultAt l 9 0 s := by
  rw [sendKind01]
  refine sendOp_refused h hal ?_
  rw [decide_eq_false (not_lt.2 hd), Bool.false_and]

/-- SEND of kind 0 or 1 in the lane's district and of 1 to 48 bytes. -/
theorem sendKind01_sends {r : LaneRef} {dest : MsgDest} (hpos : 0 < (getG a (lane l s)).toNat)
    (hle : (getG a (lane l s)).toNat ≤ 48) (hr : sendRef l (getG c (lane l s)) (getG a (lane l s)).toNat = some r)
    (hstep : stepMode s = false) (hd : (getG b (lane l s)).toNat < if kind = 0 then 1024 else 64)
    (hdest : (if kind = 0 then MsgDest.lane (getG b (lane l s)).toNat else .district (getG b (lane l s)).toNat) = dest)
    (hown : dest.districtOf = l / 16) :
    let bytes := rdBytes r.addr (getG a (lane l s)).toNat
      (laneSees l r (settleRead l r (getG a (lane l s)).toNat s)).2
    ∃ t, sendKind01 kind l a b c .ok s = t ∧ (lane l t).pc = (lane l s).pc + 4 ∧
      (lane l t).msgSeq = (lane l s).msgSeq + 1 ∧ (lane l t).g = (lane l s).g ∧
      (district (l / 16) t).direct = (district (l / 16) s).direct ++ [(dest, newMessage l bytes s)] ∧ t.mem = s.mem ∧
      t.regs = s.regs := by
  intro bytes
  have hok : (decide ((getG b (lane l s)).toNat < if kind = 0 then 1024 else 64) &&
      decide ((getG a (lane l s)).toNat ≤ 48)) = true := by
    rw [decide_eq_true hd, decide_eq_true hle, Bool.and_self]
  obtain ⟨t, ht, hrest⟩ :=
    sendMsg_sends (b := bytes) (sameButFlights_sendSees l r (getG a (lane l s)).toNat s) hstep hown
  refine ⟨t, ?_, hrest⟩
  rw [sendKind01, ← ht, ← hdest]
  exact sendOp_sent h hal (by omega) hok hr hstep rfl

end

/-- Settles O30: each send that is good is performed with the bytes that its lane sees, and a bad one faults. -/
theorem sendsReachTheirDestination : Obligations.SendsReachTheirDestination := by
  refine ⟨fun l a b c w r s hissue hpos hle hal hr hstep => ⟨fun hword hd hown => ?sendLane,
    fun hword hown => ?sendDistrict, fun hword hd => ?noDistrict, fun hword hd => ?noLane⟩,
    fun l a b c w s hissue hstep hal => ⟨fun r hword hzero hd hlo hhi hr => ?sendPort,
      fun r hword hd hr hrst hcfg hroom => ?sendJournal, fun r hword hr hgood hrst hroom => ?sendRoad⟩,
    fun l vb w s hword hissue hstep hrst hroom => ?obs, fun d x q s hsends => ?copy, fun d s hsends => ?noCopy⟩
  case sendLane =>
    cases hword
    obtain ⟨t, ht, hrest⟩ := sendKind01_sends hissue hal hpos hle hr hstep hd rfl hown
    exact ⟨t, congrArg Host.Outcome.next ht, hrest⟩
  case sendDistrict =>
    cases hword
    have hlane := l.isLt
    obtain ⟨t, ht, hpc, -, -, hrest⟩ := sendKind01_sends (dest := .district (l.val / 16)) hissue hal hpos hle hr hstep
      (by rw [if_neg (by decide)]; omega) (by rw [if_neg (by decide), hown]) rfl
    exact ⟨t, congrArg Host.Outcome.next ht, hpc, hrest⟩
  case noDistrict =>
    cases hword
    exact ⟨_, congrArg Host.Outcome.next (sendKind01_refused hissue hal hd), faults_faultAt ..⟩
  case noLane =>
    cases hword
    exact ⟨_, congrArg Host.Outcome.next (sendKind01_refused hissue hal hd), faults_faultAt ..⟩
  case sendPort =>
    cases hword
    obtain ⟨t, ht, hrest⟩ := sendFrame_waits (egress := fld (getG b (lane l s)) 7 0)
      (cls := fld (getG b (lane l s)) 10 8) (sameButFlights_sendSees l r (getG a (lane l s)).toNat s) hstep
    refine ⟨t, congrArg Host.Outcome.next (?_ : sendPort l a b c .ok s = t), hrest⟩
    rw [sendPort, ← ht]
    exact sendOp_sent hissue hal (by omega) (by simp [hzero, hd, hlo, hhi]) hr hstep rfl
  case sendJournal =>
    cases hword
    obtain ⟨t, ht, hrest⟩ := sendRecord_enters (cls := (getG b (lane l s)).toNat)
      (sameButFlights_sendSees l r 48 s) hstep (by rw [journalTakes, hrst, hcfg]; rfl) hroom
    refine ⟨t, congrArg Host.Outcome.next (?_ : sendJournal l a b c .ok s = t), hrest⟩
    rw [sendJournal, ← ht]
    exact sendOp_sent hissue hal (by decide) (decide_eq_true hd) hr hstep rfl
  case sendRoad =>
    cases hword
    obtain ⟨t, ht, hrest⟩ := laneObservation_enters (sameButFlights_sendSees l r 16 s) hstep hrst hroom
    refine ⟨t, congrArg Host.Outcome.next (?_ : sendRoad l a b c .ok s = t), hrest⟩
    rw [sendRoad, ← ht]
    exact sendOp_sent hissue hal (by decide) rfl hr hstep hgood
  case obs =>
    cases hword
    have hissued : exec (.obs l vb) s = .next (if recordBad (vecBytes (getV vb (lane l s))) then faultAt l 9 0 s
        else laneObservation l 2 (vecBytes (getV vb (lane l s))) s) := by
      refine congrArg Host.Outcome.next ?_
      rw [obs, issue_taken _ _ _ _ hissue]
      simp only [hstep, Bool.false_eq_true, false_and, if_false]
    rw [hissued]
    split
    · exact ⟨_, rfl, faults_faultAt ..⟩
    · obtain ⟨t, ht, hrest⟩ := laneObservation_enters (l := l) (entries := 2) (.refl s) hstep hrst hroom
      exact ⟨t, congrArg Host.Outcome.next ht, hrest⟩
  case copy =>
    refine ⟨_, rfl, congrArg Host.Outcome.next ?_⟩
    rw [sendFrameCopyDone, hsends]
  case noCopy => exact congrArg Host.Outcome.next (by rw [sendFrameCopyDone, hsends])

end Sys2Proof.Machine
end

section
/-! PROOF. What an operation of the model can change at all: a set of parts of the state, said once per operation, in
the order of the model, and assembled from those of the operations it calls. A claim that a command leaves memory, lanes
or roads as they are is read off the scope of its operation. -/

set_option Elab.async false

namespace Sys2Proof.Machine

open Sys2Proof

/-- The parts of the state: its fields, and in `gates` the gate lists of Turnpike. -/
inductive Part where
  | pending | regs | mem | mp | roads | ingest | ingestEdge | ingested | arriveEdge | arriveCount | heldEdge
  | held | recs | recRun | commits | rungEdge | rungQueues | lastServed | enableReturn | cmpEdge | fireEdge
  | firedRoads | frozen | pulses | snapCount | snapAt | slots | trackers | mfeSeq | mfeDiscard | mfeStuck
  | shafts | lanes | districts | ports | macs | jct | tpk | freP | freD | queues | dmaHeld | dmaEdge | wrrCur
  | wrrLeft | wrrVisits | flt | jnl | twn | stp | hie | wpt | img | sys | draws | gates
deriving DecidableEq

/-- Two states hold the same in a part. -/
def Part.same : Part → State → State → Prop
  | .pending, s, t => t.pending = s.pending
  | .regs, s, t => t.regs = s.regs
  | .mem, s, t => t.mem = s.mem
  | .mp, s, t => t.mp = s.mp
  | .roads, s, t => t.roads = s.roads
  | .ingest, s, t => t.ingest = s.ingest
  | .ingestEdge, s, t => t.ingestEdge = s.ingestEdge
  | .ingested, s, t => t.ingested = s.ingested
  | .arriveEdge, s, t => t.arriveEdge = s.arriveEdge
  | .arriveCount, s, t => t.arriveCount = s.arriveCount
  | .heldEdge, s, t => t.heldEdge = s.heldEdge
  | .held, s, t => t.held = s.held
  | .recs, s, t => t.recs = s.recs
  | .recRun, s, t => t.recRun = s.recRun
  | .commits, s, t => t.commits = s.commits
  | .rungEdge, s, t => t.rungEdge = s.rungEdge
  | .rungQueues, s, t => t.rungQueues = s.rungQueues
  | .lastServed, s, t => t.lastServed = s.lastServed
  | .enableReturn, s, t => t.enableReturn = s.enableReturn
  | .cmpEdge, s, t => t.cmpEdge = s.cmpEdge
  | .fireEdge, s, t => t.fireEdge = s.fireEdge
  | .firedRoads, s, t => t.firedRoads = s.firedRoads
  | .frozen, s, t => t.frozen = s.frozen
  | .pulses, s, t => t.pulses = s.pulses
  | .snapCount, s, t => t.snapCount = s.snapCount
  | .snapAt, s, t => t.snapAt = s.snapAt
  | .slots, s, t => t.slots = s.slots
  | .trackers, s, t => t.trackers = s.trackers
  | .mfeSeq, s, t => t.mfeSeq = s.mfeSeq
  | .mfeDiscard, s, t => t.mfeDiscard = s.mfeDiscard
  | .mfeStuck, s, t => t.mfeStuck = s.mfeStuck
  | .shafts, s, t => t.shafts = s.shafts
  | .lanes, s, t => t.lanes = s.lanes
  | .districts, s, t => t.districts = s.districts
  | .ports, s, t => t.ports = s.ports
  | .macs, s, t => t.macs = s.macs
  | .jct, s, t => t.jct = s.jct
  | .tpk, s, t => t.tpk = s.tpk
  | .freP, s, t => t.freP = s.freP
  | .freD, s, t => t.freD = s.freD
  | .queues, s, t => t.queues = s.queues
  | .dmaHeld, s, t => t.dmaHeld = s.dmaHeld
  | .dmaEdge, s, t => t.dmaEdge = s.dmaEdge
  | .wrrCur, s, t => t.wrrCur = s.wrrCur
  | .wrrLeft, s, t => t.wrrLeft = s.wrrLeft
  | .wrrVisits, s, t => t.wrrVisits = s.wrrVisits
  | .flt, s, t => t.flt = s.flt
  | .jnl, s, t => t.jnl = s.jnl
  | .twn, s, t => t.twn = s.twn
  | .stp, s, t => t.stp = s.stp
  | .hie, s, t => t.hie = s.hie
  | .wpt, s, t => t.wpt = s.wpt
  | .img, s, t => t.img = s.img
  | .sys, s, t => t.sys = s.sys
  | .draws, s, t => t.draws = s.draws
  | .gates, s, t => t.tpk.gates = s.tpk.gates

/-- What an operation can change: parts of the state, and of the registers those of blocks from `floor` on. -/
structure Scope where
  parts : List Part
  floor : Nat

/-- A scope holds what another one holds. -/
def Allows (F G : Scope) : Prop := (∀ p ∈ G.parts, p ∈ F.parts) ∧ F.floor ≤ G.floor

theorem Allows.refl (F : Scope) : Allows F F := ⟨fun _ h => h, Nat.le_refl _⟩

/-- The comparison of two scopes, to be evaluated. -/
def Scope.covers (G G' : Scope) : Bool := G'.parts.all (G.parts.contains ·) && decide (G.floor ≤ G'.floor)

theorem Allows.mono {F G G' : Scope} (h : Allows F G) (hG : G.covers G' = true) : Allows F G' := by
  obtain ⟨hp, hf⟩ := h
  obtain ⟨hp', hf'⟩ := Bool.and_eq_true_iff.mp hG
  exact ⟨fun p hm => hp p (by simpa using List.all_eq_true.mp hp' p hm), hf.trans (of_decide_eq_true hf')⟩

/-- Two states agree in the registers of the blocks below a floor. -/
def SameBelow (k : Nat) (s t : State) : Prop := ∀ r i : Nat, rkey r i < rkey (k * 0x1000) 0 → rg r i t = rg r i s

theorem SameBelow.refl (k : Nat) (s : State) : SameBelow k s s := fun _ _ _ => rfl

theorem sameBelow_setRg {k r i : Nat} {v : Word} {s : State} (hr : k * 0x1000 ≤ r) : SameBelow k s (setRg r i v s) :=
  fun r' i' hk => rg_setRg_other r i r' i' v s (by unfold rkey at *; omega)

/-- Two states differ in a scope only. -/
structure OnlyIn (F : Scope) (s t : State) : Prop where
  parts : ∀ p, p ∉ F.parts → p.same s t
  below : SameBelow F.floor s t

namespace OnlyIn

variable {F : Scope} {s₀ s t : State}

theorem refl (s : State) : OnlyIn F s s := ⟨fun p _ => by cases p <;> rfl, .refl _ _⟩

theorem trans (h : OnlyIn F s₀ s) (k : OnlyIn F s t) : OnlyIn F s₀ t where
  parts p hp := by
    have hs := h.parts p hp
    have ht := k.parts p hp
    cases p
    all_goals exact ht.trans hs
  below r i hk := (k.below r i hk).trans (h.below r i hk)

/-- An operation's scope, from what any scope that allows it holds. -/
theorem of {G : Scope} (h : ∀ F, Allows F G → OnlyIn F s t) : OnlyIn G s t := h G (.refl G)

/-- A part outside the scope holds the same. -/
theorem keeps (h : OnlyIn F s t) (p : Part) (hp : F.parts.contains p = false := by rfl) : p.same s t :=
  h.parts p (by simpa using hp)

/-- A register below the floor holds the same. -/
theorem rg (h : OnlyIn F s t) (r i : Nat) (hr : rkey r i < rkey (F.floor * 0x1000) 0 := by decide) :
    rg r i t = rg r i s := h.below r i hr

/-- The same in a larger scope. -/
theorem mono {G : Scope} (h : OnlyIn G s t) (hG : F.covers G = true := by rfl) : OnlyIn F s t :=
  have hF := (Allows.refl F).mono hG
  ⟨fun p hp => h.parts p fun hm => hp (hF.1 p hm), fun r i hk => h.below r i (hk.trans_le (by
    have := hF.2
    unfold rkey
    omega))⟩

theorem ite {c : Prop} [Decidable c] (h : OnlyIn F s₀ s) (k : OnlyIn F s₀ t) : OnlyIn F s₀ (if c then s else t) := by
  split
  · exact h
  · exact k

theorem ite_fst {α : Type} {c : Prop} [Decidable c] {x y : State × α} (h : OnlyIn F s₀ x.1) (k : OnlyIn F s₀ y.1) :
    OnlyIn F s₀ (if c then x else y).1 := by
  split
  · exact h
  · exact k

theorem ite_snd {α : Type} {c : Prop} [Decidable c] {x y : α × State} (h : OnlyIn F s₀ x.2) (k : OnlyIn F s₀ y.2) :
    OnlyIn F s₀ (if c then x else y).2 := by
  split
  · exact h
  · exact k

theorem forEach {α : Type} {l : List α} {f : α → State → State} (h : OnlyIn F s₀ s)
    (hf : ∀ a t, OnlyIn F s₀ t → OnlyIn F s₀ (f a t)) : OnlyIn F s₀ (forEach l f s) :=
  forEach_keeps (OnlyIn F s₀) l f s (fun a _ => hf a) h

theorem onlyIf {b f} (h : OnlyIn F s₀ s) (hf : ∀ t, OnlyIn F s₀ t → OnlyIn F s₀ (f t)) :
    OnlyIn F s₀ (onlyIf b f s) :=
  (hf _ h).ite h

/-! ### Registers, memory and the other fields -/

/-- A scope that holds registers from a block on holds those of a row of registers that begins there. -/
theorem blockFrom {l : List Part} {k r j : Nat} (hF : Allows F ⟨.regs :: l, k⟩) (hr : k ≤ r / 0x1000) :
    Allows F ⟨[.regs], (r + j) / 0x1000⟩ :=
  ⟨fun p hp => hF.1 p (List.mem_cons.mpr (.inl (List.mem_singleton.mp hp))),
    hF.2.trans (hr.trans (Nat.div_le_div_right (Nat.le_add_right _ _)))⟩

theorem with_regs {x} (h : OnlyIn F s₀ s) (hF : .regs ∈ F.parts)
    (hl : SameBelow F.floor s { s with regs := x }) : OnlyIn F s₀ { s with regs := x } :=
  h.trans ⟨fun p hp => by
    cases p
    case regs => exact (hp hF).elim
    all_goals rfl, hl⟩

theorem setRg {r i v} (h : OnlyIn F s₀ s)
    (hF : Allows F ⟨[.regs], r / 0x1000⟩ := by exact Allows.mono ‹_› rfl) :
    OnlyIn F s₀ (setRg r i v s) :=
  h.with_regs (hF.1 _ (.head _)) (sameBelow_setRg (by
    have hk : F.floor ≤ r / 0x1000 := hF.2
    omega))

theorem setRgF {r i hi lo v} (h : OnlyIn F s₀ s)
    (hF : Allows F ⟨[.regs], r / 0x1000⟩ := by exact Allows.mono ‹_› rfl) :
    OnlyIn F s₀ (setRgF r i hi lo v s) :=
  h.setRg hF

theorem addRgF {r i hi lo n} (h : OnlyIn F s₀ s)
    (hF : Allows F ⟨[.regs], r / 0x1000⟩ := by exact Allows.mono ‹_› rfl) :
    OnlyIn F s₀ (addRgF r i hi lo n s) :=
  h.setRgF hF

theorem bump {r i hi lo} (h : OnlyIn F s₀ s)
    (hF : Allows F ⟨[.regs], r / 0x1000⟩ := by exact Allows.mono ‹_› rfl) :
    OnlyIn F s₀ (bump r i hi lo s) :=
  h.addRgF hF

theorem addRgSat {r i hi lo n} (h : OnlyIn F s₀ s)
    (hF : Allows F ⟨[.regs], r / 0x1000⟩ := by exact Allows.mono ‹_› rfl) :
    OnlyIn F s₀ (addRgSat r i hi lo n s) :=
  h.setRgF hF

theorem wrBytes {a d} (h : OnlyIn F s₀ s) (hF : Allows F ⟨[.mem], 23⟩ := by exact Allows.mono ‹_› rfl) :
    OnlyIn F s₀ (wrBytes a d s) := by
  refine h.trans ⟨fun p hp => ?_, fun r i _ => by rw [wrBytes_frame]; rfl⟩
  rw [wrBytes_frame]
  cases p
  case mem => exact (hp (hF.1 _ (.head _))).elim
  all_goals rfl

theorem with_mp {x} (h : OnlyIn F s₀ s)
    (hF : Allows F ⟨[.mp], 23⟩ := by exact Allows.mono ‹_› rfl) :
    OnlyIn F s₀ { s with mp := x } :=
  h.trans ⟨fun p hp => by
    cases p
    case mp => exact (hp (hF.1 _ (.head _))).elim
    all_goals rfl, .refl _ _⟩

theorem with_roads {x} (h : OnlyIn F s₀ s)
    (hF : Allows F ⟨[.roads], 23⟩ := by exact Allows.mono ‹_› rfl) :
    OnlyIn F s₀ { s with roads := x } :=
  h.trans ⟨fun p hp => by
    cases p
    case roads => exact (hp (hF.1 _ (.head _))).elim
    all_goals rfl, .refl _ _⟩

theorem with_ingest_arriveEdge_arriveCount {x1 x2 x3} (h : OnlyIn F s₀ s)
    (hF : Allows F ⟨[.ingest, .arriveEdge, .arriveCount], 23⟩ := by exact Allows.mono ‹_› rfl) :
    OnlyIn F s₀ { s with ingest := x1, arriveEdge := x2, arriveCount := x3 } :=
  h.trans ⟨fun p hp => by
    cases p
    case ingest => exact (hp (hF.1 _ (by decide))).elim
    case arriveEdge => exact (hp (hF.1 _ (by decide))).elim
    case arriveCount => exact (hp (hF.1 _ (by decide))).elim
    all_goals rfl, .refl _ _⟩

theorem with_ingested {x} (h : OnlyIn F s₀ s)
    (hF : Allows F ⟨[.ingested], 23⟩ := by exact Allows.mono ‹_› rfl) :
    OnlyIn F s₀ { s with ingested := x } :=
  h.trans ⟨fun p hp => by
    cases p
    case ingested => exact (hp (hF.1 _ (.head _))).elim
    all_goals rfl, .refl _ _⟩

theorem with_recs {x} (h : OnlyIn F s₀ s)
    (hF : Allows F ⟨[.recs], 23⟩ := by exact Allows.mono ‹_› rfl) :
    OnlyIn F s₀ { s with recs := x } :=
  h.trans ⟨fun p hp => by
    cases p
    case recs => exact (hp (hF.1 _ (.head _))).elim
    all_goals rfl, .refl _ _⟩

theorem with_recRun {x} (h : OnlyIn F s₀ s)
    (hF : Allows F ⟨[.recRun], 23⟩ := by exact Allows.mono ‹_› rfl) :
    OnlyIn F s₀ { s with recRun := x } :=
  h.trans ⟨fun p hp => by
    cases p
    case recRun => exact (hp (hF.1 _ (.head _))).elim
    all_goals rfl, .refl _ _⟩

theorem with_commits {x} (h : OnlyIn F s₀ s)
    (hF : Allows F ⟨[.commits], 23⟩ := by exact Allows.mono ‹_› rfl) :
    OnlyIn F s₀ { s with commits := x } :=
  h.trans ⟨fun p hp => by
    cases p
    case commits => exact (hp (hF.1 _ (.head _))).elim
    all_goals rfl, .refl _ _⟩

theorem with_enableReturn {x} (h : OnlyIn F s₀ s)
    (hF : Allows F ⟨[.enableReturn], 23⟩ := by exact Allows.mono ‹_› rfl) :
    OnlyIn F s₀ { s with enableReturn := x } :=
  h.trans ⟨fun p hp => by
    cases p
    case enableReturn => exact (hp (hF.1 _ (.head _))).elim
    all_goals rfl, .refl _ _⟩

theorem with_frozen {x} (h : OnlyIn F s₀ s)
    (hF : Allows F ⟨[.frozen], 23⟩ := by exact Allows.mono ‹_› rfl) :
    OnlyIn F s₀ { s with frozen := x } :=
  h.trans ⟨fun p hp => by
    cases p
    case frozen => exact (hp (hF.1 _ (.head _))).elim
    all_goals rfl, .refl _ _⟩

theorem with_pulses {x} (h : OnlyIn F s₀ s)
    (hF : Allows F ⟨[.pulses], 23⟩ := by exact Allows.mono ‹_› rfl) :
    OnlyIn F s₀ { s with pulses := x } :=
  h.trans ⟨fun p hp => by
    cases p
    case pulses => exact (hp (hF.1 _ (.head _))).elim
    all_goals rfl, .refl _ _⟩

theorem with_slots {x} (h : OnlyIn F s₀ s)
    (hF : Allows F ⟨[.slots], 23⟩ := by exact Allows.mono ‹_› rfl) :
    OnlyIn F s₀ { s with slots := x } :=
  h.trans ⟨fun p hp => by
    cases p
    case slots => exact (hp (hF.1 _ (.head _))).elim
    all_goals rfl, .refl _ _⟩

theorem with_shafts {x} (h : OnlyIn F s₀ s)
    (hF : Allows F ⟨[.shafts], 23⟩ := by exact Allows.mono ‹_› rfl) :
    OnlyIn F s₀ { s with shafts := x } :=
  h.trans ⟨fun p hp => by
    cases p
    case shafts => exact (hp (hF.1 _ (.head _))).elim
    all_goals rfl, .refl _ _⟩

theorem with_ports {x} (h : OnlyIn F s₀ s)
    (hF : Allows F ⟨[.ports], 23⟩ := by exact Allows.mono ‹_› rfl) :
    OnlyIn F s₀ { s with ports := x } :=
  h.trans ⟨fun p hp => by
    cases p
    case ports => exact (hp (hF.1 _ (.head _))).elim
    all_goals rfl, .refl _ _⟩

theorem with_macs {x} (h : OnlyIn F s₀ s)
    (hF : Allows F ⟨[.macs], 23⟩ := by exact Allows.mono ‹_› rfl) :
    OnlyIn F s₀ { s with macs := x } :=
  h.trans ⟨fun p hp => by
    cases p
    case macs => exact (hp (hF.1 _ (.head _))).elim
    all_goals rfl, .refl _ _⟩

theorem with_jct {x} (h : OnlyIn F s₀ s)
    (hF : Allows F ⟨[.jct], 23⟩ := by exact Allows.mono ‹_› rfl) :
    OnlyIn F s₀ { s with jct := x } :=
  h.trans ⟨fun p hp => by
    cases p
    case jct => exact (hp (hF.1 _ (.head _))).elim
    all_goals rfl, .refl _ _⟩

theorem with_tpk {x} (h : OnlyIn F s₀ s)
    (hF : Allows F ⟨[.tpk, .gates], 23⟩ := by exact Allows.mono ‹_› rfl) :
    OnlyIn F s₀ { s with tpk := x } :=
  h.trans ⟨fun p hp => by
    cases p
    case tpk => exact (hp (hF.1 _ (by decide))).elim
    case gates => exact (hp (hF.1 _ (by decide))).elim
    all_goals rfl, .refl _ _⟩

theorem with_flt {x} (h : OnlyIn F s₀ s)
    (hF : Allows F ⟨[.flt], 23⟩ := by exact Allows.mono ‹_› rfl) :
    OnlyIn F s₀ { s with flt := x } :=
  h.trans ⟨fun p hp => by
    cases p
    case flt => exact (hp (hF.1 _ (.head _))).elim
    all_goals rfl, .refl _ _⟩

theorem with_twn {x} (h : OnlyIn F s₀ s)
    (hF : Allows F ⟨[.twn], 23⟩ := by exact Allows.mono ‹_› rfl) :
    OnlyIn F s₀ { s with twn := x } :=
  h.trans ⟨fun p hp => by
    cases p
    case twn => exact (hp (hF.1 _ (.head _))).elim
    all_goals rfl, .refl _ _⟩

theorem with_wpt {x} (h : OnlyIn F s₀ s)
    (hF : Allows F ⟨[.wpt], 23⟩ := by exact Allows.mono ‹_› rfl) :
    OnlyIn F s₀ { s with wpt := x } :=
  h.trans ⟨fun p hp => by
    cases p
    case wpt => exact (hp (hF.1 _ (.head _))).elim
    all_goals rfl, .refl _ _⟩

theorem with_draws {x} (h : OnlyIn F s₀ s)
    (hF : Allows F ⟨[.draws], 23⟩ := by exact Allows.mono ‹_› rfl) :
    OnlyIn F s₀ { s with draws := x } :=
  h.trans ⟨fun p hp => by
    cases p
    case draws => exact (hp (hF.1 _ (.head _))).elim
    all_goals rfl, .refl _ _⟩

/-- A change of Turnpike's state that leaves the gate lists. -/
theorem with_tpk_else {x} (h : OnlyIn F s₀ s) (hF : Allows F ⟨[.tpk], 23⟩ := by exact Allows.mono ‹_› rfl)
    (hx : x.gates = s.tpk.gates := by rfl) : OnlyIn F s₀ { s with tpk := x } :=
  h.trans ⟨fun p hp => by
    cases p
    case tpk => exact (hp (hF.1 _ (.head _))).elim
    case gates => exact hx
    all_goals rfl, .refl _ _⟩

/-! ### The operations -/

theorem setRoad {n r} (h : OnlyIn F s₀ s)
    (hF : Allows F ⟨[.roads], 23⟩ := by exact Allows.mono ‹_› rfl) :
    OnlyIn F s₀ (setRoad n r s) :=
  h.with_roads

theorem setRecRun {n r} (h : OnlyIn F s₀ s)
    (hF : Allows F ⟨[.recRun], 23⟩ := by exact Allows.mono ‹_› rfl) :
    OnlyIn F s₀ (setRecRun n r s) :=
  h.with_recRun

theorem setRecWord {n r} (h : OnlyIn F s₀ s)
    (hF : Allows F ⟨[.recs], 23⟩ := by exact Allows.mono ‹_› rfl) :
    OnlyIn F s₀ (setRecWord n r s) :=
  h.with_recs

theorem setSlotRun {n r} (h : OnlyIn F s₀ s)
    (hF : Allows F ⟨[.slots], 23⟩ := by exact Allows.mono ‹_› rfl) :
    OnlyIn F s₀ (setSlotRun n r s) :=
  h.with_slots

theorem setShaft {n r} (h : OnlyIn F s₀ s)
    (hF : Allows F ⟨[.shafts], 23⟩ := by exact Allows.mono ‹_› rfl) :
    OnlyIn F s₀ (setShaft n r s) :=
  h.with_shafts

theorem setPortRun {n p} (h : OnlyIn F s₀ s)
    (hF : Allows F ⟨[.ports], 23⟩ := by exact Allows.mono ‹_› rfl) :
    OnlyIn F s₀ (setPortRun n p s) :=
  h.with_ports

theorem setMacRun {n m} (h : OnlyIn F s₀ s)
    (hF : Allows F ⟨[.macs], 23⟩ := by exact Allows.mono ‹_› rfl) :
    OnlyIn F s₀ (setMacRun n m s) :=
  h.with_macs

theorem setGateRun {n g} (h : OnlyIn F s₀ s)
    (hF : Allows F ⟨[.tpk, .gates], 23⟩ := by exact Allows.mono ‹_› rfl) :
    OnlyIn F s₀ (setGateRun n g s) :=
  h.with_tpk

theorem setSticky {src} (h : OnlyIn F s₀ s)
    (hF : Allows F ⟨[.regs], 16⟩ := by exact Allows.mono ‹_› rfl) :
    OnlyIn F s₀ (setSticky src s) :=
  h.setRg

theorem noteOccurred {src rise} (h : OnlyIn F s₀ s)
    (hF : Allows F ⟨[.flt], 23⟩ := by exact Allows.mono ‹_› rfl) :
    OnlyIn F s₀ (noteOccurred src rise s) :=
  h.with_flt

theorem occurs {src forced rise} (h : OnlyIn F s₀ s)
    (hF : Allows F ⟨[.regs, .flt], 16⟩ := by exact Allows.mono ‹_› rfl) :
    OnlyIn F s₀ (occurs src forced rise s) := by
  unfold Machine.occurs
  dsimp only
  split
  · exact h.noteOccurred.setSticky
  · split
    · exact h.noteOccurred.setSticky.with_flt.setRgF.with_flt.with_flt.setRgF.bump
    · exact h.noteOccurred.setSticky.with_flt.setRgF.with_flt

theorem raiseSrc {src} (h : OnlyIn F s₀ s)
    (hF : Allows F ⟨[.regs, .flt], 16⟩ := by exact Allows.mono ‹_› rfl) :
    OnlyIn F s₀ (raiseSrc src s) :=
  h.setSticky.ite h.occurs

theorem setCause {r i b} (h : OnlyIn F s₀ s)
    (hF : Allows F ⟨[.regs, .flt], min (r / 0x1000) 16⟩ := by exact Allows.mono ‹_› rfl) :
    OnlyIn F s₀ (setCause r i b s) := by
  have hr : Allows F ⟨[.regs], r / 0x1000⟩ :=
    ⟨fun p hp => hF.1 p (List.mem_cons.mpr (.inl (List.mem_singleton.mp hp))), hF.2.trans (Nat.min_le_left _ _)⟩
  have hf : Allows F ⟨[.regs, .flt], 16⟩ := ⟨hF.1, hF.2.trans (Nat.min_le_right _ _)⟩
  unfold Machine.setCause
  split
  · exact h
  · dsimp only
    split
    · exact (h.setRg hr).raiseSrc hf
    · exact h.setRg hr

theorem refuseAction (h : OnlyIn F s₀ s)
    (hF : Allows F ⟨[.regs, .flt], 3⟩ := by exact Allows.mono ‹_› rfl) :
    OnlyIn F s₀ (refuseAction s) :=
  h.bump.setCause

theorem pulseLineAt {l ns} (h : OnlyIn F s₀ s)
    (hF : Allows F ⟨[.regs, .pulses], 3⟩ := by exact Allows.mono ‹_› rfl) :
    OnlyIn F s₀ (pulseLineAt l ns s) :=
  h.ite (h.bump.ite h.with_pulses.bump)

theorem pulseLine {l} (h : OnlyIn F s₀ s)
    (hF : Allows F ⟨[.regs, .pulses], 3⟩ := by exact Allows.mono ‹_› rfl) :
    OnlyIn F s₀ (pulseLine l s) :=
  h.pulseLineAt

theorem pulseSource {e} (h : OnlyIn F s₀ s)
    (hF : Allows F ⟨[.regs, .pulses], 3⟩ := by exact Allows.mono ‹_› rfl) :
    OnlyIn F s₀ (pulseSource e s) :=
  h.forEach (fun _ _ h1 => h1.pulseLine)

theorem noteAnswer {a ans} (h : OnlyIn F s₀ s)
    (hF : Allows F ⟨[.regs, .flt], 6⟩ := by exact Allows.mono ‹_› rfl) :
    OnlyIn F s₀ (noteAnswer a ans s) := by
  unfold Machine.noteAnswer
  dsimp only
  split
  · split
    · exact h.bump
    · exact h.bump.setCause
    · exact h
  · split
    · exact h.bump
    · exact h.bump.setCause
    · exact h
  · split
    · exact h.bump
    · exact h.bump.setCause
    · exact h.setCause
    · exact h
  · split
    · exact h.bump
    · exact h.bump.setCause
    · exact h.setCause
    · exact h
  · split
    · exact h.bump
    · exact h.bump.setCause
    · exact h.setCause
    · exact h
  · exact h

theorem settleDeficits {p c was} (h : OnlyIn F s₀ s)
    (hF : Allows F ⟨[.tpk], 23⟩ := by exact Allows.mono ‹_› rfl) :
    OnlyIn F s₀ (settleDeficits p c was s) :=
  h.with_tpk_else hF (by dsimp only; split <;> rfl)

theorem settleCredits {p c was} (h : OnlyIn F s₀ s)
    (hF : Allows F ⟨[.tpk], 23⟩ := by exact Allows.mono ‹_› rfl) :
    OnlyIn F s₀ (settleCredits p c was s) :=
  h.ite (h.with_tpk_else hF (by dsimp only; split <;> split <;> rfl))

theorem setJqueue {p c q} (h : OnlyIn F s₀ s)
    (hF : Allows F ⟨[.jct, .tpk], 23⟩ := by exact Allows.mono ‹_› rfl) :
    OnlyIn F s₀ (setJqueue p c q s) :=
  h.with_jct.settleCredits.settleDeficits

theorem setJframe {f} (h : OnlyIn F s₀ s)
    (hF : Allows F ⟨[.jct], 23⟩ := by exact Allows.mono ‹_› rfl) :
    OnlyIn F s₀ (setJframe f s) :=
  h.with_jct

theorem updJframe {id g} (h : OnlyIn F s₀ s)
    (hF : Allows F ⟨[.jct], 23⟩ := by exact Allows.mono ‹_› rfl) :
    OnlyIn F s₀ (updJframe id g s) := by
  unfold Machine.updJframe
  split
  · exact h.setJframe
  · exact h

theorem countRefused {d} (h : OnlyIn F s₀ s)
    (hF : Allows F ⟨[.regs, .flt], 9⟩ := by exact Allows.mono ‹_› rfl) :
    OnlyIn F s₀ (countRefused d s) :=
  h.bump.setCause.setCause

theorem countOversize {f} (h : OnlyIn F s₀ s)
    (hF : Allows F ⟨[.regs, .flt], 11⟩ := by exact Allows.mono ‹_› rfl) :
    OnlyIn F s₀ (countOversize f s) :=
  h.bump.setCause

theorem admitOne {f id multi s0 acc d} (h : OnlyIn F s₀ acc.1)
    (hF : Allows F ⟨[.regs, .jct, .tpk, .flt], 9⟩ := by exact Allows.mono ‹_› rfl) :
    OnlyIn F s₀ (admitOne f id multi s0 acc d).1 := by
  unfold Machine.admitOne
  dsimp only
  split
  · exact h.countOversize
  · split
    · exact h.countRefused
    · exact h.setJqueue.onlyIf fun _ h => h.bump

theorem admitAll {f id multi s0} {ds : List Dest} {as : List Admitted} (h : OnlyIn F s₀ s)
    (hF : Allows F ⟨[.regs, .jct, .tpk, .flt], 9⟩ := by exact Allows.mono ‹_› rfl) :
    OnlyIn F s₀ (ds.foldl (Machine.admitOne f id multi s0) (s, as)).1 := by
  suffices key : ∀ acc : State × List Admitted, OnlyIn F s₀ acc.1 →
      OnlyIn F s₀ (ds.foldl (Machine.admitOne f id multi s0) acc).1 from key _ h
  induction ds with
  | nil => exact fun _ h => h
  | cons d ds ih => exact fun acc h => ih _ h.admitOne

theorem admitFrame {f ds s0} (h : OnlyIn F s₀ s0)
    (hF : Allows F ⟨[.regs, .jct, .tpk, .flt], 9⟩ := by exact Allows.mono ‹_› rfl) :
    OnlyIn F s₀ (admitFrame f ds s0).1 := by
  unfold Machine.admitFrame
  dsimp only
  split
  · exact h.admitAll
  · exact h.admitAll.with_jct

theorem addMirrors {id ms s0} (h : OnlyIn F s₀ s)
    (hF : Allows F ⟨[.regs, .jct, .tpk, .flt], 9⟩ := by exact Allows.mono ‹_› rfl) :
    OnlyIn F s₀ (addMirrors id ms s0 s) := by
  unfold Machine.addMirrors
  split
  · exact h
  · exact h.admitAll.ite h.admitAll.setJframe

theorem releaseRef {id} (h : OnlyIn F s₀ s)
    (hF : Allows F ⟨[.jct], 23⟩ := by exact Allows.mono ‹_› rfl) :
    OnlyIn F s₀ (releaseRef id s) := by
  unfold Machine.releaseRef
  split
  · exact h
  · exact h.with_jct.ite h.setJframe

theorem takeSeq {n} (h : OnlyIn F s₀ s)
    (hF : Allows F ⟨[.regs], 11⟩ := by exact Allows.mono ‹_› rfl) :
    OnlyIn F s₀ (takeSeq n s) :=
  h.addRgF.addRgF

theorem admitSequenced {st f ds} (h : OnlyIn F s₀ s)
    (hF : Allows F ⟨[.regs, .jct, .tpk, .flt], 9⟩ := by exact Allows.mono ‹_› rfl) :
    OnlyIn F s₀ (admitSequenced st f ds s).1 := by
  unfold Machine.admitSequenced
  split
  · exact h.admitFrame
  · exact h.admitFrame.takeSeq.ite_fst h.admitFrame.updJframe

theorem admitStream {st f ds} (h : OnlyIn F s₀ s)
    (hF : Allows F ⟨[.regs, .jct, .tpk, .flt], 9⟩ := by exact Allows.mono ‹_› rfl) :
    OnlyIn F s₀ (admitStream st f ds s).1 :=
  h.admitSequenced.ite_fst h.admitSequenced.addMirrors

theorem internalOffer {f egress} (h : OnlyIn F s₀ s)
    (hF : Allows F ⟨[.regs, .jct, .tpk, .flt], 9⟩ := by exact Allows.mono ‹_› rfl) :
    OnlyIn F s₀ (internalOffer f egress s).1 := by
  unfold Machine.internalOffer
  split
  · exact h.bump.setCause
  · split
    · exact h.bump.setCause
    · split
      · exact h
      · dsimp only
        split
        · dsimp only
          split
          · exact h.bump.onlyIf fun _ h1 => h1.takeSeq
          · exact h.bump
        · refine admitStream ?_
          split
          · split
            · exact h
            · exact h.bump
          · exact h

theorem internalFrame {src egress cls b} (h : OnlyIn F s₀ s)
    (hF : Allows F ⟨[.regs, .jct, .tpk, .flt], 9⟩ := by exact Allows.mono ‹_› rfl) :
    OnlyIn F s₀ (internalFrame src egress cls b s) :=
  h.internalOffer

theorem twinSend {kind step seq body} (h : OnlyIn F s₀ s)
    (hF : Allows F ⟨[.regs, .jct, .tpk, .flt], 9⟩ := by exact Allows.mono ‹_› rfl) :
    OnlyIn F s₀ (twinSend kind step seq body s) := by
  unfold Machine.twinSend
  split
  · exact h.internalFrame
  · exact h

theorem captureInput {kind body} (h : OnlyIn F s₀ s)
    (hF : Allows F ⟨[.regs, .jct, .tpk, .flt, .twn], 9⟩ := by exact Allows.mono ‹_› rfl) :
    OnlyIn F s₀ (captureInput kind body s) :=
  h.with_twn.bump.twinSend

theorem setHalf {p i} (h : OnlyIn F s₀ s)
    (hF : Allows F ⟨[.regs, .flt], 8⟩ := by exact Allows.mono ‹_› rfl) :
    OnlyIn F s₀ (setHalf p i s) := by
  unfold Machine.setHalf
  by_cases hi : i < 32
  · rw [if_pos hi]
    exact h.ite (h.setRgF.raiseSrc.ite h.setRgF.setCause)
  · rw [if_neg hi]
    exact h.ite (h.setRgF.raiseSrc.ite h.setRgF.setCause)

theorem macAdd {i n p} (h : OnlyIn F s₀ s)
    (hF : Allows F ⟨[.regs, .flt], 8⟩ := by exact Allows.mono ‹_› rfl) :
    OnlyIn F s₀ (macAdd i n p s) :=
  ((h.setRg (blockFrom hF (by decide))).setHalf (Allows.mono hF rfl)).ite (h.setRg (blockFrom hF (by decide)))

theorem macBump {i p} (h : OnlyIn F s₀ s)
    (hF : Allows F ⟨[.regs, .flt], 8⟩ := by exact Allows.mono ‹_› rfl) :
    OnlyIn F s₀ (macBump i p s) :=
  h.macAdd

theorem showVerify {p} (h : OnlyIn F s₀ s)
    (hF : Allows F ⟨[.regs], 8⟩ := by exact Allows.mono ‹_› rfl) :
    OnlyIn F s₀ (showVerify p s) :=
  h.setRgF

theorem setVerification {p v} (h : OnlyIn F s₀ s)
    (hF : Allows F ⟨[.regs, .macs], 8⟩ := by exact Allows.mono ‹_› rfl) :
    OnlyIn F s₀ (setVerification p v s) :=
  h.setMacRun.showVerify

theorem restartVerify {p} (h : OnlyIn F s₀ s)
    (hF : Allows F ⟨[.regs, .macs], 8⟩ := by exact Allows.mono ‹_› rfl) :
    OnlyIn F s₀ (restartVerify p s) :=
  h.setRg.setVerification

theorem linkFailed {p} (h : OnlyIn F s₀ s)
    (hF : Allows F ⟨[.regs, .macs], 8⟩ := by exact Allows.mono ‹_› rfl) :
    OnlyIn F s₀ (linkFailed p s) :=
  h.onlyIf fun _ h1 => h1.restartVerify

theorem setHanded {p c} (h : OnlyIn F s₀ s)
    (hF : Allows F ⟨[.tpk], 23⟩ := by exact Allows.mono ‹_› rfl) :
    OnlyIn F s₀ (setHanded p c s) :=
  h.with_tpk_else

theorem setSuspended {p c} (h : OnlyIn F s₀ s)
    (hF : Allows F ⟨[.tpk], 23⟩ := by exact Allows.mono ‹_› rfl) :
    OnlyIn F s₀ (setSuspended p c s) :=
  h.with_tpk_else

theorem setPreempting {p b} (h : OnlyIn F s₀ s)
    (hF : Allows F ⟨[.tpk], 23⟩ := by exact Allows.mono ‹_› rfl) :
    OnlyIn F s₀ (setPreempting p b s) :=
  h.with_tpk_else

theorem endHanded {p} (h : OnlyIn F s₀ s)
    (hF : Allows F ⟨[.jct, .tpk], 23⟩ := by exact Allows.mono ‹_› rfl) :
    OnlyIn F s₀ (endHanded p s) := by
  unfold Machine.endHanded
  split
  · exact h.setHanded.releaseRef.setPreempting
  · exact h

theorem endSuspended {p} (h : OnlyIn F s₀ s)
    (hF : Allows F ⟨[.jct, .tpk], 23⟩ := by exact Allows.mono ‹_› rfl) :
    OnlyIn F s₀ (endSuspended p s) := by
  unfold Machine.endSuspended
  split
  · exact h.setSuspended.releaseRef
  · exact h

theorem lineLost {p} (h : OnlyIn F s₀ s)
    (hF : Allows F ⟨[.regs, .jct, .tpk, .flt], 8⟩ := by exact Allows.mono ‹_› rfl) :
    OnlyIn F s₀ (lineLost p s) :=
  (h.onlyIf (fun _ h1 => h1.endHanded.macBump)).onlyIf (fun _ h1 => h1.endSuspended.macBump)

theorem clearLinkStatus {p} (h : OnlyIn F s₀ s)
    (hF : Allows F ⟨[.regs], 7⟩ := by exact Allows.mono ‹_› rfl) :
    OnlyIn F s₀ (clearLinkStatus p s) :=
  h.setRgF.setRgF

theorem setLink {p up} (h : OnlyIn F s₀ s)
    (hF : Allows F ⟨[.regs, .pulses, .macs, .jct, .tpk, .flt], 3⟩ := by exact Allows.mono ‹_› rfl) :
    OnlyIn F s₀ (setLink p up s) :=
  h.ite (h.setRgF.onlyIf (fun _ h1 => h1.clearLinkStatus.lineLost.linkFailed)).setCause.pulseSource

theorem setVerge {p v} (h : OnlyIn F s₀ s)
    (hF : Allows F ⟨[.ports], 23⟩ := by exact Allows.mono ‹_› rfl) :
    OnlyIn F s₀ (setVerge p v s) :=
  h.setPortRun

theorem refuseVerge {p} (h : OnlyIn F s₀ s)
    (hF : Allows F ⟨[.regs, .flt], 7⟩ := by exact Allows.mono ‹_› rfl) :
    OnlyIn F s₀ (refuseVerge p s) :=
  h.bump.setCause

theorem skipVerge {p} (h : OnlyIn F s₀ s)
    (hF : Allows F ⟨[.regs, .ports, .flt], 7⟩ := by exact Allows.mono ‹_› rfl) :
    OnlyIn F s₀ (skipVerge p s) :=
  h.setVerge.bump.setCause

theorem startVerge {p forced} (h : OnlyIn F s₀ s)
    (hF : Allows F ⟨[.regs, .pulses, .ports, .macs, .jct, .tpk, .flt, .gates], 3⟩ := by exact Allows.mono ‹_› rfl) :
    OnlyIn F s₀ (startVerge p forced s) :=
  ((h.setVerge.onlyIf (fun _ h1 => h1.setGateRun)).pulseSource.onlyIf (fun _ h1 => h1.bump)).onlyIf
    fun _ h1 => h1.setLink

theorem requestVerge {p ns endNs expected mask software} (h : OnlyIn F s₀ s)
    (hF : Allows F ⟨[.regs, .pulses, .ports, .macs, .jct, .tpk, .flt, .gates], 3⟩ := by exact Allows.mono ‹_› rfl) :
    OnlyIn F s₀ (requestVerge p ns endNs expected mask software s).1 :=
  h.refuseVerge.ite_fst ((h.setVerge.onlyIf (fun _ h1 => h1.setRgF)).onlyIf (fun _ h1 => h1.startVerge))

theorem closeVerge {p v ans} (h : OnlyIn F s₀ s)
    (hF : Allows F ⟨[.regs, .mem, .pulses, .ports, .flt], 3⟩ := by exact Allows.mono ‹_› rfl) :
    OnlyIn F s₀ (closeVerge p v ans s) :=
  ((h.setVerge.onlyIf (fun _ h1 => h1.bump.setCause)).ite ((h.setVerge.onlyIf
    (fun _ h1 => h1.bump.setCause)).noteAnswer.ite (h.setVerge.onlyIf
    (fun _ h1 => h1.bump.setCause)).noteAnswer.setPortRun.bump.wrBytes)).pulseSource

theorem endVerge {p ans} (h : OnlyIn F s₀ s)
    (hF : Allows F ⟨[.regs, .mem, .pulses, .ports, .flt], 3⟩ := by exact Allows.mono ‹_› rfl) :
    OnlyIn F s₀ (endVerge p ans s) :=
  h.closeVerge

theorem entryEndsVerge {p ans} (h : OnlyIn F s₀ s)
    (hF : Allows F ⟨[.regs, .mem, .pulses, .ports, .flt], 3⟩ := by exact Allows.mono ‹_› rfl) :
    OnlyIn F s₀ (entryEndsVerge p ans s) := by
  unfold Machine.entryEndsVerge
  dsimp only
  split
  · exact h
  · split
    · exact h
    · exact h.skipVerge
    · exact h.endVerge

theorem triggerFrame {slot ans} (h : OnlyIn F s₀ s)
    (hF : Allows F ⟨[.regs, .jct, .tpk, .flt], 3⟩ := by exact Allows.mono ‹_› rfl) :
    OnlyIn F s₀ (triggerFrame slot ans s) :=
  h.refuseAction.ite (h.noteAnswer.refuseAction.ite (h.noteAnswer.refuseAction.ite
    (h.noteAnswer.internalOffer.ite h.noteAnswer.internalOffer.refuseAction)))

theorem closeWindows {p before after switch} (h : OnlyIn F s₀ s)
    (hF : Allows F ⟨[.regs, .flt], 10⟩ := by exact Allows.mono ‹_› rfl) :
    OnlyIn F s₀ (closeWindows p before after switch s) :=
  h.forEach (fun _ _ h1 => h1.bump.setCause.ite h1)

theorem startEntry {p before switch partWay ans} (h : OnlyIn F s₀ s)
    (hF : Allows F ⟨[.regs, .mem, .pulses, .ports, .macs, .jct, .tpk, .flt, .gates], 3⟩ :=
      by exact Allows.mono ‹_› rfl) :
    OnlyIn F s₀ (startEntry p before switch partWay ans s) :=
  h.entryEndsVerge.setGateRun.closeWindows.ite (h.entryEndsVerge.setGateRun.closeWindows.requestVerge.ite
    (h.entryEndsVerge.setGateRun.closeWindows.triggerFrame.ite h.entryEndsVerge.setGateRun.closeWindows))

theorem gateFallback {late p} (h : OnlyIn F s₀ s)
    (hF : Allows F ⟨[.regs, .tpk, .flt, .gates], 10⟩ := by exact Allows.mono ‹_› rfl) :
    OnlyIn F s₀ (gateFallback late p s) :=
  h.ite h.setGateRun.setCause

theorem roadLeavesTracking {new n} (h : OnlyIn F s₀ s)
    (hF : Allows F ⟨[.regs, .tpk, .flt, .gates], 10⟩ := by exact Allows.mono ‹_› rfl) :
    OnlyIn F s₀ (roadLeavesTracking new n s) :=
  h.forEach (fun _ _ h1 => h1.gateFallback)

theorem refreshEndTimes {n} (h : OnlyIn F s₀ s)
    (hF : Allows F ⟨[.tpk, .gates], 23⟩ := by exact Allows.mono ‹_› rfl) :
    OnlyIn F s₀ (refreshEndTimes n s) :=
  h.forEach (fun _ _ h1 => h1.ite h1.setGateRun)

theorem advanceStep {p t' ans} (h : OnlyIn F s₀ s)
    (hF : Allows F ⟨[.regs, .mem, .pulses, .ports, .macs, .jct, .tpk, .flt, .gates], 3⟩ :=
      by exact Allows.mono ‹_› rfl) :
    OnlyIn F s₀ (advanceStep p t' ans s) :=
  h.setGateRun.startEntry

theorem takeDueStep {p} (h : OnlyIn F s₀ s)
    (hF : Allows F ⟨[.regs, .mem, .pulses, .ports, .macs, .jct, .tpk, .flt, .gates], 3⟩ :=
      by exact Allows.mono ‹_› rfl) :
    OnlyIn F s₀ (takeDueStep p s) := by
  unfold Machine.takeDueStep
  dsimp only
  split
  · exact h
  · exact h.setGateRun.advanceStep.setGateRun.ite h.setGateRun.setGateRun

theorem takeDueSteps (h : OnlyIn F s₀ s)
    (hF : Allows F ⟨[.regs, .mem, .pulses, .ports, .macs, .jct, .tpk, .flt, .gates], 3⟩ :=
      by exact Allows.mono ‹_› rfl) :
    OnlyIn F s₀ (takeDueSteps s) :=
  h.forEach (fun _ _ h1 => h1.takeDueStep)

theorem gateMilepostStep {delta p} (h : OnlyIn F s₀ s)
    (hF : Allows F ⟨[.regs, .mem, .pulses, .ports, .macs, .jct, .tpk, .flt, .gates], 3⟩ :=
      by exact Allows.mono ‹_› rfl) :
    OnlyIn F s₀ (gateMilepostStep delta p s) :=
  h.setGateRun.startEntry.ite (h.setGateRun.ite h)

theorem gatesLoseRoads (h : OnlyIn F s₀ s)
    (hF : Allows F ⟨[.regs, .tpk, .flt, .gates], 10⟩ := by exact Allows.mono ‹_› rfl) :
    OnlyIn F s₀ (gatesLoseRoads s) :=
  h.forEach (fun _ _ h1 => h1.roadLeavesTracking)

theorem gatesMilepostStep {delta} (h : OnlyIn F s₀ s)
    (hF : Allows F ⟨[.regs, .mem, .pulses, .ports, .macs, .jct, .tpk, .flt, .gates], 3⟩ :=
      by exact Allows.mono ‹_› rfl) :
    OnlyIn F s₀ (gatesMilepostStep delta s) :=
  h.forEach (fun _ _ h1 => h1.gateMilepostStep)

theorem testAgainst {n pub edge} (h : OnlyIn F s₀ s)
    (hF : Allows F ⟨[.regs, .recs, .recRun], 3⟩ := by exact Allows.mono ‹_› rfl) :
    OnlyIn F s₀ (testAgainst n pub edge s) :=
  h.ite (h.setRecWord.bump.ite (h.setRecWord.ite h.setRecRun))

theorem passedTest {n} (h : OnlyIn F s₀ s)
    (hF : Allows F ⟨[.regs, .recs, .recRun], 3⟩ := by exact Allows.mono ‹_› rfl) :
    OnlyIn F s₀ (passedTest n s) :=
  h.setRecRun.ite h.testAgainst

theorem armTest {n} (h : OnlyIn F s₀ s)
    (hF : Allows F ⟨[.regs, .recs, .recRun], 3⟩ := by exact Allows.mono ‹_› rfl) :
    OnlyIn F s₀ (armTest n s) :=
  h.passedTest.ite h

theorem roadReturns {n} (h : OnlyIn F s₀ s)
    (hF : Allows F ⟨[.regs, .recs, .recRun], 3⟩ := by exact Allows.mono ‹_› rfl) :
    OnlyIn F s₀ (roadReturns n s) :=
  (h.forEach (fun _ _ h1 => h1.passedTest)).ite h

theorem forgetDue {n} (h : OnlyIn F s₀ s)
    (hF : Allows F ⟨[.recRun], 23⟩ := by exact Allows.mono ‹_› rfl) :
    OnlyIn F s₀ (forgetDue n s) :=
  h.forEach (fun _ _ h1 => h1.setRecRun)

theorem roadStrands {n} (h : OnlyIn F s₀ s)
    (hF : Allows F ⟨[.regs, .recRun, .flt], 3⟩ := by exact Allows.mono ‹_› rfl) :
    OnlyIn F s₀ (roadStrands n s) :=
  h.ite (h.setCause.forEach (fun _ _ h1 => h1.setRecRun))

theorem commitRecord {n w} (h : OnlyIn F s₀ s)
    (hF : Allows F ⟨[.regs, .recs, .recRun], 3⟩ := by exact Allows.mono ‹_› rfl) :
    OnlyIn F s₀ (commitRecord n w s) :=
  h.setRecWord.setRecRun.onlyIf fun _ h1 => h1.armTest

theorem applyCommits {p} (h : OnlyIn F s₀ s)
    (hF : Allows F ⟨[.regs, .recs, .recRun, .commits], 3⟩ := by exact Allows.mono ‹_› rfl) :
    OnlyIn F s₀ (applyCommits p s) :=
  h.with_commits.forEach (fun _ _ h1 => h1.commitRecord)

theorem countDeferrals (h : OnlyIn F s₀ s)
    (hF : Allows F ⟨[.regs, .flt], 3⟩ := by exact Allows.mono ‹_› rfl) :
    OnlyIn F s₀ (countDeferrals s) :=
  h.ite h.addRgF.setCause

theorem writeHistory {n trans fracOnly} (h : OnlyIn F s₀ s)
    (hF : Allows F ⟨[.regs, .mem, .frozen], 2⟩ := by exact Allows.mono ‹_› rfl) :
    OnlyIn F s₀ (writeHistory n trans fracOnly s) :=
  h.wrBytes.with_frozen.setRgF.setRgF

theorem clearHistory {n} (h : OnlyIn F s₀ s)
    (hF : Allows F ⟨[.regs], 2⟩ := by exact Allows.mono ‹_› rfl) :
    OnlyIn F s₀ (clearHistory n s) :=
  h.setRgF.setRgF

theorem queueEntry {n} (h : OnlyIn F s₀ s)
    (hF : Allows F ⟨[.roads], 23⟩ := by exact Allows.mono ‹_› rfl) :
    OnlyIn F s₀ (queueEntry n s) :=
  h.setRoad

theorem transition {n new cause} (h : OnlyIn F s₀ s)
    (hF : Allows F ⟨[.regs, .mem, .roads, .recRun, .frozen, .pulses, .tpk, .flt, .gates], 2⟩ :=
      by exact Allows.mono ‹_› rfl) :
    OnlyIn F s₀ (transition n new cause s) :=
  (((h.setRoad.onlyIf (fun _ h1 => h1.setRgF)).setRgF.bump.setCause.writeHistory.queueEntry.pulseSource.onlyIf
    (fun _ h1 => h1.forgetDue)).onlyIf (fun _ h1 => h1.roadStrands)).onlyIf fun _ h1 => h1.roadLeavesTracking

theorem settleReturn {n before} (h : OnlyIn F s₀ s)
    (hF : Allows F ⟨[.regs, .roads, .recs, .recRun], 3⟩ := by exact Allows.mono ‹_› rfl) :
    OnlyIn F s₀ (settleReturn n before s) :=
  h.ite h.setRoad.roadReturns

theorem enqueueObservation {o} (h : OnlyIn F s₀ s)
    (hF : Allows F ⟨[.regs, .ingest, .arriveEdge, .arriveCount, .flt], 2⟩ := by exact Allows.mono ‹_› rfl) :
    OnlyIn F s₀ (enqueueObservation o s) := by
  unfold Machine.enqueueObservation
  split
  · exact h.bump
  · dsimp only
    split
    · exact h.with_ingest_arriveEdge_arriveCount.bump.bump.setCause
    · exact h.with_ingest_arriveEdge_arriveCount

theorem staleObservation {n} (h : OnlyIn F s₀ s)
    (hF : Allows F ⟨[.regs, .flt], 2⟩ := by exact Allows.mono ‹_› rfl) :
    OnlyIn F s₀ (staleObservation n s) :=
  h.bump.setCause

theorem localObservation {o} (h : OnlyIn F s₀ s)
    (hF : Allows F ⟨[.regs, .ingest, .arriveEdge, .arriveCount, .jct, .tpk, .flt, .twn], 2⟩ :=
      by exact Allows.mono ‹_› rfl) :
    OnlyIn F s₀ (localObservation o s) :=
  h.enqueueObservation.ite (h.staleObservation.ite h.captureInput)

theorem bookApplied {n fracOnly} (h : OnlyIn F s₀ s)
    (hF : Allows F ⟨[.regs, .mem, .roads, .frozen, .tpk, .gates], 2⟩ := by exact Allows.mono ‹_› rfl) :
    OnlyIn F s₀ (bookApplied n fracOnly s) :=
  h.setRoad.setRgF.bump.writeHistory.refreshEndTimes

theorem initialise {n o} (h : OnlyIn F s₀ s)
    (hF : Allows F ⟨[.regs, .mem, .roads, .frozen, .tpk, .gates], 2⟩ := by exact Allows.mono ‹_› rfl) :
    OnlyIn F s₀ (initialise n o s) :=
  h.setRoad.setRgF.bookApplied

theorem beforeIngest {n} (h : OnlyIn F s₀ s)
    (hF : Allows F ⟨[.regs, .roads, .ingested], 2⟩ := by exact Allows.mono ‹_› rfl) :
    OnlyIn F s₀ (beforeIngest n s) := by
  unfold Machine.beforeIngest
  split
  · exact h
  · exact h.setRg.setRg.setRg.setRg.setRg.with_ingested.setRoad

theorem clockRoadLap {n} (h : OnlyIn F s₀ s)
    (hF : Allows F ⟨[.regs, .mem, .roads, .frozen], 2⟩ := by exact Allows.mono ‹_› rfl) :
    OnlyIn F s₀ (clockRoadLap n s) :=
  h.ite h.setRoad.writeHistory

theorem roadMilepostStep {delta n} (h : OnlyIn F s₀ s)
    (hF : Allows F ⟨[.regs, .mem, .roads, .recRun, .frozen, .pulses, .tpk, .flt, .gates], 2⟩ :=
      by exact Allows.mono ‹_› rfl) :
    OnlyIn F s₀ (roadMilepostStep delta n s) :=
  h.ite (h.clearHistory.setRoad.ite (h.ite h.clearHistory.setRoad.transition))

theorem roadsMilepostStep {delta} (h : OnlyIn F s₀ s)
    (hF : Allows F ⟨[.regs, .mem, .roads, .recRun, .frozen, .pulses, .tpk, .flt, .gates], 2⟩ :=
      by exact Allows.mono ‹_› rfl) :
    OnlyIn F s₀ (roadsMilepostStep delta s) :=
  h.forEach (fun _ _ h1 => h1.roadMilepostStep)

theorem feedRoads {kind i time lap frac hint} (h : OnlyIn F s₀ s)
    (hF : Allows F ⟨[.regs, .ingest, .arriveEdge, .arriveCount, .jct, .tpk, .flt, .twn], 2⟩ :=
      by exact Allows.mono ‹_› rfl) :
    OnlyIn F s₀ (feedRoads kind i time lap frac hint s) :=
  h.forEach (fun _ _ h1 => h1.localObservation)

theorem issueShaft {c t' hint} (h : OnlyIn F s₀ s)
    (hF : Allows F ⟨[.regs, .ingest, .arriveEdge, .arriveCount, .jct, .tpk, .flt, .twn], 2⟩ :=
      by exact Allows.mono ‹_› rfl) :
    OnlyIn F s₀ (issueShaft c t' hint s) :=
  h.feedRoads.ite h

theorem issueDue {c} (h : OnlyIn F s₀ s)
    (hF : Allows F ⟨[.regs, .ingest, .arriveEdge, .arriveCount, .shafts, .jct, .tpk, .flt, .twn], 2⟩ :=
      by exact Allows.mono ‹_› rfl) :
    OnlyIn F s₀ (issueDue c s) := by
  unfold Machine.issueDue
  dsimp only
  split
  · exact h
  · exact h.setShaft.issueShaft.ite h.setShaft

theorem wpSendOn {t' peer msg} (h : OnlyIn F s₀ s)
    (hF : Allows F ⟨[.regs, .jct, .tpk, .flt, .draws], 9⟩ := by exact Allows.mono ‹_› rfl) :
    OnlyIn F s₀ (wpSendOn t' peer msg s) := by
  unfold Machine.wpSendOn
  split
  · exact h.internalFrame
  · exact h.with_draws.internalFrame

theorem wpSendSession {i peer type flags epoch seq status payload} (h : OnlyIn F s₀ s)
    (hF : Allows F ⟨[.regs, .jct, .tpk, .flt, .draws], 9⟩ := by exact Allows.mono ‹_› rfl) :
    OnlyIn F s₀ (wpSendSession i peer type flags epoch seq status payload s) := by
  unfold Machine.wpSendSession
  split
  · exact h
  · exact h.wpSendOn

theorem wpUnsolicited {i type payload} (h : OnlyIn F s₀ s)
    (hF : Allows F ⟨[.regs, .jct, .tpk, .flt, .draws], 9⟩ := by exact Allows.mono ‹_› rfl) :
    OnlyIn F s₀ (wpUnsolicited i type payload s).1 :=
  h.ite_fst h.setRg.wpSendSession

theorem wpSendAssocPort {a type port dst payload} (h : OnlyIn F s₀ s)
    (hF : Allows F ⟨[.regs, .jct, .tpk, .flt, .wpt], 9⟩ := by exact Allows.mono ‹_› rfl) :
    OnlyIn F s₀ (wpSendAssocPort a type port dst payload s) := by
  unfold Machine.wpSendAssocPort
  split
  · exact h
  · exact h.ite h.with_wpt.internalFrame

theorem sendWorker {w type payload} (h : OnlyIn F s₀ s)
    (hF : Allows F ⟨[.regs, .jct, .tpk, .flt, .wpt], 9⟩ := by exact Allows.mono ‹_› rfl) :
    OnlyIn F s₀ (sendWorker w type payload s) :=
  h.forEach (fun _ _ h1 => h1.wpSendAssocPort)

theorem roadToSession {i payload} (h : OnlyIn F s₀ s)
    (hF : Allows F ⟨[.regs, .jct, .tpk, .flt, .draws], 8⟩ := by exact Allows.mono ‹_› rfl) :
    OnlyIn F s₀ (roadToSession i payload s) :=
  h.wpUnsolicited.ite (h.wpUnsolicited.bump (blockFrom hF (by decide)))

theorem entrySent {n} (h : OnlyIn F s₀ s)
    (hF : Allows F ⟨[.roads], 23⟩ := by exact Allows.mono ‹_› rfl) :
    OnlyIn F s₀ (entrySent n s) :=
  h.setRoad

end OnlyIn

end Sys2Proof.Machine
end

section
/-! PROOF. O4, O5: the state after reset, and the counter on the edges of TCLK. An edge takes the arrivals, then
counts, then takes the committed increment, then the gate steps that are due. -/

set_option Elab.async false

namespace Sys2Proof.Machine

open Sys2Proof

/-! ### The state after reset -/

theorem rg_reset (r i : Nat) : rg r i State.reset = regReset (rkey r i) := rfl

theorem srcSticky_reset (src : Fin 2048) : srcSticky src State.reset = false := by
  have h : ∀ g : Fin 64, regReset (rkey FLT_G_STICKY g) = 0 := by decide
  have hg : regReset (rkey FLT_G_STICKY (src / 32)) = 0 := h ⟨src / 32, by omega⟩
  rw [srcSticky, rg_reset, hg]
  simp [bit]

/-- Settles O4. -/
theorem resetLeavesTheBlockIdle : Obligations.ResetLeavesTheBlockIdle := by
  refine ⟨⟨rfl, by decide, by decide, fun _ => ⟨rfl, rfl⟩, fun _ => rfl, rfl, srcSticky_reset, rfl, rfl, rfl, rfl⟩, ?_⟩
  decide

/-! ### An edge of TCLK -/

/-- What an edge does before the counter advances: due shaft observations, commits of records and deferrals. -/
def edgeArrivals (s : State) : State :=
  countDeferrals (applyCommits (fun _ _ => true) (forEach (List.range 16) issueDue s))

/-- The edge is counted. -/
def edgeCounted (s : State) : State :=
  { s with mp := { s.mp with tclk := s.mp.tclk + 1, elapsed := s.mp.elapsed + activeIncr s } }

/-- The counter takes the pending step, or adds the increment. -/
def edgeAdvanced (s : State) : State := if bit (rg MPT_STATUS 0 s) 1 then takeStep s else addIncr s

/-- The committed increment becomes active. -/
def edgeIncremented (s : State) : State :=
  if bit (rg MPT_STATUS 0 s) 2 then setRgF MPT_STATUS 0 2 2 0 (setIncr s.mp.stagedIncr.toNat s) else s

/-- The edge counted, with its arrivals. -/
def edgeBegun (s : State) : State := edgeCounted (edgeArrivals s)

theorem tclkEdge_eq (s : State) : tclkEdge s = takeDueSteps (edgeIncremented (edgeAdvanced (edgeBegun s))) := by
  dsimp only [tclkEdge, edgeBegun, edgeArrivals, edgeCounted, edgeAdvanced, edgeIncremented]

theorem onlyIn_edgeArrivals (s : State) :
    OnlyIn ⟨[.regs, .ingest, .arriveEdge, .arriveCount, .recs, .recRun, .commits, .shafts, .jct, .tpk, .flt, .twn], 2⟩
      s (edgeArrivals s) :=
  .of fun _ _ => ((OnlyIn.refl s).forEach fun _ _ h => h.issueDue).applyCommits.countDeferrals

theorem applyCommits_recs {p : Nat → State → Bool} {s : State} (h : s.commits = []) :
    (applyCommits p s).recs = s.recs := by
  unfold applyCommits
  simp only [h, List.filter_nil, forEach_nil]

theorem onlyIn_shaftsDue (s : State) :
    OnlyIn ⟨[.regs, .ingest, .arriveEdge, .arriveCount, .shafts, .jct, .tpk, .flt, .twn], 2⟩ s
      (forEach (List.range 16) issueDue s) :=
  .of fun _ _ => (OnlyIn.refl s).forEach fun _ _ h => h.issueDue

theorem onlyIn_countDeferrals (s : State) : OnlyIn ⟨[.regs, .flt], 2⟩ s (countDeferrals s) :=
  .of fun _ _ => (OnlyIn.refl s).countDeferrals

theorem edgeArrivals_recs {s : State} (h : s.commits = []) : (edgeArrivals s).recs = s.recs :=
  have hi := onlyIn_shaftsDue s
  ((onlyIn_countDeferrals _).keeps .recs).trans
    ((applyCommits_recs ((hi.keeps .commits).trans h)).trans (hi.keeps .recs))

/-- What the advance of an edge leaves: the counter at `c`, the status register at `w`, the rest of Milepost's time. -/
structure Advanced (s t : State) (c : BitVec 64) (w : Word) : Prop where
  counter : t.mp.counter = c
  tclk : t.mp.tclk = s.mp.tclk
  staged : t.mp.stagedIncr = s.mp.stagedIncr
  status : rg MPT_STATUS 0 t = w

theorem Advanced.of_mp {s t u : State} {c : BitVec 64} {w w' : Word} (h : Advanced s t c w) (hm : u.mp = t.mp)
    (hw : rg MPT_STATUS 0 u = w') : Advanced s u c w' :=
  ⟨hm ▸ h.counter, hm ▸ h.tclk, hm ▸ h.staged, hw⟩

theorem status_setCause {b : Nat} {s : State} : rg MPT_STATUS 0 (setCause MPT_CAUSE 0 b s) = rg MPT_STATUS 0 s :=
  rg_setCause_other (by decide) (by decide)

theorem mp_setCause (r i b : Nat) (s : State) : (setCause r i b s).mp = s.mp := by
  obtain ⟨x, q, hx⟩ := setCause_frame r i b s
  rw [hx]

/-- A wrap of the counter: the journal's epoch, the event lines and the cause. -/
def noteWrap (s : State) : State := setCause MPT_CAUSE 0 0 (pulseSource .wrap (bump JNL_EPOCH 0 15 0 s))

theorem onlyIn_wrapPulse (s : State) :
    OnlyIn ⟨[.regs, .pulses], 2⟩ s (pulseSource .wrap (bump JNL_EPOCH 0 15 0 s)) :=
  .of fun _ _ => (OnlyIn.refl s).bump.pulseSource

theorem Advanced.noteWrap {s t : State} {c : BitVec 64} {w : Word} (h : Advanced s t c w) :
    Advanced s (noteWrap t) c w :=
  h.of_mp ((mp_setCause ..).trans ((onlyIn_wrapPulse t).keeps .mp))
    (status_setCause.trans (((onlyIn_wrapPulse t).rg MPT_STATUS 0).trans h.status))

/-- The counter of a state, changed alone. -/
def withCounter (c : BitVec 64) (s : State) : State := { s with mp := { s.mp with counter := c } }

/-- A counted wrap of the counter. -/
def withWrap (s : State) : State :=
  { s with mp := { s.mp with extWraps := s.mp.extWraps + 1, wrapAt := some (elapsedNs s) } }

theorem addIncr_eq (s : State) : addIncr s =
    if s.mp.counter.toNat + activeIncr s < 2 ^ 64 then
      withCounter (BitVec.ofNat 64 (s.mp.counter.toNat + activeIncr s)) s
    else noteWrap (withWrap (withCounter (BitVec.ofNat 64 (s.mp.counter.toNat + activeIncr s)) s)) := by
  unfold addIncr
  generalize s.mp.counter.toNat + activeIncr s = n
  unfold noteWrap withWrap withCounter
  rfl

theorem advanced_withCounter (c : BitVec 64) (s : State) : Advanced s (withCounter c s) c (rg MPT_STATUS 0 s) :=
  ⟨rfl, rfl, rfl, rfl⟩

theorem advanced_withWrap (c : BitVec 64) (s : State) :
    Advanced s (withWrap (withCounter c s)) c (rg MPT_STATUS 0 s) :=
  ⟨rfl, rfl, rfl, rfl⟩

theorem ofNat_counter_add (c : BitVec 64) (n : Nat) : BitVec.ofNat 64 (c.toNat + n) = c + BitVec.ofNat 64 n := by
  rw [BitVec.ofNat_add, BitVec.ofNat_toNat, BitVec.setWidth_eq]

theorem advanced_addIncr (s : State) :
    Advanced s (addIncr s) (s.mp.counter + BitVec.ofNat 64 (activeIncr s)) (rg MPT_STATUS 0 s) := by
  rw [addIncr_eq, ofNat_counter_add]
  split
  · exact advanced_withCounter _ s
  · exact (advanced_withWrap _ s).noteWrap

/-- The counter at the step target. -/
def stepTarget (s : State) : BitVec 64 := rg MPT_SET_NS 0 s ++ rg MPT_SET_FRAC 0 s

theorem stepTarget_eq (s : State) :
    BitVec.ofNat 64 ((rg MPT_SET_NS 0 s).toNat * 2 ^ 32 + (rg MPT_SET_FRAC 0 s).toNat) = stepTarget s := by
  apply BitVec.eq_of_toNat_eq
  rw [stepTarget, BitVec.toNat_append, BitVec.toNat_ofNat, Nat.shiftLeft_eq, Nat.mod_eq_of_lt (by omega),
    ← Nat.shiftLeft_eq, Nat.shiftLeft_add_eq_or_of_lt (by omega)]

/-- A pending step is taken: the counter, the status and the cause. -/
def stepNoted (c : BitVec 64) (s : State) : State :=
  setCause MPT_CAUSE 0 1 (setRgF MPT_STATUS 0 1 0 1 (withCounter c s))

theorem takeStep_eq (s : State) : ∃ delta : BitVec 64, takeStep s =
    gatesMilepostStep delta (roadsMilepostStep (lowNs delta) (stepNoted (stepTarget (gatesLoseRoads s))
      (gatesLoseRoads s))) := by
  rw [← stepTarget_eq]
  unfold takeStep
  extract_lets old s1 target m s2 s3 delta
  exact ⟨delta, rfl⟩

theorem advanced_stepNoted (c : BitVec 64) (s : State) :
    Advanced s (stepNoted c s) c (setFld (rg MPT_STATUS 0 s) 1 0 1) :=
  Advanced.of_mp (t := withCounter c s) (w := rg MPT_STATUS 0 s) ⟨rfl, rfl, rfl, rfl⟩ (mp_setCause ..)
    (status_setCause.trans (rg_setRg_same ..))

theorem Advanced.start {s t u : State} {c : BitVec 64} {w : Word} (h : Advanced t u c w) (hm : t.mp = s.mp) :
    Advanced s u c w :=
  ⟨h.counter, h.tclk.trans (congrArg _ hm), h.staged.trans (congrArg _ hm), h.status⟩

theorem onlyIn_gatesLoseRoads (s : State) : OnlyIn ⟨[.regs, .tpk, .flt, .gates], 2⟩ s (gatesLoseRoads s) :=
  .of fun _ _ => (OnlyIn.refl s).gatesLoseRoads

theorem onlyIn_milepostStep (delta : BitVec 64) (s : State) :
    OnlyIn ⟨[.regs, .mem, .roads, .recRun, .frozen, .pulses, .ports, .macs, .jct, .tpk, .flt, .gates], 2⟩ s
      (gatesMilepostStep delta (roadsMilepostStep (lowNs delta) s)) :=
  .of fun _ _ => (OnlyIn.refl s).roadsMilepostStep.gatesMilepostStep

theorem stepTarget_of_low {l : List Part} {s t : State} (h : OnlyIn ⟨l, 2⟩ s t) : stepTarget t = stepTarget s := by
  rw [stepTarget, stepTarget,
    h.rg MPT_SET_NS 0 (show rkey MPT_SET_NS 0 < rkey (2 * 0x1000) 0 by decide),
    h.rg MPT_SET_FRAC 0 (show rkey MPT_SET_FRAC 0 < rkey (2 * 0x1000) 0 by decide)]

theorem advanced_takeStep (s : State) :
    Advanced s (takeStep s) (stepTarget s) (setFld (rg MPT_STATUS 0 s) 1 0 1) := by
  have h1 := onlyIn_gatesLoseRoads s
  obtain ⟨delta, hd⟩ := takeStep_eq s
  have hn := (advanced_stepNoted (stepTarget (gatesLoseRoads s)) (gatesLoseRoads s)).start (h1.keeps .mp)
  have h2 := onlyIn_milepostStep delta (stepNoted (stepTarget (gatesLoseRoads s)) (gatesLoseRoads s))
  rw [h1.rg MPT_STATUS 0] at hn
  rw [hd, ← stepTarget_of_low h1]
  exact hn.of_mp (h2.keeps .mp) ((h2.rg MPT_STATUS 0).trans hn.status)

theorem takeDueStep_of_none {p : Nat} {s : State} (h : (gateRun p s).stepDue = none) : takeDueStep p s = s := by
  unfold takeDueStep
  dsimp only
  rw [h]

theorem takeDueSteps_of_none {s : State} (h : noStepDue s) : takeDueSteps s = s :=
  forEach_keeps (· = s) _ takeDueStep s (fun p _ t ht => by rw [ht, takeDueStep_of_none (h p)]) rfl

theorem rg_edgeCounted (r i : Nat) (s : State) : rg r i (edgeCounted s) = rg r i s := rfl

theorem rg_edgeBegun (r : Nat) (s : State) (hr : rkey r 0 < rkey (2 * 0x1000) 0 := by decide) :
    rg r 0 (edgeBegun s) = rg r 0 s := by
  rw [edgeBegun, rg_edgeCounted]
  exact (onlyIn_edgeArrivals s).rg r 0 hr

theorem status_edgeBegun (s : State) : rg MPT_STATUS 0 (edgeBegun s) = rg MPT_STATUS 0 s := rg_edgeBegun _ _

theorem activeIncr_edgeBegun (s : State) : activeIncr (edgeBegun s) = activeIncr s := by
  rw [activeIncr, activeIncr, rgF, rgF, rg_edgeBegun MPT_INCR_INT, rg_edgeBegun MPT_INCR_FRAC]

theorem stepTarget_edgeBegun (s : State) : stepTarget (edgeBegun s) = stepTarget s := by
  rw [stepTarget, stepTarget, rg_edgeBegun MPT_SET_NS, rg_edgeBegun MPT_SET_FRAC]

theorem counter_edgeCounted (s : State) : (edgeCounted s).mp.counter = s.mp.counter := rfl

theorem tclk_edgeCounted (s : State) : (edgeCounted s).mp.tclk = s.mp.tclk + 1 := rfl

theorem staged_edgeCounted (s : State) : (edgeCounted s).mp.stagedIncr = s.mp.stagedIncr := rfl

theorem mp_edgeArrivals (s : State) : (edgeArrivals s).mp = s.mp := (onlyIn_edgeArrivals s).keeps .mp

theorem counter_edgeBegun (s : State) : (edgeBegun s).mp.counter = s.mp.counter := by
  rw [edgeBegun, counter_edgeCounted, mp_edgeArrivals]

theorem tclk_edgeBegun (s : State) : (edgeBegun s).mp.tclk = s.mp.tclk + 1 := by
  rw [edgeBegun, tclk_edgeCounted, mp_edgeArrivals]

theorem staged_edgeBegun (s : State) : (edgeBegun s).mp.stagedIncr = s.mp.stagedIncr := by
  rw [edgeBegun, staged_edgeCounted, mp_edgeArrivals]

/-- What the counter reads after an edge. -/
def edgeCounter (s : State) : BitVec 64 :=
  if bit (rg MPT_STATUS 0 s) 1 then stepTarget s else s.mp.counter + BitVec.ofNat 64 (activeIncr s)

/-- What the status register reads after the advance. -/
def edgeStatus (s : State) : Word :=
  if bit (rg MPT_STATUS 0 s) 1 then setFld (rg MPT_STATUS 0 s) 1 0 1 else rg MPT_STATUS 0 s

theorem advanced_edgeAdvanced (s : State) :
    Advanced (edgeBegun s) (edgeAdvanced (edgeBegun s)) (edgeCounter s) (edgeStatus s) := by
  unfold edgeAdvanced edgeCounter edgeStatus
  rw [status_edgeBegun]
  split
  · rw [← stepTarget_edgeBegun, ← status_edgeBegun]
    exact advanced_takeStep _
  · rw [← activeIncr_edgeBegun, ← status_edgeBegun, ← counter_edgeBegun]
    exact advanced_addIncr _

/-- What an edge leaves of Milepost: the counter, the count of edges and the status, and, where an increment was
committed, that increment active. -/
structure EdgeTaken (s t : State) : Prop where
  counter : t.mp.counter = edgeCounter s
  tclk : t.mp.tclk = s.mp.tclk + 1
  step : ∀ b : Nat, b < 2 → bit (rg MPT_STATUS 0 t) b = bit (edgeStatus s) b
  incr : bit (edgeStatus s) 2 = true →
    bit (rg MPT_STATUS 0 t) 2 = false ∧ activeIncr t = s.mp.stagedIncr.toNat

theorem bit_setFld_other (w : Word) {hi lo v j : Nat} (hj : j < 32) (h : ¬ (lo ≤ j ∧ j < lo + (hi - lo + 1))) :
    bit (setFld w hi lo v) j = bit w j := by
  rw [bit, setFld_getLsbD w hi lo v j hj, if_neg h, bit]

theorem rgF_whole (r i : Nat) (s : State) : (rg r i s).toNat = rgF r i 31 0 s := by
  rw [rgF, fld]
  omega

theorem activeIncr_of_low {l : List Part} {s t : State} (h : OnlyIn ⟨l, 2⟩ s t) : activeIncr t = activeIncr s := by
  rw [activeIncr, activeIncr, rgF, rgF,
    h.rg MPT_INCR_INT 0 (show rkey MPT_INCR_INT 0 < rkey (2 * 0x1000) 0 by decide),
    h.rg MPT_INCR_FRAC 0 (show rkey MPT_INCR_FRAC 0 < rkey (2 * 0x1000) 0 by decide)]

theorem activeIncr_setRgF_status (hi lo v : Nat) (s : State) :
    activeIncr (setRgF MPT_STATUS 0 hi lo v s) = activeIncr s := by
  rw [activeIncr, activeIncr, rgF, rgF, rg_setRgF_other (by decide), rg_setRgF_other (by decide)]

theorem activeIncr_setIncr (x : Nat) (s : State) (hx : x < 2 ^ 40) : activeIncr (setIncr x s) = x := by
  rw [activeIncr, setIncr, rgF, rg_setRg_same, rg_setRg_other _ _ _ _ _ _ (by decide), rg_setRg_same]
  simp only [fld, w32, BitVec.toNat_ofNat]
  omega

/-- The parts that a step of a gate list changes. -/
theorem onlyIn_takeDueSteps (s : State) :
    OnlyIn ⟨[.regs, .mem, .pulses, .ports, .macs, .jct, .tpk, .flt, .gates], 2⟩ s (takeDueSteps s) :=
  .of fun _ _ => (OnlyIn.refl s).takeDueSteps

/-- The status register once a committed increment has become active. -/
theorem status_edgeIncremented (s : State) : rg MPT_STATUS 0 (edgeIncremented s) =
    if bit (rg MPT_STATUS 0 s) 2 then setFld (rg MPT_STATUS 0 s) 2 2 0 else rg MPT_STATUS 0 s := by
  unfold edgeIncremented
  split
  · rw [setRgF, rg_setRg_same, setIncr, rg_setRg_other _ _ _ _ _ _ (by decide),
      rg_setRg_other _ _ _ _ _ _ (by decide)]
  · rfl

theorem mp_edgeIncremented (s : State) : (edgeIncremented s).mp = s.mp := by
  unfold edgeIncremented
  split
  · rw [setRgF, setRg_mp, setIncr, setRg_mp, setRg_mp]
  · rfl

theorem activeIncr_edgeIncremented {s : State} (h : bit (rg MPT_STATUS 0 s) 2 = true) :
    activeIncr (edgeIncremented s) = s.mp.stagedIncr.toNat := by
  rw [edgeIncremented, if_pos h, activeIncr_setRgF_status, activeIncr_setIncr _ _ s.mp.stagedIncr.isLt]

theorem edgeTaken (s : State) : EdgeTaken s (tclkEdge s) := by
  rw [tclkEdge_eq]
  have ha := advanced_edgeAdvanced s
  have ht := onlyIn_takeDueSteps (edgeIncremented (edgeAdvanced (edgeBegun s)))
  have hm := (ht.keeps .mp).trans (mp_edgeIncremented _)
  have hw := (ht.rg MPT_STATUS 0).trans (status_edgeIncremented _)
  rw [ha.status] at hw
  refine ⟨(congrArg _ hm).trans ha.counter, (congrArg _ hm).trans (ha.tclk.trans (tclk_edgeBegun s)), ?_, ?_⟩
  · intro b hb
    rw [show rg MPT_STATUS 0 (takeDueSteps _) = _ from hw]
    split
    · exact bit_setFld_other _ (by omega) (by omega)
    · rfl
  · intro h2
    rw [if_pos h2] at hw
    refine ⟨?_, ?_⟩
    · rw [show rg MPT_STATUS 0 (takeDueSteps _) = _ from hw, bit, setFld_getLsbD _ _ _ _ _ (by omega)]
      rfl
    · rw [show activeIncr (takeDueSteps _) = _ from activeIncr_of_low ht,
        activeIncr_edgeIncremented (by rw [ha.status]; exact h2), ha.staged, staged_edgeBegun]

theorem onlyIn_addIncr (s : State) : OnlyIn ⟨[.regs, .mp, .pulses, .flt], 1⟩ s (addIncr s) := by
  rw [addIncr_eq]
  exact .of fun _ _ => (OnlyIn.refl s).with_mp.ite (OnlyIn.refl s).with_mp.with_mp.bump.pulseSource.setCause

theorem onlyIn_edgeIncremented (s : State) : OnlyIn ⟨[.regs], 1⟩ s (edgeIncremented s) :=
  .of fun _ _ => (OnlyIn.refl s).setRg.setRg.setRgF.ite (OnlyIn.refl s)

theorem onlyIn_edgeCounted (s : State) : OnlyIn ⟨[.mp], 23⟩ s (edgeCounted s) :=
  .of fun _ _ => (OnlyIn.refl s).with_mp

/-- An edge after its arrivals, with no step of the counter pending, up to the steps of gate lists. -/
theorem onlyIn_edgeQuiet {s : State} (h : bit (rg MPT_STATUS 0 s) 1 = false) :
    OnlyIn ⟨[.regs, .mp, .pulses, .flt], 1⟩ (edgeArrivals s) (edgeIncremented (edgeAdvanced (edgeBegun s))) := by
  have ha : edgeAdvanced (edgeBegun s) = addIncr (edgeBegun s) :=
    if_neg (by rw [status_edgeBegun, h]; decide)
  rw [ha]
  exact ((onlyIn_edgeCounted _).mono.trans (onlyIn_addIncr _)).trans (onlyIn_edgeIncremented _).mono

theorem noStepDue_of_gates {s t : State} (h : noStepDue s) (hg : t.tpk.gates = s.tpk.gates) : noStepDue t := fun p => by
  rw [gateRun, hg]
  exact h p

/-- With no step pending and no gate step due, an edge leaves memory, roads and lanes, and records without a commit. -/
theorem tclkEdge_quiet {s : State} (h : bit (rg MPT_STATUS 0 s) 1 = false) (hd : noStepDue s) :
    (tclkEdge s).mem = s.mem ∧ (tclkEdge s).roads = s.roads ∧ (tclkEdge s).lanes = s.lanes ∧
      (s.commits = [] → (tclkEdge s).recs = s.recs) := by
  have h1 := onlyIn_edgeArrivals s
  have h2 := onlyIn_edgeQuiet h
  have hg : noStepDue (edgeIncremented (edgeAdvanced (edgeBegun s))) :=
    noStepDue_of_gates hd ((h2.keeps .gates).trans (h1.keeps .gates))
  rw [tclkEdge_eq, takeDueSteps_of_none hg]
  exact ⟨(h2.keeps .mem).trans (h1.keeps .mem), (h2.keeps .roads).trans (h1.keeps .roads),
    (h2.keeps .lanes).trans (h1.keeps .lanes), fun hc => (h2.keeps .recs).trans (edgeArrivals_recs hc)⟩

theorem edgeCounter_of_step {s : State} (h : bit (rg MPT_STATUS 0 s) 1 = true) : edgeCounter s = stepTarget s :=
  if_pos h

theorem edgeStatus_of_step {s : State} (h : bit (rg MPT_STATUS 0 s) 1 = true) :
    edgeStatus s = setFld (rg MPT_STATUS 0 s) 1 0 1 :=
  if_pos h

theorem edgeStatus_bit2 (s : State) : bit (edgeStatus s) 2 = bit (rg MPT_STATUS 0 s) 2 := by
  unfold edgeStatus
  split
  · exact bit_setFld_other _ (by omega) (by omega)
  · rfl

/-- An edge that takes the step shows it used and no longer pending. -/
theorem status_of_step {s : State} (h : bit (rg MPT_STATUS 0 s) 1 = true) :
    bit (rg MPT_STATUS 0 (tclkEdge s)) 0 = true ∧ bit (rg MPT_STATUS 0 (tclkEdge s)) 1 = false := by
  have ht := (edgeTaken s).step
  rw [edgeStatus_of_step h] at ht
  refine ⟨(ht 0 (by omega)).trans ?_, (ht 1 (by omega)).trans ?_⟩
  · rw [bit, setFld_getLsbD _ _ _ _ _ (by omega)]
    rfl
  · rw [bit, setFld_getLsbD _ _ _ _ _ (by omega)]
    rfl

theorem incrementApplied_eq (s : State) :
    incrementApplied s = if bit (rg MPT_STATUS 0 s) 2 then tclkEdge s else s := rfl

theorem stepTaken_eq (s : State) : stepTaken s = if bit (rg MPT_STATUS 0 s) 1 then tclkEdge s else s := rfl

/-- Settles O5. -/
theorem milepostEdgesAdvanceTheCounter : Obligations.MilepostEdgesAdvanceTheCounter := by
  refine ⟨⟨fun s h => ⟨_, rfl, ?_, (edgeTaken s).tclk, tclkEdge_quiet h⟩, fun s h =>
      ⟨_, rfl, (edgeTaken s).counter.trans (edgeCounter_of_step h), (edgeTaken s).tclk, status_of_step h⟩⟩,
    fun s h => ⟨tclkEdge s, ?_, ?_, ?_, (edgeTaken s).tclk, (edgeTaken s).counter⟩, fun s h => ⟨tclkEdge s, ?_,
      (edgeTaken s).counter.trans (edgeCounter_of_step h), (edgeTaken s).tclk, status_of_step h⟩,
    fun s h => ?_, fun s h => ?_⟩
  · rw [(edgeTaken s).counter, edgeCounter, h]
    rfl
  · exact congrArg Host.Outcome.next (if_pos h)
  · exact ((edgeTaken s).incr ((edgeStatus_bit2 s).trans h)).2
  · exact ((edgeTaken s).incr ((edgeStatus_bit2 s).trans h)).1
  · exact congrArg Host.Outcome.next (if_pos h)
  · exact congrArg Host.Outcome.next (if_neg (ne_true_of_eq_false h))
  · exact congrArg Host.Outcome.next (if_neg (ne_true_of_eq_false h))

end Sys2Proof.Machine
end

section
/-! PROOF. O6: the registers of the increment and the step from the path that owns them, the latched reads, and the
firmware's time record. -/

set_option Elab.async false

namespace Sys2Proof.Machine

open Sys2Proof

theorem ownerWrite_ignored {p : Path} {s : State} (h : servoOwner p s = false) (f : State → State) :
    ownerWrite p f s = s :=
  if_neg fun hc => Bool.false_ne_true (h.symm.trans hc.1)

theorem ts2Window_trunk {p : Path} {k : Nat} {s : State} (h : winOf p MPT_TS2_TIME s = some (128 + k)) (hk : k < 4) :
    ts2Window p s = some k := by
  rw [ts2Window, h]
  dsimp only
  rw [if_pos (by omega), Nat.add_sub_cancel_left]

theorem ts2Window_none {p : Path} {s : State} (h : ∀ k : Nat, k < 4 → winOf p MPT_TS2_TIME s ≠ some (128 + k)) :
    ts2Window p s = none := by
  rw [ts2Window]
  split
  · next w hw => exact if_neg fun hr => h (w - 128) (by omega) (by rw [hw, Nat.add_sub_cancel' hr.1])
  · rfl

/-- The causes that a write of MPT_FW_SET sets. -/
def firmwareCauses (v : Word) (s : State) : State :=
  forEach [0, 1, 2] (fun i s => if bit v i then setCause MPT_CAUSE 0 (7 + i) s else s) s

theorem mptFwSetWrite_eq {path : Nat} {v : Word} {s : State} (hr : inReset 199 s = false) :
    mptFwSetWrite path v s = if path < 4 then firmwareCauses v s else s := by
  have hw : writable path MPT_FW_SET 0 s = true := by
    have : ownerOf MPT_FW_SET 0 = 199 := rfl
    simp [writable, this, hr]
  unfold mptFwSetWrite
  rw [atGlobal_taken _ _ _ _ hw]
  rfl

theorem mptFwSetWrite_keeps (path : Nat) (v : Word) (s : State) :
    (mptFwSetWrite path v s).mem = s.mem ∧ (mptFwSetWrite path v s).mp = s.mp := by
  have hc : ∀ i t, (onlyIf (bit v i) (setCause MPT_CAUSE 0 (7 + i)) t).mem = t.mem ∧
      (onlyIf (bit v i) (setCause MPT_CAUSE 0 (7 + i)) t).mp = t.mp := fun i t => by
    obtain ⟨x, q, hx⟩ := setCause_frame MPT_CAUSE 0 (7 + i) t
    unfold onlyIf
    split
    · rw [hx]
      exact ⟨rfl, rfl⟩
    · exact ⟨rfl, rfl⟩
  unfold mptFwSetWrite atGlobal
  split
  · split
    · exact forEach_keeps (fun t => t.mem = s.mem ∧ t.mp = s.mp) _ _ s
        (fun i _ t ht => ⟨(hc i t).1.trans ht.1, (hc i t).2.trans ht.2⟩) ⟨rfl, rfl⟩
    · exact ⟨rfl, rfl⟩
  · exact ⟨rfl, rfl⟩

/-- The bytes of the firmware's time record (R31). -/
def timeRecord (base : BitVec 64) (utc : BitVec 16) (valid : Bool) (s : State) : Bytes :=
  leBytes 4 ((rdWord supervisorBase s + 2).toNat / 2 * 2) ++ leBytes 4 (1 + 2 * b2n valid) ++
    leBytes 8 (s.mp.extWraps.toNat * 2 ^ 32 + (now s).toNat) ++ leBytes 8 base.toNat ++ leBytes 2 utc.toNat ++ zeros 6

theorem length_timeRecord (base : BitVec 64) (utc : BitVec 16) (valid : Bool) (s : State) :
    (timeRecord base utc valid s).length = 32 := by
  simp [timeRecord, zeros, leBytes]

theorem extTimePublish_eq (base : BitVec 64) (utc : BitVec 16) (valid late : Bool) (s : State) :
    extTimePublish base utc valid late s =
      onlyIf late (mptFwSetWrite 0 4) (wrBytes supervisorBase (timeRecord base utc valid s) s) := rfl

theorem onlyIf_keeps {b : Bool} {f : State → State} {α : Type} {v : State → α} {s : State} (h : v (f s) = v s) :
    v (onlyIf b f s) = v s := by
  cases b
  · rfl
  · exact h

theorem late_sets_cause {s : State} (hr : inReset 199 s = false) :
    bit (rg MPT_CAUSE 0 (mptFwSetWrite 0 4 s)) 9 = true := by
  rw [mptFwSetWrite_eq hr, if_pos (by omega)]
  exact bit_setCause_same (by omega) (by decide)

/-- Settles O6. -/
theorem milepostCommandsStageLatchAndPublish : Obligations.MilepostCommandsStageLatchAndPublish := by
  refine ⟨⟨?_, ?_⟩, ⟨?_, ?_, ?_⟩, ?_, ?_⟩
  · intro p v s ho hr
    refine ⟨congrArg Host.Outcome.next (ownerWrite_taken ho hr), ?_, congrArg Host.Outcome.next ?_⟩
    · intro hi
      rw [exec_mptIncrIntWrite_owner p v s ho hr, commitIncr_inRange _ s hi]
    · rw [mptStepGo, ownerWrite_taken ho hr]
      cases bit v 0 <;> rfl
  · intro p v s ho
    have hw := ownerWrite_ignored ho
    exact ⟨congrArg Host.Outcome.next (hw _), congrArg Host.Outcome.next (hw _), congrArg Host.Outcome.next (hw _)⟩
  · exact fun p s => rfl
  · intro p k s hw hk
    refine congrArg Host.Outcome.next ?_
    rw [mptTs2TimeRead, ts2Window_trunk hw hk]
  · intro p s hw
    refine congrArg Host.Outcome.next ?_
    rw [mptTs2TimeRead, ts2Window_none hw]
  · exact fun p v s hr => congrArg Host.Outcome.next (mptFwSetWrite_eq hr)
  · intro base utc valid late s
    refine ⟨_, congrArg Host.Outcome.next (extTimePublish_eq base utc valid late s), ?_, ?_, ?_, ?_, ?_⟩
    · have hm := onlyIf_keeps (b := late) (v := State.mem)
        (mptFwSetWrite_keeps 0 4 (wrBytes supervisorBase (timeRecord base utc valid s) s)).1
      rw [rdBytes_congr hm]
      have hb := rdBytes_wrBytes supervisorBase (timeRecord base utc valid s) s
      rwa [length_timeRecord] at hb
    · intro a ha
      have hm := onlyIf_keeps (b := late) (v := State.mem)
        (mptFwSetWrite_keeps 0 4 (wrBytes supervisorBase (timeRecord base utc valid s) s)).1
      rw [rdByte_congr hm]
      exact rdByte_wrBytes_outside _ _ _ _ (by rwa [length_timeRecord])
    · exact (onlyIf_keeps (v := State.mp) (mptFwSetWrite_keeps 0 4 _).2).trans (wrBytes_mp _ _ _)
    · rintro rfl
      exact wrBytes_regs _ _ _
    · rintro rfl hr
      refine late_sets_cause ?_
      rw [← hr, inReset, inReset, rg, rg, wrBytes_regs]

end Sys2Proof.Machine
end

section
/-! PROOF. O8: the commands of roads. A transition sets the road's state and notes it in its status register, its next
history entry and the entry that waits to be sent; no other road and no lane moves. -/

set_option Elab.async false

namespace Sys2Proof.Machine

open Sys2Proof

/-! ### Registers of one road -/

theorem rkey_road_ne {r r' : Nat} (n : Fin 64) (h : r ≠ r') : rkey r n ≠ rkey r' n :=
  rkey_ne_of_lt h (by omega) (by omega)

theorem rkey_road_lt {r : Nat} (n : Fin 64) (h : r < 0x3000) : rkey r n < rkey (3 * 0x1000) 0 := by
  unfold rkey
  omega

theorem rkey_road_collector {r : Nat} (n : Fin 64) (h : r < FLT_SEL) : rkey r n < rkey FLT_SEL 0 :=
  rkey_lt_collector h (by omega)

/-- A field written leaves a field apart from it. -/
theorem fld_setFld_other (w : Word) {hi lo hi' lo' v : Nat} (hlo : lo ≤ hi) (hhi : hi < 32) (hlo' : lo' ≤ hi')
    (h : hi < lo' ∨ hi' < lo) : fld (setFld w hi' lo' v) hi lo = fld w hi lo := by
  refine Nat.eq_of_testBit_eq fun k => ?_
  simp only [fld, Nat.testBit_mod_two_pow, Nat.testBit_div_two_pow]
  by_cases hk : k < hi - lo + 1
  · have hbit := setFld_getLsbD w hi' lo' v (k + lo) (by omega)
    rw [if_neg (by omega)] at hbit
    rw [BitVec.testBit_toNat, BitVec.testBit_toNat, hbit]
  · simp [hk]

theorem rgF_setRgF_other (r i : Nat) (s : State) {hi lo hi' lo' v : Nat} (hlo : lo ≤ hi) (hhi : hi < 32)
    (hlo' : lo' ≤ hi') (h : hi < lo' ∨ hi' < lo) : rgF r i hi lo (setRgF r i hi' lo' v s) = rgF r i hi lo s := by
  rw [rgF, setRgF, rg_setRg_same, fld_setFld_other _ hlo hhi hlo' h, rgF]

theorem rgF_setRgF_same (r i hi lo v : Nat) (s : State) (hlo : lo ≤ hi) (hhi : hi < 32) :
    rgF r i hi lo (setRgF r i hi lo v s) = v % 2 ^ (hi - lo + 1) := by
  rw [rgF, setRgF, rg_setRg_same, fld_setFld_same _ _ _ _ hlo hhi]

/-! ### Transitions -/

/-- A road as it enters a state. -/
def enteredRoad (new : RoadState) (s : State) (r : Road) : Road :=
  let r := { r with state := new, transitions := r.transitions + 1 }
  let r := if new = .idle then { r with pub := 0, pubRate := 0 } else r
  if new = .acquiring ∨ new = .coasting then { r with entered := now s, appliedSince := false } else r

/-- A road's transition up to its history entry. -/
def transitionNoted (n : Nat) (new : RoadState) (cause : Nat) (s : State) : State :=
  setCause ROA_CAUSE n 0 (bump ROA_CNT_DROP n 31 16 (setRgF ROA_STATE n 7 4 cause
    (onlyIf (decide (new = .acquiring)) (setRgF ROA_STATE n 11 8 0) (setRoad n (enteredRoad new s (road n s)) s))))

/-- What a transition does to the event lines, milestones and gate lists. -/
def transitionTold (n : Nat) (was new : RoadState) (cause : Nat) (s : State) : State :=
  onlyIf (decide (was = .tracking) && decide (new ≠ .tracking)) (roadLeavesTracking new n)
    (onlyIf (decide (new = .lost)) (roadStrands n)
      (onlyIf (decide (new = .lost) || decide (cause = 2)) (forgetDue n) (pulseSource (.road n) s)))

theorem transition_eq (n : Nat) (new : RoadState) (cause : Nat) (s : State) :
    transition n new cause s = transitionTold n (road n s).state new cause
      (queueEntry n (writeHistory n true false (transitionNoted n new cause s))) := rfl

theorem onlyIn_transitionTold (n : Nat) (was new : RoadState) (cause : Nat) (s : State) :
    OnlyIn ⟨[.regs, .recRun, .pulses, .tpk, .flt, .gates], 3⟩ s (transitionTold n was new cause s) :=
  .of fun _ _ => (((OnlyIn.refl s).pulseSource.onlyIf fun _ h => h.forgetDue).onlyIf
    fun _ h => h.roadStrands).onlyIf fun _ h => h.roadLeavesTracking

/-- What a history entry of a road holds. -/
def historyEntry (trans fracOnly : Bool) (r : Road) : Bytes :=
  leBytes 4 r.tS.toNat ++ leBytes 8 r.p.toNat ++ leBytes 6 r.v.toNat ++ leBytes 4 r.a.toNat
    ++ leBytes 1 r.state.code ++ leBytes 1 (b2n trans + 2 * b2n fracOnly)

theorem length_historyEntry (trans fracOnly : Bool) (r : Road) : (historyEntry trans fracOnly r).length = 24 := by
  simp [historyEntry, leBytes]

theorem mem_writeHistory (n : Nat) (trans fracOnly : Bool) (s : State) : (writeHistory n trans fracOnly s).mem =
    (wrBytes (histAddr n (rgF ROA_HIST n 11 0 s)) (historyEntry trans fracOnly (road n s)) s).mem := by
  unfold writeHistory
  dsimp only
  rw [setRgF, setRg_mem, setRgF, setRg_mem]
  rfl

/-- A history entry changes the bytes of its slot only. -/
theorem rdByte_writeHistory {n a : Nat} {trans fracOnly : Bool} {s : State}
    (ha : a < histAddr n (rgF ROA_HIST n 11 0 s) ∨ histAddr n (rgF ROA_HIST n 11 0 s) + 24 ≤ a) :
    rdByte a (writeHistory n trans fracOnly s) = rdByte a s := by
  rw [rdByte_congr (mem_writeHistory n trans fracOnly s)]
  exact rdByte_wrBytes_outside _ _ _ _ (by rwa [length_historyEntry])

theorem rg_writeHistory {n : Nat} {trans fracOnly : Bool} {r i : Nat} {s : State} (h : rkey r i ≠ rkey ROA_HIST n) :
    rg r i (writeHistory n trans fracOnly s) = rg r i s := by
  unfold writeHistory
  dsimp only
  rw [rg_setRgF_other h, rg_setRgF_other h]
  exact congrArg (sget _ _) (wrBytes_regs _ _ _)

theorem onlyIn_writeHistory (n : Nat) (trans fracOnly : Bool) (s : State) :
    OnlyIn ⟨[.regs, .mem, .frozen], 2⟩ s (writeHistory n trans fracOnly s) :=
  .of fun _ _ => (OnlyIn.refl s).writeHistory

theorem road_congr {s t : State} (h : t.roads = s.roads) (n : Nat) : road n t = road n s := by
  rw [road, road, h]

/-- What the waiting entry of a road and its way to the hierarchy become. -/
theorem road_queueEntry (n : Nat) (s : State) : ∃ e h,
    road n (queueEntry n s) = { road n s with queuedEntry := e, queuedHier := h } :=
  ⟨_, _, road_setRoad n _ s⟩

theorem road_queueEntry_other {n m : Nat} (s : State) (h : m ≠ n) : road m (queueEntry n s) = road m s :=
  road_setRoad_other n m _ s h

theorem roads_transitionNoted (n : Nat) (new : RoadState) (cause : Nat) (s : State) :
    (transitionNoted n new cause s).roads = (setRoad n (enteredRoad new s (road n s)) s).roads := by
  have h : OnlyIn ⟨[.regs, .flt], 2⟩ (setRoad n (enteredRoad new s (road n s)) s) (transitionNoted n new cause s) :=
    .of fun _ _ => ((OnlyIn.refl _).onlyIf fun _ h => h.setRgF).setRgF.bump.setCause
  exact h.keeps .roads

theorem onlyIn_transitionNoted (n : Nat) (new : RoadState) (cause : Nat) (s : State) :
    OnlyIn ⟨[.regs, .roads, .flt], 2⟩ s (transitionNoted n new cause s) :=
  .of fun _ _ => ((OnlyIn.refl _).setRoad.onlyIf fun _ h => h.setRgF).setRgF.bump.setCause

/-- What a transition of a road leaves. -/
structure Entered (n : Fin 64) (new : RoadState) (cause : Nat) (s t : State) : Prop where
  road : ∃ e h, road n t = { enteredRoad new s (road n s) with queuedEntry := e, queuedHier := h }
  others : ∀ m : Nat, m ≠ n → Machine.road m t = Machine.road m s
  lanes : t.lanes = s.lanes
  status : rgF ROA_STATE n 7 4 t = cause % 16
  regs : ∀ r : Nat, r < 0x3000 → r ∉ [ROA_STATE, ROA_CNT_DROP, ROA_CAUSE, ROA_HIST] → rg r n t = rg r n s
  bytes : ∀ a : Nat, a < histAddr n (rgF ROA_HIST n 11 0 s) ∨ histAddr n (rgF ROA_HIST n 11 0 s) + 24 ≤ a →
    rdByte a t = rdByte a s

theorem rg_transitionNoted (n : Fin 64) (new : RoadState) (cause : Nat) (s : State) {r : Nat} (hr : r < 0x3000)
    (h : r ∉ [ROA_STATE, ROA_CNT_DROP, ROA_CAUSE]) : rg r n (transitionNoted n new cause s) = rg r n s := by
  simp only [List.mem_cons, List.not_mem_nil, or_false, not_or] at h
  obtain ⟨hs, hd, hc⟩ := h
  unfold transitionNoted
  rw [rg_setCause_other (rkey_road_ne n hc) (rkey_road_collector n (hr.trans (by decide))),
    rg_bump_other (rkey_road_ne n hd),
    rg_setRgF_other (rkey_road_ne n hs)]
  exact onlyIf_keeps (v := fun t => rg r n t) (rg_setRgF_other (rkey_road_ne n hs))

theorem status_transitionNoted (n : Fin 64) (new : RoadState) (cause : Nat) (s : State) :
    rgF ROA_STATE n 7 4 (transitionNoted n new cause s) = cause % 16 := by
  unfold transitionNoted
  rw [rgF, rg_setCause_other (rkey_road_ne n (by decide)) (rkey_road_collector n (by decide)),
    rg_bump_other (rkey_road_ne n (by decide)), setRgF, rg_setRg_same, fld_setFld_same _ _ _ _ (by omega) (by omega)]
  rfl

theorem onlyIn_queueEntry (n : Nat) (s : State) : OnlyIn ⟨[.roads], 23⟩ s (queueEntry n s) :=
  .of fun _ _ => (OnlyIn.refl s).queueEntry

theorem entered_transition (n : Fin 64) (new : RoadState) (cause : Nat) (s : State) :
    Entered n new cause s (transition n new cause s) := by
  rw [transition_eq]
  have hn := onlyIn_transitionNoted n new cause s
  have hst := status_transitionNoted n new cause s
  have hro := roads_transitionNoted n new cause s
  have hrg : ∀ r : Nat, r < 0x3000 → r ∉ [ROA_STATE, ROA_CNT_DROP, ROA_CAUSE] →
      rg r n (transitionNoted n new cause s) = rg r n s := fun r => rg_transitionNoted n new cause s
  generalize transitionNoted n new cause s = u at *
  have hw := onlyIn_writeHistory n true false u
  have hwb := fun a => rdByte_writeHistory (n := n) (a := a) (trans := true) (fracOnly := false) (s := u)
  have hwr := fun r => rg_writeHistory (n := n) (trans := true) (fracOnly := false) (r := r) (i := n) (s := u)
  generalize writeHistory n true false u = w at *
  obtain ⟨e, h, heq⟩ := road_queueEntry n w
  have hother := fun m => road_queueEntry_other (n := n) (m := m) w
  have hq := onlyIn_queueEntry n w
  generalize queueEntry n w = q at *
  have ht := onlyIn_transitionTold n (road n s).state new cause q
  generalize transitionTold n (road n s).state new cause q = t at *
  have hregs : ∀ r : Nat, r < 0x3000 → rg r n t = rg r n w := fun r hr =>
    (ht.rg r n (rkey_road_lt n hr)).trans (hq.rg r n ((rkey_road_lt n hr).trans (by decide)))
  refine ⟨⟨e, h, ?_⟩, fun m hm => ?_, ?_, ?_, fun r hr h => ?_, fun a ha => ?_⟩
  · rw [road_congr (ht.keeps .roads), heq, road_congr (hw.keeps .roads), road_congr hro, road_setRoad]
  · rw [road_congr (ht.keeps .roads), hother m hm, road_congr (hw.keeps .roads), road_congr hro,
      road_setRoad_other _ _ _ _ hm]
  · exact (ht.keeps .lanes).trans ((hq.keeps .lanes).trans ((hw.keeps .lanes).trans (hn.keeps .lanes)))
  · rw [rgF, hregs _ (by decide), hwr _ (rkey_road_ne n (by decide))]
    exact hst
  · rw [hregs r hr, hwr _ (rkey_road_ne n fun hh => h (by simp [hh]))]
    exact hrg r hr fun hh => h (by simp at hh ⊢; tauto)
  · have hi : rgF ROA_HIST n 11 0 u = rgF ROA_HIST n 11 0 s := congrArg (fld · 11 0) (hrg _ (by decide) (by decide))
    rw [rdByte_congr (ht.keeps .mem), rdByte_congr (hq.keeps .mem), hwb a (by rw [hi]; exact ha),
      rdByte_congr (hn.keeps .mem)]

/-! ### Starts -/

/-- The tracker of a road: the road without what it publishes and what waits to be sent. -/
def trackerOf (r : Road) : Road :=
  { r with pub := 0, pubRate := 0, prev := 0, pubA := 0, pubT := 0, queuedEntry := [], queuedHier := false }

theorem fields_of_tracker {r r' : Road} (h : trackerOf r = trackerOf r') :
    r.state = r'.state ∧ r.tS = r'.tS ∧ r.n = r'.n ∧ r.lap = r'.lap :=
  ⟨(congrArg Road.state h :), (congrArg Road.tS h :), (congrArg Road.n h :), (congrArg Road.lap h :)⟩

theorem onlyIn_roadReturns (n : Nat) (s : State) : OnlyIn ⟨[.regs, .recs, .recRun], 3⟩ s (roadReturns n s) :=
  .of fun _ _ => (OnlyIn.refl s).roadReturns

/-- A return publishes a road anew and leaves its tracker and the other roads. -/
theorem roads_settleReturn (n : Nat) (before : RoadState) (s : State) :
    trackerOf (road n (settleReturn n before s)) = trackerOf (road n s) ∧
      ∀ m : Nat, m ≠ n → road m (settleReturn n before s) = road m s := by
  unfold settleReturn
  dsimp only
  split
  · exact ⟨rfl, fun _ _ => rfl⟩
  · refine ⟨?_, fun m hm => ?_⟩
    · rw [road_congr ((onlyIn_roadReturns n _).keeps .roads), road_setRoad]
      rfl
    · rw [road_congr ((onlyIn_roadReturns n _).keeps .roads), road_setRoad_other _ _ _ _ hm]

theorem onlyIn_settleReturn (n : Nat) (before : RoadState) (s : State) :
    OnlyIn ⟨[.regs, .roads, .recs, .recRun], 3⟩ s (settleReturn n before s) :=
  .of fun _ _ => (OnlyIn.refl s).settleReturn

/-- The registers of a road that a start sets. -/
def startNoted (n : Nat) (s : State) : State := setRgF ROA_STATE n 14 12 0 (clearHistory n s)

theorem onlyIn_startNoted (n : Nat) (s : State) : OnlyIn ⟨[.regs], 2⟩ s (startNoted n s) :=
  .of fun _ _ => (OnlyIn.refl s).clearHistory.setRgF

theorem rg_startNoted (n : Fin 64) (s : State) {r : Nat} (h : r ∉ [ROA_STATE, ROA_HIST]) :
    rg r n (startNoted n s) = rg r n s := by
  simp only [List.mem_cons, List.not_mem_nil, or_false, not_or] at h
  obtain ⟨hs, hh⟩ := h
  rw [startNoted, rg_setRgF_other (rkey_road_ne n hs), clearHistory, rg_setRgF_other (rkey_road_ne n hh),
    rg_setRgF_other (rkey_road_ne n hh)]

theorem roadKind_startNoted (n : Fin 64) (s : State) : roadKind n (startNoted n s) = roadKind n s := by
  rw [roadKind, roadKind, rgF, rgF, rg_startNoted n s (by decide)]

theorem hist_startNoted (n : Fin 64) (s : State) : rgF ROA_HIST n 11 0 (startNoted n s) = 0 := by
  have h : rgF ROA_HIST n 11 0 (startNoted n s) = rgF ROA_HIST n 11 0 (clearHistory n s) :=
    congrArg (fld · 11 0) (rg_setRgF_other (rkey_road_ne n (by decide)))
  rw [h, clearHistory, rgF_setRgF_other _ _ _ (by omega) (by omega) (by omega) (by omega),
    rgF_setRgF_same _ _ _ _ _ _ (by omega) (by omega)]
  rfl

/-- A road of observations as it starts. -/
def startedRoad (r : Road) : Road := { r with initPending := true, pub := 0, prev := 0, lastSeq := none }

/-- A clock road as it starts. -/
def startedClock (n : Nat) (s : State) (r : Road) : Road :=
  let t := now s
  let p := max 1 (roadPeriod n s)
  let c := t.toNat % p
  { r with n := c, period := p, lastNs := t, tS := t, p := clockPos 0 c p, v := clockRate p, a := 0,
           obsAt := elapsedNs s, horizon := horizonOf (si (clockRate p)), initPending := false, prev := 0, pub := 0 }

theorem startRoad_idle {n : Nat} {s : State} (hi : (road n s).state = .idle) (hr : inReset 200 s = false) :
    startRoad n s = if roadKind n (startNoted n s) = 1 then
        settleReturn n .idle (transition n .tracking 1
          (setRoad n (startedClock n (startNoted n s) (road n s)) (startNoted n s)))
      else transition n .acquiring 1 (setRoad n (startedRoad (road n s)) (startNoted n s)) := by
  unfold startRoad
  extract_lets r u
  rw [if_neg (by simp [r, hi, hr])]
  rfl

/-- A state in which a road alone has been prepared for a transition, its next history entry being `i`. -/
structure Prepared (n : Fin 64) (s : State) (r : Road) (i : Nat) (u : State) : Prop where
  road : road n u = r
  others : ∀ m : Nat, m ≠ n → Machine.road m u = Machine.road m s
  lanes : u.lanes = s.lanes
  mem : u.mem = s.mem
  index : rgF ROA_HIST n 11 0 u = i

/-- What a transition leaves of the state before it was prepared. -/
structure Moved (n : Fin 64) (cause i : Nat) (s t : State) : Prop where
  others : ∀ m : Fin 64, m ≠ n → road m t = road m s
  lanes : t.lanes = s.lanes
  status : rgF ROA_STATE n 7 4 t = cause % 16
  bytes : ∀ a : Nat, a < histAddr n i ∨ histAddr n i + 24 ≤ a → rdByte a t = rdByte a s

theorem Entered.moved {n : Fin 64} {new : RoadState} {cause i : Nat} {s u t : State} {r : Road}
    (h : Entered n new cause u t) (hp : Prepared n s r i u) : Moved n cause i s t where
  others m hm := (h.others m (by omega)).trans (hp.others m (by omega))
  lanes := h.lanes.trans hp.lanes
  status := h.status
  bytes a ha := (h.bytes a (by rwa [hp.index])).trans (rdByte_congr hp.mem a)

theorem prepared_setRoad (n : Fin 64) (r : Road) {s u : State} {k : Nat} (h : OnlyIn ⟨[.regs], k⟩ s u) :
    Prepared n s r (rgF ROA_HIST n 11 0 u) (setRoad n r u) where
  road := road_setRoad _ _ _
  others m hm := (road_setRoad_other _ _ _ _ hm).trans (road_congr (h.keeps .roads) m)
  lanes := h.keeps .lanes
  mem := h.keeps .mem
  index := rfl

theorem prepared_start (n : Fin 64) (r : Road) (s : State) : Prepared n s r 0 (setRoad n r (startNoted n s)) := by
  have h := prepared_setRoad n r (onlyIn_startNoted n s)
  rwa [hist_startNoted] at h

theorem start_of_observations {n : Fin 64} {s : State} (hr : inReset 200 s = false) (hi : (road n s).state = .idle)
    (hk : roadKind n s ≠ 1) : ∃ t : State, exec (.roadStart n) s = .next t ∧
      (road n t).state = .acquiring ∧ (road n t).initPending = true ∧ (road n t).pub = 0 ∧ Moved n 1 0 s t := by
  have hp := prepared_start n (startedRoad (road n s)) s
  have ht := entered_transition n .acquiring 1 (setRoad n (startedRoad (road n s)) (startNoted n s))
  have heq := startRoad_idle hi hr
  rw [if_neg (by rwa [roadKind_startNoted])] at heq
  obtain ⟨e, h, hroad⟩ := ht.road
  rw [hp.road] at hroad
  exact ⟨_, congrArg Host.Outcome.next heq, by rw [hroad]; rfl, by rw [hroad]; rfl, by rw [hroad]; rfl, ht.moved hp⟩

theorem lap_clockPos {k p : Nat} (hk : k < p) : (clockPos 0 k p).toNat / 2 ^ 48 = 0 := by
  have h : k * 2 ^ 48 / p < 2 ^ 48 := by
    rw [Nat.div_lt_iff_lt_mul (by omega), Nat.mul_comm]
    exact Nat.mul_lt_mul_of_pos_left hk (by omega)
  rw [clockPos, BitVec.toNat_ofNat, Nat.zero_mul, Nat.zero_add, Nat.mod_eq_of_lt (h.trans (by decide)),
    Nat.div_eq_of_lt h]

theorem Moved.then_onlyIn {n : Fin 64} {cause i : Nat} {s t u : State} (h : Moved n cause i s t)
    (hr : ∀ m : Nat, m ≠ n → road m u = road m t) {l : List Part} (hu : OnlyIn ⟨l, 3⟩ t u)
    (hl : l.contains .lanes = false) (hm : l.contains .mem = false) : Moved n cause i s u where
  others m hm := (hr m (by omega)).trans (h.others m hm)
  lanes := (hu.keeps .lanes hl).trans h.lanes
  status := (congrArg (fld · 7 4) (hu.rg ROA_STATE n (rkey_road_lt n (by decide)))).trans h.status
  bytes a ha := (rdByte_congr (hu.keeps .mem hm) a).trans (h.bytes a ha)

theorem now_congr {s t : State} (h : t.mp = s.mp) : now t = now s := by
  rw [now, now, h]

theorem start_of_clock {n : Fin 64} {s : State} (hr : inReset 200 s = false) (hi : (road n s).state = .idle)
    (hk : roadKind n s = 1) : ∃ t : State, exec (.roadStart n) s = .next t ∧
      (road n t).state = .tracking ∧ (road n t).tS = now s ∧
      (road n t).n = (now s).toNat % max 1 (rg ROA_PERIOD n s).toNat ∧ (road n t).lap = 0 ∧ Moved n 1 0 s t := by
  have hn : now (startNoted n s) = now s := now_congr ((onlyIn_startNoted n s).keeps .mp)
  have hper : roadPeriod n (startNoted n s) = (rg ROA_PERIOD n s).toNat :=
    congrArg BitVec.toNat (rg_startNoted n s (by decide))
  have hp := prepared_start n (startedClock n (startNoted n s) (road n s)) s
  have ht := entered_transition n .tracking 1 (setRoad n (startedClock n (startNoted n s) (road n s)) (startNoted n s))
  have heq := startRoad_idle hi hr
  rw [if_pos ((roadKind_startNoted n s).trans hk)] at heq
  have hset := roads_settleReturn n .idle (transition n .tracking 1
    (setRoad n (startedClock n (startNoted n s) (road n s)) (startNoted n s)))
  have honly := onlyIn_settleReturn n .idle (transition n .tracking 1
    (setRoad n (startedClock n (startNoted n s) (road n s)) (startNoted n s)))
  obtain ⟨e, h, hroad⟩ := ht.road
  rw [hp.road] at hroad
  obtain ⟨hstate, htS, hcount, hlap⟩ := fields_of_tracker hset.1
  rw [hroad] at hstate htS hcount hlap
  exact ⟨_, congrArg Host.Outcome.next heq, hstate, htS.trans hn,
    hcount.trans (congrArg₂ (fun t p => BitVec.toNat t % max 1 p) hn hper),
    hlap.trans (lap_clockPos (Nat.mod_lt _ (by omega))), (ht.moved hp).then_onlyIn hset.2 honly rfl rfl⟩

/-! ### Stops -/

theorem beforeIngest_none {n : Nat} {s : State} (h : ingestedNow n s = none) : beforeIngest n s = s := by
  rw [beforeIngest, h]

/-- The registers of a road as they stood before its observation of this edge. -/
def registersBefore (n : Nat) (x : Ingested) (s : State) : State :=
  setRg ROA_STATE n x.status (setRg ROA_HIST n x.history
    (setRg ROA_CNT_ACC n x.accepted (setRg ROA_CNT_REJ n x.rejected (setRg ROA_CNT_DROP n x.drops s))))

theorem beforeIngest_some {n : Nat} {x : Ingested} {s : State} (h : ingestedNow n s = some x) : ∃ r,
    beforeIngest n s = setRoad n r { registersBefore n x s with ingested := none } := by
  rw [beforeIngest, h]
  exact ⟨_, rfl⟩

theorem onlyIn_registersBefore (n : Nat) (x : Ingested) (s : State) :
    OnlyIn ⟨[.regs], 2⟩ s (registersBefore n x s) :=
  .of fun _ _ => (OnlyIn.refl s).setRg.setRg.setRg.setRg.setRg

theorem rg_beforeIngest {n : Nat} {x : Ingested} {s : State} (h : ingestedNow n s = some x) (r i : Nat) :
    rg r i (beforeIngest n s) = rg r i (registersBefore n x s) := by
  obtain ⟨q, hq⟩ := beforeIngest_some h
  rw [hq]
  rfl

theorem beforeIngest_others (n : Nat) (s : State) : (∀ m : Nat, m ≠ n → road m (beforeIngest n s) = road m s) ∧
    (beforeIngest n s).lanes = s.lanes ∧ (beforeIngest n s).mem = s.mem := by
  cases h : ingestedNow n s with
  | none =>
    rw [beforeIngest_none h]
    exact ⟨fun _ _ => rfl, rfl, rfl⟩
  | some x =>
    have ho := onlyIn_registersBefore n x s
    obtain ⟨q, hq⟩ := beforeIngest_some h
    rw [hq]
    exact ⟨fun m hm => (road_setRoad_other _ _ _ _ hm).trans (road_congr (ho.keeps .roads) m), ho.keeps .lanes,
      ho.keeps .mem⟩

/-- A stop's own count of the observation that it discards. -/
def stopCounted (n : Nat) (s : State) : State :=
  onlyIf (ingestedNow n s).isSome (bump ROA_CNT_REJ n 31 16) (beforeIngest n s)

theorem onlyIn_stopCounted (n : Nat) (s : State) : OnlyIn ⟨[.regs], 2⟩ (beforeIngest n s) (stopCounted n s) :=
  .of fun _ _ => (OnlyIn.refl _).onlyIf fun _ h => h.bump

theorem Prepared.after {n : Fin 64} {s u w : State} {r : Road} {i : Nat} (h : Prepared n u r i w)
    (hu : (∀ m : Nat, m ≠ n → Machine.road m u = Machine.road m s) ∧ u.lanes = s.lanes ∧ u.mem = s.mem) :
    Prepared n s r i w := by
  obtain ⟨hothers, hlanes, hmem⟩ := hu
  exact ⟨h.road, fun m hm => (h.others m hm).trans (hothers m hm), h.lanes.trans hlanes, h.mem.trans hmem, h.index⟩

theorem hist_stopCounted (n : Fin 64) (s : State) :
    rgF ROA_HIST n 11 0 (stopCounted n s) = rgF ROA_HIST n 11 0 (beforeIngest n s) :=
  onlyIf_keeps (v := rgF ROA_HIST n 11 0) (congrArg (fld · 11 0) (rg_bump_other (rkey_road_ne n (by decide))))

theorem prepared_stop (n : Fin 64) (r : Road) (s : State) :
    Prepared n s r (rgF ROA_HIST n 11 0 (beforeIngest n s)) (setRoad n r (stopCounted n s)) := by
  have h := (prepared_setRoad n r (onlyIn_stopCounted n s)).after (beforeIngest_others n s)
  rwa [hist_stopCounted] at h

theorem stopRoad_running {n : Nat} {s : State} (h0 : n ≠ 0) (hr : inReset 200 s = false)
    (hs : (road n (beforeIngest n s)).state ≠ .idle) : stopRoad n s =
      transition n .idle 2 (setRoad n { road n (stopCounted n s) with initPending := false } (stopCounted n s)) := by
  unfold stopRoad
  extract_lets u
  rw [if_neg (by simp [u, h0, hs, hr])]
  rfl

/-- The counters once a stop has discarded an observation: as before it, and one more is stale. -/
theorem counts_stopCounted {n : Fin 64} {x : Ingested} {s : State} (hx : ingestedNow n s = some x) :
    rg ROA_CNT_ACC n (stopCounted n s) = x.accepted ∧
      rgF ROA_CNT_REJ n 31 16 (stopCounted n s) = (x.rejected.toNat / 2 ^ 16 + 1) % 2 ^ 16 := by
  have hc : stopCounted n s = bump ROA_CNT_REJ n 31 16 (beforeIngest n s) := by
    rw [stopCounted, hx]
    rfl
  have hrej : rg ROA_CNT_REJ n (beforeIngest n s) = x.rejected := by
    rw [rg_beforeIngest hx, registersBefore, rg_setRg_other _ _ _ _ _ _ (rkey_road_ne n (by decide)),
      rg_setRg_other _ _ _ _ _ _ (rkey_road_ne n (by decide)), rg_setRg_other _ _ _ _ _ _ (rkey_road_ne n (by decide)),
      rg_setRg_same]
  rw [hc]
  refine ⟨?_, ?_⟩
  · rw [rg_bump_other (rkey_road_ne n (by decide)), rg_beforeIngest hx, registersBefore,
      rg_setRg_other _ _ _ _ _ _ (rkey_road_ne n (by decide)), rg_setRg_other _ _ _ _ _ _ (rkey_road_ne n (by decide)),
      rg_setRg_same]
  · rw [rgF_bump_same _ _ _ _ _ (by omega) (by omega), rgF, hrej, fld]
    exact Nat.mod_add_mod _ _ _

theorem exec_roadStop {n : Fin 64} {s : State} (h0 : n ≠ 0) (hr : inReset 200 s = false)
    (hs : (road n (beforeIngest n s)).state ≠ .idle) : ∃ t : State, exec (.roadStop n) s = .next t ∧
      (road n t).state = .idle ∧ (road n t).pub = 0 ∧ (road n t).pubRate = 0 ∧
      (∀ x : Ingested, ingestedNow n s = some x → rg ROA_CNT_ACC n t = x.accepted ∧
        rgF ROA_CNT_REJ n 31 16 t = (x.rejected.toNat / 2 ^ 16 + 1) % 2 ^ 16) ∧
      Moved n 2 (rgF ROA_HIST n 11 0 (beforeIngest n s)) s t := by
  have hp := prepared_stop n { road n (stopCounted n s) with initPending := false } s
  have ht := entered_transition n .idle 2
    (setRoad n { road n (stopCounted n s) with initPending := false } (stopCounted n s))
  have heq := stopRoad_running (n := n) (fun h => h0 (Fin.ext h)) hr hs
  obtain ⟨e, h, hroad⟩ := ht.road
  rw [hp.road] at hroad
  refine ⟨_, congrArg Host.Outcome.next heq, by rw [hroad]; rfl, by rw [hroad]; rfl, by rw [hroad]; rfl,
    fun x hx => ?_, ht.moved hp⟩
  obtain ⟨hacc, hrej⟩ := counts_stopCounted hx
  exact ⟨(ht.regs ROA_CNT_ACC (by decide) (by decide)).trans hacc,
    (congrArg (fld · 31 16) (ht.regs ROA_CNT_REJ (by decide) (by decide))).trans hrej⟩

/-! ### Reacquisition and timeouts -/

theorem reacquireRoad_running {n : Nat} {s : State} (hr : inReset 200 s = false) (hk : 2 ≤ roadKind n s)
    (hs : (road n s).state ≠ .idle) (hi : ingestedNow n s = none) : reacquireRoad n s =
      transition n .acquiring 11 (setRoad n { road n s with initPending := true } s) := by
  unfold reacquireRoad
  dsimp only
  rw [beforeIngest_none hi, if_neg (by simp [hs, hr]; omega), hi]

theorem exec_roadReacquire {n : Fin 64} {s : State} (hr : inReset 200 s = false) (hk : 2 ≤ roadKind n s)
    (hs : (road n s).state ≠ .idle) (hi : ingestedNow n s = none) :
    ∃ t : State, exec (.roadReacquire n) s = .next t ∧ (road n t).state = .acquiring ∧ (road n t).initPending = true ∧
      Moved n 11 (rgF ROA_HIST n 11 0 s) s t := by
  have hp := prepared_setRoad n { road n s with initPending := true } (OnlyIn.refl (F := ⟨[.regs], 23⟩) s)
  have ht := entered_transition n .acquiring 11 (setRoad n { road n s with initPending := true } s)
  obtain ⟨e, h, hroad⟩ := ht.road
  rw [hp.road] at hroad
  exact ⟨_, congrArg Host.Outcome.next (reacquireRoad_running hr hk hs hi), by rw [hroad]; rfl, by rw [hroad]; rfl,
    ht.moved hp⟩

/-- A transition of a road as it stands. -/
theorem moved_transition (n : Fin 64) (new : RoadState) (cause : Nat) (s : State) :
    (road n (transition n new cause s)).state = new ∧
      Moved n cause (rgF ROA_HIST n 11 0 s) s (transition n new cause s) := by
  have ht := entered_transition n new cause s
  obtain ⟨e, h, hroad⟩ := ht.road
  refine ⟨?_, ht.moved ⟨rfl, fun _ _ => rfl, rfl, rfl, rfl⟩⟩
  rw [hroad]
  cases new <;> rfl

theorem moved_claim {n : Fin 64} {new : RoadState} {cause : Nat} {s : State} {c : Instr} {f : State → State}
    (hc : exec c s = .next (f s)) (hf : f s = transition n new cause s) (hcause : cause % 16 = cause) :
    ∃ t : State, exec c s = .next t ∧ (road n t).state = new ∧ rgF ROA_STATE n 7 4 t = cause ∧
      (∀ m : Fin 64, m ≠ n → road m t = road m s) ∧ t.lanes = s.lanes := by
  obtain ⟨hstate, hm⟩ := moved_transition n new cause s
  exact ⟨_, hc.trans (congrArg Host.Outcome.next hf), hstate, hm.status.trans hcause, hm.others, hm.lanes⟩

theorem obsTimeout_eq {n : Nat} {s : State} (ha : applyComes n s = false) (hk : roadKind n s ≠ 1)
    (hs : (road n s).state = .tracking ∨ (road n s).state = .held) : obsTimeout n s =
      if (obsTimeoutNs n s : Int) ≤ diff32 (now s) (road n s).lastTime then transition n .coasting 4 s else s := by
  unfold obsTimeout
  dsimp only
  rw [if_neg (by simp [ha])]
  simp only [hs, hk, ne_eq, not_false_eq_true, true_and]

theorem coastLimitExpiry_coasting {n : Nat} {s : State} (ha : applyComes n s = false)
    (hs : (road n s).state = .coasting) : coastLimitExpiry n s =
      if (coastLimitNs n s : Int) ≤ diff32 (now s) (road n s).entered ∨
          ((road n s).horizon : Int) < diff32 (now s) (road n s).tS then transition n .lost 6 s else s := by
  unfold coastLimitExpiry
  dsimp only
  rw [if_neg (by simp [ha]), hs]

theorem coastLimitExpiry_acquiring {n : Nat} {s : State} (ha : applyComes n s = false)
    (hs : (road n s).state = .acquiring) (hn : (road n s).appliedSince = false) : coastLimitExpiry n s =
      if ((obsTimeoutNs n s + coastLimitNs n s : Nat) : Int) ≤ diff32 (now s) (road n s).entered then
        transition n .lost 6 s else s := by
  unfold coastLimitExpiry
  dsimp only
  rw [if_neg (by simp [ha]), hs]
  simp [hn]

theorem stopRoad_zero (s : State) : stopRoad 0 s = s := by
  unfold stopRoad
  exact if_pos (.inl rfl)

/-- Settles O8. -/
theorem roadCommandsMoveTheRoadsState : Obligations.RoadCommandsMoveTheRoadsState := by
  refine ⟨fun n s hr => ⟨fun hi hk => ?_, fun hi hk => ?_, fun h0 hs => ?_, fun hs hk hi => ?_, fun hs => ?_,
    fun hs => ?_, fun hs => ?_⟩, fun s => ?_, fun n s hk => ⟨fun ha => ⟨?_, ?_⟩, fun ha => ⟨fun hs => ?_, fun hs => ?_,
    fun hs hn => ?_⟩⟩⟩
  · obtain ⟨t, ht, hstate, hinit, hpub, hm⟩ := start_of_observations hr hi hk
    exact ⟨t, ht, hstate, hinit, hpub, hm.status, hm.others, hm.lanes, hm.bytes⟩
  · obtain ⟨t, ht, hstate, htS, hcount, hlap, hm⟩ := start_of_clock hr hi hk
    exact ⟨t, ht, hstate, htS, hcount, hlap, hm.status, hm.others, hm.lanes, hm.bytes⟩
  · obtain ⟨t, ht, hstate, hpub, hrate, hcounts, hm⟩ := exec_roadStop h0 hr hs
    exact ⟨t, ht, hstate, hpub, hrate, hm.status, hm.others, hm.lanes, hcounts, fun _ => hm.bytes⟩
  · obtain ⟨t, ht, hstate, hinit, hm⟩ := exec_roadReacquire hr hk hs hi
    exact ⟨t, ht, hstate, hinit, hm.status, hm.others, hm.lanes, fun _ => hm.bytes⟩
  · exact congrArg Host.Outcome.next (if_pos (.inl hs))
  · exact congrArg Host.Outcome.next (if_pos (.inr (.inl hs)))
  · exact congrArg Host.Outcome.next (if_pos (hs.imp_right .inr))
  · exact congrArg Host.Outcome.next (stopRoad_zero s)
  · exact congrArg Host.Outcome.next (if_pos ha)
  · exact congrArg Host.Outcome.next (if_pos ha)
  · have heq := obsTimeout_eq ha hk hs
    split
    · next h => exact moved_claim rfl (heq.trans (if_pos h)) rfl
    · next h => exact congrArg Host.Outcome.next (heq.trans (if_neg h))
  · have heq := coastLimitExpiry_coasting ha hs
    split
    · next h => exact moved_claim rfl (heq.trans (if_pos h)) rfl
    · next h => exact congrArg Host.Outcome.next (heq.trans (if_neg h))
  · have heq := coastLimitExpiry_acquiring ha hs hn
    split
    · next h => exact moved_claim rfl (heq.trans (if_pos h)) rfl
    · next h => exact congrArg Host.Outcome.next (heq.trans (if_neg h))

end Sys2Proof.Machine
end

section
/-! PROOF. O9: observations that leave the queue, publication of every road on each edge, laps of clock roads, and the
registers of roads. -/

set_option Elab.async false

namespace Sys2Proof.Machine

open Sys2Proof

/-! ### Observations -/

theorem observationIngest_none {s : State} (h : s.ingest = [] ∨ s.ingestEdge = s.mp.tclk + 1) :
    observationIngest s = s := by
  unfold observationIngest
  split
  · rfl
  · next o q hq => exact if_pos (h.resolve_left (by simp [hq]))

/-- The state in which an observation has left the queue. -/
def dequeued (o : Observation) (q : List Observation) (s : State) : State :=
  { s with ingest := q, ingestEdge := edgeNow s, ingested := some (ingestOf o s) }

theorem observationIngest_head {o : Observation} {q : List Observation} {s : State} (h : s.ingest = o :: q)
    (he : s.ingestEdge ≠ s.mp.tclk + 1) : observationIngest s = checkObservation o (dequeued o q s) := by
  unfold observationIngest
  rw [h]
  exact if_neg he

theorem checkObservation_otherKind {o : Observation} {n : Fin 64} {s : State} (hn : o.road = n)
    (hk : o.srcKind ≠ roadKind n s) : checkObservation o s = staleObservation n s := by
  have hm : o.road % 64 = n := by omega
  have hc : ingestCheck o s = .stale := by
    unfold ingestCheck
    dsimp only
    rw [hm, if_pos hk]
  unfold checkObservation
  dsimp only
  rw [hc, hm]

theorem ingestCheck_first {o : Observation} {n : Fin 64} {s : State} (hn : o.road = n)
    (hk : o.srcKind = roadKind n s) (hs : (road n s).state = .acquiring) (hi : (road n s).initPending = true)
    (ht : ¬ (1000001 ≤ sub32 o.time (now s) ∧ sub32 o.time (now s) < 2 ^ 31)) : ingestCheck o s = .passed := by
  have hm : o.road % 64 = n := by omega
  unfold ingestCheck
  dsimp only
  rw [hm, if_neg (by simp [hk]), if_neg (by simp [hs]), if_neg (by simp [hs, hi]), if_neg ht]

theorem trackerUpdate_first {o : Observation} {n : Nat} {s : State} (hs : (road n s).state = .acquiring)
    (hi : (road n s).initPending = true) (ha : o.reacquire = false) : trackerUpdate n o s = initialise n o s := by
  unfold trackerUpdate
  dsimp only
  rw [if_neg (by simp [hs]), if_neg (by simp [ha]), if_pos hi]

theorem settleReturn_apart {n : Nat} {before : RoadState} {s : State} (h : (road n s).state.comparing = false) :
    settleReturn n before s = s :=
  if_pos (.inr (by simp [h]))

/-- A road as its first observation initialises it. -/
def initialisedRoad (n : Nat) (o : Observation) (s : State) (r : Road) : Road :=
  { r with
    p := BitVec.ofNat 64 ((if o.fracOnly then r.pub.toNat / 2 ^ 32 else o.lap.toNat) * 2 ^ 48 + o.frac.toNat * 2 ^ 16),
    a := 0, tS := o.time,
    v := BitVec.ofNat 48 (wrapI 48 (if o.hintValid then si o.hint else si (rg ROA_RATE_INIT n s))),
    initPending := false }

theorem initialise_eq (n : Nat) (o : Observation) (s : State) : initialise n o s =
    bookApplied n o.fracOnly (setRgF ROA_STATE n 11 8 0 (setRoad n (initialisedRoad n o s (road n s)) s)) := rfl

/-- A road with an observation booked as applied. -/
def bookedRoad (s : State) (r : Road) : Road :=
  { r with appliedSince := true, lastTime := r.tS, obsAt := elapsedNs s, horizon := horizonOf (si r.v) }

theorem bookApplied_eq (n : Nat) (fracOnly : Bool) (s : State) : bookApplied n fracOnly s =
    refreshEndTimes n (writeHistory n false fracOnly
      (bump ROA_CNT_ACC n 31 0 (setRgF ROA_STATE n 14 12 0 (setRoad n (bookedRoad s (road n s)) s)))) := rfl

theorem onlyIn_refreshEndTimes (n : Nat) (s : State) : OnlyIn ⟨[.tpk, .gates], 23⟩ s (refreshEndTimes n s) :=
  .of fun _ _ => (OnlyIn.refl s).refreshEndTimes

/-- What booking an applied observation leaves: its road, and the count of those applied. -/
structure Booked (n : Fin 64) (s t : State) : Prop where
  road : Machine.road n t = bookedRoad s (Machine.road n s)
  others : ∀ m : Nat, m ≠ n → Machine.road m t = Machine.road m s
  lanes : t.lanes = s.lanes
  ingest : t.ingest = s.ingest
  count : rgF ROA_CNT_ACC n 31 0 t = (rgF ROA_CNT_ACC n 31 0 s + 1) % 2 ^ 32

theorem booked_bookApplied (n : Fin 64) (fracOnly : Bool) (s : State) : Booked n s (bookApplied n fracOnly s) := by
  rw [bookApplied_eq]
  have h1 : OnlyIn ⟨[.regs], 2⟩ (setRoad n (bookedRoad s (road n s)) s) (bump ROA_CNT_ACC n 31 0
      (setRgF ROA_STATE n 14 12 0 (setRoad n (bookedRoad s (road n s)) s))) :=
    .of fun _ _ => (OnlyIn.refl _).setRgF.bump
  have hc : rgF ROA_CNT_ACC n 31 0 (bump ROA_CNT_ACC n 31 0
      (setRgF ROA_STATE n 14 12 0 (setRoad n (bookedRoad s (road n s)) s))) =
      (rgF ROA_CNT_ACC n 31 0 s + 1) % 2 ^ 32 := by
    rw [rgF_bump_same _ _ _ _ _ (by omega) (by omega), rgF, rg_setRgF_other (rkey_road_ne n (by decide))]
    rfl
  generalize bump ROA_CNT_ACC n 31 0 (setRgF ROA_STATE n 14 12 0 (setRoad n (bookedRoad s (road n s)) s)) = u at *
  have h2 := onlyIn_writeHistory n false fracOnly u
  have hw : rg ROA_CNT_ACC n (writeHistory n false fracOnly u) = rg ROA_CNT_ACC n u :=
    rg_writeHistory (rkey_road_ne n (by decide))
  generalize writeHistory n false fracOnly u = w at *
  have h3 := onlyIn_refreshEndTimes n w
  have hro : ∀ m, road m (refreshEndTimes n w) = road m (setRoad n (bookedRoad s (road n s)) s) := fun m => by
    rw [road_congr (h3.keeps .roads), road_congr (h2.keeps .roads), road_congr (h1.keeps .roads)]
  refine ⟨(hro n).trans (road_setRoad _ _ _), fun m hm => (hro m).trans (road_setRoad_other _ _ _ _ hm), ?_, ?_, ?_⟩
  · exact (h3.keeps .lanes).trans ((h2.keeps .lanes).trans (h1.keeps .lanes))
  · exact (h3.keeps .ingest).trans ((h2.keeps .ingest).trans (h1.keeps .ingest))
  · rw [rgF, h3.rg ROA_CNT_ACC n ((rkey_road_lt n (by decide)).trans (by decide)), hw]
    exact hc

/-- What the first observation of a road leaves. -/
theorem booked_initialise (n : Fin 64) (o : Observation) (s : State) :
    Machine.road n (initialise n o s) = bookedRoad s (initialisedRoad n o s (road n s)) ∧
      (∀ m : Nat, m ≠ n → road m (initialise n o s) = road m s) ∧ (initialise n o s).lanes = s.lanes ∧
      (initialise n o s).ingest = s.ingest ∧
      rgF ROA_CNT_ACC n 31 0 (initialise n o s) = (rgF ROA_CNT_ACC n 31 0 s + 1) % 2 ^ 32 := by
  rw [initialise_eq]
  have hb := booked_bookApplied n o.fracOnly
    (setRgF ROA_STATE n 11 8 0 (setRoad n (initialisedRoad n o s (road n s)) s))
  have hro : ∀ m, road m (setRgF ROA_STATE n 11 8 0 (setRoad n (initialisedRoad n o s (road n s)) s)) =
      road m (setRoad n (initialisedRoad n o s (road n s)) s) := fun _ => rfl
  refine ⟨hb.road.trans ?_, fun m hm => (hb.others m hm).trans ((hro m).trans (road_setRoad_other _ _ _ _ hm)),
    hb.lanes, hb.ingest, hb.count.trans ?_⟩
  · rw [hro, road_setRoad]
    rfl
  · rw [rgF, rg_setRgF_other (rkey_road_ne n (by decide))]
    rfl

theorem ingest_first {o : Observation} {q : List Observation} {n : Fin 64} {s : State} (h : s.ingest = o :: q)
    (hn : o.road = n) (he : s.ingestEdge ≠ s.mp.tclk + 1) (hk : o.srcKind = roadKind n s) (h5 : o.srcKind ≠ 5)
    (hs : (road n s).state = .acquiring) (hi : (road n s).initPending = true) (ha : o.reacquire = false)
    (ht : ¬ (1000001 ≤ sub32 o.time (now s) ∧ sub32 o.time (now s) < 2 ^ 31)) :
    observationIngest s = initialise n o (dequeued o q s) := by
  have hm : o.road % 64 = n := by omega
  have hbooked := (booked_initialise n o (dequeued o q s)).1
  rw [observationIngest_head h he, checkObservation, ingestCheck_first (s := dequeued o q s) hn hk hs hi ht, hm]
  dsimp only
  rw [if_neg h5, trackerUpdate_first (s := dequeued o q s) hs hi ha, settleReturn_apart]
  rw [hbooked, show (bookedRoad _ (initialisedRoad n o _ (road n (dequeued o q s)))).state = _ from hs]
  rfl

/-! ### Publication -/

/-- A road as it is published. -/
def publishedRoad (n : Nat) (s : State) : Road :=
  let r := if roadKind n s = 1 then { road n s with n := (road n s).countAt (now s), lastNs := now s } else road n s
  { r with prev := (road n s).pub, pub := (r.publishAt (roadKind n s) (now s)).1,
           pubRate := (r.publishAt (roadKind n s) (now s)).2, pubA := r.a, pubT := r.tS }

theorem publishRoad_running {n : Nat} {s : State} (h : (road n s).state ≠ .idle) :
    publishRoad n s = setRoad n (publishedRoad n s) s := by
  unfold publishRoad
  dsimp only
  rw [if_neg h]
  unfold publishedRoad
  split <;> rfl

theorem publishRoad_idle {n : Nat} {s : State} (h : (road n s).state = .idle) : publishRoad n s = s := if_pos h

theorem onlyIn_publishRoad (n : Nat) (s : State) : OnlyIn ⟨[.roads], 23⟩ s (publishRoad n s) := by
  by_cases h : (road n s).state = .idle
  · rw [publishRoad_idle h]
    exact .refl s
  · rw [publishRoad_running h]
    exact .of fun _ _ => (OnlyIn.refl s).setRoad

theorem road_publishRoad_other {n m : Nat} (s : State) (h : m ≠ n) : road m (publishRoad n s) = road m s := by
  by_cases hi : (road n s).state = .idle
  · rw [publishRoad_idle hi]
  · rw [publishRoad_running hi, road_setRoad_other _ _ _ _ h]

theorem publishedRoad_congr {n : Nat} {s t : State} (h : OnlyIn ⟨[.roads], 23⟩ s t) (hr : road n t = road n s) :
    publishedRoad n t = publishedRoad n s := by
  have hk : roadKind n t = roadKind n s := by rw [roadKind, roadKind, rgF, rgF, rg, rg, h.keeps .regs]
  rw [publishedRoad, publishedRoad, hr, hk, now_congr (h.keeps .mp)]

theorem onlyIn_publishAll (l : List Nat) (s : State) : OnlyIn ⟨[.roads], 23⟩ s (forEach l publishRoad s) :=
  (OnlyIn.refl s).forEach fun n t h => h.trans (onlyIn_publishRoad n t)

/-- An operation on each road of a walk that changes its own road only, into one that no other road's operation touches. -/
structure OwnRoad (f : Nat → State → State) (g : Nat → State → Road) : Prop where
  own : ∀ n s, road n (f n s) = g n s
  others : ∀ n m s, m ≠ n → road m (f n s) = road m s
  stable : ∀ n m s, m ≠ n → g m (f n s) = g m s

theorem OwnRoad.absent {f : Nat → State → State} {g : Nat → State → Road} (h : OwnRoad f g) {l : List Nat} {n : Nat}
    (s : State) (hn : n ∉ l) : road n (forEach l f s) = road n s :=
  forEach_keeps (fun t => road n t = road n s) l f s
    (fun _ hm t ht => (h.others _ n t (ne_of_mem_of_not_mem hm hn).symm).trans ht) rfl

theorem OwnRoad.walked {f : Nat → State → State} {g : Nat → State → Road} (h : OwnRoad f g) {l : List Nat}
    (hl : l.Nodup) {n : Nat} (hn : n ∈ l) (s : State) : road n (forEach l f s) = g n s := by
  induction l generalizing s with
  | nil => cases hn
  | cons m l ih =>
    rw [forEach_cons]
    obtain ⟨hm, hl⟩ := List.nodup_cons.mp hl
    by_cases hnm : n = m
    · subst hnm
      rw [h.absent _ hm, h.own]
    · rw [ih hl ((List.mem_cons.mp hn).resolve_left hnm), h.stable m n s hnm]

theorem ownRoad_publishRoad :
    OwnRoad publishRoad fun n s => if (road n s).state = .idle then road n s else publishedRoad n s where
  own n s := by
    split
    · next h => rw [publishRoad_idle h]
    · next h => rw [publishRoad_running h, road_setRoad]
  others n m s h := road_publishRoad_other s h
  stable n m s h := by
    rw [road_publishRoad_other s h, publishedRoad_congr (onlyIn_publishRoad n s) (road_publishRoad_other s h)]

theorem road_roadPublish (n : Fin 64) (s : State) :
    road n (roadPublish s) = if (road n s).state = .idle then road n s else publishedRoad n s :=
  ownRoad_publishRoad.walked List.nodup_range (List.mem_range.mpr n.isLt) s

/-! ### Laps of clock roads -/

/-- A clock road at the start of its next lap. -/
def lappedRoad (n : Nat) (s : State) (r : Road) : Road :=
  let c := r.countAt (now s) - r.period
  let p := max 1 (roadPeriod n s)
  { r with n := c, lastNs := now s, period := p, tS := now s, p := clockPos (r.lap + 1) c p,
           v := clockRate p, horizon := horizonOf (si (clockRate p)), obsAt := elapsedNs s }

theorem clockRoadLap_eq {n : Nat} {s : State} (hk : roadKind n s = 1) (hs : (road n s).state = .tracking) :
    clockRoadLap n s = if (road n s).period ≤ (road n s).countAt (now s) then
      writeHistory n false false (setRoad n (lappedRoad n s (road n s)) s) else s := by
  unfold clockRoadLap
  dsimp only
  by_cases h : (road n s).period ≤ (road n s).countAt (now s)
  · rw [if_neg (by simp [hk, hs, h]), if_pos h]
    rfl
  · rw [if_pos (by simp [hk, hs]; omega), if_neg h]

/-! ### Registers -/

theorem rkey_path_ne {r r' : Nat} (p : Path) (h : r ≠ r') : rkey r p ≠ rkey r' p :=
  rkey_ne_of_lt h (by omega) (by omega)

theorem words_append (x : BitVec 64) : w32 (x.toNat / 2 ^ 32) ++ w32 x.toNat = x := by
  apply BitVec.eq_of_toNat_eq
  rw [BitVec.toNat_append, w32, w32, BitVec.toNat_ofNat, BitVec.toNat_ofNat,
    ← Nat.shiftLeft_add_eq_or_of_lt (Nat.mod_lt _ (by decide)), Nat.shiftLeft_eq]
  omega

/-- The two words of a rate are its sign extension. -/
theorem rate_words (v : BitVec 48) :
    w32 (wrapI 64 (si v) / 2 ^ 32) ++ w32 (wrapI 64 (si v)) = v.signExtend 64 := by
  have h : (v.signExtend 64).toNat = wrapI 64 (si v) := by
    rw [BitVec.signExtend, ← ofNat_wrapI, BitVec.toNat_ofNat, Nat.mod_eq_of_lt (wrapI_lt 64 _)]
    rfl
  rw [← h, words_append]

/-- What a read of ROA_POS_LAP latches. -/
def posLatched (p : Path) (r : Road) (s : State) : State :=
  setRg ROA_LAST_OBS p r.pubT (setRg ROA_ACCEL p r.pubA (setRg ROA_RATE_HI p (w32 (wrapI 64 (si r.pubRate) / 2 ^ 32))
    (setRg ROA_RATE_LO p (w32 (wrapI 64 (si r.pubRate))) (setRg ROA_POS_FRAC p (w32 r.pub.toNat) s))))

theorem roaPosLapRead_eq {p : Path} {n : Nat} {s : State} (h : winOf p ROA_POS_LAP s = some n) :
    roaPosLapRead p s = posLatched p (road n s) s := by
  rw [roaPosLapRead, h]
  rfl

theorem onlyIn_posLatched (p : Path) (r : Road) (s : State) : OnlyIn ⟨[.regs], 2⟩ s (posLatched p r s) :=
  .of fun _ _ => (OnlyIn.refl s).setRg.setRg.setRg.setRg.setRg

theorem rg_posLatched (p : Path) (r : Road) (s : State) :
    rg ROA_POS_FRAC p (posLatched p r s) = w32 r.pub.toNat ∧ rg ROA_LAST_OBS p (posLatched p r s) = r.pubT ∧
      rg ROA_ACCEL p (posLatched p r s) = r.pubA ∧
      rg ROA_RATE_HI p (posLatched p r s) = w32 (wrapI 64 (si r.pubRate) / 2 ^ 32) ∧
      rg ROA_RATE_LO p (posLatched p r s) = w32 (wrapI 64 (si r.pubRate)) := by
  have hne : ∀ {r r' : Nat} {v : Word} {t : State}, r ≠ r' → rg r p (setRg r' p v t) = rg r p t :=
    fun h => rg_setRg_other _ _ _ _ _ _ (rkey_path_ne p h)
  unfold posLatched
  refine ⟨?_, rg_setRg_same .., ?_, ?_, ?_⟩
  · rw [hne (by decide), hne (by decide), hne (by decide), hne (by decide), rg_setRg_same]
  · rw [hne (by decide), rg_setRg_same]
  · rw [hne (by decide), hne (by decide), rg_setRg_same]
  · rw [hne (by decide), hne (by decide), hne (by decide), rg_setRg_same]

/-- Settles O9. -/
theorem roadsTakeObservationsAndPublish : Obligations.RoadsTakeObservationsAndPublish := by
  refine ⟨⟨fun s h => congrArg Host.Outcome.next (observationIngest_none h), fun o q n s h hn he => ⟨fun hk => ?_,
    fun hk h5 hs hi hf ha ht => ?_⟩⟩, ⟨fun n s => ?_, fun n s hk hs => ?_⟩, fun p v n s hw hwr => ?_,
    fun p v n s hw hwr => ?_, fun p n s hw => ?_⟩
  · refine congrArg Host.Outcome.next ((observationIngest_head h he).trans ?_)
    rw [checkObservation_otherKind (n := n) (s := dequeued o q s) hn hk]
    have hm : o.road % 64 = n := by omega
    unfold staleObservation dequeued ingestOf
    dsimp only
    rw [hm]
    rfl
  · have heq := ingest_first h hn he hk h5 hs hi ha ht
    obtain ⟨hr, hothers, hlanes, hingest, hcount⟩ := booked_initialise n o (dequeued o q s)
    refine ⟨_, congrArg Host.Outcome.next heq, hingest, ?_, ?_, ?_, ?_, ?_, ?_, hcount,
      fun m hm => hothers m (by omega), hlanes⟩
    · rw [hr]
      exact hs
    · rw [hr]
      rfl
    · rw [hr, bookedRoad, initialisedRoad, hf]
      rfl
    · rw [hr, bookedRoad, initialisedRoad, ofNat_wrapI]
      rfl
    · rw [hr]
      rfl
    · rw [hr]
      rfl
  · have ho := onlyIn_publishAll (List.range 64) s
    refine ⟨_, rfl, fun h => ?_, fun h => ?_, ho.keeps .regs, ho.keeps .mem, ho.keeps .lanes⟩
    · rw [road_roadPublish, if_neg h]
      rfl
    · rw [road_roadPublish, if_pos h]
  · have heq := clockRoadLap_eq hk hs
    split
    · next h =>
      rw [if_pos h] at heq
      have hw := onlyIn_writeHistory n false false (setRoad n (lappedRoad n s (road n s)) s)
      have hr : road n (writeHistory n false false (setRoad n (lappedRoad n s (road n s)) s)) =
          lappedRoad n s (road n s) := by rw [road_congr (hw.keeps .roads), road_setRoad]
      refine ⟨_, congrArg Host.Outcome.next heq, by rw [hr]; rfl, by rw [hr]; rfl, by rw [hr]; rfl, hw.keeps .lanes,
        fun m hm => ?_, fun a ha => ?_⟩
      · rw [road_congr (hw.keeps .roads), road_setRoad_other _ _ _ _ (by omega)]
      · exact rdByte_writeHistory ha
    · next h => exact congrArg Host.Outcome.next (heq.trans (if_neg h))
  · exact congrArg Host.Outcome.next (atInst_taken _ _ _ _ _ hw hwr)
  · refine congrArg Host.Outcome.next ((atInst_taken _ _ _ _ _ hw hwr).trans ?_)
    unfold periodBad
    by_cases h : 1000 ≤ v.toNat ∧ v.toNat ≤ 4000000000
    · rw [if_pos h, if_neg (by simp; omega)]
    · rw [if_neg h, if_pos (by simp; omega)]
  · have ho := onlyIn_posLatched p (road n s) s
    obtain ⟨hfrac, hobs, hacc, hhi, hlo⟩ := rg_posLatched p (road n s) s
    exact ⟨_, congrArg Host.Outcome.next (roaPosLapRead_eq hw), hfrac, hobs, hacc, by rw [hhi, hlo, rate_words],
      ho.keeps .roads, ho.keeps .mem, ho.keeps .lanes⟩

end Sys2Proof.Machine
end

section
/-! PROOF. O10: entries of road states wait with their road, go to sessions and workers, and arrive at the roads that
follow them. -/

set_option Elab.async false

namespace Sys2Proof.Machine

open Sys2Proof

/-! ### Entries that wait and go -/

theorem onlyIn_queueAll (l : List Nat) (s : State) : OnlyIn ⟨[.roads], 23⟩ s (forEach l queueEntry s) :=
  (OnlyIn.refl s).forEach fun n t h => h.trans (onlyIn_queueEntry n t)

/-- A road whose state waits to be sent. -/
def queuedRoad (n : Nat) (s : State) : Road :=
  { road n s with
    queuedEntry := (road n s).entryBytes,
    queuedHier := (road n s).queuedHier || (bit (rg ROA_CTRL n s) 4 && bit (rg ROA_RSF 0 s) 20) }

theorem rg_congr {s t : State} (h : t.regs = s.regs) (r i : Nat) : rg r i t = rg r i s := by
  rw [rg, rg, h]

theorem ownRoad_queueEntry : OwnRoad queueEntry queuedRoad where
  own n s := road_setRoad n _ s
  others n m s h := road_queueEntry_other s h
  stable n m s h := by
    have hr := rg_congr ((onlyIn_queueEntry n s).keeps .regs)
    rw [queuedRoad, queuedRoad, road_queueEntry_other s h, hr, hr]

theorem roadStatePeriodic_on {s : State} (hr : inReset 200 s = false) (hp : rgF ROA_RSF 0 15 0 s ≠ 0) :
    roadStatePeriodic s = forEach ((List.range 64).filter fun n => bit (rg ROA_CTRL n s) 4) queueEntry s :=
  if_neg (by simp [hr, hp])

/-- A road whose entry has gone, to `goes` at all. -/
def sentRoad (goes : Bool) (r : Road) : Road :=
  { r with queuedEntry := [], queuedHier := false, transitions := if goes then 0 else r.transitions,
           sendSeq := if goes then r.sendSeq + 1 else r.sendSeq }

theorem onlyIn_entrySent (n : Nat) (s : State) : OnlyIn ⟨[.roads], 23⟩ s (entrySent n s) :=
  .of fun _ _ => (OnlyIn.refl s).entrySent

theorem road_entrySent_other {n m : Nat} (s : State) (h : m ≠ n) : road m (entrySent n s) = road m s :=
  road_setRoad_other n m _ s h

theorem ownRoad_entrySent :
    OwnRoad entrySent fun n s => sentRoad ((road n s).queuedHier || !(roadSessions s).isEmpty) (road n s) where
  own n s := road_setRoad n _ s
  others n m s h := road_entrySent_other s h
  stable n m s h := by
    rw [road_entrySent_other s h, roadSessions, roadSessions, rg_congr ((onlyIn_entrySent n s).keeps .regs)]

/-- The roads whose entries wait. -/
def waitingRoads (s : State) : List Nat := (List.range 64).filter fun n => !(road n s).queuedEntry.isEmpty

theorem onlyIn_toSessions (l : List Nat) (p : List Bytes) (s : State) :
    OnlyIn ⟨[.regs, .jct, .tpk, .flt, .draws], 8⟩ s (forEach l (fun i => forEach p (roadToSession i)) s) :=
  .of fun _ _ => (OnlyIn.refl s).forEach fun _ _ h => h.forEach fun _ _ h => h.roadToSession

theorem onlyIn_toWorkers (l : List Nat) (p : List Bytes) (s : State) :
    OnlyIn ⟨[.regs, .jct, .tpk, .flt, .wpt], 9⟩ s (forEach l (fun w => forEach p (sendWorker w wpRoadState)) s) :=
  .of fun _ _ => (OnlyIn.refl s).forEach fun _ _ h => h.forEach fun _ _ h => h.sendWorker

/-- A sending leaves each waiting road as its entry goes, and touches no road by the frames it sends. -/
theorem road_roadStateSend {n : Fin 64} {s : State} (hr : inReset 200 s = false) (hn : (road n s).queuedEntry ≠ []) :
    road n (roadStateSend s) = sentRoad ((road n s).queuedHier || !(roadSessions s).isEmpty) (road n s) := by
  have hmem : n.val ∈ waitingRoads s := List.mem_filter.mpr ⟨List.mem_range.mpr n.isLt, by simpa using hn⟩
  unfold roadStateSend
  extract_lets ns all hier ws sess s1 s2
  rw [if_neg (by simp [ns, hr]; exact ⟨n, n.isLt, hn⟩)]
  rw [road_congr ((onlyIn_toWorkers ws hier s2).keeps .roads),
    road_congr ((onlyIn_toSessions sess all s1).keeps .roads)]
  exact ownRoad_entrySent.walked (List.nodup_range.filter _) hmem s

/-! ### Bytes of an entry -/

theorem slice_inside {x y : Bytes} {off len : Nat} (h : x.length ≤ off) :
    slice (x ++ y) off len = slice y (off - x.length) len := by
  unfold slice
  rw [List.drop_append, List.drop_eq_nil_of_le h, List.nil_append]

theorem slice_head {x y : Bytes} {len : Nat} (h : x.length = len) : slice (x ++ y) 0 len = x := by
  unfold slice
  rw [List.drop_zero, List.take_left' h]
  simp [h]

theorem slice_all {x : Bytes} {len : Nat} (h : x.length = len) : slice x 0 len = x := by
  simpa using slice_head (y := []) h

theorem length_leBytes (k n : Nat) : (leBytes k n).length = k := by
  induction k generalizing n with
  | zero => rfl
  | succ k ih => rw [leBytes, List.length_cons, ih]

theorem length_beBytes (k n : Nat) : (beBytes k n).length = k := by
  rw [beBytes, List.length_reverse, length_leBytes]

theorem beVal_beBytes (k n : Nat) : beVal (beBytes k n) = n % 256 ^ k := by
  rw [beVal, beBytes, List.reverse_reverse, leVal_leBytes]

/-- A number in network byte order behind the bytes before it. -/
theorem beAt_inside {x y : Bytes} {off len : Nat} (h : x.length ≤ off) :
    beAt (x ++ y) off len = beAt y (off - x.length) len := by
  rw [beAt, beAt, slice_inside h]

theorem beAt_head (k n : Nat) (y : Bytes) : beAt (beBytes k n ++ y) 0 k = n % 256 ^ k := by
  rw [beAt, slice_head (length_beBytes k n), beVal_beBytes]

theorem entriesOf_one {b : Bytes} (h : b.length = 32) : entriesOf (([1, 0, 0, 0] : Bytes) ++ b) = [b] := by
  have h0 : beAt (([1, 0, 0, 0] : Bytes) ++ b) 0 1 = 1 := by
    rw [beAt, show ([1, 0, 0, 0] : Bytes) ++ b = [1] ++ ([0, 0, 0] ++ b) from rfl, slice_head (by rfl)]
    rfl
  have hs : slice (([1, 0, 0, 0] : Bytes) ++ b) 4 32 = b := by
    rw [slice_inside (by decide)]
    exact slice_all h
  unfold entriesOf
  dsimp only
  rw [h0, if_pos ⟨by omega, by omega, by rw [List.length_append, h]; rfl⟩]
  exact congrArg (· :: []) hs

/-- The bytes of an entry of road `m` that tracks (R62). -/
def trackingEntry (m : Fin 64) (seq : BitVec 16) (p : BitVec 64) (v : BitVec 48) (a tS : Word) : Bytes :=
  beBytes 1 m ++ beBytes 1 2 ++ beBytes 2 seq.toNat ++ beBytes 4 tS.toNat ++ beBytes 8 p.toNat ++
    beBytes 6 v.toNat ++ beBytes 2 0 ++ beBytes 4 a.toNat ++ zeros 4

theorem fields_trackingEntry (m : Fin 64) (seq : BitVec 16) (p : BitVec 64) (v : BitVec 48) (a tS : Word) :
    beAt (trackingEntry m seq p v a tS) 1 1 = 2 ∧ beAt (trackingEntry m seq p v a tS) 2 2 = seq.toNat ∧
      beAt (trackingEntry m seq p v a tS) 4 4 = tS.toNat ∧ beAt (trackingEntry m seq p v a tS) 8 8 = p.toNat ∧
      beAt (trackingEntry m seq p v a tS) 16 6 = v.toNat ∧ beAt (trackingEntry m seq p v a tS) 24 4 = a.toNat := by
  simp only [trackingEntry, List.append_assoc, beAt_inside, beAt_head, length_beBytes, Nat.reduceLeDiff, Nat.reduceSub,
    Nat.reducePow, Nat.reduceMod, Nat.le_refl, Nat.sub_self]
  exact ⟨trivial, Nat.mod_eq_of_lt seq.isLt, Nat.mod_eq_of_lt tS.isLt, Nat.mod_eq_of_lt p.isLt,
    Nat.mod_eq_of_lt v.isLt, Nat.mod_eq_of_lt a.isLt⟩

/-! ### Entries that arrive -/

theorem roadStateReceive_one {src : BitVec 48} {n : Fin 64} {b : Bytes} {s : State} (hb : b.length = 32)
    (hf : followers (beAt b 0 1) s = [n.val]) : roadStateReceive src (([1, 0, 0, 0] : Bytes) ++ b) s =
      if rgF HIE_CFG 0 31 30 s ≠ 2 ∨ isManagerAddr src = false then staleObservation n s
      else if stepMode s = true then captureInput inputRoadState b s
      else enqueueObservation (entryObservation b n) s := by
  rw [roadStateReceive, entriesOf_one hb, forEach_cons, forEach_nil, roadEntry, hf, forEach_cons, forEach_nil,
    forEach_cons, forEach_nil]
  simp only [Bool.not_eq_true]

/-- A road that has taken an entry. -/
def enteredBy (e : Bytes) (s : State) (r : Road) : Road :=
  let v : BitVec 48 := BitVec.ofNat 48 (beAt e 16 6)
  { r with tS := w32 (beAt e 4 4), p := BitVec.ofNat 64 (beAt e 8 8), v := v,
           a := BitVec.ofNat 32 (beAt e 24 4), lastSeq := some (BitVec.ofNat 16 (beAt e 2 2)),
           lastTime := now s, entered := now s, obsAt := elapsedNs s, initPending := false, appliedSince := true,
           horizon := horizonOf (si v) }

theorem settleReturn_within {n : Nat} {before : RoadState} {s : State} (h : before.comparing = true) :
    settleReturn n before s = s := by
  unfold settleReturn
  exact if_pos (.inl h)

/-- A tracking road that takes an entry of a tracking road stays tracking. -/
theorem takeEntry_tracking {e : Bytes} {n : Nat} {s : State} (hs : (road n s).state = .tracking)
    (hq : (road n s).lastSeq = none) (hc : beAt e 1 1 = 2) : takeEntry e n s =
      refreshEndTimes n (writeHistory n false false (setRoad n (enteredBy e s (road n s)) s)) := by
  have hf : entryFresh e (road n s) = true := by
    rw [entryFresh, hq]
    rfl
  unfold takeEntry enteredBy
  dsimp only
  rw [if_neg (by simp [hf]), hc, hs, settleReturn_within rfl]
  rfl

theorem taken_takeEntry {e : Bytes} {n : Nat} {s : State} (hs : (road n s).state = .tracking)
    (hq : (road n s).lastSeq = none) (hc : beAt e 1 1 = 2) :
    road n (takeEntry e n s) = enteredBy e s (road n s) ∧ (∀ m : Nat, m ≠ n → road m (takeEntry e n s) = road m s) ∧
      (takeEntry e n s).ingest = s.ingest := by
  rw [takeEntry_tracking hs hq hc]
  have hw := onlyIn_writeHistory n false false (setRoad n (enteredBy e s (road n s)) s)
  have hr := onlyIn_refreshEndTimes n (writeHistory n false false (setRoad n (enteredBy e s (road n s)) s))
  have hro := fun m => (road_congr (hr.keeps .roads) m).trans (road_congr (hw.keeps .roads) m)
  exact ⟨(hro n).trans (road_setRoad _ _ _), fun m hm => (hro m).trans (road_setRoad_other _ _ _ _ hm),
    (hr.keeps .ingest).trans (hw.keeps .ingest)⟩

theorem ofNat_of_toNat {k m : Nat} {x : BitVec k} (h : m = x.toNat) : BitVec.ofNat k m = x := by
  rw [h, BitVec.ofNat_toNat, BitVec.setWidth_eq]

theorem checkObservation_entry {b : Bytes} {n : Fin 64} {s : State} (hk : roadKind n s = 5)
    (hs : (road n s).state = .tracking) (ht : sub32 (w32 (beAt b 4 4)) (now s) < 1000001) :
    checkObservation (entryObservation b n) s = takeEntry b n s := by
  have hm : (entryObservation b n).road % 64 = n := Nat.mod_eq_of_lt n.isLt
  have hc : ingestCheck (entryObservation b n) s = .passed := by
    unfold ingestCheck
    dsimp only
    rw [hm, if_neg (by simp [hk, entryObservation]), if_neg (by simp [hs]), if_neg (by simp [entryObservation]),
      if_neg (by simp only [entryObservation]; omega)]
  rw [checkObservation, hc, hm]
  rfl

/-- Settles O10. -/
theorem roadStateEntriesAreQueuedSentAndTaken : Obligations.RoadStateEntriesAreQueuedSentAndTaken := by
  refine ⟨fun n s hr hp hx => ?_, fun n s hr hn => ?_, fun src n b s hb hf => ?_, fun m n seq p v a tS q s => ?_⟩
  · have ho := onlyIn_queueAll ((List.range 64).filter fun n => bit (rg ROA_CTRL n s) 4) s
    refine ⟨_, congrArg Host.Outcome.next (roadStatePeriodic_on hr hp), ?_, ho.keeps .regs, ho.keeps .mem⟩
    rw [ownRoad_queueEntry.walked (List.nodup_range.filter _) (List.mem_filter.mpr ⟨List.mem_range.mpr n.isLt, hx⟩)]
    rfl
  · refine ⟨_, rfl, ?_, fun hsess => ?_⟩
    · rw [road_roadStateSend hr hn]
      rfl
    · rw [road_roadStateSend hr hn, List.isEmpty_eq_false_iff.mpr hsess, Bool.not_false, Bool.or_true]
      rfl
  · exact congrArg Host.Outcome.next (roadStateReceive_one hb hf)
  · intro b hq he hk hl hs ht
    obtain ⟨hst, hseq, htS, hp, hv, ha⟩ := fields_trackingEntry m seq p v a tS
    have htime : w32 (beAt b 4 4) = tS := ofNat_of_toNat htS
    obtain ⟨hroad, hothers, hingest⟩ := taken_takeEntry (e := b) (s := dequeued (entryObservation b n) q s) hs hl hst
    refine ⟨_, congrArg Host.Outcome.next ((observationIngest_head hq he).trans
      (checkObservation_entry (s := dequeued _ q s) hk hs (by rwa [htime]))), hingest, ?_, ?_, ?_, ?_, ?_, ?_,
      fun k hk' => hothers k (by omega)⟩
    · rw [hroad]
      exact hs
    · rw [hroad]
      exact htime
    · rw [hroad]
      exact ofNat_of_toNat hp
    · rw [hroad]
      exact ofNat_of_toNat hv
    · rw [hroad]
      exact ofNat_of_toNat ha
    · rw [hroad]
      exact congrArg some (ofNat_of_toNat hseq)

end Sys2Proof.Machine
end

section
/-! PROOF. O11: commits of milestone records, the comparison of an edge, and firing. -/

set_option Elab.async false

namespace Sys2Proof.Machine

open Sys2Proof

/-! ### Commits -/

theorem commitRecord_unready {n : Nat} {w : Rec} {s : State} (h : mstEnable s = false) :
    commitRecord n w s = setRecRun n {} (setRecWord n w s) := by
  have hc : ∀ r, roadCompares r (setRecRun n {} (setRecWord n w s)) = false := fun r => by
    have : mstEnable (setRecRun n {} (setRecWord n w s)) = false := h
    simp [roadCompares, this]
  unfold commitRecord onlyIf armTest
  rw [hc]
  split <;> rfl

theorem mayFire_disabled {n : Nat} {s : State} (h : mstEnable s = false) : mayFire n s = false := by
  simp [mayFire, h]

theorem comesDue_disabled {n : Nat} {s : State} (h : mstEnable s = false) : comesDue n s = false := by
  simp [comesDue, mayFire_disabled h, roadCompares, h]

theorem applyCommits_nil {p : Nat → State → Bool} {s : State} (h : s.commits = []) : applyCommits p s = s := by
  unfold applyCommits
  simp only [h, List.filter_nil, forEach_nil]
  rw [← h]

/-- A state whose records are compared on this edge. -/
def compared (s : State) : State := { s with cmpEdge := s.mp.tclk + 1 }

theorem applyCommits_one {p : Nat → State → Bool} {n e : Nat} {w : BitVec 128} {s : State}
    (h : s.commits = [{ record := n, word := w, edge := e }]) (he : e < s.mp.tclk) (hp : p n s = true) :
    applyCommits p s = commitRecord n w { s with commits := [] } := by
  unfold applyCommits
  simp only [h, List.filter_cons, List.filter_nil, he, hp, decide_true, Bool.and_self, if_true, Bool.not_true,
    Bool.false_eq_true, if_false, forEach_cons, forEach_nil]

/-- The comparison of one record. -/
def compareRecord (n : Nat) (s : State) : State :=
  let w : Rec := recWord n s
  let r := road w.road s
  if ¬ w.armed ∨ (recRun n s).pending ∨ ¬ r.state.comparing ∨ stepOrdered w s then s
  else
    match reached w r.prev r.pub with
    | some b => setRecRun n { pending := true, backward := b, due := s.mp.tclk } s
    | none => s

/-- The comparison of an edge once its commits have changed their records. -/
def compareAll (s : State) : State :=
  if ¬ mstEnable s then s
  else
    match s.enableReturn with
    | some e => if e < s.mp.tclk then forEach (List.range 64) roadReturns { s with enableReturn := none } else s
    | none => forEach (skeys s.recs) compareRecord s

theorem milestoneCompare_first {s : State} (hc : s.cmpEdge ≠ s.mp.tclk + 1) (hr : inReset 201 s = false) :
    milestoneCompare s = compareAll (applyCommits (fun n s => !comesDue n s) (compared s)) := by
  unfold milestoneCompare
  rw [if_neg (by simp [hc, hr])]
  rfl

theorem milestoneCompare_again {s : State} (h : s.cmpEdge = s.mp.tclk + 1 ∨ inReset 201 s = true) :
    milestoneCompare s = s := by
  unfold milestoneCompare
  exact if_pos h

/-- A record stored by its commit, its pending state ended. -/
def stored (n : Nat) (w : BitVec 128) (s : State) : State :=
  setRecRun n {} (setRecWord n w { compared s with commits := [] })

theorem milestoneCompare_commit {n e : Nat} {w : BitVec 128} {s : State}
    (h : s.commits = [{ record := n, word := w, edge := e }]) (he : e < s.mp.tclk) (hc : s.cmpEdge ≠ s.mp.tclk + 1)
    (hr : inReset 201 s = false) (hm : mstEnable s = false) : milestoneCompare s = stored n w s := by
  have hdue : comesDue n (compared s) = false := comesDue_disabled (s := compared s) hm
  have hen : mstEnable (stored n w s) = false := hm
  rw [milestoneCompare_first hc hr, applyCommits_one (s := compared s) h he (by rw [hdue]; rfl),
    commitRecord_unready (s := { compared s with commits := [] }) hm]
  exact if_pos (by
    simp [show mstEnable (setRecRun n {} (setRecWord n w { compared s with commits := [] })) = _ from hen])

/-! ### The comparison -/

theorem onlyIn_compareRecord (n : Nat) (s : State) : OnlyIn ⟨[.recRun], 23⟩ s (compareRecord n s) := by
  unfold compareRecord
  dsimp only
  split
  · exact .refl s
  · split
    · exact .of fun _ _ => (OnlyIn.refl s).setRecRun
    · exact .refl s

theorem recRun_compareRecord_other {n m : Nat} (s : State) (h : m ≠ n) :
    recRun m (compareRecord n s) = recRun m s := by
  unfold compareRecord
  dsimp only
  split
  · rfl
  · split
    · exact recRun_setRecRun_other _ _ _ _ h
    · rfl

theorem compareRecord_pending {n : Nat} {s : State} (h : (recRun n s).pending = true) : compareRecord n s = s :=
  if_pos (.inr (.inl h))

/-- An armed record of a road that compares, with its target between the two positions. -/
structure Reaches (n : Nat) (back : Bool) (s : State) : Prop where
  armed : Rec.armed (recWord n s) = true
  idle : (recRun n s).pending = false
  comparing : (road (Rec.road (recWord n s)) s).state.comparing = true
  plain : stepOrdered (recWord n s) s = false
  reached :
    reached (recWord n s) (road (Rec.road (recWord n s)) s).prev (road (Rec.road (recWord n s)) s).pub = some back

theorem compareRecord_reaches {n : Nat} {back : Bool} {s : State} (h : Reaches n back s) :
    compareRecord n s = setRecRun n { pending := true, backward := back, due := s.mp.tclk } s := by
  unfold compareRecord
  dsimp only
  rw [if_neg (by simp [h.armed, h.idle, h.comparing, h.plain]), h.reached]

theorem Reaches.onlyIn {n : Nat} {back : Bool} {s t : State} (h : Reaches n back s) (ho : OnlyIn ⟨[.recRun], 23⟩ s t)
    (hr : recRun n t = recRun n s) : Reaches n back t := by
  have hw : recWord n t = recWord n s := by rw [recWord, recWord, ho.keeps .recs]
  have hroad := fun m => road_congr (ho.keeps .roads) m
  have hstep : stepOrdered (recWord n s) t = stepOrdered (recWord n s) s := by
    rw [stepOrdered, stepOrdered, stepMode, stepMode, rg_congr (ho.keeps .regs)]
  exact ⟨by rw [hw, h.armed], by rw [hr, h.idle], by rw [hw, hroad, h.comparing], by rw [hw, hstep, h.plain],
    by rw [hw, hroad, h.reached]⟩

theorem onlyIn_compareEach (l : List Nat) (s : State) : OnlyIn ⟨[.recRun], 23⟩ s (forEach l compareRecord s) :=
  (OnlyIn.refl s).forEach fun n t h => h.trans (onlyIn_compareRecord n t)

/-- A record stays as it is over a walk that finds it pending. -/
theorem recRun_compareEach_pending (l : List Nat) {n : Nat} {s : State} (h : (recRun n s).pending = true) :
    recRun n (forEach l compareRecord s) = recRun n s :=
  forEach_keeps (fun t => recRun n t = recRun n s) l compareRecord s (fun m _ t ht => by
    by_cases hm : n = m
    · subst hm
      rw [compareRecord_pending (by rw [ht]; exact h), ht]
    · rw [recRun_compareRecord_other t hm, ht]) rfl

theorem recRun_compareEach {l : List Nat} {n : Nat} {back : Bool} {s : State} (hn : n ∈ l) (h : Reaches n back s) :
    recRun n (forEach l compareRecord s) = { pending := true, backward := back, due := s.mp.tclk } := by
  induction l generalizing s with
  | nil => cases hn
  | cons m l ih =>
    rw [forEach_cons]
    by_cases hm : n = m
    · subst hm
      rw [compareRecord_reaches h, recRun_compareEach_pending _ (by rw [recRun_setRecRun]), recRun_setRecRun]
    · have ho := onlyIn_compareRecord m s
      rw [ih ((List.mem_cons.mp hn).resolve_left hm) (h.onlyIn ho (recRun_compareRecord_other s hm)),
        show (compareRecord m s).mp = s.mp from ho.keeps .mp]

theorem mem_skeys_of_sget {α : Type} {d : α} {k : Nat} {l : Sparse α} (h : sget d k l ≠ d) : k ∈ skeys l := by
  induction l with
  | nil => exact absurd rfl h
  | cons p l ih =>
    obtain ⟨k', v⟩ := p
    by_cases hk : k' = k
    · exact hk ▸ .head _
    · rw [sget, if_neg hk] at h
      exact .tail _ (ih h)

theorem mem_recs_of_armed {n : Nat} {s : State} (h : Rec.armed (recWord n s) = true) : n ∈ skeys s.recs :=
  mem_skeys_of_sget (d := 0) fun h0 => by
    rw [show recWord n s = 0 from h0] at h
    exact absurd h (by decide)

theorem milestoneCompare_enabled {s : State} (hc : s.cmpEdge ≠ s.mp.tclk + 1)
    (hr : inReset 201 s = false) (hm : mstEnable s = true) (h0 : s.commits = []) (he : s.enableReturn = none) :
    milestoneCompare s = forEach (skeys s.recs) compareRecord (compared s) := by
  rw [milestoneCompare_first hc hr, applyCommits_nil (s := compared s) h0, compareAll,
    if_neg (by simp [show mstEnable (compared s) = true from hm]), show (compared s).enableReturn = none from he]
  rfl

/-! ### Firing -/

/-- What a firing notes of its record: its pending state ended, the counts, the time and the status. -/
def firedNoted (n : Nat) (t : Word) (late : Bool) (x : Nat) (s : State) : State :=
  setRgF MST_MS_STATUS n 3 3 (b2n late) (setRgF MST_MS_STATUS n 15 8 x (bump MST_MS_STATUS n 31 16
    (setRg MST_MS_LAST n t (onlyIf late (bump MST_CNT_LATE 0 31 0) (bump MST_CNT_FIRED 0 31 0 (setRecRun n {} s))))))

/-- The event lines that a firing pulses. -/
def recordPulses (n : Nat) (t : Word) (s : State) : State :=
  forEach ((sourcedLines s.regs).filter fun p => lineMatches p.2 (.record n)) (fun p => pulseLineAt p.1 t) s

theorem onlyIn_recordPulses (n : Nat) (t : Word) (s : State) : OnlyIn ⟨[.regs, .pulses], 3⟩ s (recordPulses n t s) :=
  .of fun _ _ => (OnlyIn.refl s).forEach fun _ _ h => h.pulseLineAt

theorem onlyIn_firedNoted (n : Nat) (t : Word) (late : Bool) (x : Nat) (s : State) :
    OnlyIn ⟨[.regs, .recRun], 3⟩ s (firedNoted n t late x s) :=
  .of fun _ _ => ((OnlyIn.refl s).setRecRun.bump.onlyIf fun _ h => h.bump).setRg.bump.setRgF.setRgF

theorem pulseRecord_plain (n : Nat) (t : Word) (s : State) : pulseRecord n t false s = recordPulses n t s := by
  unfold pulseRecord recordPulses
  simp only [Bool.false_eq_true, false_and, if_false]

theorem fireRecord_plain {n edge : Nat} {t : Word} {pub : Option (BitVec 48)} {ans : MemAnswer} {s : State}
    (ha : Rec.action (recWord n s) = 0) (h1 : Rec.oneShot (recWord n s) = true) : ∃ late x,
    fireRecord n edge t pub false ans s =
      setRecWord n (Rec.setArmed (recWord n s) false) (recordPulses n t (firedNoted n t late x s)) := by
  refine ⟨(recRun n s).forced || (recRun n s).strandedFire || decide (edge ≠ (recRun n s).due),
    if (recRun n s).forced || (recRun n s).strandedFire || decide (edge ≠ (recRun n s).due) then
      min 255 (edge - (recRun n s).due) else 0, ?_⟩
  unfold fireRecord
  extract_lets w r late f u1 u2 u3 u4 u5 u6 u7 u8
  have h7 : u7 = recordPulses n t (firedNoted n t late (if late then min 255 (edge - r.due) else 0) s) :=
    pulseRecord_plain n t u6
  have h8 : u8 = u7 := by
    change doAction w f ans u7 = u7
    unfold doAction
    rw [show w.action = 0 from ha]
    rfl
  have hw : recWord n u7 = recWord n s := by
    have ho := (onlyIn_recordPulses n t (firedNoted n t late (if late then min 255 (edge - r.due) else 0) s))
    have hn := onlyIn_firedNoted n t late (if late then min 255 (edge - r.due) else 0) s
    rw [h7, recWord, recWord, ho.keeps .recs, hn.keeps .recs]
  unfold rearm
  dsimp only
  rw [h8, hw, if_pos h1, h7]

theorem rkey_lt_of_lt {r r' i i' : Nat} (h : r < r') (hi : i < 2 ^ 24) : rkey r i < rkey r' i' := by
  unfold rkey
  omega

/-- The event lines' counters stand above the registers of the records. -/
theorem rg_recordPulses {n r i : Nat} {t : Word} {s : State} (h : rkey r i < rkey MST_EVT_CNT 0) :
    rg r i (recordPulses n t s) = rg r i s := by
  have hne : ∀ l, rkey r i ≠ rkey MST_EVT_CNT l :=
    fun l => ne_of_lt (h.trans_le (Nat.add_le_add_left (Nat.zero_le l) _))
  refine forEach_keeps (fun u => rg r i u = rg r i s) _ _ s (fun p _ u hu => ?_) rfl
  unfold pulseLineAt
  split
  · exact hu
  · split
    · rw [rg_bump_other (hne _), hu]
    · rw [rg_bump_other (hne _)]
      exact hu

theorem last_firedNoted {n x : Nat} {t : Word} {late : Bool} {s : State} (hn : n < 16384) :
    rg MST_MS_LAST n (firedNoted n t late x s) = t := by
  have hne : rkey MST_MS_LAST n ≠ rkey MST_MS_STATUS n := rkey_ne_of_lt (by decide) (by omega) (by omega)
  rw [firedNoted, rg_setRgF_other hne, rg_setRgF_other hne, rg_bump_other hne, rg_setRg_same]

theorem count_firedNoted {n x : Nat} {t : Word} {late : Bool} {s : State} (hn : n < 16384) :
    rgF MST_CNT_FIRED 0 31 0 (firedNoted n t late x s) = (rgF MST_CNT_FIRED 0 31 0 s + 1) % 2 ^ 32 := by
  have hst : rkey MST_CNT_FIRED 0 ≠ rkey MST_MS_STATUS n := rkey_ne_of_lt (by decide) (by omega) (by omega)
  have hla : rkey MST_CNT_FIRED 0 ≠ rkey MST_MS_LAST n := rkey_ne_of_lt (by decide) (by omega) (by omega)
  rw [firedNoted, rgF, rg_setRgF_other hst, rg_setRgF_other hst, rg_bump_other hst, rg_setRg_other _ _ _ _ _ _ hla]
  have hl : rg MST_CNT_FIRED 0 (onlyIf late (bump MST_CNT_LATE 0 31 0) (bump MST_CNT_FIRED 0 31 0 (setRecRun n {} s))) =
      rg MST_CNT_FIRED 0 (bump MST_CNT_FIRED 0 31 0 (setRecRun n {} s)) :=
    onlyIf_keeps (v := rg MST_CNT_FIRED 0) (rg_bump_other (by decide))
  rw [hl]
  exact rgF_bump_same _ _ _ _ _ (by omega) (by omega)

theorem recRun_firedNoted {n x : Nat} {t : Word} {late : Bool} {s : State} :
    (firedNoted n t late x s).recRun = (setRecRun n {} s).recRun := by
  have h : OnlyIn ⟨[.regs], 3⟩ (setRecRun n {} s) (firedNoted n t late x s) :=
    .of fun _ _ => ((OnlyIn.refl _).bump.onlyIf fun _ h => h.bump).setRg.bump.setRgF.setRgF
  exact h.keeps .recRun

/-- A state in which a road has been served on this edge. -/
def served (r : Nat) (s : State) : State :=
  { s with firedRoads := firedNow s ++ [r], fireEdge := s.mp.tclk + 1, lastServed := r }

theorem milestoneFire_plain {ans : MemAnswer} {r n : Nat} {s : State} (h : nextFiring s = some (r, n))
    (h0 : s.commits = []) (ha : Rec.action (recWord n s) = 0) (h1 : Rec.oneShot (recWord n s) = true) : ∃ late x,
    milestoneFire ans s = setRecWord n (Rec.setArmed (recWord n s) false)
      (recordPulses n (now s) (firedNoted n (now s) late x (served r s))) := by
  obtain ⟨late, x, hf⟩ := fireRecord_plain (n := n) (edge := s.mp.tclk) (t := now s)
    (pub := if roadCompares r (served r s) then some (road r (served r s)).pub else none) (ans := ans)
    (s := served r s) ha h1
  refine ⟨late, x, ?_⟩
  have hn := onlyIn_firedNoted n (now s) late x (served r s)
  have hp := onlyIn_recordPulses n (now s) (firedNoted n (now s) late x (served r s))
  rw [milestoneFire, h]
  exact (congrArg (applyCommits fun i _ => i = n) hf).trans
    (applyCommits_nil ((hp.keeps .commits).trans ((hn.keeps .commits).trans h0)))

theorem offerCommit_asked (b : Bool) (n : Nat) (w : Rec) (s : State) : onlyIf b (offerCommit n w) s =
    if b = false then s
    else if w.bad = true then setCause MST_CAUSE 0 0 (bump MST_CNT_REFUSED 0 15 0 s)
    else { s with commits := s.commits ++ [{ record := n, word := w, edge := s.mp.tclk }] } := by
  cases b
  · exact (if_pos rfl).symm
  · exact (if_neg (by decide)).symm

/-- The enable of milestone records as a write leaves it. -/
def enableWritten (b : Bool) (s : State) : State :=
  let u := setRgF MST_CTRL 0 0 0 (b2n b) s
  if b ∧ ¬ mstEnable s then { u with enableReturn := some s.mp.tclk }
  else if b then u else { u with enableReturn := none }

theorem mstEnable_setRgF (b : Bool) (s : State) : mstEnable (setRgF MST_CTRL 0 0 0 (b2n b) s) = b := by
  rw [mstEnable, setRgF, rg_setRg_same, bit, setFld_getLsbD _ _ _ _ _ (by omega)]
  cases b <;> rfl

theorem enableWritten_claim (b : Bool) (s : State) : mstEnable (enableWritten b s) = b ∧
    (enableWritten b s).enableReturn =
      (if b = false then none else if mstEnable s = false then some s.mp.tclk else s.enableReturn) ∧
    OnlyIn ⟨[.regs, .enableReturn], 3⟩ s (enableWritten b s) := by
  have he := mstEnable_setRgF b s
  unfold enableWritten
  refine ⟨?_, ?_, .of fun _ _ => (OnlyIn.refl s).setRgF.with_enableReturn.ite
    ((OnlyIn.refl s).setRgF.ite (OnlyIn.refl s).setRgF.with_enableReturn)⟩
  · dsimp only
    split
    · exact he
    · split
      · exact he
      · exact he
  · cases b <;> cases mstEnable s <;> rfl

/-- Settles O11. -/
theorem milestonesAreCommittedComparedAndFired : Obligations.MilestonesAreCommittedComparedAndFired := by
  refine ⟨⟨fun p v n s hw hwr => ?_, fun n e w s h he hc hr hm => ?_, fun p v s hw => ?_⟩,
    ⟨fun n back s hc hr hm h0 he ha hi hroad hst hre => ?_,
      fun s h => congrArg Host.Outcome.next (milestoneCompare_again h)⟩,
    fun ans r n s h hn h0 ha h1 => ?_, fun ans s h => ?_⟩
  · exact congrArg Host.Outcome.next ((atInst_taken _ _ _ _ _ hw hwr).trans (offerCommit_asked _ _ _ _))
  · exact ⟨stored n w s, congrArg Host.Outcome.next (milestoneCompare_commit h he hc hr hm), recWord_setRecWord _ _ _,
      recRun_setRecRun _ _ _, rfl, fun m hm => ⟨recWord_setRecWord_other _ _ _ _ hm, recRun_setRecRun_other _ _ _ _ hm⟩,
      rfl, rfl, rfl, rfl⟩
  · obtain ⟨hen, hret, ho⟩ := enableWritten_claim (bit v 0) s
    exact ⟨enableWritten (bit v 0) s, congrArg Host.Outcome.next (atGlobal_taken _ _ _ _ hw), hen, hret, ho.keeps .recs,
      ho.keeps .recRun, ho.keeps .roads, ho.keeps .lanes, ho.keeps .mem⟩
  · have heq := milestoneCompare_enabled hc hr hm h0 he
    have ho := onlyIn_compareEach (skeys s.recs) (compared s)
    have hrun := recRun_compareEach (n := n) (back := back) (s := compared s) (mem_recs_of_armed ha)
      ⟨ha, hi, hroad, hst, hre⟩
    exact ⟨_, congrArg Host.Outcome.next heq, by rw [hrun], by rw [hrun], by rw [hrun]; rfl, ho.keeps .recs,
      ho.keeps .regs, ho.keeps .mem, ho.keeps .roads⟩
  · obtain ⟨late, x, heq⟩ := milestoneFire_plain (ans := ans) h h0 ha h1
    have hf := onlyIn_firedNoted n (now s) late x (served r s)
    have hp := onlyIn_recordPulses n (now s) (firedNoted n (now s) late x (served r s))
    have hrun := (hp.keeps .recRun).trans (recRun_firedNoted (n := n) (x := x) (t := now s) (late := late))
    have hkeep := fun m => show recRun m (setRecWord n (Rec.setArmed (recWord n s) false) (recordPulses n (now s)
      (firedNoted n (now s) late x (served r s)))) = recRun m (setRecRun n {} (served r s)) by
        rw [recRun, setRecWord_recRun, hrun, recRun]
    refine ⟨_, congrArg Host.Outcome.next heq, recWord_setRecWord _ _ _, ?_, ?_, ?_, ?_, fun m hm => ⟨?_, ?_⟩,
      (hp.keeps .lanes).trans (hf.keeps .lanes), (hp.keeps .roads).trans (hf.keeps .roads),
      (hp.keeps .mem).trans (hf.keeps .mem), (hp.keeps .queues).trans (hf.keeps .queues)⟩
    · rw [hkeep, recRun_setRecRun]
    · exact (rg_recordPulses (rkey_lt_of_lt (by decide) (by omega))).trans (last_firedNoted hn)
    · exact (congrArg (fld · 31 0) (rg_recordPulses (by decide))).trans (count_firedNoted hn)
    · exact (hp.keeps .lastServed).trans (hf.keeps .lastServed)
    · rw [recWord_setRecWord_other _ _ _ _ hm, recWord, hp.keeps .recs, hf.keeps .recs]
      rfl
    · rw [hkeep, recRun_setRecRun_other _ _ _ _ hm]
      rfl
  · refine congrArg Host.Outcome.next ?_
    rw [milestoneFire, h]

end Sys2Proof.Machine
end

section
/-! PROOF. O12: the slot of a placement, its drain markers, and the pulses of event lines. -/

set_option Elab.async false

namespace Sys2Proof.Machine

open Sys2Proof

/-! ### Drain markers -/

/-- A lane with a drain marker of a slot behind its jobs. -/
def withMarker (slot : Nat) (s : State) (x : LaneState) : LaneState :=
  { x with queue := x.queue ++ [.marker (BitVec.ofNat 9 slot) (slotRun slot s).oldGen (slotRun slot s).oldSeq] }

/-- A slot one of whose markers has left for the queue of lane `l`. -/
def withoutMarker (l : Nat) (r : SlotRun) : SlotRun :=
  { r with markerLanes := r.markerLanes.filter fun x => x ≠ l, markersOut := r.markersOut + 1 }

/-- A drain marker in the queue of its lane. -/
def markerEnqueued (slot l : Nat) (s : State) : State :=
  setSlotRun slot (withoutMarker l (slotRun slot s)) (setLane l (withMarker slot s (lane l s)) s)

/-- A drain marker of a slot enters the queue of its lane, if a place is free. -/
def enqueueMarker (slot l : Nat) (s : State) : State :=
  if (lane l s).queue.length < 16 then markerEnqueued slot l s else s

theorem enqueueMarker_free {slot l : Nat} {s : State} (h : (lane l s).queue.length < 16) :
    enqueueMarker slot l s = markerEnqueued slot l s :=
  if_pos h

theorem drainMarkerEnqueue_eq (slot : Nat) (s : State) :
    drainMarkerEnqueue slot s = forEach (slotRun slot s).markerLanes (enqueueMarker slot) s := rfl

theorem enqueueMarker_full {slot l : Nat} {s : State} (h : 16 ≤ (lane l s).queue.length) : enqueueMarker slot l s = s :=
  if_neg (Nat.not_lt.mpr h)

/-! ### Event lines -/

theorem epochAt_now (s : State) : epochAt (now s) s = journalEpoch s := by
  have h : diff32 (now s) (now s) = 0 := by
    rw [diff32, sub_self]
    rfl
  have hlt := (now s).isLt
  rw [epochAt, h, Int.add_zero, if_neg (by omega), if_neg (by omega)]
  simp

theorem pulseLine_running {l : Nat} {s : State} (hr : inReset 201 s = false) : pulseLine l s =
    if s.pulses.any (fun q => q.line = l && q.edge = s.mp.tclk) then bump MST_EVT_CNT l 15 8 s
    else bump MST_EVT_CNT l 31 16
      { s with pulses := s.pulses ++ [{ line := l, edge := s.mp.tclk, ns := now s, epoch := journalEpoch s }] } := by
  unfold pulseLine pulseLineAt
  rw [if_neg (by simp [hr]), epochAt_now]

theorem line_takePulse {l : Nat} {ps : List Pulse} {q : Pulse} {rest : List Pulse}
    (h : takePulse l ps = some (q, rest)) : q.line = l := by
  induction ps generalizing rest with
  | nil => cases h
  | cons p ps ih =>
    rw [takePulse] at h
    split at h
    · next hp =>
      cases h
      exact hp
    · obtain ⟨⟨q', r'⟩, hq, he⟩ := Option.map_eq_some_iff.mp h
      cases he
      exact ih hq

theorem deliverPulse_nowhere {p : Pulse} {s : State} (h : rgF MST_EVT_DST p.line 26 24 s = 0) :
    deliverPulse p s = s := by
  unfold deliverPulse
  dsimp only
  rw [show fld (rg MST_EVT_DST p.line s) 26 24 = 0 from h]
  rfl

theorem put_getLsbD_below (w : Rec) {hi lo v i : Nat} (h : i < lo) (hi' : i < 128) :
    (Rec.put w hi lo v).getLsbD i = w.getLsbD i := by
  have hm : (BitVec.ofNat 128 ((2 ^ (hi - lo + 1) - 1) * 2 ^ lo)).getLsbD i = false := by
    rw [BitVec.getLsbD_ofNat, Nat.testBit_mul_two_pow]
    simp [Nat.not_le.mpr h]
  simp only [Rec.put, BitVec.getLsbD_or, BitVec.getLsbD_and, BitVec.getLsbD_not, hm, hi']
  simp

theorem road_setArmed (w : Rec) (b : Bool) : Rec.road (Rec.setArmed w b) = Rec.road w := by
  refine Nat.eq_of_testBit_eq fun k => ?_
  simp only [Rec.road, fld, Nat.testBit_mod_two_pow, Nat.testBit_div_two_pow, BitVec.testBit_toNat]
  by_cases hk : k < 53 - 48 + 1
  · rw [Rec.setArmed, put_getLsbD_below w (by omega) (by omega)]
  · simp [hk]

theorem armByLine_apart {l n : Nat} {s : State} (ha : Rec.armed (recWord n s) = false)
    (hb : Rec.bad (recWord n s) = false) (hc : roadCompares (Rec.road (recWord n s)) s = false) :
    armByLine l n s = setRecWord n (Rec.setArmed (recWord n s) true) s := by
  have harm : roadCompares (Rec.road (recWord n (setRecWord n (Rec.setArmed (recWord n s) true) s)))
      (setRecWord n (Rec.setArmed (recWord n s) true) s) = false := by
    rw [recWord_setRecWord, road_setArmed]
    exact hc
  unfold armByLine
  dsimp only
  rw [if_neg (by simp [ha]), if_neg (by simp [hb]), armTest, if_neg (ne_true_of_eq_false harm)]

theorem deliverPulse_record {p : Pulse} {s : State} (h : rgF MST_EVT_DST p.line 26 24 s = 2) :
    deliverPulse p s = armByLine p.line (rgF MST_EVT_DST p.line 13 0 s) s := by
  unfold deliverPulse
  dsimp only
  rw [show fld (rg MST_EVT_DST p.line s) 26 24 = 2 from h]
  rfl

/-- Settles O12. -/
theorem placementSlotsAndEventLinesAct : Obligations.PlacementSlotsAndEventLinesAct := by
  refine ⟨⟨fun p v n s hw hwr => congrArg Host.Outcome.next (atInst_taken _ _ _ _ _ hw hwr), fun slot l s h hl => ?_,
    fun slot s h => ?_⟩, fun p v s hr => ?_, fun l s h => ?_, fun l q rest s h => ⟨fun he => ?_, fun he hd => ?_,
    fun he hd ha hb hc => ?_⟩⟩
  · have heq : drainMarkerEnqueue slot s = markerEnqueued slot l s := by
      rw [drainMarkerEnqueue_eq, h, forEach_cons, forEach_nil, enqueueMarker_free hl]
    have hlane : (markerEnqueued slot l s).lanes = (setLane l (withMarker slot s (lane l s)) s).lanes := rfl
    refine ⟨_, congrArg Host.Outcome.next heq, ?_, ?_, ?_, rfl, rfl, rfl, fun m hm => ?_, fun k hk => ?_⟩
    · rw [lane, hlane]
      exact congrArg LaneState.queue (lane_setLane l _ s)
    · rw [markerEnqueued, slotRun_setSlotRun, withoutMarker, h]
      simp
    · rw [markerEnqueued, slotRun_setSlotRun]
      rfl
    · rw [lane, hlane]
      exact lane_setLane_other _ _ _ _ fun e => hm (Fin.ext e)
    · rw [markerEnqueued, slotRun_setSlotRun_other _ _ _ _ (by omega)]
      rfl
  · refine congrArg Host.Outcome.next (forEach_keeps (· = s) _ (enqueueMarker slot) s (fun l hl t ht => ?_) rfl)
    rw [ht, enqueueMarker_full (h l hl)]
  · have hw : writable p MST_SW_PULSE 0 s = true := by
      have : ownerOf MST_SW_PULSE 0 = 201 := rfl
      simp [writable, this, hr]
    exact congrArg Host.Outcome.next ((atGlobal_taken _ _ _ _ hw).trans (pulseLine_running hr))
  · refine congrArg Host.Outcome.next ?_
    rw [eventLineDeliver, h]
  · refine congrArg Host.Outcome.next ?_
    rw [eventLineDeliver, h]
    exact if_neg (by omega)
  · refine congrArg Host.Outcome.next ?_
    have hq := line_takePulse h
    rw [eventLineDeliver, h]
    dsimp only
    rw [if_pos he, deliverPulse_nowhere (by rw [hq]; exact hd)]
  · refine congrArg Host.Outcome.next ?_
    have hq := line_takePulse h
    rw [eventLineDeliver, h]
    dsimp only
    rw [if_pos he, deliverPulse_record (by rw [hq]; exact hd), hq]
    exact armByLine_apart ha hb hc

end Sys2Proof.Machine
end

section
/-! PROOF. O13 fails: an observation in the queue may name a road that no unit has, and its count of drops then stands
at the key of another register. -/

set_option Elab.async false

namespace Sys2Proof.Machine

open Sys2Proof

/-- The road number whose count of drops stands at the key of the last sample of channel 7. -/
def strayRoad : Nat := (MFE_CH_LAST - ROA_CNT_DROP) * 2 ^ 24 + 7

theorem rkey_strayRoad : rkey ROA_CNT_DROP strayRoad = rkey MFE_CH_LAST 7 := by decide

/-- An observation of that road. -/
def strayObservation : Observation :=
  { road := strayRoad, srcKind := 0, time := 0, lap := 0, frac := 0, fracOnly := false, reacquire := false,
    hintValid := false, hint := 0 }

/-- The mains run with tracker 0 about to cross zero downwards; road 1 follows it, and the ingest queue is full of
observations of a road that is none. -/
def strayMains : State :=
  { setRg MFE_CTRL 0 1 (setRg MFE_CH_CFG 0 1 (setRg MFE_TRK_CFG 0 5 (setRg ROA_SRC 1 2 (setRg MEM_STAT 2 2
      State.reset)))) with
    trackers := [(0, { state := .running, refT := some 0, havePrev := true, armedUp := true })],
    ingest := List.replicate 256 strayObservation, arriveEdge := 1, arriveCount := 1 }

theorem strayMains_sample : rg MFE_CH_LAST 7 (mainsSampleSet 0 [0xFFFFFF, 0, 0, 0, 0, 0, 0, 0] 0 strayMains) = 1 := by
  decide +kernel

/-- Refutes O13: with the queue full of observations of road `strayRoad`, the observation that a mains crossing sends
drops one of them, and the count of that drop is added to the last sample of channel 7, whose calibrated value is 0. -/
theorem not_mainsSamplesAreStoredAndTracked : ¬ Obligations.MainsSamplesAreStoredAndTracked := by
  rintro ⟨⟨hset, -⟩, -⟩
  obtain ⟨t, ht, -, hlast, -⟩ := hset 0 [0xFFFFFF, 0, 0, 0, 0, 0, 0, 0] 0 strayMains (by decide +kernel)
    (by decide +kernel) rfl (by decide +kernel)
  obtain rfl : mainsSampleSet 0 [0xFFFFFF, 0, 0, 0, 0, 0, 0, 0] 0 strayMains = t := Host.Outcome.next.inj ht
  have h := strayMains_sample.symm.trans (hlast 7)
  exact absurd h (by decide +kernel)

end Sys2Proof.Machine
end

section
/-! PROOF. O14: quadrature inputs, indices, SSI frames and the registers of shaft channels. -/

set_option Elab.async false

namespace Sys2Proof.Machine

open Sys2Proof

/-! ### A channel with no observation due -/

theorem issueDue_none {c : Nat} {s : State} (h : (shaft c s).due = none) : issueDue c s = s := by
  unfold issueDue
  extract_lets x
  rw [show x.due = none from h]

theorem issueEarlier_none {c : Nat} {time : Word} {s : State} (h : (shaft c s).due = none) :
    issueEarlier c time s = s := by
  unfold issueEarlier
  rw [h]
  rfl

/-! ### Quadrature inputs -/

theorem quadratureChange_apart {c : Nat} {a b : Bool} {time : Word} {s : State} (hd : (shaft c s).due = none)
    (h : inReset 203 s = true ∨ shfMode c s ≠ 1) :
    quadratureChange c a b time s = setShaft c { shaft c s with a := a, b := b } s := by
  unfold quadratureChange
  rw [issueEarlier_none hd]
  exact if_pos (h.imp_right .inl)

theorem quadratureChange_both {c : Nat} {a b : Bool} {time : Word} {s : State} (hd : (shaft c s).due = none)
    (hr : inReset 203 s = false) (hm : shfMode c s = 1) (ha : (shaft c s).a ≠ a) (hb : (shaft c s).b ≠ b) :
    quadratureChange c a b time s =
      setCause SHF_CAUSE c 0 (bump SHF_CNT c 31 16 (setShaft c { shaft c s with a := a, b := b } s)) := by
  unfold quadratureChange
  rw [issueEarlier_none hd]
  exact (if_neg (by simp [hr, hm, ha])).trans (if_pos ⟨ha, hb⟩)

/-- The direction of a change of one input, reversed where the channel's configuration says so (R100). -/
def quadDirection (c : Nat) (a : Bool) (s : State) : Int :=
  if bit (rg SHF_CFG c s) 2 then -quadStep (shaft c s).a (shaft c s).b a else quadStep (shaft c s).a (shaft c s).b a

/-- Whether a change is to be observed: none was sent, or the interval has passed since the last one (R102). -/
def quadDue (c : Nat) (t : Word) (s : State) : Bool :=
  match (shaft c s).lastObs with
  | some p => decide (rgF SHF_OBS c 15 0 s * 1000 = 0 ∨ 2 ^ 31 ≤ elapsedNs s - (shaft c s).lastObsAt ∨
      ((rgF SHF_OBS c 15 0 s * 1000 : Nat) : Int) ≤ diff32 t p)
  | none => true

theorem quadDue_iff (c : Nat) (t : Word) (s : State) :
    quadDue c t s = true ↔ ∀ p : Word, (shaft c s).lastObs = some p →
      rgF SHF_OBS c 15 0 s = 0 ∨ 2 ^ 31 ≤ elapsedNs s - (shaft c s).lastObsAt ∨
        ((rgF SHF_OBS c 15 0 s * 1000 : Nat) : Int) ≤ diff32 t p := by
  unfold quadDue
  cases hl : (shaft c s).lastObs with
  | none => simp
  | some p => simp

/-- Moving the count changes the position only. -/
theorem moveCount_with (h : Shaft) (a b : Bool) (lastChange : Option Word) (since : Word) (at' : Nat) (cpr : Nat)
    (d : Int) :
    moveCount { h with a := a, b := b, lastChange := lastChange, since := since, sinceAt := at', idleAfter := false }
        cpr d =
      { h with
        a := a, b := b, lastChange := lastChange, since := since, sinceAt := at', idleAfter := false,
        count := (moveCount h cpr d).count, lap := (moveCount h cpr d).lap, frac := (moveCount h cpr d).frac } := by
  unfold moveCount
  by_cases hd : 0 < d
  · by_cases hc : h.count + 1 < cpr <;> simp [hd, hc]
  · by_cases hc : 0 < h.count <;> simp [hd, hc]

theorem quadratureChange_one {c : Nat} {a b : Bool} {time : Word} {s : State} (hd : (shaft c s).due = none)
    (hr : inReset 203 s = false) (hm : shfMode c s = 1) (hcpr : cprBad (shfCpr c s) = false)
    (h : ((shaft c s).a ≠ a ∧ (shaft c s).b = b) ∨ ((shaft c s).a = a ∧ (shaft c s).b ≠ b)) :
    ∃ h : Shaft, quadratureChange c a b time s = setShaft c h s ∧ h.a = a ∧ h.b = b ∧
      h.count = (moveCount (shaft c s) (shfCpr c s) (quadDirection c a s)).count ∧
      h.lap = (moveCount (shaft c s) (shfCpr c s) (quadDirection c a s)).lap ∧
      h.frac = (moveCount (shaft c s) (shfCpr c s) (quadDirection c a s)).frac ∧
      h.referenced = (shaft c s).referenced ∧
      h.due.isSome = quadDue c (time - w32 ((rgF SHF_CFG c 13 8 s + 1) * 5)) s := by
  have hsame : ¬ (inReset 203 s = true ∨ shfMode c s ≠ 1 ∨ ((shaft c s).a = a ∧ (shaft c s).b = b)) := by
    rintro (hx | hx | ⟨hx, hy⟩)
    · simp [hr] at hx
    · exact hx hm
    · exact h.elim (fun h => h.1 hx) fun h => h.2 hy
  have hboth : ¬ ((shaft c s).a ≠ a ∧ (shaft c s).b ≠ b) := fun hx =>
    h.elim (fun h => hx.2 h.2) fun h => hx.1 h.1
  unfold quadratureChange
  rw [issueEarlier_none hd]
  extract_lets x y t d0 d hint m least due
  have hdue : due = quadDue c t s := by
    simp only [due, m, moveCount_with]
    rfl
  have hm0 : m.due = none := by simp only [m, moveCount_with, y, x, hd]
  refine ⟨_, (if_neg hsame).trans ((if_neg hboth).trans (if_neg (ne_true_of_eq_false hcpr))), ?_⟩
  rw [← hdue, hm0]
  simp only [m, moveCount_with]
  exact ⟨trivial, trivial, rfl, rfl, rfl, rfl, by cases due <;> rfl⟩

/-! ### Indices and idle observations -/

theorem shaftIndex_taken {c : Nat} {time : Word} {s : State} (hd : (shaft c s).due = none)
    (hr : inReset 203 s = false) (hm : shfMode c s = 1) (hmode : rgF SHF_CFG c 5 4 s ≠ 0)
    (hgate : bit (rg SHF_CFG c s) 6 = true → (shaft c s).a = true ∧ (shaft c s).b = true) (hc : c < 2 ^ 24) :
    shaftIndex c time s =
      if (shaft c s).referenced = false then
        setShaft c { shaft c s with count := 0, lap := 0, frac := 0, referenced := true } s
      else if (shaft c s).count = 0 then s
      else if rgF SHF_CFG c 5 4 s = 2 then
        setShaft c { shaft c s with
          lap := if shfCpr c s ≤ 2 * (shaft c s).count then (shaft c s).lap + 1 else (shaft c s).lap,
          count := 0, frac := 0 } (setCause SHF_CAUSE c 1 (bump SHF_CNT c 15 0 s))
      else setCause SHF_CAUSE c 1 (bump SHF_CNT c 15 0 s) := by
  have hcpr : shfCpr c (setCause SHF_CAUSE c 1 (bump SHF_CNT c 15 0 s)) = shfCpr c s := by
    rw [shfCpr, shfCpr, rgF, rgF,
      rg_setCause_other (rkey_ne_of_lt (by decide) hc hc) (rkey_lt_collector (by decide) hc),
      rg_bump_other (rkey_ne_of_lt (by decide) hc hc)]
  unfold shaftIndex
  rw [issueEarlier_none hd]
  extract_lets x h mode u
  have hcpr' : shfCpr c u = shfCpr c s := hcpr
  have htaken : ¬ (inReset 203 s = true ∨ shfMode c s ≠ 1 ∨ rgF SHF_CFG c 5 4 s = 0 ∨
      (bit (rg SHF_CFG c s) 6 = true ∧ ¬ ((shaft c s).a = true ∧ (shaft c s).b = true))) := by
    simp only [hr, hm, hmode, Bool.false_eq_true, ne_eq, not_true_eq_false, false_or]
    exact fun ⟨h6, hx⟩ => hx (hgate h6)
  refine (if_neg htaken).trans ?_
  rw [hcpr']
  cases (shaft c s).referenced <;> rfl

theorem shaftIndex_ignored {c : Nat} {time : Word} {s : State} (hd : (shaft c s).due = none)
    (h : rgF SHF_CFG c 5 4 s = 0 ∨
      (bit (rg SHF_CFG c s) 6 = true ∧ ((shaft c s).a = false ∨ (shaft c s).b = false))) :
    shaftIndex c time s = s := by
  unfold shaftIndex
  rw [issueEarlier_none hd]
  refine if_pos (.inr (.inr (h.imp_right fun ⟨hx, hy⟩ => ⟨hx, ?_⟩)))
  rintro ⟨ha, hb⟩
  rcases hy with hy | hy
  · simp [hy] at ha
  · simp [hy] at hb

theorem shaftIdleObs_referenced {c : Nat} {s : State} (hd : (shaft c s).due = none) (hr : inReset 203 s = false)
    (hm : shfMode c s = 1) (href : shfReferenced c s = true) (hidle : rgF SHF_OBS c 31 16 s ≠ 0)
    (hcpr : cprBad (shfCpr c s) = false) :
    shaftIdleObs c s =
      if ageOf (shaft c s).since (shaft c s).sinceAt s < rgF SHF_OBS c 31 16 s * 1000 then s
      else issueShaft c (now s) none (setShaft c
        { shaft c s with
          idleAfter := true, since := now s, sinceAt := elapsedNs s, lastObs := some (now s),
          lastObsAt := elapsedNs s } s) := by
  unfold shaftIdleObs
  rw [issueDue_none hd]
  exact ite_congr (by simp [hr, hm, href, hidle, hcpr]) (fun _ => rfl) fun _ => rfl

/-! ### SSI frames -/

theorem ssiFrameStart_due {c : Nat} {s : State} (hr : inReset 203 s = false) (hm : shfMode c s = 2)
    (hb : (shaft c s).ssiBusy = false)
    (hp : ∀ t : Word, (shaft c s).ssiStart = some t →
      max 20 (min 10000 (rgF SHF_SSI_TIME c 15 0 s)) * 1000 ≤ sub32 (now s) t) :
    ssiFrameStart c s = if ssiBad c s = true then setCause SHF_CAUSE c 4 s
      else setShaft c { shaft c s with ssiBusy := true, ssiDiscard := false, ssiStart := some (now s) } s := by
  unfold ssiFrameStart
  extract_lets h period due
  have hdue : due = true := by
    cases hs : (shaft c s).ssiStart with
    | none => simp only [due, h, hs]
    | some t => simp only [due, h, hs, period, decide_eq_true (hp t hs)]
  exact if_neg (by simp [hr, hm, h, hb, hdue])

theorem ssiFrameDone_discarded {c : Nat} {raw edge : Word} {ok : Bool} {s : State} (hb : (shaft c s).ssiBusy = true)
    (hx : (shaft c s).ssiDiscard = true) :
    ssiFrameDone c raw ok edge s = setShaft c { shaft c s with ssiBusy := false, ssiDiscard := false } s :=
  (if_neg (by simp [hb])).trans (if_pos (.inr hx))

section
variable {c : Nat} {raw edge : Word} {s : State} (hr : inReset 203 s = false) (hb : (shaft c s).ssiBusy = true)
  (hx : (shaft c s).ssiDiscard = false)
include hr hb hx

theorem ssiFrameDone_badLine :
    ssiFrameDone c raw false edge s =
      setCause SHF_CAUSE c 2 (bump SHF_CNT_FRAME c 31 16 (setShaft c { shaft c s with ssiBusy := false } s)) :=
  (if_neg (by simp [hb])).trans ((if_neg (by simp [hr, hx])).trans (if_pos (by simp)))

theorem ssiFrameDone_encoderError (herr : ssiErr c s = 1) (hbit : bit raw 0 = bit (rg SHF_SSI c s) 21) :
    ssiFrameDone c raw true edge s =
      setCause SHF_CAUSE c 3 (bump SHF_CNT_FRAME c 15 0 (setShaft c { shaft c s with ssiBusy := false } s)) :=
  (if_neg (by simp [hb])).trans ((if_neg (by simp [hr, hx])).trans ((if_neg (by simp)).trans (if_pos ⟨herr, hbit⟩)))

/-- The first good frame of a single-turn binary encoder. -/
theorem ssiFrameDone_first (hmt : ssiMt c s = 0) (herr : ssiErr c s = 0) (hgray : bit (rg SHF_SSI c s) 22 = false)
    (hlast : (shaft c s).ssiLast = none) :
    ∃ (t : Word) (hint : Option Word) (h : Shaft),
      ssiFrameDone c raw true edge s =
        issueShaft c t hint (setShaft c h (setShaft c { shaft c s with ssiBusy := false } s)) ∧ h.lap = 0 ∧
      h.frac = w32 (raw.toNat % 2 ^ ssiSt c s * 2 ^ (32 - ssiSt c s)) ∧ h.ssiBusy = false ∧ h.referenced = true := by
  unfold ssiFrameDone
  extract_lets x st mt err u code val turns frac first d lap t pos hint h
  rw [if_neg (by simp [x, hb]), if_neg (by simp [hr, x, hx]), if_neg (by simp),
    if_neg (fun e => by simp [err, herr] at e)]
  have hg : bit (rg SHF_SSI c u) 22 = false := hgray
  have hcode : code = raw.toNat % 2 ^ st := by simp [code, err, mt, hmt, herr]
  have hval : val = raw.toNat % 2 ^ st := by simp [val, hg, hcode]
  refine ⟨t, hint, _, rfl, ?_, ?_, rfl, rfl⟩
  · show lap = 0
    simp [lap, mt, hmt, first, x, hlast]
  · show frac = _
    simp [frac, hval, st]
end

theorem onlyIn_issueShaft (c : Nat) (t : Word) (hint : Option Word) (s : State) :
    OnlyIn ⟨[.regs, .ingest, .arriveEdge, .arriveCount, .jct, .tpk, .flt, .twn], 2⟩ s (issueShaft c t hint s) :=
  .of fun _ _ => (OnlyIn.refl s).issueShaft

theorem shaft_issueShaft (c d : Nat) (t : Word) (hint : Option Word) (s : State) :
    shaft d (issueShaft c t hint s) = shaft d s := by
  rw [shaft, shaft, (onlyIn_issueShaft c t hint s).keeps .shafts]

/-! ### Registers -/

theorem shfCfgWrite_quiet {p : Path} {v : Word} {c : Nat} {s : State} (hw : winOf p SHF_CFG s = some c)
    (hr : writable p SHF_CFG c s = true) (hb : (shaft c s).ssiBusy = false) (hd : (shaft c s).due = none) :
    shfCfgWrite p v s = checkShaft c (
      if shfMode c (setRg SHF_CFG c (v &&& 0x3F77) s) = shfMode c s then setRg SHF_CFG c (v &&& 0x3F77) s
      else clearShaft c (setRg SHF_CFG c (v &&& 0x3F77) s)) := by
  unfold shfCfgWrite
  rw [atInst_taken _ _ c _ _ hw hr]
  dsimp only
  rw [issueDue_none hd]
  generalize hu : setRg SHF_CFG c (v &&& 0x3F77) s = u
  have hbu : (shaft c u).ssiBusy = false := by rw [← hu]; exact hb
  rw [hbu]
  rfl

theorem shfPosLapRead_window {p : Path} {c : Nat} {s : State} (hw : winOf p SHF_POS_LAP s = some c) :
    shfPosLapRead p s = setRg SHF_POS_FRAC p (shaft c s).frac s := by
  simp only [shfPosLapRead, hw]

/-- Settles O14: each clause is the branch of its operation that the hypotheses leave. -/
theorem shaftChannelsFollowTheirInputs : Obligations.ShaftChannelsFollowTheirInputs := by
  refine ⟨fun c a b time s hd => ⟨fun h => congrArg Host.Outcome.next (quadratureChange_apart hd h),
    fun hr hm ha hb => congrArg Host.Outcome.next (quadratureChange_both hd hr hm ha hb), fun hr hm hcpr h => ?_⟩,
    fun c time s hr hm hd => ⟨fun hmode hgate => congrArg Host.Outcome.next
        (shaftIndex_taken hd hr hm hmode hgate (by omega)),
      fun h => congrArg Host.Outcome.next (shaftIndex_ignored hd h),
      fun href hidle hcpr => congrArg Host.Outcome.next (shaftIdleObs_referenced hd hr hm href hidle hcpr)⟩,
    fun c s hr => ⟨fun hm hb hp => congrArg Host.Outcome.next (ssiFrameStart_due hr hm hb hp),
      fun raw edge ok hb hx => congrArg Host.Outcome.next (ssiFrameDone_discarded hb hx),
      fun raw edge hb hx => ⟨congrArg Host.Outcome.next (ssiFrameDone_badLine hr hb hx),
        fun herr hbit => congrArg Host.Outcome.next (ssiFrameDone_encoderError hr hb hx herr hbit),
        fun hmt herr hgray hlast => ?_⟩⟩,
    fun p v c s hw hr hb hd => congrArg Host.Outcome.next (shfCfgWrite_quiet hw hr hb hd),
    fun p c s hw => congrArg Host.Outcome.next (shfPosLapRead_window hw)⟩
  · obtain ⟨h, he, ha, hb, hcount, hlap, hfrac, href, hdue⟩ := quadratureChange_one (time := time) hd hr hm hcpr h
    exact ⟨h, congrArg Host.Outcome.next he, ha, hb, hcount, hlap, hfrac, href, by rw [hdue]; exact quadDue_iff _ _ _⟩
  · obtain ⟨t, hint, h, he, hlap, hfrac, hbusy, href⟩ := ssiFrameDone_first (raw := raw) (edge := edge) hr hb hx hmt
      herr hgray hlast
    refine ⟨_, congrArg Host.Outcome.next he, ?_⟩
    simp only [shaft_issueShaft, shaft_setShaft]
    refine ⟨hlap, hfrac, hbusy, href, fun d hdc => ?_⟩
    have hne : (d : Nat) ≠ c := fun e => hdc (Fin.ext e)
    rw [shaft_setShaft_other _ _ _ _ hne, shaft_setShaft_other _ _ _ _ hne]

end Sys2Proof.Machine
end

section
/-! PROOF. O41: frames at the lookup, from internal ports, and at admission. -/

set_option Elab.async false

namespace Sys2Proof.Machine

open Sys2Proof

/-! ### The queues of Junction -/

theorem settleCredits_jct (p c : Nat) (was : List Copy) (s : State) : (settleCredits p c was s).jct = s.jct := by
  unfold settleCredits
  split <;> rfl

theorem setJqueue_jct (p c : Nat) (q : List Copy) (s : State) :
    (setJqueue p c q s).jct = { s.jct with queues := sset [] (p * 8 + c) q s.jct.queues } :=
  (settleCredits_jct p c (jqueue p c s) _)

theorem jqueue_setJqueue (p c : Nat) (q : List Copy) (s : State) : jqueue p c (setJqueue p c q s) = q := by
  rw [jqueue, setJqueue_jct]
  exact sget_sset_same _ _ _ _

theorem onlyIn_setJqueue (p c : Nat) (q : List Copy) (s : State) :
    OnlyIn ⟨[.jct, .tpk], 23⟩ s (setJqueue p c q s) := .of fun _ _ => (OnlyIn.refl s).setJqueue

/-! ### Admission to one destination (R222, R232) -/

/-- What a copy of a stored frame takes at its one destination. -/
structure Queued (f : JFrame) (d : Dest) (g n : Nat) (s t : State) (c : Copy) (h : JFrame) : Prop where
  queue : jqueue d.port d.cls t = jqueue d.port d.cls s ++ [c]
  frame : c.frame = s.jct.nextId
  port : c.port = d.port
  cls : c.cls = d.cls
  guar : c.guar = g
  pool : c.pool = n
  trunc : c.trunc = d.trunc
  others : ∀ k : Nat, k ≠ d.port * 8 + d.cls → sget [] k t.jct.queues = sget [] k s.jct.queues
  frames : t.jct.frames = s.jct.frames ++ [h]
  id : h.id = s.jct.nextId
  bytes : h.bytes = f.bytes
  refs : h.refs = 1
  nextId : t.jct.nextId = s.jct.nextId + 1
  only : OnlyIn ⟨[.jct, .tpk], 23⟩ s t

section
variable {f : JFrame} {d : Dest} {s : State}

theorem carriesTag_plain (port : Nat) (mirror : Bool) (h : f.stream = none) : carriesTag f port mirror = false := by
  simp [carriesTag, h]

theorem admitOne_refused {id : Nat} (hf : f.stream = none)
    (h : admitTest d.cls (cellsOf (chargedLen f d.trunc false)) f.yellow false (jqueue d.port d.cls s) s = none) :
    admitOne f id false s (s, []) d = (countRefused d s, []) := by
  unfold admitOne
  rw [carriesTag_plain d.port d.mirror hf]
  dsimp only
  rw [if_neg (by simp), h]

/-- The copy of an admitted frame. -/
def admittedCopy (f : JFrame) (d : Dest) (id g n : Nat) (s : State) : Copy :=
  { frame := id, port := d.port, cls := d.cls, sub := subscriberOf d.port f.src s, guar := g, pool := n,
    trunc := d.trunc, mirror := d.mirror, cut := false, tag := false }

theorem admitOne_admitted {id g n : Nat} (hf : f.stream = none) (hc : f.cutting = false)
    (h : admitTest d.cls (cellsOf (chargedLen f d.trunc false)) f.yellow false (jqueue d.port d.cls s) s =
      some (g, n)) :
    admitOne f id false s (s, []) d =
      (setJqueue d.port d.cls (jqueue d.port d.cls s ++ [admittedCopy f d id g n s]) s,
        [{ dest := d, guar := g, cells := cellsOf (chargedLen f d.trunc false) }]) := by
  unfold admitOne
  rw [carriesTag_plain d.port d.mirror hf, hc]
  dsimp only
  rw [if_neg (by simp), h]
  rfl

theorem admitFrame_refused (hf : f.stream = none)
    (h : admitTest d.cls (cellsOf (chargedLen f d.trunc false)) f.yellow false (jqueue d.port d.cls s) s = none) :
    admitFrame f [d] s = (countRefused d s, []) := by
  unfold admitFrame
  simp only [List.length_singleton, Nat.lt_irrefl, decide_false, List.foldl_cons, List.foldl_nil,
    admitOne_refused hf h, List.isEmpty_nil, if_true]

/-- A frame that Junction holds for one copy. -/
def heldFrame (f : JFrame) (d : Dest) (g : Nat) (s : State) : JFrame :=
  { f with
    id := s.jct.nextId, cells := max (cellsOf f.length) (cellsOf (chargedLen f d.trunc false)), fromGuar := 0 + g,
    control := decide (6 ≤ f.cls), refs := 1, multi := decide (1 < 1), arrived := now s }

/-- Store a frame under the next identifier. -/
def storeFrame (h : JFrame) (id : Nat) (t : State) : State :=
  { t with jct := { t.jct with frames := t.jct.frames ++ [h], nextId := id + 1 } }

theorem onlyIn_storeFrame (h : JFrame) (id : Nat) (t : State) : OnlyIn ⟨[.jct, .tpk], 23⟩ t (storeFrame h id t) :=
  .of fun _ _ => (OnlyIn.refl t).with_jct

theorem admitFrame_admitted {g n : Nat} (hf : f.stream = none) (hc : f.cutting = false)
    (h : admitTest d.cls (cellsOf (chargedLen f d.trunc false)) f.yellow false (jqueue d.port d.cls s) s =
      some (g, n)) :
    admitFrame f [d] s =
      (storeFrame (heldFrame f d g s) s.jct.nextId
        (setJqueue d.port d.cls (jqueue d.port d.cls s ++ [admittedCopy f d s.jct.nextId g n s]) s), [d]) := by
  unfold admitFrame
  simp only [List.length_singleton, Nat.lt_irrefl, decide_false, List.foldl_cons, List.foldl_nil,
    admitOne_admitted hf hc h, List.isEmpty_cons, Bool.false_eq_true, if_false]
  rfl

theorem queued_admitFrame {g n : Nat} (hf : f.stream = none) (hc : f.cutting = false)
    (h : admitTest d.cls (cellsOf (chargedLen f d.trunc false)) f.yellow false (jqueue d.port d.cls s) s =
      some (g, n)) :
    Queued f d g n s (admitFrame f [d] s).1 (admittedCopy f d s.jct.nextId g n s) (heldFrame f d g s) := by
  have hj := setJqueue_jct d.port d.cls (jqueue d.port d.cls s ++ [admittedCopy f d s.jct.nextId g n s]) s
  have hq := jqueue_setJqueue d.port d.cls (jqueue d.port d.cls s ++ [admittedCopy f d s.jct.nextId g n s]) s
  have ho := onlyIn_setJqueue d.port d.cls (jqueue d.port d.cls s ++ [admittedCopy f d s.jct.nextId g n s]) s
  rw [admitFrame_admitted hf hc h]
  generalize setJqueue d.port d.cls (jqueue d.port d.cls s ++ [admittedCopy f d s.jct.nextId g n s]) s = u at *
  exact {
    queue := hq, frame := rfl, port := rfl, cls := rfl, guar := rfl, pool := rfl, trunc := rfl
    others := fun k hk => (congrArg (fun j => sget [] k j.queues) hj).trans (sget_sset_other _ _ _ _ _ _ hk)
    frames := congrArg (· ++ [heldFrame f d g s]) (hj ▸ rfl : u.jct.frames = s.jct.frames)
    id := rfl, bytes := rfl, refs := rfl, nextId := rfl
    only := ho.trans (onlyIn_storeFrame _ _ _) }

theorem admitFrame_dests (f : JFrame) (d : Dest) (s : State) :
    (admitFrame f [d] s).2 = [] ∨ (admitFrame f [d] s).2 = [d] := by
  have hone : ∀ (id : Nat), (admitOne f id false s (s, []) d).2 = [] ∨
      ∃ x, x.dest = d ∧ (admitOne f id false s (s, []) d).2 = [x] := fun id => by
    unfold admitOne
    dsimp only
    split
    · exact .inl rfl
    · split
      · exact .inl rfl
      · exact .inr ⟨_, rfl, rfl⟩
  unfold admitFrame
  simp only [List.length_singleton, Nat.lt_irrefl, decide_false, List.foldl_cons, List.foldl_nil]
  obtain h | ⟨x, hx, h⟩ := hone s.jct.nextId
  · exact .inl (by simp only [h, List.isEmpty_nil, if_true])
  · exact .inr (by simp only [h, List.isEmpty_cons, Bool.false_eq_true, if_false, List.map_cons, List.map_nil, hx])

/-- A copy to one destination that is not mirrored (R237). -/
theorem admitStream_one (hm : d.mirror = true ∨ 132 ≤ d.port ∨ bit (rg JCT_P_CFG d.port s) 23 = false) :
    admitStream none f [d] s = admitFrame f [d] s := by
  have hmirrors : ∀ l, l = [] ∨ l = [d] → egressMirrors l s = [] := by
    rintro l (rfl | rfl)
    · rfl
    · rw [egressMirrors, List.filter_cons, if_neg, List.filter_nil, List.flatMap_nil]
      rcases hm with h | h | h
      · simp [h]
      · simp; omega
      · simp [h]
  unfold admitStream
  simp only [admitSequenced, show sortDests [d] = [d] from rfl, hmirrors _ (admitFrame_dests f d s)]
  rfl

end

/-! ### Frames at the lookup -/

theorem lookStart_noRule {p : Nat} {b : Bytes} {ts : Word} {s : State} (h : (identify p b ts s).rule = none) :
    lookStart p b ts s = (s, identify p b ts s) := by
  simp only [lookStart, h]

section
variable {p : Nat} {b : Bytes} {ts : Word} {s : State}

/-- The arrival of a whole frame. -/
abbrev whole (p : Nat) (b : Bytes) (ts : Word) : Arrival := { port := p, bytes := b, ts := ts, cutting := false }

theorem lookupFrame_trapped {n : Nat} (hp : 128 ≤ p → trunkRole (p - 128) s ≠ roleTwin)
    (ht : trapPort (whole p b ts) s = some n) :
    lookupFrame p b ts s =
      (admitFrame ((whole p b ts).frame b 7 s) [{ port := n, cls := 7 }] s).1 := by
  have hk : identify p b ts s = { bytes := b, ts := ts, body := b, trap := some n } := by
    unfold identify
    rw [if_neg fun h => hp h.1 h.2, ht]
  unfold lookupFrame
  rw [lookStart_noRule (by rw [hk]), hk]
  rfl

theorem lookupFrame_dropped (hp : 128 ≤ p → trunkRole (p - 128) s ≠ roleTwin)
    (ht : trapPort (whole p b ts) s = none) (hv : vlanDrops p (frameVid p b s) s = true) :
    lookupFrame p b ts s = setCause JCT_CAUSE 0 7 (bump JCT_CNT_LOOKUP 0 31 16 s) := by
  have hk : identify p b ts s = { bytes := b, ts := ts, body := b, vlanDrop := true } := by
    unfold identify
    rw [if_neg fun h => hp h.1 h.2, ht]
    exact if_pos hv
  unfold lookupFrame
  rw [lookStart_noRule (by rw [hk]), hk]
  rfl

/-- What a frame that no rule matches is offered as. -/
def plainFrame (p : Nat) (b : Bytes) (ts : Word) (s : State) : JFrame :=
  { (whole p b ts).frame b (frameClass p b s) s with vid := frameVid p b s, tagged := tagged b }

theorem lookupFrame_plain (hp : 128 ≤ p → trunkRole (p - 128) s ≠ roleTwin)
    (ht : trapPort (whole p b ts) s = none) (hv : vlanDrops p (frameVid p b s) s = false)
    (hr : firstRule p (frameVid p b s) b s.jct.rules = none) :
    lookupFrame p b ts s = (forwardFrame (whole p b ts) (plainFrame p b ts s)
      (destPlan (whole p b ts) (frameVid p b s) none none s) none s).1 := by
  have hk : identify p b ts s =
      { bytes := b, ts := ts, body := b, vid := frameVid p b s, cls := frameClass p b s } := by
    unfold identify
    rw [if_neg fun h => hp h.1 h.2, ht]
    exact (if_neg (ne_true_of_eq_false hv)).trans (by rw [hr])
  unfold lookupFrame
  rw [lookStart_noRule (by rw [hk]), hk]
  rfl

theorem learns_disabled {vid : Nat} {a : BitVec 48} (h : bit (rg JCT_CTRL 0 s) 1 = false) :
    learns p vid a s = false := by
  simp [learns, h]

theorem forwardFrame_nowhere {a : Arrival} {f : JFrame} {d : DestPlan} {st : Option Generator}
    (hl : d.learns = false) (hb : d.bad = false) (hd : d.ports = []) :
    forwardFrame a f d st s = (setCause JCT_CAUSE 0 7 (bump JCT_CNT_LOOKUP 0 15 0 s), false) := by
  unfold forwardFrame
  rw [hl, hb, hd]
  rfl

theorem forwardFrame_one {a : Arrival} {f : JFrame} {d : DestPlan} {n : Nat}
    (hl : d.learns = false) (hb : d.bad = false) (hd : d.ports = [n]) (hm : d.mirrors = [])
    (hn : 132 ≤ n ∨ bit (rg JCT_P_CFG n s) 23 = false) :
    forwardFrame a f d none s = ((admitFrame f [{ port := n, cls := f.cls }] s).1, true) := by
  unfold forwardFrame
  rw [hl, hb, hd, hm]
  exact congrArg (fun x : State × List Dest => (x.1, true)) (admitStream_one (.inr hn))

section
variable (hp : 128 ≤ p → trunkRole (p - 128) s ≠ roleTwin) (ht : trapPort (whole p b ts) s = none)
  (hv : vlanDrops p (frameVid p b s) s = false) (hr : firstRule p (frameVid p b s) b s.jct.rules = none)
  (hl : bit (rg JCT_CTRL 0 s) 1 = false) (hb : namesBad (whole p b ts) (frameVid p b s) none s = false)
include hp ht hv hr hl hb

theorem lookupFrame_nowhere (hd : destSet (whole p b ts) (frameVid p b s) none none s = []) :
    lookupFrame p b ts s = setCause JCT_CAUSE 0 7 (bump JCT_CNT_LOOKUP 0 15 0 s) := by
  rw [lookupFrame_plain hp ht hv hr, forwardFrame_nowhere (learns_disabled hl) hb hd]

theorem lookupFrame_one {n : Nat} (hd : destSet (whole p b ts) (frameVid p b s) none none s = [n])
    (hm : bit (rg JCT_P_CFG p s) 19 = false) (hn : 132 ≤ n ∨ bit (rg JCT_P_CFG n s) 23 = false) :
    lookupFrame p b ts s =
      (admitFrame (plainFrame p b ts s) [{ port := n, cls := frameClass p b s }] s).1 := by
  rw [lookupFrame_plain hp ht hv hr,
    forwardFrame_one (learns_disabled hl) hb hd (by simp [destPlan, hm]) hn]
  rfl

end

/-- A destination's table entry that names one port (R216). -/
theorem rawDests_port {vid i n : Nat} {dst : BitVec 48} (hg : isGroup dst = false) (hi : macFind vid dst s = some i)
    (he : macGroup (tblGet 1 i s) = false) (hn : macPort (tblGet 1 i s) = n) :
    rawDests none vid dst s = ([n], false) := by
  simp only [rawDests, hi, hg, he, hn, Bool.false_eq_true, if_false]

theorem destSet_port {a : Arrival} {vid n : Nat} (hb : bridgeDests a.port s = none) (hp : ptpAt a.bytes = none)
    (hraw : rawDests none vid (dstAddr a.bytes) s = ([n], false)) (hne : n ≠ a.port) (hbad : badDest n = false)
    (hn : 132 ≤ n ∨ linkUp n s = true ∧ vlanMember vid n s = true ∧ (128 ≤ n → trunkRole (n - 128) s ≠ roleTwin)) :
    destSet a vid none none s = [n] := by
  have hkeep : (132 ≤ n) ∨ (linkUp n s = true ∧ vlanMember vid n s = true ∧ isTwinLink n s = false) :=
    hn.imp_right fun ⟨h1, h2, h3⟩ => ⟨h1, h2, by
      by_cases h : 128 ≤ n ∧ n < 132
      · simp [isTwinLink, h3 h.1]
      · simp [isTwinLink, h]⟩
  unfold destSet
  simp only [hb, hraw, hp, Option.isSome_none, Bool.false_eq_true, false_and, and_false, if_false]
  rw [List.filter_cons, if_pos, List.filter_nil]
  rcases hkeep with h | ⟨h1, h2, h3⟩
  · simp [hbad, hne, h]
  · simp [hbad, hne, h1, h2, h3]

theorem junctionLookup_oldest {x : RxFrame} {q : List RxFrame} (h : (macRun p s).rxq = x :: q) :
    junctionLookup p none s =
      if inReset 196 s then resetDrop (setMacRun p { macRun p s with rxq := q } s)
      else lookupFrame p x.bytes x.ts (setMacRun p { macRun p s with rxq := q } s) := by
  simp only [junctionLookup, h]
  rfl

theorem junctionLookup_none (h : (macRun p s).rxq = []) : junctionLookup p none s = s := by
  simp only [junctionLookup, h]

/-! ### Frames that are still arriving (R217) -/

theorem meterEarly_whole {a : Arrival} {k : Looked} (h : mayCut a.port s = false) : meterEarly a k s = (s, k) := by
  have hm : metersEarly a.port s = false := by rw [← h, metersEarly, mayCut, Bool.and_comm]
  unfold meterEarly
  split
  · rfl
  · exact if_neg fun hx => ne_true_of_eq_false hm hx.2.1

/-- What the stages up to 4 found, with the destinations of a frame that goes on. -/
def planned (p : Nat) (r : State × Looked) : Looked :=
  if (r.2.trap.isSome || r.2.vlanDrop || r.2.eliminated) = true then r.2
  else
    { r.2 with
      plan := some (destPlan { port := p, bytes := r.2.bytes, ts := r.2.ts, cutting := true } r.2.vid
        (r.2.rule.map fun q => q.2) r.2.generate r.1) }

theorem lookArriving_waits {x : HeadIn} (hc : mayCut p (lookStart p x.bytes (ingressStamp p x.phase s) s).1 = false) :
    lookArriving p x s =
      setArriving p (some { looked := planned p (lookStart p x.bytes (ingressStamp p x.phase s) s) })
        (lookStart p x.bytes (ingressStamp p x.phase s) s).1 := by
  unfold lookArriving
  dsimp only
  generalize lookStart p x.bytes (ingressStamp p x.phase s) s = r at hc ⊢
  by_cases hx : (r.2.trap.isSome || r.2.vlanDrop || r.2.eliminated) = true
  · rw [planned, if_pos hx]
    exact if_pos (by simpa [or_assoc] using hx)
  · rw [planned, if_neg hx, if_neg (by simpa [or_assoc] using hx), if_neg fun h => ne_true_of_eq_false hc h.1,
      meterEarly_whole hc]

theorem junctionLookup_cannot {x : HeadIn} (h : mayLook p x.bytes s = false) : junctionLookup p (some x) s = s :=
  if_pos (by simp [h])

theorem junctionLookup_arriving {x : HeadIn} (h : mayLook p x.bytes s = true) (hr : inReset 196 s = false) :
    junctionLookup p (some x) s = lookArriving p x s :=
  (if_neg (by simp [h])).trans (if_neg (by simp [hr]))

end

/-! ### Frames of internal ports -/

section
variable {f : JFrame} {e : Nat} {s : State}

theorem internalOffer_reset (h : inReset 196 s = true) :
    internalOffer f e s = (setCause JCT_CAUSE 0 10 (bump JCT_CNT_MISC 0 15 0 s), false) := if_pos h

theorem internalOffer_nowhere (hr : inReset 196 s = false) (h : e = 198 ∨ 199 < e) :
    internalOffer f e s = (setCause JCT_CAUSE 0 7 (bump JCT_CNT_MISC 0 23 16 s), false) :=
  (if_neg (by simp [hr])).trans (if_pos h)

theorem internalOffer_twinLink (hr : inReset 196 s = false) (h1 : e ≠ 198) (h2 : e ≤ 199)
    (h : twinLinkOnly e f s = true) : internalOffer f e s = (s, false) :=
  (if_neg (by simp [hr])).trans ((if_neg (by omega)).trans (if_pos h))

theorem internalOffer_plain (hr : inReset 196 s = false) (h1 : e ≠ 198) (h2 : e ≤ 199)
    (ht : twinLinkOnly e f s = false) (hc : claimed f.src e s = false) (hs : internalStream f.src e f.cls s = none)
    (hm : e < 132 → bit (rg JCT_P_CFG e s) 23 = false) :
    (internalOffer f e s).1 = (admitFrame f [{ port := e, cls := f.cls }] s).1 := by
  have hone : admitStream none f [{ port := e, cls := f.cls }] s = admitFrame f [{ port := e, cls := f.cls }] s :=
    admitStream_one (.inr ((Nat.lt_or_ge e 132).elim (fun h => .inr (hm h)) .inl))
  unfold internalOffer
  rw [if_neg (by simp [hr]), if_neg (by omega), if_neg (by simp [ht]), hs, hc]
  simp only [Bool.false_eq_true, false_and, if_false, decide_false, Bool.false_and, splitDests, hone]

end

/-- Settles O41: the steps of the lookup for a frame, and one admission to its destination. -/
theorem junctionFramesReachTheirDestination : Obligations.JunctionFramesReachTheirDestination := by
  refine ⟨fun p x q s hq => ?_, fun p s hq => congrArg Host.Outcome.next (junctionLookup_none hq),
    fun p x s => ⟨fun h => congrArg Host.Outcome.next (junctionLookup_cannot h), fun h hr => by
      intro r a hc
      exact congrArg Host.Outcome.next ((junctionLookup_arriving h hr).trans (lookArriving_waits hc))⟩,
    fun src e c x s => ?_, fun f d s hf hc _ _ => ?_⟩
  · intro s' a f vid cls
    have hall : inReset 196 s = false → junctionLookup p none s = lookupFrame p x.bytes x.ts s' := fun hr =>
      (junctionLookup_oldest hq).trans (if_neg (ne_true_of_eq_false hr))
    refine ⟨fun hr => congrArg Host.Outcome.next ((junctionLookup_oldest hq).trans (if_pos hr)), fun hr hp =>
      ⟨fun n ht => congrArg Host.Outcome.next ((hall hr).trans (lookupFrame_trapped hp ht)),
        fun ht hv => congrArg Host.Outcome.next ((hall hr).trans (lookupFrame_dropped hp ht hv)),
        fun ht hv hrule hl hb hd => congrArg Host.Outcome.next ((hall hr).trans
          (lookupFrame_nowhere hp ht hv hrule hl hb hd)),
        fun i n ht hv hrule hl hptp hmir hbr hg hi he hn hne hbad hok => ?_⟩⟩
    have hraw : rawDests none vid (dstAddr x.bytes) s' = ([n], false) := rawDests_port hg hi he hn
    have hd : destSet a vid none none s' = [n] := destSet_port hbr hptp hraw hne hbad
      (hok.imp_right fun ⟨h1, h2, _, h3⟩ => ⟨h1, h2, h3⟩)
    have hb : namesBad a vid none s' = false := by
      simp [namesBad, hraw, a, hbad]
    have hf : plainFrame p x.bytes x.ts s' = { f with cls := cls, vid := vid, tagged := tagged x.bytes } := rfl
    have hone := lookupFrame_one (s := s') hp ht hv hrule hl hb hd hmir (hok.imp_right fun h => h.2.2.1)
    rw [hf] at hone
    exact congrArg Host.Outcome.next ((hall hr).trans hone)
  · intro f
    exact ⟨fun hr => congrArg Host.Outcome.next (congrArg Prod.fst (internalOffer_reset hr)),
      fun hr h => congrArg Host.Outcome.next (congrArg Prod.fst (internalOffer_nowhere hr h)),
      fun hr h1 h2 ht => congrArg Host.Outcome.next (congrArg Prod.fst (internalOffer_twinLink hr h1 h2 ht)),
      fun hr h1 h2 ht hc hs hm => congrArg Host.Outcome.next (internalOffer_plain hr h1 h2 ht hc hs hm)⟩
  · refine ⟨fun g n h => ?_, fun h => admitFrame_refused hf h⟩
    have hq := queued_admitFrame hf hc h
    exact ⟨_, _, congrArg Prod.snd (admitFrame_admitted hf hc h), hq.queue, hq.frame, hq.port, hq.cls, hq.guar,
      hq.pool, hq.trunc, hq.others, hq.frames, hq.id, hq.bytes, hq.refs, hq.nextId, hq.only.keeps .mem,
      hq.only.keeps .lanes, hq.only.keeps .regs⟩

end Sys2Proof.Machine
end

section
/-! PROOF. O43: Turnpike's choice of a copy, the shapers and Tolls, and the subscriber map. -/

set_option Elab.async false

namespace Sys2Proof.Machine

open Sys2Proof

/-! ### What these operations write -/

namespace OnlyIn

variable {F : Scope} {s₀ s : State}

theorem setTollC {i v} (h : OnlyIn F s₀ s)
    (hF : Allows F ⟨[.tpk], 23⟩ := by exact Allows.mono ‹_› rfl) :
    OnlyIn F s₀ (setTollC i v s) :=
  h.with_tpk_else

theorem setTollP {i v} (h : OnlyIn F s₀ s)
    (hF : Allows F ⟨[.tpk], 23⟩ := by exact Allows.mono ‹_› rfl) :
    OnlyIn F s₀ (setTollP i v s) :=
  h.with_tpk_else

theorem tollAccrual (h : OnlyIn F s₀ s)
    (hF : Allows F ⟨[.tpk], 23⟩ := by exact Allows.mono ‹_› rfl) :
    OnlyIn F s₀ (tollAccrual s) :=
  h.ite (h.forEach (fun _ _ h1 => h1.setTollP.setTollC))

theorem shaperSetCredit {b v} (h : OnlyIn F s₀ s)
    (hF : Allows F ⟨[.tpk], 23⟩ := by exact Allows.mono ‹_› rfl) :
    OnlyIn F s₀ (Shaper.setCredit b v s) := by
  unfold Machine.Shaper.setCredit
  split
  · exact h.with_tpk_else
  · exact h.with_tpk_else
  · exact h.with_tpk_else

theorem chargePath {c n} (h : OnlyIn F s₀ s)
    (hF : Allows F ⟨[.tpk], 23⟩ := by exact Allows.mono ‹_› rfl) :
    OnlyIn F s₀ (chargePath c n s) :=
  h.forEach (fun _ _ h1 => h1.shaperSetCredit.ite h1)

theorem shaperAccrue {b} (h : OnlyIn F s₀ s)
    (hF : Allows F ⟨[.tpk], 23⟩ := by exact Allows.mono ‹_› rfl) :
    OnlyIn F s₀ (Shaper.accrue b s) :=
  h.ite (h.shaperSetCredit.ite (h.shaperSetCredit.ite h))

theorem shaperAccrual (h : OnlyIn F s₀ s)
    (hF : Allows F ⟨[.regs, .tpk, .flt], 8⟩ := by exact Allows.mono ‹_› rfl) :
    OnlyIn F s₀ (shaperAccrual s) :=
  (h.forEach (fun _ _ h1 => h1.macBump)).ite ((((h.forEach (fun _ _ h1 => h1.macBump)).forEach
    (fun _ _ h1 => h1.shaperAccrue)).forEach (fun _ _ h1 => h1.shaperAccrue)).forEach (fun _ _ h1 => h1.shaperAccrue))

theorem takeCopy {c} (h : OnlyIn F s₀ s)
    (hF : Allows F ⟨[.jct, .tpk], 23⟩ := by exact Allows.mono ‹_› rfl) :
    OnlyIn F s₀ (takeCopy c s) :=
  h.setJqueue.updJframe

theorem handCopy {c} (h : OnlyIn F s₀ s)
    (hF : Allows F ⟨[.regs, .jct, .tpk], 10⟩ := by exact Allows.mono ‹_› rfl) :
    OnlyIn F s₀ (handCopy c s) := by
  unfold Machine.handCopy
  split
  · exact h
  · exact (h.chargePath.takeCopy.bump.onlyIf (fun _ h1 => h1.bump)).setHanded

end OnlyIn


/-- An operation above the system block changes no reset. -/
theorem OnlyIn.inReset {F : Scope} {s t : State} (h : OnlyIn F s t) (f : Nat) (hF : 1 ≤ F.floor := by decide) :
    inReset f t = inReset f s := by
  unfold Machine.inReset
  by_cases hf : f < 215
  · rw [h.rg (SYS_RST_STAT + 4 * (f / 32)) 0 (rkey_lt_of_lt (by
      have : SYS_RST_STAT + 4 * (214 / 32) < 0x1000 := by decide
      omega) (by decide))]
  · simp [hf]

/-! ### Deficit round robin over one member (R241) -/

section
variable {need : Nat → Int} {quantum : Nat → Nat} {m : Nat}

theorem dwrrRound_covered {ms : List Nat} {d : Sparse Nat} (hms : ∀ x ∈ ms, x = m) (hne : ms ≠ [])
    (h : need m ≤ (sget 0 m d : Nat)) : (dwrrRound need quantum ms d).1 = some m := by
  cases ms with
  | nil => exact absurd rfl hne
  | cons x t =>
    obtain rfl := hms x List.mem_cons_self
    rw [dwrrRound, if_neg (by omega)]

theorem dwrrRound_grows (ms : List Nat) (d : Sparse Nat) (hms : ∀ x ∈ ms, x = m) :
    (dwrrRound need quantum ms d).1 = some m ∨
      ((dwrrRound need quantum ms d).1 = none ∧
        sget 0 m d + ms.length * quantum m ≤ sget 0 m (dwrrRound need quantum ms d).2) := by
  induction ms generalizing d with
  | nil => exact .inr ⟨rfl, by simp [dwrrRound]⟩
  | cons x t ih =>
    obtain rfl := hms x List.mem_cons_self
    by_cases h : ((sget 0 x d : Nat) : Int) < need x
    · rw [dwrrRound, if_pos h]
      refine (ih (sset 0 x (sget 0 x d + quantum x) d) fun y hy => hms y (List.mem_cons_of_mem _ hy)).imp_right
        fun ⟨h1, h2⟩ => ⟨h1, ?_⟩
      rw [sget_sset_same] at h2
      rw [List.length_cons, Nat.add_mul]
      omega
    · rw [dwrrRound, if_neg h]
      exact .inl rfl

/-- Rounds enough for the need of the one member select it. -/
theorem dwrr_selects (ms : List Nat) (hms : ∀ x ∈ ms, x = m) (hne : ms ≠ []) (hq : 64 ≤ quantum m) (n : Nat)
    (d : Sparse Nat) (h : need m ≤ (sget 0 m d + n * 64 : Nat)) :
    (dwrr need quantum ms (n + 1) d).1 = some m := by
  have hpos : 0 < ms.length := List.length_pos_of_ne_nil hne
  have hlen : 64 ≤ ms.length * quantum m := Nat.le_trans hq (Nat.le_mul_of_pos_left _ hpos)
  induction n generalizing d with
  | zero =>
    have hc := dwrrRound_covered (quantum := quantum) (d := d) hms hne (by omega)
    obtain ⟨x, e⟩ : ∃ e, dwrrRound need quantum ms d = (some m, e) := ⟨_, Prod.ext hc rfl⟩
    rw [dwrr, e]
  | succ n ih =>
    obtain h1 | ⟨h1, h2⟩ := dwrrRound_grows (need := need) (quantum := quantum) ms d hms
    · obtain ⟨x, e⟩ : ∃ e, dwrrRound need quantum ms d = (some m, e) := ⟨_, Prod.ext h1 rfl⟩
      rw [dwrr, e]
    · obtain ⟨x, e⟩ : ∃ e, dwrrRound need quantum ms d = (none, e) := ⟨_, Prod.ext h1 rfl⟩
      rw [e] at h2
      rw [dwrr, e]
      refine ih x ?_
      simp only at h2
      omega

end

theorem mem_insertNat {n x : Nat} {l : List Nat} : x ∈ insertNat n l ↔ x = n ∨ x ∈ l := by
  induction l with
  | nil => simp [insertNat]
  | cons y t ih =>
    unfold insertNat
    split
    · simp
    · simp only [List.mem_cons, ih]
      tauto

theorem mem_subscribers {x : Nat} (mine : List Copy) (l : List Nat) :
    x ∈ mine.foldl (fun l y => insertNat y.sub l) l ↔ x ∈ l ∨ ∃ y ∈ mine, y.sub = x := by
  induction mine generalizing l with
  | nil => simp
  | cons y t ih =>
    rw [List.foldl_cons, ih, mem_insertNat]
    simp only [List.mem_cons, exists_eq_or_imp, eq_comm (a := x)]
    tauto

theorem mem_visitOrder {x next : Nat} {ms : List Nat} : x ∈ visitOrder next ms ↔ x ∈ ms := by
  simp only [visitOrder, List.mem_append, List.mem_filter, decide_eq_true_eq, ← and_or_left, and_iff_left_iff_imp]
  omega

/-! ### The choice of a port (R240) -/

section
variable {p : Nat} {b : Copy} {f : JFrame} {heads : List Copy} {s : State}

/-- The one eligible copy of a service is its next. -/
theorem chooseSub_only (hmem : b ∈ heads) (hone : ∀ x ∈ heads, x.cls = b.cls → x = b)
    (hf : jframe b.frame s = some f) (hn : chargeOf b f s ≤ 19136) :
    ∃ d, chooseSub p b.cls heads s = some (b, d) := by
  have hmine : ∀ x, x ∈ heads.filter (fun x => decide (x.cls = b.cls)) ↔ x = b := fun x => by
    rw [List.mem_filter, decide_eq_true_eq]
    exact ⟨fun h => hone x h.1 h.2, by rintro rfl; exact ⟨hmem, rfl⟩⟩
  unfold chooseSub
  extract_lets mine ms need r
  have hfind : mine.find? (fun x => decide (x.sub = b.sub)) = some b := by
    obtain ⟨x, hx⟩ := Option.isSome_iff_exists.1
      (List.find?_isSome (p := fun x : Copy => decide (x.sub = b.sub)) |>.2 ⟨b, (hmine b).2 rfl, by simp⟩)
    rw [show mine = _ from rfl, hx, (hmine x).1 (List.mem_of_find?_eq_some hx)]
  have hneed : need b.sub = chargeOf b f s := by simp only [need, hfind, hf]
  have hms : ∀ x, x ∈ visitOrder (sget 0 (p * 8 + b.cls) s.tpk.subNext) ms ↔ x = b.sub := fun x => by
    rw [mem_visitOrder, mem_subscribers]
    simp only [List.not_mem_nil, false_or]
    exact ⟨fun ⟨y, hy, hx⟩ => hx ▸ (hmine y).1 hy ▸ rfl, fun h => ⟨b, (hmine b).2 rfl, h.symm⟩⟩
  have hr : r.1 = some b.sub := dwrr_selects _ (fun x hx => (hms x).1 hx)
    (List.ne_nil_of_mem ((hms b.sub).2 rfl)) (by simp only [quantumOf]; omega) 299 _ (by rw [hneed]; omega)
  simp only [hr, hfind, Option.map_some]
  exact ⟨_, rfl⟩

/-- The highest of the classes below 8 that satisfy a test. -/
theorem head_reverse_classes (t : Nat → Bool) (c : Nat) (hc : c < 8) (ht : t c = true)
    (hmax : ∀ x < 8, t x = true → x ≤ c) : ∃ l, ((List.range 8).filter t).reverse = c :: l := by
  have hmem : c ∈ ((List.range 8).filter t).reverse := by simp [hc, ht]
  have hsorted : (((List.range 8).filter t).reverse).Pairwise (· > ·) :=
    List.pairwise_reverse.2 (List.Pairwise.filter _ List.pairwise_lt_range)
  have hall : ∀ x ∈ ((List.range 8).filter t).reverse, x ≤ c := fun x hx => by
    rw [List.mem_reverse, List.mem_filter, List.mem_range] at hx
    exact hmax x hx.1 hx.2
  generalize ((List.range 8).filter t).reverse = l at *
  cases l with
  | nil => simp at hmem
  | cons x l =>
    have hle := hall x List.mem_cons_self
    obtain rfl | h := List.mem_cons.1 hmem
    · exact ⟨l, rfl⟩
    · have := (List.pairwise_cons.1 hsorted).1 c h
      omega

theorem chooseCopy_strict (hmem : b ∈ heads) (hcls : b.cls < 8) (hstrict : bit (rg TPK_P_CFG p s) b.cls = true)
    (hlast : ∀ x ∈ heads, x = b ∨ x.cls < b.cls ∨ x.cls ≠ b.cls ∧ bit (rg TPK_P_CFG p s) x.cls = false)
    (hf : jframe b.frame s = some f) (hn : chargeOf b f s ≤ 19136) :
    ∃ d, chooseCopy p heads s = some (b, putService p b.cls d s) := by
  obtain ⟨d, hd⟩ := chooseSub_only (p := p) hmem (fun x hx h => by
    rcases hlast x hx with h1 | h1 | h1
    · exact h1
    · omega
    · exact absurd h h1.1) hf hn
  unfold chooseCopy
  extract_lets strict classes pick need r
  obtain ⟨l, hl⟩ : ∃ l, (classes.filter strict).reverse = b.cls :: l := by
    rw [List.filter_filter]
    refine head_reverse_classes _ _ hcls ?_ fun c _ hc => ?_
    · simp only [strict, hstrict, Bool.true_and, List.any_eq_true, decide_eq_true_eq]
      exact ⟨b, hmem, rfl⟩
    · simp only [strict, Bool.and_eq_true, List.any_eq_true, decide_eq_true_eq] at hc
      obtain ⟨hc, x, hx, rfl⟩ := hc
      rcases hlast x hx with rfl | h | ⟨-, h⟩
      · exact Nat.le_refl _
      · exact Nat.le_of_lt h
      · simp [hc] at h
  rw [hl]
  exact ⟨d, congrArg (Option.map fun r : Copy × DwrrState => (r.1, putService p b.cls r.2 s)) hd⟩

end

/-! ### Handing a copy over -/

theorem handed_setHanded (p : Nat) (c : Option Copy) (s : State) : handed p (setHanded p c s) = c :=
  sget_sset_same _ _ _ _

theorem handed_setHanded_other {p r : Nat} (c : Option Copy) (s : State) (h : r ≠ p) :
    handed r (setHanded p c s) = handed r s := sget_sset_other _ _ _ _ _ _ h

theorem tpkHanded_settleCredits (p c : Nat) (was : List Copy) (s : State) :
    (settleCredits p c was s).tpk.handed = s.tpk.handed := by
  unfold settleCredits
  split
  · rfl
  · dsimp only
    split <;> split <;> rfl

theorem tpkHanded_settleDeficits (p c : Nat) (was : List Copy) (s : State) :
    (settleDeficits p c was s).tpk.handed = s.tpk.handed := by
  unfold settleDeficits
  dsimp only
  split <;> rfl

theorem tpkHanded_setJqueue (p c : Nat) (q : List Copy) (s : State) :
    (setJqueue p c q s).tpk.handed = s.tpk.handed :=
  (tpkHanded_settleDeficits _ _ _ _).trans (tpkHanded_settleCredits _ _ _ _)

theorem tpk_updJframe (id : Nat) (g : JFrame → JFrame) (s : State) : (updJframe id g s).tpk = s.tpk := by
  unfold updJframe
  split <;> rfl

theorem tpkHanded_takeCopy (c : Copy) (s : State) : (takeCopy c s).tpk.handed = s.tpk.handed :=
  (congrArg TurnpikeRun.handed (tpk_updJframe _ _ _)).trans (tpkHanded_setJqueue _ _ _ _)

theorem tpkHanded_chargePath (c : Copy) (n : Int) (s : State) : (chargePath c n s).tpk.handed = s.tpk.handed :=
  forEach_keeps (fun t => t.tpk.handed = s.tpk.handed) _ _ s (fun b _ t ht => by
    split
    · cases b <;> exact ht
    · exact ht) rfl

/-- A copy that its port hands over is counted for its service, and for its subscriber where it has one (R240). -/
def sent (b : Copy) (s : State) : State :=
  onlyIf (decide (b.sub < 4096)) (bump TPK_SUB_TX b.sub 31 0) (bump TPK_S_TX (b.port * 8 + b.cls) 31 0 s)

theorem handed_sent (b : Copy) (s : State) : (sent b s).tpk.handed = s.tpk.handed :=
  onlyIf_keeps (v := fun t => t.tpk.handed) (s := bump TPK_S_TX (b.port * 8 + b.cls) 31 0 s) rfl

theorem rgF_sent {b : Copy} (hp : b.port < 132) (hc : b.cls < 8) (s : State) :
    rgF TPK_S_TX (b.port * 8 + b.cls) 31 0 (sent b s) = (rgF TPK_S_TX (b.port * 8 + b.cls) 31 0 s + 1) % 2 ^ 32 := by
  have h := rgF_bump_same TPK_S_TX (b.port * 8 + b.cls) 31 0 s (by decide) (by decide)
  unfold sent onlyIf
  by_cases hsub : b.sub < 4096
  · rw [if_pos (by simpa using hsub), rgF, rg_bump_other (rkey_ne_of_lt (by decide) (by omega) (by omega))]
    exact h
  · rw [if_neg (by simpa using hsub)]
    exact h

theorem onlyIn_sent (b : Copy) (s : State) : OnlyIn ⟨[.regs, .jct, .tpk], 10⟩ s (sent b s) :=
  .of fun _ _ => (OnlyIn.refl s).bump.onlyIf fun _ h => h.bump

/-- A copy is handed to the MAC of its port. -/
structure HandedTo (b d : Copy) (s t : State) : Prop where
  frame : d.frame = b.frame
  cls : d.cls = b.cls
  sub : d.sub = b.sub
  handed : handed b.port t = some d
  others : ∀ r, r ≠ b.port → Machine.handed r t = Machine.handed r s
  only : OnlyIn ⟨[.regs, .jct, .tpk], 10⟩ s t

theorem handCopy_eq {b : Copy} {f : JFrame} {s : State} (hf : jframe b.frame s = some f) :
    ∃ (n : Int) (d : Copy), d.frame = b.frame ∧ d.cls = b.cls ∧ d.sub = b.sub ∧
      handCopy b s = setHanded b.port (some d) (sent b (takeCopy b (chargePath b n s))) := by
  unfold handCopy
  rw [hf]
  refine ⟨_, _, ?_, ?_, ?_, rfl⟩ <;> rfl

theorem handedTo_handCopy {b : Copy} {f : JFrame} {s : State} (hf : jframe b.frame s = some f) (hp : b.port < 132)
    (hc : b.cls < 8) :
    (∃ d, HandedTo b d s (handCopy b s)) ∧ rgF TPK_S_TX (b.port * 8 + b.cls) 31 0 (handCopy b s) =
      (rgF TPK_S_TX (b.port * 8 + b.cls) 31 0 s + 1) % 2 ^ 32 := by
  have ho : OnlyIn ⟨[.regs, .jct, .tpk], 10⟩ s (handCopy b s) := .of fun _ _ => (OnlyIn.refl s).handCopy
  obtain ⟨n, d, h1, h2, h3, he⟩ := handCopy_eq hf
  have hregs : ∀ r i, rg r i (takeCopy b (chargePath b n s)) = rg r i s := rg_congr
    ((OnlyIn.of (G := ⟨[.jct, .tpk], 23⟩) fun _ _ => (OnlyIn.refl s).chargePath.takeCopy).keeps .regs)
  have htpk : (sent b (takeCopy b (chargePath b n s))).tpk.handed = s.tpk.handed :=
    (handed_sent b _).trans ((tpkHanded_takeCopy b _).trans (tpkHanded_chargePath b n s))
  rw [he] at ho ⊢
  refine ⟨⟨d, h1, h2, h3, handed_setHanded _ _ _, fun r hr => ?_, ho⟩, ?_⟩
  · rw [handed_setHanded_other _ _ hr, handed, handed, htpk]
  · refine (rgF_sent hp hc _).trans ?_
    rw [rgF, rgF, hregs]

/-! ### The choice of an external port -/

section
variable {p : Nat} {s : State}

theorem sendResponse_none (h : (macRun p s).responseDue = false) : sendResponse p s = s :=
  if_neg (by simp [h])

theorem dropOversize_none (n : Nat) (h : ∀ x ∈ portHeads p s, fitTest x s ≠ .oversize) : dropOversize p n s = s := by
  cases n with
  | zero => rfl
  | succ n =>
    have hnone : (portHeads p s).find? (fun c => bit (gatesNow (gateRun p s)) c.cls && copyReady c s &&
        fitTest c s == .oversize) = none :=
      List.find?_eq_none.2 fun x hx => by simp [h x hx]
    rw [dropOversize, hnone]

theorem selectExternal_quiet (hr : (macRun p s).responseDue = false)
    (h : portReady p s = false ∨ handed p s = none ∧ (macRun p s).pauseReq ≠ none) : selectExternal p s = s := by
  unfold selectExternal
  rw [sendResponse_none hr]
  refine if_pos (h.imp (fun h => by simp [h]) fun ⟨h1, h2⟩ => ⟨by simp [h1], ?_⟩)
  exact Option.isSome_iff_ne_none.2 h2

theorem selectExternal_busy {c : Copy} (hr : (macRun p s).responseDue = false) (hready : portReady p s = true)
    (hh : handed p s = some c) (hfit : ∀ y ∈ portHeads p s, fitTest y s ≠ .oversize) :
    selectExternal p s =
      if preemptable p c.cls s = true ∧ (portHeads p s).any (fun x => express x s && eligible x s) = true
      then setPreempting p true s else s := by
  unfold selectExternal
  rw [sendResponse_none hr]
  dsimp only
  rw [if_neg (by simp [hready, hh]), dropOversize_none _ hfit, hh]

theorem selectExternal_serves (hr : (macRun p s).responseDue = false) (hready : portReady p s = true)
    (hh : handed p s = none) (hpause : (macRun p s).pauseReq = none) (hsus : suspended p s = none)
    (hfit : ∀ x ∈ portHeads p s, fitTest x s ≠ .oversize) :
    selectExternal p s = serve p (fun _ _ => true) (portCopies p s + 1) s := by
  unfold selectExternal
  rw [sendResponse_none hr]
  dsimp only
  rw [if_neg (by simp [hready, hh, hpause]), dropOversize_none _ hfit, hh, hsus]

theorem serve_first {b : Copy} {t : State} {n : Nat} (ha : overAge b s = false)
    (h : chooseCopy p ((portHeads p s).filter fun c => eligible c s) s = some (b, t)) :
    serve p (fun _ _ => true) (n + 1) s = handCopy b t := by
  simp only [serve, Bool.and_true, h, ha, Bool.false_eq_true, if_false]

theorem turnpikeSelect_external {x : CellAnswer} (hp : p < 132) (hd : scheduleDue p s = false) :
    turnpikeSelect p x s =
      if (handed p s).isNone then handedAnswer p x (selectExternal p s) else selectExternal p s := by
  unfold turnpikeSelect
  extract_lets given
  rw [if_pos hp, if_neg (by simp [hd])]

theorem handedAnswer_none {x : CellAnswer} (h : handed p s = none) : handedAnswer p x s = s := by
  simp only [handedAnswer, h]

theorem handedAnswer_ok (p n : Nat) (s : State) : handedAnswer p ⟨.ok, n⟩ s = s := by
  unfold handedAnswer
  split <;> rfl

/-! ### The choice of an internal port -/

theorem turnpikeSelect_internal {x : CellAnswer} (hp : 132 ≤ p) (h1 : p ≠ 196) (h2 : p ≠ 198) :
    turnpikeSelect p x s =
      if (handed p s).isNone then handedAnswer p x (selectInternal p (portCopies p s + 1) s)
      else selectInternal p (portCopies p s + 1) s := by
  unfold turnpikeSelect
  extract_lets given
  rw [if_neg (by omega), if_neg h1, if_neg h2]

theorem selectInternal_busy (n : Nat) (h : handed p s ≠ none) : selectInternal p n s = s := by
  cases n with
  | zero => rfl
  | succ n => exact if_pos (Option.isSome_iff_ne_none.2 h)

/-- The first copy, of the highest class, that the unit accepts. -/
theorem find_heads {t : Copy → Bool} (k : Fin 8) {c : Copy} {q : List Copy} (hq : jqueue p k s = c :: q)
    (hc : t c = true)
    (hlast : ∀ (j : Fin 8) (x : Copy) (y : List Copy), k < j → jqueue p j s = x :: y → t x = false) :
    ((List.range 8).reverse.filterMap fun c => (jqueue p c s).head?).find? t = some c := by
  have hk : (fun j => (jqueue p j s).head?.any t) k.val = true := by simp [hq, hc]
  obtain ⟨l, hl⟩ := head_reverse_classes (fun j => (jqueue p j s).head?.any t) k k.isLt hk fun j hj ht => by
    by_contra hlt
    cases hjq : jqueue p j s with
    | nil => simp [hjq] at ht
    | cons x y => simp [hjq, hlast ⟨j, hj⟩ x y (Nat.lt_of_not_le hlt) hjq] at ht
  rw [List.find?_filterMap, ← List.head?_filter, List.filter_reverse, hl]
  simp [hq]

theorem selectInternal_takes {k : Fin 8} {c : Copy} {q : List Copy} (n : Nat) (hh : handed p s = none)
    (hq : jqueue p k s = c :: q) (hacc : internalAccepts p c s = true) (ha : overAge c s = false)
    (hlast : ∀ (j : Fin 8) (x : Copy) (y : List Copy), k < j → jqueue p j s = x :: y → internalAccepts p x s = false) :
    selectInternal p (n + 1) s = setHanded p (some c) (takeCopy c s) := by
  rw [selectInternal, if_neg (by simp [hh]), find_heads k hq hacc hlast]
  exact if_neg (by simp [ha])

end

/-! ### Walks over the registers that a store lists -/

theorem listedInsts_bound {r a n : Nat} {l : Sparse Word} (h : keysRise a l = true) (hn : n ∈ listedInsts r l) :
    a ≤ r * 2 ^ 24 + n := by
  induction l generalizing a with
  | nil => simp [listedInsts] at hn
  | cons x t ih =>
    obtain ⟨k, v⟩ := x
    simp only [keysRise, Bool.and_eq_true, decide_eq_true_eq] at h
    unfold listedInsts at hn
    split at hn
    · obtain rfl | hn := List.mem_cons.1 hn
      · omega
      · have := ih h.2 hn
        omega
    · have := ih h.2 hn
      omega

theorem nodup_listedInsts (r : Nat) {a : Nat} {l : Sparse Word} (h : keysRise a l = true) :
    (listedInsts r l).Nodup := by
  induction l generalizing a with
  | nil => simp [listedInsts]
  | cons x t ih =>
    obtain ⟨k, v⟩ := x
    simp only [keysRise, Bool.and_eq_true, decide_eq_true_eq] at h
    unfold listedInsts
    split
    · refine List.nodup_cons.2 ⟨fun hm => ?_, ih h.2⟩
      have := listedInsts_bound h.2 hm
      omega
    · exact ih h.2

theorem sget_unlisted {r n : Nat} {d : Word} {l : Sparse Word} (hn : n < 2 ^ 24) (h : n ∉ listedInsts r l) :
    sget d (rkey r n) l = d := by
  induction l with
  | nil => rfl
  | cons x t ih =>
    obtain ⟨k, v⟩ := x
    unfold listedInsts at h
    have hk : k ≠ rkey r n := by
      rintro rfl
      rw [if_pos (by unfold rkey; omega)] at h
      exact h (List.mem_cons.2 (.inl (by unfold rkey; omega)))
    refine (if_neg hk).trans (ih fun hm => h ?_)
    split
    · exact List.mem_cons_of_mem _ hm
    · exact hm

/-- A walk over different numbers changes what belongs to one of them once. -/
theorem forEach_once {α : Type} {l : List Nat} (hnd : l.Nodup) {f : Nat → State → State} (K : State → Prop)
    {v : State → α} {g : α → α} {p : Nat} (hK : ∀ q t, K t → K (f q t)) (hp : ∀ t, K t → v (f p t) = g (v t))
    (hother : ∀ q t, K t → q ≠ p → v (f q t) = v t) {s : State} (hs : K s) :
    v (forEach l f s) = if p ∈ l then g (v s) else v s := by
  induction l generalizing s with
  | nil => rfl
  | cons q l ih =>
    obtain ⟨hq, hnd⟩ := List.nodup_cons.1 hnd
    rw [forEach_cons, ih hnd (hK q s hs)]
    by_cases h : q = p
    · subst h
      rw [if_neg hq, if_pos List.mem_cons_self, hp s hs]
    · rw [hother q s hs h]
      simp only [List.mem_cons, Ne.symm h, false_or]

theorem regReset_eq {r i : Nat} (hr : r ≠ ROA_SRC) (hi : i < 2 ^ 24) : regReset (rkey r i) = w32 (regRow r).reset := by
  have hk : rkey r i / 2 ^ 24 = r := by
    unfold rkey
    omega
  unfold regReset
  rw [hk, if_neg fun h => hr (by rw [← hk, h]; rfl)]

/-! ### Shapers (R242, R243) -/

/-- What a microsecond makes of a port's credit. -/
def portAccrued (p : Nat) (s : State) (v : Int) : Int :=
  if bit (rg TPK_P_CFG p s) 8 = false ∨ bit (rgHeld TPK_P_CFG p s) 8 = false then v
  else if portHolds p (fun _ => true) s = true then
    min (min (v + (rgHeld TPK_P_RATE p s).toNat) (rgHeldF TPK_P_BURST p 23 0 s * 2 ^ 20))
      (rgF TPK_P_BURST p 23 0 s * 2 ^ 20)
  else if v < 0 then min (v + (rgHeld TPK_P_RATE p s).toNat) 0
  else v

theorem portCredit_accrue (p : Nat) (s : State) :
    sget 0 p (Shaper.accrue (.port p) s).tpk.portCredit = portAccrued p s (sget 0 p s.tpk.portCredit) := by
  let view : State → Int := fun t => sget 0 p t.tpk.portCredit
  have hset : ∀ v, view (Shaper.setCredit (.port p) v s) = v := fun v => sget_sset_same _ _ _ _
  unfold portAccrued
  by_cases h1 : bit (rg TPK_P_CFG p s) 8 = false ∨ bit (rgHeld TPK_P_CFG p s) 8 = false
  · have he : Shaper.accrue (.port p) s = s := if_pos (by simpa [Shaper.enabled, Shaper.wasEnabled] using h1)
    rw [if_pos h1, he]
  · have hoff : ¬ (¬ (Shaper.port p).enabled s = true ∨ ¬ (Shaper.port p).wasEnabled s = true) := by
      simpa [Shaper.enabled, Shaper.wasEnabled] using h1
    rw [if_neg h1]
    by_cases h2 : portHolds p (fun _ => true) s = true
    · rw [if_pos h2]
      exact (congrArg view ((if_neg hoff).trans (if_pos h2))).trans (hset _)
    · rw [if_neg h2]
      by_cases h3 : sget 0 p s.tpk.portCredit < 0
      · rw [if_pos h3]
        exact (congrArg view ((if_neg hoff).trans ((if_neg h2).trans (if_pos h3)))).trans (hset _)
      · rw [if_neg h3]
        exact congrArg view ((if_neg hoff).trans ((if_neg h2).trans (if_neg h3)))

theorem portCredit_accrue_other {b : Shaper} {p : Nat} (s : State) (h : b ≠ .port p) :
    sget 0 p (Shaper.accrue b s).tpk.portCredit = sget 0 p s.tpk.portCredit := by
  have hset : ∀ v, sget 0 p (b.setCredit v s).tpk.portCredit = sget 0 p s.tpk.portCredit := fun v => by
    cases b with
    | port q => exact sget_sset_other _ _ _ _ _ _ fun e => h (e ▸ rfl)
    | service k => rfl
    | sub n => rfl
  unfold Shaper.accrue
  split
  · rfl
  · split
    · exact hset _
    · split
      · exact hset _
      · rfl

theorem rgHeld_congr {s t : State} {r i : Nat} (hr : rg r i t = rg r i s) (he : t.heldEdge = s.heldEdge)
    (hh : t.held = s.held) (hm : t.mp = s.mp) : rgHeld r i t = rgHeld r i s := by
  rw [rgHeld, rgHeld, edgeNow, edgeNow, hr, he, hh, hm]

/-- What the accrual of a port reads. -/
structure SameShaping (p : Nat) (s t : State) : Prop where
  cfg : rg TPK_P_CFG p t = rg TPK_P_CFG p s
  rate : rg TPK_P_RATE p t = rg TPK_P_RATE p s
  burst : rg TPK_P_BURST p t = rg TPK_P_BURST p s
  heldEdge : t.heldEdge = s.heldEdge
  held : t.held = s.held
  mp : t.mp = s.mp
  jct : t.jct = s.jct

theorem SameShaping.accrued {p : Nat} {s t : State} (h : SameShaping p s t) (v : Int) :
    portAccrued p t v = portAccrued p s v := by
  have hholds : portHolds p (fun _ => true) t = portHolds p (fun _ => true) s := by
    simp only [portHolds, jqueue, h.jct]
  unfold portAccrued
  rw [rgHeldF, rgHeldF, rgF, rgF, rgHeld_congr h.cfg h.heldEdge h.held h.mp,
    rgHeld_congr h.rate h.heldEdge h.held h.mp, rgHeld_congr h.burst h.heldEdge h.held h.mp, h.cfg, h.burst, hholds]

theorem SameShaping.after {p : Nat} {s t u : State} (h : SameShaping p s t) (ho : OnlyIn ⟨[.tpk], 23⟩ t u) :
    SameShaping p s u where
  cfg := (rg_congr (ho.keeps .regs) _ _).trans h.cfg
  rate := (rg_congr (ho.keeps .regs) _ _).trans h.rate
  burst := (rg_congr (ho.keeps .regs) _ _).trans h.burst
  heldEdge := (ho.keeps .heldEdge).trans h.heldEdge
  held := (ho.keeps .held).trans h.held
  mp := (ho.keeps .mp).trans h.mp
  jct := (ho.keeps .jct).trans h.jct

theorem onlyIn_accrue (b : Shaper) (s : State) : OnlyIn ⟨[.tpk], 23⟩ s (b.accrue s) :=
  .of fun _ _ => (OnlyIn.refl s).shaperAccrue

theorem onlyIn_accrueAll (l : List Nat) (b : Nat → Shaper) (s : State) :
    OnlyIn ⟨[.tpk], 23⟩ s (forEach l (fun n => (b n).accrue) s) :=
  .of fun _ _ => (OnlyIn.refl s).forEach fun _ _ h => h.shaperAccrue

/-- The walk over the ports' shapers moves each enabled one's credit once. -/
theorem portCredit_accruePorts {p : Nat} (hp : p < 132) {s : State} (hwf : keysRise 0 s.regs = true) :
    sget 0 p (forEach (listedInsts TPK_P_CFG s.regs) (fun p => Shaper.accrue (.port p)) s).tpk.portCredit =
      portAccrued p s (sget 0 p s.tpk.portCredit) := by
  have h := forEach_once (nodup_listedInsts TPK_P_CFG hwf) (f := fun p => Shaper.accrue (.port p))
    (SameShaping p s) (v := fun t => sget 0 p t.tpk.portCredit) (g := portAccrued p s) (p := p)
    (fun q t h => h.after (onlyIn_accrue _ _)) (fun t h => (portCredit_accrue p t).trans (h.accrued _))
    (fun q t _ hq => portCredit_accrue_other t fun e => hq (Shaper.port.inj e)) (s := s)
    ⟨rfl, rfl, rfl, rfl, rfl, rfl, rfl⟩
  refine h.trans ?_
  split
  · rfl
  · next hm =>
    have hcfg : bit (rg TPK_P_CFG p s) 8 = false := by
      rw [rg, sget_unlisted (by omega) hm, regReset_eq (by decide) (by omega)]
      rfl
    exact (if_pos (.inl hcfg)).symm

theorem rg_raiseSrc_before {src r i : Nat} (s : State) (h : rkey r i < rkey FLT_SEL 0) :
    rg r i (raiseSrc src s) = rg r i s := by
  obtain ⟨hsticky, hcnt, hcls⟩ := rkey_before_collector (src / 32) h
  rw [rg_raiseSrc src r i s hcnt hcls, setSticky, rg_setRg_other _ _ _ _ _ _ hsticky]

/-- A MAC's counter leaves the registers of the blocks between the MACs and the collector. -/
theorem rg_macBump {r i c p : Nat} (s : State) (hr : 0x9000 ≤ r) (hr' : r < FLT_SEL) (hi : i < 2 ^ 24) (hc : c < 64)
    (hp : p < 132) : rg r i (macBump c p s) = rg r i s := by
  have hcol : rkey r i < rkey FLT_SEL 0 := rkey_lt_collector hr' hi
  have hset : ∀ (c' : Nat) (v : Word) (t : State), c' < 0x9000 → rg r i (setRg c' p v t) = rg r i t :=
    fun c' v t h => rg_setRg_other _ _ _ _ _ _ (rkey_ne_of_lt (by omega) hi (by omega))
  have hcnt : ∀ t, rg r i (setRg (MAC_CNT + 4 * c) p (rg (MAC_CNT + 4 * c) p s + w32 1) t) = rg r i t :=
    fun t => hset _ _ _ (show 0x08200 + 4 * c < 0x9000 by omega)
  have hhalf : ∀ t, rg r i (setHalf p c t) = rg r i t := fun t => by
    unfold setHalf
    extract_lets h u
    have hu : rg r i u = rg r i t := hset _ _ _ (show (if c < 32 then MAC_HALF0 else MAC_HALF1) < 0x9000 by
      split <;> decide)
    have hne : r ≠ TRK_CAUSE := fun e => absurd (e ▸ hr') (by decide)
    split
    · rfl
    · split
      · exact (rg_raiseSrc_before u hcol).trans hu
      · exact (rg_setCause_other (rkey_ne_of_lt hne hi (by omega)) hcol).trans hu
  unfold macBump macAdd
  extract_lets old u
  split
  · exact (hhalf u).trans (hcnt s)
  · exact hcnt s

/-- The MACs with a held class count the microsecond (R202). -/
def heldCounted (s : State) : State :=
  forEach ((List.range 132).filter fun p => (List.range 8).any fun c => classHeld p c s) (macBump 42) s

theorem onlyIn_heldCounted (s : State) : OnlyIn ⟨[.regs, .flt], 8⟩ s (heldCounted s) :=
  .of fun _ _ => (OnlyIn.refl s).forEach fun _ _ h => h.macBump

theorem kept_heldCounted (s : State) : Kept s (heldCounted s) := (Kept.refl s).forEach fun _ _ h => h.macBump

theorem rg_heldCounted {r i : Nat} (s : State) (hr : 0x9000 ≤ r) (hr' : r < FLT_SEL) (hi : i < 2 ^ 24) :
    rg r i (heldCounted s) = rg r i s :=
  forEach_keeps (fun t => rg r i t = rg r i s) _ _ s (fun p hp t ht => by
    rw [rg_macBump t hr hr' hi (by decide) (List.mem_range.1 (List.mem_of_mem_filter hp))]
    exact ht) rfl

theorem sameShaping_heldCounted {p : Nat} (hp : p < 132) (s : State) : SameShaping p s (heldCounted s) :=
  have ho := onlyIn_heldCounted s
  ⟨rg_heldCounted s (by decide) (by decide) (by omega), rg_heldCounted s (by decide) (by decide) (by omega),
    rg_heldCounted s (by decide) (by decide) (by omega), ho.keeps .heldEdge, ho.keeps .held, ho.keeps .mp,
    ho.keeps .jct⟩

theorem shaperAccrual_reset {s : State} (h : inReset 197 s = true) : shaperAccrual s = heldCounted s :=
  if_pos (((onlyIn_heldCounted s).inReset 197).trans h)

/-- The microsecond of the subscribers' and services' shapers. -/
def servicesAccrued (s : State) : State :=
  forEach (listedInsts TPK_S_CFG (forEach (listedInsts TPK_SUB_CFG s.regs) (fun n => Shaper.accrue (.sub n)) s).regs)
    (fun k => Shaper.accrue (.service k))
    (forEach (listedInsts TPK_SUB_CFG s.regs) (fun n => Shaper.accrue (.sub n)) s)

theorem onlyIn_servicesAccrued (s : State) : OnlyIn ⟨[.tpk], 23⟩ s (servicesAccrued s) :=
  (onlyIn_accrueAll _ .sub s).trans (onlyIn_accrueAll _ .service _)

theorem portCredit_servicesAccrued (p : Nat) (s : State) :
    sget 0 p (servicesAccrued s).tpk.portCredit = sget 0 p s.tpk.portCredit :=
  have h : ∀ (l : List Nat) (b : Nat → Shaper) (_ : ∀ n, b n ≠ .port p) (t : State),
      sget 0 p (forEach l (fun n => (b n).accrue) t).tpk.portCredit = sget 0 p t.tpk.portCredit := fun l b hb t =>
    forEach_keeps (fun u => sget 0 p u.tpk.portCredit = sget 0 p t.tpk.portCredit) _ _ t
      (fun n _ u hu => (portCredit_accrue_other u (hb n)).trans hu) rfl
  (h _ .service (fun _ => by simp) _).trans (h _ .sub (fun _ => by simp) s)

theorem shaperAccrual_running {s : State} (h : inReset 197 s = false) :
    shaperAccrual s = forEach (listedInsts TPK_P_CFG (servicesAccrued (heldCounted s)).regs)
      (fun p => Shaper.accrue (.port p)) (servicesAccrued (heldCounted s)) :=
  if_neg (by
    rw [show inReset 197 (forEach _ (macBump 42) s) = _ from (onlyIn_heldCounted s).inReset 197, h]
    simp)

theorem portCredit_shaperAccrual {p : Nat} (hp : p < 132) {s : State} (hwf : State.wf s = true)
    (h : inReset 197 s = false) :
    sget 0 p (shaperAccrual s).tpk.portCredit = portAccrued p s (sget 0 p s.tpk.portCredit) := by
  have hregs : Registers.wf s.regs = true := (Bool.and_eq_true_iff.1 hwf).2
  have hw : Registers.wf (servicesAccrued (heldCounted s)).regs = true := by
    rw [(onlyIn_servicesAccrued _).keeps .regs]
    exact (kept_heldCounted s).regs hregs
  rw [shaperAccrual_running h, portCredit_accruePorts hp (Bool.and_eq_true_iff.1 hw).1, portCredit_servicesAccrued,
    ((sameShaping_heldCounted hp s).after (onlyIn_servicesAccrued _)).accrued, (onlyIn_heldCounted s).keeps .tpk]

theorem onlyIn_shaperAccrual (s : State) : OnlyIn ⟨[.regs, .tpk, .flt], 8⟩ s (shaperAccrual s) := by
  cases h : inReset 197 s with
  | true => exact (shaperAccrual_reset h).symm ▸ (onlyIn_heldCounted s).mono
  | false =>
    rw [shaperAccrual_running h]
    exact (onlyIn_heldCounted s).mono.trans ((onlyIn_servicesAccrued _).mono.trans (onlyIn_accrueAll _ .port _).mono)

/-! ### Tolls (R244) -/

/-- An accrual of one Toll. -/
def tollAccrue (i : Nat) (s : State) : State :=
  setTollC i (tollC i s + (rg TPK_TOLL_CIR i s).toNat)
    (setTollP i (tollP i s + max (rg TPK_TOLL_PIR i s).toNat (rg TPK_TOLL_CIR i s).toNat) s)

theorem tolls_accrue (i : Nat) (s : State) : (tollC i (tollAccrue i s), tollP i (tollAccrue i s)) =
    (min (tollC i s + (rg TPK_TOLL_CIR i s).toNat) (tollCap TPK_TOLL_CBS i s),
      min (tollP i s + max (rg TPK_TOLL_PIR i s).toNat (rg TPK_TOLL_CIR i s).toNat) (tollCap TPK_TOLL_PBS i s)) :=
  Prod.ext (sget_sset_same _ _ _ _) (sget_sset_same _ _ _ _)

theorem tolls_accrue_other {i j : Nat} (s : State) (h : j ≠ i) :
    (tollC i (tollAccrue j s), tollP i (tollAccrue j s)) = (tollC i s, tollP i s) :=
  Prod.ext (sget_sset_other _ _ _ _ _ _ h.symm) (sget_sset_other _ _ _ _ _ _ h.symm)

theorem onlyIn_tollAccrue (i : Nat) (s : State) : OnlyIn ⟨[.tpk], 23⟩ s (tollAccrue i s) :=
  .of fun _ _ => (OnlyIn.refl s).setTollP.setTollC

/-- The Tolls that have a rate. -/
def ratedTolls (s : State) : List Nat :=
  listedInsts TPK_TOLL_CIR s.regs ++
    (listedInsts TPK_TOLL_PIR s.regs).filter fun i => !(listedInsts TPK_TOLL_CIR s.regs).contains i

theorem tollAccrual_running {s : State} (h : inReset 197 s = false) :
    tollAccrual s = forEach (ratedTolls s) tollAccrue s := if_neg (by simp [h])

theorem nodup_ratedTolls {s : State} (h : keysRise 0 s.regs = true) : (ratedTolls s).Nodup := by
  refine List.nodup_append.2 ⟨nodup_listedInsts _ h, (nodup_listedInsts _ h).filter _, fun a ha b hb => ?_⟩
  rintro rfl
  simpa [ha] using (List.mem_filter.1 hb).2

theorem mem_ratedTolls {i : Nat} {s : State} (hi : i < 2 ^ 24)
    (h : rg TPK_TOLL_CIR i s ≠ 0 ∨ rg TPK_TOLL_PIR i s ≠ 0) : i ∈ ratedTolls s := by
  have hlisted : ∀ r, r ≠ ROA_SRC → w32 (regRow r).reset = 0 → rg r i s ≠ 0 → i ∈ listedInsts r s.regs :=
    fun r hr h0 hne => by
      by_contra hm
      rw [rg, sget_unlisted hi hm, regReset_eq hr hi] at hne
      exact hne h0
  rw [ratedTolls, List.mem_append, List.mem_filter]
  by_cases hc : i ∈ listedInsts TPK_TOLL_CIR s.regs
  · exact .inl hc
  · refine .inr ⟨?_, by simpa using hc⟩
    refine hlisted _ (by decide) rfl (h.resolve_left fun hne => hc (hlisted _ (by decide) rfl hne))

theorem tolls_tollAccrual {i : Nat} (hi : i < 2 ^ 24) {s : State} (hwf : State.wf s = true)
    (hr : inReset 197 s = false) (h : rg TPK_TOLL_CIR i s ≠ 0 ∨ rg TPK_TOLL_PIR i s ≠ 0) :
    (tollC i (tollAccrual s), tollP i (tollAccrual s)) =
    (min (tollC i s + (rg TPK_TOLL_CIR i s).toNat) (tollCap TPK_TOLL_CBS i s),
      min (tollP i s + max (rg TPK_TOLL_PIR i s).toNat (rg TPK_TOLL_CIR i s).toNat) (tollCap TPK_TOLL_PBS i s)) := by
  have hregs : keysRise 0 s.regs = true := (Bool.and_eq_true_iff.1 (Bool.and_eq_true_iff.1 hwf).2).1
  have hone := forEach_once (nodup_ratedTolls hregs) (f := tollAccrue) (fun t => t.regs = s.regs)
    (v := fun t => (tollC i t, tollP i t)) (p := i)
    (g := fun v => (min (v.1 + (rg TPK_TOLL_CIR i s).toNat) (tollCap TPK_TOLL_CBS i s),
      min (v.2 + max (rg TPK_TOLL_PIR i s).toNat (rg TPK_TOLL_CIR i s).toNat) (tollCap TPK_TOLL_PBS i s)))
    (fun q t ht => ((onlyIn_tollAccrue q t).keeps .regs).trans ht)
    (fun t ht => by
      rw [tolls_accrue, rg_congr ht, rg_congr ht, tollCap, tollCap, rgF, rgF, rg_congr ht, rg_congr ht]
      rfl)
    (fun q t _ hq => tolls_accrue_other t hq) (s := s) rfl
  rw [tollAccrual_running hr]
  exact hone.trans (if_pos (mem_ratedTolls hi h))

/-! ### The subscriber map (R239) -/

section
variable {q : Path} {v : Word} {s : State}

/-- The data word of an entry of the map. -/
def mapEntryWord (x : BitVec 13) : Word := w32 (fld x 12 12 * 2 ^ 31 + fld x 11 0)

/-- An entry read into the path's data word. -/
def mapRead (q : Nat) (v x : Word) (s : State) : State :=
  setRg TPK_MAP_STAT q 0 (setRg TPK_MAP_DATA q x (setRg TPK_MAP_CMD q (v &&& 0x40FF00FF) s))

theorem rg_mapRead (q : Path) (v x : Word) (s : State) :
    rg TPK_MAP_STAT q (mapRead q v x s) = 0 ∧ rg TPK_MAP_DATA q (mapRead q v x s) = x :=
  ⟨rg_setRg_same _ _ _ _, (rg_setRg_other _ _ _ _ _ _ (rkey_path_ne q (by decide))).trans (rg_setRg_same _ _ _ _)⟩

theorem onlyIn_mapRead (q : Nat) (v x : Word) (s : State) : OnlyIn ⟨[.regs], 10⟩ s (mapRead q v x s) :=
  .of fun _ _ => (OnlyIn.refl s).setRg.setRg.setRg

theorem mapCmdWrite_ignored (h : writable q TPK_MAP_CMD 0 s = false) : mapCmdWrite q v s = s :=
  if_pos (by simp [h])

theorem mapCmdWrite_stored (h : writable q TPK_MAP_CMD 0 s = true) (hgo : bit v 31 = false) :
    mapCmdWrite q v s = setRg TPK_MAP_CMD q (v &&& 0x40FF00FF) s :=
  (if_neg (by simp [h])).trans (if_pos (by simp [hgo]))

section
variable (h : writable q TPK_MAP_CMD 0 s = true) (hgo : bit v 31 = true)
include h hgo

theorem mapCmdWrite_nowhere (hn : 132 ≤ fld v 23 16 ∨ 200 ≤ fld v 7 0) :
    mapCmdWrite q v s = setRg TPK_MAP_STAT q 2 (setRg TPK_MAP_CMD q (v &&& 0x40FF00FF) s) :=
  (if_neg (by simp [h])).trans ((if_neg (by simp [hgo])).trans (if_pos hn))

section
variable (he : fld v 23 16 < 132) (hi : fld v 7 0 < 200)
include he hi

theorem mapCmdWrite_read (hr : bit v 30 = false) :
    mapCmdWrite q v s = mapRead q v (mapEntryWord (sget 0 (fld v 23 16 * 200 + fld v 7 0) s.tpk.map)) s :=
  (if_neg (by simp [h])).trans ((if_neg (by simp [hgo])).trans ((if_neg (by omega)).trans (if_pos (by simp [hr]))))

/-- A write of an entry once its command is stored. -/
def mapWritten (q e i : Nat) (s : State) : State :=
  if bit (rg TPK_MAP_DATA q s) 31 ∧ rgF TPK_SUB_CFG (fld (rg TPK_MAP_DATA q s) 11 0) 7 0 s ≠ e then
    setCause TPK_CAUSE 0 7 (setRg TPK_MAP_STAT q 4 s)
  else
    setRg TPK_MAP_STAT q 0 { s with tpk := { s.tpk with
      map := sset 0 (e * 200 + i)
        (BitVec.ofNat 13 (fld (rg TPK_MAP_DATA q s) 31 31 * 4096 + fld (rg TPK_MAP_DATA q s) 11 0)) s.tpk.map } }

theorem mapCmdWrite_write (hw : bit v 30 = true) :
    mapCmdWrite q v s =
      mapWritten q (fld v 23 16) (fld v 7 0) (setRg TPK_MAP_CMD q (v &&& 0x40FF00FF) s) :=
  (if_neg (by simp [h])).trans ((if_neg (by simp [hgo])).trans ((if_neg (by omega)).trans (if_neg (by simp [hw]))))

end

end

/-- The command word leaves the words that a write of an entry reads. -/
theorem mapWords_command (x : Word) (n : Nat) (hn : n < 4096) :
    rg TPK_MAP_DATA q (setRg TPK_MAP_CMD q x s) = rg TPK_MAP_DATA q s ∧
      rgF TPK_SUB_CFG n 7 0 (setRg TPK_MAP_CMD q x s) = rgF TPK_SUB_CFG n 7 0 s :=
  ⟨rg_setRg_other _ _ _ _ _ _ (rkey_path_ne q (by decide)), by
    rw [rgF, rgF, rg_setRg_other _ _ _ _ _ _ (rkey_ne_of_lt (by decide) (by omega) (by omega))]⟩

theorem mapWritten_taken {e i : Nat} (h : bit (rg TPK_MAP_DATA q s) 31 = false ∨
    rgF TPK_SUB_CFG (fld (rg TPK_MAP_DATA q s) 11 0) 7 0 s = e) :
    rg TPK_MAP_STAT q (mapWritten q e i s) = 0 ∧ (mapWritten q e i s).tpk.map = sset 0 (e * 200 + i)
      (BitVec.ofNat 13 (fld (rg TPK_MAP_DATA q s) 31 31 * 4096 + fld (rg TPK_MAP_DATA q s) 11 0)) s.tpk.map := by
  unfold mapWritten
  rw [if_neg fun hx => h.elim (fun h => by simp [h] at hx) hx.2]
  exact ⟨rg_setRg_same _ _ _ _, rfl⟩

theorem onlyIn_refused (s : State) :
    OnlyIn ⟨[.regs, .flt], 10⟩ s (setCause TPK_CAUSE 0 7 (setRg TPK_MAP_STAT q 4 s)) :=
  .of fun _ _ => (OnlyIn.refl s).setRg.setCause

theorem mapWritten_refused {e i : Nat} (hd : bit (rg TPK_MAP_DATA q s) 31 = true)
    (h : rgF TPK_SUB_CFG (fld (rg TPK_MAP_DATA q s) 11 0) 7 0 s ≠ e) :
    rg TPK_MAP_STAT q (mapWritten q e i s) = 4 ∧ (mapWritten q e i s).tpk = s.tpk ∧
      bit (rg TPK_CAUSE 0 (mapWritten q e i s)) 7 = true := by
  unfold mapWritten
  rw [if_pos ⟨hd, h⟩]
  refine ⟨?_, (onlyIn_refused s).keeps .tpk, ?_⟩
  · rw [rg_setCause_other (rkey_ne_of_lt (by decide) (by omega) (by decide)) (rkey_lt_collector (by decide) (by omega)),
      rg_setRg_same]
  · exact bit_setCause_same (by decide) (by decide)

theorem mem_mapWritten (e i : Nat) : (mapWritten q e i s).mem = s.mem := by
  unfold mapWritten
  split
  · exact (onlyIn_refused s).keeps .mem
  · rfl

end

/-- A port hands over the one eligible head of its highest strict class. -/
theorem turnpikeSelect_hands {p : Nat} {b : Copy} {f : JFrame} {s : State} (hp : p < 132)
    (hd : scheduleDue p s = false) (hready : portReady p s = true) (hh : handed p s = none)
    (hr : (macRun p s).responseDue = false) (hpause : (macRun p s).pauseReq = none) (hsus : suspended p s = none)
    (hfit : ∀ x ∈ portHeads p s, fitTest x s ≠ .oversize) (hmem : b ∈ portHeads p s) (he : eligible b s = true)
    (hb : b.port = p) (hc : b.cls < 8) (hstrict : bit (rg TPK_P_CFG p s) b.cls = true) (ha : overAge b s = false)
    (hlast : ∀ x ∈ portHeads p s, eligible x s = true → x = b ∨ x.cls < b.cls ∨
      x.cls ≠ b.cls ∧ bit (rg TPK_P_CFG p s) x.cls = false)
    (hf : jframe b.frame s = some f) (hn : chargeOf b f s ≤ 19136) :
    (∃ d, HandedTo b d s (turnpikeSelect p ⟨.ok, 0⟩ s)) ∧
      rgF TPK_S_TX (p * 8 + b.cls) 31 0 (turnpikeSelect p ⟨.ok, 0⟩ s) =
        (rgF TPK_S_TX (p * 8 + b.cls) 31 0 s + 1) % 2 ^ 32 := by
  obtain ⟨d, hd'⟩ := chooseCopy_strict (p := p) (List.mem_filter.2 ⟨hmem, he⟩) hc hstrict
    (fun x hx => hlast x (List.mem_filter.1 hx).1 (List.mem_filter.1 hx).2) hf hn
  have hsel : turnpikeSelect p ⟨.ok, 0⟩ s = handCopy b (putService p b.cls d s) := by
    rw [turnpikeSelect_external hp hd, if_pos (by simp [hh]), handedAnswer_ok,
      selectExternal_serves hr hready hh hpause hsus hfit, serve_first ha hd']
  subst hb
  obtain ⟨⟨c, hc'⟩, htx⟩ := handedTo_handCopy (s := putService b.port b.cls d s) hf hp hc
  rw [hsel]
  exact ⟨⟨c, hc'.frame, hc'.cls, hc'.sub, hc'.handed, hc'.others, ⟨fun q hq => by
    have := hc'.only.parts q hq
    cases q
    case tpk => exact (hq (by decide)).elim
    all_goals exact this, hc'.only.below⟩⟩, htx⟩

/-- Settles O43: the branches of a selection, the walks of the two accruals, and the map command. -/
theorem turnpikeServesAndShapes : Obligations.TurnpikeServesAndShapes := by
  refine ⟨⟨fun p b f s hp hd hready hh hr hpause hsus hfit hmem he hb hc hstrict ha hlast hf hn => ?_,
    fun p x c s hp hd hready hh hr hfit => ?_, fun p x s hp hr h => ?_,
    fun p k c q s hp h1 h2 hh hq hacc ha hte hlast => ?_, fun p x s h => ?_⟩,
    fun p s hwf hr => ?_, fun s hr => ?_, fun i s hwf hr h => ?_, fun s hr => congrArg Host.Outcome.next (if_pos hr),
    fun q v s hw hgo c hc => ?_, fun q v s c hc => ?_⟩
  · obtain ⟨⟨d, hd'⟩, htx⟩ := turnpikeSelect_hands hp hd hready hh hr hpause hsus hfit hmem he hb hc hstrict ha hlast
      hf hn
    exact ⟨_, d, rfl, hb ▸ hd'.handed, hd'.frame, hd'.cls, hd'.sub, htx,
      fun r hne => hd'.others r fun e => hne (Fin.ext (e.trans hb)), hd'.only.keeps .mem, hd'.only.keeps .lanes⟩
  · refine congrArg Host.Outcome.next ?_
    rw [turnpikeSelect_external hp hd, if_neg (by simp [hh]), selectExternal_busy hr hready hh hfit]
  · refine congrArg Host.Outcome.next ?_
    cases hd : scheduleDue p s with
    | true => exact (if_pos hp).trans (if_pos hd)
    | false =>
      rw [turnpikeSelect_external hp hd, selectExternal_quiet hr (h.resolve_left (by simp [hd]))]
      split
      · next hn => exact handedAnswer_none (Option.isNone_iff_eq_none.1 hn)
      · rfl
  · have hsel := selectInternal_takes (portCopies p s) hh hq hacc ha hlast
    have hboth : ∀ x, turnpikeSelect p x s = handedAnswer p x (setHanded p (some c) (takeCopy c s)) := fun x => by
      rw [turnpikeSelect_internal hp h1 h2, if_pos (by simp [hh]), hsel]
    refine ⟨congrArg Host.Outcome.next ((hboth _).trans (handedAnswer_ok _ _ _)),
      congrArg Host.Outcome.next ((hboth _).trans ?_)⟩
    simp only [handedAnswer, handed_setHanded, if_true, hte, Option.isSome_none, Bool.false_eq_true, if_false]
  · refine congrArg Host.Outcome.next ?_
    obtain h | ⟨h, hx⟩ | ⟨hp, h1, hh⟩ := h
    · unfold turnpikeSelect
      simp [h]
    · have hq : queuedAnswer x s = s := by
        unfold queuedAnswer
        split
        · rfl
        · rw [hx]; rfl
      unfold turnpikeSelect
      simp [h, hq]
    · by_cases h2 : p.val = 198
      · unfold turnpikeSelect
        simp [h2]
      · rw [turnpikeSelect_internal hp h1 h2, if_neg (by simpa using hh), selectInternal_busy _ hh]
  · have ho := onlyIn_shaperAccrual s
    exact ⟨_, rfl, portCredit_shaperAccrual p.isLt hwf hr, ho.keeps .mem, ho.keeps .jct, ho.keeps .lanes⟩
  · have ho := onlyIn_heldCounted s
    exact ⟨_, congrArg Host.Outcome.next (shaperAccrual_reset hr), ho.keeps .tpk, ho.keeps .mem, ho.keeps .jct,
      ho.keeps .lanes⟩
  · obtain ⟨hC, hP⟩ := Prod.mk.inj (tolls_tollAccrual (Nat.lt_trans i.isLt (by decide)) hwf hr h)
    have ho : OnlyIn ⟨[.tpk], 23⟩ s (tollAccrual s) := .of fun _ _ => (OnlyIn.refl s).tollAccrual
    exact ⟨_, rfl, hC, hP, ho.keeps .regs, ho.keeps .mem, ho.keeps .jct⟩
  · have hex : exec c s = .next (mapCmdWrite q v s) := by
      obtain rfl | rfl : c = .tpkMapRead q v ∨ c = .tpkMapWrite q v := by simpa using hc
      · rfl
      · rfl
    rw [hex]
    refine ⟨fun he hi => ⟨fun hr => ?_, fun hwr => ?_⟩, fun hn => congrArg Host.Outcome.next
      (mapCmdWrite_nowhere hw hgo hn)⟩
    · obtain ⟨hstat, hdata⟩ := rg_mapRead q v (mapEntryWord (sget 0 (fld v 23 16 * 200 + fld v 7 0) s.tpk.map)) s
      have ho := onlyIn_mapRead q v (mapEntryWord (sget 0 (fld v 23 16 * 200 + fld v 7 0) s.tpk.map)) s
      exact ⟨_, congrArg Host.Outcome.next (mapCmdWrite_read hw hgo he hi hr), hstat, hdata, ho.keeps .tpk,
        ho.keeps .mem⟩
    · obtain ⟨hdata, hsub⟩ := mapWords_command (q := q) (s := s) (v &&& 0x40FF00FF) (fld (rg TPK_MAP_DATA q s) 11 0)
        (Nat.mod_lt _ (by decide))
      refine ⟨_, congrArg Host.Outcome.next (mapCmdWrite_write hw hgo he hi hwr), mem_mapWritten _ _, fun h => ?_,
        fun hx hy => ?_⟩
      · have := mapWritten_taken (q := q) (s := setRg TPK_MAP_CMD q (v &&& 0x40FF00FF) s) (e := fld v 23 16)
          (i := fld v 7 0) (by rw [hdata, hsub]; exact h)
        rwa [hdata] at this
      · exact mapWritten_refused (by rw [hdata]; exact hx) (by rw [hdata, hsub]; exact hy)
  · have hex : exec c s = .next (mapCmdWrite q v s) := by
      obtain rfl | rfl : c = .tpkMapRead q v ∨ c = .tpkMapWrite q v := by simpa using hc
      · rfl
      · rfl
    rw [hex]
    exact ⟨fun hw hgo => congrArg Host.Outcome.next (mapCmdWrite_stored hw hgo),
      fun hw => congrArg Host.Outcome.next (mapCmdWrite_ignored hw)⟩

end Sys2Proof.Machine
end

section
/-! PROOF. O55 fails: the collector's queue may hold an occurrence whose class is none of the eight, and the lost mark of
that class then stands at the key of a session's epoch. -/

set_option Elab.async false

namespace Sys2Proof.Machine

open Sys2Proof

/-- The class whose mark of lost occurrences stands at the key of session 0's epoch. -/
def strayClass : Nat := (WPT_S_EPOCH - FLT_CLS_CNT) * 2 ^ 24

theorem rkey_strayClass : rkey FLT_CLS_CNT strayClass = rkey WPT_S_EPOCH 0 := by decide

/-- An occurrence of that class, of the first edge. -/
def strayOccurrence : Occurrence := { src := 2000, cls := strayClass, time := 0, forced := false, count := 0, edge := 1 }

/-- An opening of session 0 with the nonce 1 to 8, under the empty key. -/
def openingFrame : JFrame :=
  { id := 0,
    bytes := [0, 0, 0, 0, 0, 0, 0, 0, 0, 0, 0, 0, 0x88, 0xB5, 1, 1, 0, 2, 0, 0, 0, 0, 0, 0, 0, 0, 0, 8, 0, 0,
      1, 2, 3, 4, 5, 6, 7, 8, 13, 163, 199, 96, 246, 237, 48, 156, 64, 152, 201, 25, 223, 230, 47, 91],
    src := 128, cls := 7, ts := 0, arrived := 0, cells := 1, refs := 1, length := 58 }

/-- Its message. -/
def openingMessage : WpArrival :=
  { trunk := 0, peer := { mac := 0 }, msg := openingFrame.bytes.drop 14, padded := true }

/-- The opening waits at the endpoint, Junction is in reset, and the collector's queue is full of occurrences of the class
that is none. -/
def strayOpening : State :=
  { setRg (SYS_RST_STAT + 4 * 6) 0 16 (setRg TRK_STAT 0 1 (setRg WPT_S_CFG 0 0x80000033 State.reset)) with
    jct := { State.reset.jct with frames := [openingFrame] },
    tpk := { State.reset.tpk with handed := [(199, some { frame := 0, port := 199, cls := 7, sub := 4096 })] },
    flt := { State.reset.flt with queue := List.replicate 256 strayOccurrence },
    wpt := { State.reset.wpt with sessions := [(0, { key := some [] })] } }

theorem strayOpening_epoch :
    rg WPT_S_EPOCH 0 (receiveWaypost (isOpening strayOpening) strayOpening) = 1 := by decide +kernel

/-- Refutes O55: the answer to the opening is lost in Junction's reset, the cause of that loss finds the collector's queue
full, and the mark of the occurrence that drops out changes the epoch of session 0 from 0 to 1. -/
theorem not_waypostFramesAreCheckedAndQueued : ¬ Obligations.WaypostFramesAreCheckedAndQueued := by
  rintro ⟨-, -, hframe, -⟩
  obtain ⟨-, -, hopen, -⟩ := (hframe openingFrame strayOpening (by decide +kernel)).2 (by decide +kernel)
    (by decide +kernel)
  obtain ⟨-, -, -, h⟩ := hopen openingMessage [] (by rfl) (by decide +kernel) (by decide +kernel) (by decide +kernel)
  obtain ⟨t, e, ht, -, -, -, hepoch, -⟩ := h (by decide +kernel) (by decide +kernel) (by decide +kernel)
    (by decide +kernel) (by decide +kernel) (by decide +kernel) (by decide +kernel) (by decide +kernel)
    (by decide +kernel)
  obtain rfl : receiveWaypost (isOpening strayOpening) strayOpening = t := Host.Outcome.next.inj ht
  exact absurd (strayOpening_epoch.symm.trans hepoch) (by decide +kernel)

end Sys2Proof.Machine
end

section
/-! PROOF. O56 fails: the mark of a lost occurrence of a class that is none of the eight may stand at the key of the
count of late answers. -/

set_option Elab.async false

namespace Sys2Proof.Machine

open Sys2Proof

/-- The class whose mark of lost occurrences stands at the key of the LM64 counts. -/
def strayCountClass : Nat := (WPT_LM64_CNT - FLT_CLS_CNT) * 2 ^ 24

theorem rkey_strayCountClass : rkey FLT_CLS_CNT strayCountClass = rkey WPT_LM64_CNT 0 := by decide

/-- One late answer is counted, another is to come, and the collector's queue is full of occurrences of the class that is
none. -/
def strayLate : State :=
  { setRg WPT_LM64_CNT 0 1 State.reset with
    flt := { State.reset.flt with queue := List.replicate 256 { strayOccurrence with cls := strayCountClass } },
    wpt := { State.reset.wpt with lateTxns := [[]] } }

theorem strayLate_count : rgF WPT_LM64_CNT 0 15 0 (lm64LateAnswer strayLate) = 3 := by decide +kernel

/-- Refutes O56: the second late answer makes the count 2, and the occurrence that its cause pushes out of the collector's
full queue leaves its mark in bit 0, so that the count reads 3. -/
theorem not_hostRequestsAreCarriedOutInTurn : ¬ Obligations.HostRequestsAreCarriedOutInTurn := by
  rintro ⟨-, -, -, hlate, -⟩
  obtain ⟨t, ht, -, -, hcount⟩ := hlate [] [] strayLate (by decide +kernel)
  obtain rfl : lm64LateAnswer strayLate = t := Host.Outcome.next.inj ht
  exact absurd (strayLate_count.symm.trans hcount) (by decide +kernel)

end Sys2Proof.Machine
end

section
/-! PROOF. O57 fails: the mark of a lost occurrence of a class that is none of the eight may stand at the key of the
record of the last refused image. -/

set_option Elab.async false

namespace Sys2Proof.Machine

open Sys2Proof

/-- The class whose mark of lost occurrences stands at the key of IMG_LAST. -/
def strayImageClass : Nat := (IMG_LAST - FLT_CLS_CNT) * 2 ^ 24

theorem rkey_strayImageClass : rkey FLT_CLS_CNT strayImageClass = rkey IMG_LAST 0 := by decide

/-- An empty image that session 0 has committed. -/
def emptyCommit : Commit := { image := [], target := 0, who := .host 0 {} 0 0 }

/-- The empty image is being verified, and the collector's queue is full of occurrences of the class that is none. -/
def strayVerification : State :=
  { State.reset with
    flt := { State.reset.flt with queue := List.replicate 256 { strayOccurrence with cls := strayImageClass } },
    img := { State.reset.img with verifying := some emptyCommit } }

theorem checkImage_empty :
    (checkImage [] { strayVerification with img := { strayVerification.img with verifying := none } }) =
      some { code := 1 } := by
  decide +kernel

theorem strayVerification_last : rg IMG_LAST 0 (imageVerifyDone .ok strayVerification) = 0x1000001 := by decide +kernel

/-- Refutes O57: the refusal of code 1 is recorded, and the occurrence that its cause pushes out of the collector's full
queue leaves its mark in bit 0 of the record. -/
theorem not_imagesAreVerifiedAppliedAndKept : ¬ Obligations.ImagesAreVerifiedAppliedAndKept := by
  rintro ⟨hverify, -⟩
  obtain ⟨hrefused, -⟩ := hverify emptyCommit 0 {} 0 0 strayVerification (by decide +kernel) (by decide +kernel)
  obtain ⟨t, ht, -, -, hlast, -⟩ := hrefused { code := 1 } checkImage_empty
  obtain rfl : imageVerifyDone .ok strayVerification = t := Host.Outcome.next.inj ht
  exact absurd (strayVerification_last.symm.trans hlast) (by decide +kernel)

end Sys2Proof.Machine
end

section
/-! PROOF. O58: device-wide resets, and the boot to hold, to the bare state or to an image. -/

set_option Elab.async false

namespace Sys2Proof.Machine

open Sys2Proof

/-! ### What these operations write -/

namespace OnlyIn

variable {F : Scope} {s₀ s : State}

theorem with_sys {x} (h : OnlyIn F s₀ s)
    (hF : Allows F ⟨[.sys], 23⟩ := by exact Allows.mono ‹_› rfl) :
    OnlyIn F s₀ { s with sys := x } :=
  h.trans ⟨fun p hp => by
    cases p
    case sys => exact (hp (hF.1 _ (.head _))).elim
    all_goals rfl, .refl _ _⟩

theorem setInReset {f b} (h : OnlyIn F s₀ s)
    (hF : Allows F ⟨[.regs], 0⟩ := by exact Allows.mono ‹_› rfl) :
    OnlyIn F s₀ (setInReset f b s) :=
  h.setRg.ite h

theorem setSession {n r} (h : OnlyIn F s₀ s)
    (hF : Allows F ⟨[.wpt], 23⟩ := by exact Allows.mono ‹_› rfl) :
    OnlyIn F s₀ (setSession n r s) :=
  h.with_wpt

theorem bareSettings (h : OnlyIn F s₀ s)
    (hF : Allows F ⟨[.regs, .wpt], 8⟩ := by exact Allows.mono ‹_› rfl) :
    OnlyIn F s₀ (bareSettings s) := by
  unfold Machine.bareSettings
  dsimp only
  split
  · exact (h.forEach (fun _ _ h1 => h1.setRgF.setRg.setRg)).setSession.setRg
  · exact h.forEach (fun _ _ h1 => h1.setRgF.setRg.setRg)

theorem restartWatchdog {stage} (h : OnlyIn F s₀ s)
    (hF : Allows F ⟨[.regs, .sys], 0⟩ := by exact Allows.mono ‹_› rfl) :
    OnlyIn F s₀ (restartWatchdog stage s) :=
  h.with_sys.setRgF

theorem bootChannel {c x} (h : OnlyIn F s₀ s)
    (hF : Allows F ⟨[.regs, .flt], 16⟩ := by exact Allows.mono ‹_› rfl) :
    OnlyIn F s₀ (bootChannel c x s) :=
  h.setRg.ite (h.setRg.setRgF.ite h.setRg.setRgF.setCause)

theorem holdFunctions {p} (h : OnlyIn F s₀ s)
    (hF : Allows F ⟨[.regs], 0⟩ := by exact Allows.mono ‹_› rfl) :
    OnlyIn F s₀ (holdFunctions p s) :=
  h.forEach (fun _ _ h1 => h1.setInReset)

theorem enterHold (h : OnlyIn F s₀ s)
    (hF : Allows F ⟨[.regs, .sys], 0⟩ := by exact Allows.mono ‹_› rfl) :
    OnlyIn F s₀ (enterHold s) :=
  h.with_sys.holdFunctions.forEach (fun _ _ h1 => h1.onlyIf (fun _ h2 => h2.setRgF))

theorem enterBare (h : OnlyIn F s₀ s)
    (hF : Allows F ⟨[.regs, .wpt, .sys], 0⟩ := by exact Allows.mono ‹_› rfl) :
    OnlyIn F s₀ (enterBare s) :=
  h.with_sys.holdFunctions.bareSettings

end OnlyIn

/-! ### A cause that is set while the collector's queue is empty -/

theorem queue_noteOccurred (src : Nat) (rise : Bool) (s : State) :
    (noteOccurred src rise s).flt.queue = s.flt.queue := by
  unfold noteOccurred
  rfl

/-- An occurrence that pushes none out of the queue writes its sticky bit and FLT_CNT only. -/
theorem rg_occurs_spare {src r i : Nat} {forced rise : Bool} {s : State} (hq : s.flt.queue = [])
    (hs : rkey r i ≠ rkey FLT_G_STICKY (src / 32)) (hc : rkey r i ≠ rkey FLT_CNT 0) :
    rg r i (occurs src forced rise s) = rg r i s := by
  have hs1 : rg r i (setSticky src (noteOccurred src rise s)) = rg r i s :=
    (rg_setRg_other _ _ _ _ _ _ hs).trans (rg_congr ((OnlyIn.of (G := ⟨[.flt], 23⟩) fun _ _ =>
      (OnlyIn.refl s).noteOccurred).keeps .regs) _ _)
  have hq1 : (setSticky src (noteOccurred src rise s)).flt.queue = [] := by
    rw [setSticky, setRg_flt, queue_noteOccurred, hq]
  unfold occurs
  generalize setSticky src (noteOccurred src rise s) = s1 at hs1 hq1
  extract_lets x n f s2 s3 o q f2 s4
  split
  · exact hs1
  · have hq3 : s3.flt.queue = [] := by
      rw [show s3 = setRgF FLT_CNT 0 31 8 n.toNat s2 from rfl, setRgF, setRg_flt]
      exact hq1
    have hdrop : q.drop 256 = [] := by simp [q, queueOccurrence, hq3]
    rw [hdrop]
    exact (rg_setRgF_other hc : rg r i s3 = rg r i s2).trans hs1

theorem rg_setCause_spare {r i b r' i' : Nat} {s : State} (hq : s.flt.queue = []) (hne : rkey r' i' ≠ rkey r i)
    (hs : ∀ src, causeSource r i b = some src → rkey r' i' ≠ rkey FLT_G_STICKY (src / 32))
    (hc : rkey r' i' ≠ rkey FLT_CNT 0) :
    rg r' i' (setCause r i b s) = rg r' i' s := by
  have hset := rg_setRg_other r i r' i' (setBit (rg r i s) b true) s hne
  unfold setCause
  split
  · rfl
  · extract_lets s1
    have hq1 : s1.flt.queue = [] := by rw [show s1 = setRg r i _ s from rfl, setRg_flt, hq]
    split
    · next src hsrc =>
      unfold raiseSrc
      split
      · exact (rg_setRg_other _ _ _ _ _ _ (hs src hsrc)).trans hset
      · exact (rg_occurs_spare hq1 (hs src hsrc) hc).trans hset
    · exact hset

/-! ### Resets -/

/-- What a reset that is no power-on reset starts from (R436): the registers of the AO domain and the clamp counts. -/
def resetBase (s : State) : State :=
  { State.reset with
    pending := s.pending, mem := s.mem, draws := s.draws, img := fuses s.img,
    regs := sfilter (fun k => aoKeeps (k / 2 ^ 24)) s.regs,
    sys := { State.reset.sys with thermalHold := s.sys.thermalHold },
    ports := (List.range 128).foldl (fun t p => sset {} p { surgeClass := (portRun p s).surgeClass } t) [] }

/-- What a power-on reset starts from: memory, the queue of commands and what OTP and flash hold. -/
def powerBase (s : State) : State :=
  { State.reset with pending := s.pending, mem := s.mem, draws := s.draws, img := fuses s.img }

/-- The straps sampled. -/
def strapped (x : Straps) (s : State) : State :=
  setRgF TWN_STAT 0 9 8 x.rank.toNat (setRg SYS_STRAP 0 (strapWord x) s)

/-- The reset's cause set. -/
def caused (cause : Nat) (s : State) : State :=
  setCause SYS_CAUSE 0 6 (setRg SYS_RST_CAUSE 0 (setBit (rg SYS_RST_CAUSE 0 s) cause true) s)

theorem deviceReset_caused {cause : Nat} (x : Straps) (s : State) (h : cause ≠ 0) :
    deviceReset cause x s = caused cause (strapped x (resetBase s)) := by
  unfold deviceReset
  simp only [if_neg h]
  rfl

theorem deviceReset_power (x : Straps) (s : State) : deviceReset 0 x s = strapped x (powerBase s) := rfl

theorem onlyIn_strapped (x : Straps) (s : State) : OnlyIn ⟨[.regs], 0⟩ s (strapped x s) :=
  .of fun _ _ => (OnlyIn.refl s).setRg.setRgF

theorem onlyIn_caused (cause : Nat) (s : State) : OnlyIn ⟨[.regs, .flt], 0⟩ s (caused cause s) :=
  .of fun _ _ => (OnlyIn.refl s).setRg.setCause

theorem afterReset_caused {cause : Nat} (x : Straps) (s : State) (hc : cause < 32) :
    afterReset cause x s (caused cause (strapped x (resetBase s))) := by
  have ho : OnlyIn ⟨[.regs, .flt], 0⟩ (resetBase s) (caused cause (strapped x (resetBase s))) :=
    (onlyIn_strapped x _).mono.trans (onlyIn_caused cause _)
  have hq : (setRg SYS_RST_CAUSE 0 (setBit (rg SYS_RST_CAUSE 0 (strapped x (resetBase s))) cause true)
      (strapped x (resetBase s))).flt.queue = [] := rfl
  refine ⟨?_, bit_setCause_same (by decide) (by decide), ?_, ?_, ho.keeps .mem, ho.keeps .pending,
    (congrArg LoaderRun.flashA (ho.keeps .img : _ = fuses s.img) :),
    (congrArg LoaderRun.flashB (ho.keeps .img : _ = fuses s.img) :), ho.keeps .lanes,
    ho.keeps .roads, ho.keeps .jct, ho.keeps .queues⟩
  · rw [caused, rg_setCause_other (by decide) (by decide), rg_setRg_same, bit_setBit_same _ _ _ hc]
  · rw [caused, rg_setCause_other (by decide) (by decide), rg_setRg_other _ _ _ _ _ _ (by decide), strapped,
      rg_setRgF_other (by decide), rg_setRg_same]
  · rw [rgF, caused, rg_setCause_spare hq (by decide) (fun src h => ?_) (by decide),
      rg_setRg_other _ _ _ _ _ _ (by decide)]
    · exact (rgF_setRgF_same _ _ _ _ _ _ (by decide) (by decide)).trans (Nat.mod_eq_of_lt x.rank.isLt)
    · obtain rfl : 2006 = src := Option.some.inj h
      decide

/-! ### The boot (R439-R442) -/

theorem sget_sfilter {α : Type} (d : α) (p : Nat → Bool) (k : Nat) (l : Sparse α) :
    sget d k (sfilter p l) = if p k then sget d k l else d := by
  induction l with
  | nil => simp [sfilter, sget]
  | cons x t ih =>
    obtain ⟨j, v⟩ := x
    by_cases hp : p j = true
    · rw [sfilter, if_pos hp, sget, sget, ih]
      by_cases hj : j = k
      · rw [if_pos hj, if_pos hj, if_pos (hj ▸ hp)]
      · rw [if_neg hj, if_neg hj]
    · rw [sfilter, if_neg hp, sget, ih]
      by_cases hj : j = k
      · rw [if_neg (hj ▸ hp), if_neg (hj ▸ hp)]
      · rw [if_neg hj]

/-- The boot's first look: the test of OTP, and SRAM that reads 0. -/
def bootCleared (ok : Bool) (s : State) : State :=
  let d := drawWord 0 s
  let s := onlyIf (!ok) (setCause SYS_CAUSE 0 5)
    (setImg (fun x => { x with otpBad := !ok }) { d.1 with wpt := { d.1.wpt with boot := d.2 } })
  { s with mem := sfilter (fun k => decide (k < 2 ^ 37)) s.mem }

/-- The channels and the die links trained, the watchdog started. -/
def bootTrained (fa fb : DdrFit) (s : State) : State :=
  restartWatchdog 0 (setRgF MEM_STAT 2 2 0 2 (setRgF MEM_STAT 3 2 0 2 (bootChannel 1 fb (bootChannel 0 fa s))))

/-- Where the boot ends. -/
def bootEnds (ok : Bool) (aa ab : MemAnswer) (s : State) : State :=
  if ¬ ok then enterBare s
  else if rgF SYS_STRAP 0 3 2 s = 3 then enterHold s
  else if rgF SYS_STRAP 0 3 2 s = 1 ∨ (residentBase s).isNone then enterBare s
  else bootFromFlash aa ab s

theorem boot_reset {ok : Bool} {fa fb : DdrFit} {aa ab : MemAnswer} {s : State} (hp : s.sys.phase = .reset)
    (hh : s.sys.thermalHold = false) :
    boot ok fa fb aa ab s = bootEnds ok aa ab (bootTrained fa fb (bootCleared ok s)) :=
  if_neg (by simp [hp, hh])

theorem boot_elsewhere {ok : Bool} {fa fb : DdrFit} {aa ab : MemAnswer} {s : State}
    (h : s.sys.phase ≠ .reset ∨ s.sys.thermalHold = true) : boot ok fa fb aa ab s = s := if_pos h

theorem onlyIn_bootChannels (fa fb : DdrFit) (s : State) :
    OnlyIn ⟨[.regs, .flt], 16⟩ s (setRgF MEM_STAT 2 2 0 2 (setRgF MEM_STAT 3 2 0 2
      (bootChannel 1 fb (bootChannel 0 fa s)))) := .of fun _ _ => (OnlyIn.refl s).bootChannel.bootChannel.setRgF.setRgF

theorem rg_restartWatchdog {r i : Nat} (stage : Nat) (s : State) (h : rkey r i ≠ rkey SYS_WDOG_STAT 0) :
    rg r i (restartWatchdog stage s) = rg r i s := rg_setRgF_other h

theorem rg_bootTrained {r i : Nat} (fa fb : DdrFit) (s : State) (hr : rkey r i < rkey 0x10000 0)
    (h : rkey r i ≠ rkey SYS_WDOG_STAT 0) : rg r i (bootTrained fa fb s) = rg r i s :=
  (rg_restartWatchdog 0 _ h).trans ((onlyIn_bootChannels fa fb s).rg r i hr)

theorem mem_bootTrained (fa fb : DdrFit) (s : State) : (bootTrained fa fb s).mem = s.mem :=
  ((OnlyIn.of (G := ⟨[.regs, .sys], 0⟩) fun _ _ => (OnlyIn.refl _).restartWatchdog).keeps .mem).trans
    ((onlyIn_bootChannels fa fb s).keeps .mem)

theorem strap_bootCleared (ok : Bool) (s : State) : rg SYS_STRAP 0 (bootCleared ok s) = rg SYS_STRAP 0 s :=
  onlyIf_keeps (v := rg SYS_STRAP 0) (rg_setCause_other (by decide) (by decide))

theorem strap_bootTrained (ok : Bool) (fa fb : DdrFit) (s : State) :
    rgF SYS_STRAP 0 3 2 (bootTrained fa fb (bootCleared ok s)) = rgF SYS_STRAP 0 3 2 s := by
  rw [rgF, rgF, rg_bootTrained _ _ _ (by decide) (by decide), strap_bootCleared]

theorem otp_bootCleared (s : State) : bit (rg SYS_CAUSE 0 (bootCleared false s)) 5 = true :=
  bit_setCause_same (by decide) (by decide)

theorem rdByte_bootCleared (ok : Bool) (a : Nat) (s : State) :
    rdByte a (bootCleared ok s) = if a < 2 ^ 37 then rdByte a s else 0 := by
  have hmem : (onlyIf (!ok) (setCause SYS_CAUSE 0 5) (setImg (fun x => { x with otpBad := !ok })
      { (drawWord 0 s).1 with wpt := { (drawWord 0 s).1.wpt with boot := (drawWord 0 s).2 } })).mem = s.mem :=
    onlyIf_keeps (v := State.mem) ((OnlyIn.of (G := ⟨[.regs, .flt], 0⟩) fun _ _ => (OnlyIn.refl _).setCause).keeps .mem)
  unfold bootCleared rdByte
  dsimp only
  rw [sget_sfilter, hmem]
  simp only [decide_eq_true_eq]

/-! ### The ends of a boot -/

theorem phase_enterBare (s : State) : (enterBare s).sys.phase = .bare :=
  congrArg SystemRun.phase ((OnlyIn.of (G := ⟨[.regs, .wpt], 0⟩) fun _ _ =>
    (OnlyIn.refl _).holdFunctions.bareSettings).keeps .sys)

theorem rg_setInReset_other {r i f : Nat} {b : Bool} (s : State)
    (h : ∀ g < 215, rkey r i ≠ rkey (SYS_RST_STAT + 4 * (g / 32)) 0) : rg r i (setInReset f b s) = rg r i s := by
  unfold setInReset
  split
  · next hf => exact rg_setRg_other _ _ _ _ _ _ (h f hf)
  · rfl

theorem rg_holdFunctions_other {r i : Nat} (p : Nat → Bool) (s : State)
    (h : ∀ g < 215, rkey r i ≠ rkey (SYS_RST_STAT + 4 * (g / 32)) 0) : rg r i (holdFunctions p s) = rg r i s :=
  forEach_keeps (fun t => rg r i t = rg r i s) _ _ s (fun _ _ t ht => (rg_setInReset_other t h).trans ht) rfl

theorem cause_enterBare (s : State) : rg SYS_CAUSE 0 (enterBare s) = rg SYS_CAUSE 0 s :=
  ((OnlyIn.of (G := ⟨[.regs, .wpt], 8⟩) fun _ _ => (OnlyIn.refl _).bareSettings).rg SYS_CAUSE 0).trans
    (rg_holdFunctions_other _ _ fun g _ => rkey_ne_of_lt (by simp only [SYS_CAUSE, SYS_RST_STAT]; omega) (by decide)
      (by decide))

/-- A walk leaves what each of its steps brings about and no other undoes. -/
theorem forEach_reaches {α : Type} {P : α → State → Prop} {f : α → State → State} (hself : ∀ a s, P a (f a s))
    (hkeep : ∀ a b s, P a s → P a (f b s)) {l : List α} {a : α} (ha : a ∈ l) (s : State) : P a (forEach l f s) := by
  induction l generalizing s with
  | nil => simp at ha
  | cons b l ih =>
    rw [forEach_cons]
    obtain rfl | h := List.mem_cons.1 ha
    · exact forEach_keeps (P a) _ _ _ (fun b _ t ht => hkeep a b t ht) (hself a s)
    · exact ih h _

theorem inReset_setInReset {f : Nat} (s : State) (hf : f < 215) : inReset f (setInReset f true s) = true := by
  rw [inReset, setInReset, if_pos hf, rg_setRg_same, bit_setBit_same _ _ _ (Nat.mod_lt _ (by decide))]
  simp [hf]

theorem inReset_setInReset_keeps {f : Nat} (g : Nat) {s : State} (h : inReset f s = true) :
    inReset f (setInReset g true s) = true := by
  by_cases hfg : f = g
  · subst hfg
    have hf : f < 215 := by
      by_contra hf
      simp [inReset, hf] at h
    exact inReset_setInReset s hf
  · unfold setInReset
    split
    · next hg =>
      obtain ⟨hf, hb⟩ := Bool.and_eq_true_iff.1 h
      refine Bool.and_eq_true_iff.2 ⟨hf, ?_⟩
      by_cases hr : f / 32 = g / 32
      · rw [hr] at hb ⊢
        rw [rg_setRg_same, setBit, bit_setFld_other _ (Nat.mod_lt _ (by decide)) (by omega)]
        exact hb
      · rwa [rg_setRg_other]
        simp at hf
        exact rkey_ne_of_lt (by omega) (by decide) (by decide)
    · exact h

theorem inReset_holdAll {f : Nat} (hf : f < 215) (s : State) : inReset f (holdFunctions (fun _ => true) s) = true :=
  (forEach_reaches (P := fun f t => f < 215 → inReset f t = true) (f := fun f => setInReset f true)
    (fun _ _ hf => inReset_setInReset _ hf) (fun _ g _ h hf => inReset_setInReset_keeps g (h hf))
    (List.mem_filter.2 ⟨List.mem_range.2 hf, rfl⟩) s) hf

/-- The present channels and the die links are held (R442). -/
def heldChannel (i : Nat) (s : State) : State :=
  onlyIf (decide (2 ≤ i) || rgF MEM_STAT i 2 0 s == 2) (setRgF MEM_STAT i 2 0 3) s

theorem enterHold_eq (s : State) :
    enterHold s = heldChannel 3 (heldChannel 2 (heldChannel 1 (heldChannel 0
      (holdFunctions (fun _ => true) { s with sys := { s.sys with phase := .hold } })))) := rfl

theorem onlyIn_heldChannel (i : Nat) (s : State) : OnlyIn ⟨[.regs], 20⟩ s (heldChannel i s) :=
  .of fun _ _ => (OnlyIn.refl s).onlyIf fun _ h => h.setRgF

theorem onlyIn_heldChannels (s : State) :
    OnlyIn ⟨[.regs], 20⟩ s (heldChannel 3 (heldChannel 2 (heldChannel 1 (heldChannel 0 s)))) :=
  (onlyIn_heldChannel 0 s).trans ((onlyIn_heldChannel 1 _).trans ((onlyIn_heldChannel 2 _).trans
    (onlyIn_heldChannel 3 _)))

theorem phase_enterHold (s : State) : (enterHold s).sys.phase = .hold := by
  rw [enterHold_eq, (onlyIn_heldChannels _).keeps .sys]
  exact congrArg SystemRun.phase ((OnlyIn.of (G := ⟨[.regs], 0⟩) fun _ _ =>
    (OnlyIn.refl _).holdFunctions).keeps .sys)

theorem inReset_enterHold {f : Nat} (hf : f < 215) (s : State) : inReset f (enterHold s) = true := by
  rw [enterHold_eq, (onlyIn_heldChannels _).inReset]
  exact inReset_holdAll hf _

theorem rgF_heldChannel {i : Nat} (hi : 2 ≤ i) (s : State) : rgF MEM_STAT i 2 0 (heldChannel i s) = 3 := by
  have h : heldChannel i s = setRgF MEM_STAT i 2 0 3 s := if_pos (by simp [hi])
  rw [h, rgF_setRgF_same _ _ _ _ _ _ (by decide) (by decide)]
  rfl

theorem rg_heldChannel_other (s : State) : rg MEM_STAT 2 (heldChannel 3 s) = rg MEM_STAT 2 s :=
  onlyIf_keeps (v := rg MEM_STAT 2) (rg_setRgF_other (by decide))

theorem links_enterHold (s : State) :
    rgF MEM_STAT 2 2 0 (enterHold s) = 3 ∧ rgF MEM_STAT 3 2 0 (enterHold s) = 3 := by
  rw [enterHold_eq]
  refine ⟨?_, rgF_heldChannel (by decide) _⟩
  rw [rgF, rg_heldChannel_other]
  exact rgF_heldChannel (by decide) _

theorem phase_setRunning (b : Bytes) (source : Nat) (s : State) : (setRunning b source s).sys.phase = .running := by
  unfold setRunning
  extract_lets u v x w warn
  have ho : OnlyIn ⟨[.regs, .flt], 0⟩ w (onlyIf warn (setCause IMG_CAUSE 0 5) (setRg IMG_WARN 0 (w32 (b2n warn)) w)) :=
    .of fun _ _ => (OnlyIn.refl w).setRg.onlyIf fun _ h => h.setCause
  rw [ho.keeps .sys]
  exact congrArg SystemRun.phase ((OnlyIn.of (G := ⟨[.regs], 0⟩) fun _ _ => (OnlyIn.refl _).bump).keeps .sys)

theorem phase_applyFull (b : Bytes) (source : Nat) (ans : MemAnswer) (s : State) :
    (applyFull b source ans s).sys.phase = .running := phase_setRunning _ _ _

theorem phase_bootFromFlash (aa ab : MemAnswer) (s : State) :
    (bootFromFlash aa ab s).sys.phase = .bare ∨ (bootFromFlash aa ab s).sys.phase = .running := by
  unfold bootFromFlash
  dsimp only
  split
  · exact .inr (phase_applyFull _ _ _ _)
  · split
    · exact .inr (phase_applyFull _ _ _ _)
    · exact .inl (phase_enterBare _)

/-- Where a boot ends, by OTP and the straps. -/
theorem phase_bootEnds {ok : Bool} {aa ab : MemAnswer} {s : State} (h : rgF SYS_STRAP 0 3 2 s ≠ 3) :
    (bootEnds ok aa ab s).sys.phase = .bare ∨ (bootEnds ok aa ab s).sys.phase = .running := by
  unfold bootEnds
  rw [if_neg h]
  split
  · exact .inl (phase_enterBare s)
  · split
    · exact .inl (phase_enterBare s)
    · exact phase_bootFromFlash aa ab s

/-- Settles O58: a device-wide reset is the base, the straps and the cause; a boot is its training and its end. -/
theorem deviceResetsAndBootFollowTheirCause : Obligations.DeviceResetsAndBootFollowTheirCause := by
  have hreset : ∀ (cause : Nat) (x : Straps) (s : State), cause ≠ 0 → cause < 32 →
      afterReset cause x s (deviceReset cause x s) := fun cause x s h0 hc => by
    rw [deviceReset_caused x s h0]
    exact afterReset_caused x s hc
  have hold : ∀ (cause : Nat) (x : Straps) (s : State), cause ≠ 0 →
      (deviceReset cause x s).sys.thermalHold = s.sys.thermalHold := fun cause x s h0 => by
    rw [deviceReset_caused x s h0]
    exact (congrArg SystemRun.thermalHold (((onlyIn_caused cause _).keeps .sys).trans
      ((onlyIn_strapped x (resetBase s)).keeps .sys) : _ = (resetBase s).sys) :)
  refine ⟨fun x s => ⟨?_, ⟨_, rfl, hreset 2 x s (by decide) (by decide), hold 2 x s (by decide)⟩, fun n => ⟨fun h =>
      congrArg Host.Outcome.next (if_pos h), fun h => ?_⟩, fun p v => ⟨fun h31 h30 hk => ?_, fun h => ?_⟩,
    fun a b c => ⟨fun h => ?_, fun ha hb hc => ?_⟩, fun h => ?_, fun h => congrArg Host.Outcome.next (if_pos h)⟩,
    fun ok fa fb aa ab s hp hh => ?_, fun ok fa fb aa ab s h => congrArg Host.Outcome.next (boot_elsewhere h)⟩
  · have ho := onlyIn_strapped x (powerBase s)
    refine ⟨_, congrArg Host.Outcome.next (deviceReset_power x s), ?_, ?_, ho.keeps .mem, ho.keeps .pending,
      (congrArg LoaderRun.flashA (ho.keeps .img : _ = fuses s.img) :), ho.keeps .lanes, ho.keeps .roads,
      ho.keeps .jct, ho.keeps .queues⟩
    · exact (rg_setRgF_other (by decide)).trans (rg_setRg_same _ _ _ _)
    · exact (now_congr (ho.keeps .mp)).trans ((now_congr rfl).trans (by decide : now State.reset = 0))
  · exact ⟨_, congrArg Host.Outcome.next (if_neg (by omega)), hreset 1 x s (by decide) (by decide)⟩
  · exact ⟨_, congrArg Host.Outcome.next (if_pos ⟨h31, h30, hk⟩), hreset 4 x s (by decide) (by decide)⟩
  · refine congrArg Host.Outcome.next (if_neg fun ⟨h31, h30, hk⟩ => ?_)
    rcases h with h | h | h
    · simp [h] at h31
    · simp [h] at h30
    · exact h hk
  · exact ⟨_, congrArg Host.Outcome.next (if_pos h), hreset 5 x s (by decide) (by decide), rfl⟩
  · refine congrArg Host.Outcome.next (if_neg ?_)
    simp only [celsius]
    omega
  · exact ⟨_, congrArg Host.Outcome.next (if_neg (by simp [h])), hreset 3 x s (by decide) (by decide)⟩
  · have hstrap := strap_bootTrained ok fa fb s
    refine ⟨_, congrArg Host.Outcome.next (boot_reset hp hh), fun hok h3 => ?_, fun hok => ?_, fun hok h1 => ?_,
      fun h => ?_⟩
    · have he : bootEnds ok aa ab (bootTrained fa fb (bootCleared ok s)) =
          enterHold (bootTrained fa fb (bootCleared ok s)) :=
        (if_neg (by simp [hok])).trans (if_pos (hstrap.trans h3))
      rw [he]
      obtain ⟨h2, h3⟩ := links_enterHold (bootTrained fa fb (bootCleared ok s))
      exact ⟨phase_enterHold _, h2, h3, fun f => inReset_enterHold f.isLt _⟩
    · subst hok
      have he : bootEnds false aa ab (bootTrained fa fb (bootCleared false s)) =
          enterBare (bootTrained fa fb (bootCleared false s)) := if_pos (by simp)
      rw [he, cause_enterBare, rg_bootTrained _ _ _ (by decide) (by decide)]
      exact ⟨phase_enterBare _, otp_bootCleared s⟩
    · have he : bootEnds ok aa ab (bootTrained fa fb (bootCleared ok s)) =
          enterBare (bootTrained fa fb (bootCleared ok s)) :=
        (if_neg (by simp [hok])).trans ((if_neg (by rw [hstrap, h1]; decide)).trans (if_pos (.inl (hstrap.trans h1))))
      rw [he]
      refine ⟨phase_enterBare _, fun a => ?_⟩
      rw [rdByte, (OnlyIn.of (G := ⟨[.regs, .wpt, .sys], 0⟩) fun _ _ => (OnlyIn.refl _).enterBare).keeps .mem,
        mem_bootTrained]
      exact rdByte_bootCleared ok a s
    · exact phase_bootEnds (by rw [hstrap]; exact h)

end Sys2Proof.Machine
end

section
/-! PROOF. O54 fails: the mark of a lost occurrence of a class that is none of the eight may stand at the key of the
count of relays that timed out. -/

set_option Elab.async false

namespace Sys2Proof.Machine

open Sys2Proof

/-- The class whose mark of lost occurrences stands at the key of HIE_CNT. -/
def strayRelayClass : Nat := (HIE_CNT - FLT_CLS_CNT) * 2 ^ 24

theorem rkey_strayRelayClass : rkey FLT_CLS_CNT strayRelayClass = rkey HIE_CNT 0 := by decide

/-- A relay of session 0's host to worker 1, with tag 0. -/
def waitingRelay : RelayOut := ⟨0, 1, 0, some (0, .host 0 {} 0 0)⟩

/-- The relay is outstanding, one has timed out before, and the collector's queue is full of occurrences of the class
that is none. -/
def strayTimeout : State :=
  { setRg HIE_CNT 0 1 State.reset with
    flt := { State.reset.flt with queue := List.replicate 256 { strayOccurrence with cls := strayRelayClass } },
    hie := { State.reset.hie with outs := [waitingRelay] } }

theorem strayTimeout_count : rgF HIE_CNT 0 15 0 (relayTimeout 0 strayTimeout) = 3 := by decide +kernel

/-- Refutes O54: the relay's time runs out and is counted, and the occurrence that its cause pushes out of the collector's
full queue leaves its mark in bit 0 of the count, which is then 3 and not 2. -/
theorem not_managersAndWorkersKeepTheirStates : ¬ Obligations.ManagersAndWorkersKeepTheirStates := by
  rintro ⟨-, -, -, -, -, -, htimeout, -⟩
  obtain ⟨-, hrun⟩ := htimeout 0 strayTimeout
  obtain ⟨t, ht, -, -, hcount, -⟩ := hrun waitingRelay (by decide +kernel) (by decide)
  obtain rfl : relayTimeout 0 strayTimeout = t := Host.Outcome.next.inj ht
  exact absurd (strayTimeout_count.symm.trans (hcount (by simp [waitingRelay])).1) (by decide +kernel)

end Sys2Proof.Machine
end

section
/-! PROOF. O52 fails: the mark of a lost occurrence of a class that is none of the eight may stand at the key of the
epoch of the twin pair. -/

set_option Elab.async false

namespace Sys2Proof.Machine

open Sys2Proof

/-- The class whose mark of lost occurrences stands at the key of TWN_EPOCH. -/
def strayPairClass : Nat := (TWN_EPOCH - FLT_CLS_CNT) * 2 ^ 24

theorem rkey_strayPairClass : rkey FLT_CLS_CNT strayPairClass = rkey TWN_EPOCH 0 := by decide

/-- A standby unit of epoch 1 that has not heard its peer on the twin link, its only path, for a period, with the
collector's queue full of occurrences of the class that is none. -/
def strayTakeover : State :=
  { setRg TWN_STAT 0 0x1040000 (setRg TWN_EPOCH 0 1 State.reset) with
    flt := { State.reset.flt with queue := List.replicate 256 { strayOccurrence with cls := strayPairClass } },
    twn := { State.reset.twn with state := .standby, missLink := 1 } }

theorem strayTakeover_epoch : rgF TWN_EPOCH 0 23 0 (heartbeatLoss false strayTakeover) = 3 := by decide +kernel

/-- Refutes O52: the standby unit takes over in epoch 2, and the occurrence that its cause pushes out of the collector's
full queue leaves its mark in bit 0 of the epoch, which is then 3. -/
theorem not_twinUnitsPairBeatTakeOverAndYield : ¬ Obligations.TwinUnitsPairBeatTakeOverAndYield := by
  rintro ⟨hon, -⟩
  obtain ⟨-, -, -, -, -, -, hloss, -⟩ := hon strayTakeover (by decide +kernel)
  obtain ⟨t, ht, -, -, hepoch, -⟩ := hloss (by rfl) (by decide +kernel) (by decide +kernel) (by decide +kernel)
    (by decide +kernel)
  obtain rfl : heartbeatLoss false strayTakeover = t := Host.Outcome.next.inj ht
  exact absurd (strayTakeover_epoch.symm.trans hepoch) (by decide +kernel)

end Sys2Proof.Machine
end

section
/-! PROOF. O39 and O59 fail: the mark of a lost occurrence of a class that is none of the eight may stand at the key of
a trunk's status, or of a memory channel's counts. -/

set_option Elab.async false

namespace Sys2Proof.Machine

open Sys2Proof

/-! ### A trunk's status -/

/-- The class whose mark of lost occurrences stands at the key of trunk 0's TRK_STAT. -/
def strayTrunkClass : Nat := (TRK_STAT - FLT_CLS_CNT) * 2 ^ 24

theorem rkey_strayTrunkClass : rkey FLT_CLS_CNT strayTrunkClass = rkey TRK_STAT 0 := by decide

/-- Trunk 0's link is up, and the collector's queue is full of occurrences of the class that is none. -/
def strayTrunk : State :=
  { setRg TRK_STAT 0 3 State.reset with
    flt := { State.reset.flt with queue := List.replicate 256 { strayOccurrence with cls := strayTrunkClass } } }

theorem strayTrunk_link :
    bit (rg TRK_STAT 0 (trunkLinkChange 0 { lock := false } false false false strayTrunk)) 0 = true := by decide +kernel

/-- Refutes O39: trunk 0 loses its link, and the occurrence that the cause of this pushes out of the collector's full
queue leaves its mark in the link bit of the trunk's status. -/
theorem not_preemptionFragmentsAndTrunkLinksFollowTheirRules :
    ¬ Obligations.PreemptionFragmentsAndTrunkLinksFollowTheirRules := by
  rintro ⟨-, -, hlink, -⟩
  obtain ⟨t, ht, hbit, -⟩ := hlink 0 { lock := false } false false false strayTrunk (by decide +kernel) (by decide +kernel)
  obtain rfl : trunkLinkChange 0 { lock := false } false false false strayTrunk = t := Host.Outcome.next.inj ht
  exact absurd (strayTrunk_link.symm.trans hbit) (by decide)

/-! ### A memory channel's counts -/

/-- The class whose mark of lost occurrences stands at the key of memory channel 0's MEM_CNT. -/
def strayMemoryClass : Nat := (MEM_CNT - FLT_CLS_CNT) * 2 ^ 24

theorem rkey_strayMemoryClass : rkey FLT_CLS_CNT strayMemoryClass = rkey MEM_CNT 0 := by decide

/-- Channel 0 is ready and scrubbed, has counted one uncorrectable error, and the collector's queue is full of
occurrences of the class that is none. -/
def strayScrub : State :=
  { setRg MEM_CNT 0 1 (setRg MEM_SCRUB 0 1 (setRg MEM_STAT 0 2 State.reset)) with
    flt := { State.reset.flt with queue := List.replicate 256 { strayOccurrence with cls := strayMemoryClass } } }

theorem strayScrub_count : rgF MEM_CNT 0 15 0 (memoryScrubPass 0 0 1 strayScrub) = 3 := by decide +kernel

/-- Refutes O59: the second uncorrectable error is counted, and the occurrence that its cause pushes out of the
collector's full queue leaves its mark in bit 0 of the count, which is then 3. -/
theorem not_systemEventsAreRecorded : ¬ Obligations.SystemEventsAreRecorded := by
  rintro ⟨-, -, -, -, -, -, -, -, hscrub, -⟩
  obtain ⟨t, ht, -, hcount, -⟩ := hscrub 0 0 1 strayScrub (by decide +kernel) (by decide +kernel)
  obtain rfl : memoryScrubPass 0 0 1 strayScrub = t := Host.Outcome.next.inj ht
  exact absurd (strayScrub_count.symm.trans hcount) (by decide +kernel)

end Sys2Proof.Machine
end

section
/-! PROOF. O35 and O44 fail: a verge window whose profile is longer than the 480 points that its record has room for is
recorded past the 1,024 bytes of its port. -/

set_option Elab.async false

namespace Sys2Proof.Machine

open Sys2Proof

/-- A window of port 0 under way, with a profile of 481 points, the last of them not 0. -/
def longVerge : Verge := { state := .active, profile := List.replicate 480 0 ++ [1] }

/-- The records of verge windows stand in SRAM, and the window with the long profile is under way on port 0. -/
def strayVerge : State := setRg FPA_VRG_BASE_HI 0 0x40 (setVerge 0 longVerge State.reset)

theorem vergeAddr_strayVerge : vergeAddr 0 strayVerge = 2 ^ 38 := by decide +kernel

theorem strayVerge_abort : rdByte (2 ^ 38 + 1024) (vergeCtrlWrite 0 0x40000000 strayVerge) = 1 := by decide +kernel

/-- Refutes O35: the aborted window's record writes the byte after the 1,024 of its port. -/
theorem not_vergeWindowsAndMeasurementsFollowTheirRules :
    ¬ Obligations.VergeWindowsAndMeasurementsFollowTheirRules := by
  rintro ⟨⟨-, habort, -⟩, -⟩
  obtain ⟨t, ht, -, hout⟩ := habort 0 0x40000000 0 strayVerge (by decide +kernel) (by decide +kernel) (by decide)
    (by decide)
  obtain rfl : vergeCtrlWrite 0 0x40000000 strayVerge = t := Host.Outcome.next.inj ht
  have hsame := hout (2 ^ 38 + 1024) (.inr (by rw [Fin.val_zero, vergeAddr_strayVerge]))
  exact absurd (strayVerge_abort.symm.trans hsame) (by decide +kernel)

/-- A stepped gate list whose entry 0 is a verge window and whose entry 1 is none, 10 ms into entry 0. -/
def vergeGate : GateRun :=
  { oper := { form := formStepped, entries := [BitVec.ofNat 64 (2 ^ 40), 0] }, vergeFrom := some 0 }

/-- That list runs on port 0, and the window of its entry 0 has the long profile. -/
def strayStep : State :=
  { setGateRun 0 vergeGate strayVerge with mp := { State.reset.mp with counter := 10000000#32 ++ 0#32 } }

theorem vergeAddr_strayStep : vergeAddr 0 strayStep = 2 ^ 38 := by decide +kernel

theorem strayStep_autostep : rdByte (2 ^ 38 + 1024) (vergeAutostep 0 .ok strayStep) = 1 := by decide +kernel

/-- Refutes O44: the automatic step ends the window of its entry, whose record writes the byte after the 1,024 of its
port. -/
theorem not_gateListsStartEntriesAndSwitchOver : ¬ Obligations.GateListsStartEntriesAndSwitchOver := by
  rintro ⟨-, -, -, hstepped, -⟩
  obtain ⟨-, -, hauto⟩ := hstepped 0 .ok strayStep (by decide +kernel) (by decide +kernel) (by decide +kernel)
  obtain ⟨t, ht, -, -, -, -, -, hout⟩ := hauto 0 (by decide +kernel) (by decide +kernel) (by decide +kernel)
  obtain rfl : vergeAutostep 0 .ok strayStep = t := Host.Outcome.next.inj ht
  have hsame := hout (2 ^ 38 + 1024) (.inr (by rw [Fin.val_zero, vergeAddr_strayStep]))
  exact absurd (strayStep_autostep.symm.trans hsame) (by decide +kernel)

end Sys2Proof.Machine
end

section
/-! PROOF. O32: what a district takes in. A delivery is the inbox's rule, a drain marker that leaves is taken off the
queue first, and a placed frame is the job put into its lane's queue and the bytes written. -/

set_option Elab.async false

namespace Sys2Proof.Machine

open Sys2Proof

/-! ### What these operations write -/

namespace OnlyIn

variable {F : Scope} {s₀ s : State}

theorem with_lanes {x} (h : OnlyIn F s₀ s)
    (hF : Allows F ⟨[.lanes], 23⟩ := by exact Allows.mono ‹_› rfl) :
    OnlyIn F s₀ { s with lanes := x } :=
  h.trans ⟨fun p hp => by
    cases p
    case lanes => exact (hp (hF.1 _ (.head _))).elim
    all_goals rfl, .refl _ _⟩

theorem with_districts {x} (h : OnlyIn F s₀ s)
    (hF : Allows F ⟨[.districts], 23⟩ := by exact Allows.mono ‹_› rfl) :
    OnlyIn F s₀ { s with districts := x } :=
  h.trans ⟨fun p hp => by
    cases p
    case districts => exact (hp (hF.1 _ (.head _))).elim
    all_goals rfl, .refl _ _⟩

theorem setLane {n l} (h : OnlyIn F s₀ s)
    (hF : Allows F ⟨[.lanes], 23⟩ := by exact Allows.mono ‹_› rfl) :
    OnlyIn F s₀ (setLane n l s) :=
  h.with_lanes

theorem setDistrict {n d} (h : OnlyIn F s₀ s)
    (hF : Allows F ⟨[.districts], 23⟩ := by exact Allows.mono ‹_› rfl) :
    OnlyIn F s₀ (setDistrict n d s) :=
  h.with_districts

theorem enqueueJob {l j} (h : OnlyIn F s₀ s)
    (hF : Allows F ⟨[.regs, .lanes, .flt], 6⟩ := by exact Allows.mono ‹_› rfl) :
    OnlyIn F s₀ (enqueueJob l j s).1 :=
  h.ite_fst (h.setLane.ite_fst h.bump.setCause)

theorem undeliverable {src} (h : OnlyIn F s₀ s)
    (hF : Allows F ⟨[.regs], 6⟩ := by exact Allows.mono ‹_› rfl) :
    OnlyIn F s₀ (undeliverable src s) :=
  h.bump

theorem inboxPut {l e} (h : OnlyIn F s₀ s)
    (hF : Allows F ⟨[.regs, .lanes, .flt], 6⟩ := by exact Allows.mono ‹_› rfl) :
    OnlyIn F s₀ (inboxPut l e s).1 :=
  h.setLane.ite_fst h.bump.setCause

theorem sendMessage {dest m} (h : OnlyIn F s₀ s)
    (hF : Allows F ⟨[.regs, .districts, .jct, .tpk, .flt], 6⟩ := by exact Allows.mono ‹_› rfl) :
    OnlyIn F s₀ (sendMessage dest m s) :=
  h.undeliverable.ite (h.setDistrict.ite (h.internalOffer.ite h.internalOffer.undeliverable))

theorem markerLeaves {l slot gen seq} (h : OnlyIn F s₀ s)
    (hF : Allows F ⟨[.regs, .lanes, .districts, .jct, .tpk, .flt], 3⟩ := by exact Allows.mono ‹_› rfl) :
    OnlyIn F s₀ (markerLeaves l slot gen seq s) :=
  (h.setLane.ite h.sendMessage).ite h.setRgF

theorem dropDistrictFrame {d} (h : OnlyIn F s₀ s)
    (hF : Allows F ⟨[.regs], 6⟩ := by exact Allows.mono ‹_› rfl) :
    OnlyIn F s₀ (dropDistrictFrame d s) :=
  h.bump

end OnlyIn

/-! ### Messages -/

theorem deliverTo_unordered {l : Nat} {m : Message} {s : State} (hr : (lane l s).inReset = false)
    (h : bit m.flags 0 = true ∨ orderedAt m.slot.toNat l s = false) :
    deliverTo l m s = (inboxPut l { msg := m } s).1 := by
  unfold deliverTo
  dsimp only
  rw [if_neg (by simp [hr])]
  split
  · rfl
  · next hf => rw [if_neg (by simpa [hf] using h)]

theorem inboxPut_room {l : Nat} (e : InboxEntry) {s : State} (h : (lane l s).inbox.length < 32) :
    (inboxPut l e s).1 = setLane l { lane l s with inbox := (lane l s).inbox ++ [e] } s :=
  congrArg Prod.fst (if_pos h)

theorem inboxPut_full {l : Nat} (e : InboxEntry) {s : State} (h : 32 ≤ (lane l s).inbox.length) :
    (inboxPut l e s).1 = setCause LNC_DST_CAUSE (l / 16) 2 (bump LNC_LANE_CNT_DROP l 21 11 s) :=
  congrArg Prod.fst (if_neg (Nat.not_lt.2 h))

theorem onlyIn_inboxFull (l : Nat) (s : State) :
    OnlyIn ⟨[.regs, .flt], 0⟩ s (setCause LNC_DST_CAUSE (l / 16) 2 (bump LNC_LANE_CNT_DROP l 21 11 s)) :=
  .of fun _ _ => (OnlyIn.refl s).bump.setCause

theorem messageDeliver_own {d : Nat} {dest : MsgDest} {m : Message} {q : List (MsgDest × Message)} {s : State}
    (h : (district d s).direct = (dest, m) :: q) :
    messageDeliver d false s = deliverMessage dest m (setDistrict d { district d s with direct := q } s) := by
  unfold messageDeliver
  simp only [Bool.false_eq_true, if_false, h]

theorem messageDeliver_none {d : Nat} {s : State} (h : (district d s).direct = []) : messageDeliver d false s = s := by
  unfold messageDeliver
  simp only [Bool.false_eq_true, if_false, h]

theorem messageDeliver_handed {d : Nat} {c : Copy} {f : JFrame} {dest : MsgDest} {m : Message} {s : State}
    (hc : handed (132 + d) s = some c) (hf : jframe c.frame s = some f) (hm : f.msg = some (dest, m))
    (hr : inReset (132 + d) s = false) :
    messageDeliver d true s = deliverMessage dest m (endHanded (132 + d) s) := by
  unfold messageDeliver
  simp [hc, hf, hm, hr]

theorem messageDeliver_unhanded {d : Nat} {s : State} (h : handed (132 + d) s = none) :
    messageDeliver d true s = s := by
  unfold messageDeliver
  simp [h]

/-! ### Drain markers -/

theorem drainMarkerHead_past {l : Nat} {slot : BitVec 9} {gen : BitVec 8} {seq : BitVec 16} {q : List QueueEntry}
    {s : State} (ht : takesNext l s = true) (hq : (lane l s).queue = .marker slot gen seq :: q)
    (hg : (slotRun slot.toNat s).oldGen ≠ gen) :
    drainMarkerHead l s = setLane l { lane l s with queue := q } s := by
  unfold drainMarkerHead
  rw [if_neg (by simp [ht])]
  simp only [hq]
  exact if_pos (.inr (.inl hg))

theorem markerLeaves_unordered {l slot : Nat} {gen : BitVec 8} {seq : BitVec 16} {s : State}
    (h : bit (rg MST_PLC_RX slot s) 16 = false) :
    markerLeaves l slot gen seq s = setRgF MST_PLC_CUR slot 31 31 0 s := by
  unfold markerLeaves
  rw [if_neg (by simp [h])]

theorem drainMarkerHead_last {l : Nat} {slot : BitVec 9} {gen : BitVec 8} {seq : BitVec 16} {q : List QueueEntry}
    {s : State} (ht : takesNext l s = true) (hq : (lane l s).queue = .marker slot gen seq :: q)
    (hg : (slotRun slot.toNat s).oldGen = gen) (hout : (slotRun slot.toNat s).markersOut = 1)
    (hl : (slotRun slot.toNat s).markerLanes = []) (hcur : bit (rg MST_PLC_CUR slot.toNat s) 31 = true)
    (hrx : bit (rg MST_PLC_RX slot.toNat s) 16 = false) :
    drainMarkerHead l s = setRgF MST_PLC_CUR slot.toNat 31 31 0
      (setSlotRun slot.toNat { slotRun slot.toNat s with markersOut := 0 }
        (setLane l { lane l s with queue := q } s)) := by
  unfold drainMarkerHead
  rw [if_neg (by simp [ht])]
  simp only [hq]
  have hrun : slotRun slot.toNat (setLane l { lane l s with queue := q } s) = slotRun slot.toNat s := rfl
  rw [if_neg (by simp [hrun, hout, hg, rg_congr (setLane_regs l _ s), hcur]), if_pos (by simp [hrun, hout, hl]), hrun,
    hout]
  exact markerLeaves_unordered hrx

/-! ### Frames -/

theorem frameToDistrict_places {d : Nat} {c : Copy} {f : JFrame} {s : State} (hc : handed (132 + d) s = some c)
    (hf : jframe c.frame s = some f) (hm : f.msg = none) (ht : takesFrames d s = true) (hcut : f.cutting = false)
    (hs : stepMode s = false) (htr : c.trunc = 0) :
    frameToDistrict d s = placeFrame d f.src c.cls f.ts f.ts f.bytes (endHanded (132 + d) s) := by
  have hs' : stepMode (endHanded (132 + d) s) = false := by
    rw [← hs]
    have hr := (OnlyIn.of (G := ⟨[.jct, .tpk], 0⟩) fun _ _ => (OnlyIn.refl s).endHanded (p := 132 + d)).keeps .regs
    rw [stepMode, stepMode, rg_congr hr]
  unfold frameToDistrict
  simp [hc, hf, hm, ht, hcut, hs', htr]

/-- The job that a placed frame is for its lane (R125). -/
def frameJob (time : Word) (off len port i : Nat) : Job :=
  { source := 3, time := time, buffer := some i, args := [w32 (0x100000 + off), w32 len, w32 port, w32 i] }

theorem enqueueJob_room {l : Nat} (j : Job) {s : State} (hr : laneInReset l s = false)
    (hq : (lane l s).queue.length < 16) :
    enqueueJob l j s = (setLane l { lane l s with queue := (lane l s).queue ++ [.job j] } s, true) := by
  unfold enqueueJob
  rw [if_neg (by simp [hr]), if_pos hq]

theorem leastOf_mem {f : Nat → Nat} {l : List Nat} {x : Nat} (h : leastOf f l = some x) : x ∈ l := by
  induction l generalizing x with
  | nil => simp [leastOf] at h
  | cons a t ih =>
    unfold leastOf at h
    split at h
    · simp_all
    · next y hy =>
      split at h
      · simp_all
      · simp_all

theorem placeFrame_room {d port cls i : Nat} {ts time : Word} {b : Bytes} {l : Nat} {s : State} (hb : b.length ≤ 2032)
    (hi : freeBufferOf d s = some i)
    (hl : leastOf (fun l => jobCount l s) ((lanesOf d).filter fun l => takesJobs l s) = some l)
    (hq : (lane l s).queue.length < 16) :
    ∃ u : State, u.mem = s.mem ∧ placeFrame d port cls ts time b s = wrBytes (districtAddr d + bufferOffset d i s)
      (bufferHeader port cls i ts ((district d s).frames + 1) b.length ++ b) u := by
  have hr : laneInReset l s = false := by
    have ht := (List.mem_filter.1 (leastOf_mem hl)).2
    simp only [takesJobs, Bool.and_eq_true, Bool.not_eq_true'] at ht
    exact ht.2
  unfold placeFrame
  rw [if_neg (by simp only [maxDistrictFrame]; omega)]
  simp only [hi, hl]
  rw [enqueueJob_room _ hr hq, if_neg (by simp)]
  exact ⟨_, (OnlyIn.of (G := ⟨[.regs, .lanes, .districts], 0⟩) fun _ _ =>
    (OnlyIn.refl s).setLane.setDistrict.bump).keeps .mem, rfl⟩

theorem length_bufferHeader (port cls idx : Nat) (ts count : Word) (len : Nat) :
    (bufferHeader port cls idx ts count len).length = 16 := by
  simp [bufferHeader, length_leBytes]

/-- Settles O32: one rule for each of a district's entrances. -/
theorem districtsDeliverMessagesAndFrames : Obligations.DistrictsDeliverMessagesAndFrames := by
  refine ⟨⟨fun d l m q s hq hr h => ?_, fun d c f dest m s hc hf hm hr =>
      congrArg Host.Outcome.next (messageDeliver_handed hc hf hm hr),
    fun d s => ⟨fun h => congrArg Host.Outcome.next (messageDeliver_none h),
      fun h => congrArg Host.Outcome.next (messageDeliver_unhanded h)⟩,
    fun l slot gen seq q s ht hq => ⟨fun hg => congrArg Host.Outcome.next (drainMarkerHead_past ht hq hg),
      fun hg hout hl hcur hrx => ?_⟩⟩,
    fun d c f s hc hf hm ht hcut hs htr => ⟨congrArg Host.Outcome.next (frameToDistrict_places hc hf hm ht hcut hs htr),
      fun hlong => congrArg Host.Outcome.next ((frameToDistrict_places hc hf hm ht hcut hs htr).trans (if_pos hlong))⟩,
    fun d port cls i ts time b l s hb hi hl hq => ?_, fun p v d s hw hwr =>
      congrArg Host.Outcome.next (atInst_taken _ _ _ _ _ hw hwr), fun d s hp hr => congrArg Host.Outcome.next ?_⟩
  · have hdel : messageDeliver d false s =
        (inboxPut l { msg := m } (setDistrict d { district d s with direct := q } s)).1 :=
      (messageDeliver_own hq).trans (deliverTo_unordered hr h)
    refine ⟨fun hroom => ⟨_, congrArg Host.Outcome.next (hdel.trans (inboxPut_room _ hroom)), ?_, ?_, rfl, rfl,
        fun x hx => ?_⟩, fun hfull => ⟨_, congrArg Host.Outcome.next (hdel.trans (inboxPut_full _ hfull)), ?_, ?_, ?_⟩⟩
    · rw [lane_setLane]
      rfl
    · exact congrArg DistrictRun.direct (district_setDistrict d _ s)
    · exact lane_setLane_other _ _ _ _ (fun e => hx (Fin.ext e))
    · exact (onlyIn_inboxFull l (setDistrict d { district d s with direct := q } s)).keeps .lanes
    · rw [district, (onlyIn_inboxFull l _).keeps .districts]
      exact congrArg DistrictRun.direct (district_setDistrict d _ s)
    · exact bit_setCause_same (by decide) (rkey_lt_collector (by decide) (by omega))
  · refine ⟨_, congrArg Host.Outcome.next (drainMarkerHead_last ht hq hg hout hl hcur hrx), ?_, ?_, rfl⟩
    · exact congrArg LaneState.queue (lane_setLane l _ s)
    · rw [setRgF, rg_setRg_same]
      exact bit_setBit_same _ 31 false (by decide)
  · obtain ⟨u, hu, hp⟩ := placeFrame_room (port := port) (cls := cls) (ts := ts) (time := time) hb hi hl hq
    have hlen : (bufferHeader port cls i ts ((district d s).frames + 1) b.length ++ b).length = 16 + b.length := by
      rw [List.length_append, length_bufferHeader]
    rw [hp, ← hlen]
    refine ⟨rdBytes_wrBytes _ _ _, fun a ha => ?_⟩
    rw [rdByte_wrBytes_outside _ _ _ _ ha, rdByte, hu]
    rfl
  · unfold frxLayoutApply
    simp [hp, hr, List.isEmpty_iff]

end Sys2Proof.Machine
end

section
/-! PROOF. O33: halts, resets and steps. A halt and a reset of a district are walks over its sixteen lanes, each step of
which changes its own lane only; a step ends by dropping what it merged. -/

set_option Elab.async false

namespace Sys2Proof.Machine

open Sys2Proof

/-! ### What these operations write -/

namespace OnlyIn

variable {F : Scope} {s₀ s : State}

theorem with_stp {x} (h : OnlyIn F s₀ s)
    (hF : Allows F ⟨[.stp], 23⟩ := by exact Allows.mono ‹_› rfl) :
    OnlyIn F s₀ { s with stp := x } :=
  h.trans ⟨fun p hp => by
    cases p
    case stp => exact (hp (hF.1 _ (.head _))).elim
    all_goals rfl, .refl _ _⟩

theorem awaitStep {c} (h : OnlyIn F s₀ s)
    (hF : Allows F ⟨[.stp], 23⟩ := by exact Allows.mono ‹_› rfl) :
    OnlyIn F s₀ (awaitStep c s) :=
  h.with_stp

theorem freeBuffer {l} (h : OnlyIn F s₀ s)
    (hF : Allows F ⟨[.districts], 23⟩ := by exact Allows.mono ‹_› rfl) :
    OnlyIn F s₀ (freeBuffer l s) := by
  unfold Machine.freeBuffer
  split
  · exact h
  · exact h.setDistrict

theorem clearLane {l} (h : OnlyIn F s₀ s)
    (hF : Allows F ⟨[.regs, .lanes, .districts], 6⟩ := by exact Allows.mono ‹_› rfl) :
    OnlyIn F s₀ (clearLane l s) :=
  h.freeBuffer.addRgF.setRgF.setDistrict.setLane

end OnlyIn

/-! ### Walks over the lanes of a district -/

theorem mem_lanesOf {d l : Nat} : l ∈ lanesOf d ↔ l / 16 = d := by
  simp only [lanesOf, List.mem_map, List.mem_range]
  constructor
  · rintro ⟨i, hi, rfl⟩
    omega
  · intro h
    exact ⟨l % 16, Nat.mod_lt _ (by decide), by omega⟩

theorem nodup_lanesOf (d : Nat) : (lanesOf d).Nodup :=
  (List.nodup_range).map fun a b h => by simpa using h

/-- A walk whose steps change their own lane only changes a lane at most once. -/
theorem lane_forEach {d : Nat} {f : Nat → State → State} {g : LaneState → LaneState} {l : Nat}
    (hself : ∀ t, lane l (f l t) = g (lane l t)) (hother : ∀ q t, q ≠ l → lane l (f q t) = lane l t) (s : State) :
    lane l (forEach (lanesOf d) f s) = if l / 16 = d then g (lane l s) else lane l s := by
  rw [forEach_once (nodup_lanesOf d) (fun _ => True) (v := lane l) (g := g) (fun _ _ _ => trivial)
    (fun t _ => hself t) (fun q t _ h => hother q t h) trivial]
  simp only [mem_lanesOf]

/-! ### Halts -/

/-- A lane's halt bit with its district's, but of a lane in a SEND of kind 2 (R131). -/
def haltLane (h : Bool) (l : Nat) (s : State) : State :=
  setLane l { lane l s with halted := h && !(lane l s).sending } s

theorem setHalt_eq (d : Nat) (h : Bool) (s : State) :
    setHalt d h s = forEach (lanesOf d) (haltLane h) (setDistrict d { district d s with halted := h } s) := rfl

theorem lane_setHalt (d : Nat) (h : Bool) (l : Nat) (s : State) :
    lane l (setHalt d h s) =
      if l / 16 = d then { lane l s with halted := h && !(lane l s).sending } else lane l s := by
  rw [setHalt_eq, lane_forEach (f := haltLane h) (g := fun x => { x with halted := h && !x.sending })
    (fun t => lane_setLane _ _ _) (fun q t hq => lane_setLane_other _ _ _ _ (Ne.symm hq))]
  rfl

theorem onlyIn_haltLanes (h : Bool) (d : Nat) (s : State) :
    OnlyIn ⟨[.lanes], 23⟩ s (forEach (lanesOf d) (haltLane h) s) :=
  (OnlyIn.refl s).forEach fun _ _ h => h.setLane (hF := .mono (.refl _) rfl)

theorem halted_setHalt (d : Nat) (h : Bool) (s : State) : (district d (setHalt d h s)).halted = h := by
  rw [setHalt_eq, district, (onlyIn_haltLanes h d _).keeps .districts]
  exact congrArg DistrictRun.halted (district_setDistrict d _ s)

/-! ### Resets -/

/-- What a reset leaves of a lane (R131, R135). -/
def Cleared (x : LaneState) : Prop :=
  x.run = .idle ∧ x.queue = [] ∧ x.inbox = []

theorem lane_clearLane_self (l : Nat) (s : State) :
    ∃ q p h, lane l (clearLane l s) = { inReset := true, msgSeq := q, faultPc := p, halted := h } :=
  ⟨_, _, _, lane_setLane _ _ _⟩

theorem lanes_freeBuffer (l : Nat) (s : State) : (freeBuffer l s).lanes = s.lanes :=
  (OnlyIn.of (G := ⟨[.districts], 23⟩) fun _ _ => (OnlyIn.refl s).freeBuffer).keeps .lanes

theorem regs_freeBuffer (l : Nat) (s : State) : (freeBuffer l s).regs = s.regs :=
  (OnlyIn.of (G := ⟨[.districts], 23⟩) fun _ _ => (OnlyIn.refl s).freeBuffer).keeps .regs

theorem lane_clearLane_other {l m : Nat} (s : State) (h : m ≠ l) : lane m (clearLane l s) = lane m s := by
  unfold clearLane
  extract_lets s1 ln jobs s2 s3 dr s4
  rw [lane_setLane_other _ _ _ _ h, lane, show s4.lanes = s3.lanes from setDistrict_lanes _ _ _,
    show s3.lanes = s2.lanes from setRg_lanes _ _ _ _, show s2.lanes = s1.lanes from setRg_lanes _ _ _ _,
    lanes_freeBuffer, lane]

theorem length_queuedJobsOf (l : Nat) (s : State) : (queuedJobsOf l s).length = jobCount l s := by
  unfold queuedJobsOf jobCount
  induction (lane l s).queue with
  | nil => rfl
  | cons e q ih =>
    cases e with
    | job j => simpa using ih
    | marker => simpa using ih

theorem regs_clearLane (l : Nat) (s : State) : (clearLane l s).regs =
    (setRgF LNC_DST_FAULTED (l / 16) (l % 16) (l % 16) 0 (addRgF LNC_LANE_CNT_DROP l 31 22 (jobCount l s) s)).regs := by
  have hlen : (queuedJobsOf l (freeBuffer l s)).length = jobCount l s := by
    rw [length_queuedJobsOf, jobCount, lane, lanes_freeBuffer]
    rfl
  unfold clearLane
  extract_lets s1 ln jobs s2 s3 dr s4
  have h2 : s2.regs = (addRgF LNC_LANE_CNT_DROP l 31 22 (jobCount l s) s).regs := by
    rw [show s2 = addRgF LNC_LANE_CNT_DROP l 31 22 jobs.length s1 from rfl, show jobs.length = jobCount l s from hlen]
    unfold addRgF setRgF rgF
    rw [rg_congr (regs_freeBuffer l s)]
    unfold setRg
    rw [show s1.regs = s.regs from regs_freeBuffer l s]
  rw [setLane_regs, show s4.regs = s3.regs from setDistrict_regs _ _ _, show s3 = setRgF _ _ _ _ _ s2 from rfl]
  unfold setRgF
  rw [rg_congr h2]
  unfold setRg
  rw [h2]

theorem mem_clearLane (l : Nat) (s : State) : (clearLane l s).mem = s.mem :=
  (OnlyIn.of (G := ⟨[.regs, .lanes, .districts], 0⟩) fun _ _ => (OnlyIn.refl s).clearLane).keeps .mem

/-- The lane's own counter and mark after its reset (R131). -/
theorem rg_clearLane (l : Nat) (s : State) (hl : l < 1024) :
    rgF LNC_LANE_CNT_DROP l 31 22 (clearLane l s) = (rgF LNC_LANE_CNT_DROP l 31 22 s + jobCount l s) % 2 ^ 10 ∧
      bit (rg LNC_DST_FAULTED (l / 16) (clearLane l s)) (l % 16) = false := by
  rw [rgF, rg_congr (regs_clearLane l s), rg_congr (regs_clearLane l s)]
  constructor
  · rw [setRgF, rg_setRg_other _ _ _ _ _ _ (rkey_ne_of_lt (by decide) (by omega) (by omega))]
    exact rgF_setRgF_same _ _ _ _ _ _ (by decide) (by decide)
  · rw [setRgF, rg_setRg_same]
    exact bit_setBit_same _ (l % 16) false (by omega)

/-- A lane that the reset of its district leaves without a halt. -/
def unhaltLane (l : Nat) (s : State) : State := setLane l { lane l s with halted := false } s

/-- The walks of a district's reset. -/
def clearLanes (d : Nat) (s : State) : State :=
  forEach (lanesOf d) unhaltLane (forEach (lanesOf d) clearLane s)

theorem clearDistrict_eq (d : Nat) (s : State) : clearDistrict d s = setDistrict d
    { district d (clearLanes d s) with halted := false, buffers := [], frxPending := false, sends := [] }
    (clearLanes d s) := rfl

theorem buffers_clearDistrict (d : Nat) (s : State) : (district d (clearDistrict d s)).buffers = [] := by
  rw [clearDistrict_eq, district_setDistrict]

theorem lane_unhaltLane (m l : Nat) (s : State) :
    lane l (unhaltLane m s) = if l = m then { lane l s with halted := false } else lane l s := by
  split
  · next h =>
    subst h
    exact lane_setLane _ _ _
  · next h => exact lane_setLane_other _ _ _ _ h

theorem cleared_clearLane (l m : Nat) (s : State) (h : Cleared (lane l s) ∨ l = m) :
    Cleared (lane l (clearLane m s)) := by
  by_cases hm : l = m
  · subst hm
    obtain ⟨q, p, x, hx⟩ := lane_clearLane_self l s
    rw [hx]
    exact ⟨rfl, rfl, rfl⟩
  · rw [lane_clearLane_other s hm]
    exact h.resolve_right hm

theorem cleared_clearLanes {d l : Nat} (h : l / 16 = d) (s : State) : Cleared (lane l (clearLanes d s)) := by
  refine forEach_keeps (fun t => Cleared (lane l t)) _ _ _ (fun m _ t ht => ?_)
    (forEach_reaches (P := fun l t => Cleared (lane l t)) (fun l t => cleared_clearLane l l t (.inr rfl))
      (fun l m t ht => cleared_clearLane l m t (.inl ht)) (mem_lanesOf.2 h) s)
  rw [lane_unhaltLane]
  split
  · exact ht
  · exact ht

theorem lane_clearLanes_other {d l : Nat} (h : l / 16 ≠ d) (s : State) : lane l (clearLanes d s) = lane l s := by
  have hne : ∀ m ∈ lanesOf d, l ≠ m := fun m hm e => h (e ▸ mem_lanesOf.1 hm)
  refine forEach_keeps (fun t => lane l t = lane l s) _ _ _ (fun m hm t ht => ?_)
    (forEach_keeps (fun t => lane l t = lane l s) _ _ _ (fun m hm t ht => ?_) rfl)
  · rw [lane_unhaltLane, if_neg (hne m hm), ht]
  · rw [lane_clearLane_other t (hne m hm), ht]

theorem mem_clearLanes (d : Nat) (s : State) : (clearLanes d s).mem = s.mem :=
  forEach_keeps (fun t => t.mem = s.mem) _ _ _ (fun _ _ _ ht => ht)
    (forEach_keeps (fun t => t.mem = s.mem) _ _ _ (fun _ _ _ ht => (mem_clearLane _ _).trans ht) rfl)

theorem startReset_district {d : Nat} {s : State} (hd : d < 64) (h : inReset (132 + d) s = false) :
    startReset (132 + d) s = setInReset (132 + d) true (clearDistrict d s) := by
  have hz : zeroesAtStart (132 + d) = false := by
    simp only [zeroesAtStart, decide_eq_false_iff_not]
    omega
  have hc : clearFunction (132 + d) s = clearDistrict d s := by
    unfold clearFunction
    rw [if_neg (by omega), if_neg (by omega), if_pos (by omega), Nat.add_sub_cancel_left]
  unfold startReset
  rw [if_neg (by simp [h]; omega)]
  dsimp only
  rw [if_neg (by omega), hz, if_neg (by omega)]
  exact congrArg (setInReset (132 + d) true) hc

theorem onlyIn_setInReset (f : Nat) (b : Bool) (s : State) : OnlyIn ⟨[.regs], 0⟩ s (setInReset f b s) :=
  .of fun _ _ => (OnlyIn.refl s).setInReset

/-! ### Steps (R127) -/

theorem noteStall_keeps (s : State) :
    (noteStall s).regs = s.regs ∧ (noteStall s).twn = s.twn ∧ (noteStall s).stp.step = s.stp.step := by
  unfold noteStall
  split
  · exact ⟨rfl, rfl, rfl⟩
  · exact ⟨rfl, rfl, rfl⟩

/-- The end of a step: its number counted on, what it merged dropped. -/
def stepEnded (n : Nat) (s : State) : State :=
  noteStall (endMerge n (setRg LNC_STEP 0 (w32 (n + 1)) { s with stp := { s.stp with step := n + 1 } }))

theorem beginStep_ends (n : Nat) (tb : Word) (s : State) : ∃ u : State, beginStep n tb s = stepEnded n u := ⟨_, rfl⟩

theorem stepEnded_spec (n : Nat) (s : State) : (stepEnded n s).stp.step = n + 1 ∧
    rg LNC_STEP 0 (stepEnded n s) = w32 (n + 1) ∧ (∀ x ∈ (stepEnded n s).twn.inputs, n < x.step) ∧
    ∀ x ∈ (stepEnded n s).twn.markers, n + 1 < x.1 := by
  obtain ⟨hr, ht, hs⟩ := noteStall_keeps
    (endMerge n (setRg LNC_STEP 0 (w32 (n + 1)) { s with stp := { s.stp with step := n + 1 } }))
  refine ⟨hs, (rg_congr hr _ _).trans (rg_setRg_same _ _ _ _), fun x hx => ?_, fun x hx => ?_⟩
  · rw [stepEnded, ht] at hx
    exact of_decide_eq_true (List.mem_filter.1 hx).2
  · rw [stepEnded, ht] at hx
    exact of_decide_eq_true (List.mem_filter.1 hx).2

theorem stepBegin_takes {tb : Word} {s : State} (hm : stepMode s = true) (hr : mergeReady s.stp.step s = true)
    (hj : jobsEnded s = true) (ht : markerTime (s.stp.step + 1) s = some tb) :
    stepBegin s = beginStep s.stp.step tb s := by
  unfold stepBegin
  rw [if_neg (by simp [hm, hr, hj]), ht]

theorem stepBegin_waits {s : State} (h : stepMode s = false ∨ mergeReady s.stp.step s = false ∨ jobsEnded s = false ∨
    markerTime (s.stp.step + 1) s = none) : stepBegin s = s := by
  unfold stepBegin
  split
  · rfl
  · next hn =>
    simp only [not_or, not_not] at hn
    obtain ⟨hm, hr, hj⟩ := hn
    rcases h with h | h | h | h
    · simp [hm] at h
    · simp [hr] at h
    · simp [hj] at h
    · rw [h]

/-- Settles O33: what the walks over a district's lanes leave, and what the end of a step drops. -/
theorem laneControlsAndStepsTakeEffect : Obligations.LaneControlsAndStepsTakeEffect := by
  refine ⟨⟨fun d s hr hm c hc => ?_, fun l s hr hm => ?_, fun l s hr hd => ?_, fun d s hm hr => ?_,
    fun l d s hm hl hd => ⟨?_, ?_, ?_, ?_⟩⟩, fun tb s hm hr hj ht => ?_, fun s h => congrArg Host.Outcome.next
      (stepBegin_waits h)⟩
  · have hset : ∀ h : Bool, (district d (setHalt d h s)).halted = h ∧
        (∀ l : Lane, l.val / 16 = d → lane l (setHalt d h s) =
          { lane l s with halted := h && !(lane l s).sending }) ∧
        (∀ l : Lane, l.val / 16 ≠ d → lane l (setHalt d h s) = lane l s) ∧ (setHalt d h s).regs = s.regs ∧
        (setHalt d h s).mem = s.mem := fun h =>
      ⟨halted_setHalt d h s, fun l hl => by rw [lane_setHalt, if_pos hl], fun l hl => by rw [lane_setHalt, if_neg hl],
        ((onlyIn_haltLanes h d _).keeps .regs).trans rfl, ((onlyIn_haltLanes h d _).keeps .mem).trans rfl⟩
    have hhalt : exec (.districtHalt d) s = .next (setHalt d true s) :=
      congrArg Host.Outcome.next ((if_neg (by simp [hr])).trans (if_neg (by simp [hm])))
    have hres : exec (.districtResume d) s = .next (setHalt d false s) :=
      congrArg Host.Outcome.next ((if_neg (by simp [hr])).trans (if_neg (by simp [hm])))
    simp only [List.mem_cons, List.not_mem_nil, or_false] at hc
    rcases hc with rfl | rfl
    · exact ⟨_, hhalt, hset true⟩
    · exact ⟨_, hres, hset false⟩
  · obtain ⟨hcount, hmark⟩ := rg_clearLane l s (by omega)
    obtain ⟨q, p, x, hx⟩ := lane_clearLane_self l s
    refine ⟨_, congrArg Host.Outcome.next ((if_neg (by simp [hr])).trans (if_neg (by simp [hm]))), ?_, ?_, ?_, ?_, ?_,
      ?_, hcount, hmark, fun m hne => lane_clearLane_other s fun e => hne (Fin.ext e), mem_clearLane l s⟩
    all_goals rw [hx]
  · unfold exec
    exact ⟨_, congrArg Host.Outcome.next (if_neg (by simp [hr, hd])), congrArg LaneState.inReset (lane_setLane _ _ _)⟩
  · have he : districtReset d s = setInReset (132 + d) true (clearDistrict d s) :=
      (if_neg (by simp [hr])).trans ((if_neg (by simp [hm])).trans (startReset_district d.isLt hr))
    have ho := onlyIn_setInReset (132 + d) true (clearDistrict d s)
    refine ⟨_, congrArg Host.Outcome.next he, inReset_setInReset _ (by omega), ?_, fun l hl => ?_, fun l hl => ?_, ?_⟩
    · rw [district, ho.keeps .districts]
      exact buffers_clearDistrict d s
    · rw [lane, ho.keeps .lanes, clearDistrict_eq, setDistrict_lanes]
      exact cleared_clearLanes hl s
    · rw [lane, ho.keeps .lanes, clearDistrict_eq, setDistrict_lanes]
      exact lane_clearLanes_other hl s
    · rw [ho.keeps .mem, clearDistrict_eq, setDistrict_mem]
      exact mem_clearLanes d s
  · exact congrArg Host.Outcome.next ((if_neg (by simp [hl])).trans (if_pos hm))
  · exact congrArg Host.Outcome.next ((if_neg (by simp [hd])).trans (if_pos hm))
  · exact congrArg Host.Outcome.next ((if_neg (by simp [hd])).trans (if_pos hm))
  · exact congrArg Host.Outcome.next ((if_neg (by simp [hd])).trans (if_pos hm))
  · obtain ⟨u, hu⟩ := beginStep_ends s.stp.step tb s
    exact ⟨_, congrArg Host.Outcome.next ((stepBegin_takes hm hr hj ht).trans hu), stepEnded_spec _ u⟩

end Sys2Proof.Machine
end

section
/-! PROOF. O34: links, beacons and clamp events of field ports. A link change writes the port's status, its cause and
registers of later blocks, so the port's settings stand; a reset ends in a link that is down. -/

set_option Elab.async false

namespace Sys2Proof.Machine

open Sys2Proof

/-! ### What these operations write -/

namespace OnlyIn

variable {F : Scope} {s₀ s : State}

theorem chkResult {c k} (h : OnlyIn F s₀ s)
    (hF : Allows F ⟨[.regs, .pulses], 3⟩ := by exact Allows.mono ‹_› rfl) :
    OnlyIn F s₀ (chkResult c k s) :=
  h.setRgF.pulseSource

theorem chkHold {c a} (h : OnlyIn F s₀ s)
    (hF : Allows F ⟨[.regs], 12⟩ := by exact Allows.mono ‹_› rfl) :
    OnlyIn F s₀ (chkHold c a s) :=
  h.setRgF.setRgF

theorem chkVerdict {c data} (h : OnlyIn F s₀ s)
    (hF : Allows F ⟨[.regs, .pulses, .flt], 3⟩ := by exact Allows.mono ‹_› rfl) :
    OnlyIn F s₀ (chkVerdict c data s).1 :=
  h.bump.setCause.chkResult.ite_fst (h.bump.setCause.chkResult.ite_fst
    (h.bump.chkResult.ite_fst (h.bump.chkHold.chkResult.ite_fst
    (h.bump.setCause.chkResult.ite_fst (h.bump.addRgF.chkHold.chkResult.ite_fst h.bump.setCause.chkHold.chkResult)))))

theorem dropQueued {port cls p} (h : OnlyIn F s₀ s)
    (hF : Allows F ⟨[.jct, .tpk], 23⟩ := by exact Allows.mono ‹_› rfl) :
    OnlyIn F s₀ (dropQueued port cls p s) :=
  h.setJqueue.forEach (fun _ _ h1 => h1.releaseRef)

theorem dropUnstarted {id count} (h : OnlyIn F s₀ s) (hf : ∀ x0 t, OnlyIn F s₀ t → OnlyIn F s₀ (count x0 t))
    (hF : Allows F ⟨[.jct, .tpk], 23⟩ := by exact Allows.mono ‹_› rfl) :
    OnlyIn F s₀ (dropUnstarted id count s) :=
  h.forEach (fun _ _ h1 => hf _ _ h1.dropQueued)

theorem setPointRun {n p} (h : OnlyIn F s₀ s)
    (hF : Allows F ⟨[.wpt], 23⟩ := by exact Allows.mono ‹_› rfl) :
    OnlyIn F s₀ (setPointRun n p s) :=
  h.with_wpt

theorem failPoints {ctx} (h : OnlyIn F s₀ s)
    (hF : Allows F ⟨[.wpt], 23⟩ := by exact Allows.mono ‹_› rfl) :
    OnlyIn F s₀ (failPoints ctx s) :=
  h.ite (h.forEach (fun _ _ h1 => h1.setPointRun))

theorem putLine {p kind b} (h : OnlyIn F s₀ s)
    (hF : Allows F ⟨[.regs, .macs], 7⟩ := by exact Allows.mono ‹_› rfl) :
    OnlyIn F s₀ (putLine p kind b s) :=
  h.setMacRun.onlyIf fun _ h1 => h1.setRgF

theorem stompLine {p n c} (h : OnlyIn F s₀ s)
    (hF : Allows F ⟨[.regs, .macs, .flt], 7⟩ := by exact Allows.mono ‹_› rfl) :
    OnlyIn F s₀ (stompLine p n c s) :=
  (h.putLine.ite h.putLine).macBump

theorem setRecHist {n x} (h : OnlyIn F s₀ s)
    (hF : Allows F ⟨[.regs], 11⟩ := by exact Allows.mono ‹_› rfl) :
    OnlyIn F s₀ (setRecHist n x s) :=
  h.setRg.setRg.setRg.setRg

theorem revertSeq {n q} (h : OnlyIn F s₀ s)
    (hF : Allows F ⟨[.regs, .flt], 11⟩ := by exact Allows.mono ‹_› rfl) :
    OnlyIn F s₀ (revertSeq n q s) :=
  h.setRecHist.bump.setCause.ite h

theorem tollGiveBack {i b c} (h : OnlyIn F s₀ s)
    (hF : Allows F ⟨[.tpk], 23⟩ := by exact Allows.mono ‹_› rfl) :
    OnlyIn F s₀ (tollGiveBack i b c s) := by
  unfold Machine.tollGiveBack
  split
  · exact h
  · split
    · exact h
    · exact h.setTollP
    · exact h.setTollP.setTollC

theorem countRule {i v} (h : OnlyIn F s₀ s)
    (hF : Allows F ⟨[.regs], 9⟩ := by exact Allows.mono ‹_› rfl) :
    OnlyIn F s₀ (countRule i v s) := by
  unfold Machine.countRule
  split <;> exact h.bump

theorem setArriving {p a} (h : OnlyIn F s₀ s)
    (hF : Allows F ⟨[.macs], 23⟩ := by exact Allows.mono ‹_› rfl) :
    OnlyIn F s₀ (setArriving p a s) :=
  h.setMacRun

theorem giveBackEarly {p k length} (h : OnlyIn F s₀ s)
    (hF : Allows F ⟨[.tpk], 23⟩ := by exact Allows.mono ‹_› rfl) :
    OnlyIn F s₀ (giveBackEarly p k length s) := by
  unfold Machine.giveBackEarly
  split
  · exact h.tollGiveBack
  · exact h

theorem t1lStatus {p up level isMaster lpiTx lpiRx} (h : OnlyIn F s₀ s)
    (hF : Allows F ⟨[.regs], 7⟩ := by exact Allows.mono ‹_› rfl) :
    OnlyIn F s₀ (t1lStatus p up level isMaster lpiTx lpiRx s) :=
  h.setRgF.setRgF

theorem t1lLink {p up x isMaster lpiTx lpiRx} (h : OnlyIn F s₀ s)
    (hF : Allows F ⟨[.regs, .pulses, .ports, .macs, .jct, .tpk, .flt], 3⟩ := by exact Allows.mono ‹_› rfl) :
    OnlyIn F s₀ (t1lLink p up x isMaster lpiTx lpiRx s) :=
  h.setPortRun.setLink.t1lStatus

theorem addSurgeClass {p c n} (h : OnlyIn F s₀ s)
    (hF : Allows F ⟨[.regs], 7⟩ := by exact Allows.mono ‹_› rfl) :
    OnlyIn F s₀ (addSurgeClass p c n s) :=
  h.addRgF

theorem surgeClampEvent {p peakMa durationNs gapNs start} (h : OnlyIn F s₀ s)
    (hF : Allows F ⟨[.regs, .pulses, .ports, .flt], 3⟩ := by exact Allows.mono ‹_› rfl) :
    OnlyIn F s₀ (surgeClampEvent p peakMa durationNs gapNs start s) := by
  unfold Machine.surgeClampEvent
  split
  · exact h
  · dsimp only
    split
    · exact (h.onlyIf (fun _ h1 => h1.setVerge)).setPortRun.addSurgeClass.addSurgeClass.ite
        (h.onlyIf (fun _ h1 => h1.setVerge))
    · exact (h.onlyIf (fun _ h1 => h1.setVerge)).setPortRun.bump.addSurgeClass.setRg.pulseSource.setCause

theorem endOnLine {c} (h : OnlyIn F s₀ s)
    (hF : Allows F ⟨[.regs, .macs, .jct, .tpk, .flt], 7⟩ := by exact Allows.mono ‹_› rfl) :
    OnlyIn F s₀ (endOnLine c s) :=
  (h.onlyIf (fun _ h1 => h1.stompLine)).endHanded

theorem endRemainder {c} (h : OnlyIn F s₀ s)
    (hF : Allows F ⟨[.regs, .macs, .jct, .tpk, .flt], 7⟩ := by exact Allows.mono ‹_› rfl) :
    OnlyIn F s₀ (endRemainder c s) :=
  h.stompLine.endSuspended

theorem killCopies {id} (h : OnlyIn F s₀ s)
    (hF : Allows F ⟨[.regs, .macs, .jct, .tpk, .flt], 7⟩ := by exact Allows.mono ‹_› rfl) :
    OnlyIn F s₀ (killCopies id s) :=
  ((h.forEach (fun _ _ h1 => h1.endOnLine)).forEach (fun _ _ h1 => h1.endRemainder)).dropUnstarted (fun _ _ h1 => h1)

theorem giveBack {f c} (h : OnlyIn F s₀ s)
    (hF : Allows F ⟨[.tpk, .gates], 23⟩ := by exact Allows.mono ‹_› rfl) :
    OnlyIn F s₀ (giveBack f c s) :=
  (h.forEach (fun _ _ h1 => h1.shaperSetCredit)).with_tpk

theorem giveBackPort {f p} (h : OnlyIn F s₀ s)
    (hF : Allows F ⟨[.tpk, .gates], 23⟩ := by exact Allows.mono ‹_› rfl) :
    OnlyIn F s₀ (giveBackPort f p s) := by
  unfold Machine.giveBackPort
  dsimp only
  split
  · refine setSuspended ?_
    refine giveBack ?_
    split
    · exact h.giveBack.setHanded
    · exact h
  · split
    · exact h.giveBack.setHanded
    · exact h

theorem completeFrame {f length received} (h : OnlyIn F s₀ s)
    (hF : Allows F ⟨[.jct, .tpk, .gates], 23⟩ := by exact Allows.mono ‹_› rfl) :
    OnlyIn F s₀ (completeFrame f length received s) := by
  unfold Machine.completeFrame
  refine forEach ?_ (fun _ _ h1 => h1.giveBackPort)
  refine forEach ?_ (fun _ _ h1 => h1.setJqueue)
  split
  · exact h.setJframe.tollGiveBack
  · exact h.setJframe

theorem cutVerdict {f} (h : OnlyIn F s₀ s)
    (hF : Allows F ⟨[.regs, .pulses, .flt, .wpt], 3⟩ := by exact Allows.mono ‹_› rfl) :
    OnlyIn F s₀ (cutVerdict f s).1 := by
  unfold Machine.cutVerdict
  split
  · exact h
  · exact (h.bump.ite_fst h.chkVerdict).onlyIf fun _ h1 => h1.failPoints

theorem dropOversizeTags {f} (h : OnlyIn F s₀ s)
    (hF : Allows F ⟨[.regs, .jct, .tpk, .flt], 11⟩ := by exact Allows.mono ‹_› rfl) :
    OnlyIn F s₀ (dropOversizeTags f s) :=
  h.forEach (fun _ _ h1 => h1.dropQueued.countOversize)

theorem revertPassed {r} (h : OnlyIn F s₀ s)
    (hF : Allows F ⟨[.regs, .flt], 11⟩ := by exact Allows.mono ‹_› rfl) :
    OnlyIn F s₀ (revertPassed r s) := by
  unfold Machine.revertPassed
  split
  · exact h.revertSeq
  · exact h

theorem reapFrame {id} (h : OnlyIn F s₀ s)
    (hF : Allows F ⟨[.jct], 23⟩ := by exact Allows.mono ‹_› rfl) :
    OnlyIn F s₀ (reapFrame id s) := by
  unfold Machine.reapFrame
  split
  · exact h.releaseRef.ite h
  · exact h

theorem settleCut {f good} (h : OnlyIn F s₀ s)
    (hF : Allows F ⟨[.regs, .pulses, .macs, .jct, .tpk, .flt, .wpt], 3⟩ := by exact Allows.mono ‹_› rfl) :
    OnlyIn F s₀ (settleCut f good s) :=
  h.cutVerdict.killCopies.ite (h.cutVerdict.dropOversizeTags.ite h.cutVerdict.bump.setCause.killCopies)

theorem endCut {id length good} (h : OnlyIn F s₀ s)
    (hF : Allows F ⟨[.regs, .pulses, .macs, .jct, .tpk, .flt, .wpt, .gates], 3⟩ := by exact Allows.mono ‹_› rfl) :
    OnlyIn F s₀ (endCut id length good s) := by
  unfold Machine.endCut
  split
  · exact h
  · refine reapFrame ?_
    refine onlyIf ?_ fun _ h1 => h1.revertPassed
    refine settleCut ?_
    split
    · exact h.completeFrame.countRule
    · exact h.completeFrame

theorem arrivalLost {p} (h : OnlyIn F s₀ s)
    (hF : Allows F ⟨[.regs, .pulses, .macs, .jct, .tpk, .flt, .wpt, .gates], 3⟩ := by exact Allows.mono ‹_› rfl) :
    OnlyIn F s₀ (arrivalLost p s) := by
  unfold Machine.arrivalLost
  split
  · exact h
  · dsimp only
    split
    · exact h.setArriving.endCut
    · exact h.setArriving.giveBackEarly.revertPassed

theorem clearMac {p} (h : OnlyIn F s₀ s)
    (hF : Allows F ⟨[.regs, .pulses, .macs, .jct, .tpk, .flt, .wpt, .gates], 3⟩ := by exact Allows.mono ‹_› rfl) :
    OnlyIn F s₀ (clearMac p s) :=
  ((h.onlyIf (fun _ h1 => h1.macBump)).arrivalLost.macBump.ite
    (h.onlyIf (fun _ h1 => h1.macBump))).lineLost.setMacRun.restartVerify

end OnlyIn

/-! ### Event lines and link changes -/

theorem lt_sourcedLines {t : Sparse Word} {x : Nat × Word} (h : x ∈ sourcedLines t) : x.1 < 2 ^ 24 := by
  induction t with
  | nil => simp [sourcedLines] at h
  | cons y t ih =>
    obtain ⟨k, v⟩ := y
    unfold sourcedLines at h
    split at h
    · obtain rfl | h := List.mem_cons.1 h
      · exact Nat.mod_lt _ (by decide)
      · exact ih h
    · exact ih h

theorem rg_pulseLineAt_other {r i l : Nat} {ns : Word} {s : State} (h : rkey r i ≠ rkey MST_EVT_CNT l) :
    rg r i (pulseLineAt l ns s) = rg r i s := by
  unfold pulseLineAt
  split
  · rfl
  · split
    · exact rg_bump_other h
    · exact rg_bump_other h

/-- A source's pulse counts at the lines that have it and writes no other register. -/
theorem rg_pulseSource_other {r i : Nat} (e : EventSource) (s : State) (hr : MST_EVT_CNT < r) :
    rg r i (pulseSource e s) = rg r i s :=
  forEach_keeps (fun t => rg r i t = rg r i s) _ _ s (fun _ hx _ ht =>
    (rg_pulseLineAt_other (ne_of_gt (rkey_lt_of_lt hr (lt_sourcedLines (List.mem_filter.1 hx).1)))).trans ht) rfl

/-- What the loss of a port's link does at its MAC and in its status (R173, R203). -/
def linkLost (p : Nat) (s : State) : State := linkFailed p (lineLost p (clearLinkStatus p s))

theorem rg_linkLost {p r i : Nat} (s : State) (hlt : rkey r i < rkey 0x8000 0) :
    rg r i (linkLost p s) = rg r i (clearLinkStatus p s) :=
  (OnlyIn.of (G := ⟨[.regs, .macs, .jct, .tpk, .flt], 8⟩) fun _ _ => (OnlyIn.refl _).lineLost.linkFailed).rg r i hlt

theorem rg_linkLost_other {p r i : Nat} (s : State) (hlt : rkey r i < rkey 0x8000 0)
    (hst : rkey r i ≠ rkey FPA_PORT_STAT p) : rg r i (linkLost p s) = rg r i s :=
  (rg_linkLost s hlt).trans ((rg_setRgF_other hst).trans (rg_setRgF_other hst))

theorem link_linkLost {p : Nat} (s : State) (hp : p < 2 ^ 24) :
    bit (rg FPA_PORT_STAT p (linkLost p s)) 0 = bit (rg FPA_PORT_STAT p s) 0 := by
  rw [rg_linkLost s (rkey_lt_of_lt (by decide) hp), clearLinkStatus, setRgF, rg_setRg_same,
    bit_setFld_other _ (by decide) (by decide), setRgF, rg_setRg_same, bit_setFld_other _ (by decide) (by decide)]

theorem setLink_changes {p : Nat} {up : Bool} {s : State} (h : bit (rg FPA_PORT_STAT p s) 0 ≠ up) :
    setLink p up s = pulseSource (.port p (if up then 0 else 1)) (setCause FPA_CAUSE p 0
      (onlyIf (!up) (linkLost p) (setRgF FPA_PORT_STAT p 0 0 (b2n up) s))) := if_neg h

theorem rg_setLink_other {p r i : Nat} (up : Bool) (s : State) (hr : MST_EVT_CNT < r)
    (hlt : rkey r i < rkey 0x8000 0) (hst : rkey r i ≠ rkey FPA_PORT_STAT p) (hc : rkey r i ≠ rkey FPA_CAUSE p) :
    rg r i (setLink p up s) = rg r i s := by
  by_cases h : bit (rg FPA_PORT_STAT p s) 0 = up
  · rw [setLink, if_pos h]
  · rw [setLink_changes h, rg_pulseSource_other _ _ hr, rg_setCause_other hc (hlt.trans (by decide))]
    exact (onlyIf_keeps (v := rg r i) (rg_linkLost_other _ hlt hst)).trans (rg_setRgF_other hst)

theorem link_setLink {p : Nat} (up : Bool) (s : State) (hp : p < 2 ^ 24) :
    bit (rg FPA_PORT_STAT p (setLink p up s)) 0 = up := by
  by_cases h : bit (rg FPA_PORT_STAT p s) 0 = up
  · rw [setLink, if_pos h, h]
  · rw [setLink_changes h, rg_pulseSource_other _ _ (by decide),
      rg_setCause_other (rkey_ne_of_lt (by decide) hp hp) (rkey_lt_of_lt (by decide) hp)]
    refine (onlyIf_keeps (v := fun t => bit (rg FPA_PORT_STAT p t) 0) (link_linkLost _ hp)).trans ?_
    rw [setRgF, rg_setRg_same]
    cases up
    · exact bit_setBit_same _ 0 false (by decide)
    · exact bit_setBit_same _ 0 true (by decide)

theorem onlyIn_setLink (p : Nat) (up : Bool) (s : State) :
    OnlyIn ⟨[.regs, .pulses, .macs, .jct, .tpk, .flt], 0⟩ s (setLink p up s) :=
  .of fun _ _ => (OnlyIn.refl s).setLink

/-! ### Resets of ports (R189) -/

theorem verge_setVerge (p : Nat) (v : Verge) (s : State) : verge p (setVerge p v s) = v := by
  rw [verge, setVerge, portRun_setPortRun]

/-- The record of a window written where memory takes it (R186). -/
def recordVerge (p a : Nat) (v : Verge) (ans : MemAnswer) (s : State) : State :=
  if ¬ canReach .unit true a 1024 s then s
  else if ¬ memGood (answer a ans s) then noteAnswer a (answer a ans s) s
  else
    wrBytes a (vergeRecord ((portRun p s).records + 1).toNat v) (bump FPA_VRG_CNT p 31 16
      (setPortRun p { portRun p s with records := (portRun p s).records + 1 } (noteAnswer a (answer a ans s) s)))

/-- A window's energy mark when it ends: a measurement under way counts (R184). -/
def endedVerge (v : Verge) : Verge := { v with energy := v.energy || (v.current.isSome && v.currentEnergy) }

/-- A disturbed window counted (R183). -/
def noteDisturbed (p : Nat) (v : Verge) (s : State) : State :=
  onlyIf ((List.range 6).any fun k => decide (sget 0 k v.status = 1))
    (fun s => setCause FPA_CAUSE p 2 (bump FPA_VRG_CNT p 15 0 s)) s

theorem closeVerge_eq (p : Nat) (v : Verge) (ans : MemAnswer) (s : State) :
    closeVerge p v ans s = pulseSource (.port p 3)
      (recordVerge p (vergeAddr p s) (endedVerge v) ans (noteDisturbed p (endedVerge v) (setVerge p {} s))) := rfl

theorem verge_congr {s t : State} (h : t.ports = s.ports) (p : Nat) : verge p t = verge p s := by
  rw [verge, verge, portRun, portRun, h]

theorem verge_recordVerge (p a : Nat) (v : Verge) (ans : MemAnswer) (s : State) :
    verge p (recordVerge p a v ans s) = verge p s := by
  have hn := (OnlyIn.of (G := ⟨[.regs, .flt], 0⟩) fun _ _ =>
    (OnlyIn.refl s).noteAnswer (a := a) (ans := answer a ans s)).keeps .ports
  unfold recordVerge
  split
  · rfl
  · split
    · exact verge_congr hn p
    · rw [verge_congr (wrBytes_ports _ _ _), bump, addRgF, setRgF, verge_congr (setRg_ports _ _ _ _), verge,
        portRun_setPortRun]
      rfl

theorem ports_noteDisturbed (p : Nat) (v : Verge) (s : State) : (noteDisturbed p v s).ports = s.ports :=
  onlyIf_keeps (v := State.ports)
    ((OnlyIn.of (G := ⟨[.regs, .flt], 0⟩) fun _ _ => (OnlyIn.refl s).bump.setCause).keeps .ports)

theorem verge_closeVerge (p : Nat) (v : Verge) (ans : MemAnswer) (s : State) : verge p (closeVerge p v ans s) = {} := by
  rw [closeVerge_eq, verge_congr ((OnlyIn.of (G := ⟨[.regs, .pulses], 0⟩) fun _ _ =>
    (OnlyIn.refl _).pulseSource).keeps .ports), verge_recordVerge, verge_congr (ports_noteDisturbed p _ _)]
  exact verge_setVerge p {} s

theorem verge_abortVerge (p : Nat) (ans : MemAnswer) (s : State) : (verge p (abortVerge p ans s)).state = .none := by
  unfold abortVerge
  dsimp only
  split
  · next h => exact h
  · exact congrArg Verge.state (verge_setVerge p {} s)
  · exact congrArg Verge.state (verge_closeVerge p _ ans s)

/-- A port's reset before its line is cut: window, reception and serial state gone. -/
def portStopped (p : Nat) (s : State) : State :=
  let s := abortVerge p .ok s
  let s := if receiving p s then macBump 21 p s else s
  let s := clearReception p s
  setPortRun p { portRun p s with response := false, cycleStart := none, oppLeft := 0, oppEnd := none } s

theorem clearPort_eq (p : Nat) (s : State) : clearPort p s = setLink p false (clearMac p (portStopped p s)) := rfl

theorem portRun_portStopped (p : Nat) (s : State) :
    (verge p (portStopped p s)).state = .none ∧ (portRun p (portStopped p s)).chars = [] := by
  have hb : ∀ b : Bool, (verge p (if b = true then macBump 21 p (abortVerge p .ok s)
      else abortVerge p .ok s)).state = .none := by
    intro b
    have hm := verge_abortVerge p .ok s
    split
    · rw [verge_congr (s := abortVerge p .ok s) ((OnlyIn.of (G := ⟨[.regs, .flt], 0⟩) fun _ _ =>
        (OnlyIn.refl _).macBump).keeps .ports)]
      exact hm
    · exact hm
  unfold portStopped
  extract_lets s1 s2 s3
  have h3 : portRun p s3 = { portRun p s2 with
    chars := [], broken := false, framing := false, parity := false, errIndex := none } := portRun_setPortRun p _ s2
  rw [verge, portRun_setPortRun]
  exact ⟨(congrArg (fun r => r.verge.state) h3).trans (hb (receiving p s1)), congrArg PortRun.chars h3⟩

theorem portRun_clearPort (p q : Nat) (s : State) : portRun q (clearPort p s) = portRun q (portStopped p s) := by
  rw [portRun, clearPort_eq, (onlyIn_setLink p false _).keeps .ports, (OnlyIn.of (G := ⟨[.regs, .pulses, .macs, .jct,
    .tpk, .flt, .wpt, .gates], 0⟩) fun _ _ => (OnlyIn.refl _).clearMac).keeps .ports]
  rfl

theorem startReset_port {p : Nat} {s : State} (hp : p < 128) (h : inReset p s = false) :
    startReset p s = setInReset p true (clearPort p s) := by
  have hz : zeroesAtStart p = false := by
    simp only [zeroesAtStart, decide_eq_false_iff_not]
    omega
  have hc : clearFunction p s = clearPort p s := if_pos hp
  unfold startReset
  rw [if_neg (by simp [h]; omega)]
  dsimp only
  rw [if_neg (by omega), hz, if_neg (by omega)]
  exact congrArg (setInReset p true) hc

/-! ### T1L links (R172, R173) -/

/-- The settings of a port stand through a link change. -/
theorem rg_setLink_settings {p r i : Nat} (up : Bool) (s : State) (hr : MST_EVT_CNT < r) (hlt : r < 0x8000)
    (hst : r ≠ FPA_PORT_STAT) (hc : r ≠ FPA_CAUSE) (hi : i < 2 ^ 24) (hp : p < 2 ^ 24) :
    rg r i (setLink p up s) = rg r i s :=
  rg_setLink_other up s hr (rkey_lt_of_lt hlt hi) (rkey_ne_of_lt hst hi hp) (rkey_ne_of_lt hc hi hp)

/-- The link status of a T1L port as it is shown once the link has been set. -/
theorem t1lStatus_spec {p level : Nat} (up ma lt lr : Bool) (s : State) (hp : p < 128)
    (hl : (t1lSetting p level ma s).1 * 2 + b2n (t1lSetting p level ma s).2 < 8 ∨ up = false) :
    let t := t1lStatus p up level ma lt lr s
    bit (rg FPA_PORT_STAT p t) 0 = bit (rg FPA_PORT_STAT p s) 0 ∧
      rgF FPA_PORT_STAT p 7 5 t = (if up then
        (t1lSetting p level ma s).1 * 2 + b2n (t1lSetting p level ma s).2 else 0) ∧
      eeeInEffect p t = eeeInEffect p s ∧ bit (rg FPA_PORT_STAT p t) 15 = (lr && eeeInEffect p s) := by
  intro t
  have ht : rg FPA_PORT_STAT p t = setFld (setFld (rg FPA_PORT_STAT p s) 7 5
      (if up then (t1lSetting p level ma s).1 * 2 + b2n (t1lSetting p level ma s).2 else 0)) 15 13
      (4 * b2n (lr && eeeInEffect p s) + 2 * b2n ((lt && eeeInEffect p s) || (verge p s).state != .none)) := by
    show rg FPA_PORT_STAT p (t1lStatus p up level ma lt lr s) = _
    unfold t1lStatus
    dsimp only
    rw [setRgF, rg_setRg_same, setRgF, rg_setRg_same]
  have hother : rg FPA_T1L_CFG p t = rg FPA_T1L_CFG p s :=
    (rg_setRgF_other (rkey_ne_of_lt (by decide) (by omega) (by omega))).trans
      (rg_setRgF_other (rkey_ne_of_lt (by decide) (by omega) (by omega)))
  have h0 : bit (rg FPA_PORT_STAT p t) 0 = bit (rg FPA_PORT_STAT p s) 0 := by
    rw [ht, bit_setFld_other _ (by decide) (by decide), bit_setFld_other _ (by decide) (by decide)]
  refine ⟨h0, ?_, ?_, ?_⟩
  · rw [rgF, ht, fld_setFld_other _ (by decide) (by decide) (by decide) (by decide),
      fld_setFld_same _ _ _ _ (by decide) (by decide)]
    refine Nat.mod_eq_of_lt ?_
    split
    · next h => exact hl.resolve_right (by simp [h])
    · decide
  · rw [eeeInEffect, eeeInEffect, linkUp, linkUp, if_pos hp, if_pos hp, h0, hother]
    rfl
  · rw [ht, bit, setFld_getLsbD _ _ _ _ _ (by decide), if_pos (by decide)]
    generalize (lr && eeeInEffect p s) = a
    generalize ((lt && eeeInEffect p s) || (verge p s).state != .none) = c
    revert a c
    decide

theorem linkChange_elsewhere {p : Nat} {up ma lt lr pl : Bool} {x : LinkPartner} {s : State}
    (h : portOn p s = false ∨ isSerial p s = true ∨ dieUp (p / 64) s = false) :
    linkChange p up x ma lt lr pl s = s := if_pos (by simpa using h)

theorem linkChange_t1l {p : Nat} {up ma lt lr pl : Bool} {x : LinkPartner} {s : State} (ho : portOn p s = true)
    (hs : isSerial p s = false) (hd : dieUp (p / 64) s = true) (hm : portMode p s = 0) :
    linkChange p up x ma lt lr pl s = t1lLink p up x ma lt lr s :=
  (if_neg (by simp [ho, hs, hd])).trans (if_pos hm)

theorem linkChange_other {p : Nat} {up ma lt lr pl : Bool} {x : LinkPartner} {s : State} (ho : portOn p s = true)
    (hs : isSerial p s = false) (hd : dieUp (p / 64) s = true) (hm : portMode p s ≠ 0) :
    linkChange p up x ma lt lr pl s =
      setRgF FPA_PORT_STAT p 15 13 (b2n (pl && plcaRuns p s)) (setLink p up s) :=
  (if_neg (by simp [ho, hs, hd])).trans (if_neg hm)

/-- A T1L port's run with EEE as it was advertised. -/
def eeeSet (p : Nat) (e : Bool) (s : State) : State := setPortRun p { portRun p s with eee := e } s

theorem t1lLink_eq (p : Nat) (up : Bool) (x : LinkPartner) (ma lt lr : Bool) (s : State) :
    t1lLink p up x ma lt lr s = t1lStatus p (up && t1lAgrees p x.level.toNat ma s) x.level.toNat ma lt lr
      (setLink p (up && t1lAgrees p x.level.toNat ma s)
        (eeeSet p ((up && t1lAgrees p x.level.toNat ma s) && x.eee) s)) := rfl

/-- The setting of an agreed link has a code of three bits. -/
theorem t1lSetting_lt {p level : Nat} {up ma : Bool} {s : State} (h : (up && t1lAgrees p level ma s) = true) :
    (t1lSetting p level ma s).1 * 2 + b2n (t1lSetting p level ma s).2 < 8 := by
  have hb : ∀ b : Bool, b2n b < 2 := by decide
  obtain ⟨-, ha⟩ := Bool.and_eq_true_iff.1 h
  unfold t1lSetting
  by_cases hn : t1lNegotiates p s = true
  · have hl : level = 1 ∨ level = 2 := by
      simp only [t1lAgrees, hn, Bool.not_true, Bool.false_or, Bool.and_eq_true, decide_eq_true_eq] at ha
      exact ha.1.1
    rw [if_pos hn]
    have := hb ma
    dsimp only
    omega
  · rw [if_neg hn]
    have := hb (t1lRole p s == 1)
    have : t1lLevel p s < 3 := Nat.mod_lt _ (by decide)
    dsimp only
    omega

theorem t1lSetting_congr {s t : State} {p : Nat} (h : rg FPA_T1L_CFG p t = rg FPA_T1L_CFG p s) (level : Nat)
    (ma : Bool) : t1lSetting p level ma t = t1lSetting p level ma s := by
  unfold t1lSetting t1lNegotiates t1lLevel t1lRole rgF
  rw [h]

/-- What a link change shows of a T1L port (R172, R173). -/
theorem t1lLink_spec {p : Nat} (hp : p < 128) (up : Bool) (x : LinkPartner) (ma lt lr : Bool) (s : State) :
    let t := t1lLink p up x ma lt lr s
    let link := up && t1lAgrees p x.level.toNat ma s
    bit (rg FPA_PORT_STAT p t) 0 = link ∧
      rgF FPA_PORT_STAT p 7 5 t = (if link then
        (t1lSetting p x.level.toNat ma s).1 * 2 + b2n (t1lSetting p x.level.toNat ma s).2 else 0) ∧
      eeeInEffect p t = (link && x.eee && bit (rg FPA_T1L_CFG p s) 0 && bit (rg FPA_T1L_CFG p s) 1) ∧
      bit (rg FPA_PORT_STAT p t) 15 = (lr && eeeInEffect p t) := by
  dsimp only
  rw [t1lLink_eq]
  generalize hlink : (up && t1lAgrees p x.level.toNat ma s) = link
  have hcfg : rg FPA_T1L_CFG p (setLink p link (eeeSet p (link && x.eee) s)) = rg FPA_T1L_CFG p s :=
    rg_setLink_settings link _ (by decide) (by decide) (by decide) (by decide) (by omega) (by omega)
  have heee : (portRun p (setLink p link (eeeSet p (link && x.eee) s))).eee = (link && x.eee) := by
    rw [portRun, (onlyIn_setLink p link _).keeps .ports]
    exact congrArg PortRun.eee (portRun_setPortRun p _ s)
  have hup := link_setLink link (eeeSet p (link && x.eee) s) (by omega : p < 2 ^ 24)
  obtain ⟨h0, h75, he, h15⟩ := t1lStatus_spec (level := x.level.toNat) link ma lt lr
    (setLink p link (eeeSet p (link && x.eee) s)) hp (by
      rw [t1lSetting_congr hcfg]
      cases link
      · exact .inr rfl
      · exact .inl (t1lSetting_lt hlink))
  have heff : eeeInEffect p (setLink p link (eeeSet p (link && x.eee) s)) =
      (link && x.eee && bit (rg FPA_T1L_CFG p s) 0 && bit (rg FPA_T1L_CFG p s) 1) := by
    rw [eeeInEffect, linkUp, if_pos hp, hup, hcfg, heee]
    cases link
    · rfl
    · simp [Bool.and_comm, Bool.and_assoc]
  refine ⟨h0.trans hup, ?_, he.trans heff, h15.trans (by rw [he])⟩
  rw [h75, t1lSetting_congr hcfg]

/-! ### Clamp events (R188) -/

/-- The event marked in a measurement under way. -/
def clampNoted (p : Nat) (start : Word) (dur : Nat) (s : State) : State :=
  onlyIf (surgeInMeasurement (verge p s) start dur) (setVerge p { verge p s with currentEnergy := true }) s

theorem onlyIn_clampNoted (p : Nat) (start : Word) (dur : Nat) (s : State) :
    OnlyIn ⟨[.ports], 23⟩ s (clampNoted p start dur s) :=
  (OnlyIn.refl s).onlyIf fun _ h => h.setVerge (hF := .mono (.refl _) rfl)

/-- An event of its own. -/
def clampCounted (p k : Nat) (start : Word) (s : State) : State :=
  setCause FPA_CAUSE p 1 (pulseSource (.port p 4) (setRg FPA_SURGE_LAST p start
    (addSurgeClass p k 1 (bump FPA_SURGE_CNT p 31 0 (setPortRun p { portRun p s with surgeClass := some k } s)))))

/-- An event merged with the one before, of class `old`. -/
def clampMerged (p k old : Nat) (s : State) : State :=
  if old < k then
    addSurgeClass p k 1 (addSurgeClass p old 1023 (setPortRun p { portRun p s with surgeClass := some k } s))
  else s

theorem surgeClampEvent_own {p peak dur gap : Nat} {start : Word} {s : State} (hp : 50 < peak) (hd : 20 ≤ dur)
    (hg : 10000 < gap) :
    surgeClampEvent p peak dur gap start s = clampCounted p (surgeClassOf peak) start (clampNoted p start dur s) := by
  unfold surgeClampEvent
  rw [if_neg (by omega)]
  dsimp only
  rw [if_neg (by omega)]
  rfl

theorem surgeClass_clampNoted (p : Nat) (start : Word) (dur : Nat) (s : State) :
    (portRun p (clampNoted p start dur s)).surgeClass = (portRun p s).surgeClass :=
  onlyIf_keeps (v := fun t => (portRun p t).surgeClass) (by rw [setVerge, portRun_setPortRun])

theorem surgeClampEvent_merged {p peak dur gap old : Nat} {start : Word} {s : State} (hp : 50 < peak) (hd : 20 ≤ dur)
    (hg : gap ≤ 10000) (ho : (portRun p s).surgeClass = some old) :
    surgeClampEvent p peak dur gap start s = clampMerged p (surgeClassOf peak) old (clampNoted p start dur s) := by
  have hn := (surgeClass_clampNoted p start dur s).trans ho
  unfold surgeClampEvent
  rw [if_neg (by omega)]
  dsimp only
  rw [if_pos hg]
  unfold clampNoted at hn ⊢
  simp only [hn]
  rfl

theorem clampCounted_spec {p k : Nat} (start : Word) (s : State) (hp : p < 2 ^ 24) (hk : k < 3) :
    let t := clampCounted p k start s
    rgF FPA_SURGE_CNT p 31 0 t = (rgF FPA_SURGE_CNT p 31 0 s + 1) % 2 ^ 32 ∧ rg FPA_SURGE_LAST p t = start ∧
      rgF FPA_SURGE_CLASS p (10 * k + 9) (10 * k) t = (rgF FPA_SURGE_CLASS p (10 * k + 9) (10 * k) s + 1) % 1024 ∧
      bit (rg FPA_CAUSE p t) 1 = true ∧ t.mem = s.mem ∧ t.lanes = s.lanes := by
  have hne : ∀ {r r' : Nat}, r ≠ r' → rkey r p ≠ rkey r' p := fun h => rkey_ne_of_lt h hp hp
  have hlt : ∀ {r : Nat}, r < FLT_SEL → rkey r p < rkey FLT_SEL 0 := fun h => rkey_lt_of_lt h hp
  have ho : OnlyIn ⟨[.regs, .pulses, .ports, .flt], 0⟩ s (clampCounted p k start s) :=
    .of fun _ _ => ((OnlyIn.refl s).setPortRun.bump.addSurgeClass.setRg).pulseSource.setCause
  refine ⟨?_, ?_, ?_, bit_setCause_same (by decide) (hlt (by decide)), ho.keeps .mem, ho.keeps .lanes⟩
  · rw [rgF, clampCounted, rg_setCause_other (hne (by decide)) (hlt (by decide)), rg_pulseSource_other _ _ (by decide),
      rg_setRg_other _ _ _ _ _ _ (hne (by decide)), addSurgeClass, addRgF, rg_setRgF_other (hne (by decide))]
    exact rgF_bump_same _ _ _ _ _ (by decide) (by decide)
  · rw [clampCounted, rg_setCause_other (hne (by decide)) (hlt (by decide)), rg_pulseSource_other _ _ (by decide),
      rg_setRg_same]
  · rw [rgF, clampCounted, rg_setCause_other (hne (by decide)) (hlt (by decide)), rg_pulseSource_other _ _ (by decide),
      rg_setRg_other _ _ _ _ _ _ (hne (by decide))]
    have hclass : rgF FPA_SURGE_CLASS p (10 * k + 9) (10 * k)
        (bump FPA_SURGE_CNT p 31 0 (setPortRun p { portRun p s with surgeClass := some k } s)) =
        rgF FPA_SURGE_CLASS p (10 * k + 9) (10 * k) s := congrArg (fld · _ _) (rg_bump_other (hne (by decide)))
    rw [← hclass]
    refine (rgF_setRgF_same _ _ _ _ _ _ (by omega) (by omega)).trans ?_
    rw [show 10 * k + 9 - 10 * k + 1 = 10 by omega]
    rfl

theorem clampMerged_spec {p k old : Nat} (s : State) (hp : p < 2 ^ 24) :
    let t := clampMerged p k old s
    rg FPA_SURGE_CNT p t = rg FPA_SURGE_CNT p s ∧ rg FPA_SURGE_LAST p t = rg FPA_SURGE_LAST p s ∧
      t.mem = s.mem ∧ t.lanes = s.lanes := by
  have hne : ∀ {r r' : Nat}, r ≠ r' → rkey r p ≠ rkey r' p := fun h => rkey_ne_of_lt h hp hp
  unfold clampMerged
  split
  · exact ⟨(rg_setRgF_other (hne (by decide))).trans (rg_setRgF_other (hne (by decide))),
      (rg_setRgF_other (hne (by decide))).trans (rg_setRgF_other (hne (by decide))), rfl, rfl⟩
  · exact ⟨rfl, rfl, rfl, rfl⟩

/-- Settles O34: what a link change writes, the beacon's branches, and the two kinds of clamp events. -/
theorem fieldPortsFollowLinksBeaconsAndSurges : Obligations.FieldPortsFollowLinksBeaconsAndSurges := by
  refine ⟨⟨fun p s => ⟨fun h => ?_, fun h => congrArg Host.Outcome.next (if_pos (.inr h))⟩,
      fun p up x ma lt lr pl s ho hs hd => ?_, fun p up x ma lt lr pl s h =>
        congrArg Host.Outcome.next (linkChange_elsewhere h)⟩,
    fun p s => ⟨fun ho hc hv => ?_, fun h => congrArg Host.Outcome.next (if_pos (by simpa using h))⟩,
    fun p peak dur gap start s hp hd hg => ?_, fun p peak dur gap old start s hp hd hg ho => ?_,
    fun p peak dur gap start s h => congrArg Host.Outcome.next (if_pos h)⟩
  · obtain ⟨hv, hc⟩ := portRun_portStopped p s
    have hi := onlyIn_setInReset p true (clearPort p s)
    refine ⟨_, congrArg Host.Outcome.next (startReset_port p.isLt h), inReset_setInReset _ (by omega), ?_, ?_, ?_⟩
    · rw [rg_setInReset_other _ fun g _ => rkey_ne_of_lt (by simp only [FPA_PORT_STAT, SYS_RST_STAT]; omega) (by omega)
        (by decide), clearPort_eq]
      exact link_setLink false _ (by omega)
    · rw [verge_congr (hi.keeps .ports), verge, portRun_clearPort]
      exact hv
    · rw [portRun, hi.keeps .ports]
      exact (congrArg PortRun.chars (portRun_clearPort p p s)).trans hc
  · by_cases hm : portMode p s = 0
    · have ho' : OnlyIn ⟨[.regs, .pulses, .ports, .macs, .jct, .tpk, .flt], 0⟩ s (t1lLink p up x ma lt lr s) :=
        .of fun _ _ => (OnlyIn.refl s).t1lLink
      obtain ⟨h0, h75, he, h15⟩ := t1lLink_spec p.isLt up x ma lt lr s
      refine ⟨_, congrArg Host.Outcome.next (linkChange_t1l ho hs hd hm), fun h => absurd hm h, fun _ =>
        ⟨h0, h75, he, h15, fun q hq => ?_⟩, ho'.keeps .lanes, ho'.keeps .mem⟩
      have hst : (t1lLink p up x ma lt lr s).ports =
          (eeeSet p ((up && t1lAgrees p x.level.toNat ma s) && x.eee) s).ports := by
        rw [t1lLink_eq, (OnlyIn.of (G := ⟨[.regs], 0⟩) fun _ _ => (OnlyIn.refl _).t1lStatus).keeps .ports]
        exact (onlyIn_setLink p _ _).keeps .ports
      rw [portRun, hst]
      exact portRun_setPortRun_other _ _ _ _ fun e => hq (Fin.ext e)
    · have hset := onlyIn_setLink p up s
      refine ⟨_, congrArg Host.Outcome.next (linkChange_other ho hs hd hm), fun _ => ⟨?_, ?_, hset.keeps .ports⟩,
        fun h => absurd h hm, hset.keeps .lanes, hset.keeps .mem⟩
      · rw [setRgF, rg_setRg_same, bit_setFld_other _ (by decide) (by decide)]
        exact link_setLink up s (by omega)
      · rw [setRgF, rg_setRg_same, bit, setFld_getLsbD _ _ _ _ _ (by decide), if_pos (by decide)]
        generalize (pl && plcaRuns p s) = b
        revert b
        decide
  · exact congrArg Host.Outcome.next (if_neg (by simp [ho, hc, hv]))
  · obtain ⟨hc, hl, hk, hb, hm, hla⟩ := clampCounted_spec (k := surgeClassOf peak) start (clampNoted p start dur s)
      (by omega : p.val < 2 ^ 24) (by unfold surgeClassOf; split <;> [decide; (split <;> decide)])
    have hn := onlyIn_clampNoted p start dur s
    have hr : ∀ r hi lo, rgF r p hi lo (clampNoted p start dur s) = rgF r p hi lo s := fun r hi lo =>
      congrArg (fld · hi lo) (rg_congr (hn.keeps .regs) _ _)
    rw [hr] at hc hk
    exact ⟨_, congrArg Host.Outcome.next (surgeClampEvent_own hp hd hg), hc, hl, hk, hb, hm.trans (hn.keeps .mem),
      hla.trans (hn.keeps .lanes)⟩
  · obtain ⟨hc, hl, hm, hla⟩ := clampMerged_spec (k := surgeClassOf peak) (old := old) (clampNoted p start dur s)
      (by omega : p.val < 2 ^ 24)
    have hn := onlyIn_clampNoted p start dur s
    have hr : ∀ r, rg r p (clampNoted p start dur s) = rg r p s := fun r => rg_congr (hn.keeps .regs) _ _
    rw [hr] at hc hl
    exact ⟨_, congrArg Host.Outcome.next (surgeClampEvent_merged hp hd hg ho), hc, hl, hm.trans (hn.keeps .mem),
      hla.trans (hn.keeps .lanes)⟩

end Sys2Proof.Machine
end

section
/-! PROOF. O36: characters, messages, responses and frames of serial ports. A message that ends clears the reception and
hands its bytes to the MAC, which changes no port's run. -/

set_option Elab.async false

namespace Sys2Proof.Machine

open Sys2Proof

/-! ### What these operations write -/

namespace OnlyIn

variable {F : Scope} {s₀ s : State}

theorem macGood {base p l dst} (h : OnlyIn F s₀ s)
    (hF : Allows F ⟨[.regs, .flt], 8⟩ := by exact Allows.mono ‹_› rfl) :
    OnlyIn F s₀ (macGood base p l dst s) :=
  h.macBump.macAdd.macBump.macBump

theorem passFrame {p l ts b} (h : OnlyIn F s₀ s)
    (hF : Allows F ⟨[.regs, .macs, .flt], 8⟩ := by exact Allows.mono ‹_› rfl) :
    OnlyIn F s₀ (passFrame p l ts b s) :=
  h.macGood.ite h.macGood.setMacRun

theorem clearReception {p} (h : OnlyIn F s₀ s)
    (hF : Allows F ⟨[.ports], 23⟩ := by exact Allows.mono ‹_› rfl) :
    OnlyIn F s₀ (clearReception p s) :=
  h.setPortRun

theorem deliverSerial {p b ts} (h : OnlyIn F s₀ s)
    (hF : Allows F ⟨[.regs, .macs, .flt], 8⟩ := by exact Allows.mono ‹_› rfl) :
    OnlyIn F s₀ (deliverSerial p b ts s) :=
  h.macBump.ite (h.macBump.ite h.passFrame)

theorem endMessage {p brk truncated} (h : OnlyIn F s₀ s)
    (hF : Allows F ⟨[.regs, .ports, .macs, .flt], 7⟩ := by exact Allows.mono ‹_› rfl) :
    OnlyIn F s₀ (endMessage p brk truncated s) :=
  h.clearReception.ite (h.onlyIf (fun _ h1 => h1.bump)).setPortRun.clearReception.deliverSerial

theorem endFull {p} (h : OnlyIn F s₀ s)
    (hF : Allows F ⟨[.regs, .ports, .macs, .flt], 7⟩ := by exact Allows.mono ‹_› rfl) :
    OnlyIn F s₀ (endFull p s) :=
  h.onlyIf fun _ h1 => h1.endMessage

theorem takeCharacter {p bits phase} (h : OnlyIn F s₀ s)
    (hF : Allows F ⟨[.regs, .ports, .macs, .flt], 7⟩ := by exact Allows.mono ‹_› rfl) :
    OnlyIn F s₀ (takeCharacter p bits phase s) :=
  h.setPortRun.ite ((h.onlyIf (fun _ h1 => h1.bump)).onlyIf (fun _ h1 => h1.bump)).setPortRun.endFull

theorem serialCharacterReceive {p startHeld bits phase} (h : OnlyIn F s₀ s)
    (hF : Allows F ⟨[.regs, .ports, .macs, .flt], 7⟩ := by exact Allows.mono ‹_› rfl) :
    OnlyIn F s₀ (serialCharacterReceive p startHeld bits phase s) :=
  h.takeCharacter.ite h

theorem serialMessageEnd {p why} (h : OnlyIn F s₀ s)
    (hF : Allows F ⟨[.regs, .ports, .macs, .flt], 7⟩ := by exact Allows.mono ‹_› rfl) :
    OnlyIn F s₀ (serialMessageEnd p why s) := by
  unfold Machine.serialMessageEnd
  split
  · exact h
  · split
    · exact h.endMessage
    · exact h.endMessage.ite h
    · exact h.endFull

theorem serialResponseTimeout {p} (h : OnlyIn F s₀ s)
    (hF : Allows F ⟨[.regs, .ports, .macs, .flt], 7⟩ := by exact Allows.mono ‹_› rfl) :
    OnlyIn F s₀ (serialResponseTimeout p s) :=
  h.setPortRun.bump.deliverSerial.ite h

end OnlyIn

/-! ### Messages in reception -/

theorem portRun_clearReception (p : Nat) (s : State) : portRun p (clearReception p s) =
    { portRun p s with chars := [], broken := false, framing := false, parity := false, errIndex := none } :=
  portRun_setPortRun p _ s

theorem ports_deliverSerial (p : Nat) (b : Bytes) (ts : Word) (s : State) : (deliverSerial p b ts s).ports = s.ports :=
  (OnlyIn.of (G := ⟨[.regs, .macs, .flt], 8⟩) fun _ _ => (OnlyIn.refl s).deliverSerial).keeps .ports

theorem mem_endMessage (p : Nat) (brk truncated : Bool) (s : State) : (endMessage p brk truncated s).mem = s.mem :=
  (OnlyIn.of (G := ⟨[.regs, .ports, .macs, .flt], 7⟩) fun _ _ => (OnlyIn.refl s).endMessage).keeps .mem

/-- A message that ends leaves no character and no break (R176). -/
theorem portRun_endMessage (p : Nat) (brk truncated : Bool) (s : State) :
    (portRun p (endMessage p brk truncated s)).chars = [] ∧
      (portRun p (endMessage p brk truncated s)).broken = false := by
  unfold endMessage
  dsimp only
  split
  · rw [portRun_clearReception]
    exact ⟨rfl, rfl⟩
  · rw [portRun, ports_deliverSerial, ← portRun, portRun_clearReception]
    exact ⟨rfl, rfl⟩

/-- A character put into the reception, before the message's length is looked at. -/
def characterTaken (p : Nat) (bits : BitVec 12) (phase : Nat) (s : State) : State :=
  let np := parityBits p s
  let c := fld bits (dataBits p s) 1
  let framing := (List.range (stopBits p s)).any fun i => !bit bits (1 + dataBits p s + np + i)
  let parity := decide (np = 1) && (bit bits (1 + dataBits p s) != parityOf (parityKind p s) c)
  let r := portRun p s
  let t := onlyIf parity (bump FPA_SER_CNT p 15 0) (onlyIf framing (bump FPA_SER_CNT p 31 16) s)
  setPortRun p { r with
    chars := r.chars ++ [BitVec.ofNat 8 c],
    framing := r.framing || framing, parity := r.parity || parity,
    errIndex := if (framing || parity) && r.errIndex.isNone then some r.chars.length else r.errIndex,
    ts := if r.chars.isEmpty then serialStamp p phase t else r.ts } t

theorem takeCharacter_break {p phase : Nat} {bits : BitVec 12} {s : State}
    (h : fld bits (dataBits p s + parityBits p s + stopBits p s) 0 = 0) :
    takeCharacter p bits phase s = setPortRun p { portRun p s with broken := true } s := if_pos h

theorem takeCharacter_stored {p phase : Nat} {bits : BitVec 12} {s : State}
    (h : fld bits (dataBits p s + parityBits p s + stopBits p s) 0 ≠ 0) :
    takeCharacter p bits phase s = endFull p (characterTaken p bits phase s) := if_neg h

theorem characterTaken_spec (p : Nat) (bits : BitVec 12) (phase : Nat) (s : State) :
    let t := characterTaken p bits phase s
    (portRun p t).chars = (portRun p s).chars ++ [BitVec.ofNat 8 (fld bits (dataBits p s) 1)] ∧ t.mem = s.mem ∧
      t.macs = s.macs ∧ ∀ q : Nat, q ≠ p → portRun q t = portRun q s := by
  have hcount : ∀ a b : Bool, OnlyIn ⟨[.regs], 0⟩ s
      (onlyIf b (bump FPA_SER_CNT p 15 0) (onlyIf a (bump FPA_SER_CNT p 31 16) s)) := fun a b =>
    .of fun _ _ => ((OnlyIn.refl s).onlyIf fun _ h => h.bump).onlyIf fun _ h => h.bump
  unfold characterTaken
  extract_lets np c framing parity r t
  have ho : OnlyIn ⟨[.regs], 0⟩ s t := hcount framing parity
  refine ⟨?_, ho.keeps .mem, ho.keeps .macs, fun q hq => ?_⟩
  · rw [portRun_setPortRun]
  · rw [portRun_setPortRun_other _ _ _ _ hq, portRun, ho.keeps .ports]
    rfl

theorem serialCharacterReceive_takes {p phase : Nat} {bits : BitVec 12} {s : State} (h : serialOn p s = true)
    (hv : (verge p s).state ≠ .active) :
    serialCharacterReceive p true bits phase s = takeCharacter p bits phase s := if_pos ⟨h, rfl, hv⟩

theorem serialMessageEnd_ends {p : Nat} {why : MessageEnd} {s : State} (h : serialOn p s = true)
    (hr : receiving p s = true) (hw : why ∈ (if (portRun p s).broken then [MessageEnd.gap, .lineBreak] else [.gap])) :
    ∃ brk : Bool, serialMessageEnd p why s = endMessage p brk false s := by
  unfold serialMessageEnd
  rw [if_neg (by simp [h, hr])]
  by_cases hb : (portRun p s).broken = true
  · rw [if_pos hb] at hw
    simp only [List.mem_cons, List.not_mem_nil, or_false] at hw
    rcases hw with rfl | rfl
    · exact ⟨false, rfl⟩
    · exact ⟨true, if_pos hb⟩
  · rw [if_neg hb] at hw
    obtain rfl : why = .gap := List.mem_singleton.1 hw
    exact ⟨false, rfl⟩

/-! ### Responses and frames sent (R177, R178) -/

/-- A response that did not come counted. -/
def responseMissed (p : Nat) (s : State) : State :=
  bump FPA_SER_CNT2 p 31 24 (setPortRun p { portRun p s with response := false } s)

theorem serialResponseTimeout_due {p : Nat} {s : State} (h : serialOn p s = true) (hr : (portRun p s).response = true) :
    serialResponseTimeout p s = deliverSerial p (serialFrame p [] 32 0xFFFF (responseMissed p s))
      (now (responseMissed p s)) (responseMissed p s) := if_pos ⟨h, hr⟩

/-- The master's wait for a response, and the peer's count of a mismatch. -/
def awaitsResponse (p : Nat) (b : Bytes) (mismatch : Bool) (s : State) : State :=
  onlyIf (!(!bit (rg FPA_SER_CFG p s) 6) && mismatch) (bump FPA_SER_CNT2 p 15 8)
    (onlyIf (!bit (rg FPA_SER_CFG p s) 6 && decide (beAt b 20 2 ≠ 0))
      (fun s => setPortRun p { portRun p s with response := true } s) s)

theorem serialTransmit_sends {p : Nat} {mismatch : Bool} {c : Copy} {f : JFrame} {s : State}
    (hc : handed p s = some c) (hf : jframe c.frame s = some f) (hm : maySend p true s = true)
    (hcut : f.cutting = false) (hen : bit (rg MAC_CFG p s) 1 = true) (ho : f.oneStep = none) :
    serialTransmit p true mismatch s = if serialBad (outBytes p c f s) s = true then
      bump FPA_SER_CNT2 p 7 0 (endHanded p s)
    else
      let t := awaitsResponse p (outBytes p c f s) mismatch s
      endHanded p (putLine p .serial (sentChars p (outBytes p c f s) t)
        (macGood 22 p ((outBytes p c f s).length + 4) (dstAddr (outBytes p c f s)) t)) := by
  unfold serialTransmit
  simp only [hc, hf]
  rw [if_neg (by simp [hm, hcut]), if_neg (by simp [hen]), if_neg (by simp [ho])]
  rfl

theorem serialTransmit_waits {p : Nat} {idle mismatch : Bool} {s : State} (h : handed p s = none ∨
    ∃ (c : Copy) (f : JFrame), handed p s = some c ∧ jframe c.frame s = some f ∧ maySend p idle s = false) :
    serialTransmit p idle mismatch s = s := by
  unfold serialTransmit
  rcases h with h | ⟨c, f, hc, hf, hm⟩
  · simp only [h]
  · simp only [hc, hf]
    exact if_pos (.inl (by simp [hm]))

/-- Settles O36: what a character, a message's end, a missing response and a frame to send do. -/
theorem serialPortsReceiveAndSendMessages : Obligations.SerialPortsReceiveAndSendMessages := by
  refine ⟨⟨fun p bits phase s ho hv => ⟨fun hz => congrArg Host.Outcome.next ((serialCharacterReceive_takes ho hv).trans
      (takeCharacter_break hz)), fun hz hl => ?_, fun hz hl => ?_⟩, fun p bits phase s =>
      congrArg Host.Outcome.next (if_neg (by simp)), fun p s ho hr why hw => ?_, fun p why s hr =>
      congrArg Host.Outcome.next (if_pos (.inr (by simp [hr]))), fun p s ho hr => ?_, fun p s hr =>
      congrArg Host.Outcome.next (if_neg (by simp [hr]))⟩, fun p c f mismatch s hc hf hm hcut hen hos => ?_,
    fun p idle mismatch s h => congrArg Host.Outcome.next (serialTransmit_waits h)⟩
  · obtain ⟨hchars, hmem, hmacs, hother⟩ := characterTaken_spec p bits phase s
    have he : takeCharacter p bits phase s = characterTaken p bits phase s :=
      (takeCharacter_stored hz).trans (if_neg (by
        rw [hchars]
        simp only [List.length_append, List.length_singleton, maxChars, decide_eq_true_eq]
        omega))
    exact ⟨_, congrArg Host.Outcome.next ((serialCharacterReceive_takes ho hv).trans he), hchars, hmem, hmacs,
      fun q hq => hother q fun e => hq (Fin.ext e)⟩
  · obtain ⟨hchars, hmem, hmacs, hother⟩ := characterTaken_spec p bits phase s
    have he : takeCharacter p bits phase s = endMessage p false true (characterTaken p bits phase s) :=
      (takeCharacter_stored hz).trans (if_pos (by
        rw [hchars]
        simp only [List.length_append, List.length_singleton, maxChars, decide_eq_true_eq]
        omega))
    exact ⟨_, congrArg Host.Outcome.next ((serialCharacterReceive_takes ho hv).trans he),
      (portRun_endMessage p false true _).1, (mem_endMessage p false true _).trans hmem⟩
  · obtain ⟨brk, he⟩ := serialMessageEnd_ends ho hr hw
    obtain ⟨hchars, hbroken⟩ := portRun_endMessage p brk false s
    exact ⟨_, congrArg Host.Outcome.next he, hchars, hbroken, mem_endMessage p brk false s⟩
  · have hd : OnlyIn ⟨[.regs, .macs, .flt], 8⟩ (responseMissed p s) (serialResponseTimeout p s) := by
      rw [serialResponseTimeout_due ho hr]
      exact .of fun _ _ => (OnlyIn.refl _).deliverSerial
    refine ⟨_, rfl, ?_, ?_, hd.keeps .mem⟩
    · rw [portRun, hd.keeps .ports]
      exact congrArg PortRun.response (portRun_setPortRun p _ s)
    · rw [rgF, hd.rg _ _ (rkey_lt_of_lt (by decide) (by omega))]
      exact rgF_bump_same _ _ _ _ _ (by decide) (by decide)
  · rw [show exec (.serialTransmit p true mismatch) s = .next (serialTransmit p true mismatch s) from rfl,
      serialTransmit_sends hc hf hm hcut hen hos]
    have ht : awaitsResponse p (outBytes p c f s) mismatch s =
        (if bit (rg FPA_SER_CFG p s) 6 = true ∧ mismatch = true then bump FPA_SER_CNT2 p 15 8
          (if bit (rg FPA_SER_CFG p s) 6 = false ∧ beAt (outBytes p c f s) 20 2 ≠ 0 then
            setPortRun p { portRun p s with response := true } s else s)
        else (if bit (rg FPA_SER_CFG p s) 6 = false ∧ beAt (outBytes p c f s) 20 2 ≠ 0 then
            setPortRun p { portRun p s with response := true } s else s)) := by
      unfold awaitsResponse onlyIf
      simp only [Bool.not_not, Bool.and_eq_true, Bool.not_eq_true', decide_eq_true_eq]
    dsimp only
    rw [ht]

end Sys2Proof.Machine
end

section
/-! PROOF. O37 fails: the mark of a lost occurrence of a class that is none of the eight may stand at the key of the
twin function's configuration, and change there which frames are backup frames. -/

set_option Elab.async false

namespace Sys2Proof.Machine

open Sys2Proof

/-- The class whose mark of lost occurrences stands at the key of TWN_CFG. -/
def strayTwinClass : Nat := (TWN_CFG - FLT_CLS_CNT) * 2 ^ 24

theorem rkey_strayTwinClass : rkey FLT_CLS_CNT strayTwinClass = rkey TWN_CFG 0 := by decide

/-- A frame of EtherType 0x1231 that would be a backup frame under that EtherType. -/
def nearBackup : Bytes := zeros 12 ++ [0x12, 0x31, 1] ++ zeros 45

/-- Trunk 0 receives, backup frames have EtherType 0x1230, the trunk's count of received frames is about to pass half
its range, and the collector's queue is full of occurrences of the class that is none. -/
def strayReception : State :=
  { setRg TRK_STAT 0 1 (setRg MAC_CFG 128 0x05F20005 (setRg TWN_CFG 0 0x80001230 (setRg MAC_CNT 128 0x7FFFFFFF
      State.reset))) with
    flt := { State.reset.flt with queue := List.replicate 256 { strayOccurrence with cls := strayTwinClass } } }

theorem strayReception_rxq :
    (macRun 128 (macReceiveFrame 128 (withFcs nearBackup) false 0 strayReception)).rxq = [] := by decide +kernel

/-- Refutes O37: the frame is no backup frame when it comes; the occurrence that the count's cause pushes out of the
collector's full queue leaves its mark in bit 0 of the EtherType of backup frames, and the frame is only counted. -/
theorem not_macsTakeAndSendFrames : ¬ Obligations.MacsTakeAndSendFrames := by
  rintro ⟨⟨hgood, -⟩, -⟩
  obtain ⟨hplain, -⟩ := hgood 128 nearBackup 0 strayReception (by decide +kernel) (by decide +kernel)
    (by decide +kernel) (by decide +kernel) (by decide)
  obtain ⟨t, ht, hrxq, -⟩ := hplain (by decide +kernel) (by decide +kernel)
  obtain rfl : macReceiveFrame 128 (withFcs nearBackup) false 0 strayReception = t := Host.Outcome.next.inj ht
  exact absurd (strayReception_rxq.symm.trans hrxq) (by simp)

end Sys2Proof.Machine
end

section
/-! PROOF. O38: PAUSE and PFC. What a MAC counts leaves the settings and the run of its port, so the timers are set from
the state before; the classes of a PFC are a walk over eight timers. -/

set_option Elab.async false

namespace Sys2Proof.Machine

open Sys2Proof

/-! ### What these operations write -/

namespace OnlyIn

variable {F : Scope} {s₀ s : State}

theorem takePause {p quanta} (h : OnlyIn F s₀ s)
    (hF : Allows F ⟨[.regs, .macs, .flt], 8⟩ := by exact Allows.mono ‹_› rfl) :
    OnlyIn F s₀ (takePause p quanta s) :=
  h.macBump.ite ((h.macBump.onlyIf (fun _ h1 => h1.macBump)).ite
    (h.macBump.onlyIf (fun _ h1 => h1.macBump)).setMacRun)

theorem takePfc {p classes quanta} (h : OnlyIn F s₀ s)
    (hF : Allows F ⟨[.regs, .macs, .flt], 8⟩ := by exact Allows.mono ‹_› rfl) :
    OnlyIn F s₀ (takePfc p classes quanta s) :=
  h.macBump.ite ((h.macBump.onlyIf (fun _ h1 => h1.macBump)).ite
    (h.macBump.onlyIf (fun _ h1 => h1.macBump)).setMacRun)

end OnlyIn

/-! ### What a MAC's counter writes -/

theorem rg_setHalf_other {r i p k : Nat} (s : State) (h0 : r ≠ MAC_HALF0) (h1 : r ≠ MAC_HALF1) (hr : r < FLT_SEL)
    (hi : i < 2 ^ 24) (hp : p < 2 ^ 24) : rg r i (setHalf p k s) = rg r i s := by
  have hcol : rkey r i < rkey FLT_SEL 0 := rkey_lt_collector hr hi
  have hne : r ≠ TRK_CAUSE := fun e => absurd (e ▸ hr) (by decide)
  unfold setHalf
  extract_lets h u
  have hh : r ≠ h := by
    rw [show h = if k < 32 then MAC_HALF0 else MAC_HALF1 from rfl]
    split
    · exact h0
    · exact h1
  have hu : rg r i u = rg r i s := rg_setRg_other _ _ _ _ _ _ (rkey_ne_of_lt hh hi hp)
  split
  · rfl
  · split
    · exact (rg_raiseSrc_before u hcol).trans hu
    · exact (rg_setCause_other (rkey_ne_of_lt hne hi (by omega)) hcol).trans hu

/-- A MAC's counter writes itself and its half mark only, of the registers before the collector's. -/
theorem rg_macBump_other {r i p c : Nat} (s : State) (hc : r ≠ MAC_CNT + 4 * c) (h0 : r ≠ MAC_HALF0)
    (h1 : r ≠ MAC_HALF1) (hr : r < FLT_SEL) (hi : i < 2 ^ 24) (hp : p < 2 ^ 24) :
    rg r i (macBump c p s) = rg r i s := by
  have hset : ∀ v, rg r i (setRg (MAC_CNT + 4 * c) p v s) = rg r i s :=
    fun v => rg_setRg_other _ _ _ _ _ _ (rkey_ne_of_lt hc hi hp)
  unfold macBump macAdd
  extract_lets old u
  split
  · exact (rg_setHalf_other u h0 h1 hr hi hp).trans (hset _)
  · exact hset _

theorem rg_macBump_same {p c : Nat} (s : State) (hc : c < 64) (hp : p < 2 ^ 24) :
    rg (MAC_CNT + 4 * c) p (macBump c p s) = rg (MAC_CNT + 4 * c) p s + 1 := by
  have hset : rg (MAC_CNT + 4 * c) p (setRg (MAC_CNT + 4 * c) p (rg (MAC_CNT + 4 * c) p s + w32 1) s) =
      rg (MAC_CNT + 4 * c) p s + 1 := rg_setRg_same _ _ _ _
  unfold macBump macAdd
  extract_lets old u
  split
  · refine (rg_setHalf_other u ?_ ?_ ?_ hp hp).trans hset
    all_goals simp only [MAC_CNT, MAC_HALF0, MAC_HALF1, FLT_SEL]; omega
  · exact hset

/-! ### What is counted of a PAUSE or PFC (R194, R195) -/

/-- A PAUSE or PFC counted at `i`, and where it names a protected class at 41. -/
def pauseCounted (i p : Nat) (b : Bool) (s : State) : State := onlyIf b (macBump 41 p) (macBump i p s)

theorem onlyIn_pauseCounted (i p : Nat) (b : Bool) (s : State) : OnlyIn ⟨[.regs, .flt], 8⟩ s (pauseCounted i p b s) :=
  .of fun _ _ => (OnlyIn.refl s).macBump.onlyIf fun _ h => h.macBump

theorem macRun_pauseCounted (i p q : Nat) (b : Bool) (s : State) : macRun q (pauseCounted i p b s) = macRun q s := by
  rw [macRun, (onlyIn_pauseCounted i p b s).keeps .macs]
  rfl

theorem cfg_pauseCounted {i p : Nat} (b : Bool) (s : State) (hp : p < 2 ^ 24) :
    rg MAC_PAUSE_CFG p (pauseCounted i p b s) = rg MAC_PAUSE_CFG p s := by
  have h : ∀ c t, rg MAC_PAUSE_CFG p (macBump c p t) = rg MAC_PAUSE_CFG p t := fun c t =>
    rg_macBump_other t (by simp only [MAC_PAUSE_CFG, MAC_CNT]; omega) (by decide) (by decide) (by decide) hp hp
  exact (onlyIf_keeps (v := rg MAC_PAUSE_CFG p) (h _ _)).trans (h _ _)

theorem gateProt_pauseCounted {i p : Nat} (b : Bool) (s : State) (hp : p < 2 ^ 24) :
    gateProt p (pauseCounted i p b s) = gateProt p s := by
  rw [gateProt, gateProt, rgF, rgF, cfg_pauseCounted b s hp]

theorem count_pauseCounted {i p : Nat} (b : Bool) (s : State) (hi : i < 41) (hp : p < 2 ^ 24) :
    rg (MAC_CNT + 4 * i) p (pauseCounted i p b s) = rg (MAC_CNT + 4 * i) p s + 1 := by
  have h : rg (MAC_CNT + 4 * i) p (macBump 41 p (macBump i p s)) = rg (MAC_CNT + 4 * i) p (macBump i p s) := by
    refine rg_macBump_other _ ?_ ?_ ?_ ?_ hp hp
    all_goals simp only [MAC_CNT, MAC_HALF0, MAC_HALF1, FLT_SEL]; omega
  exact (onlyIf_keeps (v := rg (MAC_CNT + 4 * i) p) h).trans (rg_macBump_same s (by omega) hp)

/-- What a PAUSE leaves of the MAC's timers (R195). -/
def pausedBy (q : BitVec 16) (g : BitVec 8) (m : MacRun) : MacRun :=
  if q = 0 then { m with linkPause := none, linkMask := 0, pfc := sfilter (fun c => bit g c) m.pfc }
  else { m with linkPause := some q, linkMask := ~~~g }

theorem takePause_counted {p : Nat} {q : BitVec 16} {s : State} (h : pausePort p s = true) (hp : p < 2 ^ 24) :
    takePause p q s = if bit (rg MAC_PAUSE_CFG p s) 0 = true then
      setMacRun p (pausedBy q (gateProt p s) (macRun p s)) (pauseCounted 17 p (gateProt p s != 0) s)
    else pauseCounted 17 p (gateProt p s != 0) s := by
  have hg : gateProt p (macBump 17 p s) = gateProt p s := gateProt_pauseCounted (i := 17) false s hp
  have e : takePause p q s =
      (if ¬ bit (rg MAC_PAUSE_CFG p (pauseCounted 17 p (gateProt p s != 0) s)) 0 then
        pauseCounted 17 p (gateProt p s != 0) s
      else setMacRun p (pausedBy q (gateProt p (pauseCounted 17 p (gateProt p s != 0) s))
        (macRun p (pauseCounted 17 p (gateProt p s != 0) s))) (pauseCounted 17 p (gateProt p s != 0) s)) :=
    if_neg (by simp [h])
  rw [e, cfg_pauseCounted _ s hp, gateProt_pauseCounted _ s hp, macRun_pauseCounted]
  by_cases hb : bit (rg MAC_PAUSE_CFG p s) 0 = true
  · rw [if_neg (by simp [hb]), if_pos hb]
  · rw [if_pos hb, if_neg hb]

theorem pfc_pausedBy (q : BitVec 16) (g : BitVec 8) (m : MacRun) (c : Nat) :
    sget 0 c (pausedBy q g m).pfc = if q = 0 ∧ bit g c = false then 0 else sget 0 c m.pfc := by
  unfold pausedBy
  by_cases hq : q = 0
  · rw [if_pos hq]
    show sget 0 c (sfilter (fun c => bit g c) m.pfc) = _
    rw [sget_sfilter]
    by_cases hb : bit g c = true
    · rw [if_pos hb, if_neg (by simp [hb])]
    · rw [if_neg hb, if_pos ⟨hq, by simpa using hb⟩]
  · rw [if_neg hq, if_neg fun h => hq h.1]

/-- One class of a PFC (R195). -/
def pfcClass (quanta : List (BitVec 16)) (m : MacRun) (c : Nat) : MacRun :=
  { m with pfc := sset 0 c (quanta.getD c 0) m.pfc,
           linkMask := if quanta.getD c 0 = 0 then m.linkMask &&& ~~~(BitVec.ofNat 8 (2 ^ c)) else m.linkMask }

/-- The classes that a PFC sets: those named that no gate protects. -/
def pfcNamed (classes g : BitVec 8) : List Nat := (List.range 8).filter fun c => bit classes c && !bit g c

theorem mem_pfcNamed {classes g : BitVec 8} {c : Nat} (hc : c < 8) :
    c ∈ pfcNamed classes g ↔ bit classes c = true ∧ bit g c = false := by
  simp [pfcNamed, hc]

theorem takePfc_counted {p : Nat} {classes : BitVec 8} {quanta : List (BitVec 16)} {s : State}
    (h : pausePort p s = true) (hb : bit (rg MAC_PAUSE_CFG p s) 1 = true) (hp : p < 2 ^ 24) :
    takePfc p classes quanta s = setMacRun p ((pfcNamed classes (gateProt p s)).foldl (pfcClass quanta) (macRun p s))
      (pauseCounted 18 p (gateProt p s &&& classes != 0) s) := by
  generalize hx : (gateProt p s &&& classes != 0) = x
  have e : takePfc p classes quanta s =
      (if ¬ bit (rg MAC_PAUSE_CFG p (pauseCounted 18 p x s)) 1 then pauseCounted 18 p x s
      else setMacRun p ((pfcNamed classes (gateProt p (pauseCounted 18 p x s))).foldl (pfcClass quanta)
        (macRun p (pauseCounted 18 p x s))) (pauseCounted 18 p x s)) := by
    subst hx
    exact if_neg (not_not.2 h)
  rw [e, cfg_pauseCounted _ s hp, gateProt_pauseCounted _ s hp, macRun_pauseCounted, if_neg (by simp [hb])]

theorem linkPause_pfc (quanta : List (BitVec 16)) (l : List Nat) (m : MacRun) :
    (l.foldl (pfcClass quanta) m).linkPause = m.linkPause := by
  induction l generalizing m with
  | nil => rfl
  | cons c l ih => exact ih _

theorem pfc_pfc (quanta : List (BitVec 16)) (l : List Nat) (m : MacRun) (c : Nat) :
    sget 0 c (l.foldl (pfcClass quanta) m).pfc = if c ∈ l then quanta.getD c 0 else sget 0 c m.pfc := by
  induction l generalizing m with
  | nil => rfl
  | cons d l ih =>
    rw [List.foldl_cons, ih]
    by_cases hl : c ∈ l
    · rw [if_pos hl, if_pos (List.mem_cons_of_mem _ hl)]
    · rw [if_neg hl]
      by_cases hd : c = d
      · rw [if_pos (hd ▸ List.mem_cons_self), hd]
        exact sget_sset_same _ _ _ _
      · rw [if_neg (by simp [hl, hd])]
        exact sget_sset_other _ _ _ _ _ _ hd

theorem bit_clear (m : BitVec 8) (d : Nat) {c : Nat} (hc : c < 8) :
    bit (m &&& ~~~(BitVec.ofNat 8 (2 ^ d))) c = (bit m c && !decide (d = c)) := by
  rw [bit, bit, BitVec.getLsbD_and, BitVec.getLsbD_not, BitVec.getLsbD_ofNat, Nat.testBit_two_pow]
  simp only [hc, decide_true, Bool.true_and]

theorem linkMask_pfcClass (quanta : List (BitVec 16)) (m : MacRun) (d : Nat) {c : Nat} (hc : c < 8) :
    bit (pfcClass quanta m d).linkMask c =
      (bit m.linkMask c && !(decide (d = c) && decide (quanta.getD d 0 = 0))) := by
  unfold pfcClass
  dsimp only
  by_cases hq : quanta.getD d 0 = 0
  · rw [if_pos hq, bit_clear m.linkMask d hc, decide_eq_true hq, Bool.and_true]
  · rw [if_neg hq, decide_eq_false hq, Bool.and_false, Bool.not_false, Bool.and_true]

theorem linkMask_pfc (quanta : List (BitVec 16)) (l : List Nat) (m : MacRun) {c : Nat} (hc : c < 8) :
    bit (l.foldl (pfcClass quanta) m).linkMask c =
      (bit m.linkMask c && !(decide (c ∈ l) && decide (quanta.getD c 0 = 0))) := by
  induction l generalizing m with
  | nil => simp
  | cons d l ih =>
    rw [List.foldl_cons, ih, linkMask_pfcClass quanta m d hc]
    by_cases hd : d = c
    · subst hd
      generalize decide (quanta.getD d 0 = 0) = z
      rw [decide_eq_true (List.mem_cons_self : d ∈ d :: l), decide_eq_true rfl]
      generalize decide (d ∈ l) = y
      cases z <;> simp
    · rw [decide_eq_false hd, Bool.false_and, Bool.not_false, Bool.and_true]
      simp only [List.mem_cons, Ne.symm hd, false_or]

/-! ### Where a PAUSE or PFC arrives -/

theorem controlArrives_receives {p : Nat} {f : State → State} {s : State} (h : portReceives p s = true) :
    controlArrives p f s = if discards p s then macBump 21 p s else f s := if_neg (by simp [h])

theorem controlArrives_taken {p : Nat} {f : State → State} {s : State} (h : portReceives p s = true)
    (hd : discards p s = false) : controlArrives p f s = f s := by
  rw [controlArrives_receives h, hd]
  rfl

/-- Settles O38: the counts, the timers and the frames of PAUSE and PFC. -/
theorem pausesHoldAndAreSent : Obligations.PausesHoldAndAreSent := by
  refine ⟨⟨fun p q s hr hd hp => ?_, fun p cls q s hr hd hp hb => ?_, fun p q cls qs s hr c hc => ?_,
      fun p c s => ⟨rfl, rfl⟩⟩,
    fun q v p s hw hwr c hc => ?_, fun p w s t hq hl hp ht => ?_, fun p s h => ?_⟩
  · have hlt : p.val < 2 ^ 24 := by omega
    have he := (controlArrives_taken hr hd).trans (takePause_counted (q := q) hp hlt)
    have ho := onlyIn_pauseCounted 17 p (gateProt p s != 0) s
    have hcnt := count_pauseCounted (i := 17) (gateProt p s != 0) s (by decide) hlt
    by_cases hb : bit (rg MAC_PAUSE_CFG p s) 0 = true
    · rw [if_pos hb] at he
      refine ⟨_, congrArg Host.Outcome.next he, fun _ => ?_, fun h => absurd (hb.symm.trans h) (by decide), hcnt,
        ho.keeps .mem, ho.keeps .lanes⟩
      rw [macRun_setMacRun]
      refine ⟨?_, ?_, fun c => pfc_pausedBy q _ _ c⟩
      · unfold pausedBy
        split
        · rfl
        · rfl
      · unfold pausedBy
        split
        · rfl
        · rfl
    · rw [if_neg hb] at he
      exact ⟨_, congrArg Host.Outcome.next he, fun h => absurd h hb, fun _ => ho.keeps .macs, hcnt, ho.keeps .mem,
        ho.keeps .lanes⟩
  · have hlt : p.val < 2 ^ 24 := by omega
    have he := (controlArrives_taken hr hd).trans (takePfc_counted (classes := cls) (quanta := q) hp hb hlt)
    generalize (gateProt p s &&& cls != 0) = x at he
    have ho := onlyIn_pauseCounted 18 p x s
    refine ⟨_, congrArg Host.Outcome.next he, ?_⟩
    rw [macRun_setMacRun]
    refine ⟨fun c => ?_, linkPause_pfc _ _ _, fun c => ?_, count_pauseCounted (i := 18) x s (by decide) hlt,
      ho.keeps .mem, ho.keeps .lanes⟩
    · rw [pfc_pfc]
      simp only [mem_pfcNamed c.isLt]
    · rw [linkMask_pfc _ _ _ c.isLt]
      simp only [mem_pfcNamed c.isLt]
      by_cases h : bit cls c = true <;> by_cases h' : bit (gateProt p s) c = true <;> simp [h, h']
  · simp only [List.mem_cons, List.not_mem_nil, or_false] at hc
    rcases hc with rfl | rfl
    · exact ⟨fun hd => congrArg Host.Outcome.next ((controlArrives_receives hr).trans (if_pos hd)), fun hd hp =>
        congrArg Host.Outcome.next ((controlArrives_taken hr hd).trans (if_pos (by simp [hp])))⟩
    · exact ⟨fun hd => congrArg Host.Outcome.next ((controlArrives_receives hr).trans (if_pos hd)), fun hd hp =>
        congrArg Host.Outcome.next ((controlArrives_taken hr hd).trans (if_pos (by simp [hp])))⟩
  · have he : macPauseTxWrite q v s = if bit v 31 = true ∧ pausePort p s = true then
        setMacRun p { macRun p s with pauseReq := some v } s else s := atInst_taken _ _ _ _ _ hw hwr
    simp only [List.mem_cons, List.not_mem_nil, or_false] at hc
    rcases hc with rfl | rfl
    · exact congrArg Host.Outcome.next he
    · exact congrArg Host.Outcome.next he
  · subst ht
    refine congrArg Host.Outcome.next ?_
    unfold pauseFrameSend
    simp only [hq]
    exact if_pos ⟨hl, hp⟩
  · have he : pauseFrameSend p s = s := by
      unfold pauseFrameSend
      split
      · next w hw =>
        rw [if_neg]
        rintro ⟨hl, hp⟩
        simp [hw, hl, hp] at h
      · rfl
    exact congrArg Host.Outcome.next he

end Sys2Proof.Machine
end

section
/-! PROOF. O40: commands on Junction's tables and ageing. A table entry is its eight words; each operation of a command
has one equation for what it does to the tables. -/

set_option Elab.async false

namespace Sys2Proof.Machine

open Sys2Proof

/-! ### Entries and their words (R236) -/

theorem tblOf_getLsbD_fold (f : Nat → Word) (l : List Nat) (v : BitVec 256) (i : Nat) :
    (l.foldl (fun v k => v ||| BitVec.ofNat 256 ((f k).toNat * 2 ^ (32 * k))) v).getLsbD i =
      (v.getLsbD i || decide (i < 256) && l.any fun k => decide (32 * k ≤ i) && (f k).getLsbD (i - 32 * k)) := by
  induction l generalizing v with
  | nil => simp
  | cons k l ih =>
    rw [List.foldl_cons, ih, BitVec.getLsbD_or, BitVec.getLsbD_ofNat, Nat.testBit_mul_two_pow, List.any_cons]
    generalize (l.any fun k => decide (32 * k ≤ i) && (f k).getLsbD (i - 32 * k)) = y
    rw [BitVec.testBit_toNat]
    cases v.getLsbD i <;> cases decide (i < 256) <;> simp

/-- Bit `i` of an entry is bit `i % 32` of its word `i / 32`. -/
theorem tblOf_getLsbD (f : Nat → Word) {i : Nat} (hi : i < 256) :
    (tblOf f).getLsbD i = (f (i / 32)).getLsbD (i % 32) := by
  have hmem : i / 32 ∈ List.range 8 := List.mem_range.2 (by omega)
  have hsub : ∀ k, i - 32 * k < 32 → 32 * k ≤ i → k = i / 32 := fun k h h' => by omega
  have h0 : (0 : BitVec 256).getLsbD i = false := BitVec.getLsbD_zero
  rw [tblOf, tblOf_getLsbD_fold, h0, Bool.false_or, decide_eq_true hi, Bool.true_and]
  by_cases hb : (f (i / 32)).getLsbD (i % 32) = true
  · rw [hb, List.any_eq_true]
    exact ⟨i / 32, hmem, by rw [decide_eq_true (by omega), show i - 32 * (i / 32) = i % 32 by omega, hb]; rfl⟩
  · rw [Bool.not_eq_true] at hb
    rw [hb, List.any_eq_false]
    intro k _ hk
    simp only [Bool.and_eq_true, decide_eq_true_eq] at hk
    obtain ⟨hle, hbit⟩ := hk
    obtain rfl := hsub k (by
      by_contra h
      rw [BitVec.getLsbD_of_ge _ _ (by omega)] at hbit
      exact absurd hbit (by decide)) hle
    rw [show i - 32 * (i / 32) = i % 32 by omega, hb] at hbit
    exact absurd hbit (by decide)

theorem tblOf_congr {f g : Nat → Word} (h : ∀ k < 8, f k = g k) : tblOf f = tblOf g := by
  refine BitVec.eq_of_getLsbD_eq fun i hi => ?_
  rw [tblOf_getLsbD f hi, tblOf_getLsbD g hi, h _ (by omega)]

theorem tblWord_tblOf (f : Nat → Word) {k : Nat} (hk : k < 8) : tblWord (tblOf f) k = f k := by
  refine BitVec.eq_of_getLsbD_eq fun i hi => ?_
  rw [tblWord, BitVec.getLsbD_ofNat, Nat.testBit_div_two_pow, BitVec.testBit_toNat, tblOf_getLsbD f (by omega),
    decide_eq_true hi, Bool.true_and, show (i + 32 * k) / 32 = k by omega, show (i + 32 * k) % 32 = i by omega]

theorem tblOf_zero {f : Nat → Word} (h : ∀ k < 8, f k = 0) : tblOf f = 0 := by
  refine BitVec.eq_of_getLsbD_eq fun i hi => ?_
  rw [tblOf_getLsbD f hi, h _ (by omega)]
  exact (BitVec.getLsbD_zero (w := 32)).trans (BitVec.getLsbD_zero (w := 256)).symm

/-- The defined bits of an entry of a table. -/
def definedBits (table : Nat) (e : BitVec 256) : BitVec 256 := tblOf fun k => tblWord e k &&& tblMask table k

theorem definedBits_tblOf (table : Nat) (f : Nat → Word) :
    definedBits table (tblOf f) = tblOf fun k => f k &&& tblMask table k :=
  tblOf_congr fun k hk => by rw [tblWord_tblOf f hk]

theorem definedBits_zero (table : Nat) : definedBits table 0 = 0 :=
  tblOf_zero fun k _ => by
    rw [show tblWord 0 k = 0 by simp [tblWord]]
    exact BitVec.zero_and

/-! ### Writing an entry (R218) -/

theorem tblGet_congr {s t : State} (h : t.jct = s.jct) (n j : Nat) : tblGet n j t = tblGet n j s := by
  unfold tblGet tblOfNumber
  rw [h]

theorem tblPut_rule (i : Nat) (e : BitVec 256) (s : State) : tblPut 2 i e s =
    bump JCT_SID_VER i 3 0 (setRg JCT_SID_CUR i 0 (setRg JCT_SID_PREV i (rg JCT_SID_CUR i s)
      { s with jct := { s.jct with rules := sset 0 i (definedBits 2 e) s.jct.rules } })) := rfl

theorem jct_tblPut_rule (i : Nat) (e : BitVec 256) (s : State) :
    (tblPut 2 i e s).jct = { s.jct with rules := sset 0 i (definedBits 2 e) s.jct.rules } := by
  rw [tblPut_rule, bump, addRgF, setRgF, setRg_jct, setRg_jct, setRg_jct]

theorem tblGet_tblPut_same {table : Nat} (ht : table < 4) (i : Nat) (e : BitVec 256) (s : State) :
    tblGet table i (tblPut table i e s) = definedBits table e := by
  match table, ht with
  | 0, _ => exact sget_sset_same _ _ _ _
  | 1, _ => exact sget_sset_same _ _ _ _
  | 2, _ =>
    rw [tblGet, tblOfNumber, jct_tblPut_rule]
    exact sget_sset_same _ _ _ _
  | 3, _ => exact sget_sset_same _ _ _ _

theorem tblGet_tblPut_other {table : Nat} (ht : table < 4) {i j : Nat} (e : BitVec 256) (s : State) (h : j ≠ i) :
    tblGet table j (tblPut table i e s) = tblGet table j s := by
  match table, ht with
  | 0, _ => exact sget_sset_other _ _ _ _ _ _ h
  | 1, _ => exact sget_sset_other _ _ _ _ _ _ h
  | 2, _ =>
    rw [tblGet, tblOfNumber, jct_tblPut_rule]
    exact sget_sset_other _ _ _ _ _ _ h
  | 3, _ => exact sget_sset_other _ _ _ _ _ _ h

theorem tblGet_tblPut_table {table n : Nat} (ht : table < 4) (hn : n < 4) (h : n ≠ table) (i j : Nat) (e : BitVec 256)
    (s : State) : tblGet n j (tblPut table i e s) = tblGet n j s := by
  have hrule : tblGet n j (tblPut 2 i e s) =
      tblGet n j { s with jct := { s.jct with rules := sset 0 i (definedBits 2 e) s.jct.rules } } :=
    tblGet_congr (jct_tblPut_rule i e s) n j
  match table, ht, n, hn with
  | 0, _, 0, _ => exact absurd rfl h
  | 0, _, 1, _ => rfl
  | 0, _, 2, _ => rfl
  | 0, _, 3, _ => rfl
  | 1, _, 0, _ => rfl
  | 1, _, 1, _ => exact absurd rfl h
  | 1, _, 2, _ => rfl
  | 1, _, 3, _ => rfl
  | 2, _, 0, _ => exact hrule
  | 2, _, 1, _ => exact hrule
  | 2, _, 2, _ => exact absurd rfl h
  | 2, _, 3, _ => exact hrule
  | 3, _, 0, _ => rfl
  | 3, _, 1, _ => rfl
  | 3, _, 2, _ => rfl
  | 3, _, 3, _ => exact absurd rfl h

theorem mem_tblPut (table i : Nat) (e : BitVec 256) (s : State) : (tblPut table i e s).mem = s.mem := by
  unfold tblPut
  dsimp only
  split
  · rfl
  · rfl
  · rw [bump, addRgF, setRgF, setRg_mem, setRg_mem, setRg_mem]
  · rfl

/-- A rule's version and banks when its entry is written. -/
theorem banks_tblPut {i : Nat} (e : BitVec 256) (s : State) (hi : i < 2 ^ 24) :
    rg JCT_SID_PREV i (tblPut 2 i e s) = rg JCT_SID_CUR i s ∧ rg JCT_SID_CUR i (tblPut 2 i e s) = 0 ∧
      rgF JCT_SID_VER i 3 0 (tblPut 2 i e s) = (rgF JCT_SID_VER i 3 0 s + 1) % 16 := by
  have hne : ∀ {r r' : Nat}, r ≠ r' → rkey r i ≠ rkey r' i := fun h => rkey_ne_of_lt h hi hi
  rw [tblPut_rule]
  refine ⟨?_, ?_, ?_⟩
  · rw [rg_bump_other (hne (by decide)), rg_setRg_other _ _ _ _ _ _ (hne (by decide)), rg_setRg_same]
  · rw [rg_bump_other (hne (by decide)), rg_setRg_same]
  · rw [rgF_bump_same _ _ _ _ _ (by decide) (by decide), rgF, rg_setRg_other _ _ _ _ _ _ (hne (by decide)),
      rg_setRg_other _ _ _ _ _ _ (hne (by decide))]
    rfl

/-! ### Commands (R214, R217) -/

/-- The data words of a path as an entry. -/
def stagedEntry (p : Nat) (s : State) : BitVec 256 := tblOf fun k => rg (JCT_TBL_D + 4 * k) p s

/-- A command's word stored. -/
def cmdStored (p : Nat) (v : Word) (s : State) : State := setRg JCT_TBL_CMD p (v &&& 0x7FFF0033) s

/-- A command's answer. -/
def cmdAnswered (p : Nat) (r : State × Nat) : State := setRg JCT_TBL_STAT p (w32 (r.2 * 2)) r.1

theorem tblCmdWrite_go {p : Nat} {v : Word} {s : State} (hw : writable p JCT_TBL_CMD 0 s = true)
    (hg : bit v 31 = true) :
    tblCmdWrite p v s = cmdAnswered p (tblCommand p (fld v 5 4) (fld v 1 0) (fld v 30 16) (cmdStored p v s)) :=
  (if_neg (not_not.2 hw)).trans (if_pos hg)

theorem stagedEntry_cmdStored {p : Nat} (v : Word) (s : State) (hp : p < 2 ^ 24) :
    stagedEntry p (cmdStored p v s) = stagedEntry p s :=
  tblOf_congr fun k _ => rg_setRg_other _ _ _ _ _ _
    (rkey_ne_of_lt (by simp only [JCT_TBL_D, JCT_TBL_CMD]; omega) hp hp)

theorem tblCommand_read {p i table : Nat} {s : State} (hi : i < tblSize table) :
    tblCommand p 0 table i s =
      (forEach (List.range 8) (fun k => setRg (JCT_TBL_D + 4 * k) p (tblWord (tblGet table i s) k)) s, 0) := by
  unfold tblCommand
  dsimp only
  rw [if_neg (by omega), if_neg (by decide), if_neg (by decide), if_neg (by omega), if_pos rfl]

theorem tblCommand_write {p i table : Nat} {s : State} (hi : i < tblSize table)
    (h : table = 2 → ruleUndefined (stagedEntry p s) = false) :
    tblCommand p 1 table i s = (tblPut table i (stagedEntry p s) s, 0) := by
  unfold tblCommand
  dsimp only
  rw [if_neg (by omega), if_neg (by decide), if_neg (by decide), if_neg (by omega), if_neg (by decide), if_neg]
  · rfl
  · rintro ⟨h2, hu⟩
    exact absurd (hu.symm.trans (h h2)) (by decide)

theorem tblCommand_undefined {p i : Nat} {s : State} (hi : i < 2048) (h : ruleUndefined (stagedEntry p s) = true) :
    tblCommand p 1 2 i s = (s, 5) := by
  unfold tblCommand
  dsimp only
  rw [if_neg (by omega), if_neg (by decide), if_neg (by decide), if_neg (by simp only [tblSize]; omega),
    if_neg (by decide), if_pos ⟨rfl, h⟩]

theorem tblCommand_beyond {p op i table : Nat} {s : State} (hop : op < 2) (hi : tblSize table ≤ i) :
    tblCommand p op table i s = (s, 1) := by
  unfold tblCommand
  dsimp only
  rw [if_neg (by omega), if_neg (by omega), if_neg (by omega), if_pos hi]

theorem tblCommand_lacking {p op i table : Nat} {s : State} (hop : 2 ≤ op) (h : table ≠ 1) :
    tblCommand p op table i s = (s, 4) := if_pos ⟨hop, h⟩

/-- Where an entry is inserted: at its key, or in the lowest free way. -/
def insertPlace (e : BitVec 256) (s : State) : Option Nat :=
  match macFind (macKeyVid e) (macKeyAddr e) s with
  | some j => some j
  | none => macFree (macKeyVid e) (macKeyAddr e) s

theorem tblCommand_insert {p i : Nat} {s : State} : tblCommand p 2 1 i s =
    match insertPlace (stagedEntry p s) s with
    | some j => (tblPut 1 j (stagedEntry p s) s, 0)
    | none => (s, 2) := by
  unfold tblCommand insertPlace
  dsimp only
  rw [if_neg (by omega), if_pos rfl, stagedEntry]
  cases macFind (macKeyVid (tblOf fun k => rg (JCT_TBL_D + 4 * k) p s))
    (macKeyAddr (tblOf fun k => rg (JCT_TBL_D + 4 * k) p s)) s with
  | some j => rfl
  | none =>
    cases macFree (macKeyVid (tblOf fun k => rg (JCT_TBL_D + 4 * k) p s))
      (macKeyAddr (tblOf fun k => rg (JCT_TBL_D + 4 * k) p s)) s with
    | some j => rfl
    | none => rfl

theorem tblCommand_delete {p i : Nat} {s : State} : tblCommand p 3 1 i s =
    match macFind (macKeyVid (stagedEntry p s)) (macKeyAddr (stagedEntry p s)) s with
    | some j => (tblPut 1 j 0 s, 0)
    | none => (s, 3) := by
  unfold tblCommand
  dsimp only
  rw [if_neg (by omega), if_neg (by decide), if_pos rfl]
  rfl

theorem status_cmdAnswered (p : Nat) (s : State) : rg JCT_TBL_STAT p (cmdAnswered p (s, 0)) = 0 := rg_setRg_same _ _ _ _

theorem jct_cmdAnswered (p : Nat) (r : State × Nat) : (cmdAnswered p r).jct = r.1.jct := setRg_jct _ _ _ _

theorem mem_cmdAnswered (p : Nat) (r : State × Nat) : (cmdAnswered p r).mem = r.1.mem := setRg_mem _ _ _ _

theorem tblGet_cmdAnswered (n j p : Nat) (r : State × Nat) : tblGet n j (cmdAnswered p r) = tblGet n j r.1 :=
  tblGet_congr (jct_cmdAnswered p r) n j

/-- The words that a read leaves in the path's data registers. -/
theorem forEach_dataWords {p k : Nat} (e : BitVec 256) (s : State) (hk : k < 8) (hp : p < 2 ^ 24) :
    rg (JCT_TBL_D + 4 * k) p (forEach (List.range 8) (fun k => setRg (JCT_TBL_D + 4 * k) p (tblWord e k)) s) =
      tblWord e k := by
  rw [forEach_once (f := fun k => setRg (JCT_TBL_D + 4 * k) p (tblWord e k)) List.nodup_range (fun _ => True)
    (v := rg (JCT_TBL_D + 4 * k) p) (g := fun _ => tblWord e k) (p := k)
    (fun _ _ _ => trivial) (fun t _ => rg_setRg_same _ _ _ _)
    (fun q t _ h => rg_setRg_other _ _ _ _ _ _ (rkey_ne_of_lt (by omega) hp hp)) trivial, if_pos (List.mem_range.2 hk)]

theorem onlyIn_dataWords (p : Nat) (e : BitVec 256) (s : State) :
    OnlyIn ⟨[.regs], 0⟩ s (forEach (List.range 8) (fun k => setRg (JCT_TBL_D + 4 * k) p (tblWord e k)) s) :=
  forEach_keeps (OnlyIn ⟨[.regs], 0⟩ s) _ _ _ (fun k _ t ht => ht.trans (.of fun _ _ =>
    (OnlyIn.refl t).setRg (hF := by
      refine Allows.mono ‹_› ?_
      simp [Scope.covers]))) (.refl s)

/-- An entry of the MAC table put where a command names it, and the command answered. -/
theorem entryPut_spec (p j : Nat) (e : BitVec 256) (s : State) :
    let t := cmdAnswered p (tblPut 1 j e s, 0)
    rg JCT_TBL_STAT p t = 0 ∧ tblGet 1 j t = definedBits 1 e ∧ (∀ i : Nat, i ≠ j → tblGet 1 i t = tblGet 1 i s) ∧
      t.mem = s.mem :=
  ⟨status_cmdAnswered p _, (tblGet_cmdAnswered _ _ p _).trans (tblGet_tblPut_same (by decide) j e s), fun i hi =>
    (tblGet_cmdAnswered _ _ p _).trans (tblGet_tblPut_other (by decide) e s hi),
    (mem_cmdAnswered p _).trans (mem_tblPut 1 j e s)⟩

theorem exec_tblCommand {p : Path} {v : Word} {c : Instr}
    (h : c ∈ [Instr.jctTblRead p v, .jctTblWrite p v, .jctTblInsert p v, .jctTblDelete p v]) (s : State) :
    exec c s = .next (tblCmdWrite p v s) := by
  simp only [List.mem_cons, List.not_mem_nil, or_false] at h
  rcases h with rfl | rfl | rfl | rfl
  · rfl
  · rfl
  · rfl
  · rfl

/-- Settles O40: each operation's equation, the answer's registers, and an entry put at 0 by age. -/
theorem junctionTablesAnswerCommands : Obligations.JunctionTablesAnswerCommands := by
  refine ⟨fun p v s hw hg c hc => ?_, fun p v s c hc => ?_, fun i s => ⟨fun hv hst ha hr hage => ?_, fun h => ?_⟩⟩
  · have hp : p.val < 2 ^ 24 := by omega
    have hx : exec c s = .next (cmdAnswered p (tblCommand p (fld v 5 4) (fld v 1 0) (fld v 30 16) (cmdStored p v s))) :=
      (exec_tblCommand hc s).trans (congrArg Host.Outcome.next (tblCmdWrite_go hw hg))
    have he := stagedEntry_cmdStored v s hp
    have ht : fld v 1 0 < 4 := Nat.mod_lt _ (by decide)
    intro e word answered
    refine ⟨fun hop hi => ?_, fun hop hu hi => ?_, fun hop h2 hu hi => ?_, fun hop hi => ?_, fun hop h1 => ?_,
      fun hop h1 => ⟨fun j hj => ?_, fun hn hf => ?_⟩, fun hop h1 => ⟨fun j hj => ?_, fun hn => ?_⟩⟩
    · rw [hop, tblCommand_read hi] at hx
      have ho := onlyIn_dataWords p (tblGet (fld v 1 0) (fld v 30 16) (cmdStored p v s)) (cmdStored p v s)
      refine ⟨_, hx, status_cmdAnswered p _, fun k => ?_, (jct_cmdAnswered p _).trans (ho.keeps .jct),
        (mem_cmdAnswered p _).trans (ho.keeps .mem)⟩
      rw [cmdAnswered, rg_setRg_other _ _ _ _ _ _
        (rkey_ne_of_lt (by simp only [JCT_TBL_D, JCT_TBL_STAT]; omega) hp hp), forEach_dataWords _ _ k.isLt hp]
      rfl
    · rw [hop, tblCommand_write hi (by rw [he]; exact hu), he] at hx
      refine ⟨_, hx, status_cmdAnswered p _, ?_, fun j hj => ?_, fun n j hn hne => ?_, fun h2 => ?_, ?_⟩
      · exact (tblGet_cmdAnswered _ _ p _).trans ((tblGet_tblPut_same ht _ _ _).trans (definedBits_tblOf _ _))
      · exact (tblGet_cmdAnswered _ _ p _).trans (tblGet_tblPut_other ht _ _ hj)
      · exact (tblGet_cmdAnswered _ _ p _).trans (tblGet_tblPut_table ht hn hne _ _ _ _)
      · have hi24 : fld v 30 16 < 2 ^ 24 := (Nat.mod_lt _ (by decide)).trans (by decide)
        rw [h2]
        obtain ⟨hprev, hcur, hver⟩ := banks_tblPut (stagedEntry p s) (cmdStored p v s) hi24
        have hk : ∀ {r r' : Nat}, r ≠ r' → rkey r (fld v 30 16) ≠ rkey r' p := fun h => rkey_ne_of_lt h hi24 hp
        have hs : ∀ {r : Nat}, r ≠ JCT_TBL_CMD → rg r (fld v 30 16) (cmdStored p v s) = rg r (fld v 30 16) s :=
          fun h => rg_setRg_other _ _ _ _ _ _ (hk h)
        rw [hs (by decide)] at hprev
        rw [rgF, rgF, hs (by decide)] at hver
        refine ⟨(rg_setRg_other _ _ _ _ _ _ (hk (by decide))).trans hprev,
          (rg_setRg_other _ _ _ _ _ _ (hk (by decide))).trans hcur, ?_⟩
        rw [rgF, cmdAnswered, rg_setRg_other _ _ _ _ _ _ (hk (by decide))]
        exact hver
      · exact (mem_cmdAnswered p _).trans (mem_tblPut _ _ _ _)
    · rw [hop, h2, tblCommand_undefined hi (by rw [he]; exact hu)] at hx
      exact hx
    · rw [tblCommand_beyond hop hi] at hx
      exact hx
    · rw [tblCommand_lacking hop h1] at hx
      exact hx
    · have hplace : insertPlace e (cmdStored p v s) = some j := by
        unfold insertPlace
        rcases hj with hj | ⟨hn, hf⟩
        · rw [show macFind (macKeyVid e) (macKeyAddr e) (cmdStored p v s) = some j from hj]
        · rw [show macFind (macKeyVid e) (macKeyAddr e) (cmdStored p v s) = none from hn]
          exact hf
      rw [hop, h1, tblCommand_insert, he, show stagedEntry p s = e from rfl, hplace] at hx
      obtain ⟨hst, hsame, hother, hmem⟩ := entryPut_spec p j e (cmdStored p v s)
      exact ⟨_, hx, hst, hsame.trans (definedBits_tblOf 1 _), hother, hmem⟩
    · have hplace : insertPlace e (cmdStored p v s) = none := by
        unfold insertPlace
        rw [show macFind (macKeyVid e) (macKeyAddr e) (cmdStored p v s) = none from hn]
        exact hf
      rw [hop, h1, tblCommand_insert, he, show stagedEntry p s = e from rfl, hplace] at hx
      exact hx
    · rw [hop, h1, tblCommand_delete, he, show macFind (macKeyVid (stagedEntry p s)) (macKeyAddr (stagedEntry p s))
        (cmdStored p v s) = some j from hj] at hx
      obtain ⟨hst, hsame, hother, hmem⟩ := entryPut_spec p j 0 (cmdStored p v s)
      exact ⟨_, hx, hst, hsame.trans (definedBits_zero 1), hother, hmem⟩
    · rw [hop, h1, tblCommand_delete, he, show macFind (macKeyVid (stagedEntry p s)) (macKeyAddr (stagedEntry p s))
        (cmdStored p v s) = none from hn] at hx
      exact hx
  · rw [exec_tblCommand hc]
    exact ⟨fun hw hg => congrArg Host.Outcome.next ((if_neg (not_not.2 hw)).trans (if_neg (by simp [hg]))),
      fun hw => congrArg Host.Outcome.next (if_pos (by simp [hw]))⟩
  · have hx : macEntryAgeing i s = tblPut 1 i 0 s := if_pos ⟨hv, by simp [hst], ha, by simp [hr], hage⟩
    exact ⟨_, congrArg Host.Outcome.next hx, (tblGet_tblPut_same (by decide) i 0 s).trans (definedBits_zero 1),
      fun j hj => tblGet_tblPut_other (by decide) 0 s hj, rfl, rfl⟩
  · refine congrArg Host.Outcome.next (if_neg ?_)
    rintro ⟨hv, hst, ha, hr, hage⟩
    rcases h with h | h | h | h | h
    · exact absurd (hv.symm.trans h) (by decide)
    · exact hst h
    · exact ha h
    · exact hr h
    · omega

end Sys2Proof.Machine
end

section
/-! PROOF. O42 fails: a suspended copy may name a port whose number, as the index of a MAC's counter of stomped
frames, is the key of the count of bad cut-through frames. -/

set_option Elab.async false

namespace Sys2Proof.Machine

open Sys2Proof

/-- The port whose MAC counter 38 has the key of JCT_CNT_CT. -/
def strayPort : Nat := (JCT_CNT_CT - (MAC_CNT + 4 * 38)) * 2 ^ 24

theorem rkey_strayPort : rkey (MAC_CNT + 4 * 38) strayPort = rkey JCT_CNT_CT 0 := by decide

/-- A frame that is cut through. -/
def cutFrame : JFrame := { id := 0, bytes := zeros 60, src := 0, cls := 0, ts := 0, arrived := 0, cells := 1, refs := 1,
                           length := 64 }

/-- The rest of a copy of it, under a port that is none. -/
def strayRest : Copy := { frame := 0, port := strayPort, cls := 0, sub := 4096 }

/-- Port 0 receives the frame, and port 1 holds that rest of a copy. -/
def strayCut : State :=
  setSuspended 1 (some strayRest)
    (setMacRun 0 { arriving := some { looked := { bytes := zeros 60, ts := 0 }, frame := some 0 } }
      { setRg MAC_CFG 0 0x05F20000 State.reset with jct := { State.reset.jct with frames := [cutFrame] } })

theorem strayCut_count : rgF JCT_CNT_CT 0 15 0 (frameLastByte 0 ⟨false, false⟩ 64 strayCut) = 2 := by decide +kernel

/-- Refutes O42: the frame's bad end is counted, and so is, at the same key, the stomping of the rest of its copy. -/
theorem not_junctionEndsAgesAndAuditsFrames : ¬ Obligations.JunctionEndsAgesAndAuditsFrames := by
  rintro ⟨-, hend, -⟩
  obtain ⟨hframe, -⟩ := hend 0 false 64 { looked := { bytes := zeros 60, ts := 0 }, frame := some 0 } strayCut
    (by decide +kernel) (by decide) (by decide +kernel)
  obtain ⟨t, ht, -, -, -, -, hbad⟩ := hframe 0 cutFrame rfl (by decide +kernel) (by decide)
  obtain rfl : frameLastByte 0 ⟨false, false⟩ 64 strayCut = t := Host.Outcome.next.inj ht
  exact absurd (strayCut_count.symm.trans (hbad rfl).1) (by decide +kernel)

end Sys2Proof.Machine
end

section
/-! PROOF. O60: writes of Junction's registers by supervisor paths. Such a write stores by the access codes; what
hardware does in its cycle comes first and moves bits of the same register only. -/

set_option Elab.async false

namespace Sys2Proof.Machine

open Sys2Proof

/-! ### Registers of the Junction block -/

/-- A register of the Junction block other than the table command and JCT_DT. -/
def JctPlain (r : Nat) : Prop := r / 0x1000 = 0x09 ∧ r ≠ JCT_TBL_CMD ∧ r ≠ JCT_DT

theorem JctPlain.range {r : Nat} (h : JctPlain r) : 0x9000 ≤ r ∧ r < 0xA000 := by
  obtain ⟨h, -, -⟩ := h
  omega

theorem inst_lt {n k i : Nat} (h : inst n k = some i) : i < n := by
  unfold inst at h
  split at h
  · next hk =>
    obtain rfl := Option.some.inj h
    exact hk
  · exact absurd h (by simp)

/-- An index that a path reaches in the Junction block is one of the block's. -/
theorem reachInst_lt {p r i : Nat} {s : State} (hp : p < 8) (hr : JctPlain r) (h : reachInst p r s = some i) :
    i < 2 ^ 24 := by
  obtain ⟨h9, -, -⟩ := hr
  have hwin : ∀ w j, winInst r w = some j → j < 2 ^ 24 := by
    intro w j hj
    have hf : ∀ hi lo, fld w hi lo < 2 ^ (hi - lo + 1) := fun hi lo => Nat.mod_lt _ (Nat.two_pow_pos _)
    unfold winInst at hj
    simp only [h9] at hj
    split at hj
    · obtain rfl := Option.some.inj hj
      decide
    · split at hj
      · exact (inst_lt hj).trans (by decide)
      · split at hj
        · obtain ⟨q, hq, rfl⟩ := Option.map_eq_some_iff.1 hj
          have := inst_lt hq
          have := hf 26 24
          omega
        · obtain rfl := Option.some.inj hj
          exact (hf 10 0).trans (by decide)
  unfold reachInst at h
  rw [if_neg (by omega)] at h
  split at h
  · obtain ⟨q, -, rfl⟩ := Option.map_eq_some_iff.1 h
    omega
  · exact hwin _ _ h

theorem clampValue_jct {r : Nat} (h : JctPlain r) (i : Nat) (v : Word) : clampValue r i v = v := by
  obtain ⟨hlo, hhi⟩ := h.range
  obtain ⟨-, -, hdt⟩ := h
  unfold clampValue
  simp only [MFE_CH_OFFSET, ROA_TIMEOUT, SHF_SSI_TIME, FPA_VRG_TDR, MAC_CFG, QMG_Q_BUF, JNL_P_CFG, TWN_STEP, HIE_RELAY]
  rw [if_neg (by omega), if_neg hdt, if_neg (by omega), if_neg (by omega), if_neg (by omega), if_neg (by omega),
    if_neg (by omega), if_neg (by omega), if_neg (by omega), if_neg (by omega)]

theorem noteHeld_jct {r : Nat} (h : JctPlain r) (i : Nat) (s : State) : noteHeld r i s = s := by
  obtain ⟨hlo, hhi⟩ := h.range
  have hh : heldReg r = false := by
    simp only [heldReg, ROA_ACQ_GAIN, ROA_TRK_GAIN, ROA_TOL, ROA_STANDSTILL, MAC_FILT_LO, TPK_P_CFG, TPK_P_BURST,
      TPK_S_CFG, TPK_S_BURST, TPK_SUB_CFG, TPK_SUB_RATE, TPK_SUB_BURST, FLT_G_MASK, FLT_G_FORCE,
      FLT_G_CLS, Bool.or_eq_false_iff,
      beq_eq_false_iff_ne, decide_eq_false_iff_not]
    omega
  unfold noteHeld
  rw [if_pos (by simp [hh])]

/-- What a write by the access codes leaves of a register (R6, R7). -/
def storedWord (r i : Nat) (v : Word) (s : State) : Word :=
  (rg r i s &&& ~~~(rwMask r i s) ||| v &&& rwMask r i s) &&& ~~~(v &&& w32 (regRow r).w1c)

theorem storeReg_jct {r : Nat} (h : JctPlain r) (i : Nat) (v : Word) (s : State) :
    storeReg r i v s = setRg r i (storedWord r i v s) s := by
  unfold storeReg
  dsimp only
  rw [clampValue_jct h, noteHeld_jct h, storedWord]

theorem bit_storedWord (r i : Nat) (v : Word) (s : State) {b : Nat} (hb : b < 32) : bit (storedWord r i v s) b =
    ((if bit (rwMask r i s) b = true then bit v b else bit (rg r i s) b) &&
      !(bit v b && bit (w32 (regRow r).w1c) b)) := by
  unfold storedWord bit
  simp only [BitVec.getLsbD_and, BitVec.getLsbD_or, BitVec.getLsbD_not, hb, decide_true, Bool.true_and]
  cases (rwMask r i s).getLsbD b <;> simp

theorem unitWrite_jct {p r : Nat} (h : JctPlain r) (v : Word) (s : State) :
    unitWrite p r v s = atReg p r (fun i => storeReg r i v) s := by
  obtain ⟨hlo, hhi⟩ := h.range
  obtain ⟨-, hcmd, -⟩ := h
  have hne : ∀ {x : Nat}, x < 0x9000 ∨ 0xA000 ≤ x → r ≠ x := fun hx e => by omega
  have hport : ¬ (r = FPA_PORT_CFG ∨ r = FPA_T1S_PLCA ∨ r = FPA_SER_CFG ∨ r = FPA_SER_BIT) := by
    simp only [FPA_PORT_CFG, FPA_T1S_PLCA, FPA_SER_CFG, FPA_SER_BIT]
    omega
  unfold unitWrite
  dsimp only
  rw [if_neg (hne (by decide)), if_neg (hne (by decide)), if_neg (hne (by decide)), if_neg (hne (by decide)),
    if_neg (hne (by decide)), if_neg (hne (by decide)), if_neg (hne (by decide)), if_neg (hne (by decide)),
    if_neg (hne (by decide)), if_neg (hne (by decide)), if_neg (hne (by decide)), if_neg (hne (by decide)),
    if_neg (hne (by decide)), if_neg (hne (by decide)), if_neg hport, if_neg (hne (by decide)),
    if_neg (hne (by decide)), if_neg (hne (by decide)),
    if_neg (hne (by decide)), if_neg hcmd, if_neg (hne (by decide)), if_neg (hne (by decide)), if_neg (hne (by decide)),
    if_neg (hne (by decide))]

theorem writeReg_jct {p r : Nat} (h : JctPlain r) (v : Word) (s : State) :
    writeReg p r v s = atReg p r (fun i => storeReg r i v) s := by
  have h9 : r / 0x1000 = 0x09 := h.1
  unfold writeReg
  simp only [h9]
  exact unitWrite_jct h v s

theorem atReg_reached {p r i : Nat} (f : Nat → State → State) {s : State} (hi : reachInst p r s = some i)
    (hw : writable p r i s = true) : atReg p r f s = f i s := by
  unfold atReg
  rw [hi]
  exact if_pos hw

theorem atReg_refused {p r i : Nat} (f : Nat → State → State) {s : State} (hi : reachInst p r s = some i)
    (hw : writable p r i s = false) : atReg p r f s = s := by
  unfold atReg
  rw [hi]
  exact if_neg (by simp [hw])

/-- A write somewhere, or none. -/
theorem atReg_cases (p r : Nat) (f : Nat → State → State) (s : State) :
    atReg p r f s = s ∨ ∃ j, atReg p r f s = f j s := by
  unfold atReg
  split
  · next j _ =>
    split
    · exact .inr ⟨j, rfl⟩
    · exact .inl rfl
  · exact .inl rfl

/-! ### What hardware does in the cycle of a write (R8) -/

theorem hardwareActs_nothing (r i : Nat) (s : State) : hardwareActs r i 0 0 s = s := by
  unfold hardwareActs
  extract_lets w1c move old s1 s2
  have h1 : s1 = s := rfl
  have h2 : s2 = s := by
    rw [show s2 = onlyIf (decide (MAC_CNT ≤ r ∧ r < MAC_CNT + 256) && !bit old 31 && bit (rg r i s1) 31)
      (setHalf i ((r - MAC_CNT) / 4)) s1 from rfl, h1, show old = rg r i s from rfl]
    generalize decide (MAC_CNT ≤ r ∧ r < MAC_CNT + 256) = a
    generalize bit (rg r i s) 31 = c
    cases a <;> cases c <;> rfl
  have hl : ((List.range 32).filter fun b => bit (0 &&& w1c) b) = [] := by
    rw [List.filter_eq_nil_iff]
    intro b _
    simp [bit]
  rw [hl, h2]
  rfl

/-- No MAC counter is a Junction register. -/
theorem not_macCounter {r : Nat} (h : JctPlain r) (b c : Bool) :
    (decide (MAC_CNT ≤ r ∧ r < MAC_CNT + 256) && b && c) = false := by
  obtain ⟨hlo, hhi⟩ := h.range
  rw [decide_eq_false (by simp only [MAC_CNT]; omega), Bool.false_and, Bool.false_and]

/-- The bits that hardware clears and moves before a write. -/
def hardwareMoves (r i : Nat) (set clr : Word) (s : State) : State :=
  let move := if r = FLT_G_FORCE then 0 else rwMask r i s ||| reportBits r
  onlyIf (set != 0 || clr != 0)
    (setRg r i ((rg r i s &&& ~~~(clr &&& (w32 (regRow r).w1c ||| move))) ||| (set &&& move))) s

theorem hardwareActs_jct {r : Nat} (h : JctPlain r) (i : Nat) (set clr : Word) (s : State) :
    hardwareActs r i set clr s = forEach ((List.range 32).filter fun b => bit (set &&& w32 (regRow r).w1c) b)
      (hardwareRaise r i) (hardwareMoves r i set clr s) := by
  unfold hardwareActs
  dsimp only
  rw [not_macCounter h]
  rfl

theorem hardwareActs_clears {r : Nat} (h : JctPlain r) (i : Nat) (clr : Word) (s : State) {b : Nat} (hb : b < 32)
    (hc : bit clr b = true) (hw : bit (w32 (regRow r).w1c) b = true) :
    bit (rg r i (hardwareActs r i 0 clr s)) b = false := by
  have hl : ((List.range 32).filter fun b => bit (0 &&& w32 (regRow r).w1c) b) = [] := by
    rw [List.filter_eq_nil_iff]
    intro b _
    simp [bit]
  have hne : (clr != 0) = true := by
    rw [bne_iff_ne]
    rintro rfl
    simp [bit] at hc
  rw [hardwareActs_jct h, hl, forEach_nil, hardwareMoves, hne, Bool.or_true, onlyIf, if_pos rfl, rg_setRg_same]
  unfold bit at hc hw ⊢
  simp only [BitVec.getLsbD_and, BitVec.getLsbD_or, BitVec.getLsbD_not, hb, decide_true, Bool.true_and, hc, hw,
    Bool.true_or, Bool.not_true, Bool.and_false, Bool.false_or]
  rw [show (0 : Word).getLsbD b = false from BitVec.getLsbD_zero, Bool.false_and]

/-- Hardware that sets a bit of a Junction register sets that bit, and the others of the register stand. -/
theorem bit_hardwareRaise {r i b : Nat} (h : JctPlain r) (hi : i < 2 ^ 24) (hb : b < 32) (s : State) :
    bit (rg r i (hardwareRaise r i b s)) b = true ∧
      ∀ b' < 32, bit (rg r i s) b' = true → bit (rg r i (hardwareRaise r i b s)) b' = true := by
  obtain ⟨hlo, hhi⟩ := h.range
  have hcol : rkey r i < rkey FLT_SEL 0 := rkey_lt_collector (by simp only [FLT_SEL]; omega) hi
  have hset : ∀ b' < 32, bit (rg r i s) b' = true → bit (setBit (rg r i s) b true) b' = true := by
    intro b' hb' h'
    by_cases e : b' = b
    · rw [e, bit_setBit_same _ _ _ hb]
    · rw [setBit, bit_setFld_other _ hb' (by omega)]
      exact h'
  unfold hardwareRaise
  rw [if_neg (by simp only [FLT_G_STICKY]; omega), if_neg (by simp only [MAC_HALF0, MAC_HALF1]; omega)]
  split
  · refine ⟨bit_setCause_same hb hcol, fun b' hb' h' => ?_⟩
    unfold setCause
    split
    · exact h'
    · dsimp only
      split
      · rw [rg_raiseSrc_before _ hcol, rg_setRg_same]
        exact hset b' hb' h'
      · rw [rg_setRg_same]
        exact hset b' hb' h'
  · rw [rg_setRg_same]
    exact ⟨bit_setBit_same _ _ _ hb, hset⟩

theorem hardwareActs_sets {r i : Nat} (h : JctPlain r) (hi : i < 2 ^ 24) (set clr : Word) (s : State) {b : Nat}
    (hb : b < 32) (hs : bit set b = true) (hw : bit (w32 (regRow r).w1c) b = true) :
    bit (rg r i (hardwareActs r i set clr s)) b = true := by
  have hmem : b ∈ (List.range 32).filter fun b => bit (set &&& w32 (regRow r).w1c) b := by
    refine List.mem_filter.2 ⟨List.mem_range.2 hb, ?_⟩
    unfold bit at hs hw ⊢
    rw [BitVec.getLsbD_and, hs, hw, Bool.and_self]
  rw [hardwareActs_jct h]
  have hlt : ∀ c ∈ (List.range 32).filter fun b => bit (set &&& w32 (regRow r).w1c) b, c < 32 := fun c hc =>
    List.mem_range.1 (List.mem_of_mem_filter hc)
  revert hmem hlt
  generalize (List.range 32).filter (fun b => bit (set &&& w32 (regRow r).w1c) b) = l
  generalize hardwareMoves r i set clr s = t
  intro hmem hlt
  induction l generalizing t with
  | nil => simp at hmem
  | cons c l ih =>
    rw [forEach_cons]
    have hc := bit_hardwareRaise h hi (hlt c List.mem_cons_self) t
    by_cases hl : b ∈ l
    · exact ih _ hl fun d hd => hlt d (List.mem_cons_of_mem _ hd)
    · obtain rfl : b = c := (List.mem_cons.1 hmem).resolve_right hl
      exact forEach_keeps (fun u => bit (rg r i u) b = true) _ _ _ (fun d hd u hu =>
        (bit_hardwareRaise h hi (hlt d (List.mem_cons_of_mem _ hd)) u).2 b hb hu) hc.1

/-! ### The rows of the block -/

theorem findRow_mem (off : Nat) (l : List RegRow) : findRow off l = .blank off ∨ findRow off l ∈ l := by
  induction l with
  | nil => exact .inl rfl
  | cons r t ih =>
    unfold findRow
    split
    · exact .inr List.mem_cons_self
    · exact ih.imp_right (List.mem_cons_of_mem r)

/-- No bit of a Junction register is both rw and w1c. -/
theorem not_rw_of_w1c {r : Nat} (h : JctPlain r) (i : Nat) (s : State) {b : Nat} (hb : b < 32)
    (hw : bit (w32 (regRow r).w1c) b = true) : bit (rwMask r i s) b = false := by
  have hrows : ∀ x ∈ regRows 0x09, ∀ b < 32, bit (w32 x.w1c) b = true → bit (w32 x.rw) b = false := by decide +kernel
  have hrw : bit (w32 (regRow r).rw) b = false := by
    unfold regRow at hw ⊢
    rw [h.1] at hw ⊢
    rcases findRow_mem (r % 0x1000) (regRows 0x09) with he | hm
    · rw [he]
      simp [RegRow.blank, bit, w32]
    · exact hrows _ hm b hb hw
  unfold rwMask
  unfold bit at hrw ⊢
  rw [BitVec.getLsbD_and, hrw, Bool.false_and]

theorem rkey_inst_ne {r i j : Nat} (h : i ≠ j) : rkey r i ≠ rkey r j := by
  simp only [rkey]
  omega

/-- A bit that stands before a write of the register by its access codes, and that the write does not touch, stands
after it. -/
theorem bit_storedAt {p r : Nat} (h : JctPlain r) (i : Nat) (v : Word) (s : State) {b : Nat} {x : Bool} (hb : b < 32)
    (hx : bit (rg r i s) b = x) (hrw : bit (rwMask r i s) b = false)
    (hv : bit v b = false) : bit (rg r i (writeReg p r v s)) b = x := by
  rw [writeReg_jct h]
  rcases atReg_cases p r (fun i => storeReg r i v) s with he | ⟨j, he⟩
  · rw [he, hx]
  · rw [he, storeReg_jct h]
    by_cases hj : j = i
    · rw [hj, rg_setRg_same, bit_storedWord _ _ _ _ hb, hrw, hv, hx]
      cases x <;> rfl
    · rw [rg_setRg_other _ _ _ _ _ _ (rkey_inst_ne (Ne.symm hj)), hx]

theorem afterBatch_supervisor {p : Nat} (hp : p < 4) (s : State) : afterBatch p s = s := if_pos hp

theorem accessError_below {p addr size : Nat} {w : Bool} {s : State} (h : addr < regBase) :
    accessError p w addr size s = true := by
  unfold accessError
  simp only [decide_eq_true h, Bool.or_true, Bool.true_or]

/-- Whether a write of a Junction register is refused rests on no state. -/
theorem accessError_jct {p addr r : Nat} {s : State} (h : JctPlain r) (hn : regNumber (addr - regBase) = some r)
    (ha : accessError p true addr 4 s = false) (t : State) : accessError p true addr 4 t = false := by
  obtain ⟨hlo, hhi⟩ := h.range
  have hservo : servoReg r = false := by
    simp only [servoReg, MPT_INCR_INT, MPT_INCR_FRAC, MPT_SET_NS, MPT_SET_FRAC, MPT_STEP, Bool.or_eq_false_iff,
      beq_eq_false_iff_ne]
    omega
  rw [← ha]
  unfold accessError
  simp only [hn, hservo, Bool.false_and]

/-- A write of register `r`, hardware's acts of its cycle first. -/
def registerWritten (p addr size r : Nat) (v h c : Word) (s : State) : State :=
  let s := if addr < regBase then s else atReg p r (fun i => hardwareActs r i h c) s
  if accessError p true addr size s then s else afterBatch p (writeReg p r (v &&& ~~~(h &&& w32 (regRow r).w1c)) s)

/-- What a write of a register does, by the register's number: stated of a function, so that no check computes with
the address of the register space. -/
structure WritesByNumber (f : Nat → Nat → Nat → Word → Word → Word → State → State) : Prop where
  unknown : ∀ p addr size v h c s, regNumber (addr - regBase) = none → f p addr size v h c s = s
  known : ∀ p addr size v h c s r, regNumber (addr - regBase) = some r →
    f p addr size v h c s = registerWritten p addr size r v h c s

theorem registerWrite_byNumber : WritesByNumber registerWrite := by
  delta registerWrite
  refine ⟨fun p addr size v h c s hn => ?_, fun p addr size v h c s r hn => ?_⟩
  · generalize regNumber (addr - regBase) = o at hn ⊢
    subst hn
    rfl
  · generalize regNumber (addr - regBase) = o at hn ⊢
    subst hn
    rfl

theorem registerWrite_known {p addr r size : Nat} {v h c : Word} {s : State} (hn : regNumber (addr - regBase) = some r)
    (hlo : ¬ addr < regBase) : registerWrite p addr size v h c s =
      if accessError p true addr size (atReg p r (fun i => hardwareActs r i h c) s) = true then
        atReg p r (fun i => hardwareActs r i h c) s
      else afterBatch p (writeReg p r (v &&& ~~~(h &&& w32 (regRow r).w1c))
        (atReg p r (fun i => hardwareActs r i h c) s)) := by
  rw [registerWrite_byNumber.known _ _ _ _ _ _ _ _ hn, registerWritten, if_neg hlo]

theorem registerWrite_jct {p addr r : Nat} {v h c : Word} {s : State} (hp : p < 4) (hr : JctPlain r)
    (hn : regNumber (addr - regBase) = some r) (ha : accessError p true addr 4 s = false) :
    registerWrite p addr 4 v h c s = writeReg p r (v &&& ~~~(h &&& w32 (regRow r).w1c))
      (atReg p r (fun i => hardwareActs r i h c) s) := by
  have hlo : ¬ addr < regBase := fun hlt => by
    rw [accessError_below hlt] at ha
    exact absurd ha (by decide)
  rw [registerWrite_known hn hlo, accessError_jct hr hn ha, if_neg (by decide), afterBatch_supervisor hp]

theorem atReg_nothing (p r : Nat) (s : State) : atReg p r (fun i => hardwareActs r i 0 0) s = s := by
  rcases atReg_cases p r (fun i => hardwareActs r i 0 0) s with he | ⟨j, he⟩
  · exact he
  · rw [he, hardwareActs_nothing]

theorem not_masked (v w : Word) : v &&& ~~~((0 : Word) &&& w) = v := by
  refine BitVec.eq_of_getLsbD_eq fun i hi => ?_
  rw [BitVec.getLsbD_and, BitVec.getLsbD_not, BitVec.getLsbD_and, show (0 : Word).getLsbD i = false
    from BitVec.getLsbD_zero]
  simp [hi]

/-- Without hardware a write of a Junction register stores by its access codes where it is taken. -/
theorem registerWrite_stores {p addr r : Nat} (v : Word) {s : State} (hp : p < 4) (hr : JctPlain r)
    (hn : regNumber (addr - regBase) = some r) (ha : accessError p true addr 4 s = false) :
    registerWrite p addr 4 v 0 0 s = atReg p r (fun i => storeReg r i v) s := by
  rw [registerWrite_jct hp hr hn ha, atReg_nothing, not_masked, writeReg_jct hr]

/-- An access that is not of 4 aligned bytes of the register space is refused. -/
theorem accessError_malformed {addr size : Nat} (h : size ≠ 4 ∨ addr % 4 ≠ 0 ∨ addr < regBase) (p : Nat) (w : Bool)
    (s : State) : accessError p w addr size s = true := by
  unfold accessError
  rcases h with h | h | h
  · simp only [decide_eq_true h, Bool.true_or]
  · simp only [decide_eq_true h, Bool.or_true, Bool.true_or]
  · simp only [decide_eq_true h, Bool.or_true, Bool.true_or]

theorem registerWritten_malformed {addr size : Nat} (h : size ≠ 4 ∨ addr % 4 ≠ 0 ∨ addr < regBase) (p r : Nat)
    (v : Word) (s : State) : registerWritten p addr size r v 0 0 s = s := by
  unfold registerWritten
  by_cases hlo : addr < regBase
  · rw [if_pos hlo, if_pos (accessError_malformed h _ _ _)]
  · rw [if_neg hlo, if_pos (accessError_malformed h _ _ _), atReg_nothing]

theorem registerWrite_malformed {addr size : Nat} (p : Nat) (v : Word) (s : State)
    (h : size ≠ 4 ∨ addr % 4 ≠ 0 ∨ addr < regBase) : registerWrite p addr size v 0 0 s = s := by
  cases hn : regNumber (addr - regBase) with
  | none => exact registerWrite_byNumber.unknown _ _ _ _ _ _ _ hn
  | some r => exact (registerWrite_byNumber.known _ _ _ _ _ _ _ _ hn).trans (registerWritten_malformed h _ _ _ _)

theorem setRg_restored (r i : Nat) (w : Word) (s : State) : { setRg r i w s with regs := s.regs } = s := by
  unfold setRg
  rfl

/-- Settles O60: the stored word bit by bit, and the bits that hardware moves in the same cycle. -/
theorem registerWritesFollowTheirAccessCodes : Obligations.RegisterWritesFollowTheirAccessCodes := by
  refine ⟨fun p addr r i v s hp hn ha h9 hcmd hdt hi => ⟨fun hw => ?_, fun hw => ⟨?_, fun h => ?_, fun h => ?_⟩⟩,
    fun p addr size v s h => congrArg Host.Outcome.next ?_⟩
  · exact congrArg Host.Outcome.next ((registerWrite_stores v hp ⟨h9, hcmd, hdt⟩ hn ha).trans (atReg_refused _ hi hw))
  · have hr : JctPlain r := ⟨h9, hcmd, hdt⟩
    refine ⟨_, congrArg Host.Outcome.next ((registerWrite_stores v hp hr hn ha).trans ((atReg_reached _ hi hw).trans
      (storeReg_jct hr i v s))), fun b => ?_, fun r' i' hne => rg_setRg_other _ _ _ _ _ _ hne,
      setRg_restored _ _ _ _⟩
    rw [rg_setRg_same, bit_storedWord _ _ _ _ b.isLt]
  · have hr : JctPlain r := ⟨h9, hcmd, hdt⟩
    refine ⟨_, congrArg Host.Outcome.next (registerWrite_jct hp hr hn ha), fun b hb hwb => ?_⟩
    rw [atReg_reached _ hi hw]
    refine bit_storedAt hr i _ _ b.isLt (hardwareActs_sets hr (reachInst_lt p.isLt hr hi) h 0 s b.isLt hb hwb)
      (not_rw_of_w1c hr i _ b.isLt hwb) ?_
    unfold bit at hb hwb ⊢
    rw [BitVec.getLsbD_and, BitVec.getLsbD_not, BitVec.getLsbD_and, hb, hwb]
    simp
  · have hr : JctPlain r := ⟨h9, hcmd, hdt⟩
    refine ⟨_, congrArg Host.Outcome.next (registerWrite_jct hp hr hn ha), fun b hb hwb => ?_⟩
    rw [atReg_reached _ hi hw, not_masked]
    exact bit_storedAt hr i _ _ b.isLt (hardwareActs_clears hr i h s b.isLt hb hwb)
      (not_rw_of_w1c hr i _ b.isLt hwb) BitVec.getLsbD_zero
  · exact registerWrite_malformed p v s h

end Sys2Proof.Machine
end

section
/-! PROOF. O45: recovery timeouts, latent periods and verdicts of the check units. -/

set_option Elab.async false

namespace Sys2Proof.Machine

open Sys2Proof

/-! ### What these operations write -/

namespace OnlyIn

variable {F : Scope} {s₀ s : State}

theorem with_freP {x} (h : OnlyIn F s₀ s)
    (hF : Allows F ⟨[.freP], 23⟩ := by exact Allows.mono ‹_› rfl) :
    OnlyIn F s₀ { s with freP := x } :=
  h.trans ⟨fun p hp => by
    cases p
    case freP => exact (hp (hF.1 _ (.head _))).elim
    all_goals rfl, .refl _ _⟩

theorem with_freD {x} (h : OnlyIn F s₀ s)
    (hF : Allows F ⟨[.freD], 23⟩ := by exact Allows.mono ‹_› rfl) :
    OnlyIn F s₀ { s with freD := x } :=
  h.trans ⟨fun p hp => by
    cases p
    case freD => exact (hp (hF.1 _ (.head _))).elim
    all_goals rfl, .refl _ _⟩

theorem countLatent {n passed} (h : OnlyIn F s₀ s)
    (hF : Allows F ⟨[.freP, .freD], 23⟩ := by exact Allows.mono ‹_› rfl) :
    OnlyIn F s₀ (countLatent n passed s) :=
  h.ite (h.with_freP.ite h.with_freD)

end OnlyIn

/-! ### Memory's place rests on the channels' sizes -/

/-- The two DRAM channels are of the same size in both states. -/
def SameDram (s t : State) : Prop := ddrSize 0 t = ddrSize 0 s ∧ ddrSize 1 t = ddrSize 1 s

theorem ddrSize_congr {ch : Nat} {s t : State} (hstat : rg MEM_STAT ch t = rg MEM_STAT ch s)
    (hcfg : rg MEM_CFG ch t = rg MEM_CFG ch s) : ddrSize ch t = ddrSize ch s := by
  unfold ddrSize rgF
  rw [hstat, hcfg]

theorem SameDram.residentBase {s t : State} (h : SameDram s t) : residentBase t = residentBase s := by
  unfold Machine.residentBase
  rw [h.1, h.2]

theorem SameDram.region {s t : State} (h : SameDram s t) (a : Nat) : regionOf a t = regionOf a s := by
  unfold regionOf
  rw [h.residentBase, h.1, h.2]

theorem SameDram.canReach {s t : State} (h : SameDram s t) (r : Reach) (w : Bool) (a n : Nat) :
    canReach r w a n t = canReach r w a n s := by
  simp only [Machine.canReach, h.region, adjoin, h.1]

theorem SameDram.answer {s t : State} (h : SameDram s t) (hr : ∀ f, inReset f t = inReset f s) (a : Nat)
    (ans : MemAnswer) : answer a ans t = answer a ans s := by
  simp only [Machine.answer, h.region, hr]

theorem sameDram_setRg {r i : Nat} {v : Word} {s : State} (hi : i < 2 ^ 24) (hs : r ≠ MEM_STAT) (hc : r ≠ MEM_CFG) :
    SameDram s (setRg r i v s) :=
  have hlt : ∀ ch : Nat, ch < 2 → ch < 2 ^ 24 := fun ch h => h.trans (by decide)
  have one : ∀ ch : Nat, ch < 2 → ddrSize ch (setRg r i v s) = ddrSize ch s := fun ch h => ddrSize_congr
    (rg_setRg_other _ _ _ _ _ _ (rkey_ne_of_lt (Ne.symm hs) (hlt ch h) hi))
    (rg_setRg_other _ _ _ _ _ _ (rkey_ne_of_lt (Ne.symm hc) (hlt ch h) hi))
  ⟨one 0 (by decide), one 1 (by decide)⟩

theorem inReset_setRg {r i : Nat} {v : Word} {s : State} (hr : 0x1000 ≤ r) (hi : i < 2 ^ 24) (f : Nat) :
    inReset f (setRg r i v s) = inReset f s := by
  unfold inReset
  by_cases hf : f < 215
  · rw [rg_setRg_other _ _ _ _ _ _ (rkey_ne_of_lt (by simp only [SYS_RST_STAT]; omega) (by decide) hi)]
  · rw [decide_eq_false hf, Bool.false_and, Bool.false_and]

/-! ### Sequence recovery (R269, R271, R272) -/

theorem countLatent_off {n : Nat} {passed : Bool} {s : State} (h : bit (rg FRE_STR_CFG n s) 26 = false) :
    countLatent n passed s = s := if_pos (Or.inl (by simp [h]))

theorem countLatent_regs (n : Nat) (passed : Bool) (s : State) : (countLatent n passed s).regs = s.regs :=
  (OnlyIn.of (G := ⟨[.freP, .freD], 23⟩) fun _ _ => (OnlyIn.refl s).countLatent).keeps .regs

theorem rg_setRecHist_other {n r : Nat} {h : BitVec 128} {s : State} (hn : n < 2 ^ 24)
    (hr : r < FRE_STR_HIST ∨ FRE_STR_HIST + 12 < r) : rg r n (setRecHist n h s) = rg r n s := by
  have hne : ∀ k ≤ 12, rkey r n ≠ rkey (FRE_STR_HIST + k) n := fun k hk => rkey_ne_of_lt (by omega) hn hn
  unfold setRecHist
  dsimp only
  rw [rg_setRg_other _ _ _ _ _ _ (hne 12 (by decide)), rg_setRg_other _ _ _ _ _ _ (hne 8 (by decide)),
    rg_setRg_other _ _ _ _ _ _ (hne 4 (by decide)), rg_setRg_other _ _ _ _ _ _ (hne 0 (by decide))]

theorem rg_recPass_other {n r : Nat} {s : State} (hn : n < 2 ^ 24) (h : r ≠ FRE_CNT_PASS) :
    rg r n (recPass n s).1 = rg r n s :=
  (rg_congr (countLatent_regs n true _) r n).trans (rg_bump_other (rkey_ne_of_lt h hn hn))

theorem rgF_recPass (n : Nat) (s : State) :
    rgF FRE_CNT_PASS n 31 0 (recPass n s).1 = (rgF FRE_CNT_PASS n 31 0 s + 1) % 2 ^ 32 := by
  have h := rgF_bump_same FRE_CNT_PASS n 31 0 s (by decide) (by decide)
  rw [← h, rgF, rgF, recPass, rg_congr (countLatent_regs n true _)]

/-- The stream that takes any frame as recovered. -/
def takenAny (n : Nat) (q : BitVec 16) (s : State) : State :=
  setRecHist n (BitVec.allOnes 128) (setRg FRE_STR_STAT n (w32 q.toNat) s)

theorem recoverySeq_any {n : Nat} (q : BitVec 16) {s : State} (h : bit (rg FRE_STR_STAT n s) 16 = true) :
    recoverySeq n q s = recPass n (takenAny n q s) := if_pos h

/-- A number that the history's first bit holds is a duplicate. -/
theorem recoverySeq_duplicate {n : Nat} {q : BitVec 16} {s : State} (ht : bit (rg FRE_STR_STAT n s) 16 = false)
    (hl : bit (rg FRE_STR_CFG n s) 26 = false) (hn : n < 2 ^ 24) (hq : q.toNat = rgF FRE_STR_STAT n 15 0 s)
    (hb : bit (recHist n s) 0 = true) : recoverySeq n q s = (bump FRE_CNT_DISC n 31 0 s, false) := by
  have hd : sgn 16 (q - BitVec.ofNat 16 (rgF FRE_STR_STAT n 15 0 s)).toNat = 0 := by
    rw [← hq, BitVec.ofNat_toNat, BitVec.setWidth_eq, BitVec.sub_self]
    rfl
  have hh : 1 ≤ histLen n s := Nat.le_max_left _ _
  have hoff : bit (rg FRE_STR_CFG n (bump FRE_CNT_DISC n 31 0 s)) 26 = false := by
    rw [rg_bump_other (rkey_ne_of_lt (by decide) hn hn), hl]
  unfold recoverySeq
  dsimp only
  rw [hd, if_neg (by simp [ht]), if_neg (by omega), if_neg (by omega)]
  have h0 : (-(0 : Int)).toNat = 0 := rfl
  rw [h0, if_pos hb, countLatent_off hoff]

/-! ### Verdicts (R279, R281, R282) -/

/-- The context whose trigger read is taken. -/
def triggerTaken (c : Nat) (s : State) : State := setRgF CHK_CTX_STAT c 30 30 0 s

/-- The test that a verdict without an alive counter makes of the bytes read. -/
def crcAgrees (c : Nat) (d : Bytes) (s : State) : Bool := decide (crcOf (chkPoly c s)
  (slice d (covOff c s) (covLen c s)) =
    if chkConst c s then (rg CHK_CTX_CONST c s).toNat % 2 ^ (8 * crcBytes (chkPoly c s))
    else beAt d (chkOff c s) (crcBytes (chkPoly c s)))

/-- A verdict without an alive counter: the CRC decides. -/
theorem chkVerdict_plain {c : Nat} {d : Bytes} {s : State} (hlen : ¬ d.length < chkNeed c s)
    (ha : chkAlive c s = false) : (chkVerdict c d s).1 = if crcAgrees c d s then
        chkResult c chkPass (bump CHK_CTX_CNT_PASS c 31 0 s)
      else chkResult c chkMismatch (setCause CHK_CTX_CAUSE c 0 (bump CHK_CTX_CNT_FAIL c 31 16 s)) := by
  unfold chkVerdict
  rw [if_neg hlen]
  dsimp only
  rw [if_pos (show ¬ chkAlive c s = true by simp [ha])]
  refine (apply_ite Prod.fst _ _ _).trans ((ite_not _ _ _).trans (if_congr ?_ rfl rfl))
  exact decide_eq_true_iff.symm

/-- A check context is set alike in both states: all its registers but its status agree. -/
def SameContext (c : Nat) (s t : State) : Prop := ∀ r, r ≠ CHK_CTX_STAT → rg r c t = rg r c s

section

variable {c : Nat} {s t : State} (h : SameContext c s t)

include h

theorem SameContext.alive : chkAlive c t = chkAlive c s := by rw [chkAlive, chkAlive, h _ (by decide)]

theorem SameContext.poly : chkPoly c t = chkPoly c s := by rw [chkPoly, chkPoly, rgF, rgF, h _ (by decide)]

theorem SameContext.const : chkConst c t = chkConst c s := by rw [chkConst, chkConst, h _ (by decide)]

theorem SameContext.off : chkOff c t = chkOff c s := by rw [chkOff, chkOff, rgF, rgF, h _ (by decide)]

theorem SameContext.covOff : covOff c t = covOff c s := by
  rw [Machine.covOff, Machine.covOff, rgF, rgF, h _ (by decide)]

theorem SameContext.covLen : covLen c t = covLen c s := by
  rw [Machine.covLen, Machine.covLen, rgF, rgF, h _ (by decide)]

theorem SameContext.aliveOff : aliveOff c t = aliveOff c s := by
  rw [Machine.aliveOff, Machine.aliveOff, rgF, rgF, h _ (by decide)]

theorem SameContext.aliveBytes : aliveBytes c t = aliveBytes c s := by
  unfold Machine.aliveBytes aliveBits rgF
  rw [h _ (by decide)]

theorem SameContext.need : chkNeed c t = chkNeed c s := by
  unfold chkNeed
  rw [h.covOff, h.covLen, h.const, h.off, h.poly, h.alive, h.aliveOff, h.aliveBytes]

theorem SameContext.base : base40 CHK_CTX_ADDR_LO CHK_CTX_ADDR_HI c t = base40 CHK_CTX_ADDR_LO CHK_CTX_ADDR_HI c s := by
  rw [base40, base40, rgF, rgF, h _ (by decide), h _ (by decide)]

end

theorem sameContext_taken {c : Nat} (s : State) (hc : c < 2 ^ 24) : SameContext c s (triggerTaken c s) :=
  fun _ hr => rg_setRgF_other (rkey_ne_of_lt hr hc hc)

theorem rg_chkResult_other {c k r : Nat} {s : State} (hc : c < 2 ^ 24) (hr : r ≠ CHK_CTX_STAT) (hlt : MST_EVT_CNT < r) :
    rg r c (chkResult c k s) = rg r c s :=
  (rg_pulseSource_other _ _ hlt).trans (rg_setRgF_other (rkey_ne_of_lt hr hc hc))

theorem rg_chkResult (c k : Nat) (s : State) :
    rg CHK_CTX_STAT c (chkResult c k s) = setFld (rg CHK_CTX_STAT c s) 17 16 k :=
  (rg_pulseSource_other _ _ (by decide)).trans (rg_setRg_same _ _ _ _)

/-- What a verdict leaves: memory, lanes and frames, the taken trigger, and the outcome in status and counters. -/
structure Decided (c : Nat) (pass : Bool) (s t : State) : Prop where
  status : rg CHK_CTX_STAT c t = setFld (rg CHK_CTX_STAT c s) 17 16 (if pass then chkPass else chkMismatch)
  mem : t.mem = s.mem
  lanes : t.lanes = s.lanes
  jct : t.jct = s.jct
  passed : pass = true → rgF CHK_CTX_CNT_PASS c 31 0 t = (rgF CHK_CTX_CNT_PASS c 31 0 s + 1) % 2 ^ 32
  failed : pass = false → bit (rg CHK_CTX_CAUSE c t) 0 = true ∧
    rgF CHK_CTX_CNT_FAIL c 31 16 t = (rgF CHK_CTX_CNT_FAIL c 31 16 s + 1) % 2 ^ 16

theorem decided_pass {c : Nat} (s : State) (hc : c < 2 ^ 24) :
    Decided c true s (chkResult c chkPass (bump CHK_CTX_CNT_PASS c 31 0 s)) := by
  have hin : OnlyIn ⟨[.regs, .pulses, .flt], 3⟩ s (chkResult c chkPass (bump CHK_CTX_CNT_PASS c 31 0 s)) :=
    OnlyIn.of fun _ _ => (OnlyIn.refl s).bump.chkResult
  refine ⟨?_, hin.keeps .mem, hin.keeps .lanes, hin.keeps .jct, fun _ => ?_, fun h => absurd h (by decide)⟩
  · rw [rg_chkResult, rg_bump_other (rkey_ne_of_lt (by decide) hc hc)]
    rfl
  · rw [rgF, rg_chkResult_other hc (by decide) (by decide)]
    exact rgF_bump_same _ _ _ _ _ (by decide) (by decide)

theorem decided_mismatch {c : Nat} (s : State) (hc : c < 2 ^ 24) : Decided c false s
    (chkResult c chkMismatch (setCause CHK_CTX_CAUSE c 0 (bump CHK_CTX_CNT_FAIL c 31 16 s))) := by
  have hin : OnlyIn ⟨[.regs, .pulses, .flt], 3⟩ s
      (chkResult c chkMismatch (setCause CHK_CTX_CAUSE c 0 (bump CHK_CTX_CNT_FAIL c 31 16 s))) :=
    OnlyIn.of fun _ _ => (OnlyIn.refl s).bump.setCause.chkResult
  refine ⟨?_, hin.keeps .mem, hin.keeps .lanes, hin.keeps .jct, fun h => absurd h (by decide), fun _ => ⟨?_, ?_⟩⟩
  · rw [rg_chkResult, rg_setCause_other (rkey_ne_of_lt (by decide) hc hc) (rkey_lt_collector (by decide) hc),
      rg_bump_other (rkey_ne_of_lt (by decide) hc hc)]
    rfl
  · rw [rg_chkResult_other hc (by decide) (by decide)]
    exact bit_setCause_same (by decide) (rkey_lt_collector (by decide) hc)
  · rw [rgF, rg_chkResult_other hc (by decide) (by decide),
      rg_setCause_other (rkey_ne_of_lt (by decide) hc hc) (rkey_lt_collector (by decide) hc)]
    exact rgF_bump_same _ _ _ _ _ (by decide) (by decide)

theorem decided_verdict {c : Nat} {d : Bytes} {s : State} (hc : c < 2 ^ 24) (hlen : ¬ d.length < chkNeed c s)
    (ha : chkAlive c s = false) : Decided c (crcAgrees c d s) s (chkVerdict c d s).1 := by
  rw [chkVerdict_plain hlen ha]
  cases crcAgrees c d s with
  | true => exact decided_pass s hc
  | false => exact decided_mismatch s hc

theorem sameDram_taken {c : Nat} (s : State) (hc : c < 2 ^ 24) : SameDram s (triggerTaken c s) :=
  sameDram_setRg hc (by decide) (by decide)

/-- The address that a context's trigger read names. -/
def triggerAddr (c : Nat) (s : State) : Nat := base40 CHK_CTX_ADDR_LO CHK_CTX_ADDR_HI c s

theorem triggerTaken_bit (c : Nat) (s : State) : bit (rg CHK_CTX_STAT c (triggerTaken c s)) 30 = false := by
  rw [triggerTaken, setRgF, rg_setRg_same, bit, setFld_getLsbD _ _ _ _ _ (by decide), if_pos (by decide)]
  decide

/-- What holds on both branches of a test. -/
theorem ite_of {p : Prop} [Decidable p] {a b : Prop} (ha : p → a) (hb : ¬ p → b) : if p then a else b := by
  split
  · next h => exact ha h
  · next h => exact hb h

theorem checkTriggerVerdict_none {c : Nat} {ans : MemAnswer} {s : State} (h : bit (rg CHK_CTX_STAT c s) 30 = false) :
    checkTriggerVerdict c ans s = s := if_pos (by simp [h])

theorem checkTriggerVerdict_read {c : Nat} {ans : MemAnswer} {s : State}
    (h : bit (rg CHK_CTX_STAT c s) 30 = true) : checkTriggerVerdict c ans s =
      let t := triggerTaken c s
      let a := triggerAddr c t
      if ¬ canReach .unit true a (chkNeed c t) t then setCause CHK_CTX_CAUSE c 4 (bump CHK_CTX_CNT_FAIL c 7 0 t)
      else if ¬ memGood (answer a ans t) then
        setCause CHK_CTX_CAUSE c 4 (bump CHK_CTX_CNT_FAIL c 7 0 (noteAnswer a (answer a ans t) t))
      else (chkVerdict c (rdBytes a (chkNeed c t) t) (noteAnswer a (answer a ans t) t)).1 :=
  if_neg (not_not.2 h)

theorem length_rdBytes (a n : Nat) (s : State) : (rdBytes a n s).length = n := by
  induction n generalizing a with
  | zero => rfl
  | succ n ih => exact congrArg (· + 1) (ih (a + 1))

theorem crcAgrees_congr {c : Nat} {s t : State} (h : SameContext c s t) (d : Bytes) :
    crcAgrees c d t = crcAgrees c d s := by
  unfold crcAgrees
  rw [h.poly, h.covOff, h.covLen, h.const, h.off, h CHK_CTX_CONST (by decide)]

/-- The verdict of a trigger read that gets its data. -/
theorem decided_trigger {c : Nat} {s : State} (hc : c < 2 ^ 24) (h : bit (rg CHK_CTX_STAT c s) 30 = true)
    (hr : canReach .unit true (triggerAddr c s) (chkNeed c s) s = true) (hans : answer (triggerAddr c s) .ok s = .ok)
    (ha : chkAlive c s = false) : Decided c (crcAgrees c (rdBytes (triggerAddr c s) (chkNeed c s) s) s)
      (triggerTaken c s) (checkTriggerVerdict c .ok s) := by
  have hs := sameContext_taken s hc
  have hd := sameDram_taken s hc
  have hmem : (triggerTaken c s).mem = s.mem := setRg_mem ..
  have haddr : triggerAddr c (triggerTaken c s) = triggerAddr c s := hs.base
  have hneed : chkNeed c (triggerTaken c s) = chkNeed c s := hs.need
  have hok : answer (triggerAddr c s) .ok (triggerTaken c s) = .ok :=
    (hd.answer (inReset_setRg (by decide) hc) _ _).trans hans
  have halive : chkAlive c (triggerTaken c s) = false := hs.alive.trans ha
  rw [checkTriggerVerdict_read h]
  dsimp only
  rw [haddr, hneed, hd.canReach, if_neg (not_not.2 hr), hok, if_neg (by decide), noteAnswer_ok, rdBytes_congr hmem,
    ← crcAgrees_congr hs]
  exact decided_verdict hc (Nat.not_lt.2 (hneed.trans (length_rdBytes _ _ _).symm).le) halive

theorem lt_instances {n k : Nat} (i : Fin n) (h : n ≤ k := by decide) : i.val < k := i.isLt.trans_le h

/-- Settles O45: a verdict leaves the settings as they are, so the test is the one of the state before. -/
theorem recoveryAndCheckUnitsDecide : Obligations.RecoveryAndCheckUnitsDecide := by
  refine ⟨fun n s => ⟨fun hr hen hrec => congrArg Host.Outcome.next ?_, fun h => congrArg Host.Outcome.next ?_⟩,
    fun n s => ⟨fun hr hen hlat => congrArg Host.Outcome.next ?_, fun h => congrArg Host.Outcome.next ?_⟩,
    fun n q s => ⟨fun h => ?_, fun h hl hq hb => ?_⟩, fun c ans s => ⟨fun h => congrArg Host.Outcome.next ?_,
    fun h => ⟨fun hreach => congrArg Host.Outcome.next ?_, fun hreach hans ha => ?_⟩⟩⟩
  · unfold recoveryResetTimeout
    split
    · next h => rw [if_pos (by simpa [hr, hen, hrec] using h)]
    · next h => rw [if_neg (by simpa [hr, hen, hrec] using h)]
  · exact if_pos (by rcases h with h | h | h <;> simp [h])
  · exact if_neg (by simp [hr, hen, hlat])
  · exact if_pos (by rcases h with h | h | h <;> simp [h])
  · have hn : n.val < 2 ^ 24 := lt_instances n
    rw [recoverySeq_any q h]
    refine ⟨rfl, ?_, ?_⟩
    · rw [rg_recPass_other hn (by decide), takenAny, rg_setRecHist_other hn (by decide), rg_setRg_same]
    · rw [rgF_recPass, rgF, rgF, takenAny, rg_setRecHist_other hn (by decide),
        rg_setRg_other _ _ _ _ _ _ (rkey_ne_of_lt (by decide) hn hn)]
  · exact recoverySeq_duplicate h hl (lt_instances n) hq hb
  · exact checkTriggerVerdict_none h
  · have hc : c.val < 2 ^ 24 := lt_instances c
    have hs := sameContext_taken s hc
    refine (checkTriggerVerdict_read h).trans (if_pos ?_)
    rw [hs.need, (sameDram_taken s hc).canReach, show triggerAddr c (triggerTaken c s) = triggerAddr c s from hs.base]
    exact Bool.not_eq_true _ ▸ hreach
  · have hc : c.val < 2 ^ 24 := lt_instances c
    have hd := decided_trigger hc h hreach hans ha
    refine ⟨_, rfl, ?_, hd.mem.trans (setRg_mem ..), hd.lanes.trans (setRg_lanes ..), hd.jct.trans (setRg_jct ..), ?_⟩
    · exact (congrArg (bit · 30) hd.status).trans ((bit_setFld_other _ (by decide) (by decide)).trans
        (triggerTaken_bit _ _))
    · have hs : rgF CHK_CTX_STAT c 17 16 (checkTriggerVerdict c .ok s) = _ :=
        (congrArg (fld · 17 16) hd.status).trans (fld_setFld_same _ _ _ _ (by decide) (by decide))
      have hcount : ∀ r hi lo, r ≠ CHK_CTX_STAT → rgF r c hi lo (triggerTaken c s) = rgF r c hi lo s :=
        fun r hi lo hr => congrArg (fld · hi lo) (sameContext_taken s hc r hr)
      refine ite_of (fun hcrc => ?_) (fun hcrc => ?_)
      · have hb : crcAgrees c (rdBytes (triggerAddr c s) (chkNeed c s) s) s = true := decide_eq_true hcrc
        rw [hb] at hd hs
        exact ⟨hs, (hd.passed rfl).trans (by rw [hcount _ _ _ (by decide)])⟩
      · have hb : crcAgrees c (rdBytes (triggerAddr c s) (chkNeed c s) s) s = false := decide_eq_false hcrc
        rw [hb] at hd hs
        obtain ⟨hcause, hfail⟩ := hd.failed rfl
        exact ⟨hs, hcause, hfail.trans (by rw [hcount _ _ _ (by decide)])⟩

end Sys2Proof.Machine
end

section
/-! PROOF. O46: doorbells, enables, invalidations, polls and shutdowns of queues. A fetch ahead changes only what is
prefetched, so the indices of a queue are as they were read. -/

set_option Elab.async false

namespace Sys2Proof.Machine

open Sys2Proof

/-! ### What the registers and memory of a state settle -/

section

variable {s t : State} (h : t.regs = s.regs)

include h

theorem qState_congr (q : Nat) : qState q t = qState q s := congrArg (fld · 2 0) (rg_congr h QMG_Q_STAT q)

theorem qSize_congr (q : Nat) : qSize q t = qSize q s :=
  congrArg (fun w => ringSize (fld w 14 10)) (rg_congr h QMG_Q_CFG q)

theorem qCsize_congr (q : Nat) : qCsize q t = qCsize q s :=
  congrArg (fun w => ringSize (fld w 19 15)) (rg_congr h QMG_Q_CFG q)

theorem qKind_congr (q : Nat) : qKind q t = qKind q s := congrArg (fld · 21 20) (rg_congr h QMG_Q_CFG q)

theorem base40_congr (lo hi i : Nat) : base40 lo hi i t = base40 lo hi i s := by
  rw [base40, base40, rgF, rgF, rg_congr h, rg_congr h]

theorem sameDram_congr : SameDram s t :=
  ⟨ddrSize_congr (rg_congr h _ _) (rg_congr h _ _), ddrSize_congr (rg_congr h _ _) (rg_congr h _ _)⟩

theorem inReset_congr (f : Nat) : inReset f t = inReset f s := by rw [inReset, inReset, rg_congr h]

theorem canReach_congr (r : Reach) (w : Bool) (a n : Nat) : canReach r w a n t = canReach r w a n s :=
  (sameDram_congr h).canReach r w a n

theorem answer_congr (a : Nat) (ans : MemAnswer) : answer a ans t = answer a ans s :=
  (sameDram_congr h).answer (inReset_congr h) a ans

end

/-! ### Writes of a queue's status -/

/-- A queue's status has been written in one field: its number, its registers but the status, and memory stand. -/
theorem rg_setQState_other {q v r : Nat} {s : State} (hq : q < 2 ^ 24) (hr : r ≠ QMG_Q_STAT) :
    rg r q (setQState q v s) = rg r q s := rg_setRgF_other (rkey_ne_of_lt hr hq hq)

theorem qState_setQState (q v : Nat) (s : State) : qState q (setQState q v s) = v % 8 :=
  rgF_setRgF_same _ _ _ _ _ _ (by decide) (by decide)

/-- What a stop leaves: the error state with its code, memory, and every queue's indices. -/
structure Stopped (q code : Nat) (s t : State) : Prop where
  state : qState q t = qError
  code : rgF QMG_Q_STAT q 18 16 t = code % 8
  mem : t.mem = s.mem
  queues : t.queues = s.queues

theorem stopped_qStop {q code : Nat} {idx : Word} (s : State) (hq : q < 2 ^ 24) :
    Stopped q code s (qStop q code idx s) := by
  have hin : OnlyIn ⟨[.regs, .flt], 13⟩ s (qStop q code idx s) :=
    OnlyIn.of fun _ _ => (OnlyIn.refl s).setRgF.setRgF.setRg.setCause
  have hstat : rg QMG_Q_STAT q (qStop q code idx s) =
      rg QMG_Q_STAT q (setRgF QMG_Q_STAT q 18 16 code (setQState q qError s)) := by
    unfold qStop
    dsimp only
    rw [rg_setCause_other (rkey_ne_of_lt (by decide) hq hq) (rkey_lt_collector (by decide) hq),
      rg_setRg_other _ _ _ _ _ _ (rkey_ne_of_lt (by decide) hq hq)]
  refine ⟨?_, ?_, hin.keeps .mem, hin.keeps .queues⟩
  · refine (congrArg (fld · 2 0) hstat).trans ?_
    exact (rgF_setRgF_other _ _ _ (by decide) (by decide) (by decide) (by decide)).trans (qState_setQState q 3 s)
  · exact (congrArg (fld · 18 16) hstat).trans (rgF_setRgF_same _ _ _ _ _ _ (by decide) (by decide))

/-- A queue whose index block fails while it does not shut down stops in the error state. -/
theorem qState_ringFault {q code : Nat} {idx : Word} (s : State) (hq : q < 2 ^ 24) (h : qState q s ≠ qShutting) :
    qState q (ringFault q code idx s) = qError := by
  unfold ringFault
  rw [decide_eq_false h]
  exact (stopped_qStop _ hq).state

/-! ### Fetches ahead and held completions -/

/-- Only the prefetched entries of queue `q` differ. -/
structure FetchedOnly (q : Nat) (s t : State) : Prop where
  regs : t.regs = s.regs
  mem : t.mem = s.mem
  queue : ∃ p f, queueRun q t = { queueRun q s with prefetch := p, fetched := f }
  other : ∀ r, r ≠ q → queueRun r t = queueRun r s

theorem FetchedOnly.refl (q : Nat) (s : State) : FetchedOnly q s s := ⟨rfl, rfl, ⟨_, _, rfl⟩, fun _ _ => rfl⟩

theorem FetchedOnly.trans {q : Nat} {s t u : State} (h : FetchedOnly q s t) (h' : FetchedOnly q t u) :
    FetchedOnly q s u := by
  obtain ⟨p, f, he⟩ := h.queue
  obtain ⟨p', f', he'⟩ := h'.queue
  exact ⟨h'.regs.trans h.regs, h'.mem.trans h.mem, ⟨p', f', by rw [he', he]⟩,
    fun r hr => (h'.other r hr).trans (h.other r hr)⟩

theorem fetchedOnly_set (q : Nat) (p : Sparse Bytes) (f : Word) (s : State) :
    FetchedOnly q s (setQueueRun q { queueRun q s with prefetch := p, fetched := f } s) :=
  ⟨setQueueRun_regs .., setQueueRun_mem .., ⟨p, f, queueRun_setQueueRun ..⟩,
    fun _ hr => queueRun_setQueueRun_other _ _ _ _ hr⟩

theorem fetchedOnly_qPrefetch (q n : Nat) (s : State) : FetchedOnly q s (qPrefetch q n s) := by
  induction n generalizing s with
  | zero => exact .refl q s
  | succ n ih =>
    unfold qPrefetch
    dsimp only
    split
    · exact (fetchedOnly_set q _ _ s).trans (ih _)
    · exact .refl q s

theorem drainHolding_none {q : Nat} (x : QueueAnswers) (n : Nat) {s : State} (h : (queueRun q s).holding = [])
    (hs : qState q s ≠ qHolding) : drainHolding q x n s = s := by
  cases n with
  | zero => rfl
  | succ n =>
    unfold drainHolding
    rw [h]
    exact if_neg hs

/-! ### Doorbells (R290) -/

/-- What a read of a queue's indices makes of the block that memory gives: a stop at an impossible one, or both
taken. -/
theorem readIndices_answered {q : Nat} {all : Bool} {s : State} (hr : canReach .unit true (qIndex q s) 64 s = true)
    (ha : answer (qIndex q s) .ok s = .ok) : readIndices q all .ok s =
      let r := queueRun q s
      let p := if all then rdWord (qIndex q s) s else r.prod
      let c := rdWord (qIndex q s + 12) s
      if qSize q s < (p - r.cons).toNat then (qStop q 1 p s, false)
      else if qCsize q s < (r.cprod - c).toNat then (qStop q 1 c s, false)
      else (setQueueRun q { r with prod := p, ccons := c } s, true) := by
  unfold readIndices
  dsimp only
  rw [if_neg (not_not.2 hr), ha, noteAnswer_ok, if_neg (by decide)]
  rfl

/-- The block when a doorbell of queue `q` has been noted on its edge. -/
def noteRung (q : Nat) (s : State) : State :=
  { s with rungEdge := edgeNow s, rungQueues := rungOn (edgeNow s) s ++ [q] }

/-- The block in which the indices of a rung queue are read: a queue that processes reads prod again later. -/
def rungState (q : Nat) (s : State) : State :=
  onlyIf (qProcessing q s) (fun s => setQueueRun q { queueRun q s with ringAgain := true } s) (noteRung q s)

theorem noteRung_idle {q : Nat} {s : State} (h : qProcessing q s = false) : rungState q s = noteRung q s := by
  rw [rungState, h]
  rfl

theorem rungState_regs (q : Nat) (s : State) : (rungState q s).regs = s.regs :=
  onlyIf_keeps (v := State.regs) (setQueueRun_regs ..)

theorem rungState_mem (q : Nat) (s : State) : (rungState q s).mem = s.mem :=
  onlyIf_keeps (v := State.mem) (setQueueRun_mem ..)

theorem queueRun_rungState (q : Nat) (s : State) :
    queueRun q (rungState q s) = { queueRun q s with ringAgain := (queueRun q s).ringAgain || qProcessing q s } := by
  rw [rungState]
  cases qProcessing q s with
  | false => rw [Bool.or_false]; rfl
  | true => rw [Bool.or_true]; exact queueRun_setQueueRun ..

theorem queueRun_rungState_other {q r : Nat} (s : State) (h : r ≠ q) : queueRun r (rungState q s) = queueRun r s := by
  rw [rungState]
  cases qProcessing q s with
  | false => rfl
  | true => exact queueRun_setQueueRun_other _ _ _ _ h

/-- A doorbell of a running queue reads its indices. -/
theorem doorbell_running {q : Nat} {ans : MemAnswer} {s : State} (hr : inReset 205 s = false)
    (hc : (rungOn (edgeNow s) s).contains q = false) (hq : qState q s = qRunning) :
    (doorbellOp q (edgeNow s) ans s).1 =
      let r := readIndices q (!qProcessing q s) ans (rungState q s)
      if r.2 then qPrefetch q 8 (drainHolding q {} 17 r.1) else r.1 := by
  unfold doorbellOp
  rw [if_neg (by simp [hr]), if_neg (Bool.eq_false_iff.1 hc)]
  exact congrArg Prod.fst (if_pos (Or.inl hq))

/-- What an index read that stands leaves: the two indices taken, and nothing else of the queues but what is fetched. -/
theorem indicesTaken {q : Nat} (p c : Word) {s : State} (hh : (queueRun q s).holding = [])
    (hs : qState q s = qRunning) : FetchedOnly q (setQueueRun q { queueRun q s with prod := p, ccons := c } s)
      (qPrefetch q 8 (drainHolding q {} 17 (setQueueRun q { queueRun q s with prod := p, ccons := c } s))) := by
  have hst : qState q (setQueueRun q { queueRun q s with prod := p, ccons := c } s) ≠ qHolding := by
    rw [qState_congr (setQueueRun_regs ..), hs]
    decide
  rw [drainHolding_none _ _ (by rw [queueRun_setQueueRun]; exact hh) hst]
  exact fetchedOnly_qPrefetch q 8 _

/-- What a doorbell leaves whose indices stand. -/
structure Rung (q : Nat) (p c : Word) (s t : State) : Prop where
  regs : t.regs = s.regs
  mem : t.mem = s.mem
  queue : ∃ f x, queueRun q t = { queueRun q s with
    prod := p, ccons := c, prefetch := f, fetched := x, ringAgain := (queueRun q s).ringAgain || qProcessing q s }
  other : ∀ r, r ≠ q → queueRun r t = queueRun r s

theorem rung_doorbell {q : Nat} {s : State} (hr : inReset 205 s = false)
    (hc : (rungOn (edgeNow s) s).contains q = false) (hq : qState q s = qRunning)
    (hreach : canReach .unit true (qIndex q s) 64 s = true) (hans : answer (qIndex q s) .ok s = .ok)
    (hh : (queueRun q s).holding = []) {p : Word}
    (hp : p = if !qProcessing q s then rdWord (qIndex q s) s else (queueRun q s).prod)
    (hsize : (p - (queueRun q s).cons).toNat ≤ qSize q s)
    (hcsize : ((queueRun q s).cprod - rdWord (qIndex q s + 12) s).toNat ≤ qCsize q s) :
    Rung q p (rdWord (qIndex q s + 12) s) s (doorbellOp q (edgeNow s) .ok s).1 := by
  have hregs := rungState_regs q s
  have hmem := rungState_mem q s
  have hidx : qIndex q (rungState q s) = qIndex q s := base40_congr hregs _ _ _
  have hrun := queueRun_rungState q s
  have hread : readIndices q (!qProcessing q s) .ok (rungState q s) =
      (setQueueRun q { queueRun q (rungState q s) with prod := p, ccons := rdWord (qIndex q s + 12) s }
        (rungState q s), true) := by
    rw [readIndices_answered (by rw [hidx, canReach_congr hregs]; exact hreach)
      (by rw [hidx, answer_congr hregs]; exact hans)]
    dsimp only
    rw [hidx, rdWord_congr hmem, rdWord_congr hmem, qSize_congr hregs, qCsize_congr hregs]
    have hprod : (queueRun q (rungState q s)).prod = (queueRun q s).prod := by rw [hrun]
    rw [hprod, ← hp]
    have hcons : (queueRun q (rungState q s)).cons = (queueRun q s).cons := by rw [hrun]
    have hcprod : (queueRun q (rungState q s)).cprod = (queueRun q s).cprod := by rw [hrun]
    rw [hcons, hcprod, if_neg (Nat.not_lt.2 hsize), if_neg (Nat.not_lt.2 hcsize)]
  rw [doorbell_running hr hc hq, hread]
  have hf := indicesTaken (q := q) (s := rungState q s) p (rdWord (qIndex q s + 12) s) (by rw [hrun]; exact hh)
    ((qState_congr hregs q).trans hq)
  obtain ⟨f, x, he⟩ := hf.queue
  refine ⟨hf.regs.trans ((setQueueRun_regs ..).trans hregs), hf.mem.trans ((setQueueRun_mem ..).trans hmem),
    ⟨f, x, he.trans ?_⟩, fun r hr => (hf.other r hr).trans
      ((queueRun_setQueueRun_other _ _ _ _ hr).trans (queueRun_rungState_other s hr))⟩
  rw [queueRun_setQueueRun, hrun]

theorem doorbell_impossible {q : Nat} {s : State} (hr : inReset 205 s = false)
    (hc : (rungOn (edgeNow s) s).contains q = false) (hq : qState q s = qRunning)
    (hreach : canReach .unit true (qIndex q s) 64 s = true) (hans : answer (qIndex q s) .ok s = .ok)
    (hp : qProcessing q s = false)
    (hsize : qSize q s < (rdWord (qIndex q s) s - (queueRun q s).cons).toNat) :
    (doorbellOp q (edgeNow s) .ok s).1 = qStop q 1 (rdWord (qIndex q s) s) (noteRung q s) := by
  have hread : readIndices q true .ok (noteRung q s) = (qStop q 1 (rdWord (qIndex q s) s) (noteRung q s), false) := by
    have hregs : (noteRung q s).regs = s.regs := rfl
    have hidx : qIndex q (noteRung q s) = qIndex q s := base40_congr hregs _ _ _
    have hword : rdWord (qIndex q s) (noteRung q s) = rdWord (qIndex q s) s := rdWord_congr rfl _
    have h := readIndices_answered (all := true) (q := q) (s := noteRung q s)
      (by rw [hidx, canReach_congr hregs]; exact hreach) (by rw [hidx, answer_congr hregs]; exact hans)
    rw [hidx, hword, qSize_congr hregs] at h
    exact h.trans (if_pos hsize)
  rw [doorbell_running hr hc hq, noteRung_idle hp, hp, Bool.not_false, hread]
  rfl

theorem doorbell_unreachable {q : Nat} {ans : MemAnswer} {s : State} (hr : inReset 205 s = false)
    (hc : (rungOn (edgeNow s) s).contains q = false) (hq : qState q s = qRunning)
    (hreach : canReach .unit true (qIndex q s) 64 s = false) (hp : qProcessing q s = false) :
    (doorbellOp q (edgeNow s) ans s).1 = ringFault q 5 (queueRun q s).next (noteRung q s) := by
  have hread : readIndices q true ans (noteRung q s) = (ringFault q 5 (queueRun q s).next (noteRung q s), false) :=
    if_pos (Bool.not_eq_true _ ▸ hreach)
  rw [doorbell_running hr hc hq, noteRung_idle hp, hp, Bool.not_false, hread]
  rfl

theorem doorbell_disabled {q : Nat} {ans : MemAnswer} {s : State} (hr : inReset 205 s = false)
    (hc : (rungOn (edgeNow s) s).contains q = false) (hrun : qState q s ≠ qRunning) (hhold : qState q s ≠ qHolding) :
    (doorbellOp q (edgeNow s) ans s).1 = bump QMG_CNT_DB 0 15 0 (noteRung q s) := by
  unfold doorbellOp
  rw [if_neg (by simp [hr]), if_neg (Bool.eq_false_iff.1 hc)]
  exact congrArg Prod.fst (if_neg (not_or.2 ⟨hrun, hhold⟩))

/-! ### Enabling (R291) -/

theorem fld_congr {v w : Word} {hi lo : Nat} (h : ∀ j, lo ≤ j → j < lo + (hi - lo + 1) → v.getLsbD j = w.getLsbD j) :
    fld v hi lo = fld w hi lo := by
  refine Nat.eq_of_testBit_eq fun k => ?_
  rw [fld, fld, Nat.testBit_mod_two_pow, Nat.testBit_mod_two_pow, Nat.testBit_div_two_pow, Nat.testBit_div_two_pow]
  by_cases hk : k < hi - lo + 1
  · rw [decide_eq_true hk, Bool.true_and, Bool.true_and]
    exact h (k + lo) (Nat.le_add_left _ _) (by omega)
  · rw [decide_eq_false hk]
    rfl

/-- While a queue is disabled a write of its configuration sets its kind and ring sizes. -/
theorem getLsbD_qcfgFields (v old : Word) {j : Nat} (h : 10 ≤ j ∧ j < 22) :
    (qcfgFields v old false).getLsbD j = v.getLsbD j := by
  obtain ⟨hlo, hhi⟩ := h
  simp only [qcfgFields, Bool.false_eq_true, if_false, BitVec.getLsbD_or, BitVec.getLsbD_and, BitVec.getLsbD_not]
  interval_cases j <;> simp

/-- The configuration that an enabling write leaves. -/
def cfgEnabled (q : Nat) (v : Word) (s : State) : State :=
  setRgF QMG_Q_CFG q 31 31 1 (setRg QMG_Q_CFG q (qcfgFields v (rg QMG_Q_CFG q s) false) s)

theorem rg_cfgEnabled_other {q r : Nat} (v : Word) (s : State) (hq : q < 2 ^ 24) (hr : r ≠ QMG_Q_CFG) :
    rg r q (cfgEnabled q v s) = rg r q s :=
  (rg_setRgF_other (rkey_ne_of_lt hr hq hq)).trans (rg_setRg_other _ _ _ _ _ _ (rkey_ne_of_lt hr hq hq))

theorem rg_cfgEnabled (q : Nat) (v : Word) (s : State) :
    rg QMG_Q_CFG q (cfgEnabled q v s) = setFld (qcfgFields v (rg QMG_Q_CFG q s) false) 31 31 1 := by
  rw [cfgEnabled, setRgF, rg_setRg_same, rg_setRg_same]

theorem fld_cfgEnabled {q hi lo : Nat} (v : Word) (s : State) (h : 10 ≤ lo) (hl : lo ≤ hi) (hh : hi < 22) :
    fld (rg QMG_Q_CFG q (cfgEnabled q v s)) hi lo = fld v hi lo := by
  rw [rg_cfgEnabled, fld_setFld_other _ hl (by omega) (by decide) (by omega)]
  exact fld_congr fun j hlo hhi => getLsbD_qcfgFields v _ (by omega)

theorem SameDram.trans {s t u : State} (h : SameDram s t) (h' : SameDram t u) : SameDram s u :=
  ⟨h'.1.trans h.1, h'.2.trans h.2⟩

/-- A queue that starts: its state, no error code, and nothing of an earlier run. -/
def started (q : Nat) (s : State) : State := setQueueRun q {} (setRgF QMG_Q_STAT q 18 16 0 (setQState q qRunning s))

theorem rg_started_other {q r : Nat} (s : State) (hq : q < 2 ^ 24) (hr : r ≠ QMG_Q_STAT) :
    rg r q (started q s) = rg r q s :=
  (rg_congr (setQueueRun_regs ..) r q).trans
    ((rg_setRgF_other (rkey_ne_of_lt hr hq hq)).trans (rg_setQState_other hq hr))

theorem qState_started (q : Nat) (s : State) : qState q (started q s) = qRunning :=
  (qState_congr (setQueueRun_regs ..) q).trans
    ((rgF_setRgF_other _ _ _ (by decide) (by decide) (by decide) (by decide)).trans (qState_setQState q 1 s))

theorem started_mem (q : Nat) (s : State) : (started q s).mem = s.mem :=
  (setQueueRun_mem ..).trans ((setRg_mem ..).trans (setRg_mem ..))

theorem queueRun_started_other {q r : Nat} (s : State) (h : r ≠ q) : queueRun r (started q s) = queueRun r s :=
  queueRun_setQueueRun_other _ _ _ _ h

/-- The registers that place memory and hold functions in reset stand in both states. -/
structure SamePlaces (s t : State) : Prop where
  dram : SameDram s t
  reset : ∀ f, inReset f t = inReset f s

theorem SamePlaces.trans {s t u : State} (h : SamePlaces s t) (h' : SamePlaces t u) : SamePlaces s u :=
  ⟨h.dram.trans h'.dram, fun f => (h'.reset f).trans (h.reset f)⟩

theorem samePlaces_setRg {r i : Nat} {v : Word} {s : State} (hi : i < 2 ^ 24) (hr : 0x1000 ≤ r) (hlt : r < 0x15000) :
    SamePlaces s (setRg r i v s) :=
  ⟨sameDram_setRg hi (by simp only [MEM_STAT]; omega) (by simp only [MEM_CFG]; omega), inReset_setRg hr hi⟩

theorem samePlaces_congr {s t : State} (h : t.regs = s.regs) : SamePlaces s t := ⟨sameDram_congr h, inReset_congr h⟩

theorem samePlaces_cfgEnabled {q : Nat} (v : Word) (s : State) (hq : q < 2 ^ 24) : SamePlaces s (cfgEnabled q v s) :=
  (samePlaces_setRg (r := QMG_Q_CFG) hq (by decide) (by decide)).trans
    (samePlaces_setRg (r := QMG_Q_CFG) hq (by decide) (by decide))

theorem samePlaces_started {q : Nat} (s : State) (hq : q < 2 ^ 24) : SamePlaces s (started q s) :=
  ((samePlaces_setRg (r := QMG_Q_STAT) hq (by decide) (by decide)).trans
    (samePlaces_setRg (r := QMG_Q_STAT) hq (by decide) (by decide))).trans (samePlaces_congr (setQueueRun_regs ..))

/-- The four indices of the block at `a`. -/
def startRun (a : Nat) (s : State) : QueueRun :=
  { prod := rdWord a s, cons := rdWord (a + 4) s, cprod := rdWord (a + 8) s, ccons := rdWord (a + 12) s,
    next := rdWord (a + 4) s, fetched := rdWord (a + 4) s }

theorem startRun_congr {s t : State} (h : t.mem = s.mem) (a : Nat) : startRun a t = startRun a s := by
  unfold startRun
  rw [rdWord_congr h, rdWord_congr h, rdWord_congr h, rdWord_congr h]

/-- The outcome of the four indices: an impossible one stops the queue. -/
def startOutcome (q : Nat) (r : QueueRun) (t : State) : State :=
  if qSize q t < (r.prod - r.cons).toNat then qStop q 1 r.prod t
  else if qCsize q t < (r.cprod - r.ccons).toNat then qStop q 1 r.ccons t
  else qPrefetch q 8 t

/-- A queue that starts reads the index block at `a`. -/
def startRead (q a : Nat) (ans : MemAnswer) (s : State) : State :=
  if ¬ canReach .unit true a 64 s then ringFault q 5 0 s
  else if ¬ memGood (answer a ans s) then ringFault q 7 0 (noteAnswer a (answer a ans s) s)
  else
    let t := noteAnswer a (answer a ans s) s
    startOutcome q (startRun a t) (setQueueRun q (startRun a t) t)

theorem startQueue_eq (q : Nat) (ans : MemAnswer) (s : State) :
    startQueue q ans s = startRead q (qIndex q s) ans (started q s) := rfl

theorem startRead_answered {q a : Nat} {s : State} (hr : canReach .unit true a 64 s = true)
    (ha : answer a .ok s = .ok) :
    startRead q a .ok s = startOutcome q (startRun a s) (setQueueRun q (startRun a s) s) := by
  rw [startRead, if_neg (not_not.2 hr), ha, if_neg (by decide)]
  dsimp only
  rw [noteAnswer_ok]

theorem startQueue_answered {q : Nat} {s : State} (hq : q < 2 ^ 24) (hr : canReach .unit true (qIndex q s) 64 s = true)
    (ha : answer (qIndex q s) .ok s = .ok) : startQueue q .ok s =
      startOutcome q (startRun (qIndex q s) s) (setQueueRun q (startRun (qIndex q s) s) (started q s)) := by
  have hp := samePlaces_started s hq
  rw [startQueue_eq, startRead_answered ((hp.dram.canReach ..).trans hr) ((hp.dram.answer hp.reset ..).trans ha),
    startRun_congr (started_mem q s)]

/-- A write that enables a queue starts it in its new configuration. -/
theorem queueEnable_starts {path q : Nat} {v : Word} {ans : MemAnswer} {s : State} (hq : q < 2 ^ 24)
    (hw : winOf path QMG_Q_CFG s = some q) (hwr : writable path QMG_Q_CFG q s = true)
    (hoff : bit (rg QMG_Q_CFG q s) 31 = false) (hon : bit v 31 = true) (hst : qState q s ≠ qShutting) :
    queueEnable path v ans s = startQueue q ans (cfgEnabled q v s) := by
  have hstat : qState q (setRg QMG_Q_CFG q (qcfgFields v (rg QMG_Q_CFG q s) false) s) ≠ qShutting := by
    rwa [qState, rgF, rg_setRg_other _ _ _ _ _ _ (rkey_ne_of_lt (by decide) hq hq)]
  rw [queueEnable, atInst_taken _ _ _ _ _ hw hwr]
  unfold qcfgWrite
  rw [hoff]
  exact (if_neg Bool.false_ne_true).trans (if_pos ⟨hon, hstat⟩)

/-- The block in which an enabled queue's indices are tested. -/
def enabledState (q : Nat) (v : Word) (s : State) : State :=
  setQueueRun q (startRun (qIndex q s) s) (started q (cfgEnabled q v s))

theorem cfgEnabled_mem (q : Nat) (v : Word) (s : State) : (cfgEnabled q v s).mem = s.mem :=
  (setRg_mem ..).trans (setRg_mem ..)

theorem enabledState_mem (q : Nat) (v : Word) (s : State) : (enabledState q v s).mem = s.mem :=
  (setQueueRun_mem ..).trans ((started_mem q _).trans (cfgEnabled_mem q v s))

theorem rg_enabledState {q : Nat} (v : Word) (s : State) (hq : q < 2 ^ 24) :
    rg QMG_Q_CFG q (enabledState q v s) = rg QMG_Q_CFG q (cfgEnabled q v s) :=
  (rg_congr (setQueueRun_regs ..) _ _).trans (rg_started_other _ hq (by decide))

theorem qState_enabledState (q : Nat) (v : Word) (s : State) : qState q (enabledState q v s) = qRunning :=
  (qState_congr (setQueueRun_regs ..) q).trans (qState_started q _)

theorem qSize_enabledState {q : Nat} (v : Word) (s : State) (hq : q < 2 ^ 24) :
    qSize q (enabledState q v s) = ringSize (fld v 14 10) := by
  rw [qSize, rgF, rg_enabledState v s hq, fld_cfgEnabled v s (by decide) (by decide) (by decide)]

theorem qCsize_enabledState {q : Nat} (v : Word) (s : State) (hq : q < 2 ^ 24) :
    qCsize q (enabledState q v s) = ringSize (fld v 19 15) := by
  rw [qCsize, rgF, rg_enabledState v s hq, fld_cfgEnabled v s (by decide) (by decide) (by decide)]

theorem enabled_enabledState {q : Nat} (v : Word) (s : State) (hq : q < 2 ^ 24) :
    bit (rg QMG_Q_CFG q (enabledState q v s)) 31 = true := by
  rw [rg_enabledState v s hq, rg_cfgEnabled, bit, setFld_getLsbD _ _ _ _ _ (by decide), if_pos (by decide)]
  decide

theorem queueRun_enabledState_other {q r : Nat} (v : Word) (s : State) (h : r ≠ q) :
    queueRun r (enabledState q v s) = queueRun r s :=
  (queueRun_setQueueRun_other _ _ _ _ h).trans (queueRun_started_other _ h)

theorem queueEnable_answered {path q : Nat} {v : Word} {s : State} (hq : q < 2 ^ 24)
    (hw : winOf path QMG_Q_CFG s = some q) (hwr : writable path QMG_Q_CFG q s = true)
    (hoff : bit (rg QMG_Q_CFG q s) 31 = false) (hon : bit v 31 = true) (hst : qState q s ≠ qShutting)
    (hr : canReach .unit true (qIndex q s) 64 s = true) (ha : answer (qIndex q s) .ok s = .ok) :
    queueEnable path v .ok s = startOutcome q (startRun (qIndex q s) s) (enabledState q v s) := by
  have hp := samePlaces_cfgEnabled v s hq
  have hidx : qIndex q (cfgEnabled q v s) = qIndex q s := by
    rw [qIndex, qIndex, base40, base40, rgF, rgF, rg_cfgEnabled_other v s hq (by decide),
      rg_cfgEnabled_other v s hq (by decide)]
  rw [queueEnable_starts hq hw hwr hoff hon hst, startQueue_answered hq (by rw [hidx, hp.dram.canReach]; exact hr)
    (by rw [hidx, hp.dram.answer hp.reset]; exact ha), hidx, startRun_congr (cfgEnabled_mem q v s), enabledState]

/-! ### Polls and shutdowns (R302, R305) -/

theorem mayDrain_running {q : Nat} {s : State} (hs : qState q s = qRunning) (hm : (queueRun q s).mute = false) :
    mayDrain q s = true := by
  rw [mayDrain, hs, hm]
  rfl

/-- Where nothing is held and the queue runs, there is nothing to settle. -/
theorem settleQueue_running {q : Nat} (x : QueueAnswers) {s : State} (hh : (queueRun q s).holding = [])
    (hs : qState q s = qRunning) : settleQueue q x s = s := by
  unfold settleQueue
  rw [drainHolding_none x 17 hh (by rw [hs]; decide)]
  exact if_pos (Or.inl (by rw [hs]; decide))

theorem cringPoll_full {q : Nat} {s : State} (hr : inReset 205 s = false) (hf : cringFull q s = true)
    (hh : (queueRun q s).holding = []) (hs : qState q s = qRunning) (hm : (queueRun q s).mute = false)
    (ha : answer (qIndex q s) .ok s = .ok) :
    cringPoll q {} s =
      if qCsize q s < ((queueRun q s).cprod - rdWord (qIndex q s + 12) s).toNat then
        qStop q 1 (rdWord (qIndex q s + 12) s) s
      else setQueueRun q { queueRun q s with ccons := rdWord (qIndex q s + 12) s } s := by
  have hn : noteAccess (qIndex q s) .ok s = s := by rw [noteAccess, ha, noteAnswer_ok]
  unfold cringPoll
  dsimp only
  have hsettle : settleQueue q {} (setQueueRun q { queueRun q s with ccons := rdWord (qIndex q s + 12) s } s) =
      setQueueRun q { queueRun q s with ccons := rdWord (qIndex q s + 12) s } s :=
    settleQueue_running {} (by rw [queueRun_setQueueRun]; exact hh) ((qState_congr (setQueueRun_regs ..) q).trans hs)
  rw [if_neg (by simp [hr, hf, mayDrain_running hs hm]), hn, ha, if_neg (by decide), ← rdWord, hsettle,
    if_pos (Or.inl hs)]

/-- A queue that shuts down with nothing held, under way or left is disabled. -/
theorem settleQueue_empty {q : Nat} {s : State} (hs : qState q s = qShutting) (hd : (queueRun q s).dispatch = [])
    (hf : (queueRun q s).failed = none) (hb : (queueRun q s).busy = false) (hh : (queueRun q s).holding = [])
    (hbatch : (queueRun q s).batch = 0) (hn : (queueRun q s).prod = (queueRun q s).next) :
    settleQueue q {} s = setRgF QMG_Q_CFG q 31 31 0 (setQState q qDisabled s) := by
  have hdrain : drainHolding q {} 17 s = s := drainHolding_none _ _ hh (by rw [hs]; decide)
  have hrest : abortRest q {} s = s := by
    have hclose : closeBatchAt q {} (queueRun q s).next 0 s = s := if_pos hbatch
    unfold abortRest
    rw [if_neg (by rw [hh]; decide)]
    dsimp only
    rw [hclose, hn, if_pos (by rw [BitVec.sub_self]; rfl)]
  unfold settleQueue
  dsimp only
  rw [hdrain, if_neg (by simp [hs, hd, hf, hb]), hrest, hdrain,
    if_pos ⟨hs, by rw [hh]; rfl, hbatch, hn.symm⟩]

/-- A shutdown of a running queue reads prod. -/
theorem queueShutdown_running {q : Nat} {s : State} (hq : q < 2 ^ 24) (hr : inReset 205 s = false)
    (hs : qState q s = qRunning) (hreach : canReach .unit true (qIndex q s) 64 s = true)
    (ha : answer (qIndex q s) .ok s = .ok) : queueShutdown q {} s =
      if qSize q s < (rdWord (qIndex q s) s - (queueRun q s).cons).toNat then
        qStop q 1 (rdWord (qIndex q s) s) (setQState q qShutting s)
      else settleQueue q {} (setQueueRun q { queueRun q s with prod := rdWord (qIndex q s) s }
        (setQState q qShutting s)) := by
  have hp : SamePlaces s (setQState q qShutting s) := samePlaces_setRg hq (by decide) (by decide)
  have hans : answer (qIndex q s) .ok (setQState q qShutting s) = .ok := (hp.dram.answer hp.reset ..).trans ha
  have hn : noteAccess (qIndex q s) .ok (setQState q qShutting s) = setQState q qShutting s := by
    rw [noteAccess, hans, noteAnswer_ok]
  have hword : rdWord (qIndex q s) (setQState q qShutting s) = rdWord (qIndex q s) s := rdWord_congr (setRg_mem ..) _
  have hsize : qSize q (setQState q qShutting s) = qSize q s := by
    rw [qSize, qSize, rgF, rgF, rg_setQState_other hq (by decide)]
  unfold queueShutdown shutdownOp
  rw [if_neg (by simp [hr]), if_neg (by rw [hs]; decide)]
  dsimp only
  rw [hp.dram.canReach, if_neg (not_not.2 hreach), hn, hans, if_neg (by decide), ← rdWord, hword, hsize]
  rfl

/-- A shutdown with nothing left leaves the queue disabled. -/
theorem queueShutdown_empty {q : Nat} {s : State} (hq : q < 2 ^ 24) (hr : inReset 205 s = false)
    (hs : qState q s = qRunning) (hreach : canReach .unit true (qIndex q s) 64 s = true)
    (ha : answer (qIndex q s) .ok s = .ok)
    (hsize : (rdWord (qIndex q s) s - (queueRun q s).cons).toNat ≤ qSize q s)
    (hd : (queueRun q s).dispatch = []) (hf : (queueRun q s).failed = none) (hb : (queueRun q s).busy = false)
    (hh : (queueRun q s).holding = []) (hbatch : (queueRun q s).batch = 0)
    (hn : rdWord (qIndex q s) s = (queueRun q s).next) :
    qState q (queueShutdown q {} s) = qDisabled ∧ bit (rg QMG_Q_CFG q (queueShutdown q {} s)) 31 = false ∧
      (queueShutdown q {} s).mem = s.mem := by
  have hstate : qState q (setQueueRun q { queueRun q s with prod := rdWord (qIndex q s) s } (setQState q qShutting s)) =
      qShutting := (qState_congr (setQueueRun_regs ..) q).trans (qState_setQState q 4 s)
  rw [queueShutdown_running hq hr hs hreach ha, if_neg (Nat.not_lt.2 hsize),
    settleQueue_empty hstate (by rw [queueRun_setQueueRun]; exact hd) (by rw [queueRun_setQueueRun]; exact hf)
      (by rw [queueRun_setQueueRun]; exact hb) (by rw [queueRun_setQueueRun]; exact hh)
      (by rw [queueRun_setQueueRun]; exact hbatch) (by rw [queueRun_setQueueRun]; exact hn)]
  refine ⟨?_, ?_, (setRg_mem ..).trans ((setRg_mem ..).trans ((setQueueRun_mem ..).trans (setRg_mem ..)))⟩
  · rw [qState, rgF, rg_setRgF_other (rkey_ne_of_lt (by decide) hq hq)]
    exact qState_setQState q 0 _
  · rw [setRgF, rg_setRg_same, bit, setFld_getLsbD _ _ _ _ _ (by decide), if_pos (by decide)]
    decide

/-! ### Invalidation (R292) -/

/-- The prefetched entries that an invalidation of `n` from `first` leaves. -/
def kept (first : Word) (n : Nat) (r : QueueRun) : QueueRun :=
  { r with prefetch := sfilter (fun i => decide (n ≤ sub32 (w32 i) first)) r.prefetch }

theorem sget_kept (first : Word) (n : Nat) (r : QueueRun) (i : Word) : sget [] i.toNat (kept first n r).prefetch =
    if sub32 i first < n then [] else sget [] i.toNat r.prefetch := by
  have hi : w32 i.toNat = i := BitVec.ofNat_toNat 32 i |>.trans (BitVec.setWidth_eq i)
  rw [kept, sget_sfilter, hi]
  by_cases h : sub32 i first < n
  · rw [if_pos h, decide_eq_false (Nat.not_le.2 h), if_neg Bool.false_ne_true]
  · rw [if_neg h, decide_eq_true (Nat.not_lt.1 h), if_pos rfl]

/-- How many entries an invalidating write names. -/
def invalCount (v : Word) : Nat := if fld v 26 10 = 0 then 65536 else fld v 26 10

theorem invalWrite_go {path : Nat} {v : Word} {s : State} (hp : path < 2 ^ 24) (hw : writable path QMG_INVAL 0 s = true)
    (hv : bit v 31 = true) : invalWrite path v s = setRg QMG_INVAL_DONE path 1
      (setRg QMG_INVAL_STAT path (queueRun (fld v 9 0) s).next
        (setQueueRun (fld v 9 0) (kept (rg QMG_INVAL_FIRST path s) (invalCount v) (queueRun (fld v 9 0) s))
          (setRg QMG_INVAL path (v &&& 0x07FFFFFF) s))) := by
  have hf : rg QMG_INVAL_FIRST path (setRg QMG_INVAL path (v &&& 0x07FFFFFF) s) = rg QMG_INVAL_FIRST path s :=
    rg_setRg_other _ _ _ _ _ _ (rkey_ne_of_lt (by decide) hp hp)
  rw [← hf]
  exact (if_neg (not_not.2 hw)).trans (if_neg (not_not.2 hv))

/-- What an invalidation leaves: the next index reported, and of the range's entries none. -/
theorem invalidated {path : Nat} {v : Word} {s : State} (hp : path < 2 ^ 24) (hw : writable path QMG_INVAL 0 s = true)
    (hv : bit v 31 = true) : rg QMG_INVAL_STAT path (invalWrite path v s) = (queueRun (fld v 9 0) s).next ∧
      rg QMG_INVAL_DONE path (invalWrite path v s) = 1 ∧ (invalWrite path v s).mem = s.mem ∧
      ∀ i : Word, sget [] i.toNat (queueRun (fld v 9 0) (invalWrite path v s)).prefetch =
        if sub32 i (rg QMG_INVAL_FIRST path s) < invalCount v then []
        else sget [] i.toNat (queueRun (fld v 9 0) s).prefetch := by
  rw [invalWrite_go hp hw hv]
  refine ⟨?_, rg_setRg_same _ _ _ _, (setRg_mem ..).trans ((setRg_mem ..).trans ((setQueueRun_mem ..).trans
    (setRg_mem ..))), fun i => ?_⟩
  · rw [rg_setRg_other _ _ _ _ _ _ (rkey_ne_of_lt (by decide) hp hp), rg_setRg_same]
  · rw [← sget_kept]
    refine congrArg (fun r : QueueRun => sget [] i.toNat r.prefetch) ?_
    rw [queueRun, setRg_queues, setRg_queues, ← queueRun, queueRun_setQueueRun]

/-- Settles O46: reads of a queue's indices, and what each finds. -/
theorem queuesFollowTheirIndices : Obligations.QueuesFollowTheirIndices := by
  refine ⟨fun q ans s hr => ⟨fun hc => ?_, fun hc hrun hhold => ?_, fun hc hrun hp hreach => ⟨?_, ?_⟩,
      fun hc hrun hreach ha => ⟨fun hp hsize => ?_, fun hp hsize hcsize hh => ?_, fun hp hsize hcsize hh => ?_⟩⟩,
    fun q ans x s hr => ⟨?_, ?_, ?_⟩, fun path v q s hw hwr hoff hon hst hreach ha => ⟨fun hsize hcsize => ?_,
      fun hsize => ?_⟩, fun path v ans s h => congrArg Host.Outcome.next ?_,
    fun path v s => ⟨fun hw hv => ?_, fun hw hv => congrArg Host.Outcome.next ?_,
      fun hw => congrArg Host.Outcome.next (if_pos (by simp [hw]))⟩,
    fun q s hr => ⟨fun hf hh x => congrArg Host.Outcome.next ?_, fun hf hh hs hm ha => congrArg Host.Outcome.next ?_⟩,
    fun q s hr => ⟨fun hs x => congrArg Host.Outcome.next ?_, fun hs hreach ha => ⟨fun hsize => ?_,
      fun hsize hd hf hb hh hbatch hn => ?_⟩⟩⟩
  · refine congrArg Host.Outcome.next ?_
    unfold doorbellOp
    rw [if_neg (by simp [hr]), if_pos hc]
  · exact congrArg Host.Outcome.next (doorbell_disabled hr hc hrun hhold)
  · exact congrArg Host.Outcome.next (doorbell_unreachable hr hc hrun hreach hp)
  · exact qState_ringFault (noteRung q s) (lt_instances q)
      ((qState_congr (s := s) rfl q).trans hrun ▸ (by decide : qRunning ≠ qShutting))
  · exact congrArg Host.Outcome.next (doorbell_impossible hr hc hrun hreach ha hp hsize)
  · obtain ⟨hregs, hmem, ⟨f, x, he⟩, hother⟩ := rung_doorbell hr hc hrun hreach ha hh (by rw [hp]; rfl) hsize hcsize
    exact ⟨_, rfl, by rw [he], by rw [he], (qState_congr hregs q).trans hrun, by rw [he], hmem, hregs,
      fun r hr => hother r (fun e => hr (Fin.ext e))⟩
  · obtain ⟨hregs, hmem, ⟨f, x, he⟩, hother⟩ := rung_doorbell hr hc hrun hreach ha hh (by rw [hp]; rfl) hsize hcsize
    exact ⟨_, rfl, by rw [he], by rw [he], by rw [he, hp]; exact Bool.or_true _, (qState_congr hregs q).trans hrun,
      by rw [he], hmem, hregs,
      fun r hr => hother r (fun e => hr (Fin.ext e))⟩
  · refine congrArg Host.Outcome.next ?_
    unfold doorbellOp
    rw [if_pos hr]
  · exact congrArg Host.Outcome.next (if_pos (Or.inl hr))
  · exact congrArg Host.Outcome.next (if_pos hr)
  · have hq : q.val < 2 ^ 24 := lt_instances q
    have hout : queueEnable path v .ok s = qPrefetch q 8 (enabledState q v s) := by
      rw [queueEnable_answered hq hw hwr hoff hon hst hreach ha, startOutcome, qSize_enabledState v s hq,
        qCsize_enabledState v s hq]
      exact (if_neg (Nat.not_lt.2 hsize)).trans (if_neg (Nat.not_lt.2 hcsize))
    obtain ⟨hregs, hmem, ⟨f, x, he⟩, hother⟩ := fetchedOnly_qPrefetch q 8 (enabledState q v s)
    have hrun : queueRun q (enabledState q v s) = startRun (qIndex q s) s := queueRun_setQueueRun ..
    rw [hrun] at he
    refine ⟨_, congrArg Host.Outcome.next hout, (qState_congr hregs q).trans (qState_enabledState q v s), ?_, ?_, ?_,
      ?_, ?_, hmem.trans (enabledState_mem q v s), fun r hr => (hother r (fun e => hr (Fin.ext e))).trans
        (queueRun_enabledState_other v s (fun e => hr (Fin.ext e)))⟩
    · rw [rg_congr hregs, enabled_enabledState v s hq]
    all_goals rw [he]; rfl
  · have hq : q.val < 2 ^ 24 := lt_instances q
    have hout : queueEnable path v .ok s = qStop q 1 (rdWord (qIndex q s) s) (enabledState q v s) := by
      rw [queueEnable_answered hq hw hwr hoff hon hst hreach ha, startOutcome, qSize_enabledState v s hq]
      exact if_pos hsize
    have hstop := stopped_qStop (code := 1) (idx := rdWord (qIndex q s) s) (enabledState q v s) hq
    exact ⟨_, congrArg Host.Outcome.next hout, hstop.state, hstop.code, hstop.mem.trans (enabledState_mem q v s)⟩
  · cases hw : winOf path QMG_Q_CFG s with
    | none => exact atInst_empty _ _ _ _ hw
    | some q => exact atInst_ignored _ _ _ _ _ hw (h q hw)
  · exact ⟨_, rfl, invalidated (path.isLt.trans (by decide)) hw hv⟩
  · exact (if_neg (not_not.2 hw)).trans (if_pos (by simp [hv]))
  · exact if_pos (Or.inr (Or.inl ⟨by simp [hf], by simp [hh]⟩))
  · exact cringPoll_full hr hf hh hs hm ha
  · exact (if_neg (by simp [hr])).trans (if_pos (Or.inl hs))
  · have hq : q.val < 2 ^ 24 := lt_instances q
    have hout := (queueShutdown_running hq hr hs hreach ha).trans (if_pos hsize)
    have hstop := stopped_qStop (code := 1) (idx := rdWord (qIndex q s) s) (setQState q qShutting s) hq
    exact ⟨_, congrArg Host.Outcome.next hout, hstop.state, hstop.code, hstop.mem.trans (setRg_mem ..)⟩
  · obtain ⟨hstate, hcfg, hmem⟩ := queueShutdown_empty (lt_instances q) hr hs hreach ha hsize hd hf hb hh hbatch hn
    exact ⟨_, rfl, hstate, hcfg, hmem⟩

end Sys2Proof.Machine
end

section
/-! PROOF. O48: the tests, the start and the ends of DMA transfers. A move writes memory and no register. -/

set_option Elab.async false

namespace Sys2Proof.Machine

open Sys2Proof

/-! ### What these operations write -/

namespace OnlyIn

variable {F : Scope} {s₀ s : State}

theorem with_dmaHeld {x} (h : OnlyIn F s₀ s)
    (hF : Allows F ⟨[.dmaHeld], 23⟩ := by exact Allows.mono ‹_› rfl) :
    OnlyIn F s₀ { s with dmaHeld := x } :=
  h.trans ⟨fun p hp => by
    cases p
    case dmaHeld => exact (hp (hF.1 _ (.head _))).elim
    all_goals rfl, .refl _ _⟩

theorem moveUnits {src dst u srcFixed dstFixed k i} (h : OnlyIn F s₀ s)
    (hF : Allows F ⟨[.mem], 23⟩ := by exact Allows.mono ‹_› rfl) :
    OnlyIn F s₀ (moveUnits src dst u srcFixed dstFixed k i s) := by
  induction k generalizing i s with
  | zero => exact h
  | succ k ih => exact ih h.wrBytes

theorem dmaMove {c done} (h : OnlyIn F s₀ s)
    (hF : Allows F ⟨[.mem], 23⟩ := by exact Allows.mono ‹_› rfl) :
    OnlyIn F s₀ (dmaMove c done s) :=
  h.moveUnits.ite h.wrBytes

theorem dmaStop {c left} (h : OnlyIn F s₀ s)
    (hF : Allows F ⟨[.regs, .dmaHeld], 14⟩ := by exact Allows.mono ‹_› rfl) :
    OnlyIn F s₀ (dmaStop c left s) :=
  h.with_dmaHeld.setRgF.setRgF

end OnlyIn

/-! ### Moves (R311, R312, R314) -/

theorem onlyIn_dmaMove (c n : Nat) (s : State) : OnlyIn ⟨[.mem], 23⟩ s (dmaMove c n s) :=
  OnlyIn.of fun _ _ => (OnlyIn.refl s).dmaMove

/-- A plain move writes the first bytes of what the channel holds. -/
theorem dmaMove_plain {c : Nat} (n : Nat) {s : State} (hs : dmaSrcFixed c s = false) (hd : dmaDstFixed c s = false)
    (hk : dmaShuffle c s = 0) : dmaMove c n s = wrBytes (dmaDst c s) ((sget [] c s.dmaHeld).take n) s := by
  unfold dmaMove
  rw [if_neg (by simp [hs, hd])]
  dsimp only
  rw [if_pos hk]

/-- A plain move puts the held bytes at the destination and leaves every other byte. -/
theorem moved_plain {c n : Nat} {s t : State} (hmem : t.mem = (dmaMove c n s).mem) (hs : dmaSrcFixed c s = false)
    (hd : dmaDstFixed c s = false) (hk : dmaShuffle c s = 0) (hn : n ≤ (sget [] c s.dmaHeld).length) :
    rdBytes (dmaDst c s) n t = (sget [] c s.dmaHeld).take n ∧
      ∀ a : Nat, a < dmaDst c s ∨ dmaDst c s + n ≤ a → rdByte a t = rdByte a s := by
  have hlen : ((sget [] c s.dmaHeld).take n).length = n := List.length_take_of_le hn
  rw [dmaMove_plain n hs hd hk] at hmem
  refine ⟨(rdBytes_congr hmem _ _).trans ?_, fun a ha => (rdByte_congr hmem a).trans
    (rdByte_wrBytes_outside _ _ _ _ (by rwa [hlen]))⟩
  have h := rdBytes_wrBytes (dmaDst c s) ((sget [] c s.dmaHeld).take n) s
  rwa [hlen] at h

/-! ### The ends of transfers (R316, R317) -/

theorem dmaStop_mem (c left : Nat) (s : State) : (dmaStop c left s).mem = s.mem :=
  (setRg_mem ..).trans (setRg_mem ..)

theorem rg_dmaStop_other {c r : Nat} (left : Nat) (s : State) (hc : c < 2 ^ 24) (hr : r ≠ DMA_STAT) :
    rg r c (dmaStop c left s) = rg r c s :=
  (rg_setRgF_other (rkey_ne_of_lt hr hc hc)).trans (rg_setRgF_other (rkey_ne_of_lt hr hc hc))

theorem rg_dmaStop (c left : Nat) (s : State) :
    rg DMA_STAT c (dmaStop c left s) = setFld (setFld (rg DMA_STAT c s) 0 0 0) 31 8 left := by
  rw [dmaStop, setRgF, setRgF, rg_setRg_same, rg_setRg_same]
  rfl

theorem idle_dmaStop (c left : Nat) (s : State) : bit (rg DMA_STAT c (dmaStop c left s)) 0 = false := by
  rw [rg_dmaStop, bit_setFld_other _ (by decide) (by decide), bit, setFld_getLsbD _ _ _ _ _ (by decide),
    if_pos (by decide)]
  decide

theorem left_dmaStop (c : Nat) {left : Nat} (s : State) (h : left < 2 ^ 24) :
    fld (rg DMA_STAT c (dmaStop c left s)) 31 8 = left := by
  rw [rg_dmaStop, fld_setFld_same _ _ _ _ (by decide) (by decide), Nat.mod_eq_of_lt h]

theorem dmaCount_lt (c : Nat) (s : State) : dmaCount c s < 2 ^ 24 := Nat.mod_lt _ (by decide)

/-- The block when the last write of a transfer has landed. -/
def dmaLanded (c : Nat) (s : State) : State := dmaStop c 0 (dmaMove c (dmaCount c s) s)

theorem dmaComplete_taken {c : Nat} {s : State} (hb : dmaBusy c s = true) (ha : dmaAnswers c s = true) :
    dmaComplete c s = dmaPulse c (bump DMA_CNT c 31 16 (dmaLanded c s)) := if_pos ⟨hb, ha⟩

theorem onlyIn_dmaEnd (c : Nat) (s : State) : OnlyIn ⟨[.regs, .pulses], 3⟩ s (dmaPulse c (bump DMA_CNT c 31 16 s)) :=
  OnlyIn.of fun _ _ => (OnlyIn.refl s).bump.pulseSource

theorem onlyIn_dmaStop (c left : Nat) (s : State) : OnlyIn ⟨[.regs, .dmaHeld], 14⟩ s (dmaStop c left s) :=
  OnlyIn.of fun _ _ => (OnlyIn.refl s).dmaStop

/-- What a completed transfer leaves. -/
structure Completed (c : Nat) (s t : State) : Prop where
  idle : dmaBusy c t = false
  mem : t.mem = (dmaMove c (dmaCount c s) s).mem
  count : rgF DMA_CNT c 31 16 t = (rgF DMA_CNT c 31 16 s + 1) % 2 ^ 16
  lanes : t.lanes = s.lanes
  jct : t.jct = s.jct

theorem completed_dmaComplete {c : Nat} {s : State} (hc : c < 2 ^ 24) (hb : dmaBusy c s = true)
    (ha : dmaAnswers c s = true) : Completed c s (dmaComplete c s) := by
  have hend := onlyIn_dmaEnd c (dmaLanded c s)
  have hstop := onlyIn_dmaStop c 0 (dmaMove c (dmaCount c s) s)
  have hmove := onlyIn_dmaMove c (dmaCount c s) s
  rw [dmaComplete_taken hb ha]
  refine ⟨?_, (hend.keeps .mem).trans (dmaStop_mem ..), ?_,
    (hend.keeps .lanes).trans ((hstop.keeps .lanes).trans (hmove.keeps .lanes)),
    (hend.keeps .jct).trans ((hstop.keeps .jct).trans (hmove.keeps .jct))⟩
  · rw [dmaBusy, dmaPulse, rg_pulseSource_other _ _ (by decide), rg_bump_other (rkey_ne_of_lt (by decide) hc hc)]
    exact idle_dmaStop c 0 _
  · rw [rgF, dmaPulse, rg_pulseSource_other _ _ (by decide)]
    refine (rgF_bump_same _ _ _ _ _ (by decide) (by decide)).trans ?_
    rw [rgF, dmaLanded, rg_dmaStop_other _ _ hc (by decide), rg_congr (hmove.keeps .regs)]
    rfl

/-- What a memory fault after `n` bytes leaves. -/
structure Faulted (c n : Nat) (s t : State) : Prop where
  idle : dmaBusy c t = false
  mem : t.mem = (dmaMove c n s).mem
  left : rgF DMA_STAT c 31 8 t = dmaCount c s - n
  cause : bit (rg DMA_CAUSE c t) 4 = true
  pulses : t.pulses = s.pulses
  lanes : t.lanes = s.lanes

theorem dmaMemFault_taken {c n : Nat} {s : State} (hb : dmaBusy c s = true) (hn : n ≤ dmaCount c s) :
    dmaMemFault c n s = setCause DMA_CAUSE c 4 (dmaStop c (dmaCount c s - n) (dmaMove c n s)) := by
  refine (if_pos hb).trans ?_
  have hcount : dmaCount c (dmaMove c n s) = dmaCount c s :=
    congrArg (fld · 23 0) (rg_congr ((onlyIn_dmaMove c n s).keeps .regs) DMA_COUNT c)
  dsimp only
  rw [Nat.min_eq_left hn, hcount]

theorem faulted_dmaMemFault {c n : Nat} {s : State} (hc : c < 2 ^ 24) (hb : dmaBusy c s = true)
    (hn : n ≤ dmaCount c s) : Faulted c n s (dmaMemFault c n s) := by
  have hstop := onlyIn_dmaStop c (dmaCount c s - n) (dmaMove c n s)
  have hmove := onlyIn_dmaMove c n s
  have hend : OnlyIn ⟨[.regs, .flt], 14⟩ (dmaStop c (dmaCount c s - n) (dmaMove c n s))
      (setCause DMA_CAUSE c 4 (dmaStop c (dmaCount c s - n) (dmaMove c n s))) :=
    OnlyIn.of fun _ _ => (OnlyIn.refl _).setCause
  have hstat : rg DMA_STAT c (setCause DMA_CAUSE c 4 (dmaStop c (dmaCount c s - n) (dmaMove c n s))) =
      rg DMA_STAT c (dmaStop c (dmaCount c s - n) (dmaMove c n s)) :=
    rg_setCause_other (rkey_ne_of_lt (by decide) hc hc) (rkey_lt_collector (by decide) hc)
  have hleft : dmaCount c s - n < 2 ^ 24 := (Nat.sub_le _ _).trans_lt (dmaCount_lt c s)
  rw [dmaMemFault_taken hb hn]
  refine ⟨(congrArg (bit · 0) hstat).trans (idle_dmaStop ..), (hend.keeps .mem).trans (dmaStop_mem ..),
    (congrArg (fld · 31 8) hstat).trans (left_dmaStop c _ hleft),
    bit_setCause_same (by decide) (rkey_lt_collector (by decide) hc),
    (hend.keeps .pulses).trans ((hstop.keeps .pulses).trans (hmove.keeps .pulses)),
    (hend.keeps .lanes).trans ((hstop.keeps .lanes).trans (hmove.keeps .lanes))⟩

/-! ### The tests of a start (R313, R318) -/

/-- The outcome of a start's tests, with the start noted on its edge. -/
def noteStart (c edge : Nat) (r : State × Bool) : State :=
  { r.1 with dmaEdge := sset (0, false) c (edge, r.2) r.1.dmaEdge }

theorem dmaStart_tested {c : Nat} {s : State} (hr : inReset 204 s = false)
    (he : (sget (0, false) c s.dmaEdge).1 ≠ edgeNow s) : dmaStart c s = noteStart c (edgeNow s) (dmaTest c s) := by
  unfold dmaStart dmaStartOp
  rw [if_neg (by simp [hr])]
  exact congrArg Prod.fst (if_neg he)

theorem dmaStart_again {c : Nat} {s : State} (he : (sget (0, false) c s.dmaEdge).1 = edgeNow s) : dmaStart c s = s := by
  unfold dmaStart dmaStartOp
  by_cases hr : inReset 204 s = true
  · rw [if_pos hr]
  · rw [if_neg hr]
    exact congrArg Prod.fst (if_pos he)

theorem dmaStart_inReset {c : Nat} {s : State} (hr : inReset 204 s = true) : dmaStart c s = s := by
  unfold dmaStart dmaStartOp
  rw [if_pos hr]

section

variable {c : Nat} {s : State}

theorem dmaTest_busy (h : dmaBusy c s = true ∨ bit (rg DMA_MODE c s) 6 = true ∧ dmaArmed c s = false) :
    dmaTest c s = (setCause DMA_CAUSE c 0 (bump DMA_CNT c 15 0 s), false) :=
  if_pos (h.imp_right fun ⟨hm, ha⟩ => ⟨hm, by simp [ha]⟩)

variable (hb : dmaBusy c s = false) (ha : bit (rg DMA_MODE c s) 6 = false ∨ dmaArmed c s = true)

include hb ha

theorem dmaFree : ¬ (dmaBusy c s = true ∨ bit (rg DMA_MODE c s) 6 = true ∧ ¬ dmaArmed c s = true) := by
  rintro (h | ⟨hm, hna⟩)
  · exact absurd (h.symm.trans hb) (by decide)
  · exact ha.elim (fun h => absurd (hm.symm.trans h) (by decide)) hna

theorem dmaTest_none (h0 : dmaCount c s = 0) :
    dmaTest c s = (dmaPulse c (bump DMA_CNT c 31 16 (setRgF DMA_STAT c 1 1 0 s)), true) :=
  (if_neg (dmaFree hb ha)).trans (if_pos h0)

variable (h0 : dmaCount c s ≠ 0)

include h0

theorem dmaTest_config (hc : dmaConfigBad c s = true) : dmaTest c s = (setCause DMA_CAUSE c 1 s, false) :=
  (if_neg (dmaFree hb ha)).trans ((if_neg h0).trans (if_pos hc))

variable (hc : dmaConfigBad c s = false)

include hc

theorem dmaTest_range (h : dmaRangeOk (dmaSrc c s) (dmaCount c s) s = false ∨
    dmaRangeOk (dmaDst c s) (dmaCount c s) s = false) : dmaTest c s = (setCause DMA_CAUSE c 2 s, false) :=
  (if_neg (dmaFree hb ha)).trans ((if_neg h0).trans ((if_neg (by simp [hc])).trans (if_pos (by simpa using h))))

variable (hs : dmaRangeOk (dmaSrc c s) (dmaCount c s) s = true) (hd : dmaRangeOk (dmaDst c s) (dmaCount c s) s = true)

include hs hd

theorem dmaTest_overlap (hk : dmaShuffle c s ≠ 0)
    (h : ¬ (dmaDst c s + dmaCount c s ≤ dmaSrc c s ∨ dmaSrc c s + dmaCount c s ≤ dmaDst c s)) :
    dmaTest c s = (setCause DMA_CAUSE c 3 s, false) :=
  (if_neg (dmaFree hb ha)).trans ((if_neg h0).trans ((if_neg (by simp [hc])).trans ((if_neg (by simp [hs, hd])).trans
    (if_pos ⟨hk, by omega, by omega⟩))))

theorem dmaTest_start (h : dmaShuffle c s = 0 ∨
    (dmaDst c s + dmaCount c s ≤ dmaSrc c s ∨ dmaSrc c s + dmaCount c s ≤ dmaDst c s)) :
    dmaTest c s = (setRg DMA_STAT c (w32 (dmaCount c s * 256 + 1)) { s with
      dmaHeld := sset [] c (if dmaSrcFixed c s = true ∨ dmaDstFixed c s = true then []
        else rdBytes (dmaSrc c s) (dmaCount c s) s) s.dmaHeld }, true) :=
  (if_neg (dmaFree hb ha)).trans ((if_neg h0).trans ((if_neg (by simp [hc])).trans ((if_neg (by simp [hs, hd])).trans
    (if_neg (by
      rintro ⟨hk, hlt, hlt'⟩
      omega)))))

end

/-- Settles O48: the tests in their order, and what a transfer's ends leave. -/
theorem dmaChannelsTestStartAndMoveBytes : Obligations.DmaChannelsTestStartAndMoveBytes := by
  refine ⟨fun c s hr => ⟨congrArg Host.Outcome.next (if_neg (by simp [hr])),
      congrArg Host.Outcome.next (if_neg (by simp [hr])), fun he => congrArg Host.Outcome.next (dmaStart_again he),
      fun he h => congrArg Host.Outcome.next ?_, fun he hb ha => ⟨fun h0 => congrArg Host.Outcome.next ?_,
      fun h0 hc => congrArg Host.Outcome.next ?_, fun h0 hc h => congrArg Host.Outcome.next ?_, fun h0 hc hs hd =>
      ⟨fun hk h => congrArg Host.Outcome.next ?_, fun h => congrArg Host.Outcome.next ?_⟩⟩⟩,
    fun c s hr => ⟨congrArg Host.Outcome.next (dmaStart_inReset hr), congrArg Host.Outcome.next (if_pos hr),
      congrArg Host.Outcome.next (if_pos hr)⟩,
    fun c s hb => ⟨fun ha => ?_, fun ha => congrArg Host.Outcome.next (if_neg (by simp [ha])), fun n hn => ?_⟩,
    fun c n s hb => ⟨congrArg Host.Outcome.next (if_neg (by simp [hb])),
      congrArg Host.Outcome.next (if_neg (by simp [hb]))⟩⟩
  · exact (dmaStart_tested hr he).trans (congrArg (noteStart c (edgeNow s)) (dmaTest_busy h))
  · exact (dmaStart_tested hr he).trans (congrArg (noteStart c (edgeNow s)) (dmaTest_none hb ha h0))
  · exact (dmaStart_tested hr he).trans (congrArg (noteStart c (edgeNow s)) (dmaTest_config hb ha h0 hc))
  · exact (dmaStart_tested hr he).trans (congrArg (noteStart c (edgeNow s)) (dmaTest_range hb ha h0 hc h))
  · exact (dmaStart_tested hr he).trans (congrArg (noteStart c (edgeNow s)) (dmaTest_overlap hb ha h0 hc hs hd hk h))
  · exact (dmaStart_tested hr he).trans (congrArg (noteStart c (edgeNow s)) (dmaTest_start hb ha h0 hc hs hd h))
  · obtain ⟨hidle, hmem, hcount, hlanes, hjct⟩ := completed_dmaComplete (lt_instances c) hb ha
    refine ⟨_, rfl, hidle, hmem, hcount, hlanes, hjct, fun hs hd hk hlen => ?_⟩
    obtain ⟨hin, hout⟩ := moved_plain hmem hs hd hk hlen.ge
    exact ⟨hin.trans (List.take_of_length_le hlen.le), hout⟩
  · obtain ⟨hidle, hmem, hleft, hcause, hpulses, hlanes⟩ := faulted_dmaMemFault (lt_instances c) hb hn
    exact ⟨_, rfl, hidle, hmem, hleft, hcause, hpulses, hlanes, fun hs hd hk hlen =>
      moved_plain hmem hs hd hk (hn.trans hlen.ge)⟩

end Sys2Proof.Machine
end

section
/-! PROOF. O50: forced occurrences, the service of the collector's queue, SAFE_n and isolation. An occurrence reads its
class and its mask as they were before the writes of its cycle, which a force write leaves. -/

set_option Elab.async false

namespace Sys2Proof.Machine

open Sys2Proof

/-! ### What these operations write -/

namespace OnlyIn

variable {F : Scope} {s₀ s : State}

theorem markForced {src} (h : OnlyIn F s₀ s)
    (hF : Allows F ⟨[.flt], 23⟩ := by exact Allows.mono ‹_› rfl) :
    OnlyIn F s₀ (markForced src s) :=
  h.with_flt

theorem forceRise {src} (h : OnlyIn F s₀ s)
    (hF : Allows F ⟨[.regs, .flt], 16⟩ := by exact Allows.mono ‹_› rfl) :
    OnlyIn F s₀ (forceRise src s) :=
  h.noteOccurred.markForced.ite h.occurs

end OnlyIn

/-! ### Registers as they were before the writes of the cycle (R328) -/

theorem rgHeld_setRg_other {r i r' i' : Nat} {v : Word} {s : State} (h : rkey r' i' ≠ rkey r i) :
    rgHeld r' i' (setRg r i v s) = rgHeld r' i' s :=
  rgHeld_congr (rg_setRg_other _ _ _ _ _ _ h) (setRg_heldEdge ..) (setRg_held ..) (setRg_mp ..)

/-- Noting one register leaves what is noted of another. -/
theorem rgHeld_noteHeld_other {r i r' i' : Nat} (s : State) (h : rkey r' i' ≠ rkey r i) :
    rgHeld r' i' (noteHeld r i s) = rgHeld r' i' s := by
  have hne : (rkey r i == rkey r' i') = false := beq_eq_false_iff_ne.2 (Ne.symm h)
  unfold noteHeld
  split
  · rfl
  · extract_lets l k
    have hfind : (if l.any (fun x => x.1 == k) then l else (k, rg r i s) :: l).find? (fun x => x.1 == rkey r' i') =
        l.find? fun x => x.1 == rkey r' i' := by
      split
      · rfl
      · exact (List.find?_cons_of_neg (by rw [show (k, rg r i s).1 = rkey r i from rfl, hne]; decide))
    have hnow : ∀ y : List (Nat × Word), rgHeld r' i' { s with heldEdge := edgeNow s, held := y } =
        ((y.find? fun x => x.1 == rkey r' i').map fun x => x.2).getD (rg r' i' s) := fun y => if_pos rfl
    rw [hnow, hfind]
    by_cases he : s.heldEdge = edgeNow s
    · rw [show l = s.held from if_pos he]
      exact (if_pos he).symm
    · rw [show l = [] from if_neg he]
      exact (if_neg he).symm

theorem noteHeld_frame (r i : Nat) (s : State) : ∃ x y, noteHeld r i s = { s with heldEdge := x, held := y } := by
  unfold noteHeld
  split
  · exact ⟨_, _, rfl⟩
  · exact ⟨_, _, rfl⟩

/-- The block in which a force write's rises are made: the word stored, the one before it noted. -/
def forceStored (g : Nat) (v : Word) (s : State) : State := setRg FLT_G_FORCE g v (noteHeld FLT_G_FORCE g s)

theorem onlyIn_forceStored_fields (g : Nat) (v : Word) (s : State) : (forceStored g v s).flt = s.flt ∧
    (forceStored g v s).mp = s.mp ∧ (forceStored g v s).mem = s.mem ∧ (forceStored g v s).lanes = s.lanes := by
  obtain ⟨x, y, h⟩ := noteHeld_frame FLT_G_FORCE g s
  rw [forceStored, h]
  exact ⟨setRg_flt .., setRg_mp .., setRg_mem .., setRg_lanes ..⟩

theorem rg_forceStored_other {g r i : Nat} (v : Word) (s : State) (h : rkey r i ≠ rkey FLT_G_FORCE g) :
    rg r i (forceStored g v s) = rg r i s := by
  obtain ⟨x, y, he⟩ := noteHeld_frame FLT_G_FORCE g s
  rw [forceStored, rg_setRg_other _ _ _ _ _ _ h, he]
  rfl

theorem rgHeld_forceStored {g r i : Nat} (v : Word) (s : State) (h : rkey r i ≠ rkey FLT_G_FORCE g) :
    rgHeld r i (forceStored g v s) = rgHeld r i s :=
  (rgHeld_setRg_other h).trans (rgHeld_noteHeld_other s h)

/-! ### An occurrence (R326, R327) -/

/-- What the queue takes for a source: class and mask as before the cycle's writes, time and count as they are. -/
def occurrence (src : Nat) (forced : Bool) (n : Word) (s : State) : Occurrence :=
  { src := src, cls := srcClass src s, time := now s, forced := forced, count := n, epoch := journalEpoch s,
    edge := edgeNow s }

/-- A source noted and sticky. -/
def sourceNoted (src : Nat) (rise : Bool) (s : State) : State := setSticky src (noteOccurred src rise s)

/-- One more unmasked occurrence counted. -/
def occurrenceCounted (s : State) : State :=
  setRgF FLT_CNT 0 31 8 (s.flt.occ + 1).toNat { s with flt := { s.flt with occ := s.flt.occ + 1 } }

/-- The queue becomes `q`; what is over its 256 places is noted under its class. -/
def setQueue (q : List Occurrence) (s : State) : State :=
  let s := { s with flt := { s.flt with queue := q.take 256 } }
  match q.drop 256 with
  | x :: _ =>
    let s := { s with flt := { s.flt with noted := sset Option.none x.cls (some x) s.flt.noted } }
    bump FLT_CNT 0 7 0 (setRgF FLT_CLS_CNT x.cls 0 0 1 s)
  | [] => s

theorem setQueue_room {q : List Occurrence} (s : State) (h : q.length ≤ 256) :
    setQueue q s = { s with flt := { s.flt with queue := q } } := by
  unfold setQueue
  rw [List.drop_of_length_le h, List.take_of_length_le h]

/-- The queue's entry of a source, in the block `s` in which it has been noted and counted. -/
def queueSource (src : Nat) (forced : Bool) (n : Word) (s : State) : State :=
  setQueue (queueOccurrence s.flt.begun (occurrence src forced n s) s.flt.queue) s

theorem occurs_eq (src : Nat) (forced rise : Bool) (s : State) : occurs src forced rise s =
    if srcMasked src (sourceNoted src rise s) then sourceNoted src rise s
    else queueSource src forced ((sourceNoted src rise s).flt.occ + 1)
      (occurrenceCounted (sourceNoted src rise s)) := rfl

theorem length_queueOccurrence (begun : Bool) (o : Occurrence) (q : List Occurrence) :
    (queueOccurrence begun o q).length = q.length + 1 := by
  have hsplit : ∀ (f : Occurrence → Bool) (l : List Occurrence),
      (l.filter f).length + (l.filter fun x => !f x).length = l.length := fun f l =>
    (List.length_eq_length_filter_add f).symm
  unfold queueOccurrence
  extract_lets n before
  rw [List.length_append, List.length_append, List.length_append, List.length_singleton]
  have h := hsplit before (q.drop n)
  have hq : (q.take n).length + (q.drop n).length = q.length := by
    rw [← List.length_append, List.take_append_drop]
  omega

theorem queueSource_room {src : Nat} {forced : Bool} {n : Word} {s : State} (h : s.flt.queue.length < 256) :
    queueSource src forced n s = { s with flt := { s.flt with
      queue := queueOccurrence s.flt.begun (occurrence src forced n s) s.flt.queue } } :=
  setQueue_room s (by rw [length_queueOccurrence]; omega)

theorem sourceNoted_flt (src : Nat) (rise : Bool) (s : State) : (sourceNoted src rise s).flt.queue = s.flt.queue ∧
    (sourceNoted src rise s).flt.begun = s.flt.begun ∧ (sourceNoted src rise s).flt.occ = s.flt.occ := by
  rw [sourceNoted, setSticky, setRg_flt]
  exact ⟨rfl, rfl, rfl⟩

theorem sourceNoted_fields (src : Nat) (rise : Bool) (s : State) : (sourceNoted src rise s).mp = s.mp ∧
    (sourceNoted src rise s).mem = s.mem ∧ (sourceNoted src rise s).lanes = s.lanes :=
  ⟨setRg_mp .., setRg_mem .., setRg_lanes ..⟩

theorem rgHeld_sourceNoted {src r i : Nat} (rise : Bool) (s : State) (h : rkey r i ≠ rkey FLT_G_STICKY (src / 32)) :
    rgHeld r i (sourceNoted src rise s) = rgHeld r i s :=
  (rgHeld_setRg_other h).trans (rgHeld_congr rfl rfl rfl rfl)

theorem rg_sourceNoted {src r i : Nat} (rise : Bool) (s : State) (h : rkey r i ≠ rkey FLT_G_STICKY (src / 32)) :
    rg r i (sourceNoted src rise s) = rg r i s := rg_setRg_other _ _ _ _ _ _ h

theorem sticky_sourceNoted (src : Nat) (rise : Bool) (s : State) : srcSticky src (sourceNoted src rise s) = true := by
  rw [srcSticky, sourceNoted, setSticky, rg_setRg_same, bit_setBit_same _ _ _ (Nat.mod_lt _ (by decide))]

theorem rgHeld_occurrenceCounted {r i : Nat} (s : State) (h : rkey r i ≠ rkey FLT_CNT 0) :
    rgHeld r i (occurrenceCounted s) = rgHeld r i s :=
  (rgHeld_setRg_other h).trans (rgHeld_congr rfl rfl rfl rfl)

theorem rg_occurrenceCounted {r i : Nat} (s : State) (h : rkey r i ≠ rkey FLT_CNT 0) :
    rg r i (occurrenceCounted s) = rg r i s := rg_setRg_other _ _ _ _ _ _ h

theorem occurrenceCounted_fields (s : State) : (occurrenceCounted s).flt = { s.flt with occ := s.flt.occ + 1 } ∧
    (occurrenceCounted s).mp = s.mp ∧ (occurrenceCounted s).mem = s.mem ∧ (occurrenceCounted s).lanes = s.lanes :=
  ⟨setRg_flt .., setRg_mp .., setRg_mem .., setRg_lanes ..⟩

/-- The occurrence of a source rests on its class as held, the time and the journal's epoch. -/
theorem occurrence_congr {src : Nat} {forced : Bool} {n : Word} {s t : State}
    (hcls : rgHeld (FLT_G_CLS + 4 * (src % 32 / 8)) (src / 32) t = rgHeld (FLT_G_CLS + 4 * (src % 32 / 8)) (src / 32) s)
    (hep : rg JNL_EPOCH 0 t = rg JNL_EPOCH 0 s) (hmp : t.mp = s.mp) :
    occurrence src forced n t = occurrence src forced n s := by
  simp only [occurrence, srcClass, rgHeldF, hcls, now, hmp, journalEpoch, rgF, hep, edgeNow]

/-! ### Forcing (R326, R328) -/

/-- The source of bit `b` of group `g`. -/
theorem group_source {g b : Nat} (hb : b < 32) : (32 * g + b) / 32 = g ∧ (32 * g + b) % 32 = b := by omega

theorem bit_twoPow {b : Nat} (hb : b < 32) (j : Nat) : bit (BitVec.ofNat 32 (2 ^ b) : Word) j = decide (j = b) := by
  rw [bit, BitVec.getLsbD_ofNat, Nat.testBit_two_pow]
  by_cases h : j = b
  · subst h
    simp [hb]
  · simp [h, Ne.symm h]

/-- The one rise of a force word with one bit over a word of 0. -/
theorem forceRises_one {g b : Nat} {s : State} (hb : b < 32) (hn : rg FLT_G_FORCE g s = BitVec.ofNat 32 (2 ^ b)) :
    forceRises g 0 s = forceRise (32 * g + b) s := by
  have hf : (List.range 32).filter (fun j => bit (BitVec.ofNat 32 (2 ^ b) : Word) j && !bit (0 : Word) j) = [b] := by
    have hp : (fun j => bit (BitVec.ofNat 32 (2 ^ b) : Word) j && !bit (0 : Word) j) = fun j => decide (j = b) := by
      funext j
      rw [bit_twoPow hb, show bit (0 : Word) j = false from BitVec.getLsbD_zero, Bool.not_false, Bool.and_true]
    rw [hp]
    interval_cases b <;> decide
  unfold forceRises
  rw [hn]
  dsimp only
  rw [hf, forEach_cons, forEach_nil]

theorem rg_forceStored (g : Nat) (v : Word) (s : State) : rg FLT_G_FORCE g (forceStored g v s) = v :=
  rg_setRg_same _ _ _ _

theorem edgeOccurred_forceStored (g : Nat) (v : Word) (s : State) :
    edgeOccurred (forceStored g v s) = edgeOccurred s := by
  obtain ⟨hflt, hmp, -, -⟩ := onlyIn_forceStored_fields g v s
  rw [edgeOccurred, edgeOccurred, hflt, edgeNow, edgeNow, hmp]

/-- What a rise of a force bit leaves that makes an occurrence. -/
structure Rose (g : Nat) (v : Word) (src : Nat) (q : List Occurrence) (s t : State) : Prop where
  force : rg FLT_G_FORCE g t = v
  sticky : srcSticky src t = true
  queue : t.flt.queue = q
  mem : t.mem = s.mem
  lanes : t.lanes = s.lanes

section

variable {g b : Nat} (hg : g < 64) (hb : b < 32) (v : Word) (s : State)

include hg hb

theorem rose_noted :
    Rose g v (32 * g + b) s.flt.queue s (sourceNoted (32 * g + b) true (forceStored g v s)) := by
  obtain ⟨hgrp, -⟩ := group_source (g := g) hb
  obtain ⟨hflt, -, hmem, hlanes⟩ := onlyIn_forceStored_fields g v s
  obtain ⟨-, hnmem, hnlanes⟩ := sourceNoted_fields (32 * g + b) true (forceStored g v s)
  obtain ⟨hnqueue, -, -⟩ := sourceNoted_flt (32 * g + b) true (forceStored g v s)
  refine ⟨?_, sticky_sourceNoted _ _ _, ?_, hnmem.trans hmem, hnlanes.trans hlanes⟩
  · rw [rg_sourceNoted true _ (by rw [hgrp]; exact rkey_ne_of_lt (by decide) (by omega) (by omega)), rg_forceStored]
  · rw [hnqueue, hflt]

theorem rose_queued (hlen : s.flt.queue.length < 256) :
    Rose g v (32 * g + b) (queueOccurrence s.flt.begun (occurrence (32 * g + b) true (s.flt.occ + 1) s) s.flt.queue) s
      (queueSource (32 * g + b) true ((sourceNoted (32 * g + b) true (forceStored g v s)).flt.occ + 1)
        (occurrenceCounted (sourceNoted (32 * g + b) true (forceStored g v s)))) := by
  obtain ⟨hgrp, hbit⟩ := group_source (g := g) hb
  obtain ⟨hflt, hmp, hmem, hlanes⟩ := onlyIn_forceStored_fields g v s
  obtain ⟨hnmp, hnmem, hnlanes⟩ := sourceNoted_fields (32 * g + b) true (forceStored g v s)
  obtain ⟨hnqueue, hnbegun, hnocc⟩ := sourceNoted_flt (32 * g + b) true (forceStored g v s)
  obtain ⟨hcflt, hcmp, hcmem, hclanes⟩ := occurrenceCounted_fields (sourceNoted (32 * g + b) true (forceStored g v s))
  have hg24 : g < 2 ^ 24 := by omega
  have hqueue : (occurrenceCounted (sourceNoted (32 * g + b) true (forceStored g v s))).flt.queue = s.flt.queue := by
    rw [hcflt]
    exact hnqueue.trans (congrArg FaultRun.queue hflt)
  have hbegun : (occurrenceCounted (sourceNoted (32 * g + b) true (forceStored g v s))).flt.begun = s.flt.begun := by
    rw [hcflt]
    exact hnbegun.trans (congrArg FaultRun.begun hflt)
  have hocc : (sourceNoted (32 * g + b) true (forceStored g v s)).flt.occ = s.flt.occ := by
    rw [hnocc, hflt]
  have hcls : rgHeld (FLT_G_CLS + 4 * ((32 * g + b) % 32 / 8)) ((32 * g + b) / 32)
      (occurrenceCounted (sourceNoted (32 * g + b) true (forceStored g v s))) =
        rgHeld (FLT_G_CLS + 4 * ((32 * g + b) % 32 / 8)) ((32 * g + b) / 32) s := by
    have hne : ∀ r i, r < FLT_G_CLS → i < 2 ^ 24 →
        rkey (FLT_G_CLS + 4 * ((32 * g + b) % 32 / 8)) ((32 * g + b) / 32) ≠ rkey r i := fun r i hr hi =>
      rkey_ne_of_lt (by omega) (by omega) hi
    rw [rgHeld_occurrenceCounted _ (hne _ _ (by decide) (by decide)),
      rgHeld_sourceNoted true _ (hne _ _ (by decide) (by omega)), rgHeld_forceStored _ _ (hne _ _ (by decide) hg24)]
  have hep : rg JNL_EPOCH 0 (occurrenceCounted (sourceNoted (32 * g + b) true (forceStored g v s))) =
      rg JNL_EPOCH 0 s := by
    have hne : ∀ r i, r ≠ JNL_EPOCH → i < 2 ^ 24 → rkey JNL_EPOCH 0 ≠ rkey r i := fun r i hr hi =>
      rkey_ne_of_lt (Ne.symm hr) (by decide) hi
    rw [rg_occurrenceCounted _ (hne _ _ (by decide) (by decide)),
      rg_sourceNoted true _ (hne _ _ (by decide) (by omega)), rg_forceStored_other _ _ (hne _ _ (by decide) hg24)]
  rw [queueSource_room (by rw [hqueue]; exact hlen), hqueue, hbegun, hocc,
    occurrence_congr hcls hep (hcmp.trans (hnmp.trans hmp))]
  have hforce : rg FLT_G_FORCE g (occurrenceCounted (sourceNoted (32 * g + b) true (forceStored g v s))) = v := by
    rw [rg_occurrenceCounted _ (rkey_ne_of_lt (by decide) hg24 (by decide)),
      rg_sourceNoted true _ (by rw [hgrp]; exact rkey_ne_of_lt (by decide) hg24 hg24), rg_forceStored]
  have hsticky : srcSticky (32 * g + b) (occurrenceCounted (sourceNoted (32 * g + b) true
      (forceStored g v s))) = true := by
    rw [srcSticky, rg_occurrenceCounted _ (rkey_ne_of_lt (by decide) (by omega) (by decide))]
    exact sticky_sourceNoted _ true _
  generalize occurrenceCounted (sourceNoted (32 * g + b) true (forceStored g v s)) = u at *
  exact ⟨hforce, hsticky, rfl, hcmem.trans (hnmem.trans hmem), hclanes.trans (hnlanes.trans hlanes)⟩

/-- A source that has not occurred on the edge occurs, forced. -/
theorem rose_new (hlen : s.flt.queue.length < 256) :
    Rose g v (32 * g + b) (if srcMasked (32 * g + b) s = true then s.flt.queue
      else queueOccurrence s.flt.begun (occurrence (32 * g + b) true (s.flt.occ + 1) s) s.flt.queue) s
      (occurs (32 * g + b) true true (forceStored g v s)) := by
  obtain ⟨hgrp, -⟩ := group_source (g := g) hb
  have hmask : srcMasked (32 * g + b) (sourceNoted (32 * g + b) true (forceStored g v s)) =
      srcMasked (32 * g + b) s := by
    rw [srcMasked, srcMasked, hgrp, rgHeld_sourceNoted true _ (by
      rw [hgrp]
      exact rkey_ne_of_lt (by decide) (by omega) (by omega)),
      rgHeld_forceStored _ _ (rkey_ne_of_lt (by decide) (by omega) (by omega))]
  rw [occurs_eq, hmask]
  split
  · exact rose_noted hg hb v s
  · exact rose_queued hg hb v s hlen

end

theorem queue_markForced (src : Nat) (rise : Bool) (s : State) : (markForced src (noteOccurred src rise s)).flt.queue =
    s.flt.queue.map fun x => if x.src = src ∧ x.edge = edgeNow s then { x with forced := true } else x := rfl

/-- A force write by a path that reaches its group stores the word and makes its rises. -/
theorem fltGForceWrite_taken {p g : Nat} {v : Word} {s : State} (hw : winOf p FLT_G_FORCE s = some g)
    (hwr : writable p FLT_G_FORCE g s = true) :
    fltGForceWrite p v s = forceRises g (rg FLT_G_FORCE g s) (forceStored g v s) := atInst_taken _ _ _ _ _ hw hwr

/-- A force write that raises no bit stores its word. -/
theorem forceRises_none {g : Nat} {old v : Word} {s : State} (hn : rg FLT_G_FORCE g s = v) (h : v &&& ~~~old = 0) :
    forceRises g old s = s := by
  have hf : (List.range 32).filter (fun b => bit v b && !bit old b) = [] := by
    refine List.filter_eq_nil_iff.2 fun b hb => ?_
    have hbit : (v &&& ~~~old).getLsbD b = (0 : Word).getLsbD b := by rw [h]
    rw [BitVec.getLsbD_and, BitVec.getLsbD_not, decide_eq_true (List.mem_range.1 hb), Bool.true_and,
      show (0 : Word).getLsbD b = false from BitVec.getLsbD_zero] at hbit
    exact ne_true_of_eq_false hbit
  unfold forceRises
  rw [hn]
  dsimp only
  rw [hf, forEach_nil]

/-! ### Service (R327, R328) -/

/-- The external actions of the head occurrence are done. -/
def markBegun (s : State) : State := { s with flt := { s.flt with begun := true } }

theorem beginReaction_eq {o : Occurrence} {ans : MemAnswer} {s : State}
    (h : rehearsed o (bump FLT_CLS_CNT o.cls 31 16 s) = false) :
    beginReaction o ans s = markBegun (externalActions o ans (bump FLT_CLS_CNT o.cls 31 16 s)) :=
  congrArg markBegun (if_neg (by simp [h]))

theorem rg_act_counted {c : Nat} (s : State) (hc : c < 2 ^ 24) :
    rg FLT_CLS_ACT c (bump FLT_CLS_CNT c 31 16 s) = rg FLT_CLS_ACT c s :=
  rg_bump_other (rkey_ne_of_lt (by decide) hc hc)

theorem rehearsed_of_act {o : Occurrence} {s : State} (h : bit (rg FLT_CLS_ACT o.cls s) 31 = false) :
    rehearsed o s = false := by
  rw [rehearsed, h, Bool.and_false, Bool.false_and]

/-- A class whose only actions are safe outputs, or none. -/
def OnlySafe (a : Word) : Prop := a = 0 ∨ a = 1

theorem OnlySafe.bit {a : Word} (h : OnlySafe a) {j : Nat} (hj : j ≠ 0) : bit a j = false := by
  rcases h with rfl | rfl
  · exact BitVec.getLsbD_zero
  · rw [Machine.bit, show (1 : Word) = BitVec.ofNat 32 (2 ^ 0) from rfl, BitVec.getLsbD_ofNat, Nat.testBit_two_pow]
    simp [Ne.symm hj]

theorem externalActions_safe {o : Occurrence} {ans : MemAnswer} {s : State} (h : OnlySafe (rg FLT_CLS_ACT o.cls s)) :
    externalActions o ans s = onlyIf (bit (rg FLT_CLS_ACT o.cls s) 0) (assertSafe ans) s := by
  unfold externalActions
  dsimp only
  rw [h.bit (j := 1) (by decide), h.bit (j := 2) (by decide), h.bit (j := 3) (by decide), h.bit (j := 4) (by decide),
    Bool.false_and]
  rfl

theorem reportingActions_none {o : Occurrence} {quiet : Bool} {s : State} (h : OnlySafe (rg FLT_CLS_ACT o.cls s)) :
    reportingActions o quiet s = s := by
  unfold reportingActions
  dsimp only
  rw [h.bit (j := 5) (by decide), h.bit (j := 6) (by decide), h.bit (j := 7) (by decide)]
  rfl

theorem refillQueue_none {s : State} (h : s.flt.noted = []) : refillQueue s = s := by
  refine forEach_keeps (fun t => t = s) _ _ _ (fun c _ t ht => ?_) rfl
  subst ht
  rw [h]
  rfl

/-- The block when the head occurrence has left the queue. -/
def leaveQueue (s : State) : State := { s with flt := { s.flt with queue := s.flt.queue.tail, begun := false } }

theorem reactionServe_begun {o : Occurrence} {q : List Occurrence} {ans : MemAnswer} {s : State}
    (hq : s.flt.queue = o :: q) (hb : s.flt.begun = false) : reactionServe ans s =
      let t := beginReaction o ans s
      if bit (rg FLT_CLS_ACT o.cls t) 5 ∧ inReset 207 t then t
      else refillQueue (reportingActions o (rehearsed o s) (leaveQueue t)) := by
  unfold reactionServe
  rw [hq]
  dsimp only
  rw [hb]
  rfl

/-- The service of an occurrence whose class has safe outputs alone, or nothing. -/
theorem reactionServe_safe {o : Occurrence} {q : List Occurrence} {ans : MemAnswer} {s t : State}
    (hq : s.flt.queue = o :: q) (hb : s.flt.begun = false) (hn : s.flt.noted = []) (hc : o.cls < 2 ^ 24)
    (ha : OnlySafe (rg FLT_CLS_ACT o.cls s))
    (ht : onlyIf (bit (rg FLT_CLS_ACT o.cls s) 0) (assertSafe ans) (bump FLT_CLS_CNT o.cls 31 16 s) = t)
    (hact : rg FLT_CLS_ACT o.cls t = rg FLT_CLS_ACT o.cls s) (hnoted : t.flt.noted = s.flt.noted) :
    reactionServe ans s = leaveQueue t := by
  have hcnt := rg_act_counted s hc
  have hext : externalActions o ans (bump FLT_CLS_CNT o.cls 31 16 s) = t := by
    rw [externalActions_safe (by rwa [hcnt]), hcnt, ht]
  have hbegin : beginReaction o ans s = markBegun t := by
    rw [beginReaction_eq (rehearsed_of_act (by rw [hcnt, ha.bit (by decide)])), hext]
  have hact' : rg FLT_CLS_ACT o.cls (beginReaction o ans s) = rg FLT_CLS_ACT o.cls s := by
    rw [hbegin]
    exact hact
  have hleave : leaveQueue (beginReaction o ans s) = leaveQueue t := by rw [hbegin]; rfl
  rw [reactionServe_begun hq hb]
  dsimp only
  have hleft : rg FLT_CLS_ACT o.cls (leaveQueue t) = rg FLT_CLS_ACT o.cls t := rg_congr rfl _ _
  rw [hact', ha.bit (by decide), if_neg (by simp), hleave, reportingActions_none (by rwa [hleft, hact])]
  exact refillQueue_none (hnoted.trans hn)

/-- Safe outputs with no frame to send: SAFE_n low, the state 1. -/
theorem assertSafe_quiet {ans : MemAnswer} {s : State}
    (h : rgF FLT_SAFE_CTRL 0 0 0 s = 1 ∨ rgF FLT_SAFE_CFG 0 19 16 s = 0) : assertSafe ans s = loadSafe s := by
  unfold assertSafe
  dsimp only
  split
  · rfl
  · next hw =>
    have hcfg : rgF FLT_SAFE_CFG 0 19 16 (loadSafe s) = 0 := by
      rw [rgF, loadSafe, rg_setRgF_other (rkey_ne_of_lt (by decide) (by decide) (by decide))]
      exact h.resolve_left hw
    change forEach ((List.range (rgF FLT_SAFE_CFG 0 19 16 (loadSafe s))).map _) _ (loadSafe s) = loadSafe s
    rw [hcfg]
    rfl

theorem loadSafe_fields (s : State) : (loadSafe s).mem = s.mem ∧ (loadSafe s).lanes = s.lanes ∧
    (loadSafe s).jct = s.jct ∧ (loadSafe s).flt = { s.flt with safeLow := true } :=
  ⟨setRg_mem .., setRg_lanes .., setRg_jct .., setRg_flt ..⟩

theorem loadSafe_noted (s : State) : (loadSafe s).flt.noted = s.flt.noted := by
  obtain ⟨-, -, -, hflt⟩ := loadSafe_fields s
  rw [hflt]

theorem rg_loadSafe_other {r i : Nat} (s : State) (h : rkey r i ≠ rkey FLT_SAFE_CTRL 0) :
    rg r i (loadSafe s) = rg r i s := rg_setRgF_other h

/-- What the service of a class with safe outputs alone leaves. -/
structure MadeSafe (c : Nat) (q : List Occurrence) (s t : State) : Prop where
  low : t.flt.safeLow = true
  queue : t.flt.queue = q
  state : rgF FLT_SAFE_CTRL 0 0 0 t = 1
  count : rgF FLT_CLS_CNT c 31 16 t = (rgF FLT_CLS_CNT c 31 16 s + 1) % 2 ^ 16
  mem : t.mem = s.mem
  lanes : t.lanes = s.lanes
  jct : t.jct = s.jct

theorem madeSafe_load {c : Nat} {q : List Occurrence} {o : Occurrence} {s : State} (hc : c < 2 ^ 24)
    (hq : s.flt.queue = o :: q) : MadeSafe c q s (leaveQueue (loadSafe (bump FLT_CLS_CNT c 31 16 s))) := by
  obtain ⟨hmem, hlanes, hjct, hflt⟩ := loadSafe_fields (bump FLT_CLS_CNT c 31 16 s)
  refine ⟨congrArg FaultRun.safeLow hflt, ?_, ?_, ?_, hmem.trans (setRg_mem ..), hlanes.trans (setRg_lanes ..),
    hjct.trans (setRg_jct ..)⟩
  · exact (congrArg (fun f : FaultRun => f.queue.tail) hflt).trans (congrArg List.tail hq)
  · rw [rgF, rg_congr (t := leaveQueue (loadSafe (bump FLT_CLS_CNT c 31 16 s))) rfl]
    exact rgF_setRgF_same _ _ _ _ _ _ (by decide) (by decide)
  · have hleft : rg FLT_CLS_CNT c (leaveQueue (loadSafe (bump FLT_CLS_CNT c 31 16 s))) =
        rg FLT_CLS_CNT c (loadSafe (bump FLT_CLS_CNT c 31 16 s)) := rg_congr rfl _ _
    rw [rgF, hleft, rg_loadSafe_other _ (rkey_ne_of_lt (by decide) hc (by decide))]
    exact rgF_bump_same _ _ _ _ _ (by decide) (by decide)

theorem reactionServe_load {o : Occurrence} {q : List Occurrence} {ans : MemAnswer} {s : State}
    (hq : s.flt.queue = o :: q) (hb : s.flt.begun = false) (hn : s.flt.noted = []) (hc : o.cls < 2 ^ 24)
    (ha : rg FLT_CLS_ACT o.cls s = 1) (h : rgF FLT_SAFE_CTRL 0 0 0 s = 1 ∨ rgF FLT_SAFE_CFG 0 19 16 s = 0) :
    reactionServe ans s = leaveQueue (loadSafe (bump FLT_CLS_CNT o.cls 31 16 s)) := by
  have hne : ∀ r, r ≠ FLT_CLS_CNT → rkey r 0 ≠ rkey FLT_CLS_CNT o.cls := fun r hr => rkey_ne_of_lt hr (by decide) hc
  have hquiet : assertSafe ans (bump FLT_CLS_CNT o.cls 31 16 s) = loadSafe (bump FLT_CLS_CNT o.cls 31 16 s) :=
    assertSafe_quiet (h.imp (fun h => by rwa [rgF, rg_bump_other (hne _ (by decide))])
      (fun h => by rwa [rgF, rg_bump_other (hne _ (by decide))]))
  refine reactionServe_safe hq hb hn hc (.inr ha) ?_ ?_ ?_
  · rw [ha]
    exact hquiet
  · rw [rg_loadSafe_other _ (rkey_ne_of_lt (by decide) hc (by decide))]
    exact rg_act_counted s hc
  · have hflt : (bump FLT_CLS_CNT o.cls 31 16 s).flt = s.flt := setRg_flt ..
    exact (loadSafe_noted _).trans (congrArg FaultRun.noted hflt)

theorem reactionServe_nothing {o : Occurrence} {q : List Occurrence} {ans : MemAnswer} {s : State}
    (hq : s.flt.queue = o :: q) (hb : s.flt.begun = false) (hn : s.flt.noted = []) (hc : o.cls < 2 ^ 24)
    (ha : rg FLT_CLS_ACT o.cls s = 0) : reactionServe ans s =
      { bump FLT_CLS_CNT o.cls 31 16 s with flt := { s.flt with queue := q } } := by
  have hflt : (bump FLT_CLS_CNT o.cls 31 16 s).flt = s.flt := setRg_flt ..
  rw [reactionServe_safe (t := bump FLT_CLS_CNT o.cls 31 16 s) hq hb hn hc (.inl ha) (by rw [ha]; rfl)
    (rg_act_counted s hc) (congrArg FaultRun.noted hflt), leaveQueue, hflt, hq, List.tail_cons]
  exact congrArg (fun b => { bump FLT_CLS_CNT o.cls 31 16 s with flt := { s.flt with queue := q, begun := b } }) hb.symm

/-! ### Budgets (R335) -/

/-- One more event frame for a session. -/
def grantEvent (n : Nat) (s : State) : State :=
  { s with flt := { s.flt with budget := sset 16 n (min 16 (sget 16 n s.flt.budget + 1)) s.flt.budget } }

theorem budget_eventBudgetTick (s : State) (n : Fin 4) :
    sget 16 n (eventBudgetTick s).flt.budget = min 16 (sget 16 n s.flt.budget + 1) := by
  have h := forEach_once (f := grantEvent) (List.nodup_range (n := 4)) (fun _ => True)
    (v := fun t => sget 16 n t.flt.budget) (g := fun x => min 16 (x + 1)) (p := n) (fun _ _ _ => trivial)
    (fun t _ => sget_sset_same _ _ _ _) (fun q t _ hq => sget_sset_other _ _ _ _ _ _ (Ne.symm hq)) (s := s) trivial
  exact h.trans (if_pos (List.mem_range.2 n.isLt))

theorem eventBudgetTick_keeps (s : State) : (eventBudgetTick s).regs = s.regs ∧ (eventBudgetTick s).mem = s.mem ∧
    (eventBudgetTick s).flt.queue = s.flt.queue :=
  forEach_keeps (fun t => t.regs = s.regs ∧ t.mem = s.mem ∧ t.flt.queue = s.flt.queue) _ _ _ (fun _ _ _ h => h)
    ⟨rfl, rfl, rfl⟩

/-- Settles O50: what a force bit raises, what the head of the queue does, and the releases. -/
theorem faultsAreForcedServedAndReleased : Obligations.FaultsAreForcedServedAndReleased := by
  refine ⟨fun p g b s hw hwr h0 hlen => ?_, fun p g v s hw => ⟨fun hwr hv => congrArg Host.Outcome.next ?_,
      fun hwr => congrArg Host.Outcome.next (atInst_ignored _ _ _ _ _ hw hwr)⟩,
    fun o q ans s hq hc hb hn => ⟨fun ha => congrArg Host.Outcome.next ?_, fun ha h => ?_⟩,
    fun ans s hq => congrArg Host.Outcome.next ?_,
    fun p v s => ⟨fun hw hv => congrArg Host.Outcome.next ?_, fun h => congrArg Host.Outcome.next ?_⟩,
    fun p i v s hw => ?_, fun p i v s hw => congrArg Host.Outcome.next (if_neg (by simp [hw])), fun s => ?_⟩
  · have hwrite : fltGForceWrite p (BitVec.ofNat 32 (2 ^ b.val)) s =
        forceRise (32 * g + b) (forceStored g (BitVec.ofNat 32 (2 ^ b.val)) s) := by
      rw [fltGForceWrite_taken hw hwr, h0, forceRises_one b.isLt (rg_forceStored _ _ _)]
    obtain ⟨hflt, hmp, hmem, hlanes⟩ := onlyIn_forceStored_fields g (BitVec.ofNat 32 (2 ^ b.val)) s
    have hocc := edgeOccurred_forceStored g (BitVec.ofNat 32 (2 ^ b.val)) s
    refine ⟨_, congrArg Host.Outcome.next hwrite, ?_⟩
    cases hin : (edgeOccurred s).contains (32 * g.val + b.val) with
    | false =>
      have hrise : forceRise (32 * g + b) (forceStored g (BitVec.ofNat 32 (2 ^ b.val)) s) =
          occurs (32 * g + b) true true (forceStored g (BitVec.ofNat 32 (2 ^ b.val)) s) :=
        if_neg (by rw [hocc, hin]; decide)
      obtain ⟨hforce, hsticky, hqueue, hm, hl⟩ := rose_new g.isLt b.isLt (BitVec.ofNat 32 (2 ^ b.val)) s hlen
      rw [hrise]
      exact ⟨hforce, fun _ => ⟨hsticky, hqueue⟩, fun h => absurd h (by decide), hm, hl⟩
    | true =>
      have hrise : forceRise (32 * g + b) (forceStored g (BitVec.ofNat 32 (2 ^ b.val)) s) =
          markForced (32 * g + b) (noteOccurred (32 * g + b) true (forceStored g (BitVec.ofNat 32 (2 ^ b.val)) s)) :=
        if_pos (by rw [hocc, hin])
      rw [hrise]
      refine ⟨rg_forceStored _ _ _, fun h => absurd h (by decide), fun _ => ?_, hmem, hlanes⟩
      rw [queue_markForced, hflt, edgeNow, hmp]
      rfl
  · rw [fltGForceWrite_taken hw hwr, forceRises_none (rg_forceStored _ _ _) hv, forceStored]
  · exact reactionServe_nothing hq hb hn (by omega) ha
  · obtain ⟨hlow, hqueue, hstate, hcount, hmem, hlanes, hjct⟩ := madeSafe_load (s := s) (c := o.cls) (by omega) hq
    exact ⟨_, congrArg Host.Outcome.next (reactionServe_load hq hb hn (by omega) ha h), hlow, hqueue, hstate, hcount,
      hmem, hlanes, hjct⟩
  · unfold reactionServe
    rw [hq]
  · exact (atGlobal_taken _ _ _ _ hw).trans (if_neg (not_not.2 hv))
  · rcases h with h | h
    · exact atGlobal_ignored _ _ _ _ h
    · cases hw : writable p FLT_SAFE_CTRL 0 s with
      | false => exact atGlobal_ignored _ _ _ _ hw
      | true => exact (atGlobal_taken _ _ _ _ hw).trans (if_pos (by simp [h]))
  · refine ⟨_, congrArg Host.Outcome.next (atGlobal_taken _ _ _ _ hw), fun b => ?_, setRg_mem .., setRg_flt ..,
      setRg_lanes ..⟩
    rw [rg_setRg_same]
    unfold bit
    rw [BitVec.getLsbD_and, BitVec.getLsbD_not, decide_eq_true b.isLt, Bool.true_and]
  · exact ⟨_, rfl, budget_eventBudgetTick s, eventBudgetTick_keeps s⟩

end Sys2Proof.Machine
end

section
/-! PROOF. O51: the journal's writes, credits and acknowledgements. A path that offers a frame to Junction leaves the
other paths' registers: Junction writes registers of its own blocks, and a raised source those of the collector. -/

set_option Elab.async false

namespace Sys2Proof.Machine

open Sys2Proof

/-! ### Drain frames (R343) -/

/-- A path that has taken `k` records of a class for a frame. -/
def drainTaken (p c k : Nat) (s : State) : State :=
  let d := drainPath p s
  let gap := sget none c d.gaps
  let t := setDrainPath p { d with sending := true, gaps := sset none c none d.gaps } s
  let t := onlyIf gap.isSome (bump JNL_P_CNT p 15 0) t
  bump JNL_P_MSG p 31 0 (bump JNL_P_CNT p 31 16 (setPathSend p c (pathSend p c s + w32 k) t))

/-- Offers Junction one frame of the records taken: stated of a function, so that no check computes its bytes. -/
structure OffersDrain (f : Nat → Nat → Nat → State → State) : Prop where
  eq : ∀ p c k s, ∃ b, f p c k s = (internalOffer { newFrame b 197 (rgF JNL_P_CFG p 2 0 s) s with drain := some p }
    (rgF JNL_P_PORT p 7 0 (drainTaken p c k s)) (drainTaken p c k s)).1

theorem sendDrain_offers : OffersDrain sendDrain := by
  delta sendDrain
  exact ⟨fun p c k s => ⟨_, rfl⟩⟩

/-! ### What these operations write -/

namespace OnlyIn

variable {F : Scope} {s₀ s : State}

theorem with_jnl {x} (h : OnlyIn F s₀ s)
    (hF : Allows F ⟨[.jnl], 23⟩ := by exact Allows.mono ‹_› rfl) :
    OnlyIn F s₀ { s with jnl := x } :=
  h.trans ⟨fun p hp => by
    cases p
    case jnl => exact (hp (hF.1 _ (.head _))).elim
    all_goals rfl, .refl _ _⟩

theorem setDrainPath {n d} (h : OnlyIn F s₀ s)
    (hF : Allows F ⟨[.jnl], 23⟩ := by exact Allows.mono ‹_› rfl) :
    OnlyIn F s₀ (setDrainPath n d s) :=
  h.with_jnl

theorem setPathSend {p c v} (h : OnlyIn F s₀ s)
    (hF : Allows F ⟨[.regs], 15⟩ := by exact Allows.mono ‹_› rfl) :
    OnlyIn F s₀ (setPathSend p c v s) :=
  h.setRg (blockFrom hF (by decide))

theorem loseRecord {p c seq} (h : OnlyIn F s₀ s)
    (hF : Allows F ⟨[.regs, .flt, .jnl], 15⟩ := by exact Allows.mono ‹_› rfl) :
    OnlyIn F s₀ (loseRecord p c seq s) :=
  h.setDrainPath.setPathSend.bump.setCause.ite h.setDrainPath.setPathSend.bump.setCause

theorem writeRecord {r ans} (h : OnlyIn F s₀ s)
    (hF : Allows F ⟨[.regs, .mem, .flt, .jnl], 6⟩ := by exact Allows.mono ‹_› rfl) :
    OnlyIn F s₀ (writeRecord r ans s) :=
  h.noteAnswer.setCause.ite ((h.noteAnswer.forEach (fun _ _ h1 => h1.loseRecord.ite h1.setPathSend)).setRg.ite
    h.noteAnswer).wrBytes.setRg.bump

theorem takeCredit {p c size t} (h : OnlyIn F s₀ s) (hr : takeCredit p c size s = some t)
    (hF : Allows F ⟨[.jnl], 23⟩ := by exact Allows.mono ‹_› rfl) :
    OnlyIn F s₀ t := by
  unfold Machine.takeCredit at hr
  extract_lets d need at hr
  split at hr
  · split at hr
    · cases hr; exact h.setDrainPath
    · cases hr
  · split at hr
    · cases hr; exact h.setDrainPath
    · cases hr

theorem drainTaken {p c k} (h : OnlyIn F s₀ s)
    (hF : Allows F ⟨[.regs, .jnl], 15⟩ := by exact Allows.mono ‹_› rfl) :
    OnlyIn F s₀ (drainTaken p c k s) :=
  (h.setDrainPath.onlyIf fun _ h => h.bump).setPathSend.bump.bump

theorem sendDrain {p c k} (h : OnlyIn F s₀ s)
    (hF : Allows F ⟨[.regs, .jct, .tpk, .flt, .jnl], 9⟩ := by exact Allows.mono ‹_› rfl) :
    OnlyIn F s₀ (sendDrain p c k s) := by
  obtain ⟨b, he⟩ := sendDrain_offers.eq p c k s
  rw [he]
  exact h.drainTaken.internalOffer

theorem formFrame {p} (h : OnlyIn F s₀ s)
    (hF : Allows F ⟨[.regs, .jct, .tpk, .flt, .jnl], 9⟩ := by exact Allows.mono ‹_› rfl) :
    OnlyIn F s₀ (formFrame p s) := by
  unfold Machine.formFrame
  split
  · exact h
  · extract_lets offer
    have hoffer : ∀ c t, offer c = some (some t) → OnlyIn F s₀ t := by
      intro c t ht
      unfold offer at ht
      extract_lets k size at ht
      split at ht
      · cases ht
      · split at ht
        · next hr => cases ht; exact (h.takeCredit hr).sendDrain
        · split at ht <;> cases ht
    have hget : ∀ c r, offer c = some r → OnlyIn F s₀ (r.getD s) := by
      rintro c (_ | t) hr
      · exact h
      · exact hoffer c t hr
    split
    · next hr => exact hget _ _ hr
    · split
      · next hr => exact hget _ _ hr
      · cases hr : offer 2 with
        | none => exact h
        | some r => exact hget _ _ hr

end OnlyIn

/-! ### What a frame's admission leaves of the journal -/

/-- The journal's registers stand. -/
def JnlKept (s t : State) : Prop := ∀ r i, JNL_SEL ≤ r → r < FLT_SEL → i < 2 ^ 24 → rg r i t = rg r i s

theorem JnlKept.refl (s : State) : JnlKept s s := fun _ _ _ _ _ => rfl

theorem JnlKept.trans {s t u : State} (h : JnlKept s t) (h' : JnlKept t u) : JnlKept s u :=
  fun r i hr hr' hi => (h' r i hr hr' hi).trans (h r i hr hr' hi)

theorem jnlKept_congr {s t : State} (h : t.regs = s.regs) : JnlKept s t := fun r i _ _ _ => rg_congr h r i

theorem jnlKept_setRg {r i : Nat} {v : Word} {s : State} (hi : i < 2 ^ 24) (hr : r < JNL_SEL ∨ FLT_SEL ≤ r) :
    JnlKept s (setRg r i v s) :=
  fun r' _ h h' hi' => rg_setRg_other _ _ _ _ _ _ (rkey_ne_of_lt (by omega) hi' hi)

theorem jnlKept_setCause {r i b : Nat} {s : State} (hi : i < 2 ^ 24) (hr : r < JNL_SEL) :
    JnlKept s (setCause r i b s) :=
  fun r' _ h h' hi' => rg_setCause_other (rkey_ne_of_lt (by omega) hi' hi) (rkey_lt_collector h' hi')

/-- A destination of the switch: a port and a class of it. -/
def SmallDest (d : Dest) : Prop := d.port < 256 ∧ d.cls < 8

/-- A frame's replication stream, where it has one, is a register's index. -/
def SmallStream (f : JFrame) : Prop := ∀ q, f.stream = some q → q.1 < 2 ^ 24

theorem jnlKept_countRefused {d : Dest} (s : State) (hd : SmallDest d) : JnlKept s (countRefused d s) := by
  obtain ⟨hport, hcls⟩ := hd
  exact ((jnlKept_setRg (r := JCT_Q_DROP) (by omega) (.inl (by decide))).trans
    (jnlKept_setCause (r := JCT_CAUSE) (by decide) (by decide))).trans
      (jnlKept_setCause (r := JCT_CAUSE2) (by decide) (by decide))

theorem jnlKept_countOversize {f : JFrame} (s : State) (hf : SmallStream f) : JnlKept s (countOversize f s) := by
  have hn : (f.stream.map fun q => q.1).getD 0 < 2 ^ 24 := by
    cases hs : f.stream with
    | none => decide
    | some q => exact hf q hs
  exact (jnlKept_setRg (r := FRE_CNT_MISC) hn (.inl (by decide))).trans
    (jnlKept_setCause (r := FRE_CAUSE) (by decide) (by decide))

theorem jnlKept_setJqueue (p c : Nat) (q : List Copy) (s : State) : JnlKept s (setJqueue p c q s) :=
  jnlKept_congr ((OnlyIn.of (G := ⟨[.jct, .tpk], 23⟩) fun _ _ => (OnlyIn.refl s).setJqueue).keeps .regs)

theorem jnlKept_admitOne {f : JFrame} {id : Nat} {multi : Bool} {s0 : State} {acc : State × List Admitted} {d : Dest}
    (hd : SmallDest d) (hf : d.mirror = true ∨ SmallStream f) : JnlKept acc.1 (admitOne f id multi s0 acc d).1 := by
  unfold admitOne
  extract_lets s tag n cut
  split
  · next h =>
    refine jnlKept_countOversize s (hf.resolve_left fun hm => ?_)
    have htag : tag = false := by
      unfold tag carriesTag
      rw [hm, Bool.not_true, Bool.and_false, Bool.false_and]
    exact absurd (h.1.symm.trans htag) (by decide)
  · split
    · exact jnlKept_countRefused s hd
    · extract_lets c
      refine (jnlKept_setJqueue d.port d.cls (jqueue d.port d.cls s ++ [c]) s).trans ?_
      cases cut
      · exact .refl _
      · exact jnlKept_setRg (r := JCT_CNT_CT) (by decide) (.inl (by decide))

theorem jnlKept_admitAll {f : JFrame} {id : Nat} {multi : Bool} {s0 : State} {ds : List Dest}
    (hds : ∀ d ∈ ds, SmallDest d ∧ (d.mirror = true ∨ SmallStream f)) (acc : State × List Admitted) :
    JnlKept acc.1 (ds.foldl (admitOne f id multi s0) acc).1 := by
  induction ds generalizing acc with
  | nil => exact .refl _
  | cons d ds ih =>
    obtain ⟨hd, hf⟩ := hds d List.mem_cons_self
    exact (jnlKept_admitOne hd hf).trans (ih (fun x hx => hds x (List.mem_cons_of_mem d hx)) _)

theorem jnlKept_admitFrame {f : JFrame} {ds : List Dest} (s : State) (hf : SmallStream f)
    (hds : ∀ d ∈ ds, SmallDest d) : JnlKept s (admitFrame f ds s).1 := by
  have h := jnlKept_admitAll (id := s.jct.nextId) (multi := decide (1 < ds.length)) (s0 := s)
    (fun d hd => ⟨hds d hd, .inr hf⟩) (s, [])
  unfold admitFrame
  extract_lets id multi r n g fr
  split
  · exact h
  · exact h.trans (jnlKept_congr rfl)

theorem jnlKept_updJframe (id : Nat) (g : JFrame → JFrame) (s : State) : JnlKept s (updJframe id g s) :=
  jnlKept_congr ((OnlyIn.of (G := ⟨[.jct], 23⟩) fun _ _ => (OnlyIn.refl s).updJframe).keeps .regs)

/-- A generating stream as a register gives it. -/
def SmallGenerator (g : Generator) : Prop := g.stream < 2 ^ 24 ∧ ∀ p ∈ g.trunks, p < 256

theorem jnlKept_takeSeq {n : Nat} (s : State) (hn : n < 2 ^ 24) : JnlKept s (takeSeq n s) :=
  (jnlKept_setRg (r := FRE_STR_SEQ) hn (.inl (by decide))).trans
    (jnlKept_setRg (r := FRE_CNT_GEN) hn (.inl (by decide)))

theorem jnlKept_admitSequenced {st : Option Generator} {f : JFrame} {ds : List Dest} (s : State) (hf : f.stream = none)
    (hst : ∀ g, st = some g → SmallGenerator g) (hds : ∀ d ∈ ds, SmallDest d) :
    JnlKept s (admitSequenced st f ds s).1 := by
  cases st with
  | none => exact jnlKept_admitFrame s (fun q hq => absurd (hf.symm.trans hq) (by simp)) hds
  | some g =>
    obtain ⟨hn, -⟩ := hst g rfl
    unfold admitSequenced
    dsimp only
    have h : JnlKept s (admitFrame { f with
        stream := some (g.stream, BitVec.ofNat 16 (rgF FRE_STR_SEQ g.stream 15 0 s)), pair := g.trunks } ds s).1 :=
      jnlKept_admitFrame s (fun x hx => by
        obtain rfl := Option.some.inj hx
        exact hn) hds
    split
    · exact h.trans (jnlKept_takeSeq _ hn)
    · exact h.trans (jnlKept_updJframe _ _ _)

theorem mem_insertDest {d x : Dest} {l : List Dest} (h : x ∈ insertDest d l) : x = d ∨ x ∈ l := by
  induction l with
  | nil => exact .inl (List.mem_singleton.1 h)
  | cons y l ih =>
    unfold insertDest at h
    split at h
    · exact List.mem_cons.1 h
    · rcases List.mem_cons.1 h with h | h
      · exact .inr (h ▸ List.mem_cons_self)
      · exact (ih h).imp_right (List.mem_cons_of_mem y)

theorem mem_sortDests {x : Dest} {ds : List Dest} (h : x ∈ sortDests ds) : x ∈ ds := by
  have hfold : ∀ (ds acc : List Dest), x ∈ ds.foldl (fun acc d => insertDest d acc) acc → x ∈ ds ∨ x ∈ acc := by
    intro ds
    induction ds with
    | nil => exact fun acc h => .inr h
    | cons d ds ih =>
      intro acc h
      rcases ih _ h with h | h
      · exact .inl (List.mem_cons_of_mem d h)
      · exact (mem_insertDest h).elim (fun h => .inl (h ▸ List.mem_cons_self)) .inr
  exact (hfold ds [] h).elim id fun h => absurd h (by simp)

theorem smallDest_mirrors {d : Dest} {ds : List Dest} {s : State} (h : d ∈ sortDests (egressMirrors ds s)) :
    SmallDest d ∧ d.mirror = true := by
  obtain ⟨x, -, hx⟩ := List.mem_flatMap.1 (mem_sortDests h)
  unfold mirrorDest at hx
  extract_lets w t at hx
  split at hx
  · next hw =>
    obtain rfl := List.mem_singleton.1 hx
    exact ⟨⟨show fld w 7 0 < 256 by omega, Nat.mod_lt _ (by decide)⟩, rfl⟩
  · exact absurd hx (by simp)

theorem jnlKept_addMirrors {id : Nat} {ms : List Dest} {s0 : State} (s : State)
    (hms : ∀ d ∈ ms, SmallDest d ∧ d.mirror = true) : JnlKept s (addMirrors id ms s0 s) := by
  unfold addMirrors
  split
  · exact .refl s
  · next f _ =>
    extract_lets r
    have h : JnlKept s r.1 := jnlKept_admitAll (fun d hd => (hms d hd).imp_right .inl) (s, [])
    split
    · exact h
    · exact h.trans (jnlKept_congr rfl)

theorem jnlKept_admitStream {st : Option Generator} {f : JFrame} {ds : List Dest} (s : State) (hf : f.stream = none)
    (hst : ∀ g, st = some g → SmallGenerator g) (hds : ∀ d ∈ ds, SmallDest d) :
    JnlKept s (admitStream st f ds s).1 := by
  have h := jnlKept_admitSequenced s hf hst (fun d hd => hds d (mem_sortDests hd))
  unfold admitStream
  extract_lets r ms
  split
  · exact h
  · exact h.trans (jnlKept_addMirrors _ fun _ hd => smallDest_mirrors hd)

theorem smallGenerator {n : Nat} (s : State) (hn : n < 2 ^ 24) : SmallGenerator (generator n s) := by
  refine ⟨hn, fun p hp => ?_⟩
  have hmem := (List.mem_filter.1 hp).1
  have hlt : ∀ hi lo, fld (rg FRE_STR_CFG n s) hi lo < 2 ^ (hi - lo + 1) := fun hi lo =>
    Nat.mod_lt _ (Nat.two_pow_pos _)
  have h1 := hlt 23 22
  have h2 := hlt 25 24
  rcases List.mem_cons.1 hmem with rfl | hmem
  · change 128 + fld _ 23 22 < 256
    omega
  · obtain rfl := List.mem_singleton.1 hmem
    change 128 + fld _ 25 24 < 256
    omega

theorem smallGenerator_internal {src egress cls : Nat} {s : State} {g : Generator}
    (h : internalStream src egress cls s = some g) : SmallGenerator g := by
  have hgo : ∀ l : Sparse Word, internalStream.go src egress cls s l = some g → SmallGenerator g := by
    intro l
    induction l with
    | nil => exact fun h => absurd h (by simp [internalStream.go])
    | cons x l ih =>
      intro h
      unfold internalStream.go at h
      split at h
      · obtain rfl := Option.some.inj h
        exact smallGenerator s (Nat.mod_lt _ (by decide))
      · exact ih h
  exact hgo _ h

theorem smallDest_split {st : Option Generator} {cls port : Nat} {d : Dest} (hst : ∀ g, st = some g → SmallGenerator g)
    (hcls : cls < 8) (hport : port < 256) (h : d ∈ splitDests st cls [{ port := port, cls := cls }]) : SmallDest d := by
  have hone : ∀ x ∈ [({ port := port, cls := cls } : Dest)], SmallDest x := fun x hx => by
    obtain rfl := List.mem_singleton.1 hx
    exact ⟨hport, hcls⟩
  unfold splitDests at h
  split at h
  · exact hone d h
  · next g =>
    split at h
    · rcases List.mem_append.1 h with h | h
      · exact hone d h
      · obtain ⟨p, hp, rfl⟩ := List.mem_map.1 h
        obtain ⟨-, htrunks⟩ := hst g rfl
        exact ⟨htrunks p (List.mem_filter.1 hp).1, hcls⟩
    · exact hone d h

/-- The frame as it is offered: with its claim field, where the unit claims it. -/
def claimedFrame (f : JFrame) (claims : Bool) (s : State) : JFrame × State :=
  if claims then
    match claimAt f.bytes s with
    | some o => ({ f with bytes := putAt f.bytes o (beBytes 4 (claimNumber s).toNat) }, s)
    | none => (f, bump TWN_CNT_OUT 0 15 0 s)
  else (f, s)

theorem claimedFrame_stands (f : JFrame) (claims : Bool) (s : State) : (claimedFrame f claims s).1.stream = f.stream ∧
    (claimedFrame f claims s).1.cls = f.cls ∧ JnlKept s (claimedFrame f claims s).2 := by
  unfold claimedFrame
  split
  · split
    · exact ⟨rfl, rfl, .refl s⟩
    · exact ⟨rfl, rfl, jnlKept_setRg (r := TWN_CNT_OUT) (by decide) (.inr (by decide))⟩
  · exact ⟨rfl, rfl, .refl s⟩

/-- A frame of an internal unit that is offered for a port and a class writes no register of the journal. -/
theorem jnlKept_internalOffer {f : JFrame} {egress : Nat} (s : State) (hf : f.stream = none) (hc : f.cls < 8) :
    JnlKept s (internalOffer f egress s).1 := by
  unfold internalOffer
  split
  · exact (jnlKept_setRg (r := JCT_CNT_MISC) (by decide) (.inl (by decide))).trans
      (jnlKept_setCause (r := JCT_CAUSE) (by decide) (by decide))
  · split
    · exact (jnlKept_setRg (r := JCT_CNT_MISC) (by decide) (.inl (by decide))).trans
        (jnlKept_setCause (r := JCT_CAUSE) (by decide) (by decide))
    · next hport =>
      split
      · exact .refl s
      · extract_lets st s1 claims
        have hst : ∀ g, st = some g → SmallGenerator g := fun g hg => smallGenerator_internal hg
        split
        · have h1 : JnlKept s s1 := jnlKept_setRg (r := TWN_CNT_OUT) (by decide) (.inr (by decide))
          cases hg : st with
          | none => exact h1
          | some g =>
            obtain ⟨hn, -⟩ := hst g hg
            refine h1.trans ?_
            dsimp only
            cases g.trunks.contains egress
            · exact .refl _
            · exact jnlKept_takeSeq _ hn
        · obtain ⟨hstream, hcls, hkept⟩ := claimedFrame_stands f claims s
          change JnlKept s (admitStream st (claimedFrame f claims s).1
            (splitDests st (claimedFrame f claims s).1.cls [{ port := egress, cls := (claimedFrame f claims s).1.cls }])
            (claimedFrame f claims s).2).1
          refine hkept.trans (jnlKept_admitStream _ (hstream.trans hf) hst fun d hd => ?_)
          rw [hcls] at hd
          exact smallDest_split hst hc (by omega) hd

/-! ### Credits (R345) -/

/-- What a path's frame leaves of another path: the registers of the classes and of the path. -/
structure PathKept (p : Nat) (s t : State) : Prop where
  wr : ∀ c, c < 3 → rg JNL_C_WR c t = rg JNL_C_WR c s
  path : ∀ r, JNL_P_CFG ≤ r → r < FLT_SEL → rg r p t = rg r p s

theorem PathKept.refl (p : Nat) (s : State) : PathKept p s s := ⟨fun _ _ => rfl, fun _ _ _ => rfl⟩

theorem PathKept.trans {p : Nat} {s t u : State} (h : PathKept p s t) (h' : PathKept p t u) : PathKept p s u :=
  ⟨fun c hc => (h'.wr c hc).trans (h.wr c hc), fun r hr hr' => (h'.path r hr hr').trans (h.path r hr hr')⟩

theorem JnlKept.path {p : Nat} {s t : State} (hp : p < 2 ^ 24) (h : JnlKept s t) : PathKept p s t :=
  ⟨fun c hc => h _ c (by decide) (by decide) (by omega), fun r hr hr' => h r p (le_trans (by decide) hr) hr' hp⟩

theorem pathKept_congr {p : Nat} {s t : State} (h : t.regs = s.regs) : PathKept p s t :=
  ⟨fun _ _ => rg_congr h _ _, fun _ _ _ => rg_congr h _ _⟩

theorem pathKept_setRg {p q r : Nat} {v : Word} {s : State} (hp : p < 2 ^ 24) (hq : q < 2 ^ 24) (hne : q ≠ p)
    (hr : JNL_P_CFG ≤ r) : PathKept p s (setRg r q v s) := by
  have hwr : ¬ JNL_C_WR = r := fun e => absurd (e ▸ hr) (by decide)
  refine ⟨fun c hc => rg_setRg_other _ _ _ _ _ _ (rkey_ne_of_lt hwr (by omega) hq), fun r' _ _ =>
    rg_setRg_other _ _ _ _ _ _ ?_⟩
  simp only [rkey]
  omega

theorem pathKept_drainTaken {p q c k : Nat} (s : State) (hp : p < 2 ^ 24) (hq : q < 2 ^ 24) (hne : q ≠ p) :
    PathKept p s (drainTaken q c k s) := by
  unfold drainTaken
  extract_lets d gap t u
  have ht : PathKept p s t := pathKept_congr (setDrainPath_regs ..)
  have hu : PathKept p s u := by
    unfold u
    cases gap.isSome
    · exact ht
    · exact ht.trans (pathKept_setRg hp hq hne (by decide))
  exact ((hu.trans (pathKept_setRg hp hq hne (Nat.le_add_right_of_le (by decide)))).trans
    (pathKept_setRg (r := JNL_P_CNT) hp hq hne (by decide))).trans
    (pathKept_setRg (r := JNL_P_MSG) hp hq hne (by decide))

theorem drainPath_congr {s t : State} (h : t.jnl = s.jnl) (p : Nat) : drainPath p t = drainPath p s := by
  rw [drainPath, drainPath, h]

theorem drainPath_drainTaken {p q c k : Nat} (s : State) (hne : q ≠ p) :
    drainPath p (drainTaken q c k s) = drainPath p s := by
  unfold drainTaken
  extract_lets d gap t u
  have hu : u.jnl = t.jnl := onlyIf_keeps (v := State.jnl) (setRg_jnl ..)
  refine (drainPath_congr ((setRg_jnl ..).trans ((setRg_jnl ..).trans ((setRg_jnl ..).trans hu))) p).trans ?_
  exact drainPath_setDrainPath_other _ _ _ _ (Ne.symm hne)

/-- A path's frame leaves the other paths' registers and credits. -/
theorem sendDrain_leaves {p q c k : Nat} (s : State) (hp : p < 2 ^ 24) (hq : q < 2 ^ 24) (hne : q ≠ p) :
    PathKept p s (sendDrain q c k s) ∧ drainPath p (sendDrain q c k s) = drainPath p s := by
  obtain ⟨b, he⟩ := sendDrain_offers.eq q c k s
  rw [he]
  refine ⟨(pathKept_drainTaken s hp hq hne).trans
    ((jnlKept_internalOffer _ rfl (Nat.mod_lt _ (by decide))).path hp), ?_⟩
  refine (drainPath_congr ((OnlyIn.of (G := ⟨[.regs, .jct, .tpk, .flt], 9⟩) fun _ _ =>
    (OnlyIn.refl _).internalOffer).keeps .jnl) p).trans (drainPath_drainTaken s hne)

/-- What a path offers of one class: nothing, no credit for it, or its frame. -/
def drainOffer (p c : Nat) (s : State) : Option (Option State) :=
  let k := min (untaken p c s) (recPerMsg p s)
  if ¬ pathDrains p c s ∨ k = 0 then none
  else
    let size := 8 + 64 * k + (if (sget none c (drainPath p s).gaps).isSome then 64 else 0)
    match takeCredit p c size s with
    | some s' => some (some (sendDrain p c k s'))
    | none => if c = 0 then some none else none

theorem formFrame_eq (p : Nat) (s : State) : formFrame p s =
    if ¬ pathOn p s ∨ (drainPath p s).sending ∨ inReset 207 s then s
    else match drainOffer p 0 s with
      | some r => r.getD s
      | none =>
        match drainOffer p 1 s with
        | some r => r.getD s
        | none => ((drainOffer p 2 s).getD none).getD s := rfl

/-- A path with nothing to drain. -/
def NothingLeft (p : Nat) (s : State) : Prop := ∀ c, c < 3 → pathDrains p c s = false ∨ untaken p c s = 0

theorem drainOffer_none {p c : Nat} {s : State} (h : pathDrains p c s = false ∨ untaken p c s = 0) :
    drainOffer p c s = none := by
  refine if_pos (h.imp (fun h => by simp [h]) fun h => ?_)
  rw [h, Nat.zero_min]

theorem formFrame_idle {p : Nat} {s : State} (h : NothingLeft p s) : formFrame p s = s := by
  rw [formFrame_eq]
  split
  · rfl
  · rw [drainOffer_none (h 0 (by decide)), drainOffer_none (h 1 (by decide)), drainOffer_none (h 2 (by decide))]
    rfl

theorem takeCredit_leaves {p q c size : Nat} {s t : State} (hne : q ≠ p) (h : takeCredit q c size s = some t) :
    PathKept p s t ∧ drainPath p t = drainPath p s := by
  have hset : ∀ d, PathKept p s (setDrainPath q d s) ∧ drainPath p (setDrainPath q d s) = drainPath p s := fun d =>
    ⟨pathKept_congr (setDrainPath_regs ..), drainPath_setDrainPath_other _ _ _ _ (Ne.symm hne)⟩
  unfold takeCredit at h
  extract_lets d need at h
  split at h
  · split at h
    · obtain rfl := Option.some.inj h
      exact hset _
    · exact absurd h (by simp)
  · split at h
    · obtain rfl := Option.some.inj h
      exact hset _
    · exact absurd h (by simp)

theorem drainOffer_leaves {p q c : Nat} {s t : State} (hp : p < 2 ^ 24) (hq : q < 2 ^ 24) (hne : q ≠ p)
    (h : drainOffer q c s = some (some t)) : PathKept p s t ∧ drainPath p t = drainPath p s := by
  unfold drainOffer at h
  extract_lets k size at h
  split at h
  · exact absurd h (by simp)
  · split at h
    · next s' hs' =>
      obtain rfl := Option.some.inj (Option.some.inj h)
      obtain ⟨hkept, hpath⟩ := takeCredit_leaves hne hs'
      obtain ⟨hkept', hpath'⟩ := sendDrain_leaves (c := c) (k := k) s' hp hq hne
      exact ⟨hkept.trans hkept', hpath'.trans hpath⟩
    · split at h <;> simp at h

/-- A path that may form a frame leaves the other paths' registers and credits. -/
theorem formFrame_leaves {p q : Nat} (s : State) (hp : p < 2 ^ 24) (hq : q < 2 ^ 24) (hne : q ≠ p) :
    PathKept p s (formFrame q s) ∧ drainPath p (formFrame q s) = drainPath p s := by
  have hoffer : ∀ c r, drainOffer q c s = some r →
      PathKept p s (r.getD s) ∧ drainPath p (r.getD s) = drainPath p s := by
    rintro c (_ | t) h
    · exact ⟨.refl p s, rfl⟩
    · exact drainOffer_leaves hp hq hne h
  rw [formFrame_eq]
  split
  · exact ⟨.refl p s, rfl⟩
  · split
    · next r hr => exact hoffer 0 r hr
    · split
      · next r hr => exact hoffer 1 r hr
      · cases hr : drainOffer q 2 s with
        | none => exact ⟨.refl p s, rfl⟩
        | some r => exact hoffer 2 r hr

/-- What a millisecond adds to the credits of a path. -/
def earned (p : Nat) (s : State) (d : DrainPath) : DrainPath :=
  { d with
    alarmMilli := min (fullPayload p s * 1000) (d.alarmMilli + rgF JNL_P_BUDGET p 23 0 s * pathShare p s / 16),
    generalMilli := min (fullPayload p s * 1000)
      (d.generalMilli + rgF JNL_P_BUDGET p 23 0 s * (16 - pathShare p s) / 16) }

/-- A path's part of the millisecond: its credits, then perhaps a frame. -/
def creditPath (p : Nat) (s : State) : State := formFrame p (setDrainPath p (earned p s (drainPath p s)) s)

theorem journalCreditStep_eq (s : State) :
    journalCreditStep s = if inReset 207 s then s else forEach (List.range 4) creditPath s := rfl

theorem PathKept.earned {p : Nat} {s t : State} (h : PathKept p s t) (d : DrainPath) :
    earned p t d = Machine.earned p s d := by
  have hcfg := h.path JNL_P_CFG (by decide) (by decide)
  have hbudget := h.path JNL_P_BUDGET (by decide) (by decide)
  simp only [Machine.earned, fullPayload, recPerMsg, pathShare, rgF, hcfg, hbudget]

theorem PathKept.nothingLeft {p : Nat} {s t : State} (h : PathKept p s t) (hs : NothingLeft p s) : NothingLeft p t := by
  intro c hc
  have hcfg := h.path JNL_P_CFG (by decide) (by decide)
  have hsend := h.path (JNL_P_SEND + 4 * c) (by simp only [JNL_P_SEND, JNL_P_CFG]; omega)
    (by simp only [JNL_P_SEND, FLT_SEL]; omega)
  refine (hs c hc).imp (fun h' => ?_) (fun h' => ?_)
  · rw [pathDrains, pathOn, hcfg]
    exact h'
  · rw [untaken, jnlWr, pathSend, h.wr c hc, hsend]
    exact h'

theorem creditPath_idle {p : Nat} {s : State} (h : NothingLeft p s) :
    creditPath p s = setDrainPath p (earned p s (drainPath p s)) s :=
  formFrame_idle ((pathKept_congr (setDrainPath_regs ..)).nothingLeft h)

theorem creditPath_leaves {p q : Nat} (s : State) (hp : p < 2 ^ 24) (hq : q < 2 ^ 24) (hne : q ≠ p) :
    PathKept p s (creditPath q s) ∧ drainPath p (creditPath q s) = drainPath p s := by
  obtain ⟨hkept, hpath⟩ := formFrame_leaves (setDrainPath q (earned q s (drainPath q s)) s) hp hq hne
  exact ⟨(pathKept_congr (setDrainPath_regs ..)).trans hkept,
    hpath.trans (drainPath_setDrainPath_other _ _ _ _ (Ne.symm hne))⟩

theorem drainPath_creditPaths {p : Nat} {s : State} (hp : p < 2 ^ 24) (h : NothingLeft p s) {l : List Nat}
    (hnd : l.Nodup) (hl : ∀ q ∈ l, q < 2 ^ 24) {t : State} (ht : PathKept p s t) :
    drainPath p (forEach l creditPath t) = if p ∈ l then earned p s (drainPath p t) else drainPath p t := by
  induction l generalizing t with
  | nil => rfl
  | cons q l ih =>
    obtain ⟨hq, hnd⟩ := List.nodup_cons.1 hnd
    have hrest := fun q' hq' => hl q' (List.mem_cons_of_mem _ hq')
    by_cases hqp : q = p
    · subst hqp
      have hidle : creditPath q t = setDrainPath q (earned q s (drainPath q t)) t := by
        rw [creditPath_idle (ht.nothingLeft h), ht.earned]
      rw [forEach_cons, hidle, ih hnd hrest (ht.trans (pathKept_congr (setDrainPath_regs ..))), if_neg hq,
        if_pos List.mem_cons_self, drainPath_setDrainPath]
    · obtain ⟨hkept, hpath⟩ := creditPath_leaves t hp (hl q List.mem_cons_self) hqp
      rw [forEach_cons, ih hnd hrest (ht.trans hkept), hpath]
      simp only [List.mem_cons, Ne.symm hqp, false_or]

/-- The credits of a path with nothing to drain after a millisecond, whatever the others send. -/
theorem drainPath_creditStep {p : Nat} {s : State} (hp : p < 4) (hr : inReset 207 s = false) (h : NothingLeft p s) :
    drainPath p (journalCreditStep s) = earned p s (drainPath p s) := by
  rw [journalCreditStep_eq, hr, if_neg Bool.false_ne_true,
    drainPath_creditPaths (by omega) h List.nodup_range (fun q hq => by have := List.mem_range.1 hq; omega) (.refl p s),
    if_pos (List.mem_range.2 hp)]

theorem OnlyIn.journalCreditStep {F : Scope} {s₀ s : State} (h : OnlyIn F s₀ s)
    (hF : Allows F ⟨[.regs, .jct, .tpk, .flt, .jnl], 9⟩ := by exact Allows.mono ‹_› rfl) :
    OnlyIn F s₀ (journalCreditStep s) :=
  h.ite (h.forEach (fun _ _ h1 => h1.setDrainPath.formFrame))

/-! ### Records (R338) -/

/-- The state with a record written at the next slot of its class. -/
def recordWritten (r : JRecord) (s : State) : State :=
  let seq := jnlWr r.cls s
  bump JNL_C_CNT r.cls 31 0 (setRg JNL_C_WR r.cls (seq + 1) (wrBytes (jnlAddr r.cls seq s) (recordBytes r seq) s))

/-- The next slot of a class takes a record: it is free, and its memory can be reached and answers. -/
structure HasRoom (c : Nat) (s : State) : Prop where
  cap : jnlCap c s ≠ 0
  reach : canReach .unit true (jnlAddr c (jnlWr c s) s) 64 s = true
  good : answer (jnlAddr c (jnlWr c s) s) .ok s = .ok
  free : ringFull c s = false

theorem HasRoom.congr {c : Nat} {s t : State} (h : HasRoom c s) (hr : t.regs = s.regs) : HasRoom c t := by
  have hrg := fun r i => rg_congr hr r i
  have hwr : jnlWr c t = jnlWr c s := hrg _ _
  have hcap : jnlCap c t = jnlCap c s := by simp only [jnlCap, rgF, hrg]
  have haddr : jnlAddr c (jnlWr c t) t = jnlAddr c (jnlWr c s) s := by
    simp only [jnlAddr, base40_congr hr, rgF, hrg, hwr, hcap]
  refine ⟨hcap.trans_ne h.cap, ?_, ?_, ?_⟩
  · rw [haddr, canReach_congr hr]
    exact h.reach
  · rw [haddr, answer_congr hr]
    exact h.good
  · rw [← h.free, ringFull, ringFull, hcap, hwr, jnlOld, jnlOld, hrg]

theorem writeRecord_room {r : JRecord} {s : State} (h : HasRoom r.cls s) : writeRecord r .ok s = recordWritten r s := by
  obtain ⟨hcap, hreach, hans, hroom⟩ := h
  unfold writeRecord
  extract_lets c seq a old s1 s2 s3
  have hans' : answer a .ok s = .ok := hans
  have hgood : ¬ (jnlCap c s = 0 ∨ ¬ canReach .unit true a 64 s = true ∨ ¬ memGood (answer a .ok s) = true) := by
    rw [show canReach .unit true a 64 s = true from hreach, hans']
    simp only [memGood]
    exact fun h => h.elim hcap fun h => h.elim (fun h => h trivial) fun h => h trivial
  have hs1 : s1 = s := by
    change noteAnswer a (answer a .ok s) s = s
    rw [hans', noteAnswer_ok]
  have hs3 : s3 = s := by
    change (if ringFull c s1 then _ else s1) = s
    rw [hs1, if_neg (by rw [show ringFull c s = false from hroom]; decide)]
  rw [if_neg hgood, hs3]
  rfl

theorem length_recordBytes (r : JRecord) (seq : Word) : (recordBytes r seq).length = 64 := by
  simp only [recordBytes, slice, List.length_append, length_leBytes, List.length_cons, List.length_nil,
    List.length_replicate, List.length_take, List.length_drop]
  omega

theorem recordWritten_mem (r : JRecord) (s : State) : (recordWritten r s).mem =
    (wrBytes (jnlAddr r.cls (jnlWr r.cls s) s) (recordBytes r (jnlWr r.cls s)) s).mem := by
  rw [recordWritten, bump_eq, setRg_mem, setRg_mem]

theorem recordWritten_jnl (r : JRecord) (s : State) : (recordWritten r s).jnl = s.jnl := by
  rw [recordWritten, bump_eq, setRg_jnl, setRg_jnl, wrBytes_jnl]

theorem recordWritten_lanes (r : JRecord) (s : State) : (recordWritten r s).lanes = s.lanes := by
  rw [recordWritten, bump_eq, setRg_lanes, setRg_lanes, wrBytes_lanes]

theorem rdByte_recordWritten {r : JRecord} {s : State} {b : Nat}
    (h : b < jnlAddr r.cls (jnlWr r.cls s) s ∨ jnlAddr r.cls (jnlWr r.cls s) s + 64 ≤ b) :
    rdByte b (recordWritten r s) = rdByte b s := by
  rw [rdByte_congr (recordWritten_mem r s)]
  exact rdByte_wrBytes_outside _ _ _ _ (by rwa [length_recordBytes])

theorem rdBytes_recordWritten (r : JRecord) (s : State) : rdBytes (jnlAddr r.cls (jnlWr r.cls s) s) 64
    (recordWritten r s) = recordBytes r (jnlWr r.cls s) := by
  rw [rdBytes_congr (recordWritten_mem r s)]
  have h := rdBytes_wrBytes (jnlAddr r.cls (jnlWr r.cls s) s) (recordBytes r (jnlWr r.cls s)) s
  rwa [length_recordBytes] at h

theorem jnlWr_recordWritten {r : JRecord} {s : State} (hc : r.cls < 3) :
    rg JNL_C_WR r.cls (recordWritten r s) = jnlWr r.cls s + 1 := by
  rw [recordWritten, rg_bump_other (rkey_ne_of_lt (by decide) (by omega) (by omega)), rg_setRg_same]

theorem count_recordWritten {r : JRecord} {s : State} (hc : r.cls < 3) :
    rgF JNL_C_CNT r.cls 31 0 (recordWritten r s) = (rgF JNL_C_CNT r.cls 31 0 s + 1) % 2 ^ 32 := by
  have h : rgF JNL_C_CNT r.cls 31 0 (setRg JNL_C_WR r.cls (jnlWr r.cls s + 1)
      (wrBytes (jnlAddr r.cls (jnlWr r.cls s) s) (recordBytes r (jnlWr r.cls s)) s)) = rgF JNL_C_CNT r.cls 31 0 s := by
    rw [rgF, rg_setRg_other _ _ _ _ _ _ (rkey_ne_of_lt (by decide) (by omega) (by omega)),
      rg_congr (wrBytes_regs ..), rgF]
  rw [recordWritten, rgF_bump_same _ _ _ _ _ (by decide) (by decide), h]

theorem summaries_recordWritten {r : JRecord} {s : State} (hc : r.cls < 3) :
    rg JNL_CNT_ALM 0 (recordWritten r s) = rg JNL_CNT_ALM 0 s := by
  rw [recordWritten, rg_bump_other (rkey_ne_of_lt (by decide) (by decide) (by omega)),
    rg_setRg_other _ _ _ _ _ _ (rkey_ne_of_lt (by decide) (by decide) (by omega)), rg_congr (wrBytes_regs ..)]

/-- The journal when a fresh alarm of an origin has been written. -/
def noteNewest (o : Nat) (run : Option AlarmRun) (s : State) : State :=
  { s with jnl := { s.jnl with newest := sset none o run s.jnl.newest } }

theorem noteNewest_regs (o : Nat) (run : Option AlarmRun) (s : State) : (noteNewest o run s).regs = s.regs := rfl
theorem noteNewest_mem (o : Nat) (run : Option AlarmRun) (s : State) : (noteNewest o run s).mem = s.mem := rfl
theorem noteNewest_lanes (o : Nat) (run : Option AlarmRun) (s : State) : (noteNewest o run s).lanes = s.lanes := rfl

theorem noteNewest_intake (o : Nat) (run : Option AlarmRun) (s : State) :
    (noteNewest o run s).jnl.intake = s.jnl.intake := rfl

/-- An alarm of an origin of which none is held, with room and no summary, is written as it stands (R341). -/
theorem writeAlarm_fresh {r : JRecord} {s : State} (hc : r.cls = 0) (hsum : s.jnl.summaries = [])
    (hnew : sget none (originIndex r) s.jnl.newest = none) (hroom : ringFull 0 s = false)
    (hw : writeRecord r .ok s = recordWritten r s) :
    ∃ run, writeAlarm r .ok s = noteNewest (originIndex r) run (recordWritten r s) := by
  have hnone : ¬ (summariesPending s = true ∨ alarmFull s = true) := by
    simp [summariesPending, hsum, alarmFull, hroom]
  have hmoved : ¬ jnlWr 0 (recordWritten r s) = jnlWr 0 s := by
    have h := jnlWr_recordWritten (r := r) (s := s) (by omega)
    rw [hc] at h
    rw [show jnlWr 0 (recordWritten r s) = jnlWr 0 s + 1 from h]
    intro e
    exact absurd (BitVec.add_right_eq_self.1 e) (by decide)
  unfold writeAlarm
  rw [if_neg hnone]
  dsimp only
  rw [hnew]
  dsimp only
  rw [hw, if_neg hmoved]
  exact ⟨_, rfl⟩

/-- The state with a given intake. -/
def withIntake (q : List JRecord) (s : State) : State := { s with jnl := { s.jnl with intake := q } }

/-- The state with no summary waiting. -/
def withoutSummaries (s : State) : State := { s with jnl := { s.jnl with summaries := [] } }

/-- What JOURNAL_RECORD_WRITE leaves where its record has room. -/
theorem journalRecordWrite_written {r : JRecord} {q : List JRecord} {s : State} (hq : s.jnl.intake = r :: q)
    (hr : inReset 207 s = false)
    (halarm : r.cls = 0 → s.jnl.summaries = [] ∧ sget none (originIndex r) s.jnl.newest = none)
    (h : HasRoom r.cls s) : journalRecordWrite .ok s = recordWritten r (withIntake q s) ∨
      ∃ o run, journalRecordWrite .ok s = noteNewest o run (recordWritten r (withIntake q s)) := by
  have hw := writeRecord_room (h.congr (t := withIntake q s) rfl)
  have he : journalRecordWrite .ok s =
      if r.cls = 0 then writeAlarm r .ok (withIntake q s) else writeRecord r .ok (withIntake q s) := by
    unfold journalRecordWrite
    rw [hr, if_neg Bool.false_ne_true, hq]
    rfl
  rw [he]
  split
  · next hc =>
    obtain ⟨hsum, hnew⟩ := halarm hc
    have hfree := (h.congr (t := withIntake q s) rfl).free
    rw [hc] at hfree
    obtain ⟨run, hrun⟩ := writeAlarm_fresh (s := withIntake q s) hc hsum hnew hfree hw
    exact .inr ⟨_, run, hrun⟩
  · exact .inl hw

theorem alarmSummaryWrite_written {o : Nat} {x : AlarmRun} {s : State} (hsum : s.jnl.summaries = [(o, some x)])
    (hr : inReset 207 s = false) (h : HasRoom 0 s) : alarmSummaryWrite .ok s =
      bump JNL_CNT_ALM 0 15 8 (recordWritten (summaryRecord o x) (withoutSummaries s)) := by
  have hw := writeRecord_room (r := summaryRecord o x) (h.congr (t := withoutSummaries s) rfl)
  have hone : sset none o none s.jnl.summaries = [] := by rw [hsum]; simp [sset, serase]
  have hfull : alarmFull s = false := by rw [alarmFull, h.free, Bool.false_and]
  rw [← hw]
  unfold alarmSummaryWrite
  rw [hr, hfull, if_neg (fun h => h.elim Bool.false_ne_true Bool.false_ne_true), hsum]
  dsimp only
  rw [← hsum, hone]
  rfl

theorem endHanded_reset207 (s : State) : inReset 207 (endHanded 197 s) = inReset 207 s :=
  inReset_congr ((OnlyIn.of (G := ⟨[.jct, .tpk], 0⟩) fun _ _ => (OnlyIn.refl s).endHanded).keeps .regs) 207

/-- Settles O51: a record with room is written at the next slot of its class, a path with nothing to drain earns its
credits whatever the other paths send, and what else waits is left alone. -/
theorem theJournalWritesDrainsAndAcknowledges : Obligations.TheJournalWritesDrainsAndAcknowledges := by
  unfold Obligations.TheJournalWritesDrainsAndAcknowledges
  refine ⟨?_, ?_, ?_, ?_, ?_, ?_, ?_, ?_, ?_⟩
  · intro r q s hq hr hc halarm _ w a hcap hreach hans hfree
    have h := journalRecordWrite_written hq hr halarm ⟨hcap, hreach, hans, hfree⟩
    have hstand : ∀ t : State, t.regs = (recordWritten r (withIntake q s)).regs →
        t.mem = (recordWritten r (withIntake q s)).mem → t.lanes = s.lanes → t.jnl.intake = q →
        rdBytes a 64 t = recordBytes r w ∧ rg JNL_C_WR r.cls t = w + 1 ∧
        rgF JNL_C_CNT r.cls 31 0 t = (rgF JNL_C_CNT r.cls 31 0 s + 1) % 2 ^ 32 ∧
        t.jnl.intake = q ∧ (∀ b : Nat, b < a ∨ a + 64 ≤ b → rdByte b t = rdByte b s) ∧ t.lanes = s.lanes := by
      intro t hregs hmem hlanes hintake
      refine ⟨?_, (rg_congr hregs _ _).trans (jnlWr_recordWritten hc), ?_, hintake, fun b hb => ?_, hlanes⟩
      · exact (rdBytes_congr hmem _ _).trans (rdBytes_recordWritten r (withIntake q s))
      · exact (congrArg (fld · 31 0) (rg_congr hregs _ _)).trans (count_recordWritten hc)
      · exact (rdByte_congr hmem _).trans (rdByte_recordWritten (s := withIntake q s) hb)
    refine ⟨_, rfl, ?_⟩
    have hlanes : (recordWritten r (withIntake q s)).lanes = s.lanes := recordWritten_lanes ..
    have hintake : (recordWritten r (withIntake q s)).jnl.intake = q := by rw [recordWritten_jnl]; rfl
    rcases h with h | ⟨o, run, h⟩
    · rw [h]
      exact hstand _ rfl rfl hlanes hintake
    · rw [h]
      exact hstand _ (noteNewest_regs ..) (noteNewest_mem ..) ((noteNewest_lanes ..).trans hlanes)
        ((noteNewest_intake ..).trans hintake)
  · refine fun ans s => ⟨fun h => congrArg Host.Outcome.next ?_, fun h => congrArg Host.Outcome.next ?_⟩
    · unfold journalRecordWrite
      split
      · rfl
      · next hr => rw [h.resolve_left hr]
    · unfold alarmSummaryWrite
      split
      · rfl
      · next hn =>
        obtain ⟨hr, hf⟩ := not_or.1 hn
        rw [(h.resolve_left hr).resolve_right hf]
  · exact fun s h => congrArg Host.Outcome.next (if_pos h)
  · intro o x s hsum hr hfree hcap a hreach hans
    have h := alarmSummaryWrite_written hsum hr ⟨hcap, hreach, hans, hfree⟩
    refine ⟨_, rfl, ?_⟩
    rw [h]
    generalize hu : recordWritten (summaryRecord o x) (withoutSummaries s) = u
    have hjnl : u.jnl = (withoutSummaries s).jnl := hu ▸ recordWritten_jnl ..
    refine ⟨?_, ?_, ?_, fun b hb => ?_, ?_⟩
    · rw [bump_eq, setRg_jnl, hjnl]
      rfl
    · rw [rg_bump_other (rkey_ne_of_lt (by decide) (by decide) (by decide)), ← hu]
      exact jnlWr_recordWritten (r := summaryRecord o x) (by decide : (0 : Nat) < 3)
    · have hcnt := summaries_recordWritten (r := summaryRecord o x) (s := withoutSummaries s)
        (by decide : (0 : Nat) < 3)
      rw [hu, rg_congr (show (withoutSummaries s).regs = s.regs from rfl)] at hcnt
      rw [rgF_bump_same _ _ _ _ _ (by decide) (by decide), rgF, rgF, hcnt]
    · rw [rdByte_congr (show (bump JNL_CNT_ALM 0 15 8 u).mem = u.mem from setRg_mem ..), ← hu]
      exact rdByte_recordWritten (s := withoutSummaries s) hb
    · rw [bump_eq, setRg_lanes, ← hu]
      exact recordWritten_lanes ..
  · intro p s hr h
    have hpath := drainPath_creditStep p.isLt hr fun c hc => h ⟨c, hc⟩
    refine ⟨_, rfl, ?_, ?_, ?_⟩
    · exact congrArg (·.alarmMilli) hpath
    · exact congrArg (·.generalMilli) hpath
    · exact (OnlyIn.of (G := ⟨[.regs, .jct, .tpk, .flt, .jnl], 9⟩) fun _ _ =>
        (OnlyIn.refl s).journalCreditStep).keeps .mem
  · refine fun p s => ⟨fun hs hf h => congrArg Host.Outcome.next ?_, fun h =>
      congrArg Host.Outcome.next (if_pos (h.imp (by simp [·]) id))⟩
    have hidle : NothingLeft p s := fun c hc => h ⟨c, hc⟩
    refine (if_neg ?_).trans (formFrame_idle ((pathKept_congr (setDrainPath_regs ..)).nothingLeft hidle))
    rw [hs, hf]
    simp
  · exact fun p v s => ⟨fun h => congrArg Host.Outcome.next (atGlobal_taken _ _ _ _ h),
      fun h => congrArg Host.Outcome.next (atGlobal_ignored _ _ _ _ h)⟩
  · intro c f s hc hf hcut off
    have he : journalAckFrame s =
        if inReset 207 (endHanded 197 s) ∨ f.bytes.length < off + 8 ∨ beAt f.bytes off 1 ≠ 2 then endHanded 197 s
        else takeAck (w32 (beAt f.bytes (off + 4) 4)) (endHanded 197 s) := by
      unfold journalAckFrame
      rw [hc]
      dsimp only
      rw [hf]
      dsimp only
      rw [hcut, if_neg Bool.false_ne_true]
    refine ⟨fun hr hlen => congrArg Host.Outcome.next ?_, fun hr => congrArg Host.Outcome.next ?_⟩
    · rw [he, endHanded_reset207, hr]
      by_cases hb : beAt f.bytes off 1 = 2
      · rw [if_pos hb, if_neg (by simp only [hb]; simp; omega)]
      · rw [if_neg hb, if_pos (.inr (.inr hb))]
    · rw [he, endHanded_reset207, if_pos (.inl hr)]
  · intro s h
    exact congrArg Host.Outcome.next (by unfold journalAckFrame; rw [h])

end Sys2Proof.Machine
end

section
/-! PROOF. O53: merged inputs, echoes and rejoining of twin units. What a unit sends it offers to Junction, which
changes nothing of the twin unit, of memory or of the lanes. -/

set_option Elab.async false

namespace Sys2Proof.Machine

open Sys2Proof

/-! ### What these operations write -/

namespace OnlyIn

variable {F : Scope} {s₀ s : State}

theorem with_ingest_frozen {x y} (h : OnlyIn F s₀ s)
    (hF : Allows F ⟨[.ingest, .frozen], 23⟩ := by exact Allows.mono ‹_› rfl) :
    OnlyIn F s₀ { s with ingest := x, frozen := y } :=
  h.trans ⟨fun p hp => by
    cases p
    case ingest => exact (hp (hF.1 _ (.head _))).elim
    case frozen => exact (hp (hF.1 _ (.tail _ (.head _)))).elim
    all_goals rfl, .refl _ _⟩

theorem clearDistrict {d} (h : OnlyIn F s₀ s)
    (hF : Allows F ⟨[.regs, .lanes, .districts], 6⟩ := by exact Allows.mono ‹_› rfl) :
    OnlyIn F s₀ (clearDistrict d s) :=
  ((h.forEach (fun _ _ h1 => h1.clearLane)).forEach (fun _ _ h1 => h1.setLane)).setDistrict

theorem clearRoads (h : OnlyIn F s₀ s)
    (hF : Allows F ⟨[.regs, .roads, .ingest, .frozen, .tpk, .flt, .gates], 10⟩ := by exact Allows.mono ‹_› rfl) :
    OnlyIn F s₀ (clearRoads s) :=
  by
  unfold Machine.clearRoads
  extract_lets was s1
  have h1 : OnlyIn F s₀ s1 := h.forEach fun _ _ h1 => h1.setRoad
  exact h1.with_ingest_frozen.forEach fun _ _ h1 => h1.roadLeavesTracking

theorem setTwinState {x} (h : OnlyIn F s₀ s)
    (hF : Allows F ⟨[.regs, .twn], 17⟩ := by exact Allows.mono ‹_› rfl) :
    OnlyIn F s₀ (setTwinState x s) :=
  h.with_twn.setRgF

theorem noteStall (h : OnlyIn F s₀ s)
    (hF : Allows F ⟨[.stp], 23⟩ := by exact Allows.mono ‹_› rfl) :
    OnlyIn F s₀ (noteStall s) :=
  h.ite h.with_stp

theorem isolate (h : OnlyIn F s₀ s)
    (hF : Allows F ⟨[.regs, .twn], 17⟩ := by exact Allows.mono ‹_› rfl) :
    OnlyIn F s₀ (isolate s) :=
  h.with_twn.setTwinState

theorem takeBoundary {n tb} (h : OnlyIn F s₀ s)
    (hF : Allows F ⟨[.twn, .stp], 23⟩ := by exact Allows.mono ‹_› rfl) :
    OnlyIn F s₀ (takeBoundary n tb s) :=
  h.with_twn.noteStall

theorem boundaryMarkerEmit (h : OnlyIn F s₀ s)
    (hF : Allows F ⟨[.regs, .jct, .tpk, .flt, .twn, .stp], 9⟩ := by exact Allows.mono ‹_› rfl) :
    OnlyIn F s₀ (boundaryMarkerEmit s) :=
  h.ite ((h.with_twn.setTwinState.ite h).takeBoundary.twinSend.ite h)

theorem takeInput {x} (h : OnlyIn F s₀ s)
    (hF : Allows F ⟨[.regs, .twn, .stp], 17⟩ := by exact Allows.mono ‹_› rfl) :
    OnlyIn F s₀ (takeInput x s) :=
  h.ite h.with_twn.bump.noteStall

theorem resendRequest {first count} (h : OnlyIn F s₀ s)
    (hF : Allows F ⟨[.regs, .jct, .tpk, .flt, .twn], 9⟩ := by exact Allows.mono ‹_› rfl) :
    OnlyIn F s₀ (resendRequest first count s) :=
  h.ite ((h.forEach (fun _ _ h1 => h1.twinSend)).isolate.setCause.ite (h.forEach (fun _ _ h1 => h1.twinSend)))

theorem closeSend (h : OnlyIn F s₀ s)
    (hF : Allows F ⟨[.regs, .jct, .tpk, .flt, .twn, .stp], 9⟩ := by exact Allows.mono ‹_› rfl) :
    OnlyIn F s₀ (closeSend s) := by
  unfold Machine.closeSend
  split
  · exact h
  · split
    · exact h
    · exact h.with_twn.twinSend.noteStall

theorem rejoinCopyDone (h : OnlyIn F s₀ s)
    (hF : Allows F ⟨[.regs, .jct, .tpk, .flt, .twn, .stp], 6⟩ := by exact Allows.mono ‹_› rfl) :
    OnlyIn F s₀ (rejoinCopyDone s) := by
  unfold Machine.rejoinCopyDone
  split
  · exact h
  · split
    · split
      · exact h.with_twn.twinSend.ite h
      · exact h.with_twn.noteStall
    · exact h.with_twn.noteStall.ite (h.with_stp.with_twn.setRg.setTwinState.setCause.ite h)

end OnlyIn

theorem onlyIn_twinSend (kind step seq : Nat) (b : Bytes) (s : State) :
    OnlyIn ⟨[.regs, .jct, .tpk, .flt], 9⟩ s (twinSend kind step seq b s) :=
  .of fun _ _ => (OnlyIn.refl s).twinSend

theorem onlyIn_setCause_late {r i b : Nat} (s : State) : OnlyIn ⟨[.regs, .flt], 0⟩ s (setCause r i b s) :=
  .of fun _ _ => (OnlyIn.refl s).setCause

/-! ### Cause bits above the collector's registers -/

theorem bit_setRgF_low {r i r' i' j : Nat} {v : Nat} {s : State} (hj : 1 ≤ j) (hj' : j < 32) :
    bit (rg r i (setRgF r' i' 0 0 v s)) j = bit (rg r i s) j := by
  by_cases h : rkey r i = rkey r' i'
  · have he : ∀ t : State, rg r i t = rg r' i' t := fun t => by rw [rg, rg, h]
    rw [he, he, setRgF, rg_setRg_same, bit_setFld_other _ hj' (by omega)]
  · rw [rg_setRgF_other h]

/-- An occurrence that the full queue drops marks its class in bit 0 of one register: no other bit of a register above
the collector's changes. -/
theorem bit_setQueue {r i j : Nat} {q : List Occurrence} {s : State} (hj : 1 ≤ j) (hj' : j < 32)
    (hcnt : rkey r i ≠ rkey FLT_CNT 0) : bit (rg r i (setQueue q s)) j = bit (rg r i s) j := by
  unfold setQueue
  dsimp only
  split
  · rw [rg_bump_other hcnt, bit_setRgF_low hj hj']
    rfl
  · rfl

theorem bit_raiseSrc {r i j src : Nat} {s : State} (hj : 1 ≤ j) (hj' : j < 32) (hcnt : rkey r i ≠ rkey FLT_CNT 0)
    (hsticky : rkey r i ≠ rkey FLT_G_STICKY (src / 32)) : bit (rg r i (raiseSrc src s)) j = bit (rg r i s) j := by
  have hnoted : ∀ rise, rg r i (sourceNoted src rise s) = rg r i s := fun rise =>
    rg_setRg_other _ _ _ _ _ _ hsticky
  unfold raiseSrc
  split
  · rw [setSticky, rg_setRg_other _ _ _ _ _ _ hsticky]
  · rw [occurs_eq]
    split
    · rw [hnoted]
    · rw [queueSource, bit_setQueue hj hj' hcnt, occurrenceCounted, rg_setRgF_other hcnt]
      exact congrArg (bit · j) (hnoted false)

theorem bit_setCause_late {r i j : Nat} {s : State} (hj : 1 ≤ j) (hj' : j < 32) (hcnt : rkey r i ≠ rkey FLT_CNT 0)
    (hsticky : ∀ src, causeSource r i j = some src → rkey r i ≠ rkey FLT_G_STICKY (src / 32)) :
    bit (rg r i (setCause r i j s)) j = true := by
  have hset : bit (rg r i (setRg r i (setBit (rg r i s) j true) s)) j = true := by
    rw [rg_setRg_same, bit_setBit_same _ _ _ hj']
  unfold setCause
  split
  · next h => exact h
  · extract_lets s1
    split
    · next src hsrc => rwa [bit_raiseSrc hj hj' hcnt (hsticky src hsrc)]
    · exact hset

theorem bit_twinCause {j : Nat} (s : State) (hj : 1 ≤ j) (hj' : j < 9) :
    bit (rg TWN_CAUSE 0 (setCause TWN_CAUSE 0 j s)) j = true := by
  refine bit_setCause_late hj (by omega) (by decide) fun src h => ?_
  obtain rfl : 1792 + j = src := Option.some.inj h
  simp only [rkey, TWN_CAUSE, FLT_G_STICKY]
  omega

/-! ### Rejoining (R370) -/

/-- What the resets of a rejoin keep: memory, the twin unit and every reset that is in force. -/
structure RejoinKept (s t : State) : Prop where
  mem : t.mem = s.mem
  twn : t.twn = s.twn
  reset : ∀ f, inReset f s = true → inReset f t = true

theorem RejoinKept.refl (s : State) : RejoinKept s s := ⟨rfl, rfl, fun _ h => h⟩

theorem RejoinKept.trans {s t u : State} (h : RejoinKept s t) (h' : RejoinKept t u) : RejoinKept s u :=
  ⟨h'.mem.trans h.mem, h'.twn.trans h.twn, fun f hf => h'.reset f (h.reset f hf)⟩

theorem rejoinKept_of {G : Scope} {s t : State} (h : OnlyIn G s t) (hmem : G.parts.contains .mem = false)
    (htwn : G.parts.contains .twn = false)
    (hfloor : 1 ≤ G.floor) : RejoinKept s t :=
  ⟨h.keeps .mem hmem, h.keeps .twn htwn, fun f hf => (h.inReset f hfloor).trans hf⟩

theorem rejoinKept_setInReset (f : Nat) (s : State) : RejoinKept s (setInReset f true s) :=
  have h := onlyIn_setInReset f true s
  ⟨h.keeps .mem, h.keeps .twn, fun _ hg => inReset_setInReset_keeps f hg⟩

theorem startReset_held {f : Nat} {s : State} (h : inReset f s = true) : startReset f s = s :=
  if_pos (.inr h)

theorem rejoin_district {d : Nat} (hd : d < 64) (s : State) : RejoinKept s (startReset (132 + d) s) ∧
    inReset (132 + d) (startReset (132 + d) s) = true := by
  cases h : inReset (132 + d) s with
  | true =>
    rw [startReset_held h]
    exact ⟨.refl s, h⟩
  | false =>
    rw [startReset_district hd h]
    have hc : OnlyIn ⟨[.regs, .lanes, .districts], 6⟩ s (clearDistrict d s) :=
      .of fun _ _ => (OnlyIn.refl s).clearDistrict
    exact ⟨(rejoinKept_of hc (by decide) (by decide) (by decide)).trans (rejoinKept_setInReset _ _),
      inReset_setInReset _ (by omega)⟩

theorem rejoin_districts {l : List Nat} (hl : ∀ d ∈ l, d < 64) (s : State) :
    RejoinKept s (forEach l (fun d => startReset (132 + d)) s) ∧
      ∀ d ∈ l, inReset (132 + d) (forEach l (fun d => startReset (132 + d)) s) = true := by
  induction l generalizing s with
  | nil => exact ⟨.refl s, fun _ h => absurd h List.not_mem_nil⟩
  | cons d l ih =>
    obtain ⟨hkept, hd⟩ := rejoin_district (hl d List.mem_cons_self) s
    obtain ⟨hkept', hl'⟩ := ih (fun d h => hl d (List.mem_cons_of_mem _ h)) (startReset (132 + d) s)
    rw [forEach_cons]
    refine ⟨hkept.trans hkept', fun e he => ?_⟩
    rcases List.mem_cons.1 he with rfl | he
    · exact hkept'.reset _ hd
    · exact hl' e he

theorem resetRow_stays : ∀ w : Fin 8,
    (ownerOf (SYS_RST_STAT + 4 * w) 0 == 200 && countReg (SYS_RST_STAT + 4 * w)) = false := by
  decide +kernel

theorem inReset_zeroRoads (f : Nat) (s : State) : inReset f (zeroCounts 200 s) = inReset f s := by
  by_cases hf : f < 215
  · have hrow := resetRow_stays ⟨f / 32, by omega⟩
    have hrg : rg (SYS_RST_STAT + 4 * (f / 32)) 0 (zeroCounts 200 s) = rg (SYS_RST_STAT + 4 * (f / 32)) 0 s := by
      have h1 : rkey (SYS_RST_STAT + 4 * (f / 32)) 0 / 2 ^ 24 = SYS_RST_STAT + 4 * (f / 32) := by
        simp only [rkey]; omega
      have h2 : rkey (SYS_RST_STAT + 4 * (f / 32)) 0 % 2 ^ 24 = 0 := by simp only [rkey]; omega
      rw [rg, zeroCounts, dropRegs]
      refine (sget_sfilter _ _ _ _).trans (if_pos ?_)
      rw [h1, h2]
      dsimp only at hrow
      rw [hrow]
      rfl
    rw [inReset, inReset, hrg]
  · rw [inReset, inReset, decide_eq_false hf, Bool.false_and, Bool.false_and]

theorem rejoin_roads (s : State) : RejoinKept s (startReset 200 s) ∧ inReset 200 (startReset 200 s) = true := by
  cases h : inReset 200 s with
  | true =>
    rw [startReset_held h]
    exact ⟨.refl s, h⟩
  | false =>
    have he : startReset 200 s = setInReset 200 true (clearRoads (zeroCounts 200 s)) := by
      unfold startReset
      rw [if_neg (by simp [h])]
      rfl
    have hc : OnlyIn ⟨[.regs, .roads, .ingest, .frozen, .tpk, .flt, .gates], 10⟩ (zeroCounts 200 s)
      (clearRoads (zeroCounts 200 s)) := .of fun _ _ => (OnlyIn.refl _).clearRoads
    have hz : RejoinKept s (zeroCounts 200 s) := ⟨rfl, rfl, fun f hf => (inReset_zeroRoads f s).trans hf⟩
    rw [he]
    exact ⟨(hz.trans (rejoinKept_of hc (by decide) (by decide) (by decide))).trans (rejoinKept_setInReset _ _),
      inReset_setInReset _ (by decide)⟩

/-- The twin unit when its merge state has been discarded. -/
def unmerged (t : TwinRun) : TwinRun :=
  { t with paired := false, alone := false, markers := [], inputs := [], ownClose := [], peerClose := [],
           ownDigest := [], peerDigest := [], peerSeq := none, lastMarker := 0 }

/-- The merge state discarded, before the resets of a rejoin. -/
def mergeDiscarded (s : State) : State :=
  let s := setTwinState .rejoining { s with twn := unmerged s.twn }
  { s with stp := { s.stp with held := [], commands := [], heldMsgs := [], delivered := [], stalled := false } }

theorem startRejoin_eq (s : State) : startRejoin s =
    startReset 200 (forEach (List.range 64) (fun d => startReset (132 + d)) (mergeDiscarded s)) := rfl

theorem setTwinState_twn (x : TwinState) (s : State) : (setTwinState x s).twn = { s.twn with state := x } := by
  rw [setTwinState, setRgF, setRg_twn]

theorem setTwinState_mem (x : TwinState) (s : State) : (setTwinState x s).mem = s.mem := by
  rw [setTwinState, setRgF, setRg_mem]

/-- A rejoin resets the roads and every district, and leaves memory (R370). -/
theorem startRejoin_resets (s : State) : (startRejoin s).twn.state = .rejoining ∧ inReset 200 (startRejoin s) = true ∧
    (∀ d : District, inReset (132 + d) (startRejoin s) = true) ∧ (startRejoin s).twn.inputs = [] ∧
    (startRejoin s).mem = s.mem := by
  obtain ⟨hd, hdist⟩ := rejoin_districts (l := List.range 64) (fun d h => List.mem_range.1 h) (mergeDiscarded s)
  obtain ⟨hr, hroads⟩ := rejoin_roads (forEach (List.range 64) (fun d => startReset (132 + d)) (mergeDiscarded s))
  have hkept := hd.trans hr
  have htwn : (mergeDiscarded s).twn = { unmerged s.twn with state := .rejoining } := setTwinState_twn ..
  have hmem : (mergeDiscarded s).mem = s.mem := setTwinState_mem .rejoining _
  rw [startRejoin_eq]
  exact ⟨congrArg (·.state) (hkept.twn.trans htwn), hroads, fun d => hr.reset _ (hdist d (List.mem_range.2 d.isLt)),
    congrArg (·.inputs) (hkept.twn.trans htwn), hkept.mem.trans hmem⟩

/-! ### Markers, inputs and closes (R357-R359) -/

theorem boundaryMarkerEmit_active {s : State} (hon : twinOn s = true) (hm : stepMode s = true)
    (ha : s.twn.state = .active) (hp : s.twn.paired = false) (hb : s.twn.noBoundary = false) :
    boundaryMarkerEmit s = twinSend 3 (s.twn.lastMarker + 1) 0 (beBytes 4 (s.twn.lastTb + w32 (stepNs s)).toNat)
      (takeBoundary (s.twn.lastMarker + 1) (s.twn.lastTb + w32 (stepNs s)) s) := by
  unfold boundaryMarkerEmit
  rw [hon, hm, if_neg (by simp), if_pos (.inl ha), hp, if_neg Bool.false_ne_true]
  dsimp only
  rw [hb, if_neg Bool.false_ne_true]

/-- The twin unit with a marker held. -/
def markerHeld (n : Nat) (tb : Word) (t : TwinRun) : TwinRun :=
  { t with lastMarker := n, lastTb := tb, noBoundary := false, markers := t.markers ++ [(n, tb)],
           resend := t.resend.filter fun x => decide (n < x.step + 64) }

theorem takeBoundary_twn (n : Nat) (tb : Word) (s : State) : (takeBoundary n tb s).twn = markerHeld n tb s.twn :=
  (noteStall_keeps _).2.1

/-- The close of a step noted, with the number of the unit's inputs of it. -/
def closeNoted (n : Nat) (s : State) : State :=
  let k := (s.twn.inputs.filter fun x => x.step = n ∧ x.rank = twinRank s).length
  { s with twn := { s.twn with ownClose := sset none n (some k) s.twn.ownClose } }

theorem closeSend_due {n : Nat} {s : State} (hon : twinOn s = true) (hm : stepMode s = true) (h : closeDue s = some n) :
    closeSend s = noteStall (twinSend 5 n 0
      (beBytes 4 (s.twn.inputs.filter fun x => x.step = n ∧ x.rank = twinRank s).length) (closeNoted n s)) := by
  unfold closeSend
  rw [hon, hm, if_neg (by simp), h]
  rfl

/-- An input held. -/
def inputHeld (x : TwinInput) (s : State) : State := { s with twn := { s.twn with inputs := s.twn.inputs ++ [x] } }

theorem takeInput_new {x : TwinInput} {s : State}
    (h : s.twn.inputs.any (fun y => decide (y.rank = x.rank ∧ y.seq = x.seq)) = false) :
    takeInput x s = noteStall (bump TWN_CNT_IN 0 15 0 (inputHeld x s)) :=
  if_neg (by rw [h]; exact Bool.false_ne_true)

theorem twinInputReceive_on {kind rank : BitVec 8} {step seq : Word} {b : Bytes} {s : State} (h : twinOn s = true)
    (hk : kind = 4) : twinInputReceive kind rank step seq b s =
      takeInput { step := step.toNat, rank := rank.toNat, seq := seq, kind := beAt b 0 1, body := b.drop 4 } s := by
  subst hk
  unfold twinInputReceive
  rw [h, if_neg (by simp)]
  rfl

theorem kindByte (k : Byte) (b : Bytes) : beAt ([k, 0, 0, 0] ++ b) 0 1 = k.toNat := by
  simp [beAt, slice, beVal, leVal]

/-! ### Inputs asked for again (R358) -/

/-- The held inputs that a request names. -/
def inputsAsked (first count : Word) (s : State) : List TwinInput :=
  s.twn.resend.filter fun x => decide ((x.seq - first).toNat < count.toNat)

/-- An input is sent again. -/
def sendInput (x : TwinInput) (s : State) : State :=
  twinSend 4 x.step x.seq.toNat (beBytes 1 x.kind ++ [0, 0, 0] ++ x.body) s

theorem resendRequest_on {first count : Word} {s : State} (h : twinOn s = true) : resendRequest first count s =
    if (inputsAsked first count s).length < count.toNat ∧
        (forEach (inputsAsked first count s) sendInput s).twn.state = .standby then
      setCause TWN_CAUSE 0 5 (isolate (forEach (inputsAsked first count s) sendInput s))
    else forEach (inputsAsked first count s) sendInput s := by
  unfold resendRequest
  rw [h, if_neg (by simp)]
  rfl

theorem onlyIn_sendInputs (l : List TwinInput) (s : State) :
    OnlyIn ⟨[.regs, .jct, .tpk, .flt], 9⟩ s (forEach l sendInput s) :=
  .of fun _ _ => (OnlyIn.refl s).forEach fun _ _ h => h.twinSend

theorem isolate_twn (s : State) : (isolate s).twn.state = .isolated := by
  rw [isolate, setTwinState_twn]

/-! ### The end of the copy (R370) -/

/-- A rejoining unit that takes up the step of the copy. -/
def copyTaken (tb : Word) (s : State) : State :=
  let n := s.twn.syncStep
  let s := { s with stp := { s.stp with step := n, tb := tb, delivered := [], stalled := false } }
  let s := { s with twn := { s.twn with markers := s.twn.markers.filter fun m => decide (n < m.1),
                                        inputs := s.twn.inputs.filter fun x => decide (n ≤ x.step) } }
  setTwinState .standby (setRg LNC_STEP 0 (w32 n) s)

theorem rejoinCopyDone_rejoining {s : State} (hon : twinOn s = true) (h : s.twn.state = .rejoining) :
    ∃ tb, rejoinCopyDone s = setCause TWN_CAUSE 0 8 (copyTaken tb s) := by
  unfold rejoinCopyDone
  rw [hon, if_neg (by simp), if_neg (by simp [h]), if_neg (by simp [h]), if_pos h]
  exact ⟨_, rfl⟩

theorem copyTaken_stands (tb : Word) (s : State) : (copyTaken tb s).twn.state = .standby ∧
    (copyTaken tb s).stp.step = s.twn.syncStep ∧ rg LNC_STEP 0 (copyTaken tb s) = w32 s.twn.syncStep ∧
    (copyTaken tb s).mem = s.mem ∧ (copyTaken tb s).lanes = s.lanes := by
  unfold copyTaken
  extract_lets n s1 s2
  refine ⟨?_, ?_, ?_, ?_, ?_⟩
  · rw [setTwinState_twn]
  · rw [setTwinState, setRgF, setRg_stp, setRg_stp]
  · rw [setTwinState, rg_setRgF_other (by decide)]
    exact rg_setRg_same ..
  · rw [setTwinState_mem, setRg_mem]
  · rw [setTwinState, setRgF, setRg_lanes, setRg_lanes]

theorem rejoinCopyDone_ends {s : State} (hon : twinOn s = true) (ha : s.twn.state = .active)
    (hc : s.twn.copying = true) (hb : syncBody s.twn.syncNext s = none) : rejoinCopyDone s =
      noteStall { s with twn := { s.twn with copying := false, syncNext := 0, alone := false } } := by
  unfold rejoinCopyDone
  rw [hon, if_neg (by simp), if_pos ⟨ha, hc⟩, hb]

theorem rejoinCopyDone_sends {s : State} {b : Bytes} (hon : twinOn s = true) (ha : s.twn.state = .active)
    (hc : s.twn.copying = true) (hb : syncBody s.twn.syncNext s = some b) (hbound : atBoundary s = true) :
    rejoinCopyDone s =
      twinSend 8 s.stp.step 0 b { s with twn := { s.twn with syncNext := s.twn.syncNext + 1 } } := by
  unfold rejoinCopyDone
  rw [hon, if_neg (by simp), if_pos ⟨ha, hc⟩, hb]
  exact if_pos hbound

/-! ### Claim echoes (R366) -/

theorem filter_only : ∀ g : Fin 16, (List.range 16).filter (fun h => decide (h = g.val)) = [g.val] := by decide

theorem outputStageEchoTimer_one {g : Fin 16} {x : Sender} {s : State} (hc : bit (rg TWN_CFG 0 s) 29 = true)
    (hr : inReset 208 s = false) (hg : ∀ h : Fin 16, bit (rg TWN_OS_STAT h s) 31 = decide (h = g))
    (hx : (outGroup g s).senders = [x]) (he : s.mp.tclk - x.edge ≤ claimWindowEdges s) :
    outputStageEchoTimer s = wpSendAssocPort assocEcho wpClaimEcho x.port x.addr (echoPayload g s) s := by
  have hl : (List.range 16).filter (fun h => bit (rg TWN_OS_STAT h s) 31) = [g.val] := by
    rw [← filter_only g]
    refine List.filter_congr fun h hh => (hg ⟨h, List.mem_range.1 hh⟩).trans ?_
    simp only [Fin.ext_iff]
  have hs : (outGroup g s).senders.filter (fun x => decide (s.mp.tclk - x.edge ≤ claimWindowEdges s)) = [x] := by
    rw [hx]
    exact List.filter_cons_of_pos (by exact decide_eq_true he)
  unfold outputStageEchoTimer
  rw [hc, hr, if_pos (by simp), hl, forEach_cons, forEach_nil, sendEchoes, hs, forEach_cons, forEach_nil]

/-- Settles O53, clause by clause: what a unit of a pair merges, sends and takes up when it rejoins. -/
theorem twinUnitsMergeInputsEchoAndRejoin : Obligations.TwinUnitsMergeInputsEchoAndRejoin := by
  unfold Obligations.TwinUnitsMergeInputsEchoAndRejoin
  refine ⟨fun s hon hm => ⟨?_, ?_, ?_⟩, fun s hm => ⟨?_, ?_⟩, ?_, ?_, ?_, ?_, ?_, ?_, ?_, ?_, ?_, ?_,
    fun s hs => ⟨?_, ?_⟩, fun s hon => ⟨?_, ?_, ?_⟩⟩
  · intro ha hp hb
    have hkept := onlyIn_twinSend 3 (s.twn.lastMarker + 1) 0 (beBytes 4 (s.twn.lastTb + w32 (stepNs s)).toNat)
      (takeBoundary (s.twn.lastMarker + 1) (s.twn.lastTb + w32 (stepNs s)) s)
    have htwn := (hkept.keeps .twn).trans (takeBoundary_twn ..)
    have hb' : OnlyIn ⟨[.twn, .stp], 0⟩ s (takeBoundary (s.twn.lastMarker + 1) (s.twn.lastTb + w32 (stepNs s)) s) :=
      .of fun _ _ => (OnlyIn.refl s).takeBoundary
    refine ⟨_, rfl, ?_⟩
    rw [boundaryMarkerEmit_active hon hm ha hp hb]
    exact ⟨congrArg (·.lastMarker) htwn, congrArg (·.lastTb) htwn, congrArg (·.markers) htwn,
      (hkept.keeps .mem).trans (hb'.keeps .mem), (hkept.keeps .lanes).trans (hb'.keeps .lanes)⟩
  · intro n hn
    have hsent := onlyIn_twinSend 5 n 0
      (beBytes 4 (s.twn.inputs.filter fun x => x.step = n ∧ x.rank = twinRank s).length) (closeNoted n s)
    have hstall : ∀ t : State, OnlyIn ⟨[.stp], 0⟩ t (noteStall t) := fun t => .of fun _ _ => (OnlyIn.refl t).noteStall
    refine ⟨_, rfl, ?_⟩
    rw [closeSend_due hon hm hn]
    have htwn := ((hstall _).keeps .twn).trans (hsent.keeps .twn)
    refine ⟨?_, congrArg (·.inputs) htwn, ((hstall _).keeps .mem).trans (hsent.keeps .mem),
      ((hstall _).keeps .lanes).trans (hsent.keeps .lanes)⟩
    rw [htwn]
    exact sget_sset_same none n (some _) s.twn.ownClose
  · intro h
    refine congrArg Host.Outcome.next ?_
    unfold closeSend
    rw [hon, hm, if_neg (by simp), h]
  · exact congrArg Host.Outcome.next (if_pos (.inr (by simp [hm])))
  · exact congrArg Host.Outcome.next (if_pos (.inr (by simp [hm])))
  · intro r n q k b s hon hnew
    refine ⟨_, rfl, ?_⟩
    rw [twinInputReceive_on hon rfl, kindByte, takeInput_new hnew]
    obtain ⟨hregs, htwn, -⟩ := noteStall_keeps (bump TWN_CNT_IN 0 15 0
      (inputHeld { step := n.toNat, rank := r.toNat, seq := q, kind := k.toNat, body := b } s))
    have hstall : ∀ t : State, OnlyIn ⟨[.stp], 0⟩ t (noteStall t) := fun t => .of fun _ _ => (OnlyIn.refl t).noteStall
    refine ⟨?_, ?_, ?_, ?_⟩
    · rw [show ([k, 0, 0, 0] ++ b : Bytes).drop 4 = b from rfl, htwn, bump_eq, setRg_twn]
      rfl
    · rw [show ([k, 0, 0, 0] ++ b : Bytes).drop 4 = b from rfl]
      refine (congrArg (fld · 15 0) (rg_congr hregs _ _)).trans ?_
      exact rgF_bump_same _ _ _ _ _ (by decide) (by decide)
    · exact ((hstall _).keeps .mem).trans (setRg_mem ..)
    · exact ((hstall _).keeps .lanes).trans (setRg_lanes ..)
  · intro r n q b s hon hheld
    refine congrArg Host.Outcome.next ((twinInputReceive_on hon rfl).trans (if_pos ?_))
    exact hheld
  · intro r n q b s hon
    refine congrArg Host.Outcome.next ?_
    unfold twinInputReceive
    rw [hon, if_neg (by simp)]
    rfl
  · intro first count s hon found h
    have hkept := onlyIn_sendInputs (inputsAsked first count s) s
    have he : resendRequest first count s = forEach (inputsAsked first count s) sendInput s := by
      refine (resendRequest_on hon).trans (if_neg fun ⟨hlt, hst⟩ => ?_)
      rw [hkept.keeps .twn] at hst
      exact h.elim (fun h => h hst) fun h => absurd hlt (Nat.not_lt.2 h)
    exact ⟨_, rfl, he, he ▸ hkept.keeps .twn, he ▸ hkept.keeps .mem, he ▸ hkept.keeps .lanes⟩
  · intro first count s hon hst hcount hnone
    have hnone' : inputsAsked first count s = [] := hnone
    have hpos : 0 < count.toNat := Nat.pos_of_ne_zero fun h => hcount (BitVec.eq_of_toNat_eq h)
    have he : resendRequest first count s = setCause TWN_CAUSE 0 5 (isolate s) := by
      rw [resendRequest_on hon, hnone', forEach_nil]
      exact if_pos ⟨hpos, hst⟩
    have hcause : OnlyIn ⟨[.regs, .flt], 0⟩ (isolate s) (setCause TWN_CAUSE 0 5 (isolate s)) := onlyIn_setCause_late _
    have hiso : OnlyIn ⟨[.regs, .twn], 17⟩ s (isolate s) := .of fun _ _ => (OnlyIn.refl s).isolate
    refine ⟨_, rfl, ?_⟩
    rw [he]
    exact ⟨(congrArg (·.state) (hcause.keeps .twn)).trans (isolate_twn s), bit_twinCause _ (by decide) (by decide),
      (hcause.keeps .mem).trans (hiso.keeps .mem), (hcause.keeps .lanes).trans (hiso.keeps .lanes)⟩
  · intro first count s hst hnone
    refine congrArg Host.Outcome.next ?_
    by_cases hon : twinOn s = true
    · have hnone' : inputsAsked first count s = [] := hnone
      rw [resendRequest_on hon, hnone', forEach_nil]
      exact if_neg fun h => hst h.2
    · exact if_pos hon
  · exact fun g x s hc hr hg hx he => congrArg Host.Outcome.next (outputStageEchoTimer_one hc hr hg hx he)
  · intro s h
    exact congrArg Host.Outcome.next (if_neg fun ⟨hc, hr⟩ => h.elim (fun h => by simp [h] at hc) (fun h => hr h))
  · intro p v s h
    refine congrArg Host.Outcome.next ?_
    cases hw : writable p TWN_CTRL 0 s with
    | false => exact atGlobal_ignored _ _ _ _ hw
    | true =>
      refine (atGlobal_taken _ _ _ _ hw).trans (if_neg fun h' => h.elim (fun h => h h'.2) fun h => ?_)
      rw [hw] at h
      exact Bool.noConfusion h
  · intro s h
    refine congrArg Host.Outcome.next (if_neg fun ⟨_, hst, hauto, hseen, _⟩ => ?_)
    rcases h with h | h | h
    · exact h hst
    · rw [h] at hauto
      exact Bool.noConfusion hauto
    · omega
  · intro p v hw hv
    have he : twnCtrlRejoin p v s = startRejoin s := (atGlobal_taken _ _ _ _ hw).trans (if_pos ⟨hv, hs⟩)
    refine ⟨_, rfl, ?_⟩
    rw [he]
    exact startRejoin_resets s
  · intro hon hauto hseen hcause
    have he : rejoinAuto s = startRejoin s := if_pos ⟨hon, hs, hauto, hseen, hcause⟩
    obtain ⟨hstate, hroads, hdistricts, -, hmem⟩ := startRejoin_resets s
    refine ⟨_, rfl, ?_⟩
    rw [he]
    exact ⟨hstate, hroads, hdistricts, hmem⟩
  · intro h
    obtain ⟨tb, he⟩ := rejoinCopyDone_rejoining hon h
    obtain ⟨hstate, hstep, hreg, hmem, hlanes⟩ := copyTaken_stands tb s
    have hcause : OnlyIn ⟨[.regs, .flt], 0⟩ (copyTaken tb s) (setCause TWN_CAUSE 0 8 (copyTaken tb s)) :=
      onlyIn_setCause_late _
    refine ⟨_, rfl, ?_⟩
    rw [he]
    exact ⟨(congrArg (·.state) (hcause.keeps .twn)).trans hstate, (congrArg (·.step) (hcause.keeps .stp)).trans hstep,
      (rg_setCause_other (by decide) (by decide)).trans hreg, bit_twinCause _ (by decide) (by decide),
      (hcause.keeps .mem).trans hmem, (hcause.keeps .lanes).trans hlanes⟩
  · exact fun ha hc hbound b hb => congrArg Host.Outcome.next (rejoinCopyDone_sends hon ha hc hb hbound)
  · intro ha hc hb
    refine ⟨_, rfl, ?_⟩
    rw [rejoinCopyDone_ends hon ha hc hb]
    generalize hu : ({ s with twn := { s.twn with copying := false, syncNext := 0, alone := false } } : State) = u
    have hstall : OnlyIn ⟨[.stp], 0⟩ u (noteStall u) := .of fun _ _ => (OnlyIn.refl u).noteStall
    rw [hstall.keeps .twn, hstall.keeps .mem, hstall.keeps .lanes, ← hu]
    exact ⟨ha, rfl, rfl, rfl, rfl⟩

end Sys2Proof.Machine
end
